-- ==== Sys2Proof/Word.lean ====
section
/-! DEFINITION. The machine's words: bit-vector names, and the plain fixed-width arithmetic on them. -/

namespace Sys2Proof

/-- A 32-bit word of program text, or a 32-bit vector element (R6, R164). -/
abbrev Word := BitVec 32

/-- A 64-bit dword: scalar registers, queue entries, program counters. -/
abbrev Dword := BitVec 64

/-- One byte. -/
abbrev Byte := BitVec 8

/-- One 64-byte vector row (R69). -/
abbrev Row := BitVec 512

/-- A 16-byte record of the event queue (R121). -/
abbrev Rec16 := BitVec 128

/-- A vector register: 32 rows of 16 elements, element (i, j) at index 16 i + j (R164). -/
abbrev VReg := Vector Word 512

/-- A mask register: bit 16 i + j belongs to element (i, j) (R164). -/
abbrev Mask := BitVec 512

end Sys2Proof
end

