-- ==== Sys2Proof/Kinds.lean ====
section
/-! DEFINITION. The named alternatives the syntax and the state are written with: engines, directions, roundings,
access sizes, the reasons a word does not decode, and what the outside world hands to the machine. -/

namespace Sys2Proof

/-- The four engines of a tile, numbered X 0, A 1, V 2, M 3 (R57). -/
inductive Eng where
  | x | a | v | m
  deriving DecidableEq, Repr, Inhabited

/-- The direction of a vector operand (R79, R92). -/
inductive Dir where
  | whole | row | col | diag
  deriving DecidableEq, Repr, Inhabited

/-- A vector operand: a register number and a direction (R92). -/
structure VOp where
  dir : Dir
  reg : BitVec 5
  deriving DecidableEq, Repr, Inhabited

/-- A rounding direction (R188): to nearest even, to zero, down, up. -/
inductive Rnd where
  | rne | rtz | rdn | rup
  deriving DecidableEq, Repr, Inhabited

/-- The access size of a MEM word: 1, 2, 4 or 8 bytes (R89). -/
inductive MSize where
  | b | h | w | d
  deriving DecidableEq, Repr, Inhabited

/-- The immediate of an RI word with its EXT words (R84, R91). -/
inductive RImm where
  | short (imm12 : BitVec 12)
  | one (e1 : BitVec 29) (imm12 : BitVec 12)
  | two (e1 : BitVec 23) (e2 : BitVec 29) (imm12 : BitVec 12)
  deriving DecidableEq, Repr, Inhabited

/-- The kinds of decoding fault, TINFO1 of ILLEGAL_WORD (R101). -/
inductive BadWord where
  | reservedTag | unassigned | fieldValue | reservedBits | extIllegal | extThird
  deriving DecidableEq, Repr, Inhabited

/-- The faults that lead to a region rollback (R323). -/
inductive Rollback where
  /-- an uncorrectable error in the vector register file, the accumulator storage or an accepted operand -/
  | uncorrectable
  /-- a lost head or a lost boundary (R203) -/
  | lostState
  /-- VUNPARK of a copy that could not be saved (R327) -/
  | lostPark
  /-- an uncorrectable error appears in a line of memory, by key divided by 128: an access that reaches it meets UNCORRECTABLE (R318) -/
  | inLine (line : Nat)
  deriving DecidableEq, Repr, Inhabited

/-- Header of a remote packet (R280). -/
structure RHdr where
  va     : BitVec 55 := 0
  flag   : BitVec 55 := 0
  gen    : BitVec 16 := 0
  vf     : BitVec 10 := 0
  stile  : BitVec 10 := 0
  sdev   : BitVec 6 := 0
  ddev   : BitVec 6 := 0
  stream : BitVec 4 := 0
  path   : BitVec 2 := 0
  ssn    : BitVec 32 := 0
  psn    : BitVec 32 := 0
  epoch  : BitVec 8 := 0
  /-- the model's own, and no field of the packet: the bits of the dispatch count above EPOCH (DESIGN CHOICE, unsafe: log entry 112) -/
  era    : Nat := 0
  fl     : Bool := false
  ord    : Bool := false
  aop    : BitVec 4 := 0
  aw     : Bool := false
  op     : BitVec 8 := 0
  deriving DecidableEq, Repr, Inhabited

/-- Header of a transfer packet (R249). -/
structure XHdr where
  c0    : BitVec 32 := 0
  c1    : BitVec 32 := 0
  c2    : BitVec 32 := 0
  c3    : BitVec 32 := 0
  ddev  : BitVec 6 := 0
  slice : Bool := false
  unit  : BitVec 10 := 0
  gen   : BitVec 16 := 0
  vf    : BitVec 10 := 0
  stile : BitVec 10 := 0
  sdev  : BitVec 6 := 0
  run   : BitVec 8 := 0
  fmt   : BitVec 4 := 0
  key   : BitVec 24 := 0
  deriving DecidableEq, Repr, Inhabited

/-- A packet of the fabric or of the package network (R280). `src` is the device that put this hop on the wire. -/
inductive Packet where
  | remote (src : BitVec 6) (h : RHdr) (body : List Byte)
  | xfer (src : BitVec 6) (h : XHdr) (payload : List Byte)
  deriving DecidableEq, Repr, Inhabited

/-- The four classes of message (R262). -/
inductive MClass where
  | req | rsp | atm | mgt
  deriving DecidableEq, Repr, Inhabited

/-- What a flit says about lanes (R286): an announcement that the lane on plane q of the bridge leaves or is back, or a
request that it do so; that a receiving lane there has lost lock. -/
inductive LaneChange where
  | leave (q : Nat) | back (q : Nat) | askLeave (q : Nat) | askBack (q : Nat) | lost (q : Nat)
  deriving DecidableEq, Repr, Inhabited

/-- A flit (R277). The model carries the packets that end in the flit's body; a packet that continues in
a later flit stands in that later one (DESIGN CHOICE, unsafe: log entry 9). -/
structure Flit where
  seq    : BitVec 32 := 0
  rseq   : BitVec 32 := 0
  rreq   : BitVec 8 := 0
  rrsp   : BitVec 8 := 0
  ratm   : BitVec 8 := 0
  rmgt   : BitVec 8 := 0
  cls    : MClass := .req
  nak    : Bool := false
  empty  : Bool := false
  /-- body offset of the first packet that starts here, 255 for none (R277) -/
  first  : BitVec 8 := 255
  pkts   : List Packet := []
  change : Option LaneChange := none
  /-- the lane of its sub-link on which it goes out, 0 for the lower-numbered plane (R277) -/
  lane   : Nat := 0
  deriving DecidableEq, Repr, Inhabited

/-- Where the packets of a TRANSFER_PACKET step come from: the head command of a tile's XFQ, the rake of a
cluster, or the k-th packet that arrived from another device. -/
inductive XSrc where
  | command (tile : Nat)
  | rake (cluster : Nat)
  | arrival (k : Nat)
  deriving DecidableEq, Repr, Inhabited

/-- An address a system core uses: physical (privileged), or virtual under an ASID and a VF. -/
inductive CAddr where
  | phys (pa : Dword)
  | virt (asid : BitVec 16) (vf : BitVec 10) (va : Dword)
  deriving DecidableEq, Repr, Inhabited

/-- What a DMA write of a root port names: the port, the ASID and VF it is made under, and the address (R235). -/
structure DmaAddr where
  port : BitVec 3 := 0
  asid : BitVec 16 := 0
  vf   : BitVec 10 := 0
  va   : Dword := 0
  deriving DecidableEq, Repr, Inhabited

/-- A register of a system core that a memory operation names: an integer register, or a floating-point one. -/
inductive CReg where
  | x (r : BitVec 5)
  | f (r : BitVec 5)
  deriving DecidableEq, Repr, Inhabited

/-- The instructions of a system core whose effect the spec gives (R298, R369); `tlbinv` is the equivalent of TLBINV: scope 0 a page, 1 an
ASID, 2 all (R236). A load or store of a vector instruction is that of one element, `last` its last. -/
inductive CoreOp where
  | load (rd : CReg) (a : CAddr) (size : MSize) (signed : Bool)
  | store (a : CAddr) (size : MSize) (rs : CReg)
  | vload (vd : BitVec 5) (i : Nat) (a : CAddr) (size : MSize) (last : Bool)
  | vstore (vs : BitVec 5) (i : Nat) (a : CAddr) (size : MSize) (last : Bool)
  /-- a block of 64 bytes is zeroed -/
  | zero (a : CAddr)
  | amo (rd : BitVec 5) (a : CAddr) (wide : Bool) (op : BitVec 4) (rs : BitVec 5)
  | lr (rd : BitVec 5) (a : CAddr) (wide : Bool)
  | sc (rd : BitVec 5) (a : CAddr) (wide : Bool) (rs : BitVec 5)
  /-- the bits of each set: device input 8, device output 4, reads 2, writes 1 -/
  | fence (pred succ : BitVec 4)
  | timer (rd : BitVec 5) (csr : BitVec 12) (v : Dword)
  | tlbinv (scope : BitVec 2) (asid : BitVec 16) (va : Dword)
  /-- any other instruction -/
  | other
  deriving DecidableEq, Repr, Inhabited

/-- The privilege levels of a system core, as RVA23 has them (R377). -/
inductive CLevel where
  | user | supervisor | machine
  deriving DecidableEq, Repr, Inhabited

/-- What an instruction of a system core whose effect is RISC-V's own leaves, or a trap that one takes: the next pc, the registers it writes,
the CSRs by number, and the mode. -/
structure CoreWrites where
  pc    : Dword := 0
  x     : Option (BitVec 5 × Dword) := none
  f     : Option (BitVec 5 × Dword) := none
  /-- bytes of the vector register file -/
  v     : List (Nat × Byte) := []
  csr   : List (BitVec 12 × Dword) := []
  level : CLevel := .machine
  virt  : Bool := false
  deriving DecidableEq, Repr, Inhabited

/-- A firmware image (R379): its security version, the root public key that it names, its octets, and its signature. -/
structure Firmware where
  ver  : Dword := 0
  keyX : Nat := 0
  keyY : Nat := 0
  body : List Byte := []
  r    : Nat := 0
  s    : Nat := 0
  deriving DecidableEq, Repr, Inhabited

/-- What may come from outside at a root port (R377): its mode, the ranges of chunks of CXL memory that are there by then, a DMA read; and a
firmware image that is written to flash (R379). -/
inductive PortEvent where
  | mode (cxl : Bool)
  | memory (l : List (Nat × Nat))
  | read (a : DmaAddr) (n : Nat)
  | flash (f : Firmware)
  deriving DecidableEq, Repr, Inhabited

/-- Engine numbers (R57). -/
def Eng.idx : Eng → Fin 4
  | .x => 0 | .a => 1 | .v => 2 | .m => 3

/-- The four engines in order. -/
def Eng.all : List Eng := [.x, .a, .v, .m]

end Sys2Proof
end

