-- ==== Sys2Proof/Machine/NMap.lean ====
section
/-! DEFINITION. A finite map from numbers to values, held as a list sorted by key: what a unit number selects. -/

namespace Sys2Proof.Machine

/-- Entries sorted by key. A key with no entry has the default the reader names. -/
structure NMap (α : Type) where
  entries : List (Nat × α) := []
  deriving DecidableEq, Repr

/-- Look a key up in a list of entries. -/
def lookupN {α : Type} (k : Nat) : List (Nat × α) → Option α
  | [] => none
  | (j, x) :: r => if j = k then some x else lookupN k r

/-- Insert or replace the entry of a key, keeping the list sorted. -/
def insertN {α : Type} (k : Nat) (x : α) : List (Nat × α) → List (Nat × α)
  | [] => [(k, x)]
  | (j, y) :: r => if j = k then (k, x) :: r else if k < j then (k, x) :: (j, y) :: r else (j, y) :: insertN k x r

/-- The value at a key, if the map lists it. -/
def NMap.find {α : Type} (m : NMap α) (k : Nat) : Option α := lookupN k m.entries

/-- The value at a key, with the value of an unlisted one. -/
def NMap.get {α : Type} (m : NMap α) (d : α) (k : Nat) : α := (m.find k).getD d

/-- The map with a value at a key. -/
def NMap.set {α : Type} (m : NMap α) (k : Nat) (x : α) : NMap α := ⟨insertN k x m.entries⟩

/-- The map with the entries whose key fails a test removed. -/
def NMap.keep {α : Type} (m : NMap α) (p : Nat → α → Bool) : NMap α := ⟨m.entries.filter fun e => p e.1 e.2⟩

end Sys2Proof.Machine
end

