-- ==== Sys2Proof/Machine/TileState.lean ====
section
/-! DEFINITION. What one tile holds (files 04, 07 to 10, 12, 18, 23): the state of the iteration it runs, and what outlives
the iteration. The defaults are the values at power-up. -/

namespace Sys2Proof.Machine

/-- A structure that holds translations (R235): the TLB of A, of instruction fetch, of the command engines of a tile; that of the fetch
unit and rake of a cluster; the second level of a cluster; that of a system core, of a root port; what hardware's own updates use (DESIGN CHOICE,
safe: log entry 12). -/
inductive TlbId where
  | access (t : Nat)
  | fetch (t : Nat)
  | command (t : Nat)
  | matrix (c : Nat)
  | cluster (c : Nat)
  | core (n : Nat)
  | port (k : Nat)
  | own
  deriving DecidableEq, Repr

/-- On whose behalf an access is made: the tile whose local window it sees (640 for none), the TLB it uses, its ASID, VF and
privilege. -/
structure Who where
  tile : Nat := 640
  unit : TlbId := .own
  asid : BitVec 16 := 0
  vf   : BitVec 10 := 0
  priv : Bool := false
  deriving DecidableEq, Repr

/-- Whose program timestamp an access moves (R243, R302); a timestamp that hardware's own update must carry (R309); none for
accesses that no agent makes. -/
inductive Agent where
  | stamp (x : Dword)
  | tile (t p : Nat)
  | core (n : Nat)
  | stream (k : Nat)
  | none
  deriving DecidableEq, Repr

/-- Where a translated address lies. -/
inductive Loc where
  | hbm (pa : Nat)
  | spad (tile off : Nat)
  | staging (slice off : Nat)
  | port (vf : Nat)
  deriving DecidableEq, Repr

/-- The instructions that take an extended immediate (R89, R91). -/
inductive RiOp where
  | addi | andi | ori | xori | slti | aaddi | aandi
  deriving DecidableEq, Repr, Inhabited

/-- The nearest word before an engine in its walk that is not an EXT word (R59): none at the start of a walk, a C word, a
word of an engine, or an RI word of this engine whose EXT words are being walked, with the first of them. -/
inductive Prev where
  | none
  | c
  | other (owner : Eng)
  | ri (op : RiOp) (d a : BitVec 5) (imm : BitVec 12) (e1 : Option (BitVec 29))
  deriving DecidableEq, Repr, Inhabited

/-- Why an engine waits: the code of R75 (0 for a wait that is not counted) and its queue or counter number. -/
structure Wait where
  code   : BitVec 8
  detail : BitVec 8 := 0
  /-- the cycle of the wait is a V issue cycle (R175, R177) -/
  tick   : Bool := false
  deriving DecidableEq, Repr

/-- One engine of a tile (R57, R65, R67, R72). -/
structure Engine where
  pc      : Dword := 0
  walk    : Dword := 0
  ret     : List Dword := []
  outs    : List Dword := []
  stopped : Bool := false
  halted  : Bool := false
  wait    : Option Wait := none
  prev    : Prev := .none
  rgnPc   : Dword := 0
  rgnWalk : Dword := 0
  rgnRet  : List Dword := []
  deriving DecidableEq, Repr

/-- The register files (R78, R164, R205). A register that reads as a constant is so in the accessor. -/
structure Regs where
  s : Vector Dword 32 := Vector.replicate 32 0
  a : Vector Dword 32 := Vector.replicate 32 0
  c : Vector Dword 16 := Vector.replicate 16 0
  v : Vector VReg 32 := Vector.replicate 32 (Vector.replicate 512 0)
  k : Vector Mask 8 := Vector.replicate 8 0
  deriving DecidableEq, Repr

/-- The architectural queues, head first (R69). -/
structure Queues where
  ax : List Dword := []
  xa : List Dword := []
  av : List Row := []
  va : List Row := []
  xv : List Dword := []
  vx : List Dword := []
  xm : List Dword := []
  mx : List Dword := []
  deriving DecidableEq, Repr

/-- The control registers of the iteration (R127, R164, R172, R206, R36). -/
structure Csrs where
  win     : BitVec 16 := 0
  rows    : BitVec 6 := 32
  cols    : BitVec 5 := 16
  curRow  : BitVec 5 := 0
  curCol  : BitVec 4 := 0
  curDiag : BitVec 4 := 0
  vrb     : BitVec 4 := 0
  vmask   : BitVec 3 := 0
  vflags  : BitVec 5 := 0
  mstat   : BitVec 4 := 0
  shM     : BitVec 9 := 0
  shN     : BitVec 9 := 0
  shK     : BitVec 10 := 0
  bd      : Vector (BitVec 16) 8 := Vector.replicate 8 65535
  bcap    : BitVec 13 := 0
  cord    : BitVec 55 := 0
  cstep   : Word := 0
  chainE  : Option Dword := none
  tvec    : Dword := 0
  asid    : BitVec 16 := 0
  vfid    : BitVec 10 := 0
  ctxptr  : Dword := 0
  profctl : BitVec 4 := 0
  profbuf : BitVec 55 := 0
  deriving DecidableEq, Repr

/-- A user-trap handler that runs on X (R114): its PC, its return stack, the word before it. -/
structure Hand where
  pc   : Dword
  ret  : List Dword := []
  prev : Prev := .none
  wait : Option Wait := none
  deriving DecidableEq, Repr

/-- The trap registers and the handler (R315, R316). -/
structure TrapSt where
  cause : Dword := 0
  pc    : Dword := 0
  eng   : Dword := 0
  info0 : Dword := 0
  info1 : Dword := 0
  info2 : Dword := 0
  info3 : Dword := 0
  hand  : Option Hand := none
  undel : Bool := false
  /-- rollback impossible: the tile is frozen with a record of kind 5 (R323) -/
  stuck : Bool := false
  /-- a rollback that fell while a handler ran waits until ERET (R323) -/
  pendRb : Option Rollback := none
  /-- after ERET from a trap of M, the queue-backed engines (R335) -/
  mHold : Bool := false
  deriving DecidableEq, Repr

/-- A pending special-function result (R176 to R178): the walk count of its word, the issue cycles left, the function, the
physical register, the values, the active elements and the flags it raises. -/
structure Sfu where
  walk : Dword
  rem  : Nat
  func : BitVec 3
  preg : BitVec 5
  data : VReg
  act  : Mask
  flags : BitVec 5
  deriving DecidableEq, Repr

/-- The lease of a tile (R198 to R204). -/
structure Lease where
  held  : Bool := false
  left  : Nat := 0
  cap   : Nat := 64
  lastW : BitVec 24 := 0
  lastF : BitVec 4 := 0
  endc  : BitVec 4 := 0
  /-- a trap of M ended the lease; its budget is kept and the trapping word reopens it (R202, R225) -/
  trapped : Bool := false
  deriving DecidableEq, Repr

/-- The parked copy of a physical vector register (R192, R193, R327). -/
inductive Park where
  /-- rows held in the accumulator storage, slot by slot -/
  | held (rows : Nat) (data : VReg) (slots : List Nat)
  /-- saved to the park block at a hand-over -/
  | saved (rows : Nat)
  /-- lost: the park block could not be written -/
  | lost
  deriving DecidableEq, Repr

/-- A marker that MARK returned: its sequence number, its paths, and the walk count before which it names accesses (R158). -/
structure Marker where
  seq   : Nat
  paths : BitVec 6
  walk  : Dword
  deriving DecidableEq, Repr

/-- The iteration a tile runs (R44, R52). -/
structure Iter where
  /-- the order of dispatches on the device; the model's name of the iteration -/
  serial : Nat := 0
  node   : Nat := 0
  nodeVa : Dword := 0
  wid    : Dword := 0
  vals   : List Word := []
  faultq : BitVec 55 := 0
  prio   : BitVec 4 := 0
  ctxOk  : Bool := false
  spOff  : Nat := 0
  spLen  : Nat := 0
  term   : Bool := false
  deriving DecidableEq, Repr

/-- How the stores of an iteration's network streams are numbered (R282, R283). -/
structure NetNums where
  /-- the dispatch count of the tile when the iteration was dispatched (R280) -/
  epoch   : BitVec 8 := 0
  /-- the bits of the dispatch count above EPOCH -/
  era     : Nat := 0
  /-- next SSN less 1 per (stream, target), next PSN less 1 per (stream, target, path) -/
  ssn     : NMap Word := {}
  psn     : NMap Word := {}
  /-- the last SSN that a FLUSH of a fence has named, by stream and target (R158) -/
  flushed : NMap Word := {}
  /-- streams on which a remote word failed with no NOTIFY behind it yet (R160) -/
  bad     : BitVec 16 := 0
  deriving DecidableEq, Repr

/-- Everything that belongs to the iteration of a tile. -/
structure TCore where
  iter    : Iter := {}
  eng     : Vector Engine 4 := Vector.replicate 4 {}
  regs    : Regs := {}
  q       : Queues := {}
  tok     : Vector (BitVec 4) 16 := Vector.replicate 16 0
  csr     : Csrs := {}
  trap    : TrapSt := {}
  /-- the event queue, head first: each record with the timestamp it carries (R309) -/
  ev      : List (Rec16 × Dword) := []
  lost    : BitVec 16 := 0
  sfu     : Vector (Option Sfu) 8 := Vector.replicate 8 none
  tids    : Vector (Option Row) 256 := Vector.replicate 256 none
  lease   : Lease := {}
  /-- rows that an abandoned LDV or STV had moved (R135) -/
  moved   : Nat := 0
  /-- rows that the LDV at A's PC has read and not yet pushed (R135); none when none is under way -/
  ldv     : Option (List Row) := none
  /-- the result that LDQ has read and not yet pushed (R134) -/
  ldq     : Option Dword := none
  /-- consecutive cycles of the stall watchdog (R75) -/
  stall   : Nat := 0
  park    : NMap Park := {}
  /-- this tile's open head slot, and whether a hand-over has taken it (R203, R209) -/
  head    : Option (BitVec 3) := none
  headLost : Bool := false
  /-- asynchronous queues named since dispatch (R113) -/
  named   : List (BitVec 5) := []
  /-- whether the iteration closed a ring slot (R113) -/
  closed  : Bool := false
  net     : NetNums := {}
  markers : List Marker := []
  mseq    : Nat := 0
  /-- walk count of the latest FENCEX or JOIN with mat in m0 that M has passed (R158) -/
  mfence  : Dword := 0
  /-- the same with xfer in m0 (R271) -/
  xfence  : Dword := 0
  /-- the cycle of a waiting FLAGWAIT's first evaluation (R366) -/
  fwSince : Option Dword := none
  /-- ASIDSET words of the iteration, latest first: the walk count of each and the ASID before it (R163) -/
  asids   : List (Dword × BitVec 16) := []
  /-- walk counts of ASIDSET words that an engine ahead of A has stepped over (R163) -/
  asidDue : List Dword := []
  /-- breakpoints hold off on the word each engine stood at when the last stop fell: the engine and the word's address (R363) -/
  skip    : List (Eng × Dword) := []
  /-- units of coherence that the reads of M's word have read, each with its class; the lines of L2 among them are pinned (R208) -/
  fuPins  : List (Loc × BitVec 4) := []
  /-- the CHAIN word in progress has made the check of R200 case 3 since M began to walk it, first or again (R355) -/
  chainOk : Bool := false
  /-- what the paths of the tile had when another iteration was dispatched there: the timestamps, and those that fences had ordered before
  them (R309, R310) -/
  keptPts : Vector Dword 6 := Vector.replicate 6 0
  keptOrd : Vector Dword 6 := Vector.replicate 6 0
  deriving DecidableEq, Repr

/-- Commands of the asynchronous queues (R97, R113, R158). -/
inductive CmdKind where
  | copy | copy2d | gather | scatter | xfer | xferm | notify
  /-- END's implicit notify (R113) -/
  | implicit
  deriving DecidableEq, Repr

/-- A write that a command has sent and that is not performed yet (R308): its place, its cache class, whether its line is kept as most
recently used (R27), its bytes. -/
structure OutWr where
  loc   : Loc
  cls   : BitVec 4
  front : Bool
  bytes : List Byte
  /-- where the bytes came from, its cache class and hint: they may be read anew until the write is performed (R310); none for a result -/
  src   : Option (Loc × BitVec 4 × Bool) := none
  /-- it stands in memory already: a freeze or a change of its place found it sent (R340) -/
  done  : Bool := false
  deriving DecidableEq, Repr

/-- A command in CPQ0 to CPQ3, GTQ or XFQ (R147 to R155). -/
structure Cmd where
  kind   : CmdKind
  ops    : List Dword := []
  /-- completion target kind and A[a]; kind 3 for a command with no target (R56) -/
  tk     : BitVec 2 := 3
  tgt    : Dword := 0
  asid   : BitVec 16 := 0
  vf     : BitVec 10 := 0
  priv   : Bool := false
  serial : Nat := 0
  node   : Nat := 0
  faultq : BitVec 55 := 0
  walk   : Dword := 0
  src    : Option Row := none
  dst    : Option Row := none
  /-- bytes moved -/
  off    : Nat := 0
  /-- of these, the writes that are not performed yet, in order -/
  out    : List OutWr := []
  /-- indices that have been fetched, by their place in the list (R153) -/
  idx    : NMap Nat := {}
  /-- the system code it is stalled on, and the address that faulted (R149) -/
  stall  : Option (BitVec 8) := none
  fva    : Dword := 0
  /-- receivers, once the list has been read (R154) -/
  recv   : Option (List Dword) := none
  /-- packets sent so far to each receiver (R248) -/
  sent   : List Nat := []
  /-- payloads of packets that some units of this device have still to get (R248, R266) -/
  load   : List (Nat × List Byte) := []
  deriving DecidableEq, Repr

/-- What a remote word does (R159). -/
inductive RKind where
  | rld | rst | rstf | ramo
  deriving DecidableEq, Repr

/-- An entry of a network stream: an outstanding remote access, or a NOTIFY behind it (R155, R159, R160). -/
structure NEntry where
  isNotify : Bool := false
  isImplicit : Bool := false
  kind   : RKind := .rld
  walk   : Dword := 0
  serial : Nat := 0
  node   : Nat := 0
  faultq : BitVec 55 := 0
  asid   : BitVec 16 := 0
  vf     : BitVec 10 := 0
  priv   : Bool := false
  va     : Dword := 0
  /-- the local address of a reply, 0 for none -/
  local_ : Dword := 0
  flag   : BitVec 55 := 0
  target : BitVec 6 := 0
  path   : BitVec 2 := 0
  ssn    : Word := 0
  psn    : Word := 0
  epoch  : BitVec 8 := 0
  era    : Nat := 0
  /-- the device to which it was sent last (R350, R359) -/
  via    : BitVec 6 := 0
  /-- how often it has been sent again (R350) -/
  tries  : Nat := 0
  /-- the header and body as sent, for a reissue (R350) -/
  hdr    : RHdr := {}
  body   : List Byte := []
  wide   : Bool := false
  /-- the completion target of a NOTIFY -/
  tk     : BitVec 2 := 3
  tgt    : Dword := 0
  /-- an earlier access of the stream failed (R160) -/
  failed : Bool := false
  /-- a RERESOLVE answered it and it was sent again through the home (R350) -/
  reissued : Bool := false
  deriving DecidableEq, Repr

/-- A generation of a landing map (R250). -/
structure MapGen where
  /-- the model's own name of a generation: the number of its installation -/
  no     : Nat := 0
  va     : Dword := 0
  vf     : BitVec 10 := 0
  /-- the installing tile, for a slice slot -/
  tile   : Nat := 0
  rank   : Nat := 1
  fmt    : BitVec 4 := 0
  key    : BitVec 24 := 0
  lo     : List Word := []
  hi     : List Word := []
  stride : List Word := []
  dbase  : Word := 0
  bar    : BitVec 55 := 0
  prio   : BitVec 4 := 0
  rovl   : Bool := false
  deriving DecidableEq, Repr

/-- A slot of a map unit (R156). -/
structure MapSlot where
  act   : Option MapGen := none
  drain : Option MapGen := none
  deriving DecidableEq, Repr

/-- A line in a tile's L1 (R237, R244): its address divided by 128, its bytes, its timestamps. -/
structure L1Copy where
  line : Nat
  val  : BitVec 1024
  wts  : Dword
  rts  : Dword
  deriving DecidableEq, Repr

/-- A line in a tile's instruction cache: its address divided by 128, its bytes (R3, R61). -/
structure ICopy where
  line : Nat
  val  : BitVec 1024
  deriving DecidableEq, Repr

/-- The debug registers of a tile (R360). -/
structure Dbg where
  stopped : Bool := false
  pending : Bool := false
  imgFault : Bool := false
  bphit   : BitVec 4 := 0
  img     : BitVec 52 := 0
  bpctl   : Vector Dword 4 := Vector.replicate 4 0
  bpwalk  : Vector Dword 4 := Vector.replicate 4 0
  /-- a STEP runs its one cycle: the engines that have acted in it -/
  step    : Option (List Eng) := none
  deriving DecidableEq, Repr

/-- One tile. -/
structure Tile where
  running : Bool := false
  core    : TCore := {}
  /-- pre-empted iterations of the tile, saved (R325 to R329) -/
  saved   : List TCore := []
  /-- TSTAT.PRE: a pre-emption save is in progress (R321) -/
  saving  : Bool := false
  /-- a pre-emption request that waits, under a debug stop (R361) -/
  preReq  : Bool := false
  aq      : Vector (List Cmd) 6 := Vector.replicate 6 []
  nq      : Vector (List NEntry) 16 := Vector.replicate 16 []
  stray   : Word := 0
  ovlp    : Word := 0
  tag     : Option (BitVec 10) := none
  spTs    : NMap (Dword × Dword) := {}
  slots   : NMap MapSlot := {}
  l1      : List L1Copy := []
  icache  : List ICopy := []
  pts     : Vector Dword 6 := Vector.replicate 6 0
  /-- per path, the latest timestamp that a fence or the dispatch has ordered before it (R310) -/
  ordTs   : Vector Dword 6 := Vector.replicate 6 0
  bucket  : Nat := 0
  /-- share tokens that work of the tile has been given and has not used yet: of queue q under q, of the rake under 6, of the replies to
  remote words under 7, of the word of M under 8 (R269) -/
  paid    : NMap Nat := {}
  frSeq   : BitVec 16 := 0
  cycle   : Dword := 0
  /-- dispatches so far (R280) -/
  epoch   : Nat := 0
  dbg     : Dbg := {}
  deriving DecidableEq, Repr

end Sys2Proof.Machine
end

