-- ==== Sys2Proof/Machine/FabricState.lean ====
section
/-! DEFINITION. What the fabric bridges, the targets of remote words, and the migration engine hold (files 14, 16, 17, 20,
22). The defaults are the values at power-up. -/

namespace Sys2Proof.Machine

/-- The registers of a bridge (R285). -/
structure Bridge where
  limit : BitVec 20 := 10737
  allow : Vector (BitVec 8) 4 := #v[32, 32, 16, 8]
  peers : BitVec 64 := 0
  lost  : BitVec 32 := 4194304
  deriving DecidableEq, Repr

/-- One receiving lane (R285, R286). -/
structure Lane where
  state : BitVec 3 := 1
  tries : BitVec 8 := 0
  lerr  : BitVec 20 := 0
  lcorr : BitVec 48 := 0
  lunc  : BitVec 32 := 0
  ldrop : BitVec 32 := 0
  lback : BitVec 32 := 0
  /-- how many more flits the last uncorrectable codeword counted may have touched (R278) -/
  badLeft : BitVec 2 := 0
  deriving DecidableEq, Repr

/-- A packet waiting to be sent, with its class. -/
structure OutPkt where
  cls : MClass
  pkt : Packet
  deriving DecidableEq, Repr

/-- A sub-link to a peer (R275, R277 to R279): both directions. -/
structure SubLink where
  /-- the next SEQ this device sends -/
  next   : Word := 0
  /-- the next SEQ it delivers -/
  expect : Word := 0
  /-- flits sent and not yet covered by an RSEQ -/
  replay : List Flit := []
  /-- packets not yet packed, in order -/
  queue  : List OutPkt := []
  /-- per class, bytes of its first packet that earlier flits carry (R277) -/
  part   : Vector Nat 4 := Vector.replicate 4 0
  /-- per class, flits delivered in which no packet ended and whose buffers are in use (R279) -/
  carry  : Vector Nat 4 := Vector.replicate 4 0
  /-- flits that arrived ahead of their turn -/
  early  : List Flit := []
  /-- what this device may still send per class: ALLOW as it was when the sub-link's first lane became active, at bring-up its reset values -/
  allow  : Vector Nat 4 := #v[32, 32, 16, 8]
  /-- units to return, per class -/
  ret    : Vector Nat 4 := Vector.replicate 4 0
  nak    : Bool := false
  /-- lanes on which this device sends, as the peer's announcements and requests have left them -/
  sendOff : List Nat := []
  deriving DecidableEq, Repr

/-- A message on its way to be served at this device: the packet, the neighbour it came from (this device itself for its
own accesses to itself), its path. -/
structure Flight where
  pkt  : Packet
  src  : BitVec 6
  path : BitVec 2
  /-- buffers that its end frees, in flits (R279) -/
  units : Nat := 0
  /-- whether this device or its network engine has counted and queued it behind a freeze (R350) -/
  held : Bool := false
  deriving DecidableEq, Repr

/-- An ordered flag update that waits (R283). -/
structure Held where
  hdr    : RHdr
  inc    : Dword
  counts : Vector Word 4
  src    : BitVec 6
  path   : BitVec 2
  deriving DecidableEq, Repr

/-- Stream state at the target (R282, R283). -/
structure StreamSt where
  p     : Word := 0
  done  : List Word := []
  q     : Vector Word 4 := Vector.replicate 4 0
  qdone : Vector (List Word) 4 := Vector.replicate 4 []
  held  : List Held := []
  /-- store numbers that want a SACK once P covers them, with the path of the answer -/
  want  : List (Word × BitVec 2) := []
  /-- the last multiple of 64 that was acknowledged -/
  acked : Word := 0
  pts   : Dword := 0
  deriving DecidableEq, Repr

/-- A relay this device made and whose reply or report it must pass back (R350). -/
structure Relay where
  hdr  : RHdr
  prev : BitVec 6
  dest : BitVec 6
  path : BitVec 2
  deriving DecidableEq, Repr

/-- A redirect that waits until it may be applied (R307, R350, R357). -/
structure Redirect where
  vf    : BitVec 10
  page  : BitVec 55
  owner : BitVec 6
  deriving DecidableEq, Repr

/-- The states of a move (R352). -/
inductive MovePh where
  | copy | freeze | closing | abort
  deriving DecidableEq, Repr

/-- A command in a slot of the migration engine (R338). A MOVE gives up its slot when it posts its record. -/
structure MigCmd where
  op     : BitVec 8
  vf     : BitVec 10
  dev    : BitVec 6
  va     : BitVec 55
  leafPa : Dword
  target : Dword
  tag    : Dword
  /-- the home that the leaf named -/
  home   : BitVec 6 := 0
  phase  : MovePh := .copy
  frame  : Nat := 0
  /-- lines acknowledged by the destination, and those sent to it -/
  acked  : Nat := 0
  sent   : Nat := 0
  /-- lines written since the move was accepted -/
  dirty  : BitVec 512 := 0
  /-- whose acknowledgements of OWNERSET are awaited: 0 nobody's, 1 the destination's, 2 the home's, 3 both -/
  owner  : Nat := 0
  code   : BitVec 8 := 0
  detail : Dword := 0
  deriving DecidableEq, Repr

/-- The state of an override entry (R345). -/
inductive OvSt where
  | present | poisoned | frozen
  deriving DecidableEq, Repr

/-- An entry of the override table (R345). -/
structure OvEntry where
  vf    : BitVec 10
  page  : BitVec 55
  frame : Nat
  st    : OvSt
  deriving DecidableEq, Repr

/-- A stub (R352, R353). -/
structure Stub where
  vf     : BitVec 10
  page   : BitVec 55
  dest   : BitVec 6
  tag    : Dword
  closing : Bool := false
  deriving DecidableEq, Repr

/-- A promotion in progress (R344). -/
structure Promo where
  vf     : BitVec 10
  asid   : BitVec 16
  page   : BitVec 55
  handle : Nat
  /-- it has taken an override entry (R344 step 1) -/
  taken  : Bool := false
  deriving DecidableEq, Repr

/-- A frozen page (R340, R342, R352): by a completed or running DEMOTE, or by a move. -/
structure Freeze where
  vf    : BitVec 10
  page  : BitVec 55
  frame : Nat
  /-- a completed DEMOTE left it, so that THAW ends it -/
  thaw  : Bool
  deriving DecidableEq, Repr

/-- A move that comes to this device (R352): its source, page, target frame, the lines that have arrived. -/
structure Incoming where
  src    : BitVec 6
  vf     : BitVec 10
  page   : BitVec 55
  frame  : Nat
  lines  : Nat := 0
  deriving DecidableEq, Repr

/-- The image of a demoted page (R342): the chunks it takes, and the page's bytes where it is compressed; one that is not compressed stands
in its chunks as it is. -/
structure Image where
  chunks : Nat
  packed : Option (List Byte) := none
  deriving DecidableEq, Repr

/-- The migration engine and what it keeps (R337). -/
structure Mig where
  refused : Bool := false
  mrecq   : BitVec 52 := 0
  homedir : BitVec 52 := 0
  pool    : BitVec 52 := 0
  stubLife : Word := 4194304
  cmds    : List MigCmd := []
  ovt     : List OvEntry := []
  stubs   : List Stub := []
  promos  : List Promo := []
  freezes : List Freeze := []
  incoming : List Incoming := []
  /-- a record of OP 7 has been posted since the pool was last seen to hold an entry (R344) -/
  poolDry : Bool := false
  /-- images of demoted pages, by first chunk (R341, R342) -/
  images  : NMap Image := {}
  occnt   : Dword := 0
  relaycnt : Dword := 0
  /-- remote arrivals queued under a freeze (R356) -/
  frzq    : Word := 0
  deriving DecidableEq, Repr

end Sys2Proof.Machine
end

