-- ==== Sys2Proof/Machine/MatrixState.lean ====
section
/-! DEFINITION. What a cluster and an L2 slice hold (files 02, 10, 11, 12). The defaults are the values at power-up. -/

namespace Sys2Proof.Machine

/-- The state of a ring slot (R213). -/
inductive SlotSt where
  | free | open_ | closed | draining | parked | reserved
  deriving DecidableEq, Repr

/-- What RCLOSE fixed for the rake (R215): the descriptor, the tensors it named, and on whose behalf. -/
structure RakeJob where
  desc   : Row := 0
  sb     : Option Row := none
  dt     : Option Row := none
  tile   : Nat := 0
  asid   : BitVec 16 := 0
  vf     : BitVec 10 := 0
  priv   : Bool := false
  serial : Nat := 0
  node   : Nat := 0
  faultq : BitVec 55 := 0
  walk   : Dword := 0
  /-- the latest fence with xfer in m0 that M had passed at the RCLOSE (R271) -/
  fence  : Dword := 0
  deriving DecidableEq, Repr

/-- One accumulator slot (R213): accumulator 1 FP32, 2 FP16, 3 INT32 as in HFMT (R204), and M x N elements by rows. -/
structure RingSlot where
  st    : SlotSt := .free
  tile  : Nat := 0
  vf    : BitVec 10 := 0
  acc   : BitVec 2 := 0
  m     : Nat := 0
  n     : Nat := 0
  elems : List Word := []
  job   : Option RakeJob := none
  deriving DecidableEq, Repr

/-- What the fetch unit has read of one unit of coherence for a command: the place, the cache class, the hint of R27, the bytes (R208). -/
structure Piece where
  loc   : Loc
  cls   : BitVec 4
  front : Bool
  bytes : List Byte
  deriving DecidableEq, Repr

/-- A box of elements as it has been read: the format, how many elements a span holds, the spans (R207). -/
structure ReadBox where
  fmt   : BitVec 4 := 0
  n     : Nat := 0
  spans : List (List Piece) := []
  deriving DecidableEq, Repr

/-- An operand of a product as it has been read (R207, R211): its rows, the scale codes and superscales of the GQ4 blocks of each row, and
for compressed A the metadata of each row. -/
structure OpRead where
  rows  : ReadBox := {}
  codes : List (List (List Piece × List Piece)) := []
  meta_ : Option (List (List (Option Word))) := none
  deriving DecidableEq, Repr

/-- A tile operand (R207, R211): format, rows of K raw elements (none at a position that compressed A
leaves out), and the scales of the GQ4 blocks of a row. -/
structure Opnd where
  fmt    : BitVec 4 := 0
  elems  : List (List (Option Word)) := []
  scales : List (List Word) := []
  deriving DecidableEq, Repr

/-- What a step of a chain does at its end (R34, R222): the extents and the box its CINIT loads, the absorbed mode and its size, m, the
effective right bond, the core by (i_m, right bond), n_k spans to a column, the slot its CEMIT fills. -/
structure ChainStep where
  init : Option (List Nat × ReadBox) := none
  mode : Nat
  nn   : Nat
  m    : Nat
  bond : Nat
  core : ReadBox
  emit : Option (BitVec 3) := none
  deriving DecidableEq, Repr

/-- What a command of the matrix path does (R209, R215, R218, R222 to R224). -/
inductive MKind where
  /-- add the product of A and B, in groups of a size, to a slot -/
  | mma (slot : BitVec 3) (group : Nat) (a b : OpRead)
  | step (s : ChainStep)
  /-- load the boundary: extents and elements -/
  | cinit (ext : List Nat) (box : ReadBox)
  /-- copy the boundary to a slot -/
  | emit (slot : BitVec 3)
  | close (slot : BitVec 3) (job : RakeJob)
  | drop (slot : BitVec 3)
  deriving DecidableEq, Repr

/-- The job a close hands to the rake. -/
def MKind.job : MKind → Option RakeJob
  | .close _ j => some j
  | .mma _ _ _ _ => none
  | .step _ => none
  | .cinit _ _ => none
  | .emit _ => none
  | .drop _ => none

/-- Whether a command acts on the boundary. -/
def MKind.onBnd : MKind → Bool
  | .step _ => true
  | .cinit _ _ => true
  | .emit _ => true
  | .mma _ _ _ _ => false
  | .close _ _ => false
  | .drop _ => false

/-- An accepted command, in the array's order (R197). -/
structure MCmd where
  kind : MKind
  tile : Nat
  serial : Nat
  vf   : BitVec 10
  walk : Dword
  /-- the units of coherence that it has read, each with its class; the lines of L2 among them stay pinned (R208) -/
  pins : List (Loc × BitVec 4) := []
  deriving DecidableEq, Repr

/-- A notify on the matrix path (R113, R219). -/
structure MNote where
  tile   : Nat
  serial : Nat
  walk   : Dword
  /-- the TAG of its record; none for END's implicit notify -/
  tag    : Option Dword
  deriving DecidableEq, Repr

/-- The rake at work (R216, R217): the slot, the next element, the fault it stopped on and its address; for MODE 1 the
receivers and the packets sent to each. -/
structure Rake where
  slot  : BitVec 3
  elem  : Nat := 0
  stall : Option (BitVec 8) := none
  fva   : Dword := 0
  recv  : Option (List Dword) := none
  sent  : List Nat := []
  /-- payloads of packets that some units of this device have still to get (R248, R266) -/
  load  : List (Nat × List Byte) := []
  /-- the last line that took a token of the closing tile, by address divided by 128 (R269) -/
  paid  : Option Nat := none
  /-- elements that have been sent on and are not written yet, in order (R308) -/
  out   : List OutWr := []
  deriving DecidableEq, Repr

/-- The boundary of a cluster (R31). -/
structure Boundary where
  empty : Bool := true
  bm    : Vector Nat 5 := Vector.replicate 5 1
  ba    : Nat := 1
  elems : List Word := []
  /-- VFs for which it was lost (R203) -/
  lost  : List (BitVec 10) := []
  deriving DecidableEq, Repr

/-- One cluster. -/
structure Cluster where
  lcap     : BitVec 7 := 64
  holder   : Option Nat := none
  reqs     : List Nat := []
  prevVf   : Option (BitVec 10) := none
  expired  : Bool := false
  slots    : Vector RingSlot 8 := Vector.replicate 8 {}
  lastOpen : Nat := 7
  /-- slots opened and not yet drained, oldest first (R214) -/
  order    : List Nat := []
  resv     : Nat := 0
  bnd      : Boundary := {}
  mq       : List MCmd := []
  notes    : List MNote := []
  rake     : Option Rake := none
  deriving DecidableEq, Repr

/-- One way register of a slice, and a change of STAGE in progress (R239). -/
structure SWay where
  stage  : Bool := false
  grant  : Bool := false
  vf     : BitVec 10 := 0
  /-- a change to this value of STAGE is under way -/
  change : Option Bool := none
  deriving DecidableEq, Repr

/-- A line an L2 slice holds, with the VF tag of the frame it was filled from (R238, R240, R243). -/
structure L2Line where
  line : Nat
  way  : Nat
  vf   : BitVec 10
  cls  : BitVec 4
  wts  : Dword
  rts  : Dword
  /-- the class of each command of the matrix path that keeps it pinned (R208, R240) -/
  pins : List (BitVec 4) := []
  deriving DecidableEq, Repr

/-- One L2 slice (R239, R260). The lines of a set are listed most recently used first. -/
structure Slice where
  sway   : Vector SWay 16 := Vector.replicate 16 {}
  cmask  : Vector (BitVec 16) 16 := Vector.replicate 16 0xFFFF
  cwgt   : Vector (BitVec 8) 16 := Vector.replicate 16 1
  sstray : BitVec 11 := 0
  sets   : NMap (List L2Line) := {}
  mts    : Dword := 0
  slots  : NMap MapSlot := {}
  deriving DecidableEq, Repr

end Sys2Proof.Machine
end

