-- ==== Sys2Proof/Syntax.lean ====
section
/-! DEFINITION. The instructions: one constructor per row of the opcode table. A word of program text keeps the
fields of its encoding (R89 to R100, file 06); a step of another agent (file 95) carries the unit it happens at and
what the outside world brings to it. -/

namespace Sys2Proof

/-- One row of the opcode table each: the words of program text, and the steps of the other agents. -/
inductive Instr where
  /-- POWER_UP (R371) -/
  | powerUp (stat : BitVec 8)
  /-- ISLAND_CLOCK_CHANGE (R376) -/
  | islandClockChange (island : Nat) (mhz : BitVec 16)
  /-- LAUNCH_PORT_STORE (R40) -/
  | launchPortStore (vf : BitVec 10) (va : Dword)
  /-- RELEASE_WRITE (R48) -/
  | releaseWrite (va : Dword)
  /-- REGION_ROLLBACK (R323) -/
  | regionRollback (cause : Rollback)
  /-- BARRIER_DECREMENT (R145) -/
  | barrierDecrement (q : BitVec 5) (n : Nat)
  /-- COMMAND_COMPLETION (R151) -/
  | commandCompletion (q : BitVec 5)
  /-- COMMAND_STALL (R149) -/
  | commandStall (q : BitVec 5)
  /-- NOTIFY_COMPLETE (R155) -/
  | notifyComplete (q : BitVec 5)
  /-- TRANSFER_PACKET (R252) -/
  | transferPacket (src : XSrc) (recv : Nat)
  /-- PTS_TICK (R300) -/
  | ptsTick (isCore : Bool)
  /-- RESUME_ENGINE (R318) -/
  | resumeEngine (g : Eng)
  /-- RESUME_QUEUE (R149) -/
  | resumeQueue (q : BitVec 5)
  /-- FAIL_QUEUE_COMMAND (R149) -/
  | failQueueCommand (q : BitVec 5)
  /-- LCAP_WRITE (R199) -/
  | lcapWrite (v : Dword)
  /-- SWAY_STAGE_SET (R239) -/
  | swayStageSet (w : Nat) (v : Dword)
  /-- SWAY_STAGE_CLEAR (R239) -/
  | swayStageClear (w : Nat) (v : Dword)
  /-- FRAMEASSIGN (R242) -/
  | frameassign (vf : BitVec 10)
  /-- FLIT_RECEIVE (R277) -/
  | flitReceive (q : Nat) (peer : BitVec 6) (f : Flit) (bad : Bool)
  /-- LANE_WINDOW_END (R285) -/
  | laneWindowEnd (q : Nat) (peer : BitVec 6) (errs : Nat)
  /-- LEAVE_REQUEST (R286) -/
  | leaveRequest (q : Nat) (peer : BitVec 6)
  /-- RETURN_REQUEST (R286) -/
  | returnRequest (q : Nat) (peer : BitVec 6)
  /-- LANE_TRIAL_WINDOW (R286) -/
  | laneTrialWindow (q : Nat) (peer : BitVec 6) (errs : Nat)
  /-- LANE_LOSS_OF_LOCK (R286) -/
  | laneLossOfLock (q : Nat) (peer : BitVec 6)
  /-- LANE_RETRY (R285) -/
  | laneRetry (q : Nat) (peer : BitVec 6)
  /-- DEMOTE (R342) -/
  | demote (pa : Dword)
  /-- MOVE (R352) -/
  | move (pa : Dword)
  /-- RETIRE (R345) -/
  | retire (pa : Dword)
  /-- THAW (R342) -/
  | thaw (pa : Dword)
  /-- DBG_RESUME (R362) -/
  | dbgResume (load : Bool)
  /-- DBG_STEP (R360) -/
  | dbgStep (load : Bool)
  /-- PSESS_WRITE (R368) -/
  | psessWrite (v : Dword)
  /-- NETWORK_ARRIVAL (R369) -/
  | networkArrival (dst : DmaAddr) (bytes : List Byte)
  /-- STORAGE_COMPLETION (R369) -/
  | storageCompletion (src : Dword) (status : Dword)
  /-- INTERRUPT_TAKEN (R369) -/
  | interruptTaken (cause : Dword) (num : Dword)
  /-- REGISTER_WRITE (R298) -/
  | registerWrite (pa : Dword) (v : Dword)
  /-- BR (R107) -/
  | br (o : BitVec 22)
  /-- BRC (R108) -/
  | brc (e : Eng) (c : BitVec 4) (r : BitVec 5) (f : BitVec 13)
  /-- LOOP (R109) -/
  | loop (e : Eng) (r : BitVec 5) (o : BitVec 17)
  /-- LOOPR (R110) -/
  | loopr (e : Eng) (r : BitVec 5) (o : BitVec 17)
  /-- CALL (R107) -/
  | call (o : BitVec 22)
  /-- TOK (R68) -/
  | tok (f : Eng) (t : Eng) (n : BitVec 4)
  /-- BRX (R111) -/
  | brx (e : Eng) (r : BitVec 5)
  /-- ADD (R115) -/
  | add (d : BitVec 5) (a : BitVec 5) (b : BitVec 5)
  /-- SUB (R115) -/
  | sub (d : BitVec 5) (a : BitVec 5) (b : BitVec 5)
  /-- MUL (R115) -/
  | mul (d : BitVec 5) (a : BitVec 5) (b : BitVec 5)
  /-- MULH (R115) -/
  | mulh (d : BitVec 5) (a : BitVec 5) (b : BitVec 5)
  /-- MULHU (R115) -/
  | mulhu (d : BitVec 5) (a : BitVec 5) (b : BitVec 5)
  /-- DIV (R115) -/
  | div (d : BitVec 5) (a : BitVec 5) (b : BitVec 5)
  /-- DIVU (R115) -/
  | divu (d : BitVec 5) (a : BitVec 5) (b : BitVec 5)
  /-- REM (R115) -/
  | rem (d : BitVec 5) (a : BitVec 5) (b : BitVec 5)
  /-- REMU (R115) -/
  | remu (d : BitVec 5) (a : BitVec 5) (b : BitVec 5)
  /-- AND (R115) -/
  | and (d : BitVec 5) (a : BitVec 5) (b : BitVec 5)
  /-- OR (R115) -/
  | or (d : BitVec 5) (a : BitVec 5) (b : BitVec 5)
  /-- XOR (R115) -/
  | xor (d : BitVec 5) (a : BitVec 5) (b : BitVec 5)
  /-- ANDN (R115) -/
  | andn (d : BitVec 5) (a : BitVec 5) (b : BitVec 5)
  /-- SHL (R115) -/
  | shl (d : BitVec 5) (a : BitVec 5) (b : BitVec 5)
  /-- SHR (R115) -/
  | shr (d : BitVec 5) (a : BitVec 5) (b : BitVec 5)
  /-- SAR (R115) -/
  | sar (d : BitVec 5) (a : BitVec 5) (b : BitVec 5)
  /-- ROL (R115) -/
  | rol (d : BitVec 5) (a : BitVec 5) (b : BitVec 5)
  /-- MIN (R115) -/
  | min (d : BitVec 5) (a : BitVec 5) (b : BitVec 5)
  /-- MAX (R115) -/
  | max (d : BitVec 5) (a : BitVec 5) (b : BitVec 5)
  /-- MINU (R115) -/
  | minu (d : BitVec 5) (a : BitVec 5) (b : BitVec 5)
  /-- MAXU (R115) -/
  | maxu (d : BitVec 5) (a : BitVec 5) (b : BitVec 5)
  /-- SLT (R115) -/
  | slt (d : BitVec 5) (a : BitVec 5) (b : BitVec 5)
  /-- SLTU (R115) -/
  | sltu (d : BitVec 5) (a : BitVec 5) (b : BitVec 5)
  /-- SEQ (R115) -/
  | seq (d : BitVec 5) (a : BitVec 5) (b : BitVec 5)
  /-- SNE (R115) -/
  | sne (d : BitVec 5) (a : BitVec 5) (b : BitVec 5)
  /-- CLZ (R115) -/
  | clz (d : BitVec 5) (a : BitVec 5)
  /-- CTZ (R115) -/
  | ctz (d : BitVec 5) (a : BitVec 5)
  /-- POPC (R115) -/
  | popc (d : BitVec 5) (a : BitVec 5)
  /-- SEL (R115) -/
  | sel (d : BitVec 5) (a : BitVec 5) (b : BitVec 5) (c : BitVec 5)
  /-- ADDI (R116) -/
  | addi (d : BitVec 5) (a : BitVec 5) (i : BitVec 12)
  /-- ANDI (R116) -/
  | andi (d : BitVec 5) (a : BitVec 5) (i : BitVec 12)
  /-- ORI (R116) -/
  | ori (d : BitVec 5) (a : BitVec 5) (i : BitVec 12)
  /-- XORI (R116) -/
  | xori (d : BitVec 5) (a : BitVec 5) (i : BitVec 12)
  /-- SHLI (R116) -/
  | shli (d : BitVec 5) (a : BitVec 5) (s : BitVec 12)
  /-- SHRI (R116) -/
  | shri (d : BitVec 5) (a : BitVec 5) (s : BitVec 12)
  /-- SARI (R116) -/
  | sari (d : BitVec 5) (a : BitVec 5) (s : BitVec 12)
  /-- SLTI (R116) -/
  | slti (d : BitVec 5) (a : BitVec 5) (i : BitVec 12)
  /-- LUI (R116) -/
  | lui (d : BitVec 5) (i : BitVec 17)
  /-- FADD (R118) -/
  | fadd (d : BitVec 5) (a : BitVec 5) (b : BitVec 5)
  /-- FSUB (R118) -/
  | fsub (d : BitVec 5) (a : BitVec 5) (b : BitVec 5)
  /-- FMUL (R118) -/
  | fmul (d : BitVec 5) (a : BitVec 5) (b : BitVec 5)
  /-- FFMA (R118) -/
  | ffma (d : BitVec 5) (a : BitVec 5) (b : BitVec 5)
  /-- FMIN (R118) -/
  | fmin (d : BitVec 5) (a : BitVec 5) (b : BitVec 5)
  /-- FMAX (R118) -/
  | fmax (d : BitVec 5) (a : BitVec 5) (b : BitVec 5)
  /-- FCMP (R118) -/
  | fcmp (d : BitVec 5) (a : BitVec 5) (b : BitVec 5) (r : BitVec 3)
  /-- FCVT_TO_INT (R118) -/
  | fcvtToInt (d : BitVec 5) (a : BitVec 5)
  /-- FCVT_TO_FP (R118) -/
  | fcvtToFp (d : BitVec 5) (a : BitVec 5)
  /-- POP (R119) -/
  | pop (d : BitVec 5) (q : BitVec 5)
  /-- PUSH (R119) -/
  | push (q : BitVec 5) (a : BitVec 5)
  /-- QSTAT (R119) -/
  | qstat (d : BitVec 5) (q : BitVec 5)
  /-- EVPOP (R123) -/
  | evpop (d : BitVec 5)
  /-- EVPEEK (R123) -/
  | evpeek (d : BitVec 5)
  /-- EVCNT (R123) -/
  | evcnt (d : BitVec 5)
  /-- LAUNCH (R125) -/
  | launch (d : BitVec 5) (a : BitVec 5)
  /-- CSRR (R126) -/
  | csrr (d : BitVec 5) (c : BitVec 12)
  /-- CSRW (R126) -/
  | csrw (a : BitVec 5) (c : BitVec 12)
  /-- CSRS (R126) -/
  | csrs (d : BitVec 5) (a : BitVec 5) (c : BitVec 12)
  /-- CSRC (R126) -/
  | csrc (d : BitVec 5) (a : BitVec 5) (c : BitVec 12)
  /-- TRAP (R128) -/
  | trap (c : BitVec 12)
  /-- AADD (R133) -/
  | aadd (d : BitVec 5) (a : BitVec 5) (b : BitVec 5)
  /-- ASUB (R133) -/
  | asub (d : BitVec 5) (a : BitVec 5) (b : BitVec 5)
  /-- AMUL (R133) -/
  | amul (d : BitVec 5) (a : BitVec 5) (b : BitVec 5)
  /-- ASHL (R133) -/
  | ashl (d : BitVec 5) (a : BitVec 5) (b : BitVec 5)
  /-- ASHR (R133) -/
  | ashr (d : BitVec 5) (a : BitVec 5) (b : BitVec 5)
  /-- AAND (R133) -/
  | aand (d : BitVec 5) (a : BitVec 5) (b : BitVec 5)
  /-- AMIN (R133) -/
  | amin (d : BitVec 5) (a : BitVec 5) (b : BitVec 5)
  /-- AMAX (R133) -/
  | amax (d : BitVec 5) (a : BitVec 5) (b : BitVec 5)
  /-- ASLT (R133) -/
  | aslt (d : BitVec 5) (a : BitVec 5) (b : BitVec 5)
  /-- AADDI (R133) -/
  | aaddi (d : BitVec 5) (a : BitVec 5) (i : BitVec 12)
  /-- ALUI (R133) -/
  | alui (d : BitVec 5) (i : BitVec 17)
  /-- AANDI (R133) -/
  | aandi (d : BitVec 5) (a : BitVec 5) (i : BitVec 12)
  /-- ASHLI (R133) -/
  | ashli (d : BitVec 5) (a : BitVec 5) (s : BitVec 12)
  /-- LD (R134) -/
  | ld (d : BitVec 5) (b : BitVec 5) (z : MSize) (u : Bool) (o : BitVec 9)
  /-- LDQ (R134) -/
  | ldq (q : BitVec 5) (b : BitVec 5) (z : MSize) (u : Bool) (o : BitVec 9)
  /-- LDV (R135) -/
  | ldv (q : BitVec 5) (a : BitVec 5) (n : BitVec 7)
  /-- ST (R134) -/
  | st (s : BitVec 5) (b : BitVec 5) (z : MSize) (o : BitVec 9)
  /-- STQ (R134) -/
  | stq (q : BitVec 5) (b : BitVec 5) (z : MSize) (o : BitVec 9)
  /-- STV (R135) -/
  | stv (q : BitVec 5) (a : BitVec 5) (n : BitVec 7)
  /-- PREF (R134) -/
  | pref (l : BitVec 5) (b : BitVec 5) (z : MSize) (o : BitVec 9)
  /-- AMOADD (R137) -/
  | amoadd (d : BitVec 5) (a : BitVec 5) (b : BitVec 5) (w : Bool)
  /-- AMOSWAP (R137) -/
  | amoswap (d : BitVec 5) (a : BitVec 5) (b : BitVec 5) (w : Bool)
  /-- AMOCAS (R137) -/
  | amocas (d : BitVec 5) (a : BitVec 5) (b : BitVec 5) (w : Bool)
  /-- AMOLOGIC (R137) -/
  | amologic (d : BitVec 5) (a : BitVec 5) (b : BitVec 5) (w : Bool) (o : BitVec 2)
  /-- AMOMINMAX (R137) -/
  | amominmax (d : BitVec 5) (a : BitVec 5) (b : BitVec 5) (w : Bool) (o : BitVec 2)
  /-- AMOFADD (R138) -/
  | amofadd (d : BitVec 5) (a : BitVec 5) (b : BitVec 5)
  /-- FLAGWAIT (R141) -/
  | flagwait (a : BitVec 5) (b : BitVec 5)
  /-- FLAGINC (R141) -/
  | flaginc (a : BitVec 5) (b : BitVec 5)
  /-- FLAGSET (R141) -/
  | flagset (a : BitVec 5) (b : BitVec 5)
  /-- FLAGREAD (R141) -/
  | flagread (d : BitVec 5) (a : BitVec 5)
  /-- BARARM (R144) -/
  | bararm (a : BitVec 5) (b : BitVec 5)
  /-- BARWAIT (R146) -/
  | barwait (a : BitVec 5)
  /-- COPY (R150) -/
  | copy (a : BitVec 5) (b : BitVec 5) (k : BitVec 2) (q : BitVec 5)
  /-- COPY2D (R152) -/
  | copy2d (a : BitVec 5) (b : BitVec 5) (k : BitVec 2) (q : BitVec 5)
  /-- GATHER (R153) -/
  | gather (a : BitVec 5) (b : BitVec 5) (k : BitVec 2) (q : BitVec 5)
  /-- SCATTER (R153) -/
  | scatter (a : BitVec 5) (b : BitVec 5) (k : BitVec 2) (q : BitVec 5)
  /-- XFER (R154) -/
  | xfer (a : BitVec 5) (b : BitVec 5) (k : BitVec 2) (q : BitVec 5)
  /-- XFERM (R154) -/
  | xferm (a : BitVec 5) (b : BitVec 5) (k : BitVec 2) (q : BitVec 5)
  /-- NOTIFY (R155) -/
  | notify (a : BitVec 5) (k : BitVec 2) (q : BitVec 5)
  /-- MAPINST (R156) -/
  | mapinst (a : BitVec 5) (b : BitVec 5)
  /-- MAPSWAP (R156) -/
  | mapswap (a : BitVec 5) (b : BitVec 5)
  /-- MAPRET (R156) -/
  | mapret (b : BitVec 5)
  /-- MAPQ (R156) -/
  | mapq (d : BitVec 5) (b : BitVec 5)
  /-- FENCEX (R158) -/
  | fencex (m : BitVec 6) (n : BitVec 6)
  /-- MARK (R158) -/
  | mark (d : BitVec 5) (m : BitVec 6)
  /-- JOIN (R158) -/
  | join (a : BitVec 5) (n : BitVec 6)
  /-- RLD (R159) -/
  | rld (a : BitVec 5) (b : BitVec 5) (s : BitVec 4)
  /-- RST (R159) -/
  | rst (a : BitVec 5) (b : BitVec 5) (f : Bool) (s : BitVec 4)
  /-- RSTF (R159) -/
  | rstf (a : BitVec 5) (b : BitVec 5) (o : Bool) (f : Bool) (s : BitVec 4)
  /-- RAMO (R159) -/
  | ramo (a : BitVec 5) (b : BitVec 5) (f : Bool) (s : BitVec 4)
  /-- TIDSET (R162) -/
  | tidset (a : BitVec 5) (t : BitVec 8)
  /-- TIDINV (R162) -/
  | tidinv (t : BitVec 8)
  /-- TIDGET (R162) -/
  | tidget (a : BitVec 5) (t : BitVec 8)
  /-- TLBINV (R163) -/
  | tlbinv (a : BitVec 5) (s : BitVec 7)
  /-- ASIDSET (R163) -/
  | asidset (a : BitVec 5)
  /-- VADD_F (R179) -/
  | vaddF (d : VOp) (a : VOp) (b : VOp) (m : Bool)
  /-- VSUB_F (R179) -/
  | vsubF (d : VOp) (a : VOp) (b : VOp) (m : Bool)
  /-- VMUL_F (R179) -/
  | vmulF (d : VOp) (a : VOp) (b : VOp) (m : Bool)
  /-- VFMA_F (R179) -/
  | vfmaF (d : VOp) (a : VOp) (b : VOp) (m : Bool)
  /-- VFMS_F (R179) -/
  | vfmsF (d : VOp) (a : VOp) (b : VOp) (m : Bool)
  /-- VMIN_F (R179) -/
  | vminF (d : VOp) (a : VOp) (b : VOp) (m : Bool)
  /-- VMAX_F (R179) -/
  | vmaxF (d : VOp) (a : VOp) (b : VOp) (m : Bool)
  /-- VABS_F (R179) -/
  | vabsF (d : VOp) (a : VOp) (m : Bool)
  /-- VNEG_F (R179) -/
  | vnegF (d : VOp) (a : VOp) (m : Bool)
  /-- VCMP_F (R180) -/
  | vcmpF (r : BitVec 4) (k : BitVec 3) (a : VOp) (b : VOp) (m : Bool)
  /-- VADD_B (R179) -/
  | vaddB (d : VOp) (a : VOp) (b : VOp) (m : Bool)
  /-- VSUB_B (R179) -/
  | vsubB (d : VOp) (a : VOp) (b : VOp) (m : Bool)
  /-- VMUL_B (R179) -/
  | vmulB (d : VOp) (a : VOp) (b : VOp) (m : Bool)
  /-- VFMA_B (R179) -/
  | vfmaB (d : VOp) (a : VOp) (b : VOp) (m : Bool)
  /-- VFMS_B (R179) -/
  | vfmsB (d : VOp) (a : VOp) (b : VOp) (m : Bool)
  /-- VMIN_B (R179) -/
  | vminB (d : VOp) (a : VOp) (b : VOp) (m : Bool)
  /-- VMAX_B (R179) -/
  | vmaxB (d : VOp) (a : VOp) (b : VOp) (m : Bool)
  /-- VADD_I (R179) -/
  | vaddI (d : VOp) (a : VOp) (b : VOp) (m : Bool)
  /-- VSUB_I (R179) -/
  | vsubI (d : VOp) (a : VOp) (b : VOp) (m : Bool)
  /-- VMUL_I (R179) -/
  | vmulI (d : VOp) (a : VOp) (b : VOp) (m : Bool)
  /-- VMIN_I (R179) -/
  | vminI (d : VOp) (a : VOp) (b : VOp) (m : Bool)
  /-- VMAX_I (R179) -/
  | vmaxI (d : VOp) (a : VOp) (b : VOp) (m : Bool)
  /-- VAND (R179) -/
  | vand (d : VOp) (a : VOp) (b : VOp) (m : Bool)
  /-- VOR (R179) -/
  | vor (d : VOp) (a : VOp) (b : VOp) (m : Bool)
  /-- VXOR (R179) -/
  | vxor (d : VOp) (a : VOp) (b : VOp) (m : Bool)
  /-- VSHL (R179) -/
  | vshl (d : VOp) (a : VOp) (b : VOp) (m : Bool)
  /-- VSHR (R179) -/
  | vshr (d : VOp) (a : VOp) (b : VOp) (m : Bool)
  /-- VSAR (R179) -/
  | vsar (d : VOp) (a : VOp) (b : VOp) (m : Bool)
  /-- VCMP_I (R180) -/
  | vcmpI (r : BitVec 4) (k : BitVec 3) (a : VOp) (b : VOp) (m : Bool)
  /-- VRCP (R181) -/
  | vrcp (d : VOp) (a : VOp) (m : Bool)
  /-- VRSQRT (R181) -/
  | vrsqrt (d : VOp) (a : VOp) (m : Bool)
  /-- VEXP2 (R181) -/
  | vexp2 (d : VOp) (a : VOp) (m : Bool)
  /-- VLOG2 (R181) -/
  | vlog2 (d : VOp) (a : VOp) (m : Bool)
  /-- VTANH (R181) -/
  | vtanh (d : VOp) (a : VOp) (m : Bool)
  /-- VREDSUM (R182) -/
  | vredsum (d : VOp) (a : VOp) (t : Bool) (x : Bool) (m : Bool)
  /-- VREDMAX (R182) -/
  | vredmax (d : VOp) (a : VOp) (t : Bool) (x : Bool) (m : Bool)
  /-- VMOV (R184) -/
  | vmov (d : VOp) (a : VOp) (m : Bool)
  /-- VBCAST (R186) -/
  | vbcast (d : VOp) (q : BitVec 4)
  /-- VTRANS (R184) -/
  | vtrans (d : VOp) (a : VOp)
  /-- VSEL (R184) -/
  | vsel (d : VOp) (a : VOp) (b : VOp)
  /-- VSHIFT (R185) -/
  | vshift (d : VOp) (a : VOp) (x : Bool) (f : Bool) (n : BitVec 6)
  /-- VIOTA (R184) -/
  | viota (d : VOp) (i : BitVec 8)
  /-- VPOP (R186) -/
  | vpop (d : VOp) (q : BitVec 4) (c : BitVec 6)
  /-- VPUSH (R186) -/
  | vpush (s : VOp) (q : BitVec 4) (c : BitVec 6)
  /-- VPUSHX (R186) -/
  | vpushx (s : VOp) (q : BitVec 4)
  /-- VUNP_E4 (R187) -/
  | vunpE4 (d : VOp) (a : VOp) (p : BitVec 3)
  /-- VUNP_E5 (R187) -/
  | vunpE5 (d : VOp) (a : VOp) (p : BitVec 3)
  /-- VUNP_I8 (R187) -/
  | vunpI8 (d : VOp) (a : VOp) (p : BitVec 3)
  /-- VUNP_H (R187) -/
  | vunpH (d : VOp) (a : VOp) (p : BitVec 3)
  /-- VUNP_Q4 (R187) -/
  | vunpQ4 (d : VOp) (a : VOp) (s : BitVec 5) (p : BitVec 3)
  /-- VPACK_E4 (R188) -/
  | vpackE4 (d : VOp) (a : VOp) (t : Bool) (r : Rnd) (p : BitVec 3)
  /-- VPACK_E5 (R188) -/
  | vpackE5 (d : VOp) (a : VOp) (t : Bool) (r : Rnd) (p : BitVec 3)
  /-- VPACK_I8 (R188) -/
  | vpackI8 (d : VOp) (a : VOp) (t : Bool) (r : Rnd) (p : BitVec 3)
  /-- VPACK_H (R188) -/
  | vpackH (d : VOp) (a : VOp) (t : Bool) (r : Rnd) (p : BitVec 3)
  /-- VPACK_B (R188) -/
  | vpackB (d : VOp) (a : VOp) (t : Bool) (r : Rnd) (p : BitVec 3)
  /-- VCVT_FI (R189) -/
  | vcvtFi (d : VOp) (a : VOp)
  /-- VCVT_IF (R189) -/
  | vcvtIf (d : VOp) (a : VOp)
  /-- VSHAPE (R190) -/
  | vshape (r : BitVec 7) (c : BitVec 7)
  /-- VCUR (R191) -/
  | vcur (r : BitVec 7) (c : BitVec 7) (g : BitVec 8)
  /-- VRBSET (R173) -/
  | vrbset (n : BitVec 8)
  /-- VPARK (R192) -/
  | vpark (s : VOp)
  /-- VUNPARK (R192) -/
  | vunpark (d : VOp)
  /-- KAND (R194) -/
  | kand (d : BitVec 5) (a : BitVec 5) (b : BitVec 5)
  /-- KOR (R194) -/
  | kor (d : BitVec 5) (a : BitVec 5) (b : BitVec 5)
  /-- KNOT (R194) -/
  | knot (d : BitVec 5) (a : BitVec 5)
  /-- KMOV (R194) -/
  | kmov (d : BitVec 5) (a : BitVec 5)
  /-- KCNT (R194) -/
  | kcnt (a : BitVec 5)
  /-- LEASE (R198) -/
  | lease (n : BitVec 18)
  /-- MSET (R205) -/
  | mset (c : BitVec 4) (f : BitVec 2) (v : BitVec 16)
  /-- MADDC (R205) -/
  | maddc (c : BitVec 4) (f : BitVec 2) (v : BitVec 16)
  /-- MPOPC (R205) -/
  | mpopc (c : BitVec 4)
  /-- MPUSH (R205) -/
  | mpush (c : BitVec 4)
  /-- MSHAPE (R206) -/
  | mshape (f : BitVec 2) (v : BitVec 16)
  /-- MMA (R209) -/
  | mma (x : BitVec 8) (y : BitVec 8) (c : BitVec 4) (m : BitVec 2)
  /-- MMAS (R209) -/
  | mmas (x : BitVec 8) (y : BitVec 8) (c : BitVec 4) (m : BitVec 2)
  /-- RCLOSE (R215) -/
  | rclose (c : BitVec 4)
  /-- RWAIT_SLOT (R218) -/
  | rwaitSlot (s : BitVec 3)
  /-- CBOUND (R220) -/
  | cbound (r : BitVec 18)
  /-- CORD (R221) -/
  | cord (c : BitVec 4)
  /-- CHAIN (R222) -/
  | chain (n : BitVec 18)
  /-- BDSET (R221) -/
  | bdset (k : BitVec 4) (v : BitVec 16)
  /-- CINIT (R223) -/
  | cinit (x : BitVec 8) (c : BitVec 4)
  /-- SYSTEM_CORE_INSTRUCTION (R298) -/
  | systemCoreInstruction (op : CoreOp)
  /-- RESERVED_WORD (R60) -/
  | reservedWord (w : Word) (k : BadWord)
  /-- EXT_WORD (R59) -/
  | extWord (imm : BitVec 29)
  /-- STAGE_CHANGE_COMPLETE (R239) -/
  | stageChangeComplete (w : Nat)
  /-- WALKER_DISPATCH (R53) -/
  | walkerDispatch
  /-- PREEMPT_REQUEST (R325) -/
  | preemptRequest
  /-- CONTEXT_SAVE_DONE (R325) -/
  | contextSaveDone
  /-- ITERATION_RETIREMENT (R334) -/
  | iterationRetirement
  /-- RETIREMENT_MESSAGE (R334) -/
  | retirementMessage
  /-- NODE_COMPLETION (R47) -/
  | nodeCompletion
  /-- ENGINE_STALL_WATCHDOG (R75) -/
  | engineStallWatchdog
  /-- SFU_RESULT_LAND (R176) -/
  | sfuResultLand
  /-- FLAGWAIT_SATISFIED (R141) -/
  | flagwaitSatisfied
  /-- MAP_DRAIN_COMPLETE (R156) -/
  | mapDrainComplete
  /-- SHARE_REFILL (R270) -/
  | shareRefill
  /-- TURN_GRANT (R197) -/
  | turnGrant
  /-- TURN_TIME_LIMIT (R201) -/
  | turnTimeLimit
  /-- TURN_END_BUDGET (R201) -/
  | turnEndBudget
  /-- MATRIX_COMMAND_COMPLETE (R210) -/
  | matrixCommandComplete
  /-- RAKE_START (R216) -/
  | rakeStart
  /-- RAKE_OUTPUT_PERFORMED (R217) -/
  | rakeOutputPerformed
  /-- RAKE_STALL (R217) -/
  | rakeStall
  /-- MNOTIFY_COMPLETE (R219) -/
  | mnotifyComplete
  /-- CHAIN_RECORD_COMPLETE (R222) -/
  | chainRecordComplete
  /-- TERMINATE (R322) -/
  | terminate
  /-- RESUME_RAKE (R217) -/
  | resumeRake
  /-- FAIL_RAKE_SLOT (R217) -/
  | failRakeSlot
  /-- VF_TEARDOWN (R333) -/
  | vfTeardown
  /-- TEARDOWN_TIMEOUT (R333) -/
  | teardownTimeout
  /-- FRAMERELEASE (R242) -/
  | framerelease
  /-- SCRUB_COMPLETE (R242) -/
  | scrubComplete
  /-- PEER_LOST (R284) -/
  | peerLost
  /-- RLD_REQUEST (R280) -/
  | rldRequest
  /-- RLD_REPLY (R160) -/
  | rldReply
  /-- RST_ARRIVAL (R282) -/
  | rstArrival
  /-- RSTF_ARRIVAL (R283) -/
  | rstfArrival
  /-- RAMO_REQUEST (R280) -/
  | ramoRequest
  /-- RAMO_REPLY (R160) -/
  | ramoReply
  /-- SACK (R282) -/
  | sack
  /-- FLUSH (R282) -/
  | flush
  /-- FAIL (R281) -/
  | fail
  /-- RELAYED_REQUEST (R350) -/
  | relayedRequest
  /-- OWNERSET (R352) -/
  | ownerset
  /-- MIGACK (R352) -/
  | migack
  /-- REDIRECT (R357) -/
  | redirect
  /-- REDIRECT_APPLY (R357) -/
  | redirectApply
  /-- RERESOLVE (R350) -/
  | reresolve
  /-- PAGEDATA (R352) -/
  | pagedata
  /-- PERFORMED (R350) -/
  | performed
  /-- CLOSE (R353) -/
  | close
  /-- ABORT (R354) -/
  | abort
  /-- STUB_LIFETIME_EXPIRY (R352) -/
  | stubLifetimeExpiry
  /-- DEMOTE_COMPLETE (R342) -/
  | demoteComplete
  /-- PROMOTION_COMPLETE (R344) -/
  | promotionComplete
  /-- DBG_STOP (R361) -/
  | dbgStop
  /-- DEBUG_STEP_END (R360) -/
  | debugStepEnd
  /-- BREAKPOINT_HIT (R363) -/
  | breakpointHit
  /-- DEBUG_IMAGE_WRITTEN (R362) -/
  | debugImageWritten
  /-- EXTEND (R382) -/
  | extend
  /-- ATTEST (R381) -/
  | attest
  /-- MAILBOX_COMMAND_DONE (R382) -/
  | mailboxCommandDone
  /-- RET (R107) -/
  | ret
  /-- RGN (R72) -/
  | rgn
  /-- END (R113) -/
  | endw
  /-- NOP (R117) -/
  | nop
  /-- ERET (R129) -/
  | eret
  /-- WFE (R124) -/
  | wfe
  /-- ANOP (R133) -/
  | anop
  /-- LREL (R198) -/
  | lrel
  /-- RDROP (R218) -/
  | rdrop
  /-- RWAIT_FREE (R218) -/
  | rwaitFree
  /-- CSTEP (R222) -/
  | cstep
  /-- CEMIT (R224) -/
  | cemit
  /-- MNOTIFY (R219) -/
  | mnotify
  /-- POWER_DOWN (R372) -/
  | powerDown
  deriving DecidableEq, Repr

end Sys2Proof
end

