-- ==== Sys2Proof/Machine/State.lean ====
section
/-! DEFINITION. The state of the device: what the spec gives the machine, and the fields of the model's own that say
whose move is next and which free value (env, sched; DESIGN CHOICE, safe: log entry 1). Every default is the value when power is applied (R371); State.reset is that state. -/

namespace Sys2Proof.Machine

/-- Reasons a step can stop the machine. -/
inductive Fault where
  /-- Raised by `step` alone: the schedule names a unit that does not exist (tile 640, cluster 80, ...) or a step of another
  agent with an operand out of its range. Safe: no such step occurs on the hardware, and the machine stops. -/
  | noSuchUnit
  deriving DecidableEq, Repr

/-- Reasons an instruction has no meaning in the model. -/
inductive Refusal where
  /-- Raised by `exec` for an instruction that is not modelled yet, by its mnemonic. Safe: the machine stops. -/
  | notModelled (mnemonic : String)
  deriving DecidableEq, Repr

/-- What is fused or strapped at manufacture and never changes (R5, R373). -/
structure Caps where
  /-- enabled clusters: a tile and a slice are enabled with their cluster (R373, R374) -/
  clusterEn : BitVec 80 := BitVec.allOnes 80
  chanEn  : BitVec 384 := BitVec.allOnes 384
  /-- enabled receiving lanes, by bridge, plane of the bridge and peer (R7, R275) -/
  laneEn  : BitVec 512 := BitVec.allOnes 512
  /-- highest clock of every island, MHz (R375) -/
  maxF    : Vector (BitVec 16) 48 := Vector.replicate 48 1050
  devid   : BitVec 6 := 0
  /-- physical address of the measurement log (R382) -/
  mlog    : BitVec 52 := 0x1000000
  deriving DecidableEq, Repr

/-- What a step reads and no meaning writes: the fused capabilities, the unit and the engine it happens at, and the index
of its free values. -/
structure Env where
  caps : Caps := {}
  unit : Nat := 0
  eng  : Eng := .x
  tick : Nat := 0
  deriving DecidableEq, Repr

/-- A frame of the base die (R242): its VF tag, and whether it is owned or being scrubbed; unlisted frames are unowned. The
FRAMEASSIGN that waits for the scrubbing to end, if any. -/
structure Frame where
  vf    : BitVec 10
  owned : Bool
  scrub : Bool
  next  : Option (BitVec 10) := none
  deriving DecidableEq, Repr

/-- A translation a structure may use until TLBINV removes it (R236): the structure that holds it, the ASID, the page it was
used for, the leaf, and whether that is of a 512 MiB block. -/
structure TlbEntry where
  unit : TlbId
  asid : BitVec 16
  page : Nat
  leaf : Dword
  block : Bool
  deriving DecidableEq, Repr

/-- Bytes that a write replaced: a path of a tile that no fence has ordered behind it may still read them (R310). The timestamp of
the write, the tile and the path that made it, and the paths of that tile that a fence has ordered behind it. -/
structure Past where
  key  : Nat
  old  : List Byte
  ts   : Dword
  tile : Nat := 640
  path : Nat := 0
  seen : BitVec 6 := 0
  deriving DecidableEq, Repr

/-- What the record of a lost update of hardware's own says (R384): its VF and fault queue, tile, engine and queue. -/
structure LostRec where
  vf   : BitVec 10
  fq   : BitVec 55
  tile : Nat
  eng  : Nat
  aq   : Nat
  deriving DecidableEq, Repr

/-- An element that a generation of a slot has matched (R253): the agent that sends it, the unit, the slot, the generation, the offset, the
bytes, and whether they stand in memory already. -/
structure LandEl where
  ag    : Agent
  slice : Bool
  unit  : Nat
  slot  : Nat
  gen   : MapGen
  off   : Nat
  bytes : List Byte
  done  : Bool := false
  deriving DecidableEq, Repr

/-- An update that hardware makes on its own and that waits while a page is promoted or frozen (R340, R344, R384). -/
inductive Later where
  /-- an increment of a flag, with the timestamp it carries and its setter; none where no record says that it was lost -/
  | flag (w : Who) (va ts : Dword) (inc setter : Nat) (lost : Option LostRec)
  /-- a fault record, with the queue it goes to and its bytes -/
  | record (vf : BitVec 10) (fq : BitVec 55) (bytes : List Byte)
  /-- an entry of a profiling ring -/
  | prof (w : Who) (buf : Dword) (bytes : List Byte)
  /-- bytes of the image of a saved iteration -/
  | image (tile serial : Nat) (w : Who) (va : Dword) (bytes : List Byte)
  /-- STATE of a node -/
  | state (vf : BitVec 10) (va : Dword) (st : Nat)
  /-- a write to RELEASE of a VF -/
  | release (vf : Nat) (va : Dword)
  /-- an entry of a ring that a register names by physical address (R339, R369), on behalf of a VF, and the agent of its flag -/
  | ringPa (vf : BitVec 10) (agent pa : Nat) (bytes : List Byte)
  /-- an element that a generation has matched and whose write is not performed (R253, R271) -/
  | land (e : LandEl)
  /-- a RESUME, or a STEP, of a debug unit whose image lies on a frozen page (R340, R362) -/
  | load (step : Bool) (tile : Nat)
  /-- the end of a directory's entry for a page (R348) -/
  | dirEnd (vf : BitVec 10) (page : BitVec 55)
  /-- a packet that no path takes now, with the tile whose die a tie goes to (R276, R284) -/
  | send (tile : Nat) (dest : BitVec 6) (pkt : Packet) (op : Nat)
  deriving DecidableEq, Repr

/-- The phase of a node (R43). -/
inductive NodePh where
  | waiting | ready | running | failed
  /-- its flag, its STATE and its successors are being processed (R47) -/
  | finishing
  | ended
  deriving DecidableEq, Repr

/-- A submitted node (R38, R43): the record's address, the copy of bits [767:0], the next iteration or command, how many have
retired, the order in which it became ready, the affinity groups bound. -/
structure Node where
  va     : Dword
  copy   : BitVec 768
  ph     : NodePh
  next   : Nat := 0
  done   : Nat := 0
  ready  : Nat := 0
  /-- a retirement message reported a termination, or a failure record was posted (R48, R334) -/
  failed : Bool := false
  /-- timestamp of what the node's iterations and its predecessors did (R309, R310) -/
  ts     : Dword := 0
  /-- steps 2 to 4 of R47 that have been performed: the flag, STATE, the successor entries one by one -/
  fin    : Nat := 0
  /-- the die whose walker enumerates it -/
  die    : Nat := 0
  /-- affinity groups bound to clusters: (group key, cluster) (R51) -/
  bound  : List (Nat × Nat) := []
  deriving DecidableEq, Repr

/-- A nest walker (R53, R55). -/
structure Walker where
  cur   : Option (BitVec 10) := none
  count : Nat := 0
  /-- the tile it is pre-empting -/
  pre   : Option Nat := none
  deriving DecidableEq, Repr

/-- A share controller (R270). -/
structure ShareCtl where
  gate  : Bool := false
  dwb   : BitVec 20 := 68571
  share : NMap (BitVec 16) := {}
  deriving DecidableEq, Repr

/-- The control block of a VF, its launch state and its ASID (R327, R367, R385). -/
structure VfBlk where
  priv    : Bool := false
  tearing : Bool := false
  gen     : BitVec 16 := 0
  deffq   : BitVec 55 := 0
  parkbase : BitVec 55 := 0
  changed : Bool := false
  active  : Bool := false
  ver     : BitVec 16 := 3
  evsel   : Vector (BitVec 16) 4 := Vector.replicate 4 0
  evcnt   : Vector Dword 4 := Vector.replicate 4 0
  wgt     : BitVec 8 := 1
  rasidV  : Bool := false
  rasid   : BitVec 16 := 0
  asid    : BitVec 16 := 0
  deriving DecidableEq, Repr

/-- A FLAGWAIT that has reached its flag's home and waits (R141), in order of arrival. -/
structure Waiter where
  tile : Nat
  va   : Dword
  key  : Nat
  need : Dword
  deriving DecidableEq, Repr

/-- A system core (R298, R369, R377): the registers of RVA23, and what the device keeps of it. -/
structure SysCore where
  pc      : Dword := 0
  x       : Vector Dword 32 := Vector.replicate 32 0
  f       : Vector Dword 32 := Vector.replicate 32 0
  /-- the vector register file, by byte: register r from byte r x Config.vlenb on -/
  v       : NMap Byte := {}
  /-- CSRs, by number -/
  csr     : NMap Dword := {}
  level   : CLevel := .machine
  virt    : Bool := false
  pts     : Dword := 0
  /-- load-reserved reservation: address and size -/
  resv    : Option (Nat × Nat) := none
  retired : Dword := 0
  /-- stores to registers that are not performed yet, oldest first (R298) -/
  posted  : List (Dword × List Byte) := []
  /-- its last access faulted: the code of R105, 0 for none -/
  fault   : BitVec 8 := 0
  rplctl  : Bool := false
  rplbase : BitVec 52 := 0
  deriving DecidableEq, Repr

/-- What the spec has recorded to the resident kernel in a form and a place that it does not state: a FRAMEASSIGN refused (R242), a lane
that failed (R286). (DESIGN CHOICE, unsafe: log entry 43) -/
inductive KernelRec where
  | frame (f : Nat) (vf : BitVec 10)
  | lane (bridge plane peer : Nat)
  deriving DecidableEq, Repr

/-- A root port (R377): whether it runs as CXL, and the ASID and the VF under which its DMA is translated (R235). -/
structure RootPort where
  cxl  : Bool := false
  asid : BitVec 16 := 0
  vf   : BitVec 10 := 0
  deriving DecidableEq, Repr

/-- A retirement message on its way to a walker (R334). -/
structure RetMsg where
  node : Nat
  wid  : Dword
  term : Bool
  deriving DecidableEq, Repr

/-- The management controller (R371 to R382). -/
structure Mgmt where
  bootstat : BitVec 8 := 0
  ready    : Bool := false
  /-- security version of the firmware that runs (R379, R381) -/
  fwVer    : Dword := 0
  /-- CURF of every island that runs below its highest clock -/
  curF     : NMap (BitVec 16) := {}
  mbOp     : BitVec 8 := 0
  mbState  : BitVec 2 := 0
  mbResult : BitVec 8 := 0
  mbRefused : Bool := false
  mbData   : BitVec 4096 := 0
  meas     : BitVec 384 := 0
  mlogcnt  : BitVec 32 := 0
  deriving DecidableEq, Repr

/-- The device. -/
structure Dev where
  powered : Bool := true
  tiles    : NMap Tile := {}
  clusters : NMap Cluster := {}
  slices   : NMap Slice := {}
  frames   : NMap Frame := {}
  mem      : List Host.Cell := []
  /-- poisoned lines of memory, by address divided by 128 (R342) -/
  poison   : List Nat := []
  /-- lines with an uncorrectable error, by key divided by 128 (R105, R318) -/
  bad      : List Nat := []
  tlb      : List TlbEntry := []
  /-- bytes that writes have replaced, latest first (R310) -/
  past     : List Past := []
  /-- hardware's own updates that wait, oldest first -/
  later    : List Later := []
  /-- serial of the iteration that armed a barrier object last, by its place in memory (R330) -/
  arms     : NMap Nat := {}
  asidtab  : BitVec 52 := 0
  leaselen : BitVec 10 := 10
  xvfdrop  : Word := 0
  fqdrop   : Word := 0
  profdrop : Word := 0
  shares   : NMap ShareCtl := {}
  walkers  : NMap Walker := {}
  nodes    : NMap Node := {}
  nodeNext : Nat := 0
  /-- nodes that have become ready so far (R53) -/
  readyNo  : Nat := 0
  serial   : Nat := 0
  /-- partition masks: VF x 16 + mask (R50) -/
  parts    : NMap (BitVec 640) := {}
  vfs      : NMap VfBlk := {}
  retMsgs  : List RetMsg := []
  waiters  : List Waiter := []
  bridges  : NMap Bridge := {}
  lanes    : NMap Lane := {}
  links    : NMap SubLink := {}
  /-- peers that are lost, by device (R284) -/
  peersLost : BitVec 64 := 0
  flights  : List Flight := []
  streams  : NMap StreamSt := {}
  relays   : List Relay := []
  /-- accesses sent again through the home whose reply has come and whose report has not (R350) -/
  reports  : List NEntry := []
  redirs   : List Redirect := []
  /-- owner cache, most recently used first: (VF, page, owner) -/
  owners   : List (BitVec 10 × BitVec 55 × BitVec 6) := []
  mig      : Mig := {}
  cores    : NMap SysCore := {}
  ports    : NMap RootPort := {}
  /-- CXL memory that is there, as ranges of chunks from the first of that region: first and length (R230, R341, R377) -/
  cxl      : List (Nat × Nat) := []
  /-- the firmware image in flash, once one has been written (R379) -/
  flash    : Option Firmware := none
  /-- what has been recorded to the resident kernel -/
  kernel   : List KernelRec := []
  /-- generations of landing maps installed so far -/
  genNo    : Nat := 0
  mgmt     : Mgmt := {}
  frSeq    : BitVec 16 := 0
  deriving DecidableEq, Repr

/-- Whose move is next: a step of another agent at a unit, or an engine of a tile that tries to walk one word. -/
inductive Turn where
  | engine (tile : Nat) (e : Eng)
  | event (unit : Nat) (i : Instr)
  deriving DecidableEq, Repr, Inhabited

/-- The machine: what no step changes but the schedule (env, whose caps are fused), whose moves come next, the device. -/
structure State where
  env   : Env := {}
  sched : List Turn := []
  dev   : Dev := {}
  deriving DecidableEq, Repr

/-- The machine when power has just been applied (R371): nothing runs, DEVREADY is 0. -/
def State.reset : State := {}

/-- The state with a change to the device. -/
def State.onDev (f : Env → Dev → Dev) (s : State) : State := { s with dev := f s.env s.dev }

/-- Run a meaning: every meaning is a change of the device that the environment decides. -/
def State.run (f : Env → Dev → Dev) (s : State) : Host.Outcome State Fault Refusal := .next (s.onDev f)

/-- Tile t. -/
def Dev.tile (d : Dev) (t : Nat) : Tile := d.tiles.get {} t

/-- Cluster c. -/
def Dev.cluster (d : Dev) (c : Nat) : Cluster := d.clusters.get {} c

/-- L2 slice s. -/
def Dev.slice (d : Dev) (s : Nat) : Slice := d.slices.get {} s

/-- The control block of VF v. -/
def Dev.vf (d : Dev) (v : Nat) : VfBlk := d.vfs.get {} v

/-- System core n. -/
def Dev.core (d : Dev) (n : Nat) : SysCore := d.cores.get {} n

/-- The share controller of a die. -/
def Dev.share (d : Dev) (k : Nat) : ShareCtl := d.shares.get {} k

/-- The nest walker of a die. -/
def Dev.walker (d : Dev) (k : Nat) : Walker := d.walkers.get {} k

/-- Fabric bridge b. -/
def Dev.bridge (d : Dev) (b : Nat) : Bridge := d.bridges.get {} b

/-- The device with tile t replaced. -/
def Dev.setTile (d : Dev) (t : Nat) (x : Tile) : Dev := { d with tiles := d.tiles.set t x }

/-- The device with cluster c replaced. -/
def Dev.setCluster (d : Dev) (c : Nat) (x : Cluster) : Dev := { d with clusters := d.clusters.set c x }

/-- The device with slice s replaced. -/
def Dev.setSlice (d : Dev) (s : Nat) (x : Slice) : Dev := { d with slices := d.slices.set s x }

/-- The device with the control block of VF v replaced. -/
def Dev.setVf (d : Dev) (v : Nat) (x : VfBlk) : Dev := { d with vfs := d.vfs.set v x }

/-- The device with system core n replaced. -/
def Dev.setCore (d : Dev) (n : Nat) (x : SysCore) : Dev := { d with cores := d.cores.set n x }

/-- The device with a change to tile t. -/
def Dev.onTile (d : Dev) (t : Nat) (f : Tile → Tile) : Dev := d.setTile t (f (d.tile t))

/-- The device with a change to what belongs to the iteration of tile t. -/
def Dev.onCore (d : Dev) (t : Nat) (f : TCore → TCore) : Dev :=
  d.onTile t fun x => { x with core := f x.core }

/-- The device with a change to cluster c. -/
def Dev.onCluster (d : Dev) (c : Nat) (f : Cluster → Cluster) : Dev := d.setCluster c (f (d.cluster c))

end Sys2Proof.Machine
end

