-- ==== Sys2Proof/Config.lean ====
section
/-! DEFINITION. What the spec leaves open: constants with no body. Nothing in Lean can evaluate one or prove a value of it. A
free value is applied to the model's own counter State.env.tick, so that each step may have another (DESIGN CHOICE, safe: log entry 1). -/

namespace Sys2Proof.Config

open Sys2Proof.Machine

/-- Whose move is next when the schedule lists none: no rule fixes the order of the agents (R4; DESIGN CHOICE, safe: log entry 1). -/
opaque schedule : Nat → Turn

/-- How many tile cycles pass at a turn: the spec gives no cycle counts (R4; DESIGN CHOICE, safe: log entry 11). -/
opaque turnCycles : Nat → Nat

/-- Which of several translations that may still be used serves an access (R236; DESIGN CHOICE, safe: log entry 12). -/
opaque tlbPick : Nat → Nat → Nat

/-- Whether an L1 copy is still there at a load: replacement within L1 is not given (R237; DESIGN CHOICE, safe: log entry 13). -/
opaque l1Kept : Nat → Nat → Bool

/-- Which line of a full set L1 replaces (R237; DESIGN CHOICE, safe: log entry 13). -/
opaque l1Victim : Nat → Nat

/-- Which translation a full TLB replaces (R235; DESIGN CHOICE, safe: log entry 12). -/
opaque tlbVictim : Nat → Nat

/-- Which of the copies of a line of text that a tile holds an engine fetches, or none of them, and then the line as it stands at
its home (R61; DESIGN CHOICE, safe: log entry 76). -/
opaque icPick : Nat → Nat → Nat

/-- Which of the values that a byte has held a path reads that no fence has ordered behind the writes (R310; DESIGN CHOICE, safe: log
entry 8). -/
opaque pastPick : Nat → Nat → Nat

/-- Whether an earlier store of A is performed after a write of another path at a byte, where no fence orders it before (R132; DESIGN CHOICE,
safe: log entry 105). -/
opaque storeAfter : Nat → Nat → Bool

/-- Whether a command of the array reads a byte of an operand at its completion or has read it at its acceptance (R310; DESIGN CHOICE, safe:
log entry 106). -/
opaque readLate : Nat → Nat → Bool

/-- Which of its sent writes a command performs next, and how far it reads on before that (R308; DESIGN CHOICE, safe: log entry 89). -/
opaque movePick : Nat → Nat
/-- See `movePick`. -/
opaque moveAhead : Nat → Nat

/-- How many elements the rake of a cluster sends on at a step, and which of those that it has sent is written then, if any (R308; DESIGN
CHOICE, safe: log entry 107). -/
opaque rakeAhead : Nat → Nat → Nat
/-- See `rakeAhead`. -/
opaque rakePick : Nat → Nat → Option Nat

/-- Whether a sub-link sends on now: when a flit goes is not given (R277; DESIGN CHOICE, safe: log entry 87). -/
opaque sendNow : Nat → Nat → Bool

/-- Uncorrectable codewords that a discarded flit is the first to touch (R278, R285; DESIGN CHOICE, safe: log entry 87). -/
opaque badWords : Nat → Nat

/-- What OP of a migration record holds for a refused block whose own OP it may not hold (R339; DESIGN CHOICE, safe: log entry 91). -/
opaque refusedOp : Nat → Nat

/-- Whether a matched element waits before its write is performed (R253, R271; DESIGN CHOICE, safe: log entry 77). -/
opaque landLater : Nat → Nat → Bool

/-- Whether the packets of a transfer have been matched and performed at the units of another device (R154, R253; DESIGN CHOICE, safe: log
entry 78). -/
opaque farMatched : Nat → Bool

/-- The reset vector of the verified image, at which the system cores are released (R371; DESIGN CHOICE, safe: log entry 93). -/
opaque resetVector : Dword

/-- What an instruction of a system core, or a trap of it, leaves where the effect is RISC-V's own: the RVA23 profile is not part of the spec
(R1; DESIGN CHOICE, safe: log entry 93). -/
opaque coreWrites : Nat → CoreWrites

/-- Whether an instruction of a system core is one of two bytes (R377; DESIGN CHOICE, safe: log entry 93). -/
opaque coreShort : Nat → Bool

/-- Bytes of a vector register of a system core, which RVA23 leaves to the part (R377; DESIGN CHOICE, safe: log entry 93). -/
opaque vlenb : Nat

/-- How many of the stores to registers that a system core has posted are performed now (R298; DESIGN CHOICE, safe: log entry 109). -/
opaque postNow : Nat → Nat → Nat

/-- What comes from outside at a root port now, if anything (R377, R379; DESIGN CHOICE, safe: log entry 110). -/
opaque portEvent : Nat → Nat → Option PortEvent

/-- Typical latency from a cluster to a slice, a fused table of the part (R241, R373; DESIGN CHOICE, unsafe: log entry 7). -/
opaque latency : Nat → Nat → BitVec 8

/-- How many chunks the compressed image of a page takes, less 1: the layout belongs to the engine alone (R342; DESIGN CHOICE, safe: log entry 14). -/
opaque imageChunks : List Byte → BitVec 4

/-- What a handle at which no image stands expands to (R344; DESIGN CHOICE, safe: log entry 14). -/
opaque imageByte : Nat → Nat → Byte

/-- Whether an image that is read has an uncorrectable error, and which lines of a frame have one: errors come when they come
(R342, R344, R354; DESIGN CHOICE, safe: log entry 22). -/
opaque imageError : Nat → Bool
/-- See `imageError`. -/
opaque lineErrors : Nat → BitVec 512

/-- The frame that the destination of a move takes: how it learns TARGET is not stated (R352; DESIGN CHOICE, safe: log entry 23). -/
opaque moveTarget : Nat → Nat

/-- What the firmware measures at bring-up: digest and component number of itself and of the boot image (R380; DESIGN CHOICE, safe: log entry 15). -/
opaque bootDigest : Nat → BitVec 384 × Word

/-- Which command a 64-byte record of a transform node stands for: the record has no field that says so (R56; DESIGN CHOICE, safe: log entry 21). -/
opaque transformKind : List Byte → Nat

/-- The private identity key, and the secret number of a signature (R378, R380, R381; DESIGN CHOICE, safe: log entry 15). -/
opaque identityKey : Nat
/-- See `identityKey`. -/
opaque signSecret : Nat → Nat → Nat

/-- The fused SHA-384 digest of the root public key and the fused minimum security version (R379; DESIGN CHOICE, safe: log entry 15). -/
opaque rootDigest : BitVec 384
/-- See `rootDigest`. -/
opaque minVersion : Dword

/-- The firmware image that the module was made with, and one that has been written to flash while it had no power, if one has (R379; DESIGN
CHOICE, safe: log entry 15). -/
opaque flashImage : Firmware
/-- See `flashImage`. -/
opaque newFlash : Nat → Option Firmware

/-- Which enabled lanes fail loopback at bring-up (R371, R372; DESIGN CHOICE, safe: log entry 15). -/
opaque loopbackFails : Nat → BitVec 512

end Sys2Proof.Config
end

