-- ==== Sys2Proof/Machine/Bits.lean ====
section
/-! DEFINITION. Bit-field, sign-extension and byte-order helpers (R6: little endian). -/

namespace Sys2Proof.Machine

/-- Bits [lo + n - 1 : lo] of a word as a number. -/
def bitsN {w : Nat} (x : BitVec w) (lo n : Nat) : Nat := x.toNat / 2 ^ lo % 2 ^ n

/-- A dword from a number, modulo 2^64. -/
def dw (n : Nat) : Dword := BitVec.ofNat 64 n

/-- A dword from an integer, modulo 2^64. -/
def dwI (z : Int) : Dword := BitVec.ofInt 64 z

/-- Zero extension to a dword. -/
def zx {w : Nat} (x : BitVec w) : Dword := x.setWidth 64

/-- Sign extension to a dword. -/
def sx {w : Nat} (x : BitVec w) : Dword := x.signExtend 64

/-- A Boolean as 0 or 1. -/
def b2d (b : Bool) : Dword := if b then 1 else 0

/-- A Boolean as 0 or 1, as a number. -/
def b2n (b : Bool) : Nat := if b then 1 else 0

/-- The number whose little-endian bytes are given (R6). -/
def leNat : List Byte → Nat
  | [] => 0
  | b :: r => b.toNat + 256 * leNat r

/-- The n little-endian bytes of a number (R6). -/
def natLe : Nat → Nat → List Byte
  | 0, _ => []
  | n + 1, x => BitVec.ofNat 8 x :: natLe n (x / 256)

/-- The bytes of a 64-byte row. -/
def rowBytes (r : Row) : List Byte := natLe 64 r.toNat

/-- The row of 64 bytes. -/
def rowOf (b : List Byte) : Row := BitVec.ofNat 512 (leNat b)

/-- Bytes of an access size. -/
def msBytes : MSize → Nat
  | .b => 1
  | .h => 2
  | .w => 4
  | .d => 8

/-- Extension of the low 8 n bits to a dword: zero where u, else sign (R134). -/
def extend (n : Nat) (u : Bool) (x : Nat) : Dword :=
  if u then dw x else if x % 256 ^ n < 256 ^ n / 2 then dw (x % 256 ^ n) else dwI ((x % 256 ^ n : Nat) - (256 ^ n : Nat))

/-- Whether an address is a multiple of an alignment. -/
def aligned (a : Dword) (n : Nat) : Bool := a.toNat % n == 0

/-- Bits [63:55] of an address register are zero (R130). -/
def va55 (a : Dword) : Bool := decide (a.toNat < 2 ^ 55)

/-- Replace element i of a vector; an index out of range changes nothing. -/
def vset {α : Type} {n : Nat} (v : Vector α n) (i : Nat) (x : α) : Vector α n := v.setIfInBounds i x

/-- Element i of a vector, or a default. -/
def vget {α : Type} {n : Nat} (v : Vector α n) (d : α) (i : Nat) : α := v[i]?.getD d

/-- Set n bits at lo of a number that has them clear or not. -/
def putBits (x lo n v : Nat) : Nat := x - (x / 2 ^ lo % 2 ^ n) * 2 ^ lo + (v % 2 ^ n) * 2 ^ lo

/-- A saturating 32-bit counter. -/
def sat32 (x : Word) (n : Nat) : Word := BitVec.ofNat 32 (min (x.toNat + n) 0xFFFFFFFF)

/-- The larger of two unsigned dwords. -/
def dmax (a b : Dword) : Dword := if a.toNat < b.toNat then b else a

end Sys2Proof.Machine
end

