-- ==== Sys2Proof/Machine/Flags.lean ====
section
/-! DEFINITION. The sticky flags: the exceptions of the vector engine and of the scalar floating-point words (R17), and the
status bits of the matrix array (R21). -/

namespace Sys2Proof.Machine

/-- The exceptions a floating-point result raises, as VFLAGS numbers them (R17, R127). -/
abbrev FFlags := BitVec 5

/-- No exception. -/
abbrev fNone : FFlags := 0
/-- VFLAGS[0] -/
abbrev fInvalid : FFlags := 1
/-- VFLAGS[1] -/
abbrev fDivZero : FFlags := 2
/-- VFLAGS[2] -/
abbrev fOverflow : FFlags := 4
/-- VFLAGS[3] -/
abbrev fUnderflow : FFlags := 8
/-- VFLAGS[4] -/
abbrev fInexact : FFlags := 16

/-- A flag where a condition holds. -/
def fWhen (c : Bool) (f : FFlags) : FFlags := if c then f else 0

/-- The flags of a value in range: inexact, and underflow when the result is also tiny after rounding (R17). -/
def rangeFlags (inexact tiny : Bool) : FFlags := fWhen inexact fInexact ||| fWhen (inexact && tiny) fUnderflow

/-- The flags of a finite value out of range: invalid where the NaN of E4M3 is delivered, else inexact (R17). -/
def overflowFlags (asNan : Bool) : FFlags := fOverflow ||| (if asNan then fInvalid else fInexact)

/-- The status bits of the matrix array, as MSTAT numbers them (R21, R127). -/
abbrev MFlags := BitVec 4

/-- MSTAT[0] -/
abbrev mAccInf : MFlags := 1
/-- MSTAT[1] -/
abbrev mSatF16 : MFlags := 2
/-- MSTAT[2] -/
abbrev mSatI32 : MFlags := 4
/-- MSTAT[3] -/
abbrev mNanIn : MFlags := 8

/-- A status bit where a condition holds. -/
def mWhen (c : Bool) (f : MFlags) : MFlags := if c then f else 0

end Sys2Proof.Machine
end

