-- ==== Sys2Proof/Machine/Float.lean ====
section
/-! DEFINITION. The number formats (R9, R10) and exact arithmetic rounded once (R15 to R18): a value is decoded to an exact
dyadic number, computed with in integers, and rounded at the end. -/

namespace Sys2Proof.Machine

/-- A binary floating-point format (R9): fraction bits, bias, the encoding of the largest finite magnitude, whether it has
infinities, its infinity or NaN encoding, its canonical NaN. -/
structure FFmt where
  frac : Nat
  bias : Nat
  maxB : Nat
  hasInf : Bool
  infB : Nat
  nanB : Nat
  sign : Nat
  deriving DecidableEq, Repr

/-- FP32 (R9). -/
def fp32 : FFmt := ⟨23, 127, 0x7F7FFFFF, true, 0x7F800000, 0x7FC00000, 2 ^ 31⟩
/-- BF16 (R9). -/
def bf16 : FFmt := ⟨7, 127, 0x7F7F, true, 0x7F80, 0x7FC0, 2 ^ 15⟩
/-- FP16 (R9). -/
def fp16 : FFmt := ⟨10, 15, 0x7BFF, true, 0x7C00, 0x7E00, 2 ^ 15⟩
/-- FP8 E4M3 (R9). -/
def e4m3 : FFmt := ⟨3, 7, 0x7E, false, 0x7F, 0x7F, 2 ^ 7⟩
/-- FP8 E5M2 (R9). -/
def e5m2 : FFmt := ⟨2, 15, 0x7B, true, 0x7C, 0x7E, 2 ^ 7⟩

/-- A number: NaN, an infinity, or (-1)^neg m 2^e. -/
inductive Num where
  | nan
  | inf (neg : Bool)
  | fin (neg : Bool) (m : Nat) (e : Int)
  deriving DecidableEq, Repr, Inhabited

/-- The number an encoding stands for (R9). -/
def FFmt.dec (f : FFmt) (x : Nat) : Num :=
  let neg := decide (x / f.sign % 2 = 1)
  let b := x % f.sign
  let ex := b / 2 ^ f.frac
  let fr := b % 2 ^ f.frac
  if f.maxB < b then
    if f.hasInf && b == f.infB then .inf neg else .nan
  else if ex = 0 then .fin neg fr (1 - f.bias - f.frac : Int)
  else .fin neg (2 ^ f.frac + fr) ((ex : Int) - f.bias - f.frac)

/-- The bits of a natural number. -/
def nbits (m : Nat) : Nat := if m = 0 then 0 else m.log2 + 1

/-- m / 2^sh rounded to an integer, and whether that was inexact. -/
def roundShift (r : Rnd) (neg : Bool) (m sh : Nat) : Nat × Bool :=
  let q := m / 2 ^ sh
  let l := m % 2 ^ sh
  let up := match r with
    | .rne => decide (2 ^ sh < 2 * l) || (2 * l == 2 ^ sh && q % 2 == 1)
    | .rtz => false
    | .rdn => neg && l != 0
    | .rup => !neg && l != 0
  (if up then q + 1 else q, l != 0)

/-- m 2^e rounded to multiples of 2^e0: the multiple, its exponent, whether inexact. -/
def roundAt (r : Rnd) (neg : Bool) (m : Nat) (e e0 : Int) : Nat × Int × Bool :=
  if e0 ≤ e then (m, e, false)
  else
    let (q, ix) := roundShift r neg m (e0 - e).toNat
    (q, e0, ix)

/-- Whether m 2^e is above m' 2^e'. -/
def magGt (m : Nat) (e : Int) (m' : Nat) (e' : Int) : Bool :=
  if e' ≤ e then decide (m' < m * 2 ^ (e - e').toNat) else decide (m' * 2 ^ (e' - e).toNat < m)

/-- The encoding of a magnitude the format represents. -/
def FFmt.encMag (f : FFmt) (m : Nat) (e : Int) : Nat :=
  let n := nbits m
  let lead : Int := e + n - 1
  let unit : Int := max (lead - f.frac) (1 - f.bias - f.frac)
  let k := if unit ≤ e then m * 2 ^ (e - unit).toNat else m / 2 ^ (unit - e).toNat
  (unit - (1 - f.bias - f.frac)).toNat * 2 ^ f.frac + k

/-- An encoding with a sign. -/
def FFmt.withSign (f : FFmt) (neg : Bool) (b : Nat) : Nat := if neg then f.sign + b else b

/-- What an infinite result is delivered as: the NaN of its sign where the format has no infinity (R18). -/
def FFmt.infOf (f : FFmt) (neg : Bool) : Nat := f.withSign neg f.infB

/-- What a finite value out of range becomes, and its flags (R17, R18). -/
def FFmt.over (f : FFmt) (r : Rnd) (sat neg : Bool) : Nat × FFlags :=
  let toMax := sat || match r with
    | .rne => false
    | .rtz => true
    | .rdn => !neg
    | .rup => neg
  if toMax then (f.withSign neg f.maxB, overflowFlags false) else (f.infOf neg, overflowFlags (!f.hasInf))

/-- A finite value rounded once to a format: the encoding and its flags (R15, R17, R18). -/
def FFmt.round (f : FFmt) (r : Rnd) (sat neg : Bool) (m : Nat) (e : Int) : Nat × FFlags :=
  if m = 0 then (f.withSign neg 0, fNone) else
  let free : Int := e + nbits m - 1 - f.frac
  let (q, eq, ix) := roundAt r neg m e (max free (1 - f.bias - f.frac))
  let top := f.maxB % 2 ^ f.frac + 2 ^ f.frac
  if magGt q eq top ((f.maxB / 2 ^ f.frac : Nat) - f.bias - f.frac : Int) then f.over r sat neg
  else
    let (q', eq', _) := roundAt r neg m e free
    (f.withSign neg (f.encMag q eq), rangeFlags ix (magGt 1 (1 - f.bias : Int) q' eq'))

/-- A number converted to a format (R18). -/
def FFmt.conv (f : FFmt) (r : Rnd) (sat : Bool) : Num → Nat × FFlags
  | .nan => (f.nanB, fNone)
  | .inf neg => if sat then (f.withSign neg f.maxB, fInexact)
      else (f.infOf neg, fWhen (!f.hasInf) fInvalid)
  | .fin neg m e => f.round r sat neg m e

/-- A result of arithmetic delivered in a format under RNE (R15). -/
def FFmt.result (f : FFmt) (x : Num) : Nat × FFlags := f.conv .rne false x

/-- Whether a number is a NaN. -/
def Num.isNan : Num → Bool
  | .nan => true
  | .inf _ => false
  | .fin _ _ _ => false

/-- The signed integer of a magnitude at a common exponent. -/
def signedAt (neg : Bool) (m : Nat) (e e0 : Int) : Int :=
  if neg then -((m * 2 ^ (e - e0).toNat : Nat) : Int) else ((m * 2 ^ (e - e0).toNat : Nat) : Int)

/-- The exact sum; a zero sum of operands of opposite sign is +0 (R15). -/
def Num.add : Num → Num → Num
  | .nan, _ => .nan
  | .inf _, .nan => .nan
  | .fin _ _ _, .nan => .nan
  | .inf a, .inf b => if a == b then .inf a else .nan
  | .inf a, .fin _ _ _ => .inf a
  | .fin _ _ _, .inf b => .inf b
  | .fin a m e, .fin b n f =>
    let z := min e f
    let s := signedAt a m e z + signedAt b n f z
    if s = 0 then .fin (m == 0 && n == 0 && a && b) 0 z else .fin (decide (s < 0)) s.natAbs z

/-- The negation. -/
def Num.neg : Num → Num
  | .nan => .nan
  | .inf a => .inf (!a)
  | .fin a m e => .fin (!a) m e

/-- The exact product; an infinity by zero is a NaN. -/
def Num.mul : Num → Num → Num
  | .nan, _ => .nan
  | .inf _, .nan => .nan
  | .fin _ _ _, .nan => .nan
  | .inf a, .inf b => .inf (a != b)
  | .inf a, .fin b n _ => if n = 0 then .nan else .inf (a != b)
  | .fin a m _, .inf b => if m = 0 then .nan else .inf (a != b)
  | .fin a m e, .fin b n f => .fin (a != b) (m * n) (e + f)

/-- Whether a number is below another; false with a NaN. -/
def Num.lt : Num → Num → Bool
  | .nan, _ => false
  | .inf _, .nan => false
  | .fin _ _ _, .nan => false
  | .inf a, .inf b => a && !b
  | .inf a, .fin _ _ _ => a
  | .fin _ _ _, .inf b => !b
  | .fin a m e, .fin b n f => decide (signedAt a m e (min e f) < signedAt b n f (min e f))

/-- Whether two numbers are equal (zeros of either sign are); false with a NaN. -/
def Num.eqv : Num → Num → Bool
  | .nan, _ => false
  | .inf _, .nan => false
  | .fin _ _ _, .nan => false
  | .inf a, .inf b => a == b
  | .inf _, .fin _ _ _ => false
  | .fin _ _ _, .inf _ => false
  | .fin a m e, .fin b n f => signedAt a m e (min e f) == signedAt b n f (min e f)

/-- The sign of a number. -/
def Num.isNeg : Num → Bool
  | .nan => false
  | .inf a => a
  | .fin a _ _ => a

/-- The number an FP32 element holds. -/
def num32 (x : Word) : Num := fp32.dec x.toNat

/-- Deliver an exact FP32 result; invalid where the NaN arises from operands that are none (R15, R17). -/
def fdeliver (args : List Num) (x : Num) : Word × FFlags :=
  let (b, f) := fp32.result x
  (BitVec.ofNat 32 b, f ||| fWhen (x.isNan && !args.any (·.isNan)) fInvalid)

/-- a + b in FP32. -/
def f32Add (a b : Word) : Word × FFlags := fdeliver [num32 a, num32 b] ((num32 a).add (num32 b))
/-- a - b in FP32. -/
def f32Sub (a b : Word) : Word × FFlags := fdeliver [num32 a, num32 b] ((num32 a).add (num32 b).neg)
/-- a b in FP32. -/
def f32Mul (a b : Word) : Word × FFlags := fdeliver [num32 a, num32 b] ((num32 a).mul (num32 b))
/-- a b + c in FP32, rounded once. -/
def f32Fma (a b c : Word) : Word × FFlags :=
  fdeliver [num32 a, num32 b, num32 c] (((num32 a).mul (num32 b)).add (num32 c))
/-- c - a b in FP32, rounded once. -/
def f32Fms (a b c : Word) : Word × FFlags :=
  fdeliver [num32 a, num32 b, num32 c] ((num32 c).add ((num32 a).mul (num32 b)).neg)

/-- Whether x is below y in the order of VMIN and VMAX: -0 is below +0 (R15). -/
def belowOrd (x y : Num) : Bool := x.lt y || (x.eqv y && x.isNeg && !y.isNeg)

/-- The smaller of two FP32 values (R15). -/
def f32Min (a b : Word) : Word × FFlags :=
  let x := num32 a
  let y := num32 b
  (if x.isNan && y.isNan then 0x7FC00000 else if x.isNan then b else if y.isNan then a
   else if belowOrd y x then b else a, fNone)

/-- The larger of two FP32 values (R15). -/
def f32Max (a b : Word) : Word × FFlags :=
  let x := num32 a
  let y := num32 b
  (if x.isNan && y.isNan then 0x7FC00000 else if x.isNan then b else if y.isNan then a
   else if belowOrd x y then b else a, fNone)

/-- A BF16 operand of a vector element: bits [31:16], with [15:0] ignored (R16). -/
def bfArg (x : Word) : Word := x &&& 0xFFFF0000

/-- Round an FP32 result to BF16 in bits [31:16]; the flags of both roundings (R16, R17). -/
def toBf (r : Word × FFlags) : Word × FFlags :=
  let (b, f) := bf16.result (num32 r.1)
  (BitVec.ofNat 32 (b * 65536), r.2 ||| f)

/-- Relations of FCMP and VCMP, by number: eq, ne, lt, le, gt, ge (R118, R180). -/
def relNum (k : Nat) (x y : Num) : Bool :=
  match k with
  | 0 => x.eqv y
  | 1 => !x.eqv y
  | 2 => x.lt y
  | 3 => x.lt y || x.eqv y
  | 4 => y.lt x
  | _ => y.lt x || x.eqv y

/-- The flags of a comparison: invalid for a NaN under lt, le, gt or ge (R118). -/
def relFlags (k : Nat) (x y : Num) : FFlags := fWhen (decide (2 ≤ k) && (x.isNan || y.isNan)) fInvalid

/-- A number rounded to an integer in a signed range, which it saturates to (R18, R118): NaN gives 0. -/
def toIntSat (w : Nat) : Num → Int × FFlags
  | .nan => (0, fInvalid)
  | .inf neg => (if neg then -(2 ^ (w - 1) : Nat) else (2 ^ (w - 1) - 1 : Nat), fInvalid)
  | .fin neg m e =>
    let (q, eq, ix) := roundAt .rne neg m e 0
    let z := signedAt neg q eq 0
    if z < -(2 ^ (w - 1) : Nat) then (-(2 ^ (w - 1) : Nat), fInvalid)
    else if (2 ^ (w - 1) : Nat) ≤ z then ((2 ^ (w - 1) - 1 : Nat), fInvalid)
    else (z, fWhen ix fInexact)

/-- An integer as a number. -/
def Num.ofInt (z : Int) : Num := .fin (decide (z < 0)) z.natAbs 0

end Sys2Proof.Machine
end

