-- ==== Sys2Proof/Machine/Memory.lean ====
section
/-! DEFINITION. Memory: a list of (key, byte) pairs in one canonical form. A key is a physical address (below 2^52), byte o of
tile t's scratchpad at 2^52 + t x 4 MiB + o, or byte o of slice s's staging window at 2^53 + s x 4 MiB + o. A key that is
not listed reads as 0: power-up zeroes every memory (R371; the capacity tier and CXL memory, DESIGN CHOICE, unsafe: log entry 4). -/

namespace Sys2Proof.Machine

/-- The canonical form: keys rise strictly, and no listed byte is 0. -/
def Memory.wf : List Host.Cell → Bool
  | [] => true
  | [c] => c.2 != 0
  | c :: e :: r => c.2 != 0 && decide (c.1 < e.1) && Memory.wf (e :: r)

/-- The byte at a key. -/
def Memory.get (k : Nat) : List Host.Cell → Byte
  | [] => 0
  | c :: r => if c.1 = k then c.2 else if k < c.1 then 0 else Memory.get k r

/-- Put a byte that is not 0 at a key. -/
def Memory.put (k : Nat) (b : Byte) : List Host.Cell → List Host.Cell
  | [] => [(k, b)]
  | c :: r => if c.1 = k then (k, b) :: r else if k < c.1 then (k, b) :: c :: r else c :: Memory.put k b r

/-- Remove a key. -/
def Memory.drop (k : Nat) : List Host.Cell → List Host.Cell
  | [] => []
  | c :: r => if c.1 = k then r else if k < c.1 then c :: r else c :: Memory.drop k r

/-- Write a byte, keeping the canonical form. -/
def Memory.set (k : Nat) (b : Byte) (m : List Host.Cell) : List Host.Cell :=
  if b = 0 then Memory.drop k m else Memory.put k b m

/-- The n bytes from a key on. -/
def Memory.read (m : List Host.Cell) (k : Nat) : Nat → List Byte
  | 0 => []
  | n + 1 => Memory.get k m :: Memory.read m (k + 1) n

/-- Write bytes from a key on. -/
def Memory.write (k : Nat) : List Byte → List Host.Cell → List Host.Cell
  | [], m => m
  | b :: r, m => Memory.write (k + 1) r (Memory.set k b m)

/-- Zero the n bytes from a key on. -/
def Memory.zero (k n : Nat) (m : List Host.Cell) : List Host.Cell :=
  m.filter fun c => c.1 < k || k + n ≤ c.1

/-- The key of byte o of tile t's scratchpad. -/
def spadKey (t o : Nat) : Nat := 2 ^ 52 + t * 2 ^ 22 + o

/-- The key of byte o of slice s's staging window. -/
def stageKey (s o : Nat) : Nat := 2 ^ 53 + s * 2 ^ 22 + o

end Sys2Proof.Machine
end

