-- ==== Sys2Proof/Machine/Access.lean ====
section
/-! DEFINITION. Translation (R227, R230 to R236, R345, R383) and the accesses to memory with their timestamps (R136, R237
to R245, R299, R302). -/

namespace Sys2Proof.Machine

/-- What an attempt at a word, or at a piece of work, comes to: done with a new device; a wait that keeps the device it
names; a user trap (R104) with TINFO0 to TINFO3; a system fault (R105) at an address; a region rollback (R323). -/
inductive Res (α : Type) where
  | ok (x : α) (d : Dev)
  | wait (w : Wait) (d : Dev)
  | trap (c : Nat) (i0 i1 i2 i3 : Dword)
  | sys (c : Nat) (va : Dword)
  | roll (c : Rollback)

/-- Go on with the value and the device of a done attempt. -/
def Res.bind {α β : Type} (r : Res α) (f : α → Dev → Res β) : Res β :=
  match r with
  | .ok x d => f x d
  | .wait w d => .wait w d
  | .trap c i0 i1 i2 i3 => .trap c i0 i1 i2 i3
  | .sys c va => .sys c va
  | .roll c => .roll c

/-- A wait that does not count towards the watchdog (R75). -/
def Wait.idle : Wait := { code := 0 }

/-- Waiting on the share bucket of the tile, which does not count towards the watchdog either (R269, R367). -/
def Wait.share : Wait := { code := 0, detail := 7 }

/-- Codes of R104 and R105. -/
abbrev cTranslation : Nat := 0x20
/-- PERMISSION (R105). -/
abbrev cPermission : Nat := 0x21
/-- FRAME_OWNER (R105). -/
abbrev cFrameOwner : Nat := 0x22
/-- POISON (R105). -/
abbrev cPoison : Nat := 0x23
/-- UNCORRECTABLE (R105). -/
abbrev cUncorrectable : Nat := 0x24

/-- Set bits of a mask below n. -/
def ones {w : Nat} (m : BitVec w) : Nat → Nat
  | 0 => 0
  | n + 1 => ones m n + b2n (m.getLsbD n)

/-- Number of enabled HBM channels, slices. -/
def Caps.channels (c : Caps) : Nat := if c.chanEn = BitVec.allOnes 384 then 384 else ones c.chanEn 384

/-- Number of enabled slices. -/
def Caps.slices (c : Caps) : Nat := if c.clusterEn = BitVec.allOnes 80 then 160 else 2 * ones c.clusterEn 80

/-- Whether a cluster is enabled. -/
def Caps.clusterOn (c : Caps) (k : Nat) : Bool := decide (k < 80) && c.clusterEn.getLsbD k

/-- Bytes of HBM: 2 GiB for each enabled channel (R230, R231). -/
def Caps.hbm (c : Caps) : Nat := c.channels * 2 ^ 31

/-- Whether a tile is enabled. -/
def Caps.tileOn (c : Caps) (t : Nat) : Bool := c.clusterOn (t / 8)

/-- Whether a slice is enabled. -/
def Caps.sliceOn (c : Caps) (s : Nat) : Bool := c.clusterOn (s / 2)

/-- The n-th index from k on at which a test holds, by ascending index, of f. -/
def nthOn (p : Nat → Bool) : Nat → Nat → Nat → Nat
  | 0, k, _ => k
  | f + 1, k, n => if p k then (if n = 0 then k else nthOn p f (k + 1) (n - 1)) else nthOn p f (k + 1) n

/-- The home slice of a physical address (R238). -/
def sliceOf (c : Caps) (pa : Nat) : Nat :=
  let l := pa / 128
  let g := Nat.xor (Nat.xor (l % 65536) (l / 65536 % 65536)) (l / 2 ^ 32 % 8192)
  let o := g * c.slices / 65536
  if c.slices = 160 then o else nthOn c.sliceOn 160 0 o

/-- The HBM4 channel of a physical address (R231). -/
def channelOf (c : Caps) (pa : Nat) : Nat :=
  let o := Nat.xor (bitsN (BitVec.ofNat 52 pa) 8 16) (bitsN (BitVec.ofNat 52 pa) 24 16) * c.channels / 65536
  if c.channels = 384 then o else nthOn c.chanEn.getLsbD 384 0 o

/-- The set of a physical address in its slice (R238). -/
def setOf (pa : Nat) : Nat :=
  let l := pa / 128
  Nat.xor (l / 1024 % 2048) (l / 2 ^ 21 % 2048)

/-- The die of a cluster (R5). -/
def dieOfCluster (c : Nat) : Nat := c % 10 / 5 + 2 * (c / 10 / 4)

/-- The die of a tile (R5). -/
def dieOfTile (t : Nat) : Nat := dieOfCluster (t / 8)

/-- What kind of access asks for a translation: a write, a fetch of text, an access that may reach a launch port page (LD,
LDQ, ST, STQ), a remote word. -/
structure AccKind where
  write  : Bool := false
  fetch  : Bool := false
  port   : Bool := false
  remote : Bool := false
  deriving DecidableEq, Repr

/-- The key of memory for a place; a launch port has none. -/
def Loc.key : Loc → Nat
  | .hbm pa => pa
  | .spad t o => spadKey t o
  | .staging s o => stageKey s o
  | .port _ => 2 ^ 60

/-- What a translation gives: a place with its cache class; a fault; a page of kind 01 that a promotion must bring (R344); a
frozen page (R340); a remote page, for a remote word. -/
inductive TRes where
  | ok (loc : Loc) (cls : BitVec 4)
  | fault (c : Nat)
  | promo (p : Promo)
  | frozen
  | remote (home : BitVec 6)
  deriving DecidableEq, Repr

/-- What hardware's own read of eight bytes of HBM comes to: the bytes; a fault; a wait for a frozen page. -/
inductive PtRead where
  | word (x : Nat)
  | fault (c : Nat)
  | frozen
  deriving DecidableEq, Repr

/-- Whether a frame may be reached at a physical address by hardware's own reads and writes (R242): 0 where it may, else the code of the
fault. (DEDUCED, unsafe: log entry 92) -/
def ownFault (d : Dev) (pa : Nat) : Nat :=
  let f := d.frames.get { vf := 0, owned := false, scrub := false } (pa / 65536)
  if !f.owned || f.scrub then cFrameOwner
  else if d.poison.contains (pa / 128) then cPoison
  else if d.bad.contains (pa / 128) then cUncorrectable
  else 0

/-- Whether the frame of a physical address belongs to a frozen page (R340). -/
def frozenAt (d : Dev) (pa : Nat) : Bool := d.mig.freezes.any fun z => z.frame == pa / 65536

/-- Eight bytes of HBM as a walker reads them (R234): the frame and the line are checked as at any access (R242), and a frozen page is waited
for (R340). What lies outside HBM reads as 0. -/
def ptRead (env : Env) (d : Dev) (pa : Nat) : PtRead :=
  if env.caps.hbm ≤ pa then .word 0
  else if ownFault d pa != 0 then .fault (ownFault d pa)
  else if frozenAt d pa then .frozen
  else .word (leNat (Memory.read d.mem pa 8))

/-- A table entry that passes R233: valid, [15:1] and [63:52] zero. -/
def tableOk (e : Nat) : Bool := e % 65536 == 1 && decide (e < 2 ^ 52)

/-- What a walk of the page tables comes to: the leaf, and whether it is a 512 MiB block; a fault; a wait. -/
inductive Walk where
  | leaf (x : Dword) (block : Bool)
  | fault (c : Nat)
  | frozen
  deriving DecidableEq, Repr

/-- Go on with an entry of a table. -/
def PtRead.go (r : PtRead) (f : Nat → Walk) : Walk :=
  match r with
  | .word x => f x
  | .fault c => .fault c
  | .frozen => .frozen

/-- The walk of the page tables (R232, R233). -/
def walkTables (env : Env) (d : Dev) (asid : BitVec 16) (va : Dword) : Walk :=
  (ptRead env d (d.asidtab.toNat + 8 * asid.toNat)).go fun root =>
  if !tableOk root then .fault cTranslation else
  (ptRead env d (root / 65536 * 65536 + 8 * bitsN va 42 13)).go fun e1 =>
  if !tableOk e1 then .fault cTranslation else
  (ptRead env d (e1 / 65536 * 65536 + 8 * bitsN va 29 13)).go fun e2 =>
  if e2 % 2 = 0 then .fault cTranslation
  else if e2 / 128 % 2 = 1 then
    if e2 / 65536 % 8192 = 0 && decide (e2 < 2 ^ 62) then .leaf (dw e2) true else .fault cTranslation
  else if !tableOk e2 then .fault cTranslation else
  (ptRead env d (e2 / 65536 * 65536 + 8 * bitsN va 16 13)).go fun e3 =>
  if e3 % 2 = 1 && e3 / 128 % 2 = 0 && decide (e3 < 2 ^ 62) then .leaf (dw e3) false else .fault cTranslation

/-- Entries that a structure holds (R235). -/
def TlbId.size : TlbId → Option Nat
  | .access _ => some 256
  | .fetch _ => some 64
  | .command _ => some 64
  | .matrix _ => some 128
  | .cluster _ => some 4096
  | .core _ => some 2048
  | .port _ => some 4096
  | .own => none

/-- The structure that a miss looks up next (R235). -/
def TlbId.next : TlbId → Option TlbId
  | .access t => some (.cluster (t / 8))
  | .fetch t => some (.cluster (t / 8))
  | .command t => some (.cluster (t / 8))
  | .matrix c => some (.cluster c)
  | .cluster _ => none
  | .core _ => none
  | .port _ => none
  | .own => none

/-- Whether a kept translation covers an address (R236). -/
def TlbEntry.covers (e : TlbEntry) (asid : BitVec 16) (va : Dword) : Bool :=
  e.asid == asid && (if e.block then e.page / 8192 == va.toNat / 2 ^ 29 else e.page == va.toNat / 65536)

/-- The leaf an access uses: that of a walk, or another that a structure of its unit still holds (R236). -/
def leafFor (env : Env) (d : Dev) (unit : TlbId) (asid : BitVec 16) (va : Dword) : Walk :=
  let w := walkTables env d asid va
  let stale := d.tlb.filter fun e => (e.unit == unit || some e.unit == unit.next) && e.covers asid va && Walk.leaf e.leaf e.block != w
  match stale with
  | [] => w
  | e :: r =>
    match (e :: r)[Config.tlbPick env.tick va.toNat]? with
    | some x => .leaf x.leaf x.block
    | none => w

/-- A structure keeps a translation; a full one gives up another for it (R235). -/
def putTlb (env : Env) (l : List TlbEntry) (e : TlbEntry) : List TlbEntry :=
  if l.contains e then l else
  let mine := l.filter fun x => x.unit == e.unit
  match e.unit.size with
  | none => e :: l
  | some n =>
    if mine.length < n then e :: l
    else match mine[Config.tlbVictim env.tick % n]? with
      | some x => e :: l.erase x
      | none => e :: l

/-- Keep a translation that was used, in the unit's own structure and in the next (R235, R236). -/
def noteTlb (env : Env) (d : Dev) (unit : TlbId) (asid : BitVec 16) (va leaf : Dword) (block : Bool) : Dev :=
  let e : TlbEntry := ⟨unit, asid, va.toNat / 65536, leaf, block⟩
  let l := putTlb env d.tlb e
  { d with tlb := match unit.next with
      | some u => putTlb env l { e with unit := u }
      | none => l }

/-- The page address of a virtual address. -/
def pageOf (va : Dword) : BitVec 55 := BitVec.ofNat 55 (va.toNat / 65536 * 65536)

/-- The frame of a physical address. -/
def Dev.frame (d : Dev) (f : Nat) : Frame := d.frames.get { vf := 0, owned := false, scrub := false } f

/-- A frame is owned by a VF (R242). -/
def Dev.owns (d : Dev) (f : Nat) (vf : BitVec 10) : Bool :=
  let x := d.frame f
  x.owned && !x.scrub && x.vf == vf

/-- The override entry of a page (R345). -/
def Dev.override (d : Dev) (vf : BitVec 10) (page : BitVec 55) : Option OvEntry :=
  d.mig.ovt.find? fun e => e.vf == vf && e.page == page

/-- The line of a physical address, where its slice holds it (R238). -/
def l2Find (env : Env) (d : Dev) (pa : Nat) : Option L2Line :=
  ((d.slice (sliceOf env.caps pa)).sets.get [] (setOf pa)).find? fun l => l.line == pa / 128

/-- A line that the home slice holds for another VF (R238). -/
def l2Foreign (env : Env) (d : Dev) (pa : Nat) (vf : BitVec 10) : Bool :=
  match l2Find env d pa with
  | some l => l.vf != vf
  | none => false

/-- Steps 4 to 6 of R383 for a kind 00 page at a physical address. -/
def checkFrame (env : Env) (d : Dev) (w : Who) (k : AccKind) (pa : Nat) (cls : BitVec 4) : TRes :=
  if pa < env.caps.hbm then
    if frozenAt d pa then
      if d.owns (pa / 65536) w.vf then .frozen else .fault cFrameOwner
    else if !d.owns (pa / 65536) w.vf || l2Foreign env d pa w.vf then .fault cFrameOwner
    else if d.poison.contains (pa / 128) then .fault cPoison
    else if d.bad.contains (pa / 128) then .fault cUncorrectable
    else .ok (.hbm pa) cls
  else if k.port && decide (0xF0C0000000000 ≤ pa) && decide (pa < 0xF0C0000000000 + 1024 * 65536) then
    if (pa - 0xF0C0000000000) / 65536 = w.vf.toNat then .ok (.port w.vf.toNat) cls else .fault cFrameOwner
  else .fault cTranslation

/-- Whether n bytes from a physical address on may be accessed, on behalf of the VFs that own their frames (R242): TRANSLATION outside HBM,
FRAME_OWNER at a frame that is unowned or scrubbed, a wait at a frozen page (R340), then the errors of the lines. (DEDUCED, unsafe:
log entry 92) -/
def physCheck (env : Env) (d : Dev) (pa n : Nat) : Res Unit :=
  let frames := (List.range ((pa + n - 1) / 65536 - pa / 65536 + 1)).map (pa / 65536 + ·)
  let hit (l : Nat) : Bool := decide (pa / 128 ≤ l) && decide (l ≤ (pa + n - 1) / 128)
  if env.caps.hbm < pa + n then .sys cTranslation (dw pa)
  else if frames.any fun f => !d.owns f (d.frame f).vf then .sys cFrameOwner (dw pa)
  else if frames.any fun f => frozenAt d (f * 65536) then .wait Wait.idle d
  else if d.poison.any hit then .sys cPoison (dw pa)
  else if d.bad.any hit then .sys cUncorrectable (dw pa)
  else .ok () d

/-- Whether an attempt meets a system fault. -/
def Res.faults {α : Type} : Res α → Bool
  | .sys _ _ => true
  | .ok _ _ => false
  | .wait _ _ => false
  | .trap _ _ _ _ _ => false
  | .roll _ => false

/-- Whether an attempt is done. -/
def Res.done {α : Type} : Res α → Bool
  | .ok _ _ => true
  | .wait _ _ => false
  | .trap _ _ _ _ _ => false
  | .sys _ _ => false
  | .roll _ => false

/-- Whether an attempt waits. -/
def Res.waits {α : Type} : Res α → Bool
  | .ok _ _ => false
  | .wait _ _ => true
  | .trap _ _ _ _ _ => false
  | .sys _ _ => false
  | .roll _ => false

/-- An address of the window region (R227, R228, R383). -/
def windowLoc (env : Env) (d : Dev) (w : Who) (k : AccKind) (a : Nat) : TRes :=
  let spad (t o : Nat) : TRes :=
    if k.fetch then .fault cPermission
    else if (d.tile t).tag ≠ some w.vf then .fault cFrameOwner
    else if d.bad.contains (spadKey t o / 128) then .fault cUncorrectable else .ok (.spad t o) 0
  if 0x7F0000000000 ≤ a then
    if decide (a < 0x7F0000000000 + 0x300000) && decide (w.tile < 640) then spad w.tile (a - 0x7F0000000000)
    else .fault cTranslation
  else if 0x7E0000000000 ≤ a then
    let o := a - 0x7E0000000000
    if env.caps.tileOn (o / 0x400000) && decide (o % 0x400000 < 0x300000) then spad (o / 0x400000) (o % 0x400000)
    else .fault cTranslation
  else
    let o := a - 0x7D0000000000
    if env.caps.sliceOn (o / 0x400000) then
      if k.fetch then .fault cPermission else
      let y := vget (d.slice (o / 0x400000)).sway {} (o % 0x400000 / 0x40000)
      if y.stage && y.grant && y.vf == w.vf && y.change == none then
        if d.bad.contains (stageKey (o / 0x400000) (o % 0x400000) / 128) then .fault cUncorrectable
        else .ok (.staging (o / 0x400000) (o % 0x400000)) 0
      else .fault cFrameOwner
    else .fault cTranslation

/-- Whether an address lies in the window region (R227). -/
def inWindow (va : Dword) : Bool := decide (0x7D0000000000 ≤ va.toNat) && decide (va.toNat < 0x800000000000)

/-- Chunks that an image from a handle on takes (R341): those of the image that stands there, or 1. -/
def chunksAt (d : Dev) (h : Nat) : Nat :=
  match d.mig.images.find h with
  | some i => i.chunks
  | none => 1

/-- A chunk lies in memory that is there: on the module, or in CXL memory that a root port has enumerated and that has not gone (R230, R341,
R377). -/
def chunkHere (d : Dev) (h : Nat) : Bool :=
  decide (h < 2 ^ 29) ||
    (decide (h < 2 ^ 29 + 2 ^ 31) && d.cxl.any fun r => decide (r.1 ≤ h - 2 ^ 29) && decide (h - 2 ^ 29 < r.1 + r.2))

/-- The chunks of a handle lie in enabled memory (R230, R341). -/
def handleOk (d : Dev) (h : Nat) : Bool := (List.range (chunksAt d h)).all fun i => chunkHere d (h + i)

/-- The fate of a leaf (R383 steps 2 to 6). While the page is frozen an access that its permissions allow waits, whatever frame and kind the
leaf names by then (R340); a remote word goes to the owner and is no access here. -/
def leafFate (env : Env) (d : Dev) (w : Who) (k : AccKind) (va leaf : Dword) (block : Bool) : TRes :=
  let pa := if block then bitsN leaf 29 23 * 2 ^ 29 + va.toNat % 2 ^ 29 else bitsN leaf 16 36 * 65536 + va.toNat % 65536
  let cls := BitVec.ofNat 4 (bitsN leaf 52 4)
  if !w.priv && !leaf.getLsbD 5 then .fault cPermission
  else if k.fetch && !leaf.getLsbD 4 then .fault cPermission
  else if k.write && !leaf.getLsbD 3 then .fault cPermission
  else
    let kind := bitsN leaf 1 2
    if d.mig.freezes.any (fun z => z.vf == w.vf && z.page == pageOf va) && !(kind = 2 && k.remote) then .frozen else
    let ov := if kind = 1 || kind = 2 then d.override w.vf (pageOf va) else none
    match ov with
    | some e =>
      match e.st with
      | .poisoned => .fault cPoison
      | .present => checkFrame env d w k (e.frame * 65536 + va.toNat % 65536) cls
      | .frozen => checkFrame env d w k (e.frame * 65536 + va.toNat % 65536) cls
    | none =>
      if kind = 3 then .fault cPoison
      else if kind = 2 then if k.remote then .remote (BitVec.ofNat 6 (bitsN leaf 56 6)) else .fault cPermission
      else if kind = 1 then
        if handleOk d (bitsN leaf 16 36) then .promo ⟨w.vf, w.asid, pageOf va, bitsN leaf 16 36, false⟩ else .fault cTranslation
      else checkFrame env d w k pa cls

/-- Translation of an address with every check of R383, in its order. -/
def translate (env : Env) (d : Dev) (w : Who) (k : AccKind) (va : Dword) : TRes :=
  if !va55 va then .fault cTranslation
  else if inWindow va then windowLoc env d w k va.toNat
  else match leafFor env d w.unit w.asid va with
    | .fault c => .fault c
    | .frozen => .frozen
    | .leaf x block => leafFate env d w k va x block

/-- The device after an address has been translated: the translation is kept (R236). -/
def keepTlb (env : Env) (d : Dev) (w : Who) (va : Dword) : Dev :=
  if inWindow va then d else
  match leafFor env d w.unit w.asid va with
  | .fault _ => d
  | .frozen => d
  | .leaf x block => noteTlb env d w.unit w.asid va x block

/-- Override entries in use: those of the table and those that promotions have taken (R337, R344). -/
def Mig.ovUse (m : Mig) : Nat := m.ovt.length + m.promos.countP (·.taken)

/-- Start a promotion, which takes an override entry where one is free, or join one (R344). -/
def startPromo (d : Dev) (p : Promo) : Dev :=
  if d.mig.promos.any (fun q => q.vf == p.vf && q.page == p.page) then d
  else { d with mig := { d.mig with promos := d.mig.promos ++ [{ p with taken := decide (d.mig.ovUse < 2048) }] } }

/-- Translate for a unit that waits while a page is promoted or frozen, and faults otherwise (R131, R340). -/
def locate (env : Env) (d : Dev) (w : Who) (k : AccKind) (va : Dword) : Res (Loc × BitVec 4) :=
  match translate env d w k va with
  | .ok loc cls => .ok (loc, cls) (keepTlb env d w va)
  | .fault c => .sys c va
  | .promo p => .wait Wait.idle (startPromo d p)
  | .frozen => .wait Wait.idle d
  | .remote _ => .sys cPermission va

/-- The program timestamp of an agent (R243). -/
def getPts (d : Dev) : Agent → Dword
  | .tile t p => vget (d.tile t).pts 0 p
  | .core n => (d.core n).pts
  | .stream k => (d.streams.get {} k).pts
  | .stamp x => x
  | .none => 0

/-- Set the program timestamp of an agent. -/
def setPts (d : Dev) (a : Agent) (x : Dword) : Dev :=
  match a with
  | .tile t p => d.onTile t fun y => { y with pts := vset y.pts p x }
  | .core n => d.setCore n { d.core n with pts := x }
  | .stream k => { d with streams := d.streams.set k { d.streams.get {} k with pts := x } }
  | .stamp _ => d
  | .none => d

/-- LEASELEN, where 0 acts as 1 (R247). -/
def Dev.lease (d : Dev) : Nat := max 1 d.leaselen.toNat

/-- Whether a debug stop holds a tile. -/
def Dbg.inStop (g : Dbg) : Bool := g.stopped || g.pending

/-- Add to the counters of a VF's session that count an event of set 3, while it is active (R367); nothing is counted of a tile that a debug
stop holds. `t` is the tile whose event it is, 640 for none. -/
def countEv (d : Dev) (t : Nat) (vf : BitVec 10) (ev n : Nat) : Dev :=
  let v := d.vf vf.toNat
  if v.active && !(d.tile t).dbg.inStop && (1 ≤ ev && ev ≤ 8) then
    d.setVf vf.toNat { v with evcnt := Vector.ofFn fun k =>
      if (vget v.evsel 0 k.val).toNat == ev then vget v.evcnt 0 k.val + dw n else vget v.evcnt 0 k.val }
  else d

/-- The ways in which a class may fill (R240): those of its mask that are cache ways, else the lowest cache way. -/
def Slice.waysOf (s : Slice) (cls : BitVec 4) : List Nat :=
  let cache (w : Nat) : Bool := !(vget s.sway {} w).stage && (vget s.sway {} w).change == none
  let mask := vget s.cmask 0 cls.toNat
  let allowed := (List.range 16).filter fun w => cache w && mask.getLsbD w
  if allowed.isEmpty then ((List.range 16).filter cache).take 1 else allowed

/-- The way a fill takes (R240): a free allowed way, else that of the least recently used line in an allowed way that is not
pinned. -/
def fillWay (s : Slice) (cls : BitVec 4) (ls : List L2Line) : Option Nat :=
  let ways := s.waysOf cls
  match ways.find? fun w => !(ls.any fun l => l.way == w) with
  | some w => some w
  | none => ((ls.reverse.filter fun l => ways.contains l.way && l.pins.isEmpty).head?).map (·.way)

/-- The tile whose access an agent makes, 640 for none. -/
def Agent.tileOf : Agent → Nat
  | .tile t _ => t
  | .core _ => 640
  | .stream _ => 640
  | .stamp _ => 640
  | .none => 640

/-- The line of a physical address in its slice, filled when it is not there, with the VF tag of its frame (R238, R240, R243); with
no way to take, the line is as if filled and evicted at once. `front`: insertion as most recently used, else as least (R27). `t` is the
tile for which it is touched, 640 for none. -/
def l2Touch (env : Env) (d : Dev) (t pa : Nat) (vf : BitVec 10) (cls : BitVec 4) (front : Bool) : L2Line × Bool × Dev :=
  let s := sliceOf env.caps pa
  let y := d.slice s
  let tag := (d.frame (pa / 65536)).vf
  let ls := y.sets.get [] (setOf pa)
  match ls.find? fun l => l.line == pa / 128 with
  | some l => (l, true, d.setSlice s { y with sets := y.sets.set (setOf pa) (l :: ls.filter fun m => m.line != pa / 128) })
  | none =>
    match fillWay y cls ls with
    | none => ({ line := pa / 128, way := 16, vf := tag, cls := cls, wts := y.mts, rts := y.mts }, false, d)
    | some w =>
      let gone := ls.filter fun l => l.way == w
      let mts := gone.foldl (fun a l => dmax a l.rts) y.mts
      let l : L2Line := { line := pa / 128, way := w, vf := tag, cls := cls, wts := mts, rts := mts }
      let rest := ls.filter fun m => m.way != w
      (l, true, countEv (d.setSlice s { y with
        sets := y.sets.set (setOf pa) (if front then l :: rest else rest ++ [l]), mts := mts }) t vf 6 1)

/-- Record new timestamps of a line; a line that could not be kept raises MTS as its eviction does (R243). (DEDUCED, unsafe: log entry 61) -/
def l2Set (env : Env) (d : Dev) (pa : Nat) (kept : Bool) (wts rts : Dword) : Dev :=
  let s := sliceOf env.caps pa
  let y := d.slice s
  if kept then d.setSlice s { y with sets := y.sets.set (setOf pa) ((y.sets.get [] (setOf pa)).map fun l =>
      if l.line == pa / 128 then { l with wts := wts, rts := rts } else l) }
  else d.setSlice s { y with mts := dmax y.mts rts }

/-- A change to the pins of a line that a slice holds. -/
def pinLine (env : Env) (d : Dev) (line : Nat) (f : List (BitVec 4) → List (BitVec 4)) : Dev :=
  let s := sliceOf env.caps (line * 128)
  let y := d.slice s
  d.setSlice s { y with sets := y.sets.set (setOf (line * 128)) ((y.sets.get [] (setOf (line * 128))).map fun l =>
    if l.line == line then { l with pins := f l.pins } else l) }

/-- Pin a line that its slice holds (R208): none where it is not there, or where the lines of the set that the class has pinned already take
as many ways as the class may fill (R240). -/
def l2Pin (env : Env) (d : Dev) (pa : Nat) (cls : BitVec 4) : Option Dev :=
  let y := d.slice (sliceOf env.caps pa)
  let ls := y.sets.get [] (setOf pa)
  let mine := ls.filter fun l => l.line == pa / 128 || l.pins.contains cls
  if (ls.any fun l => l.line == pa / 128) && decide (mine.length ≤ (y.waysOf cls).length) then
    some (pinLine env d (pa / 128) (cls :: ·))
  else none

/-- Release the lines that a command kept pinned, each with the class that pinned it (R208). -/
def unpin (env : Env) (d : Dev) (lines : List (Loc × BitVec 4)) : Dev :=
  lines.foldl (fun d x => match x.1 with
    | .hbm pa => pinLine env d (pa / 128) fun p => p.erase x.2
    | .spad _ _ => d
    | .staging _ _ => d
    | .port _ => d) d

/-- The timestamp step of a load at one unit of coherence (R244): the line's rts and the agent's pts move. -/
def loadTs (env : Env) (d : Dev) (ag : Agent) (vf : BitVec 10) (cls : BitVec 4) (front : Bool) : Loc → Dev × Dword × Dword
  | .hbm pa =>
    let (l, kept, d1) := l2Touch env d ag.tileOf pa vf cls front
    let pts := getPts d1 ag
    let rts := match ag with
      | .none => l.rts
      | .tile _ _ => dmax l.rts (pts + dw d.lease)
      | .core _ => dmax l.rts (pts + dw d.lease)
      | .stream _ => dmax l.rts (pts + dw d.lease)
      | .stamp _ => dmax l.rts (pts + dw d.lease)
    (setPts (l2Set env d1 pa kept l.wts rts) ag (dmax pts l.wts), l.wts, rts)
  | .spad t o =>
    let (wts, rts0) := (d.tile t).spTs.get (0, 0) (o / 64)
    let pts := getPts d ag
    let rts := dmax rts0 (pts + dw d.lease)
    (setPts (d.onTile t fun y => { y with spTs := y.spTs.set (o / 64) (wts, rts) }) ag (dmax pts wts), wts, rts)
  | .staging _ _ => (d, 0, 0)
  | .port _ => (d, 0, 0)

/-- The timestamp step of a store or an atomic (R244). -/
def storeTs (env : Env) (d : Dev) (ag : Agent) (vf : BitVec 10) (cls : BitVec 4) (front : Bool) : Loc → Dev × Dword
  | .hbm pa =>
    let (l, kept, d1) := l2Touch env d ag.tileOf pa vf cls front
    let ts := dmax (getPts d1 ag) (l.rts + 1)
    (setPts (l2Set env d1 pa kept ts ts) ag ts, ts)
  | .spad t o =>
    let (_, rts) := (d.tile t).spTs.get (0, 0) (o / 64)
    let ts := dmax (getPts d ag) (rts + 1)
    (setPts (d.onTile t fun y => { y with spTs := y.spTs.set (o / 64) (ts, ts) }) ag ts, ts)
  | .staging _ _ => (d, 0)
  | .port _ => (d, 0)

/-- A write performed at a page's home marks the line in the dirty map of a move in COPY (R352). -/
def markDirty (d : Dev) : Loc → Dev
  | .hbm pa =>
    if d.mig.cmds.isEmpty then d else
    { d with mig := { d.mig with cmds := d.mig.cmds.map fun c =>
        if c.op == 2 && c.phase == .copy && c.frame == pa / 65536 then
          { c with dirty := c.dirty ||| (BitVec.ofNat 512 1 <<< (pa % 65536 / 128)) } else c } }
  | .spad _ _ => d
  | .staging _ _ => d
  | .port _ => d

/-- Whether a reservation of a system core covers a written byte range: any write to it ends it. (PRESUMED, unsafe: log entry 68) -/
def dropResv (d : Dev) (k n : Nat) : Dev :=
  if d.cores.entries.isEmpty then d else
  { d with cores := ⟨d.cores.entries.map fun e =>
      match e.2.resv with
      | some (a, z) => if decide (a < k + n) && decide (k < a + z) then (e.1, { e.2 with resv := none }) else e
      | none => e⟩ }

/-- Put bytes at a place, with no place in the order of accesses. -/
def putBytes (d : Dev) (loc : Loc) (b : List Byte) : Dev :=
  markDirty (dropResv { d with mem := Memory.write loc.key b d.mem } loc.key b.length) loc

/-- The bytes at a place, as its home holds them. -/
def getBytes (d : Dev) (loc : Loc) (n : Nat) : List Byte :=
  match loc with
  | .port _ => List.replicate n 0
  | .hbm _ => Memory.read d.mem loc.key n
  | .spad _ _ => Memory.read d.mem loc.key n
  | .staging _ _ => Memory.read d.mem loc.key n

/-- Keep what a write replaces, for the paths that may still read it (R310). -/
def notePast (d : Dev) (ag : Agent) (loc : Loc) (ts : Dword) (n : Nat) : Dev :=
  let by_ : Nat × Nat := match ag with
    | .tile t p => (t, p)
    | .core _ => (640, 0)
    | .stream _ => (640, 0)
    | .stamp _ => (640, 0)
    | .none => (640, 0)
  { d with past := { key := loc.key, old := getBytes d loc n, ts := ts, tile := by_.1, path := by_.2 } :: d.past }

/-- What was replaced in a range of memory can be read no more. -/
def forgetPast (d : Dev) (k n : Nat) : Dev :=
  { d with past := d.past.filter fun p => !(decide (p.key < k + n) && decide (k < p.key + p.old.length)) }

/-- Uncorrectable errors in n bytes from key k on end when the bytes are given up (R318). -/
def clearBad (d : Dev) (k n : Nat) : Dev :=
  { d with bad := d.bad.filter fun l => !(decide (k ≤ 128 * l + 127) && decide (128 * l < k + n)) }

/-- A fence of tile t has ordered every earlier access of the paths m1 before the later ones of the paths m0 (R245, R310). -/
def fencePast (d : Dev) (t : Nat) (m1 m0 : BitVec 6) : Dev :=
  let y := d.tile t
  let top := (List.range 6).foldl (fun x p => if m1.getLsbD p then dmax x (vget y.pts 0 p) else x) 0
  { d.onTile t fun y => { y with ordTs := Vector.ofFn fun p => if m0.getLsbD p.val then dmax y.ordTs[p] top else y.ordTs[p] } with
    past := d.past.map fun w => if w.tile == t && m1.getLsbD w.path then { w with seen := w.seen ||| m0 } else w }

/-- Whether path p of tile t may still read what a write replaced (R308, R310): the write is not ordered before, and is none of the
path's own queues. A staging way has no timestamps: there the tile's own writes alone are late (R299). -/
def Past.open_ (w : Past) (d : Dev) (t p : Nat) : Bool :=
  !(w.tile == t && w.path == p && p != 5) &&
    (if 2 ^ 53 ≤ w.key then w.tile == t && !w.seen.getLsbD p else decide ((vget (d.tile t).ordTs 0 p).toNat < w.ts.toNat))

/-- The byte at a key as a path of a tile reads it: as it stands, or a value it held before a write that no fence has ordered before
(R310; DESIGN CHOICE, safe: log entry 8). -/
def pathByte (env : Env) (d : Dev) (t p k : Nat) (b : Byte) : Byte :=
  let olds := d.past.filterMap fun w => if decide (w.key ≤ k) && w.open_ d t p then w.old[k - w.key]? else none
  match olds with
  | [] => b
  | o :: r => ((o :: r)[Config.pastPick env.tick k]?).getD b

/-- The bytes at a place as an agent reads them at the home. -/
def readBytes (env : Env) (d : Dev) (ag : Agent) (loc : Loc) (n : Nat) : List Byte :=
  match ag with
  | .tile t p =>
    if p = 0 || d.past.isEmpty then getBytes d loc n
    else (getBytes d loc n).mapIdx fun i b => pathByte env d t p (loc.key + i) b
  | .core _ => getBytes d loc n
  | .stream _ => getBytes d loc n
  | .stamp _ => getBytes d loc n
  | .none => getBytes d loc n

/-- A load of n bytes that lie in one unit of coherence; `front` as in `l2Touch`. -/
def loadHint (env : Env) (d : Dev) (ag : Agent) (vf : BitVec 10) (cls : BitVec 4) (front : Bool) (loc : Loc) (n : Nat) :
    List Byte × Dev :=
  (readBytes env d ag loc n, (loadTs env d ag vf cls front loc).1)

/-- A load of n bytes that lie in one unit of coherence. -/
def loadAt (env : Env) (d : Dev) (ag : Agent) (vf : BitVec 10) (cls : BitVec 4) (loc : Loc) (n : Nat) : List Byte × Dev :=
  loadHint env d ag vf cls true loc n

/-- Whether what lies at a place is still a VF's to read: its frame, its scratchpad, its way (R228, R239, R242, R340). -/
def Loc.stillOf (d : Dev) (vf : BitVec 10) : Loc → Bool
  | .hbm pa => d.owns (pa / 65536) vf && !frozenAt d pa
  | .spad t _ => (d.tile t).tag == some vf
  | .staging s o =>
    let y := vget (d.slice s).sway {} (o / 0x40000)
    y.stage && y.grant && y.vf == vf && y.change == none
  | .port _ => false

/-- Bytes that a path has read for work that is not complete, as it has read them or as it reads them now (R310; DESIGN CHOICE, safe: log
entry 106). -/
def lateRead (env : Env) (d : Dev) (t p : Nat) (vf : BitVec 10) (cls : BitVec 4) (front : Bool) (loc : Loc) (b : List Byte) :
    List Byte × Dev :=
  if !loc.stillOf d vf then (b, d) else
  let now := readBytes env d (.tile t p) loc b.length
  let c := b.mapIdx fun i x => if Config.readLate env.tick (loc.key + i) then now.getD i x else x
  if c == b then (b, d) else (c, (loadTs env d (.tile t p) vf cls front loc).1)

/-- A store of bytes that lie in one unit of coherence, performed at the home, and the timestamp it takes; `front` as in `l2Touch`. -/
def storeMark (env : Env) (d : Dev) (ag : Agent) (vf : BitVec 10) (cls : BitVec 4) (front : Bool) (loc : Loc) (b : List Byte) :
    Dev × Dword :=
  let (d1, ts) := storeTs env d ag vf cls front loc
  (putBytes (notePast d1 ag loc ts b.length) loc b, ts)

/-- What a write of path p of a tile leaves at a place: an earlier store of A that no fence has ordered before the path may be performed
after it, and then the bytes stay as they stand (R132; DESIGN CHOICE, safe: log entry 105). -/
def overStore (env : Env) (d : Dev) (t p : Nat) (loc : Loc) (b : List Byte) : List Byte :=
  if d.past.isEmpty then b else b.mapIdx fun i x =>
    let k := loc.key + i
    let under (w : Past) : Bool :=
      w.tile == t && w.path == 0 && decide (w.key ≤ k) && decide (k < w.key + w.old.length) && w.open_ d t p
    if d.past.any under && Config.storeAfter env.tick k then Memory.get k d.mem else x

/-- The write of a command, a transfer, the rake or a remote reply to one unit of coherence (R308), and the timestamp it takes: bytes that
it does not leave there are still a value that was held (R310). -/
def sentMark (env : Env) (d : Dev) (ag : Agent) (vf : BitVec 10) (cls : BitVec 4) (front : Bool) (loc : Loc) (b : List Byte) :
    Dev × Dword :=
  match ag with
  | .tile t p =>
    let b1 := if p = 0 then b else overStore env d t p loc b
    let (d1, ts) := storeMark env d ag vf cls front loc b1
    (if b1 == b then d1 else { d1 with past := { key := loc.key, old := b, ts := ts, tile := t, path := p } :: d1.past }, ts)
  | .core _ => storeMark env d ag vf cls front loc b
  | .stream _ => storeMark env d ag vf cls front loc b
  | .stamp _ => storeMark env d ag vf cls front loc b
  | .none => storeMark env d ag vf cls front loc b

/-- A store of bytes that lie in one unit of coherence. -/
def storeAt (env : Env) (d : Dev) (ag : Agent) (vf : BitVec 10) (cls : BitVec 4) (loc : Loc) (b : List Byte) : Dev :=
  (storeMark env d ag vf cls true loc b).1

/-- The place n bytes further on. -/
def Loc.plus (l : Loc) (n : Nat) : Loc :=
  match l with
  | .hbm pa => .hbm (pa + n)
  | .spad t o => .spad t (o + n)
  | .staging s o => .staging s (o + n)
  | .port v => .port v

/-- The unit of coherence of a place: 128 bytes at a slice, 64 at a scratchpad bank (R243). -/
def Loc.unit : Loc → Nat
  | .hbm _ => 128
  | .spad _ _ => 64
  | .staging _ _ => 128
  | .port _ => 65536

/-- The offset of a place within its unit of coherence. -/
def Loc.inUnit : Loc → Nat
  | .hbm pa => pa % 128
  | .spad _ o => o % 64
  | .staging _ o => o % 128
  | .port _ => 0

/-- The unit of coherence that a place lies in. -/
def Loc.base : Loc → Loc
  | .hbm pa => .hbm (pa / 128 * 128)
  | .spad t o => .spad t (o / 64 * 64)
  | .staging s o => .staging s (o / 128 * 128)
  | .port v => .port v

/-- A load of n bytes of one page, a unit of coherence at a time in increasing address (R243). -/
def loadSpan (env : Env) (ag : Agent) (vf : BitVec 10) (cls : BitVec 4) : Nat → Dev → Loc → Nat → List Byte × Dev
  | 0, d, _, _ => ([], d)
  | f + 1, d, loc, n =>
    if n = 0 then ([], d) else
    let k := min n (loc.unit - loc.inUnit)
    let (b, d1) := loadAt env d ag vf cls loc k
    let (c, d2) := loadSpan env ag vf cls f d1 (loc.plus k) (n - k)
    (b ++ c, d2)

/-- A store of bytes to one page, a unit of coherence at a time in increasing address (R243). -/
def storeSpan (env : Env) (ag : Agent) (vf : BitVec 10) (cls : BitVec 4) : Nat → Dev → Loc → List Byte → Dev
  | 0, d, _, _ => d
  | f + 1, d, loc, b =>
    if b.isEmpty then d else
    let k := min b.length (loc.unit - loc.inUnit)
    storeSpan env ag vf cls f (storeAt env d ag vf cls loc (b.take k)) (loc.plus k) (b.drop k)

/-- The token bucket of a tile pays one token per line sent to device memory while gating is in force (R269). (DEDUCED, unsafe: log entry 28) -/
def payToken (d : Dev) (t : Nat) (loc : Loc) : Option Dev :=
  match loc with
  | .hbm _ =>
    if (d.share (dieOfTile t)).gate then
      if (d.tile t).bucket = 0 then none else some (d.onTile t fun y => { y with bucket := y.bucket - 1 })
    else some d
  | .spad _ _ => some d
  | .staging _ _ => some d
  | .port _ => some d

/-- Tokens that work of a tile has been given already are used first (R269); `k` names the work. -/
def payFrom (d : Dev) (t k : Nat) (loc : Loc) : Option Dev :=
  match loc with
  | .hbm _ =>
    if (d.share (dieOfTile t)).gate && (d.tile t).paid.get 0 k != 0 then
      some (d.onTile t fun y => { y with paid := y.paid.set k (y.paid.get 0 k - 1) })
    else payToken d t loc
  | .spad _ _ => some d
  | .staging _ _ => some d
  | .port _ => some d

/-- Work that waits on its bucket keeps the tokens it has been given: each of its messages goes as soon as it can pay (R269). -/
def keepPaid (t k : Nat) (d : Dev) : Dev :=
  d.onTile t fun y => { y with paid := y.paid.set k (y.paid.get 0 k + y.bucket), bucket := 0 }

/-- What a wait leaves of an attempt: the promotions that it has started. -/
def waitLeft (d d1 : Dev) : Dev := { d with mig := { d.mig with promos := d1.mig.promos } }

/-- What a wait leaves of an attempt of some work: its promotions, and its tokens. -/
def waitPaid (t k : Nat) (w : Wait) (d d1 : Dev) : Dev := if w == Wait.share then keepPaid t k (waitLeft d d1) else waitLeft d d1

/-- The unit of the package network that a place lies at: a tile, or a slice. -/
def Loc.netUnit (c : Caps) : Loc → Option (Bool × Nat)
  | .hbm pa => some (true, sliceOf c pa)
  | .spad t _ => some (false, t)
  | .staging s _ => some (true, s)
  | .port _ => none

/-- A packet that a tile has sent to several units at once has not reached the unit of a place yet: a later message of the tile to that unit
does not overtake it (R268). -/
def branchDue (env : Env) (d : Dev) (t : Nat) (loc : Loc) : Bool :=
  match vget (d.tile t).aq [] 5, loc.netUnit env.caps with
  | c :: _, some (slice, u) => c.load.any fun p => ((c.recv.getD []).zip c.sent).any fun r =>
      bitsN r.1 0 6 == env.caps.devid.toNat && r.1.getLsbD 7 == slice && bitsN r.1 8 10 == u && decide (r.2 ≤ p.1)
  | _ :: _, none => false
  | [], _ => false

/-- The L1 copy of a line (R237). -/
def Tile.l1Find (t : Tile) (line : Nat) : Option L1Copy := t.l1.find? fun c => c.line == line

/-- Keep a copy of a line in L1: a set, that of PA[13:7], holds at most 4 (R3, R237); `k` says which of 4 gives way. -/
def Tile.l1Put (t : Tile) (k : Nat) (c : L1Copy) : Tile :=
  let rest := t.l1.filter fun x => x.line != c.line
  let set := rest.filter fun x => x.line % 128 == c.line % 128
  if set.length < 4 then { t with l1 := c :: rest }
  else match set[k % 4]? with
    | some x => { t with l1 := c :: rest.erase x }
    | none => { t with l1 := c :: rest }

/-- A load by a tile's access engine of bytes within one line (R136, R237, R244): from an L1 copy whose lease covers the
engine's pts, or from the home, which renews the copy. -/
def tileLoad (env : Env) (d : Dev) (t : Nat) (vf : BitVec 10) (cls : BitVec 4) (loc : Loc) (n : Nat) : Res (List Byte) :=
  match loc with
  | .hbm pa =>
    let hit := match (d.tile t).l1Find (pa / 128) with
      | some c => if (vget (d.tile t).pts 0 0).toNat ≤ c.rts.toNat && Config.l1Kept env.tick pa then some c else none
      | none => none
    match hit with
    | some c => .ok (natLe n (c.val.toNat / 256 ^ (pa % 128)))
        (setPts d (.tile t 0) (dmax (vget (d.tile t).pts 0 0) c.wts))
    | none =>
      match payToken d t loc with
      | none => .wait Wait.share d
      | some d0 =>
        let (d1, wts, rts) := loadTs env d0 (.tile t 0) vf cls true loc
        let line := Memory.read d1.mem (pa / 128 * 128) 128
        let c : L1Copy := ⟨pa / 128, BitVec.ofNat 1024 (leNat line), wts, rts⟩
        .ok (getBytes d1 loc n) (d1.onTile t fun y => y.l1Put (Config.l1Victim env.tick) c)
  | .spad a o => let (b, d1) := loadAt env d (.tile t 0) vf cls (.spad a o) n; .ok b d1
  | .staging s o => .ok (getBytes d (.staging s o) n) d
  | .port _ => .ok (List.replicate n 0) d

/-- A load of the 128 bytes of an aligned line, a unit of coherence at a time (R243). -/
def tileLine (env : Env) (d : Dev) (t : Nat) (vf : BitVec 10) (cls : BitVec 4) (loc : Loc) : Res (List Byte) :=
  match loc with
  | .spad u o =>
    (tileLoad env d t vf cls (.spad u o) 64).bind fun a d1 =>
      (tileLoad env d1 t vf cls (.spad u (o + 64)) 64).bind fun b d2 => .ok (a ++ b) d2
  | .hbm pa => tileLoad env d t vf cls (.hbm pa) 128
  | .staging s o => tileLoad env d t vf cls (.staging s o) 128
  | .port v => tileLoad env d t vf cls (.port v) 128

/-- The L1 copy of a line after a store of this tile was performed at the home (R237). -/
def l1Update (env : Env) (d : Dev) (t : Nat) (ts : Dword) : Loc → Dev
  | .hbm pa =>
    match (d.tile t).l1Find (pa / 128) with
    | some _ => d.onTile t fun y =>
        y.l1Put (Config.l1Victim env.tick) ⟨pa / 128, BitVec.ofNat 1024 (leNat (Memory.read d.mem (pa / 128 * 128) 128)), ts, ts⟩
    | none => d
  | .spad _ _ => d
  | .staging _ _ => d
  | .port _ => d

/-- A store by a tile's access engine of bytes within one line, performed at the home (R136, R237, R244), behind a packet of the tile
that is still on its way there (R268). -/
def tileStore (env : Env) (d : Dev) (t : Nat) (vf : BitVec 10) (cls : BitVec 4) (loc : Loc) (b : List Byte) : Res Unit :=
  if branchDue env d t loc then .wait Wait.idle d else
  match payToken d t loc with
  | none => .wait Wait.share d
  | some d0 =>
    let (d1, ts) := storeTs env d0 (.tile t 0) vf cls true loc
    .ok () (l1Update env (putBytes (notePast d1 (.tile t 0) loc ts b.length) loc b) t ts loc)

/-- An atomic step by a tile's access engine at the home (R137): the old bytes go to `f`, which gives the new ones, or none
when no byte is written; either way it takes an atomic's place in the order. It is no REQ message and pays no token (R262, R269). -/
def tileAtomic (env : Env) (d : Dev) (t : Nat) (vf : BitVec 10) (cls : BitVec 4) (loc : Loc) (n : Nat)
    (f : List Byte → Option (List Byte)) : Res (List Byte) :=
  let old := getBytes d loc n
  let (d1, ts) := storeTs env d (.tile t 0) vf cls true loc
  match f old with
  | some b => .ok old (l1Update env (putBytes (notePast d1 (.tile t 0) loc ts b.length) loc b) t ts loc)
  | none => .ok old (l1Update env d1 t ts loc)

/-- The same atomic step by another agent. -/
def atomicAt (env : Env) (d : Dev) (ag : Agent) (vf : BitVec 10) (cls : BitVec 4) (loc : Loc) (n : Nat)
    (f : List Byte → List Byte) : List Byte × Dev :=
  let old := getBytes d loc n
  (old, storeAt env d ag vf cls loc (f old))

end Sys2Proof.Machine
end

