-- ==== Sys2Proof/Machine/Ops.lean ====
section
/-! DEFINITION. The operations the meanings share: event records (R120 to R122, R330), flags (R140), barrier objects (R143 to
R145), fault records (R319, R320), updates that hardware makes on its own (R384), taking a user trap (R315, R316), a system
fault (R318), a region rollback (R74, R323), and the return from a trap (R129). -/

namespace Sys2Proof.Machine

/-! ### Where an iteration is -/

/-- The saved iteration with a serial number. -/
def Tile.savedOf (t : Tile) (serial : Nat) : Option TCore := t.saved.find? fun c => c.iter.serial == serial

/-- Whether the iteration with a serial number runs on the tile. -/
def Tile.runs (t : Tile) (serial : Nat) : Bool := t.running && t.core.iter.serial == serial

/-- The iteration of a tile that has a serial number, running or saved. -/
def Tile.iterOf (t : Tile) (serial : Nat) : Option TCore :=
  if t.runs serial then some t.core else t.savedOf serial

/-- A change to the iteration with a serial number, running on a tile or saved. -/
def onIter (d : Dev) (t serial : Nat) (f : TCore → TCore) : Dev :=
  if (d.tile t).runs serial then d.onCore t f
  else d.onTile t fun y => { y with saved := y.saved.map fun c => if c.iter.serial == serial then f c else c }

/-- On whose behalf the words of a tile make accesses. -/
def whoTile (d : Dev) (t : Nat) : Who :=
  let c := (d.tile t).core
  { tile := t, unit := .access t, asid := c.csr.asid, vf := c.csr.vfid, priv := (d.vf c.csr.vfid.toNat).priv }

/-- The ASID of a word at a walk count: words up to an ASIDSET keep the ASID before it (R163). -/
def TCore.asidAt (c : TCore) (walk : Dword) : BitVec 16 :=
  c.asids.foldl (fun cur e => if walk.toNat ≤ e.1.toNat then e.2 else cur) c.csr.asid

/-- On whose behalf an engine of a tile fetches: under the ASID of its word (R163), through the instruction TLB (R235). -/
def whoEng (d : Dev) (t : Nat) (e : Eng) : Who :=
  let c := (d.tile t).core
  { whoTile d t with unit := .fetch t, asid := c.asidAt (c.eng[e.idx.val]).walk }

/-- On whose behalf M has a command accepted: under the ASID of its word, through the TLB of the fetch unit and rake (R208, R235). -/
def whoM (d : Dev) (t : Nat) : Who := { whoEng d t .m with unit := .matrix (t / 8) }

/-- On whose behalf hardware makes its own updates for a VF: under its ASID in the VF ASID table (R384, R385). -/
def whoVf (d : Dev) (vf : BitVec 10) (tile : Nat) : Who :=
  { tile := tile, unit := .own, asid := (d.vf vf.toNat).asid, vf := vf, priv := (d.vf vf.toNat).priv }

/-! ### Hardware's own accesses -/

/-- Read bytes that may cross pages, as an access of an agent. (DEDUCED, safe: log entry 66) -/
def hwRead (env : Env) (w : Who) (ag : Agent) : Nat → Dev → Dword → Nat → Res (List Byte)
  | 0, d, _, _ => .ok [] d
  | f + 1, d, va, n =>
    if n = 0 then .ok [] d else
    let k := min n (65536 - va.toNat % 65536)
    (locate env d w {} va).bind fun (loc, cls) d1 =>
      let (b, d2) := loadSpan env ag w.vf cls k d1 loc k
      (hwRead env w ag f d2 (va + dw k) (n - k)).bind fun c d3 => .ok (b ++ c) d3

/-- Whether every page of a byte range may be written; the first fault otherwise. -/
def hwCheck (env : Env) (w : Who) (k : AccKind) : Nat → Dev → Dword → Nat → Res Unit
  | 0, d, _, _ => .ok () d
  | f + 1, d, va, n =>
    if n = 0 then .ok () d else
    let m := min n (65536 - va.toNat % 65536)
    (locate env d w k va).bind fun _ d1 => hwCheck env w k f d1 (va + dw m) (n - m)

/-- Write bytes that may cross pages, as an access of an agent. -/
def hwWrite (env : Env) (w : Who) (ag : Agent) : Nat → Dev → Dword → List Byte → Res Unit
  | 0, d, _, _ => .ok () d
  | f + 1, d, va, b =>
    if b.isEmpty then .ok () d else
    let k := min b.length (65536 - va.toNat % 65536)
    (locate env d w { write := true } va).bind fun (loc, cls) d1 =>
      hwWrite env w ag f (storeSpan env ag w.vf cls k d1 loc (b.take k)) (va + dw k) (b.drop k)

/-- The little-endian dword at an address. -/
def hwRead8 (env : Env) (d : Dev) (w : Who) (va : Dword) : Res Nat :=
  (hwRead env w .none 2 d va 8).bind fun b d1 => .ok (leNat b) d1

/-- Write a little-endian dword at an address. -/
def hwWrite8 (env : Env) (d : Dev) (w : Who) (va : Dword) (x : Nat) : Res Unit :=
  hwWrite env w .none 2 d va (natLe 8 x)

/-! ### Flags -/

/-- The identifier of a setter (R140): VF, device, agent. -/
def setterId (env : Env) (vf : BitVec 10) (agent : Nat) : Nat := vf.toNat * 2 ^ 22 + env.caps.devid.toNat * 2 ^ 16 + agent

/-- The bytes of a flag whose VALUE has grown, with its SETTER (R140). -/
def flagAdd (inc setter : Nat) (b : List Byte) : List Byte :=
  natLe 8 ((leNat (b.take 8) + inc) % 2 ^ 64) ++ natLe 8 setter

/-- A flag update made by hardware or by a remote word (R140, R384), and the timestamp it takes: a misaligned or faulting address
is not updated. -/
def flagMark (env : Env) (d : Dev) (w : Who) (ag : Agent) (va : Dword) (inc setter : Nat) : Res Dword :=
  if !aligned va 16 then .sys 0x0B va
  else (locate env d w { write := true } va).bind fun (loc, cls) d1 =>
    let (d2, ts) := storeMark env d1 ag w.vf cls true loc (flagAdd inc setter (getBytes d1 loc 16))
    .ok ts d2

/-- A flag update (R140, R384). -/
def flagUpdate (env : Env) (d : Dev) (w : Who) (ag : Agent) (va : Dword) (inc setter : Nat) : Res Unit :=
  (flagMark env d w ag va inc setter).bind fun _ d1 => .ok () d1

/-- An update that hardware makes on its own waits (R340, R344). -/
def Dev.defer (d : Dev) (x : Later) : Dev := { d with later := d.later ++ [x] }

/-- On whose behalf an update of hardware's own is made, where its address is translated. -/
def Later.who (d : Dev) : Later → Option Who
  | .flag w _ _ _ _ _ => some w
  | .record vf _ _ => some (whoVf d vf 640)
  | .prof w _ _ => some w
  | .image _ _ w _ _ => some w
  | .state vf _ _ => some (whoVf d vf 640)
  | .release v _ => some (whoVf d (BitVec.ofNat 10 v) 640)
  | .ringPa _ _ _ _ => none
  | .land _ => none
  | .dirEnd _ _ => none
  | .send _ _ _ _ => none
  | .load _ _ => none

/-- The device after an access has met a fault: the translation that it used may be used again (R236). -/
def keepFault (env : Env) (w : Option Who) (va : Dword) (d : Dev) : Dev :=
  match w with
  | some x => keepTlb env d x va
  | none => d

/-- What becomes of an update of hardware's own: made; waiting, with what waits; not made. -/
def settle (env : Env) (d : Dev) (x : Later) (fault : Nat → Dword → Dev) (r : Res Unit) : Dev :=
  match r with
  | .ok _ d1 => d1
  | .wait _ d1 => d1.defer x
  | .sys c va => keepFault env (x.who d) va (fault c va)
  | .trap _ _ _ _ _ => d
  | .roll _ => d

/-! ### Event records -/

/-- An event record from its two dwords (R121). -/
def rec16 (lo hi : Nat) : Rec16 := BitVec.ofNat 128 (hi % 2 ^ 64 * 2 ^ 64 + lo % 2 ^ 64)

/-- A record is discarded and counted (R120). -/
def TCore.lose (c : TCore) : TCore := { c with lost := BitVec.ofNat 16 (min (c.lost.toNat + 1) 0xFFFF) }

/-- Place a record in an event queue of 256; a record that finds it full is discarded and counted (R120). -/
def TCore.post (c : TCore) (r : Rec16) (ts : Dword) : TCore :=
  if c.ev.length < 256 then { c with ev := c.ev ++ [(r, ts)] } else c.lose

/-- Post to the iteration that runs on a tile; with none running the record is discarded in the same way (R120). -/
def postRunning (d : Dev) (t : Nat) (r : Rec16) (ts : Dword) : Dev :=
  d.onCore t fun c => if (d.tile t).running then c.post r ts else c.lose

/-- EVQSTAT (R124). -/
def TCore.evqstat (c : TCore) : Nat := c.lost.toNat * 65536 + c.ev.length

/-- Bytes of the image of a saved iteration are written; they wait with its page, and are lost with a fault (DESIGN CHOICE, unsafe: log
entry 71). -/
def imageWrite (env : Env) (d : Dev) (t serial : Nat) (w : Who) (va : Dword) (b : List Byte) : Dev :=
  settle env d (.image t serial w va b) (fun _ _ => d) (hwWrite env w .none 3 d va b)

/-- On whose behalf the image of a saved iteration is written (R326, R330). -/
def whoSaved (d : Dev) (t : Nat) (c : TCore) : Who :=
  { tile := t, unit := .own, asid := c.csr.asid, vf := c.csr.vfid, priv := (d.vf c.csr.vfid.toNat).priv }

/-- The event queue of a saved iteration is its image in the context area (R330): the record is added there. -/
def postImage (env : Env) (d : Dev) (t : Nat) (serial : Nat) (r : Rec16) (ts : Dword) : Dev :=
  match (d.tile t).savedOf serial with
  | none => d
  | some c =>
    let c2 := c.post r ts
    let d1 := d.onTile t fun y => { y with saved := y.saved.map fun z => if z.iter.serial == serial then c2 else z }
    let w := whoSaved d t c
    let d2 := if c.ev.length < 256 then imageWrite env d1 t serial w (c.csr.ctxptr + dw (0x17000 + 16 * c.ev.length)) (natLe 16 r.toNat)
      else d1
    imageWrite env d2 t serial w (c.csr.ctxptr + dw (0xEC0 + 8 * 28)) (natLe 8 c2.evqstat)

/-- Post a record to an iteration of a tile: its queue while it runs, its image while it is pre-empted, nowhere once it has
retired (R330). -/
def postIter (env : Env) (d : Dev) (t serial : Nat) (r : Rec16) (ts : Dword) : Dev :=
  if (d.tile t).runs serial then d.onCore t fun c => c.post r ts else postImage env d t serial r ts

/-- Post a record of a barrier object to the iteration of tile ARMT that armed it (R145, R330); of an object whose arming is not known by
the place it now stands at, to the iteration that runs there (DEDUCED, unsafe: log entry 16). -/
def postBarrier (env : Env) (d : Dev) (t key : Nat) (r : Rec16) (ts : Dword) : Dev :=
  match d.arms.find key with
  | some n => if (d.tile t).running then postIter env d t n r ts else
      match (d.tile t).savedOf n with
      | some _ => postImage env d t n r ts
      | none => postRunning d t r ts
  | none => postRunning d t r ts

/-- A command-completion record (R122). -/
def cmdRecord (tag : Dword) (bytes cmd aq status : Nat) : Rec16 :=
  rec16 (bytes % 2 ^ 40 * 2 ^ 24 + cmd * 2 ^ 21 + aq * 2 ^ 16 + status * 256 + 1) tag.toNat

/-! ### Fault records -/

/-- The fields of a fault record (R320). -/
structure FRec where
  addr : Dword := 0
  info : Dword := 0
  pc   : Dword := 0
  tile : Nat := 0x3FF
  vf   : BitVec 10 := 0
  aq   : Nat := 0
  eng  : Nat := 0
  kind : Nat := 0
  code : Nat := 0
  deriving DecidableEq, Repr

/-- The 32 bytes of a fault record (R320). -/
def FRec.bytes (r : FRec) (seq : BitVec 16) : List Byte :=
  natLe 8 (r.tile * 2 ^ 54 + r.vf.toNat * 2 ^ 44 + r.aq * 2 ^ 39 + r.eng * 2 ^ 36 + r.kind * 2 ^ 32 + seq.toNat * 2 ^ 16 +
    r.code) ++ natLe 8 r.pc.toNat ++ natLe 8 r.info.toNat ++ natLe 8 r.addr.toNat

/-- A ring SIZE that R319 allows: a power of two from 16 to 65,536. -/
def ringSizeOk (n : Nat) : Bool := decide (16 ≤ n ∧ n ≤ 65536) && n &&& (n - 1) == 0

/-- Stores of hardware's own to one page that carry a timestamp, a unit of coherence at a time, and the timestamp that covers them (R309). -/
def stampSpan (env : Env) (vf : BitVec 10) (cls : BitVec 4) : Nat → Dev → Dword → Loc → List Byte → Dev × Dword
  | 0, d, ts, _, _ => (d, ts)
  | f + 1, d, ts, loc, b =>
    if b.isEmpty then (d, ts) else
    let k := min b.length (loc.unit - loc.inUnit)
    let (d1, x) := storeMark env d (.stamp ts) vf cls true loc (b.take k)
    stampSpan env vf cls f d1 (dmax ts x) (loc.plus k) (b.drop k)

/-- Write bytes that may cross pages as such stores. -/
def stampWrite (env : Env) (w : Who) : Nat → Dev → Dword → Dword → List Byte → Res Dword
  | 0, d, ts, _, _ => .ok ts d
  | f + 1, d, ts, va, b =>
    if b.isEmpty then .ok ts d else
    let k := min b.length (65536 - va.toNat % 65536)
    (locate env d w { write := true } va).bind fun (loc, cls) d1 =>
      let (d2, x) := stampSpan env w.vf cls k d1 ts loc (b.take k)
      stampWrite env w f d2 x (va + dw k) (b.drop k)

/-- Increment the flag of a ring after an entry that was written (R319), behind the stores of the entry and of HEAD, whose timestamp it
carries (R309): it waits with its page; a faulting increment is lost and posts no record. -/
def ringFlag (env : Env) (d : Dev) (w : Who) (va : Dword) (agent : Nat) (ts : Dword) : Dev :=
  settle env d (.flag w va ts 1 (setterId env w.vf agent) none) (fun _ _ => d)
    (flagUpdate env d w (.stamp ts) va 1 (setterId env w.vf agent))

/-- Write an entry to a ring named by a virtual address (R319), and increment its flag: a fault when the ring cannot be written, a wait
while its pages are promoted or frozen. The entry and then HEAD are written, each with a timestamp no lower than that of the store before
it (R296, R319). A full ring counts the entry as lost. (DEDUCED, unsafe: log entry 45) -/
def ringPost (env : Env) (d : Dev) (w : Who) (va : Dword) (b : List Byte) : Res Unit :=
  (hwCheck env w { write := true } 2 d va 64).bind fun _ d0 =>
    (hwRead env w .none 2 d0 va 40).bind fun h d1 =>
      let size := leNat (h.take 8)
      let head := leNat ((h.drop 8).take 8)
      let tail := leNat ((h.drop 16).take 8)
      let lost := leNat ((h.drop 24).take 8)
      let fq := leNat ((h.drop 32).take 8)
      if !ringSizeOk size then .sys 0 va
      else if (head + 2 ^ 64 - tail) % 2 ^ 64 = size then hwWrite8 env d1 w (va + 24) (lost + 1)
      else
        let place := va + dw (64 + b.length * (head % size))
        (hwCheck env w { write := true } 2 d1 place b.length).bind fun _ d2 =>
          (stampWrite env w 2 d2 0 place b).bind fun t1 d3 =>
            (stampWrite env w 2 d3 t1 (va + 8) (natLe 8 (head + 1))).bind fun t2 d4 =>
              .ok () (if fq = 0 then d4 else ringFlag env d4 w (dw fq) 0x0C01 t2)

/-- Take the sequence number of a record (R320). -/
def takeSeq (d : Dev) (tile : Nat) : BitVec 16 × Dev :=
  if tile < 640 then ((d.tile tile).frSeq, d.onTile tile fun y => { y with frSeq := y.frSeq + 1 })
  else (d.frSeq, { d with frSeq := d.frSeq + 1 })

/-- Write a fault record (R319): to the named queue, else to the VF's default queue, else it is counted in FQDROP. -/
def tryRecord (env : Env) (d : Dev) (vf : BitVec 10) (fq : BitVec 55) (b : List Byte) : Res Unit :=
  let w := whoVf d vf 640
  let dflt := (d.vf vf.toNat).deffq
  let post (q : BitVec 55) : Res Unit := if q = 0 then .sys 0 0 else ringPost env d w (zx q) b
  match post fq with
  | .ok _ d1 => .ok () d1
  | .wait x d1 => .wait x d1
  | .trap _ _ _ _ _ => .ok () d
  | .roll _ => .ok () d
  | .sys _ va =>
    let d0 := if fq = 0 then d else keepTlb env d w va
    match (if dflt = 0 then .sys 0 0 else ringPost env d0 w (zx dflt) b) with
    | .ok _ d1 => .ok () d1
    | .wait x d1 => .wait x d1
    | .trap _ _ _ _ _ => .ok () d
    | .roll _ => .ok () d
    | .sys _ va1 => .ok () { (if dflt = 0 then d0 else keepTlb env d0 w va1) with fqdrop := sat32 d.fqdrop 1 }

/-- Post a fault record (R319, R320); it waits while the pages of its queue are promoted or frozen (R340, R344). -/
def postFault (env : Env) (d : Dev) (fq : BitVec 55) (r : FRec) : Dev :=
  let (seq, d1) := takeSeq d r.tile
  settle env d1 (.record r.vf fq (r.bytes seq)) (fun _ _ => d1) (tryRecord env d1 r.vf fq (r.bytes seq))

/-! ### Nodes -/

/-- The node record of a node. -/
def Dev.node (d : Dev) (n : Nat) : Option Node := d.nodes.find n

/-- A field of a node's copy of its record (R38). -/
def Node.fld (n : Node) (lo w : Nat) : Nat := n.copy.toNat / 2 ^ lo % 2 ^ w

/-- The VF of a node. -/
def Node.vf (n : Node) : BitVec 10 := BitVec.ofNat 10 (n.fld 640 10)

/-- The fault queue of a node, 0 for the VF's default (R38). -/
def Node.faultq (n : Node) : BitVec 55 := BitVec.ofNat 55 (n.fld 128 55)

/-- Write STATE in a node's live dword (R42, R43), as an atomic step of hardware that carries a timestamp, and the timestamp it takes. -/
def writeState (env : Env) (d : Dev) (vf : BitVec 10) (va ts : Dword) (st : Nat) : Res Dword :=
  let w := whoVf d vf 640
  (locate env d w { write := true } (va + 96)).bind fun (loc, cls) d1 =>
    let (d2, x) := storeMark env d1 (.stamp ts) vf cls true loc (natLe 8 (putBits (leNat (getBytes d1 loc 8)) 16 4 st))
    .ok x d2

/-- Write STATE in a node's live dword: it waits while the page is promoted or frozen (R340); a write that faults is lost with no record
(DESIGN CHOICE, unsafe: log entry 70: the spec gives it no fate). -/
def setNodeState (env : Env) (d : Dev) (vf : BitVec 10) (va : Dword) (st : Nat) : Dev :=
  settle env d (.state vf va st) (fun _ _ => d) ((writeState env d vf va 0 st).bind fun _ d1 => .ok () d1)

/-- A failure is reported against a node (R48): a node in state 3 becomes failed. -/
def failNode (env : Env) (d : Dev) (n : Nat) : Dev :=
  match d.node n with
  | none => d
  | some x =>
    if x.ph = .running || x.ph = .ready then
      setNodeState env { d with nodes := d.nodes.set n { x with ph := .failed, failed := true } } x.vf x.va 5
    else d

/-- Hardware could not make an update of its own: the record of R384. (DEDUCED, unsafe: log entry 29) -/
def lostUpdate (env : Env) (d : Dev) (fq : BitVec 55) (vf : BitVec 10) (tile eng aq code : Nat) (va : Dword) : Dev :=
  postFault env d fq { addr := va, info := dw code, tile := tile, vf := vf, aq := aq, eng := eng, kind := 2, code := 0x26 }

/-! ### Barrier objects -/

/-- A barrier object's fields (R143). -/
structure BarObj where
  count : Nat
  state : Nat
  flag  : Nat
  armt  : Nat
  top   : Nat

/-- Read a barrier object from its 16 bytes. -/
def barOf (b : List Byte) : BarObj :=
  let x := leNat b
  ⟨x % 2 ^ 56, x / 2 ^ 56 % 256, x / 2 ^ 64 % 2 ^ 51, x / 2 ^ 115 % 1024, x / 2 ^ 125 % 8⟩

/-- The 16 bytes of a barrier object. -/
def BarObj.bytes (o : BarObj) : List Byte :=
  natLe 16 (o.count + o.state * 2 ^ 56 + o.flag * 2 ^ 64 + o.armt * 2 ^ 115 + o.top * 2 ^ 125)

/-- What a step on a barrier object brings about beside its new value: it reached zero, or it posts the record 0x06 with
the excess and the STATE found (R144, R145). -/
inductive BarAct where
  | none
  | zero
  | error (excess found : Nat)
  deriving DecidableEq, Repr

/-- BARARM's step (R144). -/
def barArm (t n : Nat) (o : BarObj) : BarObj × BarAct :=
  let o := { o with armt := t }
  if o.state = 0 || o.state = 2 then
    if n = 0 then ({ o with count := 0, state := 2 }, .zero) else ({ o with count := n, state := 1 }, .none)
  else if o.state = 1 then
    if 2 ^ 56 ≤ o.count + n then
      ({ o with count := 0, state := 3 }, .error (o.count + n - (2 ^ 56 - 1)) 1)
    else if o.count + n = 0 then ({ o with state := 2 }, .zero)
    else ({ o with count := o.count + n }, .none)
  else (o, .none)

/-- A decrement of b bytes (R145). -/
def barDec (b : Nat) (o : BarObj) : BarObj × BarAct :=
  if o.state = 1 && b ≤ o.count then
    if o.count = b then ({ o with count := 0, state := 2 }, .zero) else ({ o with count := o.count - b }, .none)
  else if o.state ≤ 2 then
    ({ o with count := 0, state := 3 }, .error (b - (if o.state = 1 then o.count else 0)) o.state)
  else (o, .none)

/-- The VF that owns a place (R384). -/
def ownerVf (d : Dev) : Loc → BitVec 10
  | .hbm pa => (d.frame (pa / 65536)).vf
  | .spad t _ => (d.tile t).tag.getD 0
  | .staging s o => (vget (d.slice s).sway {} (o / 0x40000)).vf
  | .port v => BitVec.ofNat 10 v

/-- Increment a flag as an update of hardware's own that carries a timestamp (R384): it waits with its page; when it cannot be made,
the record goes where `lost` says. -/
def hwFlag (env : Env) (d : Dev) (w : Who) (va ts : Dword) (inc setter : Nat) (lost : Option LostRec) : Dev :=
  settle env d (.flag w va ts inc setter lost)
    (fun c _ => match lost with
      | some l => lostUpdate env d l.fq l.vf l.tile l.eng l.aq c va
      | none => d)
    (flagUpdate env d w (.stamp ts) va inc setter)

/-- What follows a step on the barrier object at an address (R145, R384), with the timestamp that the step took: the flag of an object
that reached zero is incremented under the ASID of the VF that owns the object's memory, and the record goes to tile ARMT. The
record of an increment that cannot be made goes to the queue of the node whose iteration runs on ARMT, else to the owner's default queue. -/
def barAfter (env : Env) (d : Dev) (ts : Dword) (loc : Loc) (va : Dword) (o : BarObj) (act : BarAct) : Dev :=
  match act with
  | .none => d
  | .error ex found => postBarrier env d o.armt loc.key (rec16 (va.toNat % 2 ^ 55 * 256 + 6) (ex % 2 ^ 56 + found * 2 ^ 56)) ts
  | .zero =>
    let fva := dw (o.flag * 16)
    let vf := ownerVf d loc
    let y := d.tile o.armt
    let d1 := if o.flag = 0 then d else
      hwFlag env d (whoVf d vf o.armt) fva ts 1 (setterId env vf 0x0C00)
        (some (if y.running then ⟨y.core.csr.vfid, y.core.iter.faultq, o.armt, 4, 31⟩ else ⟨vf, 0, o.armt, 4, 31⟩))
    postBarrier env d1 o.armt loc.key (rec16 (va.toNat % 2 ^ 55 * 256 + 5) (o.flag * 16)) ts

/-- A decrement of a barrier object by hardware (R145). -/
def barDecAt (env : Env) (d : Dev) (w : Who) (ag : Agent) (va : Dword) (b : Nat) : Res Unit :=
  if !aligned va 16 then .sys 0x0B va
  else (locate env d w { write := true } va).bind fun (loc, cls) d1 =>
    let o := barOf (getBytes d1 loc 16)
    let (o2, act) := barDec b o
    let (d2, ts) := storeMark env d1 ag w.vf cls true loc o2.bytes
    .ok () (barAfter env d2 (dmax ts (getPts d2 ag)) loc va o2 act)

/-! ### Writes that have been sent and are not performed -/

/-- The path of an asynchronous queue (R132). -/
def aqPath (q : Nat) : Nat := if q ≤ 3 then 1 else if q = 4 then 2 else if q = 5 then 3 else 4

/-- A write that path p of a tile has sent is performed (R244, R308), with the bytes of its source as they have been read or as they are
now (R310). -/
def putSent (env : Env) (t p : Nat) (vf : BitVec 10) (d : Dev) (w : OutWr) : Dev :=
  if w.done then d else
  let (b, d1) := match w.src with
    | some x => lateRead env d t p vf x.2.1 x.2.2 x.1 w.bytes
    | none => (w.bytes, d)
  (sentMark env d1 (.tile t p) vf w.cls w.front w.loc b).1

/-- A write that a command has sent is performed (R244). -/
def putOut (env : Env) (t q : Nat) (vf : BitVec 10) (d : Dev) (w : OutWr) : Dev := putSent env t (aqPath q) vf d w

/-- The place of an offset in the memory of a map unit (R253). -/
def landLoc (slice : Bool) (unit o : Nat) : Loc := if slice then .staging unit o else .spad unit o

/-- An element that lands is written (R253), and the timestamp that covers it (R309). -/
def landWrite (env : Env) (ag : Agent) (vf : BitVec 10) (slice : Bool) (unit o : Nat) (b : List Byte) (d : Dev) : Dev × Agent :=
  let (d1, ts) := sentMark env d ag vf 0 true (landLoc slice unit o) b
  (d1, match ag with
    | .none => .stamp ts
    | .stamp x => .stamp (dmax x ts)
    | .tile t p => .tile t p
    | .core n => .core n
    | .stream k => .stream k)

/-- A matched element that waits. -/
def Later.el : Later → Option LandEl
  | .land e => some e
  | .flag _ _ _ _ _ _ => none
  | .record _ _ _ => none
  | .prof _ _ _ => none
  | .image _ _ _ _ _ => none
  | .state _ _ _ => none
  | .release _ _ => none
  | .ringPa _ _ _ _ => none
  | .load _ _ => none
  | .dirEnd _ _ => none
  | .send _ _ _ _ => none

/-- An element that a generation has matched is performed (R253): its bytes, then the decrement of the map's barrier object (R145, R384); a
wait at the object leaves the bytes written, with the timestamp that covers them (R309). -/
def landNow (env : Env) (e : LandEl) (d : Dev) : Dev :=
  let g := e.gen
  let (d1, ag1) := if e.done then (d, e.ag) else landWrite env e.ag g.vf e.slice e.unit e.off e.bytes d
  if g.bar = 0 then d1 else
  match barDecAt env d1 (whoVf d1 g.vf (if e.slice then 640 else e.unit)) ag1 (zx g.bar) e.bytes.length with
  | .ok _ d2 => d2
  | .wait _ d2 => d2.defer (.land { e with ag := ag1, done := true })
  | .sys c va => lostUpdate env (keepTlb env d1 (whoVf d1 g.vf (if e.slice then 640 else e.unit)) va) 0 g.vf
      (if e.slice then 0x3FF else e.unit) 4 31 c (zx g.bar)
  | .trap _ _ _ _ _ => d1
  | .roll _ => d1

/-- Two elements write a byte in common. -/
def LandEl.meets (a b : LandEl) : Bool :=
  a.slice == b.slice && a.unit == b.unit && decide (a.off < b.off + b.bytes.length) && decide (b.off < a.off + a.bytes.length)

/-- An element waits behind one that was matched before it and writes a byte of it (R254). -/
def landBehind (d : Dev) (e : LandEl) : Bool :=
  !e.done && d.later.any fun x => match x.el with
    | some f => !f.done && f.meets e
    | none => false

/-- Which of the things that wait must be done so that what a test names has been: the named elements, and those before them that write
a byte of one that must (R254). -/
def landSet (p : LandEl → Bool) : List Later → List LandEl × List Bool
  | [] => ([], [])
  | x :: r =>
    let (l, m) := landSet p r
    match x.el with
    | some e => if p e || (!e.done && l.any e.meets) then (e :: l, true :: m) else (l, false :: m)
    | none => (l, false :: m)

/-- The matched writes that a test names are performed, in the order of their matching, each behind those before it that write a byte of
it (R254). -/
def landAll (env : Env) (p : LandEl → Bool) (d : Dev) : Dev :=
  (d.later.zip (landSet p d.later).2).foldl (fun d x => match x.1.el with
    | some e => if x.2 then landNow env e d else d.defer x.1
    | none => d.defer x.1) { d with later := [] }

/-- What commands of the tiles, the rakes and matched packets have sent is performed at once: before a page freezes, a frame is given up or a
memory changes hands, accesses accepted there complete (R242, R340). The barrier objects of matched elements are decremented (R253,
R259); those of commands count the bytes later. -/
def drainSent (env : Env) (d : Dev) : Dev :=
  let queue (t : Nat) (d : Dev) (q : Nat) : Dev :=
    match vget (d.tile t).aq [] q with
    | [] => d
    | c :: l =>
      if c.out.isEmpty then d else
      (c.out.foldl (putOut env t q c.vf) d).onTile t fun y =>
        { y with aq := vset y.aq q ({ c with out := c.out.map fun w => { w with done := true } } :: l) }
  let rake (d : Dev) (c : Nat) : Dev :=
    let k := d.cluster c
    match k.rake with
    | none => d
    | some r =>
      match (vget k.slots {} r.slot.toNat).job with
      | none => d
      | some j => (r.out.foldl (putSent env j.tile 5 j.vf) d).onCluster c fun k => { k with rake := some { r with out := [] } }
  let d1 := (d.tiles.entries.map (·.1)).foldl (fun d t => [0, 1, 2, 3, 4].foldl (queue t) d) d
  landAll env (fun _ => true) ((d1.clusters.entries.map (·.1)).foldl rake d1)

/-! ### Traps, faults and rollback -/

/-- A change to one engine. -/
def TCore.onEng (c : TCore) (e : Eng) (f : Engine → Engine) : TCore :=
  { c with eng := c.eng.set e.idx.val (f c.eng[e.idx.val]) }

/-- One engine of an iteration. -/
def TCore.engine (c : TCore) (e : Eng) : Engine := c.eng[e.idx.val]

/-- Abandon what each engine of the tile was blocked on (R315): no engine waits any more. An LDQ or LDV that had read and
not pushed reads anew. -/
def TCore.abandon (c : TCore) : TCore :=
  { c with eng := c.eng.map (fun e => { e with wait := none }), ldv := none, ldq := none, stall := 0, chainOk := false }

/-- A tile's FLAGWAIT no longer waits at its home. -/
def dropWaiter (d : Dev) (t : Nat) : Dev := { d with waiters := d.waiters.filter fun w => w.tile != t }

/-- The trace record of an event (R365). -/
def traceBytes (cycle pc walk : Dword) (kind eng cause : Nat) : List Byte :=
  natLe 8 (kind * 2 ^ 56 + eng * 2 ^ 54 + cause) ++ natLe 8 walk.toNat ++ natLe 8 pc.toNat ++ natLe 8 cycle.toNat

/-- Write an entry to a profiling ring (R364); it waits with its pages, and one that cannot be written is counted in PROFDROP. -/
def profWrite (env : Env) (d : Dev) (w : Who) (buf : Dword) (b : List Byte) : Dev :=
  settle env d (.prof w buf b) (fun _ _ => { d with profdrop := sat32 d.profdrop 1 }) (ringPost env d w buf b)

/-- Write an entry to the profiling ring of a tile (R364). -/
def profPost (env : Env) (d : Dev) (t : Nat) (b : List Byte) : Dev :=
  profWrite env d { whoTile d t with unit := .own } (zx (d.tile t).core.csr.profbuf) b

/-- A trace record when PROFCTL asks for one (R364, R365). -/
def trace (env : Env) (d : Dev) (t : Nat) (kind : Nat) (e : Eng) (pc : Dword) (cause : Nat) : Dev :=
  let c := (d.tile t).core
  if c.csr.profctl.getLsbD 2 && !c.csr.profctl.getLsbD 3 then
    profPost env d t (traceBytes (d.tile t).cycle pc (c.engine e).walk kind e.idx.val cause)
  else d

/-- Where an engine stands: X, while a user-trap handler runs, in the handler (R114). -/
def TCore.pcOf (c : TCore) (e : Eng) : Dword :=
  match c.trap.hand with
  | some h => if e = .x then h.pc else (c.engine e).pc
  | none => (c.engine e).pc

/-- A trace record, where an iteration runs. -/
def traceRun (env : Env) (d : Dev) (t kind : Nat) (e : Eng) : Dev :=
  if (d.tile t).running then trace env d t kind e ((d.tile t).core.pcOf e) 0 else d

/-- The turn of a tile ends (R201); the reason stays in LEASESTAT.ENDC. A turn the tile only waits for is given up. -/
def endTurn (d : Dev) (t : Nat) (why : BitVec 4) : Dev :=
  let k := t / 8
  let c := d.cluster k
  let d1 := d.setCluster k { c with
    holder := if c.holder = some t then none else c.holder
    expired := if c.holder = some t then false else c.expired
    reqs := c.reqs.filter fun x => x != t }
  if c.holder = some t then d1.onCore t fun y => { y with lease := { y.lease with endc := why } } else d1

/-- No engine acts again in the cycle of a STEP: a trap or a rollback takes effect at its end (R315, R360). -/
def Dbg.cycleOver (g : Dbg) : Dbg := { g with step := g.step.map fun _ => Eng.all }

/-- Taking a user trap (R315, R316): the tile freezes, the trap registers are set, and X walks from TVEC; or, with TVEC 0 or
inside a handler, the tile stays frozen and a record of kind 1 is posted. A trap of M ends the lease, any other only the
turn (R201, R225). -/
def enterTrap (env : Env) (d : Dev) (t : Nat) (e : Eng) (pc : Dword) (code : Nat) (i0 i1 i2 i3 : Dword) : Dev :=
  let c := (d.tile t).core
  let d0 := endTurn (dropWaiter d t) t 5
  let d1 := (d0.onTile t fun y => { y with dbg := y.dbg.cycleOver }).onCore t fun y =>
    { y.abandon with lease := if e = .m then { y.lease with trapped := y.lease.held || y.lease.trapped, held := false } else y.lease }
  let rec1 : FRec := { addr := pc, info := i0, pc := pc, tile := t, vf := c.csr.vfid, eng := e.idx.val, kind := 1, code := code }
  if c.trap.hand.isSome then
    postFault env (d1.onCore t fun y => { y with trap := { y.trap with undel := true } }) c.iter.faultq rec1
  else
    let tr : TrapSt := { c.trap with cause := dw code, pc := pc, eng := dw e.idx.val, info0 := i0, info1 := i1, info2 := i2, info3 := i3 }
    let d2 := d1.onCore t fun y => { y with trap :=
      if c.csr.tvec = 0 then { tr with undel := true } else { tr with hand := some { pc := c.csr.tvec } } }
    let d3 := trace env d2 t 1 e pc code
    if c.csr.tvec = 0 then postFault env d3 c.iter.faultq rec1 else d3

/-- A system fault met by a word (R318): the engine that met it halts at the word, with a record of kind 0. A halt of M ends
the turn (R201, R208); a fault that the fetch unit met for M is one of the matrix path, AQ 31 (R320). The translation that the access used is kept, and may be used when the word is walked again (R236). -/
def haltEngine (env : Env) (dev : Dev) (w : Who) (t : Nat) (e : Eng) (pc : Dword) (word : Word) (code : Nat) (va : Dword) : Dev :=
  let d := keepTlb env dev w va
  let d0 := if e = .m then endTurn d t 7 else d
  let d1 := d0.onCore t fun c =>
    let c1 := c.onEng e fun g => { g with halted := true, wait := none }
    if e = .a then { c1 with ldv := none, ldq := none } else c1
  let c := (d1.tile t).core
  postFault env d1 c.iter.faultq
    { addr := va, info := zx word, pc := pc, tile := t, vf := c.csr.vfid, aq := if w.unit == .matrix (t / 8) then 31 else 0
      eng := e.idx.val, kind := 0, code := code }

/-- The paths of a mask. -/
def pathsOf (m : BitVec 6) : List Nat := (List.range 6).filter fun p => m.getLsbD p

/-- A completed fence or join raises the pts of its m0 paths (R245), which read no byte any more as it was before (R310). -/
def fencePts (t : Nat) (m1 m0 : BitVec 6) (d : Dev) : Dev :=
  let top := (pathsOf m1).foldl (fun x p => dmax x (getPts d (.tile t p))) 0
  (pathsOf m0).foldl (fun d p => setPts d (.tile t p) (dmax (getPts d (.tile t p)) top)) (fencePast d t m1 m0)

/-- M is let go once q.xa is empty after the ERET that held it: A's stores since the trap have been performed, and count as fenced for the
word that M walks again (R335). -/
def freeM (t : Nat) (d : Dev) : Dev :=
  let c := (d.tile t).core
  if c.trap.mHold && c.trap.hand.isNone && c.q.xa.isEmpty then
    (fencePts t 0x01 0x20 d).onCore t fun y => { y with trap := { y.trap with mHold := false } }
  else d

/-- Region rollback (R74, R177, R323): queues, outcome queues, token counters and pending special-function results are
emptied and every engine goes back to its recorded region entry; before the first RGN the tile freezes instead. `e` is the
engine whose word met the fault; its PC stands in the records (DEDUCED, unsafe: log entry 17). -/
def rollback (env : Env) (d : Dev) (t : Nat) (e : Eng) (cause : Rollback) : Dev :=
  let c := (d.tile t).core
  let code := match cause with
    | .uncorrectable => 0x24
    | .lostState => 0
    | .lostPark => 0
    | .inLine _ => 0x24
  if c.trap.hand.isSome then d.onCore t fun y => { y with trap := { y.trap with pendRb := some cause } }
  else if (c.engine .x).rgnPc = 0 then
    postFault env ((dropWaiter d t).onCore t fun y => { y.abandon with trap := { y.trap with stuck := true } }) c.iter.faultq
      { addr := (c.engine e).pc, pc := (c.engine e).pc, tile := t, vf := c.csr.vfid, eng := e.idx.val, kind := 5, code := code }
  else
    let d1 := ((dropWaiter d t).onTile t fun y => { y with dbg := y.dbg.cycleOver }).onCore t fun y =>
      { y.abandon with
        eng := y.eng.map fun e => { e with pc := e.rgnPc, walk := e.rgnWalk, ret := e.rgnRet, outs := [], wait := none, halted := false, stopped := false, prev := .none }
        q := {}
        tok := Vector.replicate 16 0
        sfu := Vector.replicate 8 none
        moved := 0
        headLost := false
        mfence := 0
        xfence := 0
        fwSince := none
        asids := []
        asidDue := []
        csr := { y.csr with chainE := none } }
    postFault env (freeM t d1) c.iter.faultq
      { pc := (c.engine e).pc, tile := t, vf := c.csr.vfid, eng := e.idx.val, kind := 4, code := code }

end Sys2Proof.Machine
end

