-- ==== Sys2Proof/Machine/Operands.lean ====
section
/-! DEFINITION. The operand forms: registers (R90, R92), extended immediates (R91), architectural queues (R69), memory operands
(R89, R134), and the directions of vector operands (R164 to R172). -/

namespace Sys2Proof.Machine

/-- S register r; S0 reads 0 (R90). -/
def TCore.s (c : TCore) (r : BitVec 5) : Dword := if r = 0 then 0 else c.regs.s[r.toNat]'r.isLt

/-- A register r; A0 reads 0 (R90). -/
def TCore.a (c : TCore) (r : BitVec 5) : Dword := if r = 0 then 0 else c.regs.a[r.toNat]'r.isLt

/-- Write S[r]; a write to S0 is discarded (R90). -/
def TCore.setS (c : TCore) (r : BitVec 5) (x : Dword) : TCore :=
  if r = 0 then c else { c with regs := { c.regs with s := c.regs.s.set r.toNat x r.isLt } }

/-- Write A[r]; a write to A0 is discarded (R90). -/
def TCore.setA (c : TCore) (r : BitVec 5) (x : Dword) : TCore :=
  if r = 0 then c else { c with regs := { c.regs with a := c.regs.a.set r.toNat x r.isLt } }

/-- Mask register r; K0 reads as all ones (R92). -/
def TCore.k (c : TCore) (r : Nat) : Mask := if r = 0 then BitVec.allOnes 512 else vget c.regs.k 0 r

/-- Write a mask register; K0 keeps reading as all ones. -/
def TCore.setK (c : TCore) (r : Nat) (x : Mask) : TCore :=
  if r = 0 then c else { c with regs := { c.regs with k := vset c.regs.k r x } }

/-- Coordinate register r (R205). -/
def TCore.c (c : TCore) (r : BitVec 4) : Dword := c.regs.c[r.toNat]'r.isLt

/-- Write a coordinate register. -/
def TCore.setC (c : TCore) (r : BitVec 4) (x : Dword) : TCore :=
  { c with regs := { c.regs with c := c.regs.c.set r.toNat x r.isLt } }

/-- The positions (i, j) within VSHAPE (R164, R165). -/
def TCore.inShape (c : TCore) (p : Nat) : Bool := decide (p / 16 < c.csr.rows.toNat) && decide (p % 16 < c.csr.cols.toNat)

/-- Some element of a mask within VSHAPE is set (R94). -/
def TCore.anySet (c : TCore) (m : Mask) : Bool := (List.range 512).any fun p => c.inShape p && m.getLsbD p

/-- The immediate without EXT words, with one, with two (R91). -/
def imm0 (i : BitVec 12) : Dword := sx i
/-- With one EXT word (R91). -/
def imm1 (e1 : BitVec 29) (i : BitVec 12) : Dword := sx (e1 ++ i)
/-- With two EXT words (R91). -/
def imm2 (e1 e2 : BitVec 29) (i : BitVec 12) : Dword := e1.extractLsb' 0 23 ++ e2 ++ i

/-- Entries in architectural queue q (R69). -/
def TCore.qlen (c : TCore) (q : Nat) : Nat :=
  match q with
  | 0 => c.q.ax.length
  | 1 => c.q.xa.length
  | 2 => c.q.av.length
  | 3 => c.q.va.length
  | 4 => c.q.xv.length
  | 5 => c.q.vx.length
  | 6 => c.q.xm.length
  | 7 => c.q.mx.length
  | _ => 0

/-- Depth of architectural queue q (R69). -/
def qdepth (q : Nat) : Nat := if q = 2 || q = 3 then 64 else if q = 7 then 8 else 16

/-- The consumer of architectural queue q (R69). -/
def qconsumer (q : Nat) : Eng :=
  match q with
  | 0 => .x
  | 1 => .a
  | 2 => .v
  | 3 => .a
  | 4 => .v
  | 5 => .x
  | 6 => .m
  | _ => .x

/-- Bits [63:55] of an address register (R130). -/
def highBits (v : Dword) : Dword := v &&& 0xFF80000000000000

/-- The address of a MEM word (R89, R134): A[b] plus the offset times the size. A register whose bits [63:55] are not zero gives an
address whose bits are not either, and so one that takes TRANSLATION (R130). -/
def TCore.memAddr (c : TCore) (b : BitVec 5) (z : MSize) (o : BitVec 9) : Dword :=
  let x := c.a b + dwI (o.toInt * msBytes z)
  if highBits x = 0 then x ||| highBits (c.a b) else x

/-! ### Vector operands -/

/-- The physical register a number names under VRB (R172). -/
def TCore.phys (c : TCore) (n : BitVec 5) : Nat :=
  if n.toNat < 16 then n.toNat else 16 + (n.toNat - 16 + c.csr.vrb.toNat) % 16

/-- The vector register a number names. -/
def TCore.v (c : TCore) (n : BitVec 5) : VReg := vget c.regs.v (Vector.replicate 512 0) (c.phys n)

/-- Write a vector register. -/
def TCore.setV (c : TCore) (n : BitVec 5) (x : VReg) : TCore := { c with regs := { c.regs with v := vset c.regs.v (c.phys n) x } }

/-- A direction is row, or column, or diagonal. -/
def dirIsCol : Dir → Bool
  | .whole => false
  | .row => false
  | .col => true
  | .diag => true

/-- The result class of a word (R166). -/
inductive VClass where
  | w | row | col
  deriving DecidableEq, Repr

/-- The class of one source. -/
def class1 : Dir → VClass
  | .whole => .w
  | .row => .row
  | .col => .col
  | .diag => .col

/-- The class of two sources, if they have one (R166). -/
def class2 (a b : Dir) : Option VClass :=
  if a = .whole || b = .whole then some .w
  else if a = .row && b = .row then some .row
  else if dirIsCol a && dirIsCol b then some .col
  else none

/-- Whether a destination matches a class (R167). -/
def destOk (k : VClass) (d : Dir) : Bool :=
  match k with
  | .w => d == .whole
  | .row => d == .row
  | .col => dirIsCol d

/-- The cursor lies within VSHAPE for a direction (R165). -/
def TCore.cursorOk (c : TCore) : Dir → Bool
  | .whole => true
  | .row => decide (c.csr.curRow.toNat < c.csr.rows.toNat)
  | .col => decide (c.csr.curCol.toNat < c.csr.cols.toNat)
  | .diag => true

/-- The column of the diagonal at row i. -/
def TCore.diagCol (c : TCore) (i : Nat) : Nat := (i + c.csr.curDiag.toNat) % 16

/-- The element (as 16 i + j) an operand holds for the destination element p, read row by row and column by column (R165,
R166). -/
def TCore.srcIdx (c : TCore) (d : Dir) (p : Nat) : Nat :=
  match d with
  | .whole => p
  | .row => c.csr.curRow.toNat * 16 + p % 16
  | .col => p / 16 * 16 + c.csr.curCol.toNat
  | .diag => p / 16 * 16 + c.diagCol (p / 16)

/-- Whether element p lies in a direction. -/
def TCore.inDir (c : TCore) (d : Dir) (p : Nat) : Bool :=
  match d with
  | .whole => true
  | .row => p / 16 == c.csr.curRow.toNat
  | .col => p % 16 == c.csr.curCol.toNat
  | .diag => p % 16 == c.diagCol (p / 16)

/-- A source holds something at the row of element p: a diagonal whose column lies outside VSHAPE does not (R165). -/
def TCore.srcOk (c : TCore) (d : Dir) (p : Nat) : Bool := d != .diag || decide (c.diagCol (p / 16) < c.csr.cols.toNat)

/-- An element of a source. -/
def TCore.src (c : TCore) (o : VOp) (p : Nat) : Word := vget (c.v o.reg) 0 (c.srcIdx o.dir p)

/-- The mask of a VV word: K[VMASK] where m is set (R171). -/
def TCore.wordMask (c : TCore) (m : Bool) : Mask := if m then c.k c.csr.vmask.toNat else BitVec.allOnes 512

/-- The active elements of a destination (R165, R167, R171). -/
def TCore.active (c : TCore) (d : Dir) (srcs : List Dir) (mask : Mask) (p : Nat) : Bool :=
  c.inShape p && c.inDir d p && srcs.all (fun s => c.srcOk s p) && mask.getLsbD p

/-- VSHAPE, VCUR, VRB as CSRR reads them (R127). -/
def TCore.vshapeCsr (c : TCore) : Dword := dw (c.csr.rows.toNat + 256 * c.csr.cols.toNat)

/-- VCUR as CSRR reads it (R127). -/
def TCore.vcurCsr (c : TCore) : Dword :=
  dw (c.csr.curRow.toNat + 256 * c.csr.curCol.toNat + 65536 * c.csr.curDiag.toNat)

/-- What V's checks of direction and cursor find wrong (R166, R167, R170): TINFO0. -/
def TCore.dirBad (c : TCore) (k : Option VClass) (d : Dir) (srcs : List Dir) : Option Nat :=
  match k with
  | none => some 1
  | some k =>
    if !destOk k d then some 1
    else if !(d :: srcs).all c.cursorOk then some 2
    else none

/-- The 512 elements of a register as its 2,048 bytes see them: byte n (R164). -/
def vByte (r : VReg) (n : Nat) : Nat := (vget r 0 (n / 4)).toNat / 256 ^ (n % 4) % 256

/-- Row i of a register as a queue row (R164, R186). -/
def vRow (r : VReg) (i : Nat) : Row :=
  BitVec.ofNat 512 ((List.range 16).foldl (fun a j => a + (vget r 0 (16 * i + j)).toNat * 2 ^ (32 * j)) 0)

/-- Element j of a queue row. -/
def rowElem (r : Row) (j : Nat) : Word := r.extractLsb' (32 * j) 32

end Sys2Proof.Machine
end

