-- ==== Sys2Proof/WellFormed.lean ====
section
/-! DEFINITION. Well-formedness: the ranges of the fields of a word (R89 to R100, file 06), and the unit numbers of a
step of another agent (R3). -/

namespace Sys2Proof

/-- Queue numbers 0 to 7 exist; 8 and above are reserved field values (R69, R90). -/
def queueOk (q : Nat) : Bool := decide (q < 8)

/-- A decider that may be X or A only (R93). -/
def xaOnly : Eng → Bool
  | .x => true
  | .a => true
  | .v => false
  | .m => false

/-- What BRC can test: conditions per decider, and the registers the decider has (R94). -/
def brcOk (e : Eng) (c : BitVec 4) (r : BitVec 5) : Bool :=
  match e with
  | .x => decide (c.toNat ≤ 5)
  | .a => decide (c.toNat ≤ 5)
  | .v => decide (6 ≤ c.toNat ∧ c.toNat ≤ 7 ∧ r.toNat < 8)
  | .m => decide (c.toNat ≤ 5 ∧ r.toNat < 16)

/-- EVPOP and EVPEEK write d and d + 1 (R95, R123). -/
def pairOk (d : BitVec 5) : Bool := decide (1 ≤ d.toNat ∧ d.toNat ≤ 30)

/-- The CSRs marked read/write (R127). -/
def csrReadWrite : List Nat :=
  [0x005, 0x013, 0x022, 0x023, 0x024, 0x025, 0x026, 0x027, 0x028, 0x029, 0x02A, 0x02B, 0x02C, 0x040, 0x070, 0x071]

/-- The CSRs marked read, clear (R127). -/
def csrReadClear : List Nat := [0x014, 0x020, 0x060, 0x061, 0x062]

/-- The CSRs marked read (R127). -/
def csrReadOnly : List Nat :=
  [0x000, 0x001, 0x002, 0x003, 0x004, 0x010, 0x011, 0x012, 0x021, 0x02D, 0x02E, 0x030, 0x031, 0x032, 0x033, 0x034,
   0x035, 0x041, 0x042, 0x043, 0x044, 0x045, 0x046, 0x047, 0x048, 0x049, 0x04A, 0x04B, 0x050, 0x051, 0x052, 0x053,
   0x058, 0x059, 0x05A, 0x05B, 0x05C, 0x05D, 0x05E, 0x05F]

/-- CSRW and CSRS need a CSR marked read/write (R126). -/
def csrWritable (c : BitVec 12) : Bool := csrReadWrite.contains c.toNat

/-- CSRC also takes a CSR marked read, clear (R126). -/
def csrClearable (c : BitVec 12) : Bool := csrReadWrite.contains c.toNat || csrReadClear.contains c.toNat

/-- CSRR takes every CSR of the table (R126). -/
def csrReadable (c : BitVec 12) : Bool := csrClearable c || csrReadOnly.contains c.toNat

/-- LDV and STV move 1 to 64 rows (R96). -/
def rowsOk (n : BitVec 7) : Bool := decide (1 ≤ n.toNat ∧ n.toNat ≤ 64)

/-- VPOP and VPUSH move 1 to 32 rows (R99). -/
def cntOk (c : BitVec 6) : Bool := decide (1 ≤ c.toNat ∧ c.toNat ≤ 32)

/-- A command's last operand register lies within A31, and its completion target kind exists (R97). -/
def engOk (b : BitVec 5) (last : Nat) (k : BitVec 2) : Bool := decide (b.toNat + last ≤ 31) && k != 3

/-- CPQ0 to CPQ3 (R97). -/
def cpqOk (q : BitVec 5) : Bool := decide (q.toNat ≤ 3)

/-- The queues NOTIFY may name (R97). -/
def notifyAqOk (q : BitVec 5) : Bool := decide (q.toNat ≤ 5) || decide (8 ≤ q.toNat ∧ q.toNat ≤ 23)

/-- VSHIFT amounts: a magnitude of 16 or more along columns is reserved (R99). -/
def vshiftOk (axis : Bool) (n : BitVec 6) : Bool := axis || decide (n.toInt.natAbs < 16)

/-- VSHAPE ranges (R99). -/
def vshapeOk (r c : BitVec 7) : Bool := decide (1 ≤ r.toNat ∧ r.toNat ≤ 32 ∧ 1 ≤ c.toNat ∧ c.toNat ≤ 16)

/-- VCUR ranges (R99). -/
def vcurOk (r c : BitVec 7) (g : BitVec 8) : Bool := decide (r.toNat ≤ 31 ∧ c.toNat ≤ 15 ∧ g.toNat ≤ 15)

/-- A mask source is K0 to K7 (R92). -/
def ksOk (k : BitVec 5) : Bool := decide (k.toNat < 8)

/-- A mask destination is K1 to K7 (R92). -/
def kdOk (k : BitVec 5) : Bool := decide (1 ≤ k.toNat ∧ k.toNat < 8)

/-- LEASE and CHAIN counts (R100). -/
def upto64 (n : BitVec 18) : Bool := decide (1 ≤ n.toNat ∧ n.toNat ≤ 64)

/-- MSHAPE fields and ranges (R100). -/
def mshapeOk (f : BitVec 2) (v : BitVec 16) : Bool :=
  match f.toNat with
  | 0 => decide (1 ≤ v.toNat ∧ v.toNat ≤ 256)
  | 1 => decide (1 ≤ v.toNat ∧ v.toNat ≤ 256)
  | 2 => decide (1 ≤ v.toNat ∧ v.toNat ≤ 512)
  | _ => false

/-- 640 tiles (R3). -/
def tileOk (t : Nat) : Bool := decide (t < 640)

/-- 80 clusters (R3). -/
def clusterOk (c : Nat) : Bool := decide (c < 80)

/-- 160 L2 slices (R3). -/
def sliceOk (s : Nat) : Bool := decide (s < 160)

/-- 4 tile dies (R3). -/
def dieOk (d : Nat) : Bool := decide (d < 4)

/-- 48 system cores (R3). -/
def coreOk (c : Nat) : Bool := decide (c < 48)

/-- Frames of 64 KiB in 768 GiB of HBM (R230, R242). -/
def frameOk (f : Nat) : Bool := decide (f < 12582912)

/-- A bridge and one of its two planes (R275). -/
def laneOk (b q : Nat) : Bool := decide (b < 4) && decide (q < 2)


/-- Whether an instruction is one: a word whose fields lie in the ranges of file 06, a step at a unit that exists. -/
def Instr.wf : Instr → Bool
  | .powerUp stat => decide (1 ≤ stat.toNat ∧ stat.toNat ≤ 5)
  | .islandClockChange island _ => decide (island < 48)
  | .launchPortStore _ _ => true
  | .walkerDispatch => true
  | .preemptRequest => true
  | .contextSaveDone => true
  | .iterationRetirement => true
  | .retirementMessage => true
  | .nodeCompletion => true
  | .releaseWrite _ => true
  | .engineStallWatchdog => true
  | .regionRollback _ => true
  | .sfuResultLand => true
  | .flagwaitSatisfied => true
  | .barrierDecrement _ _ => true
  | .commandCompletion _ => true
  | .commandStall _ => true
  | .notifyComplete _ => true
  | .mapDrainComplete => true
  | .transferPacket _ _ => true
  | .shareRefill => true
  | .ptsTick _ => true
  | .turnGrant => true
  | .turnTimeLimit => true
  | .turnEndBudget => true
  | .matrixCommandComplete => true
  | .rakeStart => true
  | .rakeOutputPerformed => true
  | .rakeStall => true
  | .mnotifyComplete => true
  | .chainRecordComplete => true
  | .resumeEngine _ => true
  | .terminate => true
  | .resumeQueue _ => true
  | .failQueueCommand _ => true
  | .resumeRake => true
  | .failRakeSlot => true
  | .vfTeardown => true
  | .teardownTimeout => true
  | .lcapWrite _ => true
  | .swayStageSet w _ => decide (w < 16)
  | .swayStageClear w _ => decide (w < 16)
  | .frameassign _ => true
  | .framerelease => true
  | .scrubComplete => true
  | .flitReceive q _ _ _ => decide (q < 2)
  | .laneWindowEnd q _ _ => decide (q < 2)
  | .leaveRequest q _ => decide (q < 2)
  | .returnRequest q _ => decide (q < 2)
  | .laneTrialWindow q _ _ => decide (q < 2)
  | .laneLossOfLock q _ => decide (q < 2)
  | .laneRetry q _ => decide (q < 2)
  | .peerLost => true
  | .rldRequest => true
  | .rldReply => true
  | .rstArrival => true
  | .rstfArrival => true
  | .ramoRequest => true
  | .ramoReply => true
  | .sack => true
  | .flush => true
  | .fail => true
  | .relayedRequest => true
  | .ownerset => true
  | .migack => true
  | .redirect => true
  | .redirectApply => true
  | .reresolve => true
  | .pagedata => true
  | .performed => true
  | .close => true
  | .abort => true
  | .stubLifetimeExpiry => true
  | .demote _ => true
  | .demoteComplete => true
  | .move _ => true
  | .retire _ => true
  | .thaw _ => true
  | .promotionComplete => true
  | .dbgStop => true
  | .dbgResume _ => true
  | .dbgStep _ => true
  | .debugStepEnd => true
  | .breakpointHit => true
  | .debugImageWritten => true
  | .psessWrite _ => true
  | .networkArrival _ _ => true
  | .storageCompletion _ _ => true
  | .interruptTaken _ _ => true
  | .extend => true
  | .attest => true
  | .mailboxCommandDone => true
  | .registerWrite _ _ => true
  | .br _ => true
  | .brc e c r _ => brcOk e c r
  | .loop e r _ => xaOnly e && r != 0
  | .loopr e r _ => xaOnly e && r != 0
  | .call _ => true
  | .ret => true
  | .rgn => true
  | .tok f t n => f != t && n != 0
  | .endw => true
  | .brx e _ => xaOnly e
  | .nop => true
  | .add _ _ _ => true
  | .sub _ _ _ => true
  | .mul _ _ _ => true
  | .mulh _ _ _ => true
  | .mulhu _ _ _ => true
  | .div _ _ _ => true
  | .divu _ _ _ => true
  | .rem _ _ _ => true
  | .remu _ _ _ => true
  | .and _ _ _ => true
  | .or _ _ _ => true
  | .xor _ _ _ => true
  | .andn _ _ _ => true
  | .shl _ _ _ => true
  | .shr _ _ _ => true
  | .sar _ _ _ => true
  | .rol _ _ _ => true
  | .min _ _ _ => true
  | .max _ _ _ => true
  | .minu _ _ _ => true
  | .maxu _ _ _ => true
  | .slt _ _ _ => true
  | .sltu _ _ _ => true
  | .seq _ _ _ => true
  | .sne _ _ _ => true
  | .clz _ _ => true
  | .ctz _ _ => true
  | .popc _ _ => true
  | .sel _ _ _ _ => true
  | .addi _ _ _ => true
  | .andi _ _ _ => true
  | .ori _ _ _ => true
  | .xori _ _ _ => true
  | .shli _ _ s => decide (s.toNat < 64)
  | .shri _ _ s => decide (s.toNat < 64)
  | .sari _ _ s => decide (s.toNat < 64)
  | .slti _ _ _ => true
  | .lui _ _ => true
  | .fadd _ _ _ => true
  | .fsub _ _ _ => true
  | .fmul _ _ _ => true
  | .ffma _ _ _ => true
  | .fmin _ _ _ => true
  | .fmax _ _ _ => true
  | .fcmp _ _ _ r => decide (r.toNat ≤ 5)
  | .fcvtToInt _ _ => true
  | .fcvtToFp _ _ => true
  | .pop _ q => queueOk q.toNat
  | .push q _ => queueOk q.toNat
  | .qstat _ q => queueOk q.toNat
  | .evpop d => pairOk d
  | .evpeek d => pairOk d
  | .evcnt _ => true
  | .launch _ _ => true
  | .csrr _ c => csrReadable c
  | .csrw _ c => csrWritable c
  | .csrs _ _ c => csrWritable c
  | .csrc _ _ c => csrClearable c
  | .trap _ => true
  | .eret => true
  | .wfe => true
  | .anop => true
  | .aadd _ _ _ => true
  | .asub _ _ _ => true
  | .amul _ _ _ => true
  | .ashl _ _ _ => true
  | .ashr _ _ _ => true
  | .aand _ _ _ => true
  | .amin _ _ _ => true
  | .amax _ _ _ => true
  | .aslt _ _ _ => true
  | .aaddi _ _ _ => true
  | .alui _ _ => true
  | .aandi _ _ _ => true
  | .ashli _ _ s => decide (s.toNat < 64)
  | .ld _ _ z u _ => !(u && z == MSize.d)
  | .ldq q _ z u _ => queueOk q.toNat && !(u && z == MSize.d)
  | .ldv q _ n => queueOk q.toNat && rowsOk n
  | .st _ _ _ _ => true
  | .stq q _ _ _ => queueOk q.toNat
  | .stv q _ n => queueOk q.toNat && rowsOk n
  | .pref l _ _ _ => decide (l.toNat ≤ 1)
  | .amoadd _ _ _ _ => true
  | .amoswap _ _ _ _ => true
  | .amocas _ _ b _ => b != 31
  | .amologic _ _ _ _ o => o != 3
  | .amominmax _ _ _ _ _ => true
  | .amofadd _ _ _ => true
  | .flagwait _ _ => true
  | .flaginc _ _ => true
  | .flagset _ _ => true
  | .flagread _ _ => true
  | .bararm _ _ => true
  | .barwait _ => true
  | .copy _ b k q => engOk b 2 k && cpqOk q
  | .copy2d _ b k q => engOk b 5 k && cpqOk q
  | .gather _ b k q => engOk b 3 k && q == 4
  | .scatter _ b k q => engOk b 3 k && q == 4
  | .xfer _ b k q => engOk b 5 k && q == 5
  | .xferm _ b k q => engOk b 6 k && q == 5
  | .notify _ k q => k != 3 && notifyAqOk q
  | .mapinst _ _ => true
  | .mapswap _ _ => true
  | .mapret _ => true
  | .mapq _ _ => true
  | .fencex m n => m != 0 && n != 0
  | .mark _ m => m != 0
  | .join _ n => n != 0
  | .rld _ _ _ => true
  | .rst _ b _ _ => decide (b.toNat ≤ 30)
  | .rstf _ _ _ _ _ => true
  | .ramo _ b _ _ => decide (b.toNat ≤ 28)
  | .tidset _ _ => true
  | .tidinv _ => true
  | .tidget _ _ => true
  | .tlbinv _ s => decide (s.toNat ≤ 2)
  | .asidset _ => true
  | .vaddF _ _ _ _ => true
  | .vsubF _ _ _ _ => true
  | .vmulF _ _ _ _ => true
  | .vfmaF _ _ _ _ => true
  | .vfmsF _ _ _ _ => true
  | .vminF _ _ _ _ => true
  | .vmaxF _ _ _ _ => true
  | .vabsF _ _ _ => true
  | .vnegF _ _ _ => true
  | .vcmpF r k _ _ _ => decide (r.toNat ≤ 5) && k != 0
  | .vaddB _ _ _ _ => true
  | .vsubB _ _ _ _ => true
  | .vmulB _ _ _ _ => true
  | .vfmaB _ _ _ _ => true
  | .vfmsB _ _ _ _ => true
  | .vminB _ _ _ _ => true
  | .vmaxB _ _ _ _ => true
  | .vaddI _ _ _ _ => true
  | .vsubI _ _ _ _ => true
  | .vmulI _ _ _ _ => true
  | .vminI _ _ _ _ => true
  | .vmaxI _ _ _ _ => true
  | .vand _ _ _ _ => true
  | .vor _ _ _ _ => true
  | .vxor _ _ _ _ => true
  | .vshl _ _ _ _ => true
  | .vshr _ _ _ _ => true
  | .vsar _ _ _ _ => true
  | .vcmpI r k _ _ _ => decide (r.toNat ≤ 5) && k != 0
  | .vrcp _ _ _ => true
  | .vrsqrt _ _ _ => true
  | .vexp2 _ _ _ => true
  | .vlog2 _ _ _ => true
  | .vtanh _ _ _ => true
  | .vredsum _ _ _ _ _ => true
  | .vredmax _ _ _ _ _ => true
  | .vmov _ _ _ => true
  | .vbcast _ q => queueOk q.toNat
  | .vtrans _ _ => true
  | .vsel _ _ _ => true
  | .vshift _ _ x _ n => vshiftOk x n
  | .viota _ i => decide (i.toNat ≤ 2)
  | .vpop _ q c => queueOk q.toNat && cntOk c
  | .vpush _ q c => queueOk q.toNat && cntOk c
  | .vpushx _ q => queueOk q.toNat
  | .vunpE4 _ _ p => decide (p.toNat ≤ 3)
  | .vunpE5 _ _ p => decide (p.toNat ≤ 3)
  | .vunpI8 _ _ p => decide (p.toNat ≤ 3)
  | .vunpH _ _ p => decide (p.toNat ≤ 1)
  | .vunpQ4 _ _ _ _ => true
  | .vpackE4 _ _ _ _ p => decide (p.toNat ≤ 3)
  | .vpackE5 _ _ _ _ p => decide (p.toNat ≤ 3)
  | .vpackI8 _ _ _ _ p => decide (p.toNat ≤ 3)
  | .vpackH _ _ _ _ p => decide (p.toNat ≤ 1)
  | .vpackB _ _ _ _ p => decide (p.toNat ≤ 1)
  | .vcvtFi _ _ => true
  | .vcvtIf _ _ => true
  | .vshape r c => vshapeOk r c
  | .vcur r c g => vcurOk r c g
  | .vrbset n => decide (n.toNat ≤ 15)
  | .vpark _ => true
  | .vunpark _ => true
  | .kand d a b => kdOk d && ksOk a && ksOk b
  | .kor d a b => kdOk d && ksOk a && ksOk b
  | .knot d a => kdOk d && ksOk a
  | .kmov d a => kdOk d && ksOk a
  | .kcnt a => ksOk a
  | .lease n => upto64 n
  | .lrel => true
  | .mset _ _ _ => true
  | .maddc _ _ _ => true
  | .mpopc _ => true
  | .mpush _ => true
  | .mshape f v => mshapeOk f v
  | .mma _ _ _ _ => true
  | .mmas _ _ _ _ => true
  | .rclose _ => true
  | .rdrop => true
  | .rwaitFree => true
  | .rwaitSlot _ => true
  | .cbound r => decide (r.toNat ≤ 6)
  | .cord _ => true
  | .cstep => true
  | .chain n => upto64 n
  | .bdset k _ => decide (k.toNat ≤ 7)
  | .cinit _ c => c != 15
  | .cemit => true
  | .mnotify => true
  | .systemCoreInstruction _ => true
  | .reservedWord _ _ => true
  | .extWord _ => true
  | .stageChangeComplete w => decide (w < 16)
  | .powerDown => true

/-- Whether the unit a step happens at exists. A word happens at a tile. -/
def Instr.unitOk (u : Nat) : Instr → Bool
  | .powerUp _ => true
  | .islandClockChange _ _ => true
  | .launchPortStore _ _ => coreOk u
  | .walkerDispatch => dieOk u
  | .preemptRequest => tileOk u
  | .contextSaveDone => tileOk u
  | .iterationRetirement => tileOk u
  | .retirementMessage => true
  | .nodeCompletion => true
  | .releaseWrite _ => decide (u < 1024)
  | .engineStallWatchdog => tileOk u
  | .regionRollback _ => tileOk u
  | .sfuResultLand => tileOk u
  | .flagwaitSatisfied => tileOk u
  | .barrierDecrement _ _ => tileOk u
  | .commandCompletion _ => tileOk u
  | .commandStall _ => tileOk u
  | .notifyComplete _ => tileOk u
  | .mapDrainComplete => tileOk u
  | .transferPacket _ _ => true
  | .shareRefill => dieOk u
  | .ptsTick _ => true
  | .turnGrant => clusterOk u
  | .turnTimeLimit => clusterOk u
  | .turnEndBudget => clusterOk u
  | .matrixCommandComplete => clusterOk u
  | .rakeStart => clusterOk u
  | .rakeOutputPerformed => clusterOk u
  | .rakeStall => clusterOk u
  | .mnotifyComplete => tileOk u
  | .chainRecordComplete => clusterOk u
  | .resumeEngine _ => tileOk u
  | .terminate => tileOk u
  | .resumeQueue _ => tileOk u
  | .failQueueCommand _ => tileOk u
  | .resumeRake => tileOk u
  | .failRakeSlot => tileOk u
  | .vfTeardown => decide (u < 1024)
  | .teardownTimeout => decide (u < 1024)
  | .lcapWrite _ => clusterOk u
  | .swayStageSet _ _ => sliceOk u
  | .swayStageClear _ _ => sliceOk u
  | .frameassign _ => frameOk u
  | .framerelease => frameOk u
  | .scrubComplete => frameOk u
  | .flitReceive _ _ _ _ => decide (u < 4)
  | .laneWindowEnd _ _ _ => decide (u < 4)
  | .leaveRequest _ _ => decide (u < 4)
  | .returnRequest _ _ => decide (u < 4)
  | .laneTrialWindow _ _ _ => decide (u < 4)
  | .laneLossOfLock _ _ => decide (u < 4)
  | .laneRetry _ _ => decide (u < 4)
  | .peerLost => decide (u < 64)
  | .rldRequest => true
  | .rldReply => true
  | .rstArrival => true
  | .rstfArrival => true
  | .ramoRequest => true
  | .ramoReply => true
  | .sack => true
  | .flush => true
  | .fail => true
  | .relayedRequest => true
  | .ownerset => true
  | .migack => true
  | .redirect => true
  | .redirectApply => true
  | .reresolve => true
  | .pagedata => true
  | .performed => true
  | .close => true
  | .abort => true
  | .stubLifetimeExpiry => true
  | .demote _ => true
  | .demoteComplete => true
  | .move _ => true
  | .retire _ => true
  | .thaw _ => true
  | .promotionComplete => true
  | .dbgStop => tileOk u
  | .dbgResume _ => tileOk u
  | .dbgStep _ => tileOk u
  | .debugStepEnd => tileOk u
  | .breakpointHit => tileOk u
  | .debugImageWritten => tileOk u
  | .psessWrite _ => decide (u < 1024)
  | .networkArrival _ _ => coreOk u
  | .storageCompletion _ _ => coreOk u
  | .interruptTaken _ _ => coreOk u
  | .extend => true
  | .attest => true
  | .mailboxCommandDone => true
  | .registerWrite _ _ => coreOk u
  | .br _ => tileOk u
  | .brc _ _ _ _ => tileOk u
  | .loop _ _ _ => tileOk u
  | .loopr _ _ _ => tileOk u
  | .call _ => tileOk u
  | .ret => tileOk u
  | .rgn => tileOk u
  | .tok _ _ _ => tileOk u
  | .endw => tileOk u
  | .brx _ _ => tileOk u
  | .nop => tileOk u
  | .add _ _ _ => tileOk u
  | .sub _ _ _ => tileOk u
  | .mul _ _ _ => tileOk u
  | .mulh _ _ _ => tileOk u
  | .mulhu _ _ _ => tileOk u
  | .div _ _ _ => tileOk u
  | .divu _ _ _ => tileOk u
  | .rem _ _ _ => tileOk u
  | .remu _ _ _ => tileOk u
  | .and _ _ _ => tileOk u
  | .or _ _ _ => tileOk u
  | .xor _ _ _ => tileOk u
  | .andn _ _ _ => tileOk u
  | .shl _ _ _ => tileOk u
  | .shr _ _ _ => tileOk u
  | .sar _ _ _ => tileOk u
  | .rol _ _ _ => tileOk u
  | .min _ _ _ => tileOk u
  | .max _ _ _ => tileOk u
  | .minu _ _ _ => tileOk u
  | .maxu _ _ _ => tileOk u
  | .slt _ _ _ => tileOk u
  | .sltu _ _ _ => tileOk u
  | .seq _ _ _ => tileOk u
  | .sne _ _ _ => tileOk u
  | .clz _ _ => tileOk u
  | .ctz _ _ => tileOk u
  | .popc _ _ => tileOk u
  | .sel _ _ _ _ => tileOk u
  | .addi _ _ _ => tileOk u
  | .andi _ _ _ => tileOk u
  | .ori _ _ _ => tileOk u
  | .xori _ _ _ => tileOk u
  | .shli _ _ _ => tileOk u
  | .shri _ _ _ => tileOk u
  | .sari _ _ _ => tileOk u
  | .slti _ _ _ => tileOk u
  | .lui _ _ => tileOk u
  | .fadd _ _ _ => tileOk u
  | .fsub _ _ _ => tileOk u
  | .fmul _ _ _ => tileOk u
  | .ffma _ _ _ => tileOk u
  | .fmin _ _ _ => tileOk u
  | .fmax _ _ _ => tileOk u
  | .fcmp _ _ _ _ => tileOk u
  | .fcvtToInt _ _ => tileOk u
  | .fcvtToFp _ _ => tileOk u
  | .pop _ _ => tileOk u
  | .push _ _ => tileOk u
  | .qstat _ _ => tileOk u
  | .evpop _ => tileOk u
  | .evpeek _ => tileOk u
  | .evcnt _ => tileOk u
  | .launch _ _ => tileOk u
  | .csrr _ _ => tileOk u
  | .csrw _ _ => tileOk u
  | .csrs _ _ _ => tileOk u
  | .csrc _ _ _ => tileOk u
  | .trap _ => tileOk u
  | .eret => tileOk u
  | .wfe => tileOk u
  | .anop => tileOk u
  | .aadd _ _ _ => tileOk u
  | .asub _ _ _ => tileOk u
  | .amul _ _ _ => tileOk u
  | .ashl _ _ _ => tileOk u
  | .ashr _ _ _ => tileOk u
  | .aand _ _ _ => tileOk u
  | .amin _ _ _ => tileOk u
  | .amax _ _ _ => tileOk u
  | .aslt _ _ _ => tileOk u
  | .aaddi _ _ _ => tileOk u
  | .alui _ _ => tileOk u
  | .aandi _ _ _ => tileOk u
  | .ashli _ _ _ => tileOk u
  | .ld _ _ _ _ _ => tileOk u
  | .ldq _ _ _ _ _ => tileOk u
  | .ldv _ _ _ => tileOk u
  | .st _ _ _ _ => tileOk u
  | .stq _ _ _ _ => tileOk u
  | .stv _ _ _ => tileOk u
  | .pref _ _ _ _ => tileOk u
  | .amoadd _ _ _ _ => tileOk u
  | .amoswap _ _ _ _ => tileOk u
  | .amocas _ _ _ _ => tileOk u
  | .amologic _ _ _ _ _ => tileOk u
  | .amominmax _ _ _ _ _ => tileOk u
  | .amofadd _ _ _ => tileOk u
  | .flagwait _ _ => tileOk u
  | .flaginc _ _ => tileOk u
  | .flagset _ _ => tileOk u
  | .flagread _ _ => tileOk u
  | .bararm _ _ => tileOk u
  | .barwait _ => tileOk u
  | .copy _ _ _ _ => tileOk u
  | .copy2d _ _ _ _ => tileOk u
  | .gather _ _ _ _ => tileOk u
  | .scatter _ _ _ _ => tileOk u
  | .xfer _ _ _ _ => tileOk u
  | .xferm _ _ _ _ => tileOk u
  | .notify _ _ _ => tileOk u
  | .mapinst _ _ => tileOk u
  | .mapswap _ _ => tileOk u
  | .mapret _ => tileOk u
  | .mapq _ _ => tileOk u
  | .fencex _ _ => tileOk u
  | .mark _ _ => tileOk u
  | .join _ _ => tileOk u
  | .rld _ _ _ => tileOk u
  | .rst _ _ _ _ => tileOk u
  | .rstf _ _ _ _ _ => tileOk u
  | .ramo _ _ _ _ => tileOk u
  | .tidset _ _ => tileOk u
  | .tidinv _ => tileOk u
  | .tidget _ _ => tileOk u
  | .tlbinv _ _ => tileOk u
  | .asidset _ => tileOk u
  | .vaddF _ _ _ _ => tileOk u
  | .vsubF _ _ _ _ => tileOk u
  | .vmulF _ _ _ _ => tileOk u
  | .vfmaF _ _ _ _ => tileOk u
  | .vfmsF _ _ _ _ => tileOk u
  | .vminF _ _ _ _ => tileOk u
  | .vmaxF _ _ _ _ => tileOk u
  | .vabsF _ _ _ => tileOk u
  | .vnegF _ _ _ => tileOk u
  | .vcmpF _ _ _ _ _ => tileOk u
  | .vaddB _ _ _ _ => tileOk u
  | .vsubB _ _ _ _ => tileOk u
  | .vmulB _ _ _ _ => tileOk u
  | .vfmaB _ _ _ _ => tileOk u
  | .vfmsB _ _ _ _ => tileOk u
  | .vminB _ _ _ _ => tileOk u
  | .vmaxB _ _ _ _ => tileOk u
  | .vaddI _ _ _ _ => tileOk u
  | .vsubI _ _ _ _ => tileOk u
  | .vmulI _ _ _ _ => tileOk u
  | .vminI _ _ _ _ => tileOk u
  | .vmaxI _ _ _ _ => tileOk u
  | .vand _ _ _ _ => tileOk u
  | .vor _ _ _ _ => tileOk u
  | .vxor _ _ _ _ => tileOk u
  | .vshl _ _ _ _ => tileOk u
  | .vshr _ _ _ _ => tileOk u
  | .vsar _ _ _ _ => tileOk u
  | .vcmpI _ _ _ _ _ => tileOk u
  | .vrcp _ _ _ => tileOk u
  | .vrsqrt _ _ _ => tileOk u
  | .vexp2 _ _ _ => tileOk u
  | .vlog2 _ _ _ => tileOk u
  | .vtanh _ _ _ => tileOk u
  | .vredsum _ _ _ _ _ => tileOk u
  | .vredmax _ _ _ _ _ => tileOk u
  | .vmov _ _ _ => tileOk u
  | .vbcast _ _ => tileOk u
  | .vtrans _ _ => tileOk u
  | .vsel _ _ _ => tileOk u
  | .vshift _ _ _ _ _ => tileOk u
  | .viota _ _ => tileOk u
  | .vpop _ _ _ => tileOk u
  | .vpush _ _ _ => tileOk u
  | .vpushx _ _ => tileOk u
  | .vunpE4 _ _ _ => tileOk u
  | .vunpE5 _ _ _ => tileOk u
  | .vunpI8 _ _ _ => tileOk u
  | .vunpH _ _ _ => tileOk u
  | .vunpQ4 _ _ _ _ => tileOk u
  | .vpackE4 _ _ _ _ _ => tileOk u
  | .vpackE5 _ _ _ _ _ => tileOk u
  | .vpackI8 _ _ _ _ _ => tileOk u
  | .vpackH _ _ _ _ _ => tileOk u
  | .vpackB _ _ _ _ _ => tileOk u
  | .vcvtFi _ _ => tileOk u
  | .vcvtIf _ _ => tileOk u
  | .vshape _ _ => tileOk u
  | .vcur _ _ _ => tileOk u
  | .vrbset _ => tileOk u
  | .vpark _ => tileOk u
  | .vunpark _ => tileOk u
  | .kand _ _ _ => tileOk u
  | .kor _ _ _ => tileOk u
  | .knot _ _ => tileOk u
  | .kmov _ _ => tileOk u
  | .kcnt _ => tileOk u
  | .lease _ => tileOk u
  | .lrel => tileOk u
  | .mset _ _ _ => tileOk u
  | .maddc _ _ _ => tileOk u
  | .mpopc _ => tileOk u
  | .mpush _ => tileOk u
  | .mshape _ _ => tileOk u
  | .mma _ _ _ _ => tileOk u
  | .mmas _ _ _ _ => tileOk u
  | .rclose _ => tileOk u
  | .rdrop => tileOk u
  | .rwaitFree => tileOk u
  | .rwaitSlot _ => tileOk u
  | .cbound _ => tileOk u
  | .cord _ => tileOk u
  | .cstep => tileOk u
  | .chain _ => tileOk u
  | .bdset _ _ => tileOk u
  | .cinit _ _ => tileOk u
  | .cemit => tileOk u
  | .mnotify => tileOk u
  | .systemCoreInstruction _ => coreOk u
  | .reservedWord _ _ => tileOk u
  | .extWord _ => tileOk u
  | .stageChangeComplete _ => sliceOk u
  | .powerDown => true

end Sys2Proof
end

