-- ==== Sys2Proof/Decode.lean ====
section
/-! DEFINITION. Decoding (R89 to R101, file 06) and encoding. A row of a map gives, for a word with the row's opcode, the
instruction its fields name together with the bits the map fixes at zero; a field that carries a meaning and is out of its
range is a reserved field value. -/

namespace Sys2Proof

/-- Engine numbers as two bits (R57). -/
def Eng.bits : Eng → BitVec 2
  | .x => 0
  | .a => 1
  | .v => 2
  | .m => 3

/-- The engine two bits name (R57). -/
def Eng.ofBits (b : BitVec 2) : Eng :=
  if b = 0 then .x else if b = 1 then .a else if b = 2 then .v else .m

/-- Access sizes as two bits (R89). -/
def MSize.bits : MSize → BitVec 2
  | .b => 0
  | .h => 1
  | .w => 2
  | .d => 3

/-- The access size two bits name (R89). -/
def MSize.ofBits (b : BitVec 2) : MSize :=
  if b = 0 then .b else if b = 1 then .h else if b = 2 then .w else .d

/-- Roundings as two bits (R99). -/
def Rnd.bits : Rnd → BitVec 2
  | .rne => 0
  | .rtz => 1
  | .rdn => 2
  | .rup => 3

/-- The rounding two bits name (R99). -/
def Rnd.ofBits (b : BitVec 2) : Rnd :=
  if b = 0 then .rne else if b = 1 then .rtz else if b = 2 then .rdn else .rup

/-- Direction codes (R79). -/
def Dir.bits : Dir → BitVec 2
  | .whole => 0
  | .row => 1
  | .col => 2
  | .diag => 3

/-- The direction two bits name (R79). -/
def Dir.ofBits (b : BitVec 2) : Dir :=
  if b = 0 then .whole else if b = 1 then .row else if b = 2 then .col else .diag

/-- A vector operand field, dir[6:5] reg[4:0] (R92). -/
def VOp.bits (v : VOp) : BitVec 7 := v.dir.bits ++ v.reg

/-- The vector operand at bits [lo+6:lo]. -/
def vopAt (w : Word) (lo : Nat) : VOp := ⟨Dir.ofBits (w.extractLsb' (lo + 5) 2), w.extractLsb' lo 5⟩

/-- A row of an opcode map. -/
abbrev Row32 := Nat × (Word → Option (Instr × Word))


/-- Rows of the control map, part 1. -/
def controlRows1 : List Row32 :=
  [ (0x00, fun w => if w.extractLsb' 22 2 == 0#2 then some (.br (w.extractLsb' 0 22), 0x0#32) else none),
    (0x01, fun w => some (.brc (Eng.ofBits (w.extractLsb' 22 2)) (w.extractLsb' 18 4) (w.extractLsb' 13 5) (w.extractLsb' 0 13), 0x0#32)),
    (0x02, fun w => some (.loop (Eng.ofBits (w.extractLsb' 22 2)) (w.extractLsb' 17 5) (w.extractLsb' 0 17), 0x0#32)),
    (0x03, fun w => some (.loopr (Eng.ofBits (w.extractLsb' 22 2)) (w.extractLsb' 17 5) (w.extractLsb' 0 17), 0x0#32)),
    (0x04, fun w => if w.extractLsb' 22 2 == 0#2 then some (.call (w.extractLsb' 0 22), 0x0#32) else none),
    (0x05, fun w => if w.extractLsb' 22 2 == 0#2 then some (.ret, 0x3FFFFF#32) else none),
    (0x06, fun w => if w.extractLsb' 22 2 == 0#2 then some (.rgn, 0x3FFFFF#32) else none),
    (0x07, fun w => if w.extractLsb' 22 2 == 0#2 then some (.tok (Eng.ofBits (w.extractLsb' 20 2)) (Eng.ofBits (w.extractLsb' 18 2)) (w.extractLsb' 14 4), 0x3FFF#32) else none),
    (0x08, fun w => if w.extractLsb' 22 2 == 0#2 then some (.endw, 0x3FFFFF#32) else none),
    (0x09, fun w => some (.brx (Eng.ofBits (w.extractLsb' 22 2)) (w.extractLsb' 17 5), 0x1FFFF#32)) ]

/-- The control map (file 06): opcode, and what a word with it holds. -/
def controlMap : List Row32 := controlRows1

/-- Rows of the execute map, part 1. -/
def executeRows1 : List Row32 :=
  [ (0x00, fun _ => some (.nop, 0x3FFFFF#32)),
    (0x01, fun w => some (.add (w.extractLsb' 17 5) (w.extractLsb' 12 5) (w.extractLsb' 7 5), 0x7F#32)),
    (0x02, fun w => some (.sub (w.extractLsb' 17 5) (w.extractLsb' 12 5) (w.extractLsb' 7 5), 0x7F#32)),
    (0x03, fun w => some (.mul (w.extractLsb' 17 5) (w.extractLsb' 12 5) (w.extractLsb' 7 5), 0x7F#32)),
    (0x04, fun w => some (.mulh (w.extractLsb' 17 5) (w.extractLsb' 12 5) (w.extractLsb' 7 5), 0x7F#32)),
    (0x05, fun w => some (.mulhu (w.extractLsb' 17 5) (w.extractLsb' 12 5) (w.extractLsb' 7 5), 0x7F#32)),
    (0x06, fun w => some (.div (w.extractLsb' 17 5) (w.extractLsb' 12 5) (w.extractLsb' 7 5), 0x7F#32)),
    (0x07, fun w => some (.divu (w.extractLsb' 17 5) (w.extractLsb' 12 5) (w.extractLsb' 7 5), 0x7F#32)),
    (0x08, fun w => some (.rem (w.extractLsb' 17 5) (w.extractLsb' 12 5) (w.extractLsb' 7 5), 0x7F#32)),
    (0x09, fun w => some (.remu (w.extractLsb' 17 5) (w.extractLsb' 12 5) (w.extractLsb' 7 5), 0x7F#32)),
    (0x0A, fun w => some (.and (w.extractLsb' 17 5) (w.extractLsb' 12 5) (w.extractLsb' 7 5), 0x7F#32)),
    (0x0B, fun w => some (.or (w.extractLsb' 17 5) (w.extractLsb' 12 5) (w.extractLsb' 7 5), 0x7F#32)),
    (0x0C, fun w => some (.xor (w.extractLsb' 17 5) (w.extractLsb' 12 5) (w.extractLsb' 7 5), 0x7F#32)),
    (0x0D, fun w => some (.andn (w.extractLsb' 17 5) (w.extractLsb' 12 5) (w.extractLsb' 7 5), 0x7F#32)),
    (0x0E, fun w => some (.shl (w.extractLsb' 17 5) (w.extractLsb' 12 5) (w.extractLsb' 7 5), 0x7F#32)),
    (0x0F, fun w => some (.shr (w.extractLsb' 17 5) (w.extractLsb' 12 5) (w.extractLsb' 7 5), 0x7F#32)),
    (0x10, fun w => some (.sar (w.extractLsb' 17 5) (w.extractLsb' 12 5) (w.extractLsb' 7 5), 0x7F#32)),
    (0x11, fun w => some (.rol (w.extractLsb' 17 5) (w.extractLsb' 12 5) (w.extractLsb' 7 5), 0x7F#32)),
    (0x12, fun w => some (.min (w.extractLsb' 17 5) (w.extractLsb' 12 5) (w.extractLsb' 7 5), 0x7F#32)),
    (0x13, fun w => some (.max (w.extractLsb' 17 5) (w.extractLsb' 12 5) (w.extractLsb' 7 5), 0x7F#32)) ]

/-- Rows of the execute map, part 2. -/
def executeRows2 : List Row32 :=
  [ (0x14, fun w => some (.minu (w.extractLsb' 17 5) (w.extractLsb' 12 5) (w.extractLsb' 7 5), 0x7F#32)),
    (0x15, fun w => some (.maxu (w.extractLsb' 17 5) (w.extractLsb' 12 5) (w.extractLsb' 7 5), 0x7F#32)),
    (0x16, fun w => some (.slt (w.extractLsb' 17 5) (w.extractLsb' 12 5) (w.extractLsb' 7 5), 0x7F#32)),
    (0x17, fun w => some (.sltu (w.extractLsb' 17 5) (w.extractLsb' 12 5) (w.extractLsb' 7 5), 0x7F#32)),
    (0x18, fun w => some (.seq (w.extractLsb' 17 5) (w.extractLsb' 12 5) (w.extractLsb' 7 5), 0x7F#32)),
    (0x19, fun w => some (.sne (w.extractLsb' 17 5) (w.extractLsb' 12 5) (w.extractLsb' 7 5), 0x7F#32)),
    (0x1A, fun w => some (.clz (w.extractLsb' 17 5) (w.extractLsb' 12 5), 0xFFF#32)),
    (0x1B, fun w => some (.ctz (w.extractLsb' 17 5) (w.extractLsb' 12 5), 0xFFF#32)),
    (0x1C, fun w => some (.popc (w.extractLsb' 17 5) (w.extractLsb' 12 5), 0xFFF#32)),
    (0x1D, fun w => some (.sel (w.extractLsb' 17 5) (w.extractLsb' 12 5) (w.extractLsb' 7 5) (w.extractLsb' 2 5), 0x3#32)),
    (0x20, fun w => some (.addi (w.extractLsb' 17 5) (w.extractLsb' 12 5) (w.extractLsb' 0 12), 0x0#32)),
    (0x21, fun w => some (.andi (w.extractLsb' 17 5) (w.extractLsb' 12 5) (w.extractLsb' 0 12), 0x0#32)),
    (0x22, fun w => some (.ori (w.extractLsb' 17 5) (w.extractLsb' 12 5) (w.extractLsb' 0 12), 0x0#32)),
    (0x23, fun w => some (.xori (w.extractLsb' 17 5) (w.extractLsb' 12 5) (w.extractLsb' 0 12), 0x0#32)),
    (0x24, fun w => some (.shli (w.extractLsb' 17 5) (w.extractLsb' 12 5) (w.extractLsb' 0 12), 0x0#32)),
    (0x25, fun w => some (.shri (w.extractLsb' 17 5) (w.extractLsb' 12 5) (w.extractLsb' 0 12), 0x0#32)),
    (0x26, fun w => some (.sari (w.extractLsb' 17 5) (w.extractLsb' 12 5) (w.extractLsb' 0 12), 0x0#32)),
    (0x27, fun w => some (.slti (w.extractLsb' 17 5) (w.extractLsb' 12 5) (w.extractLsb' 0 12), 0x0#32)),
    (0x28, fun w => some (.lui (w.extractLsb' 17 5) (w.extractLsb' 0 17), 0x0#32)),
    (0x30, fun w => some (.fadd (w.extractLsb' 17 5) (w.extractLsb' 12 5) (w.extractLsb' 7 5), 0x7F#32)) ]

/-- Rows of the execute map, part 3. A nonzero a of CSRR or d of CSRW is a reserved bit, as R89 has every field that its map writes as 0
(DESIGN CHOICE, unsafe: log entry 85: R126 calls it a reserved field value). -/
def executeRows3 : List Row32 :=
  [ (0x31, fun w => some (.fsub (w.extractLsb' 17 5) (w.extractLsb' 12 5) (w.extractLsb' 7 5), 0x7F#32)),
    (0x32, fun w => some (.fmul (w.extractLsb' 17 5) (w.extractLsb' 12 5) (w.extractLsb' 7 5), 0x7F#32)),
    (0x33, fun w => some (.ffma (w.extractLsb' 17 5) (w.extractLsb' 12 5) (w.extractLsb' 7 5), 0x7F#32)),
    (0x34, fun w => some (.fmin (w.extractLsb' 17 5) (w.extractLsb' 12 5) (w.extractLsb' 7 5), 0x7F#32)),
    (0x35, fun w => some (.fmax (w.extractLsb' 17 5) (w.extractLsb' 12 5) (w.extractLsb' 7 5), 0x7F#32)),
    (0x36, fun w => some (.fcmp (w.extractLsb' 17 5) (w.extractLsb' 12 5) (w.extractLsb' 7 5) (w.extractLsb' 0 3), 0x78#32)),
    (0x37, fun w => if w.extractLsb' 0 7 == 0#7 then some (.fcvtToInt (w.extractLsb' 17 5) (w.extractLsb' 12 5), 0xF80#32) else if w.extractLsb' 0 7 == 1#7 then some (.fcvtToFp (w.extractLsb' 17 5) (w.extractLsb' 12 5), 0xF80#32) else none),
    (0x40, fun w => some (.pop (w.extractLsb' 17 5) (w.extractLsb' 12 5), 0xFFF#32)),
    (0x41, fun w => some (.push (w.extractLsb' 17 5) (w.extractLsb' 12 5), 0xFFF#32)),
    (0x42, fun w => some (.qstat (w.extractLsb' 17 5) (w.extractLsb' 12 5), 0xFFF#32)),
    (0x48, fun w => some (.evpop (w.extractLsb' 17 5), 0x1FFFF#32)),
    (0x49, fun w => some (.evpeek (w.extractLsb' 17 5), 0x1FFFF#32)),
    (0x4A, fun w => some (.evcnt (w.extractLsb' 17 5), 0x1FFFF#32)),
    (0x50, fun w => some (.launch (w.extractLsb' 17 5) (w.extractLsb' 12 5), 0xFFF#32)),
    (0x58, fun w => some (.csrr (w.extractLsb' 17 5) (w.extractLsb' 0 12), 0x1F000#32)),
    (0x59, fun w => some (.csrw (w.extractLsb' 12 5) (w.extractLsb' 0 12), 0x3E0000#32)),
    (0x5A, fun w => some (.csrs (w.extractLsb' 17 5) (w.extractLsb' 12 5) (w.extractLsb' 0 12), 0x0#32)),
    (0x5B, fun w => some (.csrc (w.extractLsb' 17 5) (w.extractLsb' 12 5) (w.extractLsb' 0 12), 0x0#32)),
    (0x60, fun w => some (.trap (w.extractLsb' 0 12), 0x3FF000#32)),
    (0x61, fun _ => some (.eret, 0x3FFFFF#32)) ]

/-- Rows of the execute map, part 4. -/
def executeRows4 : List Row32 :=
  [ (0x62, fun _ => some (.wfe, 0x3FFFFF#32)) ]

/-- The execute map (file 06): opcode, and what a word with it holds. -/
def executeMap : List Row32 := executeRows1 ++ executeRows2 ++ executeRows3 ++ executeRows4

/-- Rows of the access map, part 1. -/
def accessRows1 : List Row32 :=
  [ (0x00, fun _ => some (.anop, 0x3FFFFF#32)),
    (0x01, fun w => some (.aadd (w.extractLsb' 17 5) (w.extractLsb' 12 5) (w.extractLsb' 7 5), 0x7F#32)),
    (0x02, fun w => some (.asub (w.extractLsb' 17 5) (w.extractLsb' 12 5) (w.extractLsb' 7 5), 0x7F#32)),
    (0x03, fun w => some (.amul (w.extractLsb' 17 5) (w.extractLsb' 12 5) (w.extractLsb' 7 5), 0x7F#32)),
    (0x04, fun w => some (.ashl (w.extractLsb' 17 5) (w.extractLsb' 12 5) (w.extractLsb' 7 5), 0x7F#32)),
    (0x05, fun w => some (.ashr (w.extractLsb' 17 5) (w.extractLsb' 12 5) (w.extractLsb' 7 5), 0x7F#32)),
    (0x06, fun w => some (.aand (w.extractLsb' 17 5) (w.extractLsb' 12 5) (w.extractLsb' 7 5), 0x7F#32)),
    (0x07, fun w => some (.amin (w.extractLsb' 17 5) (w.extractLsb' 12 5) (w.extractLsb' 7 5), 0x7F#32)),
    (0x08, fun w => some (.amax (w.extractLsb' 17 5) (w.extractLsb' 12 5) (w.extractLsb' 7 5), 0x7F#32)),
    (0x09, fun w => some (.aslt (w.extractLsb' 17 5) (w.extractLsb' 12 5) (w.extractLsb' 7 5), 0x7F#32)),
    (0x0A, fun w => some (.aaddi (w.extractLsb' 17 5) (w.extractLsb' 12 5) (w.extractLsb' 0 12), 0x0#32)),
    (0x0B, fun w => some (.alui (w.extractLsb' 17 5) (w.extractLsb' 0 17), 0x0#32)),
    (0x0C, fun w => some (.aandi (w.extractLsb' 17 5) (w.extractLsb' 12 5) (w.extractLsb' 0 12), 0x0#32)),
    (0x0D, fun w => some (.ashli (w.extractLsb' 17 5) (w.extractLsb' 12 5) (w.extractLsb' 0 12), 0x0#32)),
    (0x10, fun w => some (.ld (w.extractLsb' 17 5) (w.extractLsb' 12 5) (MSize.ofBits (w.extractLsb' 10 2)) (w.getLsbD 9) (w.extractLsb' 0 9), 0x0#32)),
    (0x11, fun w => some (.ldq (w.extractLsb' 17 5) (w.extractLsb' 12 5) (MSize.ofBits (w.extractLsb' 10 2)) (w.getLsbD 9) (w.extractLsb' 0 9), 0x0#32)),
    (0x12, fun w => some (.ldv (w.extractLsb' 17 5) (w.extractLsb' 12 5) (w.extractLsb' 0 7), 0xF80#32)),
    (0x13, fun w => some (.st (w.extractLsb' 17 5) (w.extractLsb' 12 5) (MSize.ofBits (w.extractLsb' 10 2)) (w.extractLsb' 0 9), 0x200#32)),
    (0x14, fun w => some (.stq (w.extractLsb' 17 5) (w.extractLsb' 12 5) (MSize.ofBits (w.extractLsb' 10 2)) (w.extractLsb' 0 9), 0x200#32)),
    (0x15, fun w => some (.stv (w.extractLsb' 17 5) (w.extractLsb' 12 5) (w.extractLsb' 0 7), 0xF80#32)) ]

/-- Rows of the access map, part 2. -/
def accessRows2 : List Row32 :=
  [ (0x16, fun w => some (.pref (w.extractLsb' 17 5) (w.extractLsb' 12 5) (MSize.ofBits (w.extractLsb' 10 2)) (w.extractLsb' 0 9), 0x200#32)),
    (0x18, fun w => some (.amoadd (w.extractLsb' 17 5) (w.extractLsb' 12 5) (w.extractLsb' 7 5) (w.getLsbD 6), 0x3F#32)),
    (0x19, fun w => some (.amoswap (w.extractLsb' 17 5) (w.extractLsb' 12 5) (w.extractLsb' 7 5) (w.getLsbD 6), 0x3F#32)),
    (0x1A, fun w => some (.amocas (w.extractLsb' 17 5) (w.extractLsb' 12 5) (w.extractLsb' 7 5) (w.getLsbD 6), 0x3F#32)),
    (0x1B, fun w => some (.amologic (w.extractLsb' 17 5) (w.extractLsb' 12 5) (w.extractLsb' 7 5) (w.getLsbD 6) (w.extractLsb' 0 2), 0x3C#32)),
    (0x1C, fun w => some (.amominmax (w.extractLsb' 17 5) (w.extractLsb' 12 5) (w.extractLsb' 7 5) (w.getLsbD 6) (w.extractLsb' 0 2), 0x3C#32)),
    (0x1D, fun w => if w.extractLsb' 6 1 == 0#1 then some (.amofadd (w.extractLsb' 17 5) (w.extractLsb' 12 5) (w.extractLsb' 7 5), 0x3F#32) else none),
    (0x20, fun w => some (.flagwait (w.extractLsb' 12 5) (w.extractLsb' 7 5), 0x3E007F#32)),
    (0x21, fun w => some (.flaginc (w.extractLsb' 12 5) (w.extractLsb' 7 5), 0x3E007F#32)),
    (0x22, fun w => some (.flagset (w.extractLsb' 12 5) (w.extractLsb' 7 5), 0x3E007F#32)),
    (0x23, fun w => some (.flagread (w.extractLsb' 17 5) (w.extractLsb' 12 5), 0xFFF#32)),
    (0x24, fun w => some (.bararm (w.extractLsb' 12 5) (w.extractLsb' 7 5), 0x3E007F#32)),
    (0x25, fun w => some (.barwait (w.extractLsb' 12 5), 0x3E0FFF#32)),
    (0x28, fun w => some (.copy (w.extractLsb' 12 5) (w.extractLsb' 7 5) (w.extractLsb' 5 2) (w.extractLsb' 0 5), 0x3E0000#32)),
    (0x29, fun w => some (.copy2d (w.extractLsb' 12 5) (w.extractLsb' 7 5) (w.extractLsb' 5 2) (w.extractLsb' 0 5), 0x3E0000#32)),
    (0x2A, fun w => some (.gather (w.extractLsb' 12 5) (w.extractLsb' 7 5) (w.extractLsb' 5 2) (w.extractLsb' 0 5), 0x3E0000#32)),
    (0x2B, fun w => some (.scatter (w.extractLsb' 12 5) (w.extractLsb' 7 5) (w.extractLsb' 5 2) (w.extractLsb' 0 5), 0x3E0000#32)),
    (0x2C, fun w => some (.xfer (w.extractLsb' 12 5) (w.extractLsb' 7 5) (w.extractLsb' 5 2) (w.extractLsb' 0 5), 0x3E0000#32)),
    (0x2D, fun w => some (.xferm (w.extractLsb' 12 5) (w.extractLsb' 7 5) (w.extractLsb' 5 2) (w.extractLsb' 0 5), 0x3E0000#32)),
    (0x2E, fun w => some (.notify (w.extractLsb' 12 5) (w.extractLsb' 5 2) (w.extractLsb' 0 5), 0x3E0F80#32)) ]

/-- Rows of the access map, part 3. -/
def accessRows3 : List Row32 :=
  [ (0x30, fun w => some (.mapinst (w.extractLsb' 12 5) (w.extractLsb' 7 5), 0x3E007F#32)),
    (0x31, fun w => some (.mapswap (w.extractLsb' 12 5) (w.extractLsb' 7 5), 0x3E007F#32)),
    (0x32, fun w => some (.mapret (w.extractLsb' 7 5), 0x3FF07F#32)),
    (0x33, fun w => some (.mapq (w.extractLsb' 17 5) (w.extractLsb' 7 5), 0x1F07F#32)),
    (0x34, fun w => some (.fencex (w.extractLsb' 6 6) (w.extractLsb' 0 6), 0x3FF000#32)),
    (0x35, fun w => some (.mark (w.extractLsb' 17 5) (w.extractLsb' 6 6), 0x1F03F#32)),
    (0x36, fun w => some (.join (w.extractLsb' 12 5) (w.extractLsb' 0 6), 0x3E0FC0#32)),
    (0x38, fun w => some (.rld (w.extractLsb' 12 5) (w.extractLsb' 7 5) (w.extractLsb' 0 4), 0x3E0070#32)),
    (0x39, fun w => some (.rst (w.extractLsb' 12 5) (w.extractLsb' 7 5) (w.getLsbD 4) (w.extractLsb' 0 4), 0x3E0060#32)),
    (0x3A, fun w => some (.rstf (w.extractLsb' 12 5) (w.extractLsb' 7 5) (w.getLsbD 5) (w.getLsbD 4) (w.extractLsb' 0 4), 0x3E0040#32)),
    (0x3B, fun w => some (.ramo (w.extractLsb' 12 5) (w.extractLsb' 7 5) (w.getLsbD 4) (w.extractLsb' 0 4), 0x3E0060#32)),
    (0x40, fun w => some (.tidset (w.extractLsb' 12 5) (w.extractLsb' 4 8), 0x3E000F#32)),
    (0x41, fun w => some (.tidinv (w.extractLsb' 4 8), 0x3FF00F#32)),
    (0x42, fun w => some (.tidget (w.extractLsb' 12 5) (w.extractLsb' 4 8), 0x3E000F#32)),
    (0x48, fun w => some (.tlbinv (w.extractLsb' 12 5) (w.extractLsb' 0 7), 0x3E0F80#32)),
    (0x49, fun w => some (.asidset (w.extractLsb' 12 5), 0x3E0FFF#32)) ]

/-- The access map (file 06): opcode, and what a word with it holds. -/
def accessMap : List Row32 := accessRows1 ++ accessRows2 ++ accessRows3

/-- Rows of the vector map, part 1. -/
def vectorRows1 : List Row32 :=
  [ (0x00, fun w => some (.vaddF (vopAt w 15) (vopAt w 8) (vopAt w 1) (w.getLsbD 0), 0x0#32)),
    (0x01, fun w => some (.vsubF (vopAt w 15) (vopAt w 8) (vopAt w 1) (w.getLsbD 0), 0x0#32)),
    (0x02, fun w => some (.vmulF (vopAt w 15) (vopAt w 8) (vopAt w 1) (w.getLsbD 0), 0x0#32)),
    (0x03, fun w => some (.vfmaF (vopAt w 15) (vopAt w 8) (vopAt w 1) (w.getLsbD 0), 0x0#32)),
    (0x04, fun w => some (.vfmsF (vopAt w 15) (vopAt w 8) (vopAt w 1) (w.getLsbD 0), 0x0#32)),
    (0x05, fun w => some (.vminF (vopAt w 15) (vopAt w 8) (vopAt w 1) (w.getLsbD 0), 0x0#32)),
    (0x06, fun w => some (.vmaxF (vopAt w 15) (vopAt w 8) (vopAt w 1) (w.getLsbD 0), 0x0#32)),
    (0x07, fun w => some (.vabsF (vopAt w 15) (vopAt w 8) (w.getLsbD 0), 0xFE#32)),
    (0x08, fun w => some (.vnegF (vopAt w 15) (vopAt w 8) (w.getLsbD 0), 0xFE#32)),
    (0x09, fun w => some (.vcmpF (w.extractLsb' 18 4) (w.extractLsb' 15 3) (vopAt w 8) (vopAt w 1) (w.getLsbD 0), 0x0#32)),
    (0x10, fun w => some (.vaddB (vopAt w 15) (vopAt w 8) (vopAt w 1) (w.getLsbD 0), 0x0#32)),
    (0x11, fun w => some (.vsubB (vopAt w 15) (vopAt w 8) (vopAt w 1) (w.getLsbD 0), 0x0#32)),
    (0x12, fun w => some (.vmulB (vopAt w 15) (vopAt w 8) (vopAt w 1) (w.getLsbD 0), 0x0#32)),
    (0x13, fun w => some (.vfmaB (vopAt w 15) (vopAt w 8) (vopAt w 1) (w.getLsbD 0), 0x0#32)),
    (0x14, fun w => some (.vfmsB (vopAt w 15) (vopAt w 8) (vopAt w 1) (w.getLsbD 0), 0x0#32)),
    (0x15, fun w => some (.vminB (vopAt w 15) (vopAt w 8) (vopAt w 1) (w.getLsbD 0), 0x0#32)),
    (0x16, fun w => some (.vmaxB (vopAt w 15) (vopAt w 8) (vopAt w 1) (w.getLsbD 0), 0x0#32)),
    (0x20, fun w => some (.vaddI (vopAt w 15) (vopAt w 8) (vopAt w 1) (w.getLsbD 0), 0x0#32)),
    (0x21, fun w => some (.vsubI (vopAt w 15) (vopAt w 8) (vopAt w 1) (w.getLsbD 0), 0x0#32)),
    (0x22, fun w => some (.vmulI (vopAt w 15) (vopAt w 8) (vopAt w 1) (w.getLsbD 0), 0x0#32)) ]

/-- Rows of the vector map, part 2. -/
def vectorRows2 : List Row32 :=
  [ (0x23, fun w => some (.vminI (vopAt w 15) (vopAt w 8) (vopAt w 1) (w.getLsbD 0), 0x0#32)),
    (0x24, fun w => some (.vmaxI (vopAt w 15) (vopAt w 8) (vopAt w 1) (w.getLsbD 0), 0x0#32)),
    (0x25, fun w => some (.vand (vopAt w 15) (vopAt w 8) (vopAt w 1) (w.getLsbD 0), 0x0#32)),
    (0x26, fun w => some (.vor (vopAt w 15) (vopAt w 8) (vopAt w 1) (w.getLsbD 0), 0x0#32)),
    (0x27, fun w => some (.vxor (vopAt w 15) (vopAt w 8) (vopAt w 1) (w.getLsbD 0), 0x0#32)),
    (0x28, fun w => some (.vshl (vopAt w 15) (vopAt w 8) (vopAt w 1) (w.getLsbD 0), 0x0#32)),
    (0x29, fun w => some (.vshr (vopAt w 15) (vopAt w 8) (vopAt w 1) (w.getLsbD 0), 0x0#32)),
    (0x2A, fun w => some (.vsar (vopAt w 15) (vopAt w 8) (vopAt w 1) (w.getLsbD 0), 0x0#32)),
    (0x2B, fun w => some (.vcmpI (w.extractLsb' 18 4) (w.extractLsb' 15 3) (vopAt w 8) (vopAt w 1) (w.getLsbD 0), 0x0#32)),
    (0x30, fun w => some (.vrcp (vopAt w 15) (vopAt w 8) (w.getLsbD 0), 0xFE#32)),
    (0x31, fun w => some (.vrsqrt (vopAt w 15) (vopAt w 8) (w.getLsbD 0), 0xFE#32)),
    (0x32, fun w => some (.vexp2 (vopAt w 15) (vopAt w 8) (w.getLsbD 0), 0xFE#32)),
    (0x33, fun w => some (.vlog2 (vopAt w 15) (vopAt w 8) (w.getLsbD 0), 0xFE#32)),
    (0x34, fun w => some (.vtanh (vopAt w 15) (vopAt w 8) (w.getLsbD 0), 0xFE#32)),
    (0x38, fun w => some (.vredsum (vopAt w 15) (vopAt w 8) (w.getLsbD 2) (w.getLsbD 1) (w.getLsbD 0), 0xF8#32)),
    (0x39, fun w => some (.vredmax (vopAt w 15) (vopAt w 8) (w.getLsbD 2) (w.getLsbD 1) (w.getLsbD 0), 0xF8#32)),
    (0x40, fun w => some (.vmov (vopAt w 15) (vopAt w 8) (w.getLsbD 0), 0xFE#32)),
    (0x41, fun w => some (.vbcast (vopAt w 15) (w.extractLsb' 11 4), 0x7FF#32)),
    (0x42, fun w => some (.vtrans (vopAt w 15) (vopAt w 8), 0xFF#32)),
    (0x43, fun w => if w.extractLsb' 0 1 == 1#1 then some (.vsel (vopAt w 15) (vopAt w 8) (vopAt w 1), 0x0#32) else none) ]

/-- Rows of the vector map, part 3. -/
def vectorRows3 : List Row32 :=
  [ (0x44, fun w => some (.vshift (vopAt w 15) (vopAt w 8) (w.getLsbD 7) (w.getLsbD 6) (w.extractLsb' 0 6), 0x0#32)),
    (0x45, fun w => some (.viota (vopAt w 15) (w.extractLsb' 0 8), 0x7F00#32)),
    (0x48, fun w => some (.vpop (vopAt w 15) (w.extractLsb' 11 4) (w.extractLsb' 5 6), 0x1F#32)),
    (0x49, fun w => some (.vpush (vopAt w 15) (w.extractLsb' 11 4) (w.extractLsb' 5 6), 0x1F#32)),
    (0x4A, fun w => some (.vpushx (vopAt w 15) (w.extractLsb' 11 4), 0x7FF#32)),
    (0x50, fun w => some (.vunpE4 (vopAt w 15) (vopAt w 8) (w.extractLsb' 0 3), 0xF8#32)),
    (0x51, fun w => some (.vunpE5 (vopAt w 15) (vopAt w 8) (w.extractLsb' 0 3), 0xF8#32)),
    (0x52, fun w => some (.vunpI8 (vopAt w 15) (vopAt w 8) (w.extractLsb' 0 3), 0xF8#32)),
    (0x53, fun w => some (.vunpH (vopAt w 15) (vopAt w 8) (w.extractLsb' 0 3), 0xF8#32)),
    (0x54, fun w => some (.vunpQ4 (vopAt w 15) (vopAt w 8) (w.extractLsb' 3 5) (w.extractLsb' 0 3), 0x0#32)),
    (0x55, fun w => some (.vpackE4 (vopAt w 15) (vopAt w 8) (w.getLsbD 5) (Rnd.ofBits (w.extractLsb' 3 2)) (w.extractLsb' 0 3), 0xC0#32)),
    (0x56, fun w => some (.vpackE5 (vopAt w 15) (vopAt w 8) (w.getLsbD 5) (Rnd.ofBits (w.extractLsb' 3 2)) (w.extractLsb' 0 3), 0xC0#32)),
    (0x57, fun w => some (.vpackI8 (vopAt w 15) (vopAt w 8) (w.getLsbD 5) (Rnd.ofBits (w.extractLsb' 3 2)) (w.extractLsb' 0 3), 0xC0#32)),
    (0x58, fun w => some (.vpackH (vopAt w 15) (vopAt w 8) (w.getLsbD 5) (Rnd.ofBits (w.extractLsb' 3 2)) (w.extractLsb' 0 3), 0xC0#32)),
    (0x59, fun w => some (.vpackB (vopAt w 15) (vopAt w 8) (w.getLsbD 5) (Rnd.ofBits (w.extractLsb' 3 2)) (w.extractLsb' 0 3), 0xC0#32)),
    (0x5A, fun w => some (.vcvtFi (vopAt w 15) (vopAt w 8), 0xFF#32)),
    (0x5B, fun w => some (.vcvtIf (vopAt w 15) (vopAt w 8), 0xFF#32)),
    (0x60, fun w => some (.vshape (w.extractLsb' 15 7) (w.extractLsb' 8 7), 0xFF#32)),
    (0x61, fun w => some (.vcur (w.extractLsb' 15 7) (w.extractLsb' 8 7) (w.extractLsb' 0 8), 0x0#32)),
    (0x62, fun w => some (.vrbset (w.extractLsb' 0 8), 0x3FFF00#32)) ]

/-- Rows of the vector map, part 4. -/
def vectorRows4 : List Row32 :=
  [ (0x68, fun w => some (.vpark (vopAt w 15), 0x7FFF#32)),
    (0x69, fun w => some (.vunpark (vopAt w 15), 0x7FFF#32)),
    (0x70, fun w => some (.kand (w.extractLsb' 15 5) (w.extractLsb' 8 5) (w.extractLsb' 1 5), 0x3060C1#32)),
    (0x71, fun w => some (.kor (w.extractLsb' 15 5) (w.extractLsb' 8 5) (w.extractLsb' 1 5), 0x3060C1#32)),
    (0x72, fun w => some (.knot (w.extractLsb' 15 5) (w.extractLsb' 8 5), 0x3060FF#32)),
    (0x73, fun w => some (.kmov (w.extractLsb' 15 5) (w.extractLsb' 8 5), 0x3060FF#32)),
    (0x74, fun w => some (.kcnt (w.extractLsb' 8 5), 0x3FE0FF#32)) ]

/-- The vector map (file 06): opcode, and what a word with it holds. -/
def vectorMap : List Row32 := vectorRows1 ++ vectorRows2 ++ vectorRows3 ++ vectorRows4

/-- Rows of the matrix map, part 1. -/
def matrixRows1 : List Row32 :=
  [ (0x00, fun w => some (.lease (w.extractLsb' 0 18), 0x3C0000#32)),
    (0x01, fun _ => some (.lrel, 0x3FFFFF#32)),
    (0x04, fun w => some (.mset (w.extractLsb' 18 4) (w.extractLsb' 16 2) (w.extractLsb' 0 16), 0x0#32)),
    (0x05, fun w => some (.maddc (w.extractLsb' 18 4) (w.extractLsb' 16 2) (w.extractLsb' 0 16), 0x0#32)),
    (0x06, fun w => some (.mpopc (w.extractLsb' 18 4), 0x3FFFF#32)),
    (0x07, fun w => some (.mpush (w.extractLsb' 18 4), 0x3FFFF#32)),
    (0x08, fun w => some (.mshape (w.extractLsb' 16 2) (w.extractLsb' 0 16), 0x3C0000#32)),
    (0x10, fun w => some (.mma (w.extractLsb' 14 8) (w.extractLsb' 6 8) (w.extractLsb' 2 4) (w.extractLsb' 0 2), 0x0#32)),
    (0x11, fun w => some (.mmas (w.extractLsb' 14 8) (w.extractLsb' 6 8) (w.extractLsb' 2 4) (w.extractLsb' 0 2), 0x0#32)),
    (0x18, fun w => some (.rclose (w.extractLsb' 18 4), 0x3FFFF#32)),
    (0x19, fun _ => some (.rdrop, 0x3FFFFF#32)),
    (0x1A, fun w => if w.extractLsb' 16 2 == 0#2 then some (.rwaitFree, 0x3CFFFF#32) else if w.extractLsb' 16 2 == 1#2 then some (.rwaitSlot (w.extractLsb' 0 3), 0x3CFFF8#32) else none),
    (0x20, fun w => some (.cbound (w.extractLsb' 0 18), 0x3C0000#32)),
    (0x21, fun w => some (.cord (w.extractLsb' 18 4), 0x3FFFF#32)),
    (0x22, fun _ => some (.cstep, 0x3FFFFF#32)),
    (0x23, fun w => some (.chain (w.extractLsb' 0 18), 0x3C0000#32)),
    (0x24, fun w => some (.bdset (w.extractLsb' 18 4) (w.extractLsb' 0 16), 0x30000#32)),
    (0x25, fun w => some (.cinit (w.extractLsb' 14 8) (w.extractLsb' 2 4), 0x3FC3#32)),
    (0x26, fun _ => some (.cemit, 0x3FFFFF#32)),
    (0x28, fun _ => some (.mnotify, 0x3FFFFF#32)) ]

/-- The matrix map (file 06): opcode, and what a word with it holds. -/
def matrixMap : List Row32 := matrixRows1

/-- The row for an opcode, read on the word: none where the opcode is unassigned. -/
def rowFor (m : List Row32) (op : Nat) (w : Word) : Option (Option (Instr × Word)) :=
  match m.lookup op with
  | some f => some (f w)
  | none => none

/-- The map a word's TAG selects, applied to its opcode: [28:24] in a C word, [28:22] in a single-engine word (R89). -/
def mapRow (w : Word) : Option (Option (Instr × Word)) :=
  match (w.extractLsb' 29 3).toNat with
  | 0 => rowFor executeMap (w.extractLsb' 22 7).toNat w
  | 1 => rowFor accessMap (w.extractLsb' 22 7).toNat w
  | 2 => rowFor vectorMap (w.extractLsb' 22 7).toNat w
  | 3 => rowFor matrixMap (w.extractLsb' 22 7).toNat w
  | _ => rowFor controlMap (w.extractLsb' 24 5).toNat w

/-- Decoding a word (R89, R101). Of several faults in one word the lowest kind is reported (DEDUCED, unsafe: log entry 10). -/
def decode (w : Word) : Except BadWord Instr :=
  if (w.extractLsb' 29 3).toNat = 5 then .ok (.extWord (w.extractLsb' 0 29))
  else if 6 ≤ (w.extractLsb' 29 3).toNat then .error .reservedTag
  else match mapRow w with
    | none => .error .unassigned
    | some none => .error .fieldValue
    | some (some (i, z)) =>
      if !i.wf then .error .fieldValue
      else if w &&& z != 0 then .error .reservedBits
      else .ok i

/-- What an engine that reaches the word meets: the instruction, or the reserved word with its kind of fault (R60). -/
def decodeTotal (w : Word) : Instr :=
  match decode w with
  | .ok i => i
  | .error k => .reservedWord w k

/-- The instruction the decoder reads from the low `nbits` bits of `w`; every higher bit is 0. -/
def decodeTableWord (nbits w : Nat) : Option Instr :=
  if nbits = 0 then none
  else match decode (BitVec.ofNat 32 (w % 2 ^ nbits)) with
    | .ok i => some i
    | .error _ => none


/-- The word of an instruction, from the encoding tables of file 06; none for a step of another agent. -/
def encode : Instr → Option Word
  | .powerUp _ => none
  | .islandClockChange _ _ => none
  | .launchPortStore _ _ => none
  | .walkerDispatch => none
  | .preemptRequest => none
  | .contextSaveDone => none
  | .iterationRetirement => none
  | .retirementMessage => none
  | .nodeCompletion => none
  | .releaseWrite _ => none
  | .engineStallWatchdog => none
  | .regionRollback _ => none
  | .sfuResultLand => none
  | .flagwaitSatisfied => none
  | .barrierDecrement _ _ => none
  | .commandCompletion _ => none
  | .commandStall _ => none
  | .notifyComplete _ => none
  | .mapDrainComplete => none
  | .transferPacket _ _ => none
  | .shareRefill => none
  | .ptsTick _ => none
  | .turnGrant => none
  | .turnTimeLimit => none
  | .turnEndBudget => none
  | .matrixCommandComplete => none
  | .rakeStart => none
  | .rakeOutputPerformed => none
  | .rakeStall => none
  | .mnotifyComplete => none
  | .chainRecordComplete => none
  | .resumeEngine _ => none
  | .terminate => none
  | .resumeQueue _ => none
  | .failQueueCommand _ => none
  | .resumeRake => none
  | .failRakeSlot => none
  | .vfTeardown => none
  | .teardownTimeout => none
  | .lcapWrite _ => none
  | .swayStageSet _ _ => none
  | .swayStageClear _ _ => none
  | .frameassign _ => none
  | .framerelease => none
  | .scrubComplete => none
  | .flitReceive _ _ _ _ => none
  | .laneWindowEnd _ _ _ => none
  | .leaveRequest _ _ => none
  | .returnRequest _ _ => none
  | .laneTrialWindow _ _ _ => none
  | .laneLossOfLock _ _ => none
  | .laneRetry _ _ => none
  | .peerLost => none
  | .rldRequest => none
  | .rldReply => none
  | .rstArrival => none
  | .rstfArrival => none
  | .ramoRequest => none
  | .ramoReply => none
  | .sack => none
  | .flush => none
  | .fail => none
  | .relayedRequest => none
  | .ownerset => none
  | .migack => none
  | .redirect => none
  | .redirectApply => none
  | .reresolve => none
  | .pagedata => none
  | .performed => none
  | .close => none
  | .abort => none
  | .stubLifetimeExpiry => none
  | .demote _ => none
  | .demoteComplete => none
  | .move _ => none
  | .retire _ => none
  | .thaw _ => none
  | .promotionComplete => none
  | .dbgStop => none
  | .dbgResume _ => none
  | .dbgStep _ => none
  | .debugStepEnd => none
  | .breakpointHit => none
  | .debugImageWritten => none
  | .psessWrite _ => none
  | .networkArrival _ _ => none
  | .storageCompletion _ _ => none
  | .interruptTaken _ _ => none
  | .extend => none
  | .attest => none
  | .mailboxCommandDone => none
  | .registerWrite _ _ => none
  | .br o => some (128#8 ++ 0#2 ++ o)
  | .brc e c r f => some (129#8 ++ e.bits ++ c ++ r ++ f)
  | .loop e r o => some (130#8 ++ e.bits ++ r ++ o)
  | .loopr e r o => some (131#8 ++ e.bits ++ r ++ o)
  | .call o => some (132#8 ++ 0#2 ++ o)
  | .ret => some (133#8 ++ 0#2 ++ 0#22)
  | .rgn => some (134#8 ++ 0#2 ++ 0#22)
  | .tok f t n => some (135#8 ++ 0#2 ++ f.bits ++ t.bits ++ n ++ 0#14)
  | .endw => some (136#8 ++ 0#2 ++ 0#22)
  | .brx e r => some (137#8 ++ e.bits ++ r ++ 0#17)
  | .nop => some (0#10 ++ 0#22)
  | .add d a b => some (1#10 ++ d ++ a ++ b ++ 0#7)
  | .sub d a b => some (2#10 ++ d ++ a ++ b ++ 0#7)
  | .mul d a b => some (3#10 ++ d ++ a ++ b ++ 0#7)
  | .mulh d a b => some (4#10 ++ d ++ a ++ b ++ 0#7)
  | .mulhu d a b => some (5#10 ++ d ++ a ++ b ++ 0#7)
  | .div d a b => some (6#10 ++ d ++ a ++ b ++ 0#7)
  | .divu d a b => some (7#10 ++ d ++ a ++ b ++ 0#7)
  | .rem d a b => some (8#10 ++ d ++ a ++ b ++ 0#7)
  | .remu d a b => some (9#10 ++ d ++ a ++ b ++ 0#7)
  | .and d a b => some (10#10 ++ d ++ a ++ b ++ 0#7)
  | .or d a b => some (11#10 ++ d ++ a ++ b ++ 0#7)
  | .xor d a b => some (12#10 ++ d ++ a ++ b ++ 0#7)
  | .andn d a b => some (13#10 ++ d ++ a ++ b ++ 0#7)
  | .shl d a b => some (14#10 ++ d ++ a ++ b ++ 0#7)
  | .shr d a b => some (15#10 ++ d ++ a ++ b ++ 0#7)
  | .sar d a b => some (16#10 ++ d ++ a ++ b ++ 0#7)
  | .rol d a b => some (17#10 ++ d ++ a ++ b ++ 0#7)
  | .min d a b => some (18#10 ++ d ++ a ++ b ++ 0#7)
  | .max d a b => some (19#10 ++ d ++ a ++ b ++ 0#7)
  | .minu d a b => some (20#10 ++ d ++ a ++ b ++ 0#7)
  | .maxu d a b => some (21#10 ++ d ++ a ++ b ++ 0#7)
  | .slt d a b => some (22#10 ++ d ++ a ++ b ++ 0#7)
  | .sltu d a b => some (23#10 ++ d ++ a ++ b ++ 0#7)
  | .seq d a b => some (24#10 ++ d ++ a ++ b ++ 0#7)
  | .sne d a b => some (25#10 ++ d ++ a ++ b ++ 0#7)
  | .clz d a => some (26#10 ++ d ++ a ++ 0#5 ++ 0#7)
  | .ctz d a => some (27#10 ++ d ++ a ++ 0#5 ++ 0#7)
  | .popc d a => some (28#10 ++ d ++ a ++ 0#5 ++ 0#7)
  | .sel d a b c => some (29#10 ++ d ++ a ++ b ++ c ++ 0#2)
  | .addi d a i => some (32#10 ++ d ++ a ++ i)
  | .andi d a i => some (33#10 ++ d ++ a ++ i)
  | .ori d a i => some (34#10 ++ d ++ a ++ i)
  | .xori d a i => some (35#10 ++ d ++ a ++ i)
  | .shli d a s => some (36#10 ++ d ++ a ++ s)
  | .shri d a s => some (37#10 ++ d ++ a ++ s)
  | .sari d a s => some (38#10 ++ d ++ a ++ s)
  | .slti d a i => some (39#10 ++ d ++ a ++ i)
  | .lui d i => some (40#10 ++ d ++ i)
  | .fadd d a b => some (48#10 ++ d ++ a ++ b ++ 0#7)
  | .fsub d a b => some (49#10 ++ d ++ a ++ b ++ 0#7)
  | .fmul d a b => some (50#10 ++ d ++ a ++ b ++ 0#7)
  | .ffma d a b => some (51#10 ++ d ++ a ++ b ++ 0#7)
  | .fmin d a b => some (52#10 ++ d ++ a ++ b ++ 0#7)
  | .fmax d a b => some (53#10 ++ d ++ a ++ b ++ 0#7)
  | .fcmp d a b r => some (54#10 ++ d ++ a ++ b ++ 0#4 ++ r)
  | .fcvtToInt d a => some (55#10 ++ d ++ a ++ 0#5 ++ 0#7)
  | .fcvtToFp d a => some (55#10 ++ d ++ a ++ 0#5 ++ 1#7)
  | .pop d q => some (64#10 ++ d ++ q ++ 0#5 ++ 0#7)
  | .push q a => some (65#10 ++ q ++ a ++ 0#5 ++ 0#7)
  | .qstat d q => some (66#10 ++ d ++ q ++ 0#5 ++ 0#7)
  | .evpop d => some (72#10 ++ d ++ 0#17)
  | .evpeek d => some (73#10 ++ d ++ 0#17)
  | .evcnt d => some (74#10 ++ d ++ 0#17)
  | .launch d a => some (80#10 ++ d ++ a ++ 0#12)
  | .csrr d c => some (88#10 ++ d ++ 0#5 ++ c)
  | .csrw a c => some (89#10 ++ 0#5 ++ a ++ c)
  | .csrs d a c => some (90#10 ++ d ++ a ++ c)
  | .csrc d a c => some (91#10 ++ d ++ a ++ c)
  | .trap c => some (96#10 ++ 0#10 ++ c)
  | .eret => some (97#10 ++ 0#22)
  | .wfe => some (98#10 ++ 0#22)
  | .anop => some (128#10 ++ 0#22)
  | .aadd d a b => some (129#10 ++ d ++ a ++ b ++ 0#7)
  | .asub d a b => some (130#10 ++ d ++ a ++ b ++ 0#7)
  | .amul d a b => some (131#10 ++ d ++ a ++ b ++ 0#7)
  | .ashl d a b => some (132#10 ++ d ++ a ++ b ++ 0#7)
  | .ashr d a b => some (133#10 ++ d ++ a ++ b ++ 0#7)
  | .aand d a b => some (134#10 ++ d ++ a ++ b ++ 0#7)
  | .amin d a b => some (135#10 ++ d ++ a ++ b ++ 0#7)
  | .amax d a b => some (136#10 ++ d ++ a ++ b ++ 0#7)
  | .aslt d a b => some (137#10 ++ d ++ a ++ b ++ 0#7)
  | .aaddi d a i => some (138#10 ++ d ++ a ++ i)
  | .alui d i => some (139#10 ++ d ++ i)
  | .aandi d a i => some (140#10 ++ d ++ a ++ i)
  | .ashli d a s => some (141#10 ++ d ++ a ++ s)
  | .ld d b z u o => some (144#10 ++ d ++ b ++ z.bits ++ BitVec.ofBool u ++ o)
  | .ldq q b z u o => some (145#10 ++ q ++ b ++ z.bits ++ BitVec.ofBool u ++ o)
  | .ldv q a n => some (146#10 ++ q ++ a ++ 0#5 ++ n)
  | .st s b z o => some (147#10 ++ s ++ b ++ z.bits ++ 0#1 ++ o)
  | .stq q b z o => some (148#10 ++ q ++ b ++ z.bits ++ 0#1 ++ o)
  | .stv q a n => some (149#10 ++ q ++ a ++ 0#5 ++ n)
  | .pref l b z o => some (150#10 ++ l ++ b ++ z.bits ++ 0#1 ++ o)
  | .amoadd d a b w => some (152#10 ++ d ++ a ++ b ++ BitVec.ofBool w ++ 0#6)
  | .amoswap d a b w => some (153#10 ++ d ++ a ++ b ++ BitVec.ofBool w ++ 0#6)
  | .amocas d a b w => some (154#10 ++ d ++ a ++ b ++ BitVec.ofBool w ++ 0#6)
  | .amologic d a b w o => some (155#10 ++ d ++ a ++ b ++ BitVec.ofBool w ++ 0#4 ++ o)
  | .amominmax d a b w o => some (156#10 ++ d ++ a ++ b ++ BitVec.ofBool w ++ 0#4 ++ o)
  | .amofadd d a b => some (157#10 ++ d ++ a ++ b ++ 0#1 ++ 0#6)
  | .flagwait a b => some (160#10 ++ 0#5 ++ a ++ b ++ 0#7)
  | .flaginc a b => some (161#10 ++ 0#5 ++ a ++ b ++ 0#7)
  | .flagset a b => some (162#10 ++ 0#5 ++ a ++ b ++ 0#7)
  | .flagread d a => some (163#10 ++ d ++ a ++ 0#5 ++ 0#7)
  | .bararm a b => some (164#10 ++ 0#5 ++ a ++ b ++ 0#7)
  | .barwait a => some (165#10 ++ 0#5 ++ a ++ 0#5 ++ 0#7)
  | .copy a b k q => some (168#10 ++ 0#5 ++ a ++ b ++ k ++ q)
  | .copy2d a b k q => some (169#10 ++ 0#5 ++ a ++ b ++ k ++ q)
  | .gather a b k q => some (170#10 ++ 0#5 ++ a ++ b ++ k ++ q)
  | .scatter a b k q => some (171#10 ++ 0#5 ++ a ++ b ++ k ++ q)
  | .xfer a b k q => some (172#10 ++ 0#5 ++ a ++ b ++ k ++ q)
  | .xferm a b k q => some (173#10 ++ 0#5 ++ a ++ b ++ k ++ q)
  | .notify a k q => some (174#10 ++ 0#5 ++ a ++ 0#5 ++ k ++ q)
  | .mapinst a b => some (176#10 ++ 0#5 ++ a ++ b ++ 0#7)
  | .mapswap a b => some (177#10 ++ 0#5 ++ a ++ b ++ 0#7)
  | .mapret b => some (178#10 ++ 0#5 ++ 0#5 ++ b ++ 0#7)
  | .mapq d b => some (179#10 ++ d ++ 0#5 ++ b ++ 0#7)
  | .fencex m n => some (180#10 ++ 0#5 ++ 0#5 ++ m ++ n)
  | .mark d m => some (181#10 ++ d ++ 0#5 ++ m ++ 0#6)
  | .join a n => some (182#10 ++ 0#5 ++ a ++ 0#6 ++ n)
  | .rld a b s => some (184#10 ++ 0#5 ++ a ++ b ++ 0#3 ++ s)
  | .rst a b f s => some (185#10 ++ 0#5 ++ a ++ b ++ 0#2 ++ BitVec.ofBool f ++ s)
  | .rstf a b o f s => some (186#10 ++ 0#5 ++ a ++ b ++ 0#1 ++ BitVec.ofBool o ++ BitVec.ofBool f ++ s)
  | .ramo a b f s => some (187#10 ++ 0#5 ++ a ++ b ++ 0#2 ++ BitVec.ofBool f ++ s)
  | .tidset a t => some (192#10 ++ 0#5 ++ a ++ t ++ 0#4)
  | .tidinv t => some (193#10 ++ 0#5 ++ 0#5 ++ t ++ 0#4)
  | .tidget a t => some (194#10 ++ 0#5 ++ a ++ t ++ 0#4)
  | .tlbinv a s => some (200#10 ++ 0#5 ++ a ++ 0#5 ++ s)
  | .asidset a => some (201#10 ++ 0#5 ++ a ++ 0#12)
  | .vaddF d a b m => some (256#10 ++ d.bits ++ a.bits ++ b.bits ++ BitVec.ofBool m)
  | .vsubF d a b m => some (257#10 ++ d.bits ++ a.bits ++ b.bits ++ BitVec.ofBool m)
  | .vmulF d a b m => some (258#10 ++ d.bits ++ a.bits ++ b.bits ++ BitVec.ofBool m)
  | .vfmaF d a b m => some (259#10 ++ d.bits ++ a.bits ++ b.bits ++ BitVec.ofBool m)
  | .vfmsF d a b m => some (260#10 ++ d.bits ++ a.bits ++ b.bits ++ BitVec.ofBool m)
  | .vminF d a b m => some (261#10 ++ d.bits ++ a.bits ++ b.bits ++ BitVec.ofBool m)
  | .vmaxF d a b m => some (262#10 ++ d.bits ++ a.bits ++ b.bits ++ BitVec.ofBool m)
  | .vabsF d a m => some (263#10 ++ d.bits ++ a.bits ++ 0#7 ++ BitVec.ofBool m)
  | .vnegF d a m => some (264#10 ++ d.bits ++ a.bits ++ 0#7 ++ BitVec.ofBool m)
  | .vcmpF r k a b m => some (265#10 ++ r ++ k ++ a.bits ++ b.bits ++ BitVec.ofBool m)
  | .vaddB d a b m => some (272#10 ++ d.bits ++ a.bits ++ b.bits ++ BitVec.ofBool m)
  | .vsubB d a b m => some (273#10 ++ d.bits ++ a.bits ++ b.bits ++ BitVec.ofBool m)
  | .vmulB d a b m => some (274#10 ++ d.bits ++ a.bits ++ b.bits ++ BitVec.ofBool m)
  | .vfmaB d a b m => some (275#10 ++ d.bits ++ a.bits ++ b.bits ++ BitVec.ofBool m)
  | .vfmsB d a b m => some (276#10 ++ d.bits ++ a.bits ++ b.bits ++ BitVec.ofBool m)
  | .vminB d a b m => some (277#10 ++ d.bits ++ a.bits ++ b.bits ++ BitVec.ofBool m)
  | .vmaxB d a b m => some (278#10 ++ d.bits ++ a.bits ++ b.bits ++ BitVec.ofBool m)
  | .vaddI d a b m => some (288#10 ++ d.bits ++ a.bits ++ b.bits ++ BitVec.ofBool m)
  | .vsubI d a b m => some (289#10 ++ d.bits ++ a.bits ++ b.bits ++ BitVec.ofBool m)
  | .vmulI d a b m => some (290#10 ++ d.bits ++ a.bits ++ b.bits ++ BitVec.ofBool m)
  | .vminI d a b m => some (291#10 ++ d.bits ++ a.bits ++ b.bits ++ BitVec.ofBool m)
  | .vmaxI d a b m => some (292#10 ++ d.bits ++ a.bits ++ b.bits ++ BitVec.ofBool m)
  | .vand d a b m => some (293#10 ++ d.bits ++ a.bits ++ b.bits ++ BitVec.ofBool m)
  | .vor d a b m => some (294#10 ++ d.bits ++ a.bits ++ b.bits ++ BitVec.ofBool m)
  | .vxor d a b m => some (295#10 ++ d.bits ++ a.bits ++ b.bits ++ BitVec.ofBool m)
  | .vshl d a b m => some (296#10 ++ d.bits ++ a.bits ++ b.bits ++ BitVec.ofBool m)
  | .vshr d a b m => some (297#10 ++ d.bits ++ a.bits ++ b.bits ++ BitVec.ofBool m)
  | .vsar d a b m => some (298#10 ++ d.bits ++ a.bits ++ b.bits ++ BitVec.ofBool m)
  | .vcmpI r k a b m => some (299#10 ++ r ++ k ++ a.bits ++ b.bits ++ BitVec.ofBool m)
  | .vrcp d a m => some (304#10 ++ d.bits ++ a.bits ++ 0#7 ++ BitVec.ofBool m)
  | .vrsqrt d a m => some (305#10 ++ d.bits ++ a.bits ++ 0#7 ++ BitVec.ofBool m)
  | .vexp2 d a m => some (306#10 ++ d.bits ++ a.bits ++ 0#7 ++ BitVec.ofBool m)
  | .vlog2 d a m => some (307#10 ++ d.bits ++ a.bits ++ 0#7 ++ BitVec.ofBool m)
  | .vtanh d a m => some (308#10 ++ d.bits ++ a.bits ++ 0#7 ++ BitVec.ofBool m)
  | .vredsum d a t x m => some (312#10 ++ d.bits ++ a.bits ++ 0#5 ++ BitVec.ofBool t ++ BitVec.ofBool x ++ BitVec.ofBool m)
  | .vredmax d a t x m => some (313#10 ++ d.bits ++ a.bits ++ 0#5 ++ BitVec.ofBool t ++ BitVec.ofBool x ++ BitVec.ofBool m)
  | .vmov d a m => some (320#10 ++ d.bits ++ a.bits ++ 0#7 ++ BitVec.ofBool m)
  | .vbcast d q => some (321#10 ++ d.bits ++ q ++ 0#6 ++ 0#5)
  | .vtrans d a => some (322#10 ++ d.bits ++ a.bits ++ 0#7 ++ 0#1)
  | .vsel d a b => some (323#10 ++ d.bits ++ a.bits ++ b.bits ++ 1#1)
  | .vshift d a x f n => some (324#10 ++ d.bits ++ a.bits ++ BitVec.ofBool x ++ BitVec.ofBool f ++ n)
  | .viota d i => some (325#10 ++ d.bits ++ 0#7 ++ i)
  | .vpop d q c => some (328#10 ++ d.bits ++ q ++ c ++ 0#5)
  | .vpush s q c => some (329#10 ++ s.bits ++ q ++ c ++ 0#5)
  | .vpushx s q => some (330#10 ++ s.bits ++ q ++ 0#6 ++ 0#5)
  | .vunpE4 d a p => some (336#10 ++ d.bits ++ a.bits ++ 0#5 ++ p)
  | .vunpE5 d a p => some (337#10 ++ d.bits ++ a.bits ++ 0#5 ++ p)
  | .vunpI8 d a p => some (338#10 ++ d.bits ++ a.bits ++ 0#5 ++ p)
  | .vunpH d a p => some (339#10 ++ d.bits ++ a.bits ++ 0#5 ++ p)
  | .vunpQ4 d a s p => some (340#10 ++ d.bits ++ a.bits ++ s ++ p)
  | .vpackE4 d a t r p => some (341#10 ++ d.bits ++ a.bits ++ 0#2 ++ BitVec.ofBool t ++ r.bits ++ p)
  | .vpackE5 d a t r p => some (342#10 ++ d.bits ++ a.bits ++ 0#2 ++ BitVec.ofBool t ++ r.bits ++ p)
  | .vpackI8 d a t r p => some (343#10 ++ d.bits ++ a.bits ++ 0#2 ++ BitVec.ofBool t ++ r.bits ++ p)
  | .vpackH d a t r p => some (344#10 ++ d.bits ++ a.bits ++ 0#2 ++ BitVec.ofBool t ++ r.bits ++ p)
  | .vpackB d a t r p => some (345#10 ++ d.bits ++ a.bits ++ 0#2 ++ BitVec.ofBool t ++ r.bits ++ p)
  | .vcvtFi d a => some (346#10 ++ d.bits ++ a.bits ++ 0#8)
  | .vcvtIf d a => some (347#10 ++ d.bits ++ a.bits ++ 0#8)
  | .vshape r c => some (352#10 ++ r ++ c ++ 0#8)
  | .vcur r c g => some (353#10 ++ r ++ c ++ g)
  | .vrbset n => some (354#10 ++ 0#14 ++ n)
  | .vpark s => some (360#10 ++ s.bits ++ 0#7 ++ 0#7 ++ 0#1)
  | .vunpark d => some (361#10 ++ d.bits ++ 0#7 ++ 0#7 ++ 0#1)
  | .kand d a b => some (368#10 ++ 0#2 ++ d ++ 0#2 ++ a ++ 0#2 ++ b ++ 0#1)
  | .kor d a b => some (369#10 ++ 0#2 ++ d ++ 0#2 ++ a ++ 0#2 ++ b ++ 0#1)
  | .knot d a => some (370#10 ++ 0#2 ++ d ++ 0#2 ++ a ++ 0#7 ++ 0#1)
  | .kmov d a => some (371#10 ++ 0#2 ++ d ++ 0#2 ++ a ++ 0#7 ++ 0#1)
  | .kcnt a => some (372#10 ++ 0#7 ++ 0#2 ++ a ++ 0#7 ++ 0#1)
  | .lease n => some (384#10 ++ 0#4 ++ n)
  | .lrel => some (385#10 ++ 0#22)
  | .mset c f v => some (388#10 ++ c ++ f ++ v)
  | .maddc c f v => some (389#10 ++ c ++ f ++ v)
  | .mpopc c => some (390#10 ++ c ++ 0#18)
  | .mpush c => some (391#10 ++ c ++ 0#18)
  | .mshape f v => some (392#10 ++ 0#4 ++ f ++ v)
  | .mma x y c m => some (400#10 ++ x ++ y ++ c ++ m)
  | .mmas x y c m => some (401#10 ++ x ++ y ++ c ++ m)
  | .rclose c => some (408#10 ++ c ++ 0#18)
  | .rdrop => some (409#10 ++ 0#22)
  | .rwaitFree => some (410#10 ++ 0#4 ++ 0#2 ++ 0#16)
  | .rwaitSlot s => some (410#10 ++ 0#4 ++ 1#2 ++ 0#13 ++ s)
  | .cbound r => some (416#10 ++ 0#4 ++ r)
  | .cord c => some (417#10 ++ c ++ 0#18)
  | .cstep => some (418#10 ++ 0#22)
  | .chain n => some (419#10 ++ 0#4 ++ n)
  | .bdset k v => some (420#10 ++ k ++ 0#2 ++ v)
  | .cinit x c => some (421#10 ++ x ++ 0#8 ++ c ++ 0#2)
  | .cemit => some (422#10 ++ 0#22)
  | .mnotify => some (424#10 ++ 0#22)
  | .systemCoreInstruction _ => none
  | .reservedWord w _ => some w
  | .extWord imm => some (5#3 ++ imm)
  | .stageChangeComplete _ => none
  | .powerDown => none

/-- Whether an instruction is a word of program text that has an encoding of its own. -/
def Instr.isWord : Instr → Bool
  | .powerUp _ => false
  | .islandClockChange _ _ => false
  | .launchPortStore _ _ => false
  | .walkerDispatch => false
  | .preemptRequest => false
  | .contextSaveDone => false
  | .iterationRetirement => false
  | .retirementMessage => false
  | .nodeCompletion => false
  | .releaseWrite _ => false
  | .engineStallWatchdog => false
  | .regionRollback _ => false
  | .sfuResultLand => false
  | .flagwaitSatisfied => false
  | .barrierDecrement _ _ => false
  | .commandCompletion _ => false
  | .commandStall _ => false
  | .notifyComplete _ => false
  | .mapDrainComplete => false
  | .transferPacket _ _ => false
  | .shareRefill => false
  | .ptsTick _ => false
  | .turnGrant => false
  | .turnTimeLimit => false
  | .turnEndBudget => false
  | .matrixCommandComplete => false
  | .rakeStart => false
  | .rakeOutputPerformed => false
  | .rakeStall => false
  | .mnotifyComplete => false
  | .chainRecordComplete => false
  | .resumeEngine _ => false
  | .terminate => false
  | .resumeQueue _ => false
  | .failQueueCommand _ => false
  | .resumeRake => false
  | .failRakeSlot => false
  | .vfTeardown => false
  | .teardownTimeout => false
  | .lcapWrite _ => false
  | .swayStageSet _ _ => false
  | .swayStageClear _ _ => false
  | .frameassign _ => false
  | .framerelease => false
  | .scrubComplete => false
  | .flitReceive _ _ _ _ => false
  | .laneWindowEnd _ _ _ => false
  | .leaveRequest _ _ => false
  | .returnRequest _ _ => false
  | .laneTrialWindow _ _ _ => false
  | .laneLossOfLock _ _ => false
  | .laneRetry _ _ => false
  | .peerLost => false
  | .rldRequest => false
  | .rldReply => false
  | .rstArrival => false
  | .rstfArrival => false
  | .ramoRequest => false
  | .ramoReply => false
  | .sack => false
  | .flush => false
  | .fail => false
  | .relayedRequest => false
  | .ownerset => false
  | .migack => false
  | .redirect => false
  | .redirectApply => false
  | .reresolve => false
  | .pagedata => false
  | .performed => false
  | .close => false
  | .abort => false
  | .stubLifetimeExpiry => false
  | .demote _ => false
  | .demoteComplete => false
  | .move _ => false
  | .retire _ => false
  | .thaw _ => false
  | .promotionComplete => false
  | .dbgStop => false
  | .dbgResume _ => false
  | .dbgStep _ => false
  | .debugStepEnd => false
  | .breakpointHit => false
  | .debugImageWritten => false
  | .psessWrite _ => false
  | .networkArrival _ _ => false
  | .storageCompletion _ _ => false
  | .interruptTaken _ _ => false
  | .extend => false
  | .attest => false
  | .mailboxCommandDone => false
  | .registerWrite _ _ => false
  | .br _ => true
  | .brc _ _ _ _ => true
  | .loop _ _ _ => true
  | .loopr _ _ _ => true
  | .call _ => true
  | .ret => true
  | .rgn => true
  | .tok _ _ _ => true
  | .endw => true
  | .brx _ _ => true
  | .nop => true
  | .add _ _ _ => true
  | .sub _ _ _ => true
  | .mul _ _ _ => true
  | .mulh _ _ _ => true
  | .mulhu _ _ _ => true
  | .div _ _ _ => true
  | .divu _ _ _ => true
  | .rem _ _ _ => true
  | .remu _ _ _ => true
  | .and _ _ _ => true
  | .or _ _ _ => true
  | .xor _ _ _ => true
  | .andn _ _ _ => true
  | .shl _ _ _ => true
  | .shr _ _ _ => true
  | .sar _ _ _ => true
  | .rol _ _ _ => true
  | .min _ _ _ => true
  | .max _ _ _ => true
  | .minu _ _ _ => true
  | .maxu _ _ _ => true
  | .slt _ _ _ => true
  | .sltu _ _ _ => true
  | .seq _ _ _ => true
  | .sne _ _ _ => true
  | .clz _ _ => true
  | .ctz _ _ => true
  | .popc _ _ => true
  | .sel _ _ _ _ => true
  | .addi _ _ _ => true
  | .andi _ _ _ => true
  | .ori _ _ _ => true
  | .xori _ _ _ => true
  | .shli _ _ _ => true
  | .shri _ _ _ => true
  | .sari _ _ _ => true
  | .slti _ _ _ => true
  | .lui _ _ => true
  | .fadd _ _ _ => true
  | .fsub _ _ _ => true
  | .fmul _ _ _ => true
  | .ffma _ _ _ => true
  | .fmin _ _ _ => true
  | .fmax _ _ _ => true
  | .fcmp _ _ _ _ => true
  | .fcvtToInt _ _ => true
  | .fcvtToFp _ _ => true
  | .pop _ _ => true
  | .push _ _ => true
  | .qstat _ _ => true
  | .evpop _ => true
  | .evpeek _ => true
  | .evcnt _ => true
  | .launch _ _ => true
  | .csrr _ _ => true
  | .csrw _ _ => true
  | .csrs _ _ _ => true
  | .csrc _ _ _ => true
  | .trap _ => true
  | .eret => true
  | .wfe => true
  | .anop => true
  | .aadd _ _ _ => true
  | .asub _ _ _ => true
  | .amul _ _ _ => true
  | .ashl _ _ _ => true
  | .ashr _ _ _ => true
  | .aand _ _ _ => true
  | .amin _ _ _ => true
  | .amax _ _ _ => true
  | .aslt _ _ _ => true
  | .aaddi _ _ _ => true
  | .alui _ _ => true
  | .aandi _ _ _ => true
  | .ashli _ _ _ => true
  | .ld _ _ _ _ _ => true
  | .ldq _ _ _ _ _ => true
  | .ldv _ _ _ => true
  | .st _ _ _ _ => true
  | .stq _ _ _ _ => true
  | .stv _ _ _ => true
  | .pref _ _ _ _ => true
  | .amoadd _ _ _ _ => true
  | .amoswap _ _ _ _ => true
  | .amocas _ _ _ _ => true
  | .amologic _ _ _ _ _ => true
  | .amominmax _ _ _ _ _ => true
  | .amofadd _ _ _ => true
  | .flagwait _ _ => true
  | .flaginc _ _ => true
  | .flagset _ _ => true
  | .flagread _ _ => true
  | .bararm _ _ => true
  | .barwait _ => true
  | .copy _ _ _ _ => true
  | .copy2d _ _ _ _ => true
  | .gather _ _ _ _ => true
  | .scatter _ _ _ _ => true
  | .xfer _ _ _ _ => true
  | .xferm _ _ _ _ => true
  | .notify _ _ _ => true
  | .mapinst _ _ => true
  | .mapswap _ _ => true
  | .mapret _ => true
  | .mapq _ _ => true
  | .fencex _ _ => true
  | .mark _ _ => true
  | .join _ _ => true
  | .rld _ _ _ => true
  | .rst _ _ _ _ => true
  | .rstf _ _ _ _ _ => true
  | .ramo _ _ _ _ => true
  | .tidset _ _ => true
  | .tidinv _ => true
  | .tidget _ _ => true
  | .tlbinv _ _ => true
  | .asidset _ => true
  | .vaddF _ _ _ _ => true
  | .vsubF _ _ _ _ => true
  | .vmulF _ _ _ _ => true
  | .vfmaF _ _ _ _ => true
  | .vfmsF _ _ _ _ => true
  | .vminF _ _ _ _ => true
  | .vmaxF _ _ _ _ => true
  | .vabsF _ _ _ => true
  | .vnegF _ _ _ => true
  | .vcmpF _ _ _ _ _ => true
  | .vaddB _ _ _ _ => true
  | .vsubB _ _ _ _ => true
  | .vmulB _ _ _ _ => true
  | .vfmaB _ _ _ _ => true
  | .vfmsB _ _ _ _ => true
  | .vminB _ _ _ _ => true
  | .vmaxB _ _ _ _ => true
  | .vaddI _ _ _ _ => true
  | .vsubI _ _ _ _ => true
  | .vmulI _ _ _ _ => true
  | .vminI _ _ _ _ => true
  | .vmaxI _ _ _ _ => true
  | .vand _ _ _ _ => true
  | .vor _ _ _ _ => true
  | .vxor _ _ _ _ => true
  | .vshl _ _ _ _ => true
  | .vshr _ _ _ _ => true
  | .vsar _ _ _ _ => true
  | .vcmpI _ _ _ _ _ => true
  | .vrcp _ _ _ => true
  | .vrsqrt _ _ _ => true
  | .vexp2 _ _ _ => true
  | .vlog2 _ _ _ => true
  | .vtanh _ _ _ => true
  | .vredsum _ _ _ _ _ => true
  | .vredmax _ _ _ _ _ => true
  | .vmov _ _ _ => true
  | .vbcast _ _ => true
  | .vtrans _ _ => true
  | .vsel _ _ _ => true
  | .vshift _ _ _ _ _ => true
  | .viota _ _ => true
  | .vpop _ _ _ => true
  | .vpush _ _ _ => true
  | .vpushx _ _ => true
  | .vunpE4 _ _ _ => true
  | .vunpE5 _ _ _ => true
  | .vunpI8 _ _ _ => true
  | .vunpH _ _ _ => true
  | .vunpQ4 _ _ _ _ => true
  | .vpackE4 _ _ _ _ _ => true
  | .vpackE5 _ _ _ _ _ => true
  | .vpackI8 _ _ _ _ _ => true
  | .vpackH _ _ _ _ _ => true
  | .vpackB _ _ _ _ _ => true
  | .vcvtFi _ _ => true
  | .vcvtIf _ _ => true
  | .vshape _ _ => true
  | .vcur _ _ _ => true
  | .vrbset _ => true
  | .vpark _ => true
  | .vunpark _ => true
  | .kand _ _ _ => true
  | .kor _ _ _ => true
  | .knot _ _ => true
  | .kmov _ _ => true
  | .kcnt _ => true
  | .lease _ => true
  | .lrel => true
  | .mset _ _ _ => true
  | .maddc _ _ _ => true
  | .mpopc _ => true
  | .mpush _ => true
  | .mshape _ _ => true
  | .mma _ _ _ _ => true
  | .mmas _ _ _ _ => true
  | .rclose _ => true
  | .rdrop => true
  | .rwaitFree => true
  | .rwaitSlot _ => true
  | .cbound _ => true
  | .cord _ => true
  | .cstep => true
  | .chain _ => true
  | .bdset _ _ => true
  | .cinit _ _ => true
  | .cemit => true
  | .mnotify => true
  | .systemCoreInstruction _ => false
  | .reservedWord _ _ => false
  | .extWord _ => true
  | .stageChangeComplete _ => false
  | .powerDown => false

end Sys2Proof
end

