-- ==== Sys2Proof/Machine/Walk.lean ====
section
/-! DEFINITION. How an engine walks a word (R57 to R62, R114, R175, R315, R318, R335, R363): whether it may, fetching,
skipping, completing, and what a trap, a fault or a wait does to it. -/

namespace Sys2Proof.Machine

/-- Where a word is walked: tile, engine, address, and whether a user-trap handler walks it. -/
structure At where
  t    : Nat
  e    : Eng
  pc   : Dword
  hand : Bool

/-- Whether an engine may walk its next word: at an address; or not, because of the slip window (R62) or because M is held
after ERET (R335); or not at all. -/
inductive Ready where
  | go (pc : Dword) (hand : Bool)
  | slip
  | hold
  | no
  deriving DecidableEq, Repr

/-- The smallest of the four walk counts (R62). -/
def TCore.trailing (c : TCore) : Nat := Eng.all.foldl (fun m e => min m (c.engine e).walk.toNat) (c.engine .x).walk.toNat

/-- Whether breakpoint k hits for an engine about to walk the word at an address (R363). -/
def bpHits (y : Tile) (e : Eng) (pc : Dword) (k : Nat) : Bool :=
  let ctl := vget y.dbg.bpctl 0 k
  let m := bitsN ctl 61 2
  let pcOk := bitsN ctl 2 53 * 4 == pc.toNat
  let hand := y.core.trap.hand.isSome
  let wkOk := (vget y.dbg.bpwalk 0 k) == (y.core.engine e).walk + 1
  ctl.getLsbD 63 && bitsN ctl 59 2 == e.idx.val &&
    (if hand then m == 1 && e == .x && pcOk else (m == 1 && pcOk) || (m == 2 && wkOk) || (m == 3 && pcOk && wkOk))

/-- The breakpoints that hit for an engine, as BPHIT bits; none at the word at which the last stop fell (R363). -/
def bpMask (y : Tile) (e : Eng) (pc : Dword) : Nat :=
  if y.core.skip.contains (e, pc) then 0
  else (List.range 4).foldl (fun a k => a + b2n (bpHits y e pc k) * 2 ^ k) 0

/-- Whether a debug stop holds the tile, or, during a STEP, holds the engine that has had its cycle (R360, R361). -/
def Dbg.holds (g : Dbg) (e : Eng) : Bool :=
  g.stopped || g.pending || (match g.step with | some l => l.contains e | none => false)

/-- Whether an engine of a tile may walk, and where it stands. -/
def ready (d : Dev) (t : Nat) (e : Eng) : Ready :=
  let y := d.tile t
  let c := y.core
  let g := c.engine e
  if !y.running || y.saving || c.trap.undel || c.trap.stuck || y.dbg.holds e || g.halted then .no
  else match c.trap.hand with
    | some h => if e = .x then (if bpMask y e h.pc = 0 then .go h.pc true else .no) else .no
    | none =>
      if g.stopped then .no
      else if e = .m && c.trap.mHold && !c.q.xa.isEmpty then .hold
      else if c.csr.win.toNat + c.trailing < g.walk.toNat + 1 then .slip
      else if bpMask y e g.pc != 0 then .no
      else .go g.pc false

/-- Whether an engine stands behind an ASIDSET that A has not executed yet, so that the ASID of its words is not known (R163). -/
def TCore.asidOpen (c : TCore) (e : Eng) : Bool :=
  c.asidDue.any fun w => decide (w.toNat < (c.engine e).walk.toNat) && decide ((c.engine .a).walk.toNat ≤ w.toNat)

/-- A tile's instruction cache keeps a copy of a line (R3, R61): 512 lines, and an earlier copy of the line may still be fetched. How it is
organised is not given: any line may take any place, and a full one drops the copy filled first (DESIGN CHOICE, unsafe: log entry 95). -/
def Tile.icPut (y : Tile) (c : ICopy) : Tile :=
  if y.icache.contains c then y else { y with icache := (c :: y.icache).take 512 }

/-- A word of text at a physical address, from a copy of its line that the tile holds or from the home, whose line is then kept (R61);
a line sent for costs one share token (R269). -/
def fetchLine (env : Env) (d : Dev) (t : Nat) (vf : BitVec 10) (cls : BitVec 4) (pa : Nat) : Res Word :=
  let held := match (d.tile t).icache.filter fun c => c.line == pa / 128 with
    | [] => none
    | c :: r => (c :: r)[Config.icPick env.tick pa]?
  match held with
  | some c => .ok (BitVec.ofNat 32 (c.val.toNat / 256 ^ (pa % 128))) d
  | none =>
    match payToken d t (.hbm pa) with
    | none => .wait Wait.share d
    | some d1 =>
      let (b, d2) := loadAt env d1 .none vf cls (.hbm (pa / 128 * 128)) 128
      .ok (BitVec.ofNat 32 (leNat ((b.drop (pa % 128)).take 4)))
        (d2.onTile t fun y => y.icPut ⟨pa / 128, BitVec.ofNat 1024 (leNat b)⟩)

/-- The word at an address, as an engine of the tile fetches it under the ASID of its walk count (R61, R163). A PC that is no
multiple of 4, which a context or a debug image alone can hold, names the four bytes there (DESIGN CHOICE, unsafe: log entry 72). -/
def fetchAt (env : Env) (d : Dev) (t : Nat) (e : Eng) (pc : Dword) : Res Word :=
  if (d.tile t).core.asidOpen e then .wait Wait.idle d else
  (locate env d (whoEng d t e) { fetch := true } pc).bind fun (loc, cls) d1 =>
    match loc with
    | .hbm pa =>
      if pa % 128 ≤ 124 then fetchLine env d1 t (d1.tile t).core.csr.vfid cls pa
      else .ok (BitVec.ofNat 32 (leNat (getBytes d1 loc 4))) d1
    | .spad _ _ => .ok (BitVec.ofNat 32 (leNat (getBytes d1 loc 4))) d1
    | .staging _ _ => .ok (BitVec.ofNat 32 (leNat (getBytes d1 loc 4))) d1
    | .port _ => .ok (BitVec.ofNat 32 (leNat (getBytes d1 loc 4))) d1

/-- The word at an address if it can be fetched: a look ahead for EXT words (R59). -/
def peekAt (env : Env) (d : Dev) (t : Nat) (e : Eng) (pc : Dword) : Option Word :=
  match fetchAt env d t e pc with
  | .ok w _ => some w
  | .wait _ _ => none
  | .trap _ _ _ _ _ => none
  | .sys _ _ => none
  | .roll _ => none

/-- Whether a word is an EXT word (R58). -/
def isExt (w : Word) : Bool := (w.extractLsb' 29 3).toNat == 5

/-- One V issue cycle (R175, R176): every pending result comes one cycle nearer, and those due are written, in walk order. -/
def issueTick (c : TCore) : TCore :=
  if c.sfu.toList.all (·.isNone) then c else
  let live := (c.sfu.toList.filterMap id).map fun r => { r with rem := r.rem - 1 }
  let land (c : TCore) (r : Sfu) : TCore :=
    let old := vget c.regs.v (Vector.replicate 512 0) r.preg.toNat
    let new : VReg := Vector.ofFn fun i => if r.act.getLsbD i.val then r.data[i] else old[i]
    { c with regs := { c.regs with v := vset c.regs.v r.preg.toNat new }, csr := { c.csr with vflags := c.csr.vflags ||| r.flags } }
  let due := live.filter fun r => r.rem == 0
  let rest := live.filter fun r => r.rem != 0
  let c1 := due.foldl land c
  { c1 with sfu := Vector.ofFn fun i => rest[i.val]? }

/-- An engine has walked a word: it goes on at the next PC, its walk count rises (not in a handler, R114), and it waits no
more. -/
def walkTo (d0 : Dev) (a : At) (next : Dword) (p : Prev) : Dev :=
  (countEv d0 a.t (d0.tile a.t).core.csr.vfid 2 1).onTile a.t fun y =>
    { y with
      dbg := { y.dbg with step := y.dbg.step.map (a.e :: ·) }
      core :=
        let c := { y.core with
          stall := 0, skip := y.core.skip.filter fun x => x.1 != a.e || (a.hand && x.2 != a.pc) }
        if a.hand then
          { c with trap := { c.trap with hand := c.trap.hand.map fun h => { h with pc := next, prev := p, wait := none } } }
        else
          { c.onEng a.e fun x => { x with pc := next, walk := x.walk + 1, wait := none, prev := p } with
            trap := if a.e = .m then { c.trap with mHold := false } else c.trap } }

/-- An engine waits at its word. -/
def setWait (d : Dev) (a : At) (w : Wait) : Dev :=
  d.onTile a.t fun y =>
    let g := y.dbg
    { y with
      dbg := { g with step := g.step.map (a.e :: ·) }
      core := if a.hand then
          { y.core with trap := { y.core.trap with hand := y.core.trap.hand.map fun h => { h with wait := some w } } }
        else y.core.onEng a.e fun x => { x with wait := some w } }

/-- On whose behalf an engine made the access at its word that met a system fault (R236). -/
def whoHalt (d : Dev) (t : Nat) : Eng → Who
  | .a => whoTile d t
  | .m => whoM d t
  | .x => whoEng d t .x
  | .v => whoEng d t .v

/-- What the outcome of a word does to the engine that walked it; a done word says where it goes on, and what word it was for
an EXT word behind it. -/
def finish (env : Env) (d : Dev) (a : At) (word : Word) (r : Res (Dword × Prev)) : Dev :=
  match r with
  | .ok x d1 => walkTo d1 a x.1 x.2
  | .wait w d1 => setWait (if a.e = .v && !w.tick then { d with mig := d1.mig, tlb := d1.tlb } else d1) a w
  | .trap c i0 i1 i2 i3 => enterTrap env d a.t a.e a.pc c i0 i1 i2 i3
  | .sys c va => haltEngine env d (whoHalt d a.t a.e) a.t a.e a.pc word c va
  | .roll c => rollback env d a.t a.e c

/-- The device as V finds it when it walks a word: the issue cycle of the word has been counted (R175). -/
def issued (d : Dev) (a : At) : Dev := if a.e = .v && !a.hand then d.onCore a.t issueTick else d

/-- A word of one engine (R58): its owner executes it, the others step over it (`skip` says what the tile notes then). A
handler's X steps over the words of the other engines (R114). -/
def engineWord (own : Eng) (i : Instr) (f : At → Dev → Res Unit) (skip : Eng → TCore → TCore) (env : Env) (d : Dev) : Dev :=
  match ready d env.unit env.eng with
  | .no => d
  | .slip => setWait d ⟨env.unit, env.eng, 0, false⟩ { code := 4 }
  | .hold => setWait d ⟨env.unit, env.eng, 0, false⟩ { code := 2, detail := 1 }
  | .go pc hand =>
    let a : At := ⟨env.unit, env.eng, pc, hand⟩
    let d1 := issued d a
    if env.eng = own then
      finish env d a ((encode i).getD 0) ((f a d1).bind fun _ d2 => .ok (pc + 4, .other own) d2)
    else walkTo (d1.onCore a.t (skip env.eng)) a (pc + 4) (.other own)

/-- A C word (R58, R114): every engine that reaches it acts, and says where it goes on. -/
def controlWord (i : Instr) (f : At → Dev → Res Dword) (env : Env) (d : Dev) : Dev :=
  match ready d env.unit env.eng with
  | .no => d
  | .slip => setWait d ⟨env.unit, env.eng, 0, false⟩ { code := 4 }
  | .hold => setWait d ⟨env.unit, env.eng, 0, false⟩ { code := 2, detail := 1 }
  | .go pc hand =>
    let a : At := ⟨env.unit, env.eng, pc, hand⟩
    finish env d a ((encode i).getD 0) ((f a (issued d a)).bind fun next d2 => .ok (next, .c) d2)

/-- A word that acts on what belongs to the iteration alone: registers, queues, control registers. -/
def coreWord (own : Eng) (i : Instr) (f : TCore → TCore) (env : Env) (d : Dev) : Dev :=
  engineWord own i (fun a d1 => .ok () (d1.onCore a.t f)) (fun _ c => c) env d

/-- Kinds of decoding fault as TINFO1 reports them (R101). -/
def badCode : BadWord → Nat
  | .reservedTag => 0
  | .unassigned => 1
  | .fieldValue => 2
  | .reservedBits => 3
  | .extIllegal => 4
  | .extThird => 5

/-- ILLEGAL_WORD (R101). (DEDUCED, unsafe: log entry 44) -/
def illegal {α : Type} (w : Word) (k : Nat) : Res α := .trap 0x01 (zx w) (dw k) 0 0

/-- QUEUE_PROTOCOL on a queue (R70). (DEDUCED, unsafe: log entry 58) -/
def queueProtocol {α : Type} (q : Nat) : Res α := .trap 0x07 (dw q) 0 0 0

/-- Waiting to read an empty queue (R75 code 1). -/
def waitEmpty {α : Type} (q : Nat) (d : Dev) : Res α := .wait { code := 1, detail := BitVec.ofNat 8 q } d

/-- Waiting to write a full queue (R75 code 2). -/
def waitFull {α : Type} (q : Nat) (d : Dev) : Res α := .wait { code := 2, detail := BitVec.ofNat 8 q } d

end Sys2Proof.Machine
end

