-- ==== Sys2Proof/Machine/Control.lean ====
section
/-! DEFINITION. The C words, EXT words and reserved words (R59, R60, R64 to R68, R72, R73, R91, R106 to R114). -/

namespace Sys2Proof.Machine

/-- The address n words from a branch word (R93). -/
def branchTo {w : Nat} (pc : Dword) (off : BitVec w) : Dword := pc + dwI (4 * off.toInt)

/-- A change to the engine that walks a word. -/
def onEngine (d : Dev) (a : At) (f : Engine → Engine) : Dev := d.onCore a.t fun c => c.onEng a.e f

/-- The return stack a word works on: the engine's, or the handler's (R67, R114). -/
def retStack (d : Dev) (a : At) : List Dword :=
  let c := (d.tile a.t).core
  if a.hand then (c.trap.hand.map (·.ret)).getD [] else (c.engine a.e).ret

/-- Replace that return stack. -/
def setRetStack (d : Dev) (a : At) (l : List Dword) : Dev :=
  if a.hand then d.onCore a.t fun c => { c with trap := { c.trap with hand := c.trap.hand.map fun h => { h with ret := l } } }
  else onEngine d a fun g => { g with ret := l }

/-- BR (R107). -/
def execBr (o : BitVec 22) (s : State) : Host.Outcome State Fault Refusal :=
  s.run (controlWord (.br o) fun a d => .ok (branchTo a.pc o) d)

/-- CALL: a ninth entry traps RETURN_STACK (R67, R107). -/
def callWord (o : BitVec 22) (a : At) (d : Dev) : Res Dword :=
  if 8 ≤ (retStack d a).length then .trap 0x08 0 0 0 0
  else .ok (branchTo a.pc o) (setRetStack d a ((a.pc + 4) :: retStack d a))

/-- CALL (R107). -/
def execCall (o : BitVec 22) (s : State) : Host.Outcome State Fault Refusal :=
  s.run (controlWord (.call o) (callWord o))

/-- RET: an empty stack traps RETURN_STACK (R67, R107). -/
def retWord (a : At) (d : Dev) : Res Dword :=
  match retStack d a with
  | [] => .trap 0x08 0 0 0 0
  | x :: r => .ok x (setRetStack d a r)

/-- RET (R107). -/
def execRet (s : State) : Host.Outcome State Fault Refusal := s.run (controlWord .ret retWord)

/-- The other three engines (R65). -/
def others (e : Eng) : List Eng := Eng.all.filter (· != e)

/-- Push an outcome into the queues of the other engines (R65). -/
def pushOutcome (e : Eng) (x : Dword) (c : TCore) : TCore :=
  (others e).foldl (fun c g => c.onEng g fun y => { y with outs := y.outs ++ [x] }) c

/-- A decided word (R64, R65, R114): the decider evaluates it and pushes the outcome once all three queues have room; another
engine pops the outcome. `eval` gives the outcome and what the decider's registers become; `app` says where an engine goes and
what else it does. In a handler X alone decides, and pushes nothing. -/
def decided (i : Instr) (e : Eng) (eval : TCore → Dword × TCore) (app : At → Dword → TCore → Dword × TCore) (a : At) (d : Dev) :
    Res Dword :=
  let c := (d.tile a.t).core
  let go (x : Dword) (c1 : TCore) : Res Dword :=
    let (n, c2) := app a x c1
    .ok n (d.onCore a.t fun _ => c2)
  if a.hand then
    if e = .x then let (x, c1) := eval c; go x c1 else illegal ((encode i).getD 0) 1
  else if e = a.e then
    if (others e).all fun g => decide ((c.engine g).outs.length < 32) then
      let (x, c1) := eval c
      go x (pushOutcome e x c1)
    else .wait { code := 6 } d
  else match (c.engine a.e).outs with
    | [] => .wait { code := 5 } d
    | x :: r => go x (c.onEng a.e fun g => { g with outs := r })

/-- Where a taken or not taken outcome leads (R108, R109). -/
def takenTo {w : Nat} (off : BitVec w) (a : At) (x : Dword) (c : TCore) : Dword × TCore :=
  (if x != 0 then branchTo a.pc off else a.pc + 4, c)

/-- Whether a condition of BRC holds of a value (R94). -/
def condHolds (cond : BitVec 4) (v : Dword) : Bool :=
  match cond.toNat with
  | 0 => v == 0
  | 1 => v != 0
  | 2 => decide (v.toInt < 0)
  | 3 => decide (0 ≤ v.toInt)
  | 4 => decide (0 < v.toInt)
  | _ => decide (v.toInt ≤ 0)

/-- BRC's test by the decider (R94). -/
def brcTest (e : Eng) (cond : BitVec 4) (r : BitVec 5) (c : TCore) : Bool :=
  match e with
  | .x => condHolds cond (c.s r)
  | .a => condHolds cond (c.a r)
  | .m => condHolds cond (vget c.regs.c 0 r.toNat)
  | .v => if cond = 6 then c.anySet (c.k r.toNat) else !c.anySet (c.k r.toNat)

/-- BRC (R108). -/
def execBrc (e : Eng) (c : BitVec 4) (r : BitVec 5) (f : BitVec 13) (s : State) : Host.Outcome State Fault Refusal :=
  s.run (controlWord (.brc e c r f)
    (decided (.brc e c r f) e (fun x => (b2d (brcTest e c r x), x)) (takenTo f)))

/-- The decider's count of LOOP and LOOPR (R109). -/
def loopCount (e : Eng) (r : BitVec 5) (c : TCore) : Dword × TCore :=
  match e with
  | .x => (b2d (c.s r - 1 != 0), c.setS r (c.s r - 1))
  | .a => (b2d (c.a r - 1 != 0), c.setA r (c.a r - 1))
  | .v => (0, c)
  | .m => (0, c)

/-- LOOP (R109). -/
def execLoop (e : Eng) (r : BitVec 5) (o : BitVec 17) (s : State) : Host.Outcome State Fault Refusal :=
  s.run (controlWord (.loop e r o) (decided (.loop e r o) e (loopCount e r) (takenTo o)))

/-- LOOPR's effect of an outcome: on V a taken one also rotates the window (R110). -/
def looprTo (off : BitVec 17) (a : At) (x : Dword) (c : TCore) : Dword × TCore :=
  if x != 0 then
    (branchTo a.pc off, if a.e = .v then { c with csr := { c.csr with vrb := c.csr.vrb - 1 } } else c)
  else (a.pc + 4, c)

/-- LOOPR (R110). -/
def execLoopr (e : Eng) (r : BitVec 5) (o : BitVec 17) (s : State) : Host.Outcome State Fault Refusal :=
  s.run (controlWord (.loopr e r o) (decided (.loopr e r o) e (loopCount e r) (looprTo o)))

/-- BRX's target: the decider's register with bits [1:0] cleared (R111). -/
def brxTarget (e : Eng) (r : BitVec 5) (c : TCore) : Dword × TCore :=
  match e with
  | .x => (c.s r &&& ~~~3#64, c)
  | .a => (c.a r &&& ~~~3#64, c)
  | .v => (0, c)
  | .m => (0, c)

/-- BRX (R111). -/
def execBrx (e : Eng) (r : BitVec 5) (s : State) : Host.Outcome State Fault Refusal :=
  s.run (controlWord (.brx e r) (decided (.brx e r) e (brxTarget e r) fun _ x c => (x, c)))

/-- TOK (R68); in a handler it is an illegal word (R114). -/
def tokWord (f t : Eng) (n : BitVec 4) (a : At) (d : Dev) : Res Dword :=
  let k := 4 * f.idx.val + t.idx.val
  let x := vget (d.tile a.t).core.tok 0 k
  if a.hand then illegal ((encode (.tok f t n)).getD 0) 1
  else if a.e = f then
    if x.toNat + n.toNat ≤ 15 then .ok (a.pc + 4) (d.onCore a.t fun c => { c with tok := vset c.tok k (x + n) })
    else .wait { code := 3, detail := BitVec.ofNat 8 k } d
  else if a.e = t then
    if n.toNat ≤ x.toNat then .ok (a.pc + 4) (d.onCore a.t fun c => { c with tok := vset c.tok k (x - n) })
    else .wait { code := 3, detail := BitVec.ofNat 8 k } d
  else .ok (a.pc + 4) d

/-- TOK (R68). -/
def execTok (f t : Eng) (n : BitVec 4) (s : State) : Host.Outcome State Fault Refusal :=
  s.run (controlWord (.tok f t n) (tokWord f t n))

/-- Whether special-function results are pending (R177). -/
def TCore.sfuBusy (c : TCore) : Bool := c.sfu.toList.any (·.isSome)

/-- What R72's check finds wrong: the queue or counter, and the engine R73 names. Where outcome queues alone hold something, X and 8
(DESIGN CHOICE, unsafe: log entry 98: R73 names none). -/
def rgnBad (c : TCore) : Option (Eng × Nat) :=
  match (List.range 8).find? fun q => c.qlen q != 0 with
  | some q => some (qconsumer q, q)
  | none =>
    match (List.range 16).find? fun k => vget c.tok 0 k != 0 with
    | some k => some (Eng.ofBits (BitVec.ofNat 2 (k % 4)), 16 + k)
    | none => if Eng.all.any fun e => !(c.engine e).outs.isEmpty then some (.x, 8) else none

/-- Whether engine g waits at the same RGN word as an engine with this walk count (R72). -/
def atRgn (c : TCore) (walk : Dword) (g : Eng) : Bool :=
  (c.engine g).walk == walk && (match (c.engine g).wait with | some w => w.code == 7 | none => false)

/-- Record a region entry for every engine (R72). -/
def recordRgn (pc : Dword) (c : TCore) : TCore :=
  { c with eng := c.eng.map fun g => { g with rgnPc := pc, rgnWalk := g.walk, rgnRet := g.ret } }

/-- RGN (R72, R73, R177): a rendezvous; V counts issue cycles there while results are pending. -/
def rgnWord (env : Env) (a : At) (d : Dev) : Res (Dword ⊕ Eng × Nat) :=
  let c := (d.tile a.t).core
  if a.hand then illegal ((encode .rgn).getD 0) 1
  else if (others a.e).all (atRgn c (c.engine a.e).walk) && !c.sfuBusy && !Dbg.holds (d.tile a.t).dbg a.e then
    match rgnBad c with
    | some b => .ok (.inr b) d
    | none =>
      let d1 := d.onCore a.t (recordRgn a.pc)
      .ok (.inl (a.pc + 4)) ((others a.e).foldl (fun d g => walkTo d ⟨a.t, g, a.pc, false⟩ (a.pc + 4) .c) d1)
  else .wait { code := 7, tick := a.e = .v && env.unit == a.t } d

/-- RGN's whole step: the check that fails is a trap of the engine R73 names. -/
def rgnStep (env : Env) (d : Dev) : Dev :=
  match ready d env.unit env.eng with
  | .go pc hand =>
    let a : At := ⟨env.unit, env.eng, pc, hand⟩
    match rgnWord env a (issued d a) with
    | .ok (.inr (e, n)) _ => enterTrap env d a.t e pc 0x07 (dw n) 0 0 0
    | .ok (.inl x) d1 => finish env d a 0x86000000 (.ok (x, .c) d1)
    | .wait w d1 => finish env d a 0x86000000 (.wait w d1)
    | .trap c i0 i1 i2 i3 => finish env d a 0x86000000 (.trap c i0 i1 i2 i3)
    | .sys c va => finish env d a 0x86000000 (.sys c va)
    | .roll c => finish env d a 0x86000000 (.roll c)
  | .slip => controlWord .rgn (fun a d => .ok a.pc d) env d
  | .hold => controlWord .rgn (fun a d => .ok a.pc d) env d
  | .no => d

/-- RGN (R72). -/
def execRgn (s : State) : Host.Outcome State Fault Refusal := s.run rgnStep

/-- A queue that the iteration has named has no room for END's implicit notify (R113, R147). (DEDUCED, safe: log entry 27) -/
def namedFull (y : Tile) : Bool := y.core.named.any fun q => decide (q.toNat ≤ 5) && decide (32 ≤ (vget y.aq [] q.toNat).length)

/-- END's implicit notifies of A, behind everything in each queue the iteration named (R113). -/
def implicitNotifies (t : Nat) (d : Dev) : Dev :=
  let c := (d.tile t).core
  c.named.foldl (fun d q =>
    d.onTile t fun y =>
      if q.toNat ≤ 5 then
        { y with aq := vset y.aq q.toNat (vget y.aq [] q.toNat ++
            [{ kind := .implicit, serial := c.iter.serial, node := c.iter.node, walk := (c.engine .a).walk, vf := c.csr.vfid }]) }
      else
        { y with nq := vset y.nq (q.toNat - 8) (vget y.nq [] (q.toNat - 8) ++
            [{ isNotify := true, isImplicit := true, serial := c.iter.serial, node := c.iter.node, walk := (c.engine .a).walk }]) }) d

/-- Whether every accepted command of a tile's iteration has completed and every close and drop has taken effect (R198). -/
def mIdle (d : Dev) (t : Nat) : Bool := !(d.cluster (t / 8)).mq.any fun m => m.tile == t

/-- The lease and the turn of a tile end (R198, R201). -/
def endLease (d : Dev) (t : Nat) (why : BitVec 4) : Dev :=
  (endTurn d t why).onCore t fun c => { c with lease := { c.lease with held := false, left := 0, trapped := false } }

/-- END (R113); in a handler it is an illegal word (R114). -/
def endWord (a : At) (d : Dev) : Res Dword :=
  let stop (d : Dev) : Res Dword := .ok a.pc (onEngine d a fun g => { g with stopped := true })
  let c := (d.tile a.t).core
  if a.hand then illegal ((encode .endw).getD 0) 1
  else match a.e with
    | .x => stop d
    | .a => if namedFull (d.tile a.t) then .wait Wait.idle d else stop (implicitNotifies a.t d)
    | .v => if c.sfuBusy then .wait { code := 0, tick := true } d else stop d
    | .m =>
      if c.lease.held && !mIdle d a.t then .wait Wait.idle d
      else
        let d1 := if c.lease.held then endLease d a.t 2 else d
        let d2 := if c.closed then
            d1.onCluster (a.t / 8) fun k => { k with notes := k.notes ++ [⟨a.t, c.iter.serial, (c.engine .m).walk, none⟩] }
          else d1
        stop d2

/-- END (R113). -/
def execEndw (s : State) : Host.Outcome State Fault Refusal := s.run (controlWord .endw endWord)

/-! ### EXT words and extended immediates -/

/-- What an immediate word computes (R116, R133). -/
def riApply (op : RiOp) (d a : BitVec 5) (imm : Dword) (c : TCore) : TCore :=
  match op with
  | .addi => c.setS d (c.s a + imm)
  | .andi => c.setS d (c.s a &&& imm)
  | .ori => c.setS d (c.s a ||| imm)
  | .xori => c.setS d (c.s a ^^^ imm)
  | .slti => c.setS d (b2d (decide ((c.s a).toInt < imm.toInt)))
  | .aaddi => c.setA d (c.a a + imm)
  | .aandi => c.setA d (c.a a &&& imm)

/-- Whether the word behind this one is an EXT word (R59). A fault in fetching it is this word's. -/
def extFollows (env : Env) (d : Dev) (a : At) : Res Bool :=
  (fetchAt env d a.t a.e (a.pc + 4)).bind fun w d1 => .ok (isExt w) d1

/-- An RI word (R59, R91): with no EXT word behind it, it takes effect; else it is remembered until they have been walked. -/
def riWord (own : Eng) (i : Instr) (op : RiOp) (rd ra : BitVec 5) (imm : BitVec 12) (env : Env) (d : Dev) : Dev :=
  match ready d env.unit env.eng with
  | .go pc hand =>
    let a : At := ⟨env.unit, env.eng, pc, hand⟩
    if env.eng = own then
      finish env d a ((encode i).getD 0) ((extFollows env d a).bind fun ext d1 =>
        if ext then .ok (pc + 4, .ri op rd ra imm none) d1
        else .ok (pc + 4, .other own) (d1.onCore a.t (riApply op rd ra (imm0 imm))))
    else engineWord own i (fun _ d => .ok () d) (fun _ c => c) env d
  | .slip => engineWord own i (fun _ d => .ok () d) (fun _ c => c) env d
  | .hold => engineWord own i (fun _ d => .ok () d) (fun _ c => c) env d
  | .no => d

/-- The word an engine, or the handler, walked before. -/
def prevOf (d : Dev) (a : At) : Prev :=
  let c := (d.tile a.t).core
  if a.hand then (c.trap.hand.map (·.prev)).getD .none else (c.engine a.e).prev

/-- An EXT word at an engine (R58, R59, R91, R101). The second of three in a row is walked and leaves a mark that no first EXT word of
two can be; the third raises ILLEGAL_WORD there. -/
def extWord (env : Env) (x : BitVec 29) (a : At) (d : Dev) : Res (Dword × Prev) :=
  let w : Word := 5#3 ++ x
  match prevOf d a with
  | .none => illegal w 4
  | .c => illegal w 4
  | .other own => if own = a.e then illegal w 4 else .ok (a.pc + 4, .other own) d
  | .ri op rd ra imm none =>
    (extFollows env d a).bind fun ext d1 =>
      if ext then
        if x.extractLsb' 23 6 != 0 then illegal w 4 else .ok (a.pc + 4, .ri op rd ra imm (some x)) d1
      else .ok (a.pc + 4, .other a.e) (d1.onCore a.t (riApply op rd ra (imm1 x imm)))
  | .ri op rd ra imm (some e1) =>
    if e1 = BitVec.allOnes 29 then illegal w 5 else
    (extFollows env d a).bind fun ext d1 =>
      if ext then .ok (a.pc + 4, .ri op rd ra imm (some (BitVec.allOnes 29))) d1
      else .ok (a.pc + 4, .other a.e) (d1.onCore a.t (riApply op rd ra (imm2 e1 x imm)))

/-- EXT (R59). -/
def extStep (x : BitVec 29) (env : Env) (d : Dev) : Dev :=
  match ready d env.unit env.eng with
  | .go pc hand =>
    let a : At := ⟨env.unit, env.eng, pc, hand⟩
    finish env d a (5#3 ++ x) (extWord env x a (issued d a))
  | .slip => controlWord (.extWord x) (fun a d => .ok a.pc d) env d
  | .hold => controlWord (.extWord x) (fun a d => .ok a.pc d) env d
  | .no => d

/-- An EXT word (R59). -/
def execExtWord (imm : BitVec 29) (s : State) : Host.Outcome State Fault Refusal := s.run (extStep imm)

/-- The engine whose word a single-engine TAG marks (R58). -/
def tagOwner (w : Word) : Option Eng :=
  match (w.extractLsb' 29 3).toNat with
  | 0 => some .x
  | 1 => some .a
  | 2 => some .v
  | 3 => some .m
  | _ => none

/-- A word that does not decode (R60, R101): its owner raises ILLEGAL_WORD, or the first engine to reach it when it has none. -/
def reservedStep (w : Word) (k : BadWord) (env : Env) (d : Dev) : Dev :=
  match tagOwner w with
  | some own => engineWord own (.reservedWord w k) (fun _ _ => illegal w (badCode k)) (fun _ c => c) env d
  | none => controlWord (.reservedWord w k) (fun _ _ => illegal w (badCode k)) env d

/-- A reserved word (R60). -/
def execReservedWord (w : Word) (k : BadWord) (s : State) : Host.Outcome State Fault Refusal := s.run (reservedStep w k)

end Sys2Proof.Machine
end

