-- ==== Sys2Proof/Machine/Launch.lean ====
section
/-! DEFINITION. Submission, dependency counts and the completion of nodes (R38 to R48). -/

namespace Sys2Proof.Machine

/-- Bits of a 1024-bit nest record (R38). -/
def recBits (r lo n : Nat) : Nat := r / 2 ^ lo % 2 ^ n

/-- The reserved fields of a nest record, as (lowest bit, width) (R38). -/
def recReserved : List (Nat × Nat) :=
  [(832, 192), (796, 36), (727, 41), (703, 17), (700, 3), (671, 1), (660, 4), (633, 7), (375, 9), (311, 9), (247, 9), (183, 9),
   (119, 9), (55, 9)]

/-- Width and extent of field f of the work identifier (R38). -/
def recW (r f : Nat) : Nat := recBits r (576 + 6 * f) 6
/-- The extent of field f. -/
def recE (r f : Nat) : Nat := recBits r (384 + 32 * f) 32
/-- The field that varies i-th fastest (R38, R44). -/
def recOrd (r i : Nat) : Nat := recBits r (612 + 3 * i) 3
/-- The offset of field f in the work identifier (R44). -/
def recO (r f : Nat) : Nat := (List.range f).foldl (fun a g => a + recW r g) 0

/-- The enabled tiles of a partition of a VF, in ascending order (R49, R50). -/
def availTiles (env : Env) (d : Dev) (vf : BitVec 10) (part : Nat) : List Nat :=
  let m := d.parts.get 0 (vf.toNat * 16 + part)
  if m = 0 then [] else (List.range 640).filter fun t => m.getLsbD t && env.caps.tileOn t

/-- Whether an address takes TRANSLATION under a VF's ASID (R41 code 16); a page of kind 01 is not refused for its handle. -/
def noTranslation (env : Env) (d : Dev) (vf : BitVec 10) (k : AccKind) (va : Nat) : Bool :=
  let w := whoVf d vf 0
  let kind1 := !inWindow (dw va) && (match leafFor env d w.unit w.asid (dw va) with
    | .leaf x _ => bitsN x 1 2 == 1
    | .fault _ => false
    | .frozen => false)
  decide (translate env d w k (dw va) = .fault cTranslation) && !kind1

/-- The check of R41 that a record fails, 0 for none; those before code 3 are the caller's. -/
def recCheck (env : Env) (d : Dev) (vf : BitVec 10) (r : Nat) : Nat :=
  let b := recBits r
  let fields := List.range 6
  if recReserved.any fun f => b f.1 f.2 != 0 then 3
  else if b 640 10 != vf.toNat then 4
  else if 2 ≤ b 658 2 then 5
  else if fields.any (fun f => decide (32 < recW r f)) || decide (64 < recO r 6) then 6
  else if fields.any fun f => decide (2 ^ recW r f < recE r f) then 7
  else if !fields.all fun f => (fields.filter fun i => recOrd r i == f).length == 1 then 8
  else if 6 < b 630 3 then 9
  else if (availTiles env d vf (b 654 4)).isEmpty then 10
  else if 64 < b 720 7 then 11
  else if b 0 55 % (if b 658 2 = 1 then 64 else 4) != 0 || b 64 55 % 8 != 0 || b 192 55 % 16 != 0 || b 256 55 % 8 != 0 ||
      b 320 55 % 4096 != 0 then 12
  else if 3072 < b 688 12 || (1 ≤ b 672 16 && b 672 16 < 64) || 64 < b 664 7 then 13
  else if b 658 2 = 1 && [1, 2, 3, 4, 5].any (fun f => recE r f != 1) then 14
  else if b 320 55 != 0 && decide (2 ^ 55 < b 320 55 + 640 * 0x18000) then 15
  else if noTranslation env d vf { port := true } (b 64 55) || noTranslation env d vf { fetch := b 658 2 == 0 } (b 0 55) then 16
  else 0

/-- A report of kind 7 about a nest record (R320): code, report and successor index in INFO. -/
def nodeReport (env : Env) (d : Dev) (fq : BitVec 55) (vf : BitVec 10) (tile rej report idx : Nat) (va pc : Dword) : Dev :=
  postFault env d fq
    { addr := va, info := dw (rej + 256 * report + 65536 * idx), pc := pc, tile := tile, vf := vf, eng := 6, kind := 7 }

/-- How the record of a submission is read (R40, R125): at its home, by the launch port; as an ordinary load of the tile, by LAUNCH. -/
def readRecord (env : Env) (d : Dev) (ag : Agent) (vf : BitVec 10) (cls : BitVec 4) (byTile : Option Nat) (loc : Loc) : Res (List Byte) :=
  match byTile with
  | some t => tileLine env d t vf cls loc
  | none => let (b, d1) := loadSpan env ag vf cls 3 d loc 128; .ok b d1

/-- A submission (R40 to R43): the REJ code and the STATE it left (0xFF for code 1). `tile` is the tile it comes from, 0x3FF
for a system core. The live dword is taken and written in one step at its home. The walker of the die of the lowest-numbered
available tile enumerates the node, also after its mask has been rewritten (DESIGN CHOICE, unsafe: log entry 75). -/
def submit (env : Env) (d : Dev) (ag : Agent) (w : Who) (tile : Nat) (byTile : Option Nat) (va : Dword) : Res (Nat × Nat) :=
  let refuse1 : Res (Nat × Nat) := .ok (1, 0xFF) (nodeReport env d 0 w.vf tile 1 1 0 va 0)
  if !aligned va 128 then refuse1 else
  match locate env d w { write := true } va with
  | .wait w d1 => .wait w d1
  | .sys _ _ => refuse1
  | .trap _ _ _ _ _ => refuse1
  | .roll _ => refuse1
  | .ok (loc, cls) d1 => (readRecord env d1 ag w.vf cls byTile loc).bind fun b d2 =>
    let r := putBits (leNat b) 768 64 (leNat (getBytes d2 (loc.plus 96) 8))
    let st := recBits r 784 4
    let rej := if st != 0 then 2 else recCheck env d2 w.vf r
    let st' := if rej = 2 then st else if rej != 0 then 7 else if recBits r 768 16 = 0 then 2 else 1
    let live := putBits (putBits (recBits r 768 64) 20 8 rej) 16 4 st'
    let d3 := storeAt env d2 ag w.vf cls (loc.plus 96) (natLe 8 live)
    if rej != 0 then
      .ok (rej, st') (nodeReport env d3 (if rej = 3 then 0 else BitVec.ofNat 55 (recBits r 128 55)) w.vf tile rej 1 0 va 0)
    else
      let n : Node := { va := va, copy := BitVec.ofNat 768 r, ph := if st' = 2 then .ready else .waiting, ready := d3.readyNo,
                        die := ((availTiles env d3 w.vf (recBits r 654 4)).head?.map dieOfTile).getD 0, ts := getPts d3 ag }
      let old := d3.nodes.keep fun _ x => !(x.ph == .ended && x.va == va && x.vf == w.vf)
      .ok (0, st') { d3 with nodes := old.set d3.nodeNext n, nodeNext := d3.nodeNext + 1, readyNo := d3.readyNo + 1 }

/-- The number of iterations of a node, or of commands (R44, R56). -/
def Node.total (n : Node) : Nat :=
  if n.fld 658 2 = 1 then recE n.copy.toNat 0
  else (List.range 6).foldl (fun a f => a * recE n.copy.toNat f) 1

/-- The place of a node's live dword, as its VF's tables translate it. -/
def liveAt (env : Env) (d : Dev) (x : Node) : Option Loc :=
  match translate env d (whoVf d x.vf 640) { write := true } x.va with
  | .ok loc _ => some (loc.plus 96)
  | .fault _ => none
  | .promo _ => none
  | .frozen => none
  | .remote _ => none

/-- The waiting node of a VF whose record an address names, or else whose live dword stands at a place, becomes ready (R42, R43). -/
def readyNode (env : Env) (d : Dev) (vf : BitVec 10) (va : Dword) (at_ : Loc) (ts : Dword) : Dev :=
  let waits (x : Node) : Bool := x.ph == .waiting && x.vf == vf
  let named := d.nodes.entries.any fun e => waits e.2 && e.2.va == va
  { d with
    readyNo := d.readyNo + 1
    nodes := ⟨d.nodes.entries.map fun e =>
      if waits e.2 && (if named then e.2.va == va else liveAt env d e.2 == some at_) then
        (e.1, { e.2 with ph := .ready, ready := d.readyNo, ts := dmax e.2.ts ts }) else e⟩ }

/-- The effect of a predecessor's completion on one live dword: none when DEPCNT is 0 (R42); whether it makes the node ready. -/
def depStep (live : Nat) : Option (Nat × Bool) :=
  let dep := live % 65536
  if dep = 0 then none
  else
    let rdy := dep = 1 && live / 65536 % 16 = 1
    let x := putBits live 0 16 (dep - 1)
    some (if rdy then putBits x 16 4 2 else x, rdy)

/-- Entry i of a completing node's successor list (R39, R42). The report of an entry that cannot be read itself has ADDR 0 (DESIGN CHOICE,
unsafe: log entry 74). -/
def succEntry (env : Env) (x : Node) (i : Nat) (d : Dev) : Res Unit :=
  let w := whoVf d x.vf 640
  let report (k : Nat) (va : Dword) (d : Dev) : Res Unit := .ok () (nodeReport env d x.faultq x.vf 0x3FF 0 k i va x.va)
  match hwRead8 env d w (dw (x.fld 256 55 + 8 * i)) with
  | .wait w d1 => .wait w d1
  | .sys _ _ => report 2 0 d
  | .trap _ _ _ _ _ => report 2 0 d
  | .roll _ => report 2 0 d
  | .ok e d1 =>
    let va := dw (e % 2 ^ 55)
    if 2 ^ 55 ≤ e || e % 128 != 0 then report 2 va d1
    else match locate env d1 w { write := true } va with
      | .wait w d2 => .wait w d2
      | .sys _ _ => report 2 va d1
      | .trap _ _ _ _ _ => report 2 va d1
      | .roll _ => report 2 va d1
      | .ok (loc, cls) d2 =>
        let at_ := loc.plus 96
        match depStep (leNat (getBytes d2 at_ 8)) with
        | none => report 3 va d2
        | some (y, rdy) =>
          let (d3, ts) := storeTs env d2 (.stamp x.ts) x.vf cls true at_
          let d4 := putBytes (notePast d3 (.stamp x.ts) at_ ts 8) at_ (natLe 8 y)
          .ok () (if rdy then readyNode env d4 x.vf va at_ (dmax x.ts ts) else d4)

/-- The next of steps 2 to 4 of R47 of a completing node: the completion flag, STATE 4, a successor entry; with the timestamp that what
follows carries (R309, R310). -/
def finStep (env : Env) (x : Node) (d : Dev) : Res Dword :=
  match x.fin with
  | 0 =>
    let done := x.fld 192 55
    if done = 0 then .ok x.ts d else
    match flagMark env d (whoVf d x.vf 640) (.stamp x.ts) (dw done) 1 (setterId env x.vf 0x0C01) with
    | .ok ts d1 => .ok ts d1
    | .wait w d1 => .wait w d1
    | .sys c _ => .ok x.ts (lostUpdate env d x.faultq x.vf 0x3FF 6 0 c (dw done))
    | .trap _ _ _ _ _ => .ok x.ts d
    | .roll _ => .ok x.ts d
  | 1 =>
    match writeState env d x.vf x.va x.ts 4 with
    | .ok ts d1 => .ok ts d1
    | .wait w d1 => .wait w d1
    | .sys _ _ => .ok x.ts d
    | .trap _ _ _ _ _ => .ok x.ts d
    | .roll _ => .ok x.ts d
  | i + 2 => (succEntry env x i d).bind fun _ d1 => .ok x.ts d1

/-- Steps 2 to 4 of R47, each performed before the next begins; one that waits is taken up again at the next NODE_COMPLETION. -/
def finSteps (env : Env) (n : Nat) : Nat → Node → Dev → Dev
  | 0, x, d => { d with nodes := d.nodes.set n { x with ph := .ended } }
  | f + 1, x, d =>
    let stop (d1 : Dev) : Dev := { d1 with nodes := d1.nodes.set n { x with ph := .finishing } }
    match finStep env x d with
    | .ok ts d1 => finSteps env n f { x with fin := x.fin + 1, ts := dmax x.ts ts } d1
    | .wait _ d1 => stop d1
    | .sys _ _ => stop d
    | .trap _ _ _ _ _ => stop d
    | .roll _ => stop d

/-- A node's completion from the step it has come to (R47). -/
def finishNode (env : Env) (n : Nat) (x : Node) (d : Dev) : Dev := finSteps env n (2 + x.fld 720 7 - x.fin) x d

/-- An attempt that waits leaves nothing behind but the promotions it started (R344). -/
def attempt (d : Dev) (r : Res Unit) : Dev :=
  match r with
  | .ok _ d1 => d1
  | .wait _ d1 => waitLeft d d1
  | .trap _ _ _ _ _ => d
  | .sys _ _ => d
  | .roll _ => d

/-- Commands, remote words, closed slots and notifies that a node's iterations have issued and that have not ended. -/
def nodeBusy (d : Dev) (n : Nat) : Bool :=
  (d.tiles.entries.any fun e =>
    e.2.aq.toList.any (·.any fun c => c.node == n) || e.2.nq.toList.any (·.any fun c => c.node == n)) ||
  (d.clusters.entries.any fun e => e.2.slots.toList.any fun s =>
    match s.job with | some j => j.node == n && s.st != .free | none => false) ||
  (d.clusters.entries.any fun e => e.2.mq.any fun m =>
    match m.kind.job with | some j => j.node == n | none => false)

/-- What the commands of a transform node have written is covered by its completion (R47, R309). -/
def coverTs (env : Env) (d : Dev) (x : Node) : Node :=
  if x.fld 658 2 = 1 then
    { x with ts := (availTiles env d x.vf (x.fld 654 4)).foldl (fun a t =>
        [1, 2, 3].foldl (fun b p => dmax b (getPts d (.tile t p))) a) x.ts }
  else x

/-- Node n completes, or, once failed, is drained (R43, R47). -/
def nodeCompletion (n : Nat) (env : Env) (d : Dev) : Dev :=
  match d.node n with
  | none => d
  | some x =>
    let ended (d : Dev) : Dev := { d with nodes := d.nodes.set n { x with ph := .ended } }
    match x.ph with
    | .failed => if x.done = x.next && !nodeBusy d n then ended (setNodeState env d x.vf x.va 6) else d
    | .ready => if x.total = 0 then finishNode env n x d else d
    | .running => if x.done = x.total && !nodeBusy d n then finishNode env n (coverTs env d x) d else d
    | .finishing => finishNode env n x d
    | .waiting => d
    | .ended => d

/-- NODE_COMPLETION (R47). -/
def execNodeCompletion (s : State) : Host.Outcome State Fault Refusal := s.run fun env d => nodeCompletion env.unit env d

/-- The k-th retirement message reaches its node's walker (R334). (DEDUCED, unsafe: log entry 49) -/
def retirementMessage (k : Nat) (env : Env) (d : Dev) : Dev :=
  match d.retMsgs[k]? with
  | none => d
  | some m =>
    let d1 := { d with retMsgs := d.retMsgs.eraseIdx k }
    match d1.node m.node with
    | none => d1
    | some x =>
      let d2 := { d1 with nodes := d1.nodes.set m.node { x with done := x.done + 1 } }
      if m.term then failNode env d2 m.node else d2

/-- RETIREMENT_MESSAGE (R334). -/
def execRetirementMessage (s : State) : Host.Outcome State Fault Refusal := s.run fun env d => retirementMessage env.unit env d

/-- A node of a VF as the release port finds it: the copy that was submitted, else what the record holds (R48). -/
def releasedNode (d : Dev) (vf : BitVec 10) (va : Dword) (r : Nat) : Nat × Node :=
  match d.nodes.entries.find? fun e => e.2.ph == .ended && e.2.va == va && e.2.vf == vf with
  | some e => e
  | none => (d.nodeNext, { va := va, copy := BitVec.ofNat 768 (putBits r 640 10 vf.toNat), ph := .ended })

/-- A write of a nest record's VA to RELEASE of VF v (R48, R327): it waits while the record's page is promoted or frozen. -/
def releaseNode (v : Nat) (va : Dword) (env : Env) (d : Dev) : Dev :=
  let vf := BitVec.ofNat 10 v
  let x := zx (va.setWidth 55)
  match hwRead env (whoVf d vf 640) .none 2 d x 128 with
  | .ok b d1 =>
    let r := leNat b
    let (n, y) := releasedNode d1 vf x r
    if recBits r 784 4 = 6 && aligned x 128 then
      finishNode env n { y with fin := 0 } { d1 with nodeNext := if n = d1.nodeNext then n + 1 else d1.nodeNext }
    else d
  | .wait _ d1 => d1.defer (.release v va)
  | .trap _ _ _ _ _ => d
  | .sys _ _ => d
  | .roll _ => d

/-- RELEASE_WRITE (R48). -/
def execReleaseWrite (va : Dword) (s : State) : Host.Outcome State Fault Refusal := s.run fun env d => releaseNode env.unit va env d

/-- A store of a system core to the launch port page of a VF (R40, R50): it is done once the submission has been accepted or refused.
The record's page is checked with the privilege of that VF (DEDUCED, unsafe: log entry 63). -/
def portTry (n : Nat) (vf : BitVec 10) (va : Dword) (env : Env) (d : Dev) : Res Unit :=
  (submit env d (.core n) { whoVf d vf 640 with unit := .core n } 0x3FF none va).bind fun _ d1 => .ok () d1

/-- LAUNCH_PORT_STORE (R40). -/
def execLaunchPortStore (vf : BitVec 10) (va : Dword) (s : State) : Host.Outcome State Fault Refusal :=
  s.run fun env d => attempt d (portTry env.unit vf va env d)

end Sys2Proof.Machine
end

