-- ==== Sys2Proof/Machine/Ring.lean ====
section
/-! DEFINITION. The accumulator storage of a cluster: ring slots in their circular order, and the rows that parked registers take
(R192, R193, R213, R214). -/

namespace Sys2Proof.Machine

/-- Slot s of a cluster. -/
def Cluster.slot (k : Cluster) (s : Nat) : RingSlot := vget k.slots {} s

/-- A cluster with slot s replaced. -/
def Cluster.setSlot (k : Cluster) (s : Nat) (x : RingSlot) : Cluster := { k with slots := vset k.slots s x }

/-- The ring slots in the order in which the ring reaches them next (R214). -/
def Cluster.ringOrder (k : Cluster) : List Nat :=
  ((List.range 8).map fun i => (k.lastOpen + 1 + i) % 8).filter fun s => decide (s < 8 - k.resv)

/-- The slot a fresh command opens: the first free one (R214). -/
def Cluster.nextFree (k : Cluster) : Option Nat := k.ringOrder.find? fun s => (k.slot s).st == .free

/-- Open a slot for a tile: an accumulator of M x N zeros (R209, R213). -/
def Cluster.openSlot (k : Cluster) (s t : Nat) (vf : BitVec 10) (acc : BitVec 2) (m n : Nat) (elems : List Word) : Cluster :=
  { k.setSlot s { st := .open_, tile := t, vf := vf, acc := acc, m := m, n := n, elems := elems } with
    lastOpen := s, order := k.order ++ [s] }

/-- Free a slot; its contents become zero. -/
def Cluster.freeSlot (k : Cluster) (s : Nat) : Cluster :=
  { k.setSlot s {} with order := k.order.filter (· != s) }

/-- Rows of slot s that a map of parked copies takes. -/
def parkUses (p : NMap Park) (s : Nat) : Nat :=
  p.entries.foldl (fun a e => a + match e.2 with
    | .held _ _ slots => slots.count s
    | .saved _ => 0
    | .lost => 0) 0

/-- Parked rows in slot s of cluster c: those of its running and saved iterations (R192). -/
def parkedRows (d : Dev) (c s : Nat) : Nat :=
  (List.range 8).foldl (fun a i =>
    let y := d.tile (8 * c + i)
    a + parkUses y.core.park s + y.saved.foldl (fun b z => b + parkUses z.park s) 0) 0

/-- Rows of slot s that are free for parking. -/
def parkFreeIn (d : Dev) (c s : Nat) : Nat :=
  let k := d.cluster c
  if decide (s < 8 - k.resv) && ((k.slot s).st == .free || (k.slot s).st == .parked) then 256 - parkedRows d c s else 0

/-- PARKFREE (R192). -/
def parkFree (d : Dev) (c : Nat) : Nat := (List.range 8).foldl (fun a s => a + parkFreeIn d c s) 0

/-- The slot that gives parking its rows: of those with two free rows, the one the ring reaches last (R192). -/
def parkSlot (d : Dev) (c : Nat) : Option Nat :=
  ((d.cluster c).ringOrder.reverse).find? fun s => decide (2 ≤ parkFreeIn d c s)

/-- Give back the slots of a cluster in which no parked row is left (R213). -/
def settlePark (d : Dev) (c : Nat) : Dev :=
  (List.range 8).foldl (fun d s =>
    let k := d.cluster c
    if (k.slot s).st == .parked && parkedRows d c s == 0 then d.setCluster c (k.setSlot s {}) else d) d

/-- Park a register (R192): none when fewer than two rows are free. -/
def parkReg (d : Dev) (t p : Nat) (x : VReg) : Option Dev :=
  let c := t / 8
  let d0 := settlePark (d.onCore t fun y => { y with park := y.park.keep fun q _ => q != p }) c
  match parkSlot d0 c with
  | none => none
  | some s =>
    let d1 := d0.onCluster c fun k => k.setSlot s { (k.slot s) with st := .parked }
    some (d1.onCore t fun y => { y with park := y.park.set p (.held 2 x [s, s]) })

/-- Free every parked copy of a tile's iteration (R193). -/
def unparkAll (d : Dev) (t : Nat) : Dev := settlePark (d.onCore t fun y => { y with park := {} }) (t / 8)

end Sys2Proof.Machine
end

