-- ==== Sys2Proof/Machine/Special.lean ====
section
/-! DEFINITION. The special functions of the vector engine (R181): each delivers the exact value of its function rounded once
to FP32. Reciprocals are computed exactly with a sticky bit; exponential, logarithm and hyperbolic tangent in fixed point of
320 bits, with a sticky bit that says the value is no dyadic number (DEDUCED, unsafe: log entry 19). -/

namespace Sys2Proof.Machine

/-- The fraction bits of the fixed-point numbers. -/
abbrev fxP : Nat := 320

/-- A finite result with a sticky bit: (2 q + sticky) 2^(e - 1). -/
def withSticky (neg : Bool) (q : Nat) (e : Int) (inexact : Bool) : Num := .fin neg (2 * q + b2n inexact) (e - 1)

/-- 1 / (m 2^e), m not 0. -/
def rcpFin (neg : Bool) (m : Nat) (e : Int) : Num :=
  let k := nbits m + 40
  withSticky neg (2 ^ k / m) (-k - e) (2 ^ k % m != 0)

/-- The largest r with r r at most n, for n below 4^(k): one bit at a time. -/
def sqrtBits (n : Nat) : Nat → Nat → Nat
  | 0, r => r
  | k + 1, r => sqrtBits n k (if (r + 2 ^ k) * (r + 2 ^ k) ≤ n then r + 2 ^ k else r)

/-- 1 / sqrt (m 2^e), m not 0 and positive. -/
def rsqrtFin (m : Nat) (e : Int) : Num :=
  let odd := e % 2 != 0
  let m' := if odd then 2 * m else m
  let h := (if odd then e - 1 else e) / 2
  let k := nbits m' + 40
  let n := 2 ^ (2 * k) / m'
  let q := sqrtBits n (k + 1) 0
  withSticky false q (-k - h) (q * q * m' != 2 ^ (2 * k))

/-- The sum of z^(2 i + 1) / (2 i + 1) in fixed point: the inverse hyperbolic tangent of z. `p` is z^(2 i + 1), `z2` is z z. -/
def atanhTerms (z2 : Nat) : Nat → Nat → Nat → Nat → Nat
  | 0, _, _, acc => acc
  | n + 1, i, p, acc => atanhTerms z2 n (i + 1) (p * z2 / 2 ^ fxP) (acc + p / (2 * i + 1))

/-- The inverse hyperbolic tangent of z, at most 1/3, in fixed point. -/
def atanhFx (z : Nat) : Nat := atanhTerms (z * z / 2 ^ fxP) 110 0 z 0

/-- ln 2 in fixed point. -/
def ln2Fx : Nat := 2 * atanhFx (2 ^ fxP / 3)

/-- The sum of y^i / i! in fixed point. -/
def expTerms (y : Nat) : Nat → Nat → Nat → Nat → Nat
  | 0, _, _, acc => acc
  | n + 1, i, p, acc => expTerms y n (i + 1) (p * y / 2 ^ fxP / (i + 1)) (acc + p)

/-- e^y in fixed point, for y below 1. -/
def expFx (y : Nat) : Nat := expTerms y 90 0 (2 ^ fxP) 0

/-- 2^x for x = m 2^e with sign. -/
def exp2Fin (neg : Bool) (m : Nat) (e : Int) : Num :=
  if m = 0 then .fin false 1 0
  else if magGt m e 256 0 then .fin false 1 (if neg then -400 else 400)
  else
    let x := signedAt neg m e (min e (-fxP : Int))
    let u : Int := 2 ^ (-(min e (-fxP : Int))).toNat
    let n := x / u
    let f := (x % u).toNat
    if f = 0 then .fin false 1 n
    else
      let f' := if e < -fxP then f / 2 ^ ((-fxP : Int) - e).toNat else f
      withSticky false (expFx (f' * ln2Fx / 2 ^ fxP)) (n - fxP) true

/-- log2 of m 2^e, m not 0. -/
def log2Fin (m : Nat) (e : Int) : Num :=
  let n := nbits m - 1
  let top : Int := e + n
  if m = 2 ^ n then .ofInt top
  else
    let t := m * 2 ^ (fxP - n)
    let one := 2 ^ fxP
    let z := (t - one) * one / (t + one)
    let l := 2 * atanhFx z * one / ln2Fx
    let s : Int := top * (one : Nat) + l
    withSticky (decide (s < 0)) (if s < 0 then s.natAbs - 1 else s.natAbs) (-fxP) true

/-- tanh of m 2^e with sign, m not 0. -/
def tanhFin (neg : Bool) (m : Nat) (e : Int) : Num :=
  if magGt m e 32 0 then .fin neg (2 ^ 60 - 1) (-60)
  else if magGt 1 (-60) m e then .fin neg (m * 2 ^ 130 - 1) (e - 130)
  else
    let y := (if e + 1 + fxP < 0 then m / 2 ^ (-(e + 1 + fxP)).toNat else m * 2 ^ (e + 1 + fxP).toNat)
    let k := y / ln2Fx
    let ex := expFx (y % ln2Fx) * 2 ^ k
    let one := 2 ^ fxP
    withSticky neg ((ex - one) * one / (ex + one)) (-fxP) true

/-- The five special functions, numbered as FUNC of R178. -/
def specialNum (f : Nat) (x : Num) : Num :=
  match x with
  | .nan => .nan
  | .inf neg =>
    match f with
    | 0 => .fin neg 0 0
    | 1 => if neg then .nan else .fin false 0 0
    | 2 => if neg then .fin false 0 0 else .inf false
    | 3 => if neg then .nan else .inf false
    | _ => .fin neg 1 0
  | .fin neg m e =>
    match f with
    | 0 => if m = 0 then .inf neg else rcpFin neg m e
    | 1 => if m = 0 then .inf neg else if neg then .nan else rsqrtFin m e
    | 2 => exp2Fin neg m e
    | 3 => if m = 0 then .inf true else if neg then .nan else log2Fin m e
    | _ => if m = 0 then .fin neg 0 0 else tanhFin neg m e

/-- Whether a special function of a zero divides by zero (R17). -/
def specialDivZero (f : Nat) : Num → Bool
  | .nan => false
  | .inf _ => false
  | .fin _ m _ => m == 0 && (f == 0 || f == 1 || f == 3)

/-- A special function of an FP32 element: its value and its flags (R17, R181). -/
def special (f : Nat) (x : Word) : Word × FFlags :=
  let n := num32 x
  let (b, g) := fdeliver [n] (specialNum f n)
  (b, g ||| fWhen (specialDivZero f n) fDivZero)

/-- The latency of a special function in issue cycles (R181). -/
def specialLatency (f : Nat) : Nat :=
  match f with
  | 0 => 6
  | 1 => 6
  | 2 => 8
  | 3 => 8
  | _ => 10

end Sys2Proof.Machine
end

