-- ==== Sys2Proof/Machine/Vector.lean ====
section
/-! DEFINITION. The V words (R164 to R195). -/

namespace Sys2Proof.Machine

/-- OPERAND_SHAPE raised by V (R170). -/
def vShape {α : Type} (i : Instr) (c : TCore) (n : Nat) : Res α :=
  .trap 0x02 (dw n) (zx ((encode i).getD 0)) c.vshapeCsr 0

/-- Set flags of VFLAGS (R17). -/
def TCore.raise (c : TCore) (f : FFlags) : TCore := { c with csr := { c.csr with vflags := c.csr.vflags ||| f } }

/-- The elements a word computes: at each element where `act` holds the value and the flags of `f`, elsewhere the old value. -/
def vCompute (old : VReg) (act : Nat → Bool) (f : Nat → Word × FFlags) : Vector (Word × FFlags) 512 :=
  Vector.ofFn fun p => if act p.val then f p.val else (old[p], 0)

/-- The values of computed elements. -/
def vValues (r : Vector (Word × FFlags) 512) : VReg := r.map (·.1)

/-- The flags of computed elements. -/
def vFlags (r : Vector (Word × FFlags) 512) : FFlags := r.foldl (fun a x => a ||| x.2) 0

/-- Write the computed elements of d and raise their flags. -/
def vWrite (d : BitVec 5) (act : TCore → Nat → Bool) (f : TCore → Nat → Word × FFlags) (c : TCore) : TCore :=
  let r := vCompute (c.v d) (act c) (f c)
  (c.setV d (vValues r)).raise (vFlags r)

/-- A word on directed operands (R165 to R171): the checks, then the active elements of d. -/
def vElem (i : Instr) (d : VOp) (k : Option VClass) (srcs : List Dir) (m : Bool) (f : TCore → Nat → Word × FFlags) (a : At)
    (dv : Dev) : Res Unit :=
  let c := (dv.tile a.t).core
  match c.dirBad k d.dir srcs with
  | some n => vShape i c n
  | none => .ok () (dv.onCore a.t (vWrite d.reg (fun c => c.active d.dir srcs (c.wordMask m)) f))

/-- A V word that belongs to the iteration. -/
def vWord (i : Instr) (f : At → Dev → Res Unit) (s : State) : Host.Outcome State Fault Refusal :=
  s.run (engineWord .v i f fun _ c => c)

/-- A two-source word; `g` also gets the old element of d (R167). -/
def vBin (i : Instr) (d a b : VOp) (m : Bool) (g : Word → Word → Word → Word × FFlags) (s : State) :
    Host.Outcome State Fault Refusal :=
  vWord i (vElem i d (class2 a.dir b.dir) [a.dir, b.dir] m fun c p => g (c.src a p) (c.src b p) (vget (c.v d.reg) 0 p)) s

/-- A one-source word. -/
def vUn (i : Instr) (d a : VOp) (m : Bool) (g : Word → Word × FFlags) (s : State) : Host.Outcome State Fault Refusal :=
  vWord i (vElem i d (some (class1 a.dir)) [a.dir] m fun c p => g (c.src a p)) s

/-- A value that raises no flag. -/
def quiet (x : Word) : Word × FFlags := (x, 0)

/-! ### FP32 -/

/-- VADD.F (R179). -/
def execVaddF (d a b : VOp) (m : Bool) (s : State) : Host.Outcome State Fault Refusal :=
  vBin (.vaddF d a b m) d a b m (fun x y _ => f32Add x y) s
/-- VSUB.F (R179). -/
def execVsubF (d a b : VOp) (m : Bool) (s : State) : Host.Outcome State Fault Refusal :=
  vBin (.vsubF d a b m) d a b m (fun x y _ => f32Sub x y) s
/-- VMUL.F (R179). -/
def execVmulF (d a b : VOp) (m : Bool) (s : State) : Host.Outcome State Fault Refusal :=
  vBin (.vmulF d a b m) d a b m (fun x y _ => f32Mul x y) s
/-- VFMA.F: a b + d (R179). -/
def execVfmaF (d a b : VOp) (m : Bool) (s : State) : Host.Outcome State Fault Refusal :=
  vBin (.vfmaF d a b m) d a b m f32Fma s
/-- VFMS.F: d - a b (R179). -/
def execVfmsF (d a b : VOp) (m : Bool) (s : State) : Host.Outcome State Fault Refusal :=
  vBin (.vfmsF d a b m) d a b m f32Fms s
/-- VMIN.F (R15, R179). -/
def execVminF (d a b : VOp) (m : Bool) (s : State) : Host.Outcome State Fault Refusal :=
  vBin (.vminF d a b m) d a b m (fun x y _ => f32Min x y) s
/-- VMAX.F (R15, R179). -/
def execVmaxF (d a b : VOp) (m : Bool) (s : State) : Host.Outcome State Fault Refusal :=
  vBin (.vmaxF d a b m) d a b m (fun x y _ => f32Max x y) s

/-- The sign cleared; a NaN gives the canonical NaN (R179). -/
def f32Abs (x : Word) : Word := if (num32 x).isNan then 0x7FC00000 else x &&& 0x7FFFFFFF
/-- The sign inverted; a NaN gives the canonical NaN (R179). -/
def f32Neg (x : Word) : Word := if (num32 x).isNan then 0x7FC00000 else x ^^^ 0x80000000

/-- VABS.F (R179). -/
def execVabsF (d a : VOp) (m : Bool) (s : State) : Host.Outcome State Fault Refusal :=
  vUn (.vabsF d a m) d a m (fun x => quiet (f32Abs x)) s
/-- VNEG.F (R179). -/
def execVnegF (d a : VOp) (m : Bool) (s : State) : Host.Outcome State Fault Refusal :=
  vUn (.vnegF d a m) d a m (fun x => quiet (f32Neg x)) s

/-! ### BF16 -/

/-- VADD.B (R16, R179). -/
def execVaddB (d a b : VOp) (m : Bool) (s : State) : Host.Outcome State Fault Refusal :=
  vBin (.vaddB d a b m) d a b m (fun x y _ => toBf (f32Add (bfArg x) (bfArg y))) s
/-- VSUB.B (R16, R179). -/
def execVsubB (d a b : VOp) (m : Bool) (s : State) : Host.Outcome State Fault Refusal :=
  vBin (.vsubB d a b m) d a b m (fun x y _ => toBf (f32Sub (bfArg x) (bfArg y))) s
/-- VMUL.B (R16, R179). -/
def execVmulB (d a b : VOp) (m : Bool) (s : State) : Host.Outcome State Fault Refusal :=
  vBin (.vmulB d a b m) d a b m (fun x y _ => toBf (f32Mul (bfArg x) (bfArg y))) s
/-- VFMA.B (R16, R179). -/
def execVfmaB (d a b : VOp) (m : Bool) (s : State) : Host.Outcome State Fault Refusal :=
  vBin (.vfmaB d a b m) d a b m (fun x y z => toBf (f32Fma (bfArg x) (bfArg y) (bfArg z))) s
/-- VFMS.B (R16, R179). -/
def execVfmsB (d a b : VOp) (m : Bool) (s : State) : Host.Outcome State Fault Refusal :=
  vBin (.vfmsB d a b m) d a b m (fun x y z => toBf (f32Fms (bfArg x) (bfArg y) (bfArg z))) s
/-- VMIN.B (R16, R179). -/
def execVminB (d a b : VOp) (m : Bool) (s : State) : Host.Outcome State Fault Refusal :=
  vBin (.vminB d a b m) d a b m (fun x y _ => toBf (f32Min (bfArg x) (bfArg y))) s
/-- VMAX.B (R16, R179). -/
def execVmaxB (d a b : VOp) (m : Bool) (s : State) : Host.Outcome State Fault Refusal :=
  vBin (.vmaxB d a b m) d a b m (fun x y _ => toBf (f32Max (bfArg x) (bfArg y))) s

/-! ### INT32 and bitwise -/

/-- VADD.I (R179). -/
def execVaddI (d a b : VOp) (m : Bool) (s : State) : Host.Outcome State Fault Refusal :=
  vBin (.vaddI d a b m) d a b m (fun x y _ => quiet (x + y)) s
/-- VSUB.I (R179). -/
def execVsubI (d a b : VOp) (m : Bool) (s : State) : Host.Outcome State Fault Refusal :=
  vBin (.vsubI d a b m) d a b m (fun x y _ => quiet (x - y)) s
/-- VMUL.I (R179). -/
def execVmulI (d a b : VOp) (m : Bool) (s : State) : Host.Outcome State Fault Refusal :=
  vBin (.vmulI d a b m) d a b m (fun x y _ => quiet (x * y)) s
/-- VMIN.I (R179). -/
def execVminI (d a b : VOp) (m : Bool) (s : State) : Host.Outcome State Fault Refusal :=
  vBin (.vminI d a b m) d a b m (fun x y _ => quiet (if x.toInt ≤ y.toInt then x else y)) s
/-- The signed maximum of two elements. -/
def maxI (x y : Word) : Word := if y.toInt ≤ x.toInt then x else y
/-- VMAX.I (R179). -/
def execVmaxI (d a b : VOp) (m : Bool) (s : State) : Host.Outcome State Fault Refusal :=
  vBin (.vmaxI d a b m) d a b m (fun x y _ => quiet (maxI x y)) s
/-- VAND (R179). -/
def execVand (d a b : VOp) (m : Bool) (s : State) : Host.Outcome State Fault Refusal :=
  vBin (.vand d a b m) d a b m (fun x y _ => quiet (x &&& y)) s
/-- VOR (R179). -/
def execVor (d a b : VOp) (m : Bool) (s : State) : Host.Outcome State Fault Refusal :=
  vBin (.vor d a b m) d a b m (fun x y _ => quiet (x ||| y)) s
/-- VXOR (R179). -/
def execVxor (d a b : VOp) (m : Bool) (s : State) : Host.Outcome State Fault Refusal :=
  vBin (.vxor d a b m) d a b m (fun x y _ => quiet (x ^^^ y)) s
/-- VSHL (R179). -/
def execVshl (d a b : VOp) (m : Bool) (s : State) : Host.Outcome State Fault Refusal :=
  vBin (.vshl d a b m) d a b m (fun x y _ => quiet (x <<< (y.toNat % 32))) s
/-- VSHR (R179). -/
def execVshr (d a b : VOp) (m : Bool) (s : State) : Host.Outcome State Fault Refusal :=
  vBin (.vshr d a b m) d a b m (fun x y _ => quiet (x >>> (y.toNat % 32))) s
/-- VSAR (R179). -/
def execVsar (d a b : VOp) (m : Bool) (s : State) : Host.Outcome State Fault Refusal :=
  vBin (.vsar d a b m) d a b m (fun x y _ => quiet (x.sshiftRight (y.toNat % 32))) s

/-! ### Compares -/

/-- The direction of the compared elements (R180). -/
def cmpDir (a b : Dir) : Dir :=
  match class2 a b with
  | some .row => .row
  | some .col => if a = .diag && b = .diag then .diag else .col
  | some .w => .whole
  | none => .whole

/-- A compare (R180): the bits of the active compared elements receive the result, every other bit of K[k] becomes 0. -/
def vCmp (i : Instr) (k : BitVec 3) (a b : VOp) (m : Bool) (g : Word → Word → Bool × FFlags) : At → Dev → Res Unit :=
  fun at_ dv =>
    let c := (dv.tile at_.t).core
    let dir := cmpDir a.dir b.dir
    match c.dirBad (class2 a.dir b.dir) dir [a.dir, b.dir] with
    | some n => vShape i c n
    | none => .ok () (dv.onCore at_.t fun c =>
        let r := (List.range 512).filterMap fun p =>
          if c.active dir [a.dir, b.dir] (c.wordMask m) p then some (p, g (c.src a p) (c.src b p)) else none
        let bits := r.foldl (fun n x => n + b2n x.2.1 * 2 ^ x.1) 0
        (c.setK k.toNat (BitVec.ofNat 512 bits)).raise (r.foldl (fun f x => f ||| x.2.2) 0))

/-- VCMP.F (R180). -/
def execVcmpF (r : BitVec 4) (k : BitVec 3) (a b : VOp) (m : Bool) (s : State) : Host.Outcome State Fault Refusal :=
  vWord (.vcmpF r k a b m) (vCmp (.vcmpF r k a b m) k a b m fun x y =>
    (relNum r.toNat (num32 x) (num32 y), relFlags r.toNat (num32 x) (num32 y))) s

/-- A signed relation by number (R92). -/
def relInt (k : Nat) (x y : Int) : Bool :=
  match k with
  | 0 => x == y
  | 1 => x != y
  | 2 => decide (x < y)
  | 3 => decide (x ≤ y)
  | 4 => decide (y < x)
  | _ => decide (y ≤ x)

/-- VCMP.I (R180). -/
def execVcmpI (r : BitVec 4) (k : BitVec 3) (a b : VOp) (m : Bool) (s : State) : Host.Outcome State Fault Refusal :=
  vWord (.vcmpI r k a b m) (vCmp (.vcmpI r k a b m) k a b m fun x y => (relInt r.toNat x.toInt y.toInt, 0)) s

/-! ### Special functions -/

/-- Add a pending special-function result (R176). -/
def addSfu (c : TCore) (x : Sfu) : TCore :=
  let live := c.sfu.toList.filterMap id ++ [x]
  { c with sfu := Vector.ofFn fun i => live[i.val]? }

/-- Eight special-function results are pending (R177). -/
def TCore.sfuFull (c : TCore) : Bool := decide (8 ≤ (c.sfu.toList.filterMap id).length)

/-- A special-function word that issues (R176, R181). -/
def sfuWord (i : Instr) (func : Nat) (d a : VOp) (m : Bool) (at_ : At) (dv : Dev) : Res Unit :=
  let c := (dv.tile at_.t).core
  match c.dirBad (some (class1 a.dir)) d.dir [a.dir] with
  | some n => vShape i c n
  | none =>
    .ok () (dv.onCore at_.t fun c =>
      let act := c.active d.dir [a.dir] (c.wordMask m)
      let r := vCompute (c.v d.reg) act fun p => special func (c.src a p)
      addSfu c
        { walk := (c.engine .v).walk + 1, rem := specialLatency func, func := BitVec.ofNat 3 func,
          preg := BitVec.ofNat 5 (c.phys d.reg), data := vValues r,
          act := BitVec.ofNat 512 ((List.range 512).foldl (fun n p => n + b2n (act p) * 2 ^ p) 0), flags := vFlags r })

/-- A special-function word: with eight results pending V waits in a cycle that is an issue cycle, and issues in a later one (R175, R177),
also where the oldest of the eight lands in that very cycle (DESIGN CHOICE, unsafe: log entry 102). -/
def sfuTry (i : Instr) (func : Nat) (d a : VOp) (m : Bool) (s : State) : Host.Outcome State Fault Refusal :=
  s.run fun env dv =>
    let c := (dv.tile env.unit).core
    match ready dv env.unit env.eng with
    | .go pc hand =>
      if env.eng = .v && !hand && c.sfuFull && (c.dirBad (some (class1 a.dir)) d.dir [a.dir]).isNone then
        setWait (issued dv ⟨env.unit, .v, pc, hand⟩) ⟨env.unit, .v, pc, hand⟩ { code := 0, detail := 8, tick := true }
      else engineWord .v i (sfuWord i func d a m) (fun _ c => c) env dv
    | .slip => engineWord .v i (sfuWord i func d a m) (fun _ c => c) env dv
    | .hold => engineWord .v i (sfuWord i func d a m) (fun _ c => c) env dv
    | .no => dv

/-- VRCP (R181). -/
def execVrcp (d a : VOp) (m : Bool) (s : State) : Host.Outcome State Fault Refusal :=
  sfuTry (.vrcp d a m) 0 d a m s
/-- VRSQRT (R181). -/
def execVrsqrt (d a : VOp) (m : Bool) (s : State) : Host.Outcome State Fault Refusal :=
  sfuTry (.vrsqrt d a m) 1 d a m s
/-- VEXP2 (R181). -/
def execVexp2 (d a : VOp) (m : Bool) (s : State) : Host.Outcome State Fault Refusal :=
  sfuTry (.vexp2 d a m) 2 d a m s
/-- VLOG2 (R181). -/
def execVlog2 (d a : VOp) (m : Bool) (s : State) : Host.Outcome State Fault Refusal :=
  sfuTry (.vlog2 d a m) 3 d a m s
/-- VTANH (R181). -/
def execVtanh (d a : VOp) (m : Bool) (s : State) : Host.Outcome State Fault Refusal :=
  sfuTry (.vtanh d a m) 4 d a m s

/-! ### Reductions -/

/-- The elements that take part in one reduced value: of row or column o, in increasing order (R182). -/
def redElems (c : TCore) (a : VOp) (colAxis m : Bool) (o : Nat) : List Word :=
  let n := if colAxis then c.csr.rows.toNat else c.csr.cols.toNat
  ((List.range n).map fun k => if colAxis then 16 * k + o else 16 * o + k).filterMap fun p =>
    if (c.wordMask m).getLsbD p then some (vget (c.v a.reg) 0 p) else none

/-- An FP32 result as R15 delivers it: any NaN is the canonical one. -/
def canon32 (x : Word) : Word := if (num32 x).isNan then 0x7FC00000 else x

/-- One reduced value (R182): the fold from the first element, delivered by `fin`, or the value of an empty reduction. R182's pseudocode
begins with r = e[0], and R15 makes any NaN result canonical, so that an FP32 reduction of one element delivers a NaN as the
canonical one too (DEDUCED, unsafe: log entry 80). -/
def redFold (fin : Word → Word) (g : Word → Word → Word × FFlags) (empty : Word) : List Word → Word × FFlags
  | [] => (empty, 0)
  | x :: r =>
    let z := r.foldl (fun acc y => let z := g acc.1 y; (z.1, acc.2 ||| z.2)) (x, 0)
    (fin z.1, z.2)

/-- Whether a destination is allowed for the axis (R183). -/
def redDest (colAxis : Bool) : Dir → Bool
  | .whole => true
  | .row => colAxis
  | .col => !colAxis
  | .diag => !colAxis

/-- A reduction (R182, R183). -/
def vRed (i : Instr) (d a : VOp) (colAxis m : Bool) (fin : Word → Word) (g : Word → Word → Word × FFlags) (empty : Word) (at_ : At)
    (dv : Dev) : Res Unit :=
  let c := (dv.tile at_.t).core
  if a.dir != .whole then vShape i c 3
  else if !c.cursorOk d.dir then vShape i c 2
  else if !redDest colAxis d.dir then vShape i c 6
  else .ok () (dv.onCore at_.t fun c =>
    let n := if colAxis then c.csr.cols.toNat else c.csr.rows.toNat
    let r := (List.range n).map fun o => redFold fin g empty (redElems c a colAxis m o)
    let c1 := vWrite d.reg (fun c => c.active d.dir [] (BitVec.allOnes 512))
      (fun _ p => ((r[if colAxis then p % 16 else p / 16]?).getD (0, 0)).1 |> quiet) c
    c1.raise (r.foldl (fun f x => f ||| x.2) 0))

/-- VREDSUM (R182). -/
def execVredsum (d a : VOp) (t x m : Bool) (s : State) : Host.Outcome State Fault Refusal :=
  vWord (.vredsum d a t x m) (vRed (.vredsum d a t x m) d a x m (if t then id else canon32)
    (if t then fun u v => quiet (u + v) else f32Add) 0) s

/-- VREDMAX (R182). -/
def execVredmax (d a : VOp) (t x m : Bool) (s : State) : Host.Outcome State Fault Refusal :=
  vWord (.vredmax d a t x m) (vRed (.vredmax d a t x m) d a x m (if t then id else canon32)
    (if t then fun u v => quiet (maxI u v) else f32Max) (if t then 0x80000000 else 0xFF800000)) s

/-! ### Moves -/

/-- VMOV (R184). -/
def execVmov (d a : VOp) (m : Bool) (s : State) : Host.Outcome State Fault Refusal := vUn (.vmov d a m) d a m quiet s

/-- Words whose operands must be whole (R168), with their own check and their effect. -/
def vWhole (i : Instr) (ops : List VOp) (own : TCore → Option Nat) (f : TCore → TCore) (at_ : At) (dv : Dev) : Res Unit :=
  let c := (dv.tile at_.t).core
  if ops.any (·.dir != .whole) then vShape i c 3
  else match own c with
    | some n => vShape i c n
    | none => .ok () (dv.onCore at_.t f)

/-- VTRANS (R184). -/
def execVtrans (d a : VOp) (s : State) : Host.Outcome State Fault Refusal :=
  vWord (.vtrans d a) (vWhole (.vtrans d a) [d, a]
    (fun c => if c.csr.cols = 16 && (c.csr.rows = 16 || c.csr.rows = 32) then none else some 4)
    fun c => vWrite d.reg (fun c p => decide (p / 16 < c.csr.rows.toNat))
      (fun c p => quiet (vget (c.v a.reg) 0 (p / 256 * 256 + p % 16 * 16 + p / 16 % 16))) c) s

/-- VSEL (R184): the mask picks a where set, b elsewhere. -/
def execVsel (d a b : VOp) (s : State) : Host.Outcome State Fault Refusal :=
  vWord (.vsel d a b) (vElem (.vsel d a b) d (class2 a.dir b.dir) [a.dir, b.dir] false fun c p =>
    quiet (if (c.wordMask true).getLsbD p then c.src a p else c.src b p)) s

/-- The element VSHIFT moves to index x of n (R185). -/
def shiftFrom (rot : Bool) (k : Int) (n x : Nat) : Option Nat :=
  let y : Int := x - k
  if rot then some (y % n).toNat else if 0 ≤ y ∧ y < n then some y.toNat else none

/-- VSHIFT (R185). -/
def execVshift (d a : VOp) (x f : Bool) (n : BitVec 6) (s : State) : Host.Outcome State Fault Refusal :=
  vWord (.vshift d a x f n) (vWhole (.vshift d a x f n) [d, a] (fun _ => none) fun c =>
    vWrite d.reg (fun c p => c.inShape p) (fun c p =>
      quiet (if x then
        match shiftFrom f n.toInt c.csr.rows.toNat (p / 16) with
        | some y => vget (c.v a.reg) 0 (16 * y + p % 16)
        | none => 0
      else
        match shiftFrom f n.toInt c.csr.cols.toNat (p % 16) with
        | some y => vget (c.v a.reg) 0 (p / 16 * 16 + y)
        | none => 0)) c) s

/-- VIOTA (R184). -/
def execViota (d : VOp) (i : BitVec 8) (s : State) : Host.Outcome State Fault Refusal :=
  vWord (.viota d i) (vElem (.viota d i) d (some (class1 d.dir)) [] false fun _ p =>
    quiet (BitVec.ofNat 32 (if i = 0 then p else if i = 1 then p / 16 else p % 16))) s

/-! ### Queue words -/

/-- VBCAST (R186). -/
def execVbcast (d : VOp) (q : BitVec 4) (s : State) : Host.Outcome State Fault Refusal :=
  vWord (.vbcast d q) (fun at_ dv =>
    let c := (dv.tile at_.t).core
    if q.toNat != 4 then queueProtocol q.toNat
    else if !c.cursorOk d.dir then vShape (.vbcast d q) c 2
    else match c.q.xv with
      | [] => waitEmpty 4 dv
      | x :: r => .ok () (dv.onCore at_.t fun c =>
          vWrite d.reg (fun c => c.active d.dir [] (BitVec.allOnes 512)) (fun _ _ => quiet (x.setWidth 32))
            { c with q := { c.q with xv := r } })) s

/-- VPOP (R186). -/
def execVpop (d : VOp) (q : BitVec 4) (n : BitVec 6) (s : State) : Host.Outcome State Fault Refusal :=
  vWord (.vpop d q n) (fun at_ dv =>
    let c := (dv.tile at_.t).core
    if q.toNat != 2 then queueProtocol q.toNat
    else if d.dir != .whole then vShape (.vpop d q n) c 3
    else if c.q.av.length < n.toNat then waitEmpty 2 dv
    else .ok () (dv.onCore at_.t fun c =>
      let rows := c.q.av.take n.toNat
      vWrite d.reg (fun _ p => decide (p / 16 < n.toNat)) (fun _ p => quiet (rowElem ((rows[p / 16]?).getD 0) (p % 16)))
        { c with q := { c.q with av := c.q.av.drop n.toNat } })) s

/-- VPUSH (R186). -/
def execVpush (d : VOp) (q : BitVec 4) (n : BitVec 6) (s : State) : Host.Outcome State Fault Refusal :=
  vWord (.vpush d q n) (fun at_ dv =>
    let c := (dv.tile at_.t).core
    if q.toNat != 3 then queueProtocol q.toNat
    else if d.dir != .whole then vShape (.vpush d q n) c 3
    else if 64 < c.q.va.length + n.toNat then waitFull 3 dv
    else .ok () (dv.onCore at_.t fun c =>
      { c with q := { c.q with va := c.q.va ++ (List.range n.toNat).map (vRow (c.v d.reg)) } })) s

/-- Push to q.vx, blocking while it is full (R70). -/
def pushVx (f : TCore → Dword) (at_ : At) (dv : Dev) : Res Unit :=
  if 16 ≤ (dv.tile at_.t).core.q.vx.length then waitFull 5 dv
  else .ok () (dv.onCore at_.t fun c => { c with q := { c.q with vx := c.q.vx ++ [f c] } })

/-- VPUSHX (R186). -/
def execVpushx (d : VOp) (q : BitVec 4) (s : State) : Host.Outcome State Fault Refusal :=
  vWord (.vpushx d q) (fun at_ dv =>
    let c := (dv.tile at_.t).core
    let p := 16 * c.csr.curRow.toNat + c.csr.curCol.toNat
    if q.toNat != 5 then queueProtocol q.toNat
    else if d.dir != .whole then vShape (.vpushx d q) c 3
    else if !c.inShape p then vShape (.vpushx d q) c 7
    else pushVx (fun c => zx (vget (c.v d.reg) 0 p)) at_ dv) s

/-! ### Narrow conversions -/

/-- The n-th field of w bytes of a register's rows from byte `from_` on. -/
def vField (r : VReg) (from_ w n : Nat) : Nat :=
  (List.range w).foldl (fun a k => a + vByte r (from_ + w * n + k) * 256 ^ k) 0

/-- An unpack word (R187): all 512 elements of d. -/
def vUnpack (i : Instr) (d a : VOp) (f : TCore → Nat → Word × FFlags) : At → Dev → Res Unit :=
  vWhole i [d, a] (fun _ => none) fun c => vWrite d.reg (fun _ _ => true) f c

/-- VUNP.E4 (R187). -/
def execVunpE4 (d a : VOp) (p : BitVec 3) (s : State) : Host.Outcome State Fault Refusal :=
  vWord (.vunpE4 d a p) (vUnpack (.vunpE4 d a p) d a fun c j =>
    quiet (BitVec.ofNat 32 (fp32.result (e4m3.dec (vField (c.v a.reg) (512 * p.toNat) 1 j))).1)) s
/-- VUNP.E5 (R187). -/
def execVunpE5 (d a : VOp) (p : BitVec 3) (s : State) : Host.Outcome State Fault Refusal :=
  vWord (.vunpE5 d a p) (vUnpack (.vunpE5 d a p) d a fun c j =>
    quiet (BitVec.ofNat 32 (fp32.result (e5m2.dec (vField (c.v a.reg) (512 * p.toNat) 1 j))).1)) s
/-- VUNP.I8 (R187). -/
def execVunpI8 (d a : VOp) (p : BitVec 3) (s : State) : Host.Outcome State Fault Refusal :=
  vWord (.vunpI8 d a p) (vUnpack (.vunpI8 d a p) d a fun c j =>
    quiet ((BitVec.ofNat 8 (vField (c.v a.reg) (512 * p.toNat) 1 j)).signExtend 32)) s
/-- VUNP.H (R187). -/
def execVunpH (d a : VOp) (p : BitVec 3) (s : State) : Host.Outcome State Fault Refusal :=
  vWord (.vunpH d a p) (vUnpack (.vunpH d a p) d a fun c j =>
    quiet (BitVec.ofNat 32 (fp32.result (fp16.dec (vField (c.v a.reg) (1024 * p.toNat) 2 j))).1)) s

/-- The GQ4 levels in multiples of 1/512 (R11). -/
def gq4Level (q : Nat) : Num :=
  match q with
  | 0 => .fin true 512 (-9)
  | 1 => .fin true 356 (-9)
  | 2 => .fin true 268 (-9)
  | 3 => .fin true 202 (-9)
  | 4 => .fin true 146 (-9)
  | 5 => .fin true 96 (-9)
  | 6 => .fin true 47 (-9)
  | 7 => .fin false 0 (-9)
  | 8 => .fin false 40 (-9)
  | 9 => .fin false 82 (-9)
  | 10 => .fin false 126 (-9)
  | 11 => .fin false 172 (-9)
  | 12 => .fin false 224 (-9)
  | 13 => .fin false 286 (-9)
  | 14 => .fin false 368 (-9)
  | _ => .fin false 512 (-9)

/-- VUNP.Q4 (R13, R187). -/
def execVunpQ4 (d a : VOp) (sc : BitVec 5) (p : BitVec 3) (s : State) : Host.Outcome State Fault Refusal :=
  vWord (.vunpQ4 d a sc p) (vUnpack (.vunpQ4 d a sc p) d a fun c j =>
    let q := vByte (c.v a.reg) (256 * p.toNat + j / 2) / 16 ^ (j % 2) % 16
    let x := num32 (vget (c.v sc) 0 (j / 64))
    fdeliver [gq4Level q, x] ((gq4Level q).mul x)) s

/-- A pack word (R188): element j of a, converted, replaces w bytes of d from byte `base` + w j on. -/
def vPack (i : Instr) (d a : VOp) (w base : Nat) (conv : Num → Nat × FFlags) : At → Dev → Res Unit :=
  vWhole i [d, a] (fun _ => none) fun c =>
    let src := c.v a.reg
    let r : Vector (Nat × FFlags) 512 := src.map fun x => conv (num32 x)
    let put (p : Nat) (old : Word) : Word :=
      BitVec.ofNat 32 ((List.range (4 / w)).foldl (fun acc k =>
        putBits acc (8 * w * k) (8 * w) (vget r (0, 0) ((4 * p - base) / w + k)).1) old.toNat)
    let c1 := vWrite d.reg (fun _ p => decide (base ≤ 4 * p) && decide (4 * p < base + 512 * w))
      (fun c p => quiet (put p (vget (c.v d.reg) 0 p))) c
    c1.raise (r.foldl (fun f x => f ||| x.2) 0)

/-- VPACK.E4 (R188). -/
def execVpackE4 (d a : VOp) (t : Bool) (r : Rnd) (p : BitVec 3) (s : State) : Host.Outcome State Fault Refusal :=
  vWord (.vpackE4 d a t r p) (vPack (.vpackE4 d a t r p) d a 1 (512 * p.toNat) (e4m3.conv r t)) s
/-- VPACK.E5 (R188). -/
def execVpackE5 (d a : VOp) (t : Bool) (r : Rnd) (p : BitVec 3) (s : State) : Host.Outcome State Fault Refusal :=
  vWord (.vpackE5 d a t r p) (vPack (.vpackE5 d a t r p) d a 1 (512 * p.toNat) (e5m2.conv r t)) s

/-- A number converted to an 8-bit integer in [lo, hi] (R18, R216): the low 8 bits where it is out of range and saturation is
off, save for an infinity. -/
def toInt8 (lo hi : Int) (r : Rnd) (sat : Bool) : Num → Nat × FFlags
  | .nan => (0, fInvalid)
  | .inf neg => (((if neg then lo else hi) % 256).toNat, fInvalid)
  | .fin neg m e =>
    let (q, eq, ix) := roundAt r neg m e 0
    let z := signedAt neg q eq 0
    if lo ≤ z ∧ z ≤ hi then ((z % 256).toNat, fWhen ix fInexact)
    else (((if sat then (if z < lo then lo else hi) else z) % 256).toNat, fInvalid)

/-- VPACK.I8 (R188). -/
def execVpackI8 (d a : VOp) (t : Bool) (r : Rnd) (p : BitVec 3) (s : State) : Host.Outcome State Fault Refusal :=
  vWord (.vpackI8 d a t r p) (vPack (.vpackI8 d a t r p) d a 1 (512 * p.toNat) (toInt8 (-128) 127 r t)) s
/-- VPACK.H (R188). -/
def execVpackH (d a : VOp) (t : Bool) (r : Rnd) (p : BitVec 3) (s : State) : Host.Outcome State Fault Refusal :=
  vWord (.vpackH d a t r p) (vPack (.vpackH d a t r p) d a 2 (1024 * p.toNat) (fp16.conv r t)) s
/-- VPACK.B (R188). -/
def execVpackB (d a : VOp) (t : Bool) (r : Rnd) (p : BitVec 3) (s : State) : Host.Outcome State Fault Refusal :=
  vWord (.vpackB d a t r p) (vPack (.vpackB d a t r p) d a 2 (1024 * p.toNat) (bf16.conv r t)) s

/-- FP32 to INT32 with RNE, saturating (R189). -/
def f32ToI32 (x : Word) : Word × FFlags := let (z, f) := toIntSat 32 (num32 x); (BitVec.ofInt 32 z, f)
/-- INT32 to FP32 with RNE (R189). -/
def i32ToF32 (x : Word) : Word × FFlags := let (b, f) := fp32.result (.ofInt x.toInt); (BitVec.ofNat 32 b, f)

/-- VCVT.FI (R189). -/
def execVcvtFi (d a : VOp) (s : State) : Host.Outcome State Fault Refusal := vUn (.vcvtFi d a) d a false f32ToI32 s
/-- VCVT.IF (R189). -/
def execVcvtIf (d a : VOp) (s : State) : Host.Outcome State Fault Refusal := vUn (.vcvtIf d a) d a false i32ToF32 s

/-! ### Shape, cursor, window -/

/-- VSHAPE (R190). -/
def execVshape (r c : BitVec 7) (s : State) : Host.Outcome State Fault Refusal :=
  s.run (coreWord .v (.vshape r c) fun x => { x with csr := { x.csr with rows := r.setWidth 6, cols := c.setWidth 5 } })
/-- VCUR (R191). -/
def execVcur (r c : BitVec 7) (g : BitVec 8) (s : State) : Host.Outcome State Fault Refusal :=
  s.run (coreWord .v (.vcur r c g) fun x =>
    { x with csr := { x.csr with curRow := r.setWidth 5, curCol := c.setWidth 4, curDiag := g.setWidth 4 } })
/-- VRBSET (R173). -/
def execVrbset (n : BitVec 8) (s : State) : Host.Outcome State Fault Refusal :=
  s.run (coreWord .v (.vrbset n) fun x => { x with csr := { x.csr with vrb := n.setWidth 4 } })

/-! ### Parking -/

/-- VPARK (R192). -/
def execVpark (v : VOp) (s : State) : Host.Outcome State Fault Refusal :=
  vWord (.vpark v) (fun at_ dv =>
    let c := (dv.tile at_.t).core
    if v.dir != .whole then vShape (.vpark v) c 3
    else match parkReg dv at_.t (c.phys v.reg) (c.v v.reg) with
      | some d1 => .ok () d1
      | none => .wait { code := 10 } dv) s

/-- The bytes of a register (R164). -/
def vregBytes (r : VReg) : List Byte := (r.toList.map fun x => natLe 4 x.toNat).flatten
/-- The register of its 2,048 bytes. -/
def vregOf (b : List Byte) : VReg :=
  let n := leNat b
  Vector.ofFn fun p => BitVec.ofNat 32 (n / 2 ^ (32 * p.val))

/-- The address of a park block (R327). -/
def parkBlock (d : Dev) (vf : BitVec 10) (t : Nat) : Dword := zx (d.vf vf.toNat).parkbase + dw (t * 0x14000)

/-- VUNPARK's read of a copy that was saved to the park block (R193, R327). A copy that cannot be read back is lost (DEDUCED, unsafe: log entry 20). -/
def parkRead (env : Env) (d : Dev) (t p : Nat) : Res VReg :=
  let c := (d.tile t).core
  match hwRead env (whoVf d c.csr.vfid t) .none 2 d (parkBlock d c.csr.vfid t + dw (2048 * p)) 2048 with
  | .ok b d1 => .ok (vregOf b) d1
  | .wait w d1 => .wait w d1
  | .trap _ _ _ _ _ => .roll .lostPark
  | .sys _ _ => .roll .lostPark
  | .roll c => .roll c

/-- VUNPARK's effect once the copy is at hand. -/
def unpark (t p : Nat) (x : VReg) (d : Dev) : Dev :=
  settlePark (d.onCore t fun c =>
    { c with park := c.park.keep fun q _ => q != p, regs := { c.regs with v := vset c.regs.v p x } }) (t / 8)

/-- VUNPARK (R192). -/
def vunparkWord (env : Env) (v : VOp) (at_ : At) (dv : Dev) : Res Unit :=
  let c := (dv.tile at_.t).core
  let p := c.phys v.reg
  if v.dir != .whole then vShape (.vunpark v) c 3
  else match c.park.find p with
    | none => vShape (.vunpark v) c 5
    | some (.held _ x _) => .ok () (unpark at_.t p x dv)
    | some (.saved _) => (parkRead env dv at_.t p).bind fun x d1 => .ok () (unpark at_.t p x d1)
    | some .lost => .roll .lostPark

/-- VUNPARK (R192). -/
def execVunpark (d : VOp) (s : State) : Host.Outcome State Fault Refusal :=
  s.run fun env dv => engineWord .v (.vunpark d) (vunparkWord env d) (fun _ c => c) env dv

/-! ### Mask words -/

/-- KAND (R194). -/
def execKand (d a b : BitVec 5) (s : State) : Host.Outcome State Fault Refusal :=
  s.run (coreWord .v (.kand d a b) fun c => c.setK d.toNat (c.k a.toNat &&& c.k b.toNat))
/-- KOR (R194). -/
def execKor (d a b : BitVec 5) (s : State) : Host.Outcome State Fault Refusal :=
  s.run (coreWord .v (.kor d a b) fun c => c.setK d.toNat (c.k a.toNat ||| c.k b.toNat))
/-- KNOT (R194). -/
def execKnot (d a : BitVec 5) (s : State) : Host.Outcome State Fault Refusal :=
  s.run (coreWord .v (.knot d a) fun c => c.setK d.toNat (~~~ c.k a.toNat))
/-- KMOV (R194). -/
def execKmov (d a : BitVec 5) (s : State) : Host.Outcome State Fault Refusal :=
  s.run (coreWord .v (.kmov d a) fun c => c.setK d.toNat (c.k a.toNat))
/-- KCNT (R194). -/
def execKcnt (a : BitVec 5) (s : State) : Host.Outcome State Fault Refusal :=
  vWord (.kcnt a) (pushVx fun c => dw (((List.range 512).filter fun p => c.inShape p && (c.k a.toNat).getLsbD p).length)) s

end Sys2Proof.Machine
end

