-- ==== Sys2Proof/Machine/Execute.lean ====
section
/-! DEFINITION. The X words (R115 to R129). -/

namespace Sys2Proof.Machine

/-- An X word on the registers of the iteration. -/
def xWord (i : Instr) (f : TCore → TCore) (s : State) : Host.Outcome State Fault Refusal := s.run (coreWord .x i f)

/-- A two-source X word. -/
def xBin (i : Instr) (d a b : BitVec 5) (g : Dword → Dword → Dword) (s : State) : Host.Outcome State Fault Refusal :=
  xWord i (fun c => c.setS d (g (c.s a) (c.s b))) s

/-- A one-source X word. -/
def xUn (i : Instr) (d a : BitVec 5) (g : Dword → Dword) (s : State) : Host.Outcome State Fault Refusal :=
  xWord i (fun c => c.setS d (g (c.s a))) s

/-- The signed quotient, truncated; by 0 all ones, and the overflow case keeps -2^63 (R115). -/
def sdiv (a b : Dword) : Dword := if b = 0 then BitVec.allOnes 64 else dwI (Int.tdiv a.toInt b.toInt)
/-- The signed remainder, with the sign of a; by 0 it is a (R115). -/
def srem (a b : Dword) : Dword := if b = 0 then a else dwI (Int.tmod a.toInt b.toInt)
/-- The unsigned quotient; by 0 all ones (R115). -/
def udivX (a b : Dword) : Dword := if b = 0 then BitVec.allOnes 64 else dw (a.toNat / b.toNat)
/-- The unsigned remainder; by 0 it is a (R115). -/
def uremX (a b : Dword) : Dword := if b = 0 then a else dw (a.toNat % b.toNat)
/-- Shift amounts are taken modulo 64 (R115). -/
def sh64 (b : Dword) : Nat := b.toNat % 64
/-- Set bits of a dword. -/
def popcount (a : Dword) : Nat := ones a 64
/-- Trailing zero bits, 64 for 0 (R115). -/
def ctz (a : Dword) : Nat := ((List.range 64).find? fun i => a.getLsbD i).getD 64
/-- Leading zero bits, 64 for 0 (R115). -/
def clz (a : Dword) : Nat := ((List.range 64).find? fun i => a.getLsbD (63 - i)).getD 64
/-- The smaller of two, signed. -/
def smin (a b : Dword) : Dword := if a.toInt ≤ b.toInt then a else b
/-- The larger of two, signed. -/
def smax (a b : Dword) : Dword := if b.toInt ≤ a.toInt then a else b

/-! ### Integer register words -/

/-- ADD (R115). -/
def execAdd (d a b : BitVec 5) (s : State) : Host.Outcome State Fault Refusal :=
  xBin (.add d a b) d a b (fun x y => x + y) s
/-- SUB (R115). -/
def execSub (d a b : BitVec 5) (s : State) : Host.Outcome State Fault Refusal :=
  xBin (.sub d a b) d a b (fun x y => x - y) s
/-- MUL (R115). -/
def execMul (d a b : BitVec 5) (s : State) : Host.Outcome State Fault Refusal :=
  xBin (.mul d a b) d a b (fun x y => x * y) s
/-- MULH (R115). -/
def execMulh (d a b : BitVec 5) (s : State) : Host.Outcome State Fault Refusal :=
  xBin (.mulh d a b) d a b (fun x y => dwI (x.toInt * y.toInt / 2 ^ 64)) s
/-- MULHU (R115). -/
def execMulhu (d a b : BitVec 5) (s : State) : Host.Outcome State Fault Refusal :=
  xBin (.mulhu d a b) d a b (fun x y => dw (x.toNat * y.toNat / 2 ^ 64)) s
/-- DIV (R115). -/
def execDiv (d a b : BitVec 5) (s : State) : Host.Outcome State Fault Refusal :=
  xBin (.div d a b) d a b (fun x y => sdiv x y) s
/-- DIVU (R115). -/
def execDivu (d a b : BitVec 5) (s : State) : Host.Outcome State Fault Refusal :=
  xBin (.divu d a b) d a b (fun x y => udivX x y) s
/-- REM (R115). -/
def execRem (d a b : BitVec 5) (s : State) : Host.Outcome State Fault Refusal :=
  xBin (.rem d a b) d a b (fun x y => srem x y) s
/-- REMU (R115). -/
def execRemu (d a b : BitVec 5) (s : State) : Host.Outcome State Fault Refusal :=
  xBin (.remu d a b) d a b (fun x y => uremX x y) s
/-- AND (R115). -/
def execAnd (d a b : BitVec 5) (s : State) : Host.Outcome State Fault Refusal :=
  xBin (.and d a b) d a b (fun x y => x &&& y) s
/-- OR (R115). -/
def execOr (d a b : BitVec 5) (s : State) : Host.Outcome State Fault Refusal :=
  xBin (.or d a b) d a b (fun x y => x ||| y) s
/-- XOR (R115). -/
def execXor (d a b : BitVec 5) (s : State) : Host.Outcome State Fault Refusal :=
  xBin (.xor d a b) d a b (fun x y => x ^^^ y) s
/-- ANDN (R115). -/
def execAndn (d a b : BitVec 5) (s : State) : Host.Outcome State Fault Refusal :=
  xBin (.andn d a b) d a b (fun x y => x &&& ~~~ y) s
/-- SHL (R115). -/
def execShl (d a b : BitVec 5) (s : State) : Host.Outcome State Fault Refusal :=
  xBin (.shl d a b) d a b (fun x y => x <<< sh64 y) s
/-- SHR (R115). -/
def execShr (d a b : BitVec 5) (s : State) : Host.Outcome State Fault Refusal :=
  xBin (.shr d a b) d a b (fun x y => x >>> sh64 y) s
/-- SAR (R115). -/
def execSar (d a b : BitVec 5) (s : State) : Host.Outcome State Fault Refusal :=
  xBin (.sar d a b) d a b (fun x y => x.sshiftRight (sh64 y)) s
/-- ROL (R115). -/
def execRol (d a b : BitVec 5) (s : State) : Host.Outcome State Fault Refusal :=
  xBin (.rol d a b) d a b (fun x y => x.rotateLeft (sh64 y)) s
/-- MIN (R115). -/
def execMin (d a b : BitVec 5) (s : State) : Host.Outcome State Fault Refusal :=
  xBin (.min d a b) d a b (fun x y => smin x y) s
/-- MAX (R115). -/
def execMax (d a b : BitVec 5) (s : State) : Host.Outcome State Fault Refusal :=
  xBin (.max d a b) d a b (fun x y => smax x y) s
/-- MINU (R115). -/
def execMinu (d a b : BitVec 5) (s : State) : Host.Outcome State Fault Refusal :=
  xBin (.minu d a b) d a b (fun x y => if x.toNat ≤ y.toNat then x else y) s
/-- MAXU (R115). -/
def execMaxu (d a b : BitVec 5) (s : State) : Host.Outcome State Fault Refusal :=
  xBin (.maxu d a b) d a b (fun x y => if y.toNat ≤ x.toNat then x else y) s
/-- SLT (R115). -/
def execSlt (d a b : BitVec 5) (s : State) : Host.Outcome State Fault Refusal :=
  xBin (.slt d a b) d a b (fun x y => b2d (decide (x.toInt < y.toInt))) s
/-- SLTU (R115). -/
def execSltu (d a b : BitVec 5) (s : State) : Host.Outcome State Fault Refusal :=
  xBin (.sltu d a b) d a b (fun x y => b2d (decide (x.toNat < y.toNat))) s
/-- SEQ (R115). -/
def execSeq (d a b : BitVec 5) (s : State) : Host.Outcome State Fault Refusal :=
  xBin (.seq d a b) d a b (fun x y => b2d (x == y)) s
/-- SNE (R115). -/
def execSne (d a b : BitVec 5) (s : State) : Host.Outcome State Fault Refusal :=
  xBin (.sne d a b) d a b (fun x y => b2d (x != y)) s
/-- CLZ (R115). -/
def execClz (d a : BitVec 5) (s : State) : Host.Outcome State Fault Refusal :=
  xUn (.clz d a) d a (fun x => dw (clz x)) s
/-- CTZ (R115). -/
def execCtz (d a : BitVec 5) (s : State) : Host.Outcome State Fault Refusal :=
  xUn (.ctz d a) d a (fun x => dw (ctz x)) s
/-- POPC (R115). -/
def execPopc (d a : BitVec 5) (s : State) : Host.Outcome State Fault Refusal :=
  xUn (.popc d a) d a (fun x => dw (popcount x)) s
/-- SEL (R115). -/
def execSel (d a b c : BitVec 5) (s : State) : Host.Outcome State Fault Refusal :=
  xWord (.sel d a b c) (fun x => x.setS d (if x.s c != 0 then x.s a else x.s b)) s

/-! ### Immediate words -/

/-- ADDI (R91, R116). -/
def execAddi (d a : BitVec 5) (i : BitVec 12) (s : State) : Host.Outcome State Fault Refusal :=
  s.run (riWord .x (.addi d a i) .addi d a i)
/-- ANDI (R91, R116). -/
def execAndi (d a : BitVec 5) (i : BitVec 12) (s : State) : Host.Outcome State Fault Refusal :=
  s.run (riWord .x (.andi d a i) .andi d a i)
/-- ORI (R91, R116). -/
def execOri (d a : BitVec 5) (i : BitVec 12) (s : State) : Host.Outcome State Fault Refusal :=
  s.run (riWord .x (.ori d a i) .ori d a i)
/-- XORI (R91, R116). -/
def execXori (d a : BitVec 5) (i : BitVec 12) (s : State) : Host.Outcome State Fault Refusal :=
  s.run (riWord .x (.xori d a i) .xori d a i)
/-- SLTI (R91, R116). -/
def execSlti (d a : BitVec 5) (i : BitVec 12) (s : State) : Host.Outcome State Fault Refusal :=
  s.run (riWord .x (.slti d a i) .slti d a i)
/-- SHLI (R116). -/
def execShli (d a : BitVec 5) (n : BitVec 12) (s : State) : Host.Outcome State Fault Refusal :=
  xUn (.shli d a n) d a (fun x => x <<< n.toNat) s
/-- SHRI (R116). -/
def execShri (d a : BitVec 5) (n : BitVec 12) (s : State) : Host.Outcome State Fault Refusal :=
  xUn (.shri d a n) d a (fun x => x >>> n.toNat) s
/-- SARI (R116). -/
def execSari (d a : BitVec 5) (n : BitVec 12) (s : State) : Host.Outcome State Fault Refusal :=
  xUn (.sari d a n) d a (fun x => x.sshiftRight n.toNat) s
/-- LUI (R116). -/
def execLui (d : BitVec 5) (i : BitVec 17) (s : State) : Host.Outcome State Fault Refusal :=
  xWord (.lui d i) (fun c => c.setS d (sx i <<< 12)) s
/-- NOP (R117). -/
def execNop (s : State) : Host.Outcome State Fault Refusal := xWord .nop (fun c => c) s

/-! ### Scalar floating point -/

/-- The low 32 bits of an S register (R118). -/
def TCore.sf (c : TCore) (r : BitVec 5) : Word := (c.s r).setWidth 32

/-- A scalar FP32 word: the result to bits [31:0], zero above, the flags to VFLAGS (R118). -/
def fWord (i : Instr) (d : BitVec 5) (f : TCore → Word × FFlags) (s : State) : Host.Outcome State Fault Refusal :=
  xWord i (fun c => (c.setS d (zx (f c).1)).raise (f c).2) s

/-- FADD (R118). -/
def execFadd (d a b : BitVec 5) (s : State) : Host.Outcome State Fault Refusal :=
  fWord (.fadd d a b) d (fun c => f32Add (c.sf a) (c.sf b)) s
/-- FSUB (R118). -/
def execFsub (d a b : BitVec 5) (s : State) : Host.Outcome State Fault Refusal :=
  fWord (.fsub d a b) d (fun c => f32Sub (c.sf a) (c.sf b)) s
/-- FMUL (R118). -/
def execFmul (d a b : BitVec 5) (s : State) : Host.Outcome State Fault Refusal :=
  fWord (.fmul d a b) d (fun c => f32Mul (c.sf a) (c.sf b)) s
/-- FFMA (R118). -/
def execFfma (d a b : BitVec 5) (s : State) : Host.Outcome State Fault Refusal :=
  fWord (.ffma d a b) d (fun c => f32Fma (c.sf a) (c.sf b) (c.sf d)) s
/-- FMIN (R118). -/
def execFmin (d a b : BitVec 5) (s : State) : Host.Outcome State Fault Refusal :=
  fWord (.fmin d a b) d (fun c => f32Min (c.sf a) (c.sf b)) s
/-- FMAX (R118). -/
def execFmax (d a b : BitVec 5) (s : State) : Host.Outcome State Fault Refusal :=
  fWord (.fmax d a b) d (fun c => f32Max (c.sf a) (c.sf b)) s
/-- FCMP (R118). -/
def execFcmp (d a b : BitVec 5) (r : BitVec 3) (s : State) : Host.Outcome State Fault Refusal :=
  fWord (.fcmp d a b r) d (fun c =>
    let x := num32 (c.sf a)
    let y := num32 (c.sf b)
    (if relNum r.toNat x y then 1 else 0, relFlags r.toNat x y)) s
/-- FCVT to=int (R118). -/
def execFcvtToInt (d a : BitVec 5) (s : State) : Host.Outcome State Fault Refusal :=
  xWord (.fcvtToInt d a) (fun c =>
    let r := toIntSat 64 (num32 (c.sf a))
    (c.setS d (dwI r.1)).raise r.2) s
/-- FCVT to=fp (R118). -/
def execFcvtToFp (d a : BitVec 5) (s : State) : Host.Outcome State Fault Refusal :=
  xWord (.fcvtToFp d a) (fun c =>
    let r := fp32.result (.ofInt (c.s a).toInt)
    (c.setS d (dw r.1)).raise r.2) s

/-! ### Queue words -/

/-- An X word that may wait or trap. -/
def xTry (i : Instr) (f : Env → At → Dev → Res Unit) (s : State) : Host.Outcome State Fault Refusal :=
  s.run fun env d => engineWord .x i (f env) (fun _ c => c) env d

/-- The head of a queue that X consumes, and the queues without it. -/
def popX (q : Nat) (c : TCore) : Option (Dword × TCore) :=
  match q with
  | 0 => c.q.ax.head?.map fun x => (x, { c with q := { c.q with ax := c.q.ax.tail } })
  | 5 => c.q.vx.head?.map fun x => (x, { c with q := { c.q with vx := c.q.vx.tail } })
  | 7 => c.q.mx.head?.map fun x => (x, { c with q := { c.q with mx := c.q.mx.tail } })
  | _ => none

/-- POP (R70, R119). -/
def popWord (d q : BitVec 5) (a : At) (dv : Dev) : Res Unit :=
  if q.toNat != 0 && q.toNat != 5 && q.toNat != 7 then queueProtocol q.toNat
  else match popX q.toNat (dv.tile a.t).core with
    | none => waitEmpty q.toNat dv
    | some (x, c) => .ok () (dv.onCore a.t fun _ => c.setS d x)

/-- POP (R119). -/
def execPop (d q : BitVec 5) (s : State) : Host.Outcome State Fault Refusal := xTry (.pop d q) (fun _ => popWord d q) s

/-- The queues with an entry at the tail of one that X produces. -/
def pushX (q : Nat) (x : Dword) (c : TCore) : TCore :=
  match q with
  | 1 => { c with q := { c.q with xa := c.q.xa ++ [x] } }
  | 4 => { c with q := { c.q with xv := c.q.xv ++ [x] } }
  | 6 => { c with q := { c.q with xm := c.q.xm ++ [x] } }
  | _ => c

/-- PUSH (R70, R119). -/
def pushWord (q r : BitVec 5) (a : At) (dv : Dev) : Res Unit :=
  let c := (dv.tile a.t).core
  if q.toNat != 1 && q.toNat != 4 && q.toNat != 6 then queueProtocol q.toNat
  else if qdepth q.toNat ≤ c.qlen q.toNat then waitFull q.toNat dv
  else .ok () (dv.onCore a.t fun c => pushX q.toNat (c.s r) c)

/-- PUSH (R119). -/
def execPush (q a : BitVec 5) (s : State) : Host.Outcome State Fault Refusal := xTry (.push q a) (fun _ => pushWord q a) s

/-- QSTAT (R119). -/
def execQstat (d q : BitVec 5) (s : State) : Host.Outcome State Fault Refusal :=
  xWord (.qstat d q) (fun c => c.setS d (dw (qdepth q.toNat * 256 + c.qlen q.toNat))) s

/-! ### Event-queue words -/

/-- Write the two dwords of a record to S[d] and S[d + 1]; an empty queue gives 0 in both (R123). -/
def readRec (d : BitVec 5) (c : TCore) : TCore :=
  let r : Rec16 := (c.ev.head?.map (·.1)).getD 0
  (c.setS d (r.extractLsb' 0 64)).setS (d + 1) (r.extractLsb' 64 64)

/-- EVPOP: it also raises the pts of path 0 to the timestamp the record carries (R123, R309). -/
def execEvpop (d : BitVec 5) (s : State) : Host.Outcome State Fault Refusal :=
  xTry (.evpop d) (fun _ a dv =>
    let ts := (((dv.tile a.t).core.ev.head?).map (·.2)).getD 0
    let d1 := dv.onCore a.t fun c => { readRec d c with ev := c.ev.tail }
    .ok () (setPts d1 (.tile a.t 0) (dmax (getPts d1 (.tile a.t 0)) ts))) s
/-- EVPEEK (R123). -/
def execEvpeek (d : BitVec 5) (s : State) : Host.Outcome State Fault Refusal := xWord (.evpeek d) (readRec d) s
/-- EVCNT (R123). -/
def execEvcnt (d : BitVec 5) (s : State) : Host.Outcome State Fault Refusal :=
  xWord (.evcnt d) (fun c => c.setS d (dw c.ev.length)) s
/-- WFE (R124). -/
def execWfe (s : State) : Host.Outcome State Fault Refusal :=
  xTry .wfe (fun _ a dv => if (dv.tile a.t).core.ev.isEmpty then .wait Wait.idle dv else .ok () dv) s

/-! ### Launching -/

/-- LAUNCH (R125): S[d] receives the REJ code and the STATE left. -/
def launchWord (d r : BitVec 5) (env : Env) (a : At) (dv : Dev) : Res Unit :=
  (submit env dv (.tile a.t 0) { whoEng dv a.t .x with unit := .access a.t } a.t (some a.t) ((dv.tile a.t).core.s r)).bind fun x d1 =>
    .ok () (d1.onCore a.t fun c => c.setS d (dw (x.1 + 256 * x.2)))

/-- LAUNCH (R125). -/
def execLaunch (d a : BitVec 5) (s : State) : Host.Outcome State Fault Refusal := xTry (.launch d a) (launchWord d a) s

/-! ### CSRs -/

/-- A list of 16-bit registers packed, the first lowest. -/
def pack16 (v : Vector (BitVec 16) 8) (lo n : Nat) : Nat :=
  (List.range n).foldl (fun a i => a + (vget v 0 (lo + i)).toNat * 2 ^ (16 * i)) 0

/-- SNAPi: the i-th oldest pending result (R178). -/
def snapCsr (c : TCore) (i : Nat) : Dword :=
  match (c.sfu.toList.filterMap id)[i]? with
  | none => 0
  | some r => dw (2 ^ 63 + r.walk.toNat % 2 ^ 32 * 2 ^ 16 + r.rem * 2 ^ 12 + r.func.toNat * 2 ^ 9 + r.preg.toNat)

/-- MSHAPE as CSRR reads it (R127, R206). -/
def mshapeCsr (c : TCore) : Dword := dw (c.csr.shM.toNat + c.csr.shN.toNat * 2 ^ 16 + c.csr.shK.toNat * 2 ^ 32)

/-- LEASESTAT of a tile (R204). -/
def leasestat (d : Dev) (t : Nat) : Dword :=
  let c := (d.tile t).core
  let k := d.cluster (t / 8)
  let busy := k.slots.toList.filter fun s => s.st == .closed || s.st == .draining
  let fmt := match c.head with
    | some h => (k.slot h.toNat).acc.toNat
    | none => 0
  dw (c.lease.lastW.toNat * 2 ^ 40 + c.lease.lastF.toNat * 2 ^ 36 + c.lease.endc.toNat * 2 ^ 32 + fmt * 2 ^ 30 + k.resv * 2 ^ 27 +
    busy.length * 2 ^ 23 + (if busy.isEmpty then 0 else (k.order.head?.getD 0)) * 2 ^ 20 + b2n c.head.isSome * 2 ^ 19 +
    (c.head.getD 0).toNat * 2 ^ 16 + min c.lease.cap k.lcap.toNat * 2 ^ 9 + c.lease.left * 4 + b2n (k.reqs.contains t) * 2 +
    b2n (k.holder == some t))

/-- The value of a CSR (R127). (DEDUCED, unsafe: log entry 46) -/
def csrValue (d : Dev) (t n : Nat) : Dword :=
  let y := d.tile t
  let c := y.core
  let k := d.cluster (t / 8)
  if n = 0x000 then y.cycle
  else if n ≤ 0x004 then (vget c.eng {} (n - 1)).walk
  else if n = 0x005 then zx c.csr.win
  else if n = 0x010 then c.vshapeCsr
  else if n = 0x011 then c.vcurCsr
  else if n = 0x012 then zx c.csr.vrb
  else if n = 0x013 then zx c.csr.vmask
  else if n = 0x014 then zx c.csr.vflags
  else if n = 0x020 then zx c.csr.mstat
  else if n = 0x021 then mshapeCsr c
  else if 0x022 ≤ n && n ≤ 0x029 then zx (vget c.csr.bd 0 (n - 0x022))
  else if n = 0x02A then zx c.csr.bcap
  else if n = 0x02B then zx c.csr.cord
  else if n = 0x02C then zx c.csr.cstep
  else if n = 0x02D then leasestat d t
  else if n = 0x02E then dw (parkFree d (t / 8))
  else if 0x030 ≤ n && n ≤ 0x034 then dw (vget k.bnd.bm 1 (n - 0x030))
  else if n = 0x035 then dw k.bnd.ba
  else if n = 0x040 then c.csr.tvec
  else if n = 0x041 then c.trap.cause
  else if n = 0x042 then c.trap.pc
  else if n = 0x043 then c.trap.eng
  else if n = 0x044 then c.trap.info0
  else if n = 0x045 then c.trap.info1
  else if n = 0x046 then c.trap.info2
  else if n = 0x047 then c.trap.info3
  else if 0x048 ≤ n && n ≤ 0x04B then (vget c.eng {} (n - 0x048)).rgnPc
  else if n = 0x050 then zx c.csr.asid
  else if n = 0x051 then zx c.csr.vfid
  else if n = 0x052 then c.csr.ctxptr
  else if n = 0x053 then 1
  else if 0x058 ≤ n && n ≤ 0x05F then snapCsr c (n - 0x058)
  else if n = 0x060 then dw c.evqstat
  else if n = 0x061 then zx y.stray
  else if n = 0x062 then zx y.ovlp
  else if n = 0x070 then zx c.csr.profctl
  else if n = 0x071 then zx c.csr.profbuf
  else 0

/-- A change to the control registers of an iteration. -/
def TCore.onCsr (c : TCore) (f : Csrs → Csrs) : TCore := { c with csr := f c.csr }

/-- A value a writable CSR refuses (R32, R63, R127): OPERAND_SHAPE. -/
def csrRefuses (d : Dev) (t n : Nat) (v : Dword) : Bool :=
  if n = 0x005 then decide (v.toNat < 64) || decide (65535 < v.toNat)
  else if 0x022 ≤ n && n ≤ 0x029 then v == 0 || decide (65535 < v.toNat)
  else if n = 0x02A then decide ((d.cluster (t / 8)).resv * 1024 < v.toNat)
  else false

/-- Write a CSR marked read/write: the bits it implements (R127); a write of CORD sets CSTEPIDX to 0 (R36). -/
def csrPut (n : Nat) (v : Dword) (c : TCore) : TCore :=
  if n = 0x005 then c.onCsr fun x => { x with win := v.setWidth 16 }
  else if n = 0x013 then c.onCsr fun x => { x with vmask := v.setWidth 3 }
  else if 0x022 ≤ n && n ≤ 0x029 then c.onCsr fun x => { x with bd := vset x.bd (n - 0x022) (v.setWidth 16) }
  else if n = 0x02A then c.onCsr fun x => { x with bcap := v.setWidth 13 }
  else if n = 0x02B then c.onCsr fun x => { x with cord := v.setWidth 55, cstep := 0 }
  else if n = 0x02C then c.onCsr fun x => { x with cstep := v.setWidth 32 }
  else if n = 0x040 then c.onCsr fun x => { x with tvec := v &&& ~~~ 3#64 }
  else if n = 0x070 then c.onCsr fun x => { x with profctl := v.setWidth 4 &&& 0xD }
  else if n = 0x071 then c.onCsr fun x => { x with profbuf := v.setWidth 55 }
  else c

/-- Clear the selected bits of a CSR marked read, clear (R126, R127). -/
def csrClear (n : Nat) (m : Dword) (y : Tile) : Tile :=
  let c := y.core
  if n = 0x014 then { y with core := c.onCsr fun x => { x with vflags := x.vflags &&& ~~~ m.setWidth 5 } }
  else if n = 0x020 then { y with core := c.onCsr fun x => { x with mstat := x.mstat &&& ~~~ m.setWidth 4 } }
  else if n = 0x060 then { y with core := { c with lost := c.lost &&& ~~~ m.extractLsb' 16 16 } }
  else if n = 0x061 then { y with stray := y.stray &&& ~~~ m.setWidth 32 }
  else if n = 0x062 then { y with ovlp := y.ovlp &&& ~~~ m.setWidth 32 }
  else y

/-- Write a value to a CSR, which may refuse it. -/
def csrWrite (t n : Nat) (v : Dword) (d : Dev) : Res Unit :=
  if csrRefuses d t n v then .trap 0x02 0 0 0 0 else .ok () (d.onCore t (csrPut n v))

/-- CSRR (R126). -/
def execCsrr (d : BitVec 5) (c : BitVec 12) (s : State) : Host.Outcome State Fault Refusal :=
  xTry (.csrr d c) (fun _ a dv => .ok () (dv.onCore a.t fun x => x.setS d (csrValue dv a.t c.toNat))) s
/-- CSRW (R126). -/
def execCsrw (a : BitVec 5) (c : BitVec 12) (s : State) : Host.Outcome State Fault Refusal :=
  xTry (.csrw a c) (fun _ p dv => csrWrite p.t c.toNat ((dv.tile p.t).core.s a) dv) s
/-- CSRS (R126). -/
def execCsrs (d a : BitVec 5) (c : BitVec 12) (s : State) : Host.Outcome State Fault Refusal :=
  xTry (.csrs d a c) (fun _ p dv =>
    let old := csrValue dv p.t c.toNat
    (csrWrite p.t c.toNat (old ||| (dv.tile p.t).core.s a) dv).bind fun _ d1 => .ok () (d1.onCore p.t fun x => x.setS d old)) s

/-- CSRC's clearing (R126). -/
def csrcWord (d a : BitVec 5) (n : Nat) (p : At) (dv : Dev) : Res Unit :=
  let old := csrValue dv p.t n
  let m := (dv.tile p.t).core.s a
  let r : Res Unit := if csrReadClear.contains n then .ok () (dv.onTile p.t (csrClear n m)) else csrWrite p.t n (old &&& ~~~ m) dv
  r.bind fun _ d1 => .ok () (d1.onCore p.t fun x => x.setS d old)

/-- CSRC (R126). -/
def execCsrc (d a : BitVec 5) (c : BitVec 12) (s : State) : Host.Outcome State Fault Refusal :=
  xTry (.csrc d a c) (fun _ => csrcWord d a c.toNat) s

/-! ### Software traps and return -/

/-- TRAP (R128): the word is walked, then SOFTWARE is taken with TPC at the word. -/
def trapStep (code : BitVec 12) (env : Env) (d : Dev) : Dev :=
  match ready d env.unit env.eng with
  | .go pc hand =>
    let d1 := walkTo (issued d ⟨env.unit, env.eng, pc, hand⟩) ⟨env.unit, env.eng, pc, hand⟩ (pc + 4) (.other .x)
    if env.eng = .x then enterTrap env d1 env.unit .x pc 0x0C (zx code) 0 0 0 else d1
  | .slip => engineWord .x (.trap code) (fun _ d => .ok () d) (fun _ c => c) env d
  | .hold => engineWord .x (.trap code) (fun _ d => .ok () d) (fun _ c => c) env d
  | .no => d

/-- TRAP (R128). -/
def execTrap (c : BitVec 12) (s : State) : Host.Outcome State Fault Refusal := s.run (trapStep c)

/-- The return from a user trap (R129): the handler ends, and every engine goes on where it was frozen; M is held as R335 says; a
rollback that fell in the handler is made now (R323). -/
def leaveTrap (env : Env) (t : Nat) (d : Dev) : Dev :=
  let c := (d.tile t).core
  let d1 := trace env d t 2 .x (c.trap.hand.map (·.pc) |>.getD 0) 0
  let d2 := d1.onCore t fun y => { y with trap := { y.trap with hand := none, pendRb := none, mHold := c.trap.mHold || c.trap.eng == 3 } }
  match c.trap.pendRb with
  | some k => rollback env d2 t .x k
  | none => d2

/-- ERET: with no handler running it is an illegal word of kind 1 (R129). -/
def eretWord (env : Env) (a : At) (d : Dev) : Res Unit :=
  if a.hand then .ok () (leaveTrap env a.t d) else illegal ((encode .eret).getD 0) 1

/-- ERET (R129). -/
def execEret (s : State) : Host.Outcome State Fault Refusal := xTry .eret eretWord s

end Sys2Proof.Machine
end

