-- ==== Sys2Proof/Machine/Tensor.lean ====
section
/-! DEFINITION. Tensor descriptors (R8, R12, R13, R27 to R29): their fields, what TIDSET refuses, lines and elements. -/

namespace Sys2Proof.Machine

/-- BASE (R27). -/
def tBase (r : Row) : Nat := bitsN r 0 55
/-- SCALE (R27). -/
def tScale (r : Row) : Nat := bitsN r 64 55
/-- SIZEd (R27). -/
def tSize (r : Row) (d : Nat) : Nat := bitsN r (128 + 32 * d) 32
/-- STRIDEd (R27). -/
def tStride (r : Row) (d : Nat) : Nat := bitsN r (256 + 40 * d) 40
/-- KEY (R27). -/
def tKey (r : Row) : Nat := bitsN r 416 24
/-- FMT (R27). -/
def tFmt (r : Row) : Nat := bitsN r 440 4
/-- RANK (R27). -/
def tRank (r : Row) : Nat := bitsN r 444 3
/-- Whether a line of the tensor is kept as most recently used: a stream's is kept as least (R27). -/
def tFront (r : Row) : Bool := bitsN r 464 2 != 1
/-- CM (R27). -/
def tCm (r : Row) : Nat := bitsN r 448 16

/-- Bytes of an element of a format, 0 for GQ4's half bytes (R8). -/
def fmtBytes (f : Nat) : Nat :=
  match f with
  | 0 => 4
  | 1 => 2
  | 2 => 2
  | 3 => 1
  | 4 => 1
  | 5 => 1
  | 6 => 1
  | 7 => 4
  | 9 => 4
  | _ => 0

/-- The alignment of addresses in a tensor: its element's bytes, 32 for GQ4 (R12, R28). -/
def tAlign (r : Row) : Nat := if tFmt r = 8 then 32 else fmtBytes (tFmt r)

/-- Bytes of a line (R153). -/
def tLineBytes (r : Row) : Nat := if tFmt r = 8 then tSize r 0 / 2 else tSize r 0 * fmtBytes (tFmt r)

/-- Lines of a tensor (R13). -/
def tLines (r : Row) : Nat := tSize r 1 * tSize r 2 * tSize r 3

/-- The address of line (i1, i2, i3) (R27). -/
def tLineAt (r : Row) (i1 i2 i3 : Nat) : Nat := tBase r + i1 * tStride r 1 + i2 * tStride r 2 + i3 * tStride r 3

/-- The address of line number L (R13). -/
def tLine (r : Row) (l : Nat) : Nat :=
  tLineAt r (l % tSize r 1) (l / tSize r 1 % tSize r 2) (l / tSize r 1 / tSize r 2)

/-- The address of the last byte (R28 check 9): of a GQ4 tensor, whose elements take half a byte and whose STRIDE0 is 0, that of the last
packed byte of the last line (DESIGN CHOICE, unsafe: log entry 79). -/
def tLast (r : Row) : Nat :=
  tLineAt r (tSize r 1 - 1) (tSize r 2 - 1) (tSize r 3 - 1) + tLineBytes r - 1

/-- A reserved field is nonzero, or LOC is 11 (R28 check 2). -/
def tReserved (r : Row) : Bool :=
  bitsN r 55 9 != 0 || bitsN r 119 9 != 0 || bitsN r 447 1 != 0 || bitsN r 467 45 != 0 || bitsN r 464 2 == 3

/-- Sizes and strides against RANK (R28 check 5). -/
def tDimsBad (r : Row) : Bool :=
  (List.range 4).any fun d =>
    if d < tRank r then tSize r d == 0 else tSize r d != 1 || tStride r d != 0

/-- The number of the check of R28 that a descriptor for an entry fails, 0 for none. -/
def tidCheck (tid : BitVec 8) (r : Row) : Nat :=
  let up := [1, 2, 3]
  if tid = 0 then 1
  else if tReserved r then 2
  else if 10 ≤ tFmt r then 3
  else if tRank r = 0 || 5 ≤ tRank r then 4
  else if tDimsBad r then 5
  else if (if tFmt r = 8 then tStride r 0 != 0 || tSize r 0 % 64 != 0 else tStride r 0 != fmtBytes (tFmt r)) then 6
  else if up.any fun d => tStride r d % tAlign r != 0 then 7
  else if tBase r % tAlign r != 0 || (if tFmt r = 8 then tScale r % 256 != 0 else tScale r != 0) then 8
  else if 2 ^ 55 ≤ tLast r then 9
  else if tCm r != 0 && (tRank r != 3 || tSize r 1 % tCm r != 0 ||
      (List.range 3).any fun d => decide (65535 < tSize r d)) then 10
  else 0

/-- A broadcast: a stride of 0 where the size exceeds 1, dimension 0 of GQ4 apart (R29). -/
def tBroadcast (r : Row) : Bool :=
  (List.range 4).any fun d => decide (1 < tSize r d) && tStride r d == 0 && !(d == 0 && tFmt r == 8)

/-- A tensor may be a destination: RO is 0 and it is no broadcast (R27, R29). -/
def tWritable (r : Row) : Bool := !r.getLsbD 466 && !tBroadcast r

/-- The entry of a TID; TID 0 names none (R24). -/
def tidOf (tids : Vector (Option Row) 256) (tid : Nat) : Option Row := if tid = 0 then none else vget tids none tid

end Sys2Proof.Machine
end

