-- ==== Sys2Proof/Machine/AccessWords.lean ====
section
/-! DEFINITION. The A words of one ordinary access each, or none: address arithmetic, loads and stores, atomics, flags,
barrier objects, the tensor table, translation (R130 to R146, R162, R163). -/

namespace Sys2Proof.Machine

/-- An A word. -/
def aTry (i : Instr) (f : Env → At → Dev → Res Unit) (s : State) : Host.Outcome State Fault Refusal :=
  s.run fun env d => engineWord .a i (f env) (fun _ c => c) env d

/-- An A word on the registers of the iteration. -/
def aWord (i : Instr) (f : TCore → TCore) (s : State) : Host.Outcome State Fault Refusal := s.run (coreWord .a i f)

/-- A two-source A word. -/
def aBin (i : Instr) (d a b : BitVec 5) (g : Dword → Dword → Dword) (s : State) : Host.Outcome State Fault Refusal :=
  aWord i (fun c => c.setA d (g (c.a a) (c.a b))) s

/-! ### Address arithmetic (R133) -/

/-- ANOP (R133). -/
def execAnop (s : State) : Host.Outcome State Fault Refusal := aWord .anop (fun c => c) s
/-- AADD (R133). -/
def execAadd (d a b : BitVec 5) (s : State) : Host.Outcome State Fault Refusal := aBin (.aadd d a b) d a b (fun x y => x + y) s
/-- ASUB (R133). -/
def execAsub (d a b : BitVec 5) (s : State) : Host.Outcome State Fault Refusal := aBin (.asub d a b) d a b (fun x y => x - y) s
/-- AMUL (R133). -/
def execAmul (d a b : BitVec 5) (s : State) : Host.Outcome State Fault Refusal := aBin (.amul d a b) d a b (fun x y => x * y) s
/-- ASHL (R133). -/
def execAshl (d a b : BitVec 5) (s : State) : Host.Outcome State Fault Refusal :=
  aBin (.ashl d a b) d a b (fun x y => x <<< sh64 y) s
/-- ASHR (R133). -/
def execAshr (d a b : BitVec 5) (s : State) : Host.Outcome State Fault Refusal :=
  aBin (.ashr d a b) d a b (fun x y => x.sshiftRight (sh64 y)) s
/-- AAND (R133). -/
def execAand (d a b : BitVec 5) (s : State) : Host.Outcome State Fault Refusal := aBin (.aand d a b) d a b (fun x y => x &&& y) s
/-- AMIN (R133). -/
def execAmin (d a b : BitVec 5) (s : State) : Host.Outcome State Fault Refusal := aBin (.amin d a b) d a b smin s
/-- AMAX (R133). -/
def execAmax (d a b : BitVec 5) (s : State) : Host.Outcome State Fault Refusal := aBin (.amax d a b) d a b smax s
/-- ASLT (R133). -/
def execAslt (d a b : BitVec 5) (s : State) : Host.Outcome State Fault Refusal :=
  aBin (.aslt d a b) d a b (fun x y => b2d (decide (x.toInt < y.toInt))) s
/-- AADDI (R91, R133). -/
def execAaddi (d a : BitVec 5) (i : BitVec 12) (s : State) : Host.Outcome State Fault Refusal :=
  s.run (riWord .a (.aaddi d a i) .aaddi d a i)
/-- ALUI (R133). -/
def execAlui (d : BitVec 5) (i : BitVec 17) (s : State) : Host.Outcome State Fault Refusal :=
  aWord (.alui d i) (fun c => c.setA d (sx i <<< 12)) s
/-- AANDI (R91, R133). -/
def execAandi (d a : BitVec 5) (i : BitVec 12) (s : State) : Host.Outcome State Fault Refusal :=
  s.run (riWord .a (.aandi d a i) .aandi d a i)
/-- ASHLI (R133). -/
def execAshli (d a : BitVec 5) (sh : BitVec 12) (s : State) : Host.Outcome State Fault Refusal :=
  aWord (.ashli d a sh) (fun c => c.setA d (c.a a <<< sh.toNat)) s

/-! ### Loads and stores (R130, R131, R134 to R136) -/

/-- MISALIGNED (R130). -/
def misaligned {α : Type} (va : Dword) (n : Nat) : Res α := .trap 0x0B va (dw n) 0 0

/-- OPERAND_SHAPE on A: TINFO0 and TINFO1 (R144, R147). -/
def aShape {α : Type} (i : Nat) (v : Dword) : Res α := .trap 0x02 (dw i) v 0 0

/-- TENSOR_ENTRY (R24). -/
def tensorEntry {α : Type} : Res α := .trap 0x09 0 0 0 0

/-- An ordinary load of n bytes, n a power of two up to 64 (R136). -/
def aLoad (env : Env) (t : Nat) (k : AccKind) (va : Dword) (n : Nat) (d : Dev) : Res (List Byte) :=
  if !aligned va n then misaligned va n else
  (locate env d (whoTile d t) k va).bind fun x d1 => tileLoad env d1 t (d1.tile t).core.csr.vfid x.2 x.1 n

/-- An ordinary store of bytes, a power of two up to 64 of them (R136); an 8-byte one to the launch port page submits, one of
another size is discarded (R40, R50). -/
def aStore (env : Env) (t : Nat) (k : AccKind) (va : Dword) (b : List Byte) (d : Dev) : Res Unit :=
  if !aligned va b.length then misaligned va b.length else
  (locate env d (whoTile d t) { k with write := true } va).bind fun x d1 =>
    match x.1 with
    | .port _ =>
      if b.length = 8 then (submit env d1 (.tile t 0) (whoTile d1 t) t none (dw (leNat b))).bind fun _ d2 => .ok () d2 else .ok () d1
    | .hbm pa => tileStore env d1 t (d1.tile t).core.csr.vfid x.2 (.hbm pa) b
    | .spad u o => tileStore env d1 t (d1.tile t).core.csr.vfid x.2 (.spad u o) b
    | .staging u o => tileStore env d1 t (d1.tile t).core.csr.vfid x.2 (.staging u o) b

/-- LD (R134). -/
def ldWord (d b : BitVec 5) (z : MSize) (u : Bool) (o : BitVec 9) (env : Env) (a : At) (dv : Dev) : Res Unit :=
  (aLoad env a.t { port := true } ((dv.tile a.t).core.memAddr b z o) (msBytes z) dv).bind fun x d1 =>
    .ok () (d1.onCore a.t fun c => c.setA d (extend (msBytes z) u (leNat x)))

/-- LD (R134). -/
def execLd (d b : BitVec 5) (z : MSize) (u : Bool) (o : BitVec 9) (s : State) : Host.Outcome State Fault Refusal :=
  aTry (.ld d b z u o) (ldWord d b z u o) s

/-- Push a read value to q.ax once there is room; until then the access engine keeps it (R134). -/
def pushAx (x : Dword) (a : At) (d : Dev) : Res Unit :=
  if (d.tile a.t).core.qlen 0 < qdepth 0 then
    .ok () (d.onCore a.t fun c => { c with q := { c.q with ax := c.q.ax ++ [x] }, ldq := none })
  else waitFull 0 (d.onCore a.t fun c => { c with ldq := some x })

/-- LDQ (R134). -/
def ldqWord (q b : BitVec 5) (z : MSize) (u : Bool) (o : BitVec 9) (env : Env) (a : At) (dv : Dev) : Res Unit :=
  if q != 0 then queueProtocol q.toNat else
  match (dv.tile a.t).core.ldq with
  | some x => pushAx x a dv
  | none =>
    (aLoad env a.t { port := true } ((dv.tile a.t).core.memAddr b z o) (msBytes z) dv).bind fun x d1 =>
      pushAx (extend (msBytes z) u (leNat x)) a d1

/-- LDQ (R134). -/
def execLdq (q b : BitVec 5) (z : MSize) (u : Bool) (o : BitVec 9) (s : State) : Host.Outcome State Fault Refusal :=
  aTry (.ldq q b z u o) (ldqWord q b z u o) s

/-- ST (R134). -/
def stWord (r b : BitVec 5) (z : MSize) (o : BitVec 9) (env : Env) (a : At) (dv : Dev) : Res Unit :=
  let c := (dv.tile a.t).core
  aStore env a.t { port := true } (c.memAddr b z o) (natLe (msBytes z) (c.a r).toNat) dv

/-- ST (R134). -/
def execSt (r b : BitVec 5) (z : MSize) (o : BitVec 9) (s : State) : Host.Outcome State Fault Refusal :=
  aTry (.st r b z o) (stWord r b z o) s

/-- STQ (R134): it takes its alignment and translation faults before it pops. -/
def stqWord (q b : BitVec 5) (z : MSize) (o : BitVec 9) (env : Env) (a : At) (dv : Dev) : Res Unit :=
  if q != 1 then queueProtocol q.toNat else
  let c := (dv.tile a.t).core
  let va := c.memAddr b z o
  if !aligned va (msBytes z) then misaligned va (msBytes z) else
  match c.q.xa with
  | [] => (locate env dv (whoTile dv a.t) { write := true, port := true } va).bind fun _ d1 => waitEmpty 1 d1
  | x :: r =>
    (aStore env a.t { port := true } va (natLe (msBytes z) x.toNat) dv).bind fun _ d1 =>
      .ok () (d1.onCore a.t fun c => { c with q := { c.q with xa := r } })

/-- STQ (R134). -/
def execStq (q b : BitVec 5) (z : MSize) (o : BitVec 9) (s : State) : Host.Outcome State Fault Refusal :=
  aTry (.stq q b z o) (stqWord q b z o) s

/-- PREF's line: into L1, with the lease of a load but no move of the tile's pts, or into L2 (R134). -/
def prefLine (env : Env) (t : Nat) (l1 : Bool) (cls : BitVec 4) (pa : Nat) (d : Dev) : Res Unit :=
  match payToken d t (.hbm pa) with
  | none => .wait Wait.share d
  | some d0 =>
    let vf := (d0.tile t).core.csr.vfid
    if l1 then
      let (d1, wts, rts) := loadTs env d0 (.stamp (getPts d0 (.tile t 0))) vf cls true (.hbm pa)
      let line := BitVec.ofNat 1024 (leNat (Memory.read d1.mem (pa / 128 * 128) 128))
      .ok () (d1.onTile t fun y => y.l1Put (Config.l1Victim env.tick) ⟨pa / 128, line, wts, rts⟩)
    else .ok () (l2Touch env d0 t pa vf cls true).2.2

/-- PREF (R134): it never faults and changes no value. -/
def prefWord (l b : BitVec 5) (z : MSize) (o : BitVec 9) (env : Env) (a : At) (dv : Dev) : Res Unit :=
  let va := (dv.tile a.t).core.memAddr b z o
  if !aligned va (msBytes z) then .ok () dv else
  match translate env dv (whoTile dv a.t) {} va with
  | .ok (.hbm pa) cls => prefLine env a.t (l == 0) cls pa (keepTlb env dv (whoTile dv a.t) va)
  | .ok (.spad _ _) _ => .ok () dv
  | .ok (.staging _ _) _ => .ok () dv
  | .ok (.port _) _ => .ok () dv
  | .promo p => .ok () (startPromo dv p)
  | .fault _ => .ok () dv
  | .frozen => .ok () dv
  | .remote _ => .ok () dv

/-- PREF (R134). -/
def execPref (l b : BitVec 5) (z : MSize) (o : BitVec 9) (s : State) : Host.Outcome State Fault Refusal :=
  aTry (.pref l b z o) (prefWord l b z o) s

/-- Whether every line of a byte range may be reached; the first fault otherwise. -/
def linesCheck (env : Env) (w : Who) (k : AccKind) : Nat → Dev → Dword → Nat → Res Unit
  | 0, d, _, _ => .ok () d
  | f + 1, d, va, n =>
    if n = 0 then .ok () d else
    let m := min n (128 - va.toNat % 128)
    (locate env d w k va).bind fun _ d1 => linesCheck env w k f d1 (va + dw m) (n - m)

/-- The check of the range of LDV and STV (R135): alignment, then translation of every page and the state of every line. -/
def rowsCheck (env : Env) (t : Nat) (write : Bool) (va : Dword) (rows : Nat) (d : Dev) : Res Unit :=
  if !aligned va 64 then misaligned va 64 else linesCheck env (whoTile d t) { write := write } 34 d va (64 * rows)

/-- Read rows i, i + 1, ... of an LDV; a wait keeps those read (R135). -/
def readRows (env : Env) (t : Nat) (va : Dword) : Nat → Nat → Dev → Res Unit
  | 0, _, d => .ok () d
  | n + 1, i, d =>
    (aLoad env t {} (va + dw (64 * i)) 64 d).bind fun b d1 =>
      readRows env t va n (i + 1) (d1.onCore t fun c => { c with ldv := some ((c.ldv.getD []) ++ [rowOf b]) })

/-- Push the rows an LDV has read as far as q.av has room (R135). -/
def pushRows (t : Nat) (d : Dev) : Dev :=
  d.onCore t fun c =>
    let l := c.ldv.getD []
    let n := min l.length (qdepth 2 - c.qlen 2)
    { c with q := { c.q with av := c.q.av ++ l.take n }, ldv := some (l.drop n), moved := c.moved + n }

/-- LDV (R135): all its reads before its first push; a repeated word moves the rows not yet moved. -/
def ldvWord (q r : BitVec 5) (n : BitVec 7) (env : Env) (a : At) (dv : Dev) : Res Unit :=
  if q != 2 then queueProtocol q.toNat else
  let c := (dv.tile a.t).core
  let va := c.a r
  let rows := n.toNat
  let todo := rows - c.moved
  let got := (c.ldv.getD []).length
  let check := if c.ldv.isNone then rowsCheck env a.t false va rows dv else .ok () dv
  check.bind fun _ d1 =>
    (readRows env a.t va (todo - got) (c.moved + got) d1).bind fun _ d2 =>
      let d3 := pushRows a.t d2
      if (d3.tile a.t).core.ldv = some [] then .ok () (d3.onCore a.t fun c => { c with ldv := none, moved := 0 })
      else waitFull 2 d3

/-- LDV (R135). -/
def execLdv (q a : BitVec 5) (n : BitVec 7) (s : State) : Host.Outcome State Fault Refusal := aTry (.ldv q a n) (ldvWord q a n) s

/-- STV (R135): it takes its faults before it pops its first row, and stores a row at each turn. -/
def stvWord (q r : BitVec 5) (n : BitVec 7) (env : Env) (a : At) (dv : Dev) : Res Unit :=
  if q != 3 then queueProtocol q.toNat else
  let c := (dv.tile a.t).core
  let va := c.a r
  (rowsCheck env a.t true va n.toNat dv).bind fun _ d1 =>
    match c.q.va with
    | [] => waitEmpty 3 d1
    | x :: l =>
      (aStore env a.t {} (va + dw (64 * c.moved)) (rowBytes x) d1).bind fun _ d2 =>
        let d3 := d2.onCore a.t fun c => { c with q := { c.q with va := l }, moved := c.moved + 1 }
        if c.moved + 1 < n.toNat then .wait Wait.idle d3 else .ok () (d3.onCore a.t fun c => { c with moved := 0 })

/-- STV (R135). -/
def execStv (q a : BitVec 5) (n : BitVec 7) (s : State) : Host.Outcome State Fault Refusal := aTry (.stv q a n) (stvWord q a n) s

/-! ### Atomics (R137 to R139) -/

/-- An atomic of A: `g` gives the new value from the old one, both of the width, or none where nothing is written (R137). -/
def amoWord (d a : BitVec 5) (wide : Bool) (g : TCore → Nat → Option Nat) (env : Env) (at_ : At) (dv : Dev) : Res Unit :=
  let c := (dv.tile at_.t).core
  let n := if wide then 8 else 4
  let va := c.a a
  if !aligned va n then misaligned va n else
  (locate env dv (whoTile dv at_.t) { write := true } va).bind fun x d1 =>
    (tileAtomic env d1 at_.t c.csr.vfid x.2 x.1 n fun b => (g c (leNat b)).map (natLe n)).bind fun old d2 =>
      .ok () (d2.onCore at_.t fun c => c.setA d (extend n false (leNat old)))

/-- A value cut to a width. -/
def cutTo (wide : Bool) (x : Dword) : Nat := if wide then x.toNat else x.toNat % 2 ^ 32

/-- The signed reading of a value of a width. -/
def signedOf (wide : Bool) (x : Nat) : Int := if wide then (BitVec.ofNat 64 x).toInt else (BitVec.ofNat 32 x).toInt

/-- AMOADD's new value (R137). -/
def amoAdd (wide : Bool) (old b : Nat) : Nat := (old + b) % (if wide then 2 ^ 64 else 2 ^ 32)

/-- AMOLOGIC's new value: and, or, xor (R137). -/
def amoLogic (o : Nat) (old b : Nat) : Nat :=
  match o with
  | 0 => old &&& b
  | 1 => old ||| b
  | _ => old ^^^ b

/-- AMOMINMAX's new value: min, max, minu, maxu (R137). -/
def amoMinMax (wide : Bool) (o : Nat) (old b : Nat) : Nat :=
  match o with
  | 0 => if signedOf wide old ≤ signedOf wide b then old else b
  | 1 => if signedOf wide b ≤ signedOf wide old then old else b
  | 2 => min old b
  | _ => max old b

/-- AMOFADD's new value (R138). -/
def amoFadd (old b : Nat) : Nat := (f32Add (BitVec.ofNat 32 old) (BitVec.ofNat 32 b)).1.toNat

/-- AMOADD (R137). -/
def execAmoadd (d a b : BitVec 5) (w : Bool) (s : State) : Host.Outcome State Fault Refusal :=
  aTry (.amoadd d a b w) (amoWord d a w fun c old => some (amoAdd w old (cutTo w (c.a b)))) s
/-- AMOSWAP (R137). -/
def execAmoswap (d a b : BitVec 5) (w : Bool) (s : State) : Host.Outcome State Fault Refusal :=
  aTry (.amoswap d a b w) (amoWord d a w fun c _ => some (cutTo w (c.a b))) s
/-- AMOCAS (R137). -/
def execAmocas (d a b : BitVec 5) (w : Bool) (s : State) : Host.Outcome State Fault Refusal :=
  aTry (.amocas d a b w)
    (amoWord d a w fun c old => if old = cutTo w (c.a b) then some (cutTo w (c.a (b + 1))) else none) s
/-- AMOLOGIC (R137). -/
def execAmologic (d a b : BitVec 5) (w : Bool) (o : BitVec 2) (s : State) : Host.Outcome State Fault Refusal :=
  aTry (.amologic d a b w o) (amoWord d a w fun c old => some (amoLogic o.toNat old (cutTo w (c.a b)))) s
/-- AMOMINMAX (R137). -/
def execAmominmax (d a b : BitVec 5) (w : Bool) (o : BitVec 2) (s : State) : Host.Outcome State Fault Refusal :=
  aTry (.amominmax d a b w o) (amoWord d a w fun c old => some (amoMinMax w o.toNat old (cutTo w (c.a b)))) s
/-- AMOFADD (R138). -/
def execAmofadd (d a b : BitVec 5) (s : State) : Host.Outcome State Fault Refusal :=
  aTry (.amofadd d a b) (amoWord d a false fun c old => some (amoFadd old (cutTo false (c.a b)))) s

/-! ### Flags (R140 to R142, R370) -/

/-- The entry at TAIL of a replayed flag-wait log, with TAIL (R364, R370); none where the ring holds none or cannot be read. -/
def replayEntry (env : Env) (d : Dev) (t : Nat) : Res (Option (Nat × List Byte)) :=
  let w := { whoTile d t with unit := .own }
  let va := zx (d.tile t).core.csr.profbuf
  match (hwRead env w .none 2 d va 64).bind fun h d1 =>
      let size := leNat (h.take 8)
      let head := leNat ((h.drop 8).take 8)
      let tail := leNat ((h.drop 16).take 8)
      if !ringSizeOk size || head = tail then .ok none d1
      else (hwRead env w .none 2 d1 (va + dw (64 + 32 * (tail % size))) 32).bind fun e d2 => .ok (some (tail, e)) d2 with
  | .ok x d1 => .ok x d1
  | .wait x d1 => .wait x d1
  | .trap _ _ _ _ _ => .ok none d
  | .sys _ _ => .ok none d
  | .roll _ => .ok none d

/-- Under REPLAY, the entry that a FLAGWAIT at a walk count must match (R370). -/
def replayFor (env : Env) (d : Dev) (t : Nat) : Res (Option (Nat × List Byte)) :=
  let c := (d.tile t).core
  if !c.csr.profctl.getLsbD 3 then .ok none d else
  (replayEntry env d t).bind fun r d1 => .ok (match r with
    | none => none
    | some (tail, e) => if leNat ((e.drop 28).take 4) = (c.engine .a).walk.toNat % 2 ^ 32 then some (tail, e) else none) d1

/-- TAIL of the replayed log moves on (R370). -/
def replayNext (env : Env) (d : Dev) (t : Nat) (r : Option (Nat × List Byte)) : Res Unit :=
  match r with
  | none => .ok () d
  | some (tail, _) =>
    match hwWrite8 env d { whoTile d t with unit := .own } (zx (d.tile t).core.csr.profbuf + 16) (tail + 1) with
    | .ok _ d1 => .ok () d1
    | .wait x d1 => .wait x d1
    | .trap _ _ _ _ _ => .ok () d
    | .sys _ _ => .ok () d
    | .roll _ => .ok () d

/-- The bytes of a flag-wait log entry (R142). -/
def fwBytes (env : Env) (c : TCore) (t : Nat) (va cycles : Dword) (setter : Nat) : List Byte :=
  natLe 8 va.toNat ++ natLe 8 cycles.toNat ++ natLe 8 setter ++
    natLe 8 (setterId env c.csr.vfid t + (c.engine .a).walk.toNat % 2 ^ 32 * 2 ^ 32)

/-- The flag-wait log entry of a satisfied FLAGWAIT when PROFCTL asks for one (R142, R364). -/
def fwLog (env : Env) (d : Dev) (t : Nat) (va : Dword) (setter : Nat) : Dev :=
  let c := (d.tile t).core
  if c.csr.profctl.getLsbD 0 && !c.csr.profctl.getLsbD 3 then
    profPost env d t (fwBytes env c t va ((d.tile t).cycle - c.fwSince.getD (d.tile t).cycle) setter)
  else d

/-- Whether replay lets a FLAGWAIT of a tile be satisfied by a setter (R370). -/
def replayOk (env : Env) (d : Dev) (t setter : Nat) : Bool :=
  match replayFor env d t with
  | .ok (some (_, e)) _ => leNat ((e.drop 16).take 8) == setter
  | .ok none _ => true
  | .wait _ _ => false
  | .trap _ _ _ _ _ => false
  | .sys _ _ => false
  | .roll _ => false

/-- A FLAGWAIT whose wait is evaluated at the flag's home (R141): satisfied when VALUE suffices and no waiter that arrived
earlier would be satisfied; else it waits there. -/
def flagEval (env : Env) (t : Nat) (va need : Dword) (d : Dev) : Res Unit :=
  (locate env d (whoTile d t) { write := true } va).bind fun x d1 =>
    let vf := (d1.tile t).core.csr.vfid
    let b := getBytes d1 x.1 16
    let value := leNat (b.take 8)
    let setter := leNat (b.drop 8)
    (replayFor env d1 t).bind fun rp d1 =>
    let rpOk := match rp with | some (_, e) => leNat ((e.drop 16).take 8) == setter | none => true
    let before := (d1.waiters.takeWhile fun w => w.tile != t).filter fun w => w.key == x.1.key
    if decide (need.toNat ≤ value) && rpOk && !before.any (fun w => decide (w.need.toNat ≤ value) && replayOk env d1 w.tile setter) then
      (replayNext env d1 t rp).bind fun _ d2 =>
      (tileAtomic env d2 t vf x.2 x.1 8 fun _ => some (natLe 8 (value - need.toNat))).bind fun _ d3 =>
        .ok () ((dropWaiter (fwLog env d3 t va setter) t).onCore t fun c => { c with fwSince := none })
    else
      let d2 := if d1.waiters.any fun w => w.tile == t then d1
        else { d1 with waiters := d1.waiters ++ [⟨t, va, x.1.key, need⟩] }
      .wait { code := 8 } (d2.onCore t fun c => { c with fwSince := some (c.fwSince.getD (d2.tile t).cycle) })

/-- FLAGWAIT (R141); with A[b] = 0 it completes at once and changes nothing. -/
def flagwaitWord (a b : BitVec 5) (env : Env) (at_ : At) (dv : Dev) : Res Unit :=
  let c := (dv.tile at_.t).core
  let va := c.a a
  if !aligned va 16 then misaligned va 16
  else if c.a b = 0 then (locate env dv (whoTile dv at_.t) { write := true } va).bind fun _ d1 => .ok () d1
  else flagEval env at_.t va (c.a b) dv

/-- FLAGWAIT (R141). -/
def execFlagwait (a b : BitVec 5) (s : State) : Host.Outcome State Fault Refusal := aTry (.flagwait a b) (flagwaitWord a b) s

/-- The home satisfies a FLAGWAIT that waits (R141): the word at A's PC is evaluated again. -/
def flagSatisfied (env : Env) (d : Dev) : Dev :=
  let t := env.unit
  if d.waiters.any (fun w => w.tile == t) then
    match ready d t .a with
    | .go pc _ =>
      match (peekAt env d t .a pc).map decodeTotal with
      | some (.flagwait a b) =>
        engineWord .a (.flagwait a b) (flagwaitWord a b { env with eng := .a }) (fun _ c => c) { env with eng := .a } d
      | _ => d
    | .slip => d
    | .hold => d
    | .no => d
  else d

/-- FLAGWAIT_SATISFIED (R141). -/
def execFlagwaitSatisfied (s : State) : Host.Outcome State Fault Refusal := s.run flagSatisfied

/-- FLAGINC and FLAGSET: one atomic step on the 16 bytes, with this tile's access engine as the setter (R140, R141). -/
def flagWrite (a : BitVec 5) (g : TCore → Nat → Nat) (env : Env) (at_ : At) (dv : Dev) : Res Unit :=
  let c := (dv.tile at_.t).core
  let va := c.a a
  if !aligned va 16 then misaligned va 16 else
  (locate env dv (whoTile dv at_.t) { write := true } va).bind fun x d1 =>
    (tileAtomic env d1 at_.t c.csr.vfid x.2 x.1 16 fun b =>
      some (natLe 8 (g c (leNat (b.take 8)) % 2 ^ 64) ++ natLe 8 (setterId env c.csr.vfid at_.t))).bind fun _ d2 => .ok () d2

/-- FLAGINC (R141). -/
def execFlaginc (a b : BitVec 5) (s : State) : Host.Outcome State Fault Refusal :=
  aTry (.flaginc a b) (flagWrite a fun c v => v + (c.a b).toNat) s
/-- FLAGSET (R141). -/
def execFlagset (a b : BitVec 5) (s : State) : Host.Outcome State Fault Refusal :=
  aTry (.flagset a b) (flagWrite a fun c _ => (c.a b).toNat) s

/-- FLAGREAD (R141); the access counts as a write (R234). -/
def flagreadWord (d a : BitVec 5) (env : Env) (at_ : At) (dv : Dev) : Res Unit :=
  let va := (dv.tile at_.t).core.a a
  if !aligned va 16 then misaligned va 16 else
  (aLoad env at_.t { write := true } va 8 dv).bind fun b d1 => .ok () (d1.onCore at_.t fun c => c.setA d (dw (leNat b)))

/-- FLAGREAD (R141). -/
def execFlagread (d a : BitVec 5) (s : State) : Host.Outcome State Fault Refusal := aTry (.flagread d a) (flagreadWord d a) s

/-! ### Barrier objects (R143 to R146) -/

/-- BARARM (R144). -/
def bararmWord (a b : BitVec 5) (env : Env) (at_ : At) (dv : Dev) : Res Unit :=
  let c := (dv.tile at_.t).core
  let va := c.a a
  let n := c.a b
  if !aligned va 16 then misaligned va 16
  else if 2 ^ 56 ≤ n.toNat then aShape 1 n
  else (locate env dv (whoTile dv at_.t) { write := true } va).bind fun x d1 =>
    (tileAtomic env d1 at_.t c.csr.vfid x.2 x.1 16 fun b => some (barArm at_.t n.toNat (barOf b)).1.bytes).bind fun b d2 =>
      .ok () (barAfter env { d2 with arms := d2.arms.set x.1.key c.iter.serial } (getPts d2 (.tile at_.t 0)) x.1 va
        (barArm at_.t n.toNat (barOf b)).1 (barArm at_.t n.toNat (barOf b)).2)

/-- BARARM (R144). -/
def execBararm (a b : BitVec 5) (s : State) : Host.Outcome State Fault Refusal := aTry (.bararm a b) (bararmWord a b) s

/-- BARWAIT (R146): the object is read at its home; the access counts as a write (R234). -/
def barwaitWord (a : BitVec 5) (env : Env) (at_ : At) (dv : Dev) : Res Unit :=
  let c := (dv.tile at_.t).core
  let va := c.a a
  if !aligned va 16 then misaligned va 16 else
  (locate env dv (whoTile dv at_.t) { write := true } va).bind fun x d1 =>
    let (b, d2) := loadAt env d1 (.tile at_.t 0) c.csr.vfid x.2 x.1 16
    if (barOf b).state = 1 then .wait { code := 9 } d2 else .ok () d2

/-- BARWAIT (R146). -/
def execBarwait (a : BitVec 5) (s : State) : Host.Outcome State Fault Refusal := aTry (.barwait a) (barwaitWord a) s

/-! ### The tensor table (R24, R28, R162) -/

/-- TIDSET (R162). -/
def tidsetWord (a : BitVec 5) (tid : BitVec 8) (env : Env) (at_ : At) (dv : Dev) : Res Unit :=
  let va := (dv.tile at_.t).core.a a
  if !aligned va 64 then misaligned va 64
  else if tid = 0 then .trap 0x09 1 0 0 0
  else (aLoad env at_.t {} va 64 dv).bind fun b d1 =>
    let r := rowOf b
    if tidCheck tid r != 0 then .trap 0x09 (dw (tidCheck tid r)) 0 0 0
    else .ok () (d1.onCore at_.t fun c => { c with tids := vset c.tids tid.toNat (some r) })

/-- TIDSET (R162). -/
def execTidset (a : BitVec 5) (t : BitVec 8) (s : State) : Host.Outcome State Fault Refusal := aTry (.tidset a t) (tidsetWord a t) s

/-- TIDINV (R162). -/
def tidinvWord (tid : BitVec 8) (_ : Env) (at_ : At) (dv : Dev) : Res Unit :=
  if tid = 0 then tensorEntry else .ok () (dv.onCore at_.t fun c => { c with tids := vset c.tids tid.toNat none })

/-- TIDINV (R162). -/
def execTidinv (t : BitVec 8) (s : State) : Host.Outcome State Fault Refusal := aTry (.tidinv t) (tidinvWord t) s

/-- TIDGET (R162). -/
def tidgetWord (a : BitVec 5) (tid : BitVec 8) (env : Env) (at_ : At) (dv : Dev) : Res Unit :=
  let c := (dv.tile at_.t).core
  let va := c.a a
  if !aligned va 64 then misaligned va 64 else
  match tidOf c.tids tid.toNat with
  | none => tensorEntry
  | some r => aStore env at_.t {} va (rowBytes r) dv

/-- TIDGET (R162). -/
def execTidget (a : BitVec 5) (t : BitVec 8) (s : State) : Host.Outcome State Fault Refusal := aTry (.tidget a t) (tidgetWord a t) s

/-! ### Privileged words (R163) -/

/-- Whether the iteration of a tile runs with privilege (R317). -/
def privileged (d : Dev) (t : Nat) : Bool := (d.vf (d.tile t).core.csr.vfid.toNat).priv

/-- TLBINV (R163, R236): the matching translations leave every structure. -/
def tlbinvWord (a : BitVec 5) (scope : BitVec 7) (_ : Env) (at_ : At) (dv : Dev) : Res Unit :=
  if !privileged dv at_.t then .trap 0x0D 0 0 0 0 else
  let c := (dv.tile at_.t).core
  .ok () { dv with tlb := dv.tlb.filter fun e =>
    !(if scope = 0 then e.covers c.csr.asid (c.a a)
      else if scope = 1 then e.asid == c.csr.asid
      else true) }

/-- TLBINV (R163). -/
def execTlbinv (a : BitVec 5) (sc : BitVec 7) (s : State) : Host.Outcome State Fault Refusal := aTry (.tlbinv a sc) (tlbinvWord a sc) s

/-- ASIDSET (R163): it applies to the words of a higher walk count. -/
def asidsetWord (a : BitVec 5) (_ : Env) (at_ : At) (dv : Dev) : Res Unit :=
  if !privileged dv at_.t then .trap 0x0D 0 0 0 0 else
  let c := (dv.tile at_.t).core
  if 2 ^ 16 ≤ (c.a a).toNat then .trap 0x02 0 0 0 0
  else .ok () (dv.onCore at_.t fun c =>
    { c with csr := { c.csr with asid := (c.a a).setWidth 16 }, asids := ((c.engine .a).walk, c.csr.asid) :: c.asids
             asidDue := c.asidDue.filter (· != (c.engine .a).walk) })

/-- An engine that steps over an ASIDSET fetches nothing further until A has executed it (R163). -/
def asidSkip (e : Eng) (c : TCore) : TCore :=
  if c.trap.hand.isSome || decide ((c.engine e).walk.toNat < (c.engine .a).walk.toNat) then c
  else { c with asidDue := (c.engine e).walk :: c.asidDue }

/-- ASIDSET (R163). -/
def execAsidset (a : BitVec 5) (s : State) : Host.Outcome State Fault Refusal :=
  s.run fun env d => engineWord .a (.asidset a) (asidsetWord a env) asidSkip env d

end Sys2Proof.Machine
end

