-- ==== Sys2Proof/Machine/Net.lean ====
section
/-! DEFINITION. Sending on the fabric (R273 to R280, R284): paths, sub-links, flits, allowances. -/

namespace Sys2Proof.Machine

/-- The key of the sub-link of bridge b to a peer (R275). -/
def linkKey (b peer : Nat) : Nat := b * 64 + peer
/-- The key of the lane on which bridge b receives from a peer on its plane q. -/
def laneKey (b q peer : Nat) : Nat := (2 * b + q) * 64 + peer

/-- The sub-link of bridge b to a peer. -/
def Dev.link (d : Dev) (b peer : Nat) : SubLink := d.links.get {} (linkKey b peer)
/-- The device with a sub-link replaced. -/
def Dev.setLink (d : Dev) (b peer : Nat) (l : SubLink) : Dev := { d with links := d.links.set (linkKey b peer) l }
/-- The lane on which bridge b receives from a peer on its plane q. -/
def Dev.lane (d : Dev) (b q peer : Nat) : Lane := d.lanes.get {} (laneKey b q peer)
/-- The device with a lane replaced. -/
def Dev.setLane (d : Dev) (b q peer : Nat) (l : Lane) : Dev := { d with lanes := d.lanes.set (laneKey b q peer) l }

/-- A receiving lane still delivers (R286). -/
def Lane.live (l : Lane) : Bool := l.state == 1 || l.state == 2

/-- Lanes on which a sub-link sends: those of its set that the part has (R7, R286). -/
def sendLanes (d : Dev) (b peer : Nat) : List Nat :=
  [0, 1].filter fun q => (d.lane b q peer).state != 0 && !(d.link b peer).sendOff.contains q

/-- A path is up while its sub-link has an active lane (R284), in each direction. (DEDUCED, unsafe: log entry 42) -/
def pathUp (d : Dev) (b peer : Nat) : Bool :=
  !(sendLanes d b peer).isEmpty && [0, 1].any fun q => (d.lane b q peer).live

/-- A bridge lists a peer (R274). -/
def listed (d : Dev) (b peer : Nat) : Bool := (d.bridge b).peers.getLsbD peer

/-- Some bridge lists a peer, or the peer is this device (R274). -/
def reachable (env : Env) (d : Dev) (peer : Nat) : Bool :=
  peer == env.caps.devid.toNat || (List.range 4).any fun b => listed d b peer

/-- Bytes of a packet: a header of 32 and its body (R249, R280). -/
def pktSize : Packet → Nat
  | .remote _ _ b => 32 + b.length
  | .xfer _ _ b => 32 + b.length

/-- Bytes of a class that a sub-link holds and has not sent (R276, R277). -/
def SubLink.waitBytes (l : SubLink) (c : MClass) (part : Nat) : Nat :=
  (l.queue.filter fun o => o.cls == c).foldl (fun a o => a + pktSize o.pkt) 0 - part

/-- Class numbers (R262). -/
def clsIdx : MClass → Nat
  | .req => 0
  | .rsp => 1
  | .atm => 2
  | .mgt => 3

/-- Flits that what a bridge holds for a peer and has not sent will occupy (R276): 240 bytes of body each, back to back within a class. -/
def queuedFlits (d : Dev) (b peer : Nat) : Nat :=
  let l := d.link b peer
  [MClass.req, .rsp, .atm, .mgt].foldl (fun a c => a + (l.waitBytes c (vget l.part 0 (clsIdx c)) + 239) / 240) 0

/-- The bridge chosen for an access of a tile to a peer (R276): of the paths that are up and whose bridge lists the peer, the
one with the fewest flits queued; ties go to the bridge of the tile's die, then to the lowest number. -/
def choosePath (d : Dev) (t peer : Nat) : Option Nat :=
  let home := dieOfTile t
  let c := (home :: (List.range 4).filter (· != home)).filter fun b => pathUp d b peer && listed d b peer
  c.foldl (fun best b => match best with
    | none => some b
    | some x => if queuedFlits d b peer < queuedFlits d x peer then some b else some x) none

/-- The class a remote packet travels in (R280, R351). -/
def opClass (op : Nat) : MClass :=
  if [0x01, 0x03, 0x08, 0x11, 0x13, 0x19, 0x1B, 0x18, 0x20].contains op then .req
  else if [0x04, 0x05, 0x14, 0x15, 0x1C, 0x1D].contains op then .atm
  else if [0x02, 0x06, 0x07, 0x09, 0x16, 0x17, 0x1A].contains op then .rsp
  else .mgt

/-- What a sub-link may send per class (R279). -/
def allowOf (d : Dev) (b peer : Nat) : Vector Nat 4 := (d.link b peer).allow

/-- The lane on which a flit goes out (R277): the one active lane; of two, by the parity of SEQ. -/
def stripe (d : Dev) (b peer : Nat) (seq : Word) : Nat :=
  match sendLanes d b peer with
  | [q] => q
  | _ => seq.toNat % 2

/-- Number a flit and put it on the wire (R277, R278): it stays in the replay buffer until an RSEQ covers it. -/
def emitFlit (d : Dev) (b peer : Nat) (cls : MClass) (empty : Bool) (first : BitVec 8) (pkts : List Packet) (ch : Option LaneChange) : Dev :=
  let l := d.link b peer
  let al := allowOf d b peer
  let r (k : Nat) : BitVec 8 := BitVec.ofNat 8 (min 255 (vget l.ret 0 k))
  let f : Flit := { seq := l.next, rseq := l.expect - 1, rreq := r 0, rrsp := r 1, ratm := r 2, rmgt := r 3, cls := cls,
                    nak := l.nak, empty := empty, first := first, pkts := pkts, change := ch, lane := stripe d b peer l.next }
  d.setLink b peer { l with
    next := l.next + 1
    replay := l.replay ++ [f]
    allow := if empty then al else vset al (clsIdx cls) (vget al 0 (clsIdx cls) - 1)
    ret := l.ret.map fun n => n - 255
    nak := false }

/-- A flit that carries only acknowledgements and returns (R277), where any are owed and a lane is active. -/
def ackFlit (d : Dev) (b peer : Nat) : Dev :=
  if (sendLanes d b peer).isEmpty then d else emitFlit d b peer .req true 255 [] none

/-- A request of a later packet may not pass an earlier one (R304 case 1): both of one stream of one tile, for one line of one device. -/
def mustFollow (later earlier : Packet) : Bool :=
  match later, earlier with
  | .remote _ x _, .remote _ y _ =>
    let req (h : RHdr) : Bool := opClass h.op.toNat == .req || opClass h.op.toNat == .atm
    req x && req y && x.sdev == y.sdev && x.stile == y.stile && x.stream == y.stream && x.epoch == y.epoch && x.era == y.era && x.ddev == y.ddev &&
      x.va.toNat / 128 == y.va.toNat / 128
  | .remote _ _ _, .xfer _ _ _ => false
  | .xfer _ _ _, .remote _ _ _ => false
  | .xfer _ _ _, .xfer _ _ _ => false

/-- The packets of a class, in order. -/
def readyOf (cls : MClass) (q : List OutPkt) : List OutPkt := q.filter fun o => o.cls == cls

/-- A request is not handed to a sub-link yet: one of another class that it may not pass has not been sent there (R279, R304). (DEDUCED,
unsafe: log entry 88) -/
def mustWait (d : Dev) (b peer : Nat) (p : Packet) (op : Nat) : Bool :=
  (d.link b peer).queue.any fun o => o.cls != opClass op && mustFollow p o.pkt

/-- The packets of a class back to back into `room` bytes of a body, the first of them from byte `part` of it on (R277): those that end
there, and how many bytes of the next one are in. -/
def fillBody : Nat → Nat → List OutPkt → List Packet × Nat
  | _, part, [] => ([], part)
  | room, part, o :: r =>
    if pktSize o.pkt - part ≤ room then
      let x := fillBody (room - (pktSize o.pkt - part)) 0 r
      (o.pkt :: x.1, x.2)
    else ([], part + room)

/-- FIRST of a flit (R277). -/
def firstOf (part : Nat) : List OutPkt → BitVec 8
  | [] => 255
  | o :: r =>
    if part = 0 then 0
    else if pktSize o.pkt - part < 240 && !r.isEmpty then BitVec.ofNat 8 (pktSize o.pkt - part) else 255

/-- A queue without the first n packets of a class. -/
def dropCls (cls : MClass) : Nat → List OutPkt → List OutPkt
  | _, [] => []
  | n, o :: r => if n ≠ 0 && o.cls == cls then dropCls cls (n - 1) r else o :: dropCls cls n r

/-- Send the next flit of a class, as full as its packets make it. -/
def emitNext (d : Dev) (b peer : Nat) (cls : MClass) : Dev :=
  let l := d.link b peer
  let part := vget l.part 0 (clsIdx cls)
  let go := readyOf cls l.queue
  let (done, p) := fillBody 240 part go
  emitFlit (d.setLink b peer { l with queue := dropCls cls done.length l.queue, part := vset l.part (clsIdx cls) p })
    b peer cls false (firstOf part go) done none

/-- The class of the next flit: that of the first packet for whose class there is allowance; no class waits for another's (R279). -/
def nextCls (d : Dev) (b peer : Nat) : Option MClass :=
  let l := d.link b peer
  ((l.queue.map (·.cls)).eraseDups).find? fun c => decide (0 < vget (allowOf d b peer) 0 (clsIdx c))

/-- Send what a sub-link may send, in order within each class; at most n flits. -/
def pumpLink (b peer : Nat) : Nat → Dev → Dev
  | 0, d => d
  | n + 1, d =>
    if (sendLanes d b peer).isEmpty then d else
    match nextCls d b peer with
    | none => d
    | some c => pumpLink b peer n (emitNext d b peer c)

/-- Queue a packet on a sub-link: its flits go when they go. -/
def sendOn (d : Dev) (b peer : Nat) (cls : MClass) (p : Packet) : Dev :=
  let l := d.link b peer
  d.setLink b peer { l with queue := l.queue ++ [⟨cls, p⟩] }

/-- The sub-links that send on now do so (R277, R279; DESIGN CHOICE, safe: log entry 87). -/
def pumpAll (env : Env) (d : Dev) : Dev :=
  d.links.entries.foldl (fun d e =>
    if e.2.queue.isEmpty || !Config.sendNow env.tick e.1 then d
    else pumpLink (e.1 / 64) (e.1 % 64) (queuedFlits d (e.1 / 64) (e.1 % 64)) d) d

/-- Send a packet to a device on a path; one for this device never enters the fabric (R273, R306). -/
def sendTo (env : Env) (d : Dev) (dest : BitVec 6) (path : BitVec 2) (p : Packet) (op : Nat) : Dev :=
  if dest = env.caps.devid then { d with flights := d.flights ++ [{ pkt := p, src := env.caps.devid, path := path }] }
  else sendOn d path.toNat dest.toNat (opClass op) p

/-- Send a remote packet. -/
def sendRemote (env : Env) (d : Dev) (dest : BitVec 6) (path : BitVec 2) (h : RHdr) (body : List Byte) : Dev :=
  sendTo env d dest path (.remote env.caps.devid { h with path := path } body) h.op.toNat

/-- The path of a message of a tile to a device: this device's own is the bridge number of the tile's die (R306). -/
def pathFor (env : Env) (d : Dev) (t : Nat) (dest : BitVec 6) : Option (BitVec 2) :=
  if dest = env.caps.devid then some (BitVec.ofNat 2 (dieOfTile t))
  else (choosePath d t dest.toNat).map (BitVec.ofNat 2)

/-- Send a packet by the path that R276 chooses; while none is up that the peer is listed for, it waits (R284), and so does a request that may
not be handed over yet. -/
def sendFree (env : Env) (d : Dev) (t : Nat) (dest : BitVec 6) (p : Packet) (op : Nat) : Dev :=
  match pathFor env d t dest with
  | none => d.defer (.send t dest p op)
  | some x =>
    if dest != env.caps.devid && mustWait d x.toNat dest.toNat p op then d.defer (.send t dest p op) else
    sendTo env d dest x (match p with
      | .remote s h b => if [0x01, 0x03, 0x04, 0x05].contains op then .remote s h b else .remote s { h with path := x } b
      | .xfer s h b => .xfer s h b) op

/-- A packet of some tile's transfer command or rake stands in a queue or a replay buffer of this device. -/
def xferOnLink (d : Dev) (t : Nat) : Bool :=
  let mine (p : Packet) : Bool := match p with
    | .xfer _ h _ => h.stile.toNat == t
    | .remote _ _ _ => false
  d.links.entries.any fun e => (e.2.queue.any fun o => mine o.pkt) || e.2.replay.any fun f => f.pkts.any mine

/-- The packets that a tile has sent to other devices have been matched and performed there (R154, R217, R253): not before they have been
delivered; how this device learns of it is not given (DESIGN CHOICE, safe: log entry 78). -/
def farDone (env : Env) (d : Dev) (t : Nat) : Bool := Config.farMatched env.tick && !xferOnLink d t

/-- The key of a stream and a target device in the numbering of a tile (R282). -/
def ssnKey (s dest : Nat) : Nat := s * 64 + dest
/-- The key of a stream, a target device and a path (R283). -/
def psnKey (s dest p : Nat) : Nat := (s * 64 + dest) * 4 + p

/-- An entry that is an unacknowledged store (R159). -/
def NEntry.isStore (e : NEntry) : Bool := !e.isNotify && e.kind != .rld

/-- The current generation of a VF, as packets carry it (R280). -/
def vfGen (d : Dev) (vf : BitVec 10) : BitVec 16 := (d.vf vf.toNat).gen

/-- A FLUSH for the latest unacknowledged store of a stream to a target, if none named it yet (R158, R282). Where no bridge whose path is
up lists the target it is not sent, and the fence waits on (DESIGN CHOICE, unsafe: log entry 104). -/
def flushOne (env : Env) (t s : Nat) (dest : BitVec 6) (d : Dev) : Dev :=
  let y := d.tile t
  match ((vget y.nq [] s).filter fun e => e.isStore && e.target == dest).getLast? with
  | none => d
  | some e =>
    if y.core.net.flushed.find (ssnKey s dest.toNat) = some e.ssn then d else
    match pathFor env d t dest with
    | none => d
    | some p =>
      let h : RHdr := { gen := vfGen d e.vf, vf := e.vf, stile := BitVec.ofNat 10 t, sdev := env.caps.devid, ddev := dest,
                        stream := BitVec.ofNat 4 s, ssn := e.ssn, epoch := e.epoch, era := e.era, op := 0x08 }
      let d1 := d.onCore t fun c => { c with net := { c.net with flushed := c.net.flushed.set (ssnKey s dest.toNat) e.ssn } }
      sendRemote env d1 dest p h []

/-- A fence or join that waits on the network path sends a FLUSH on each stream with unacknowledged stores (R158). -/
def flushStreams (env : Env) (t : Nat) (d : Dev) : Dev :=
  (List.range 16).foldl (fun d s =>
    let targets := ((vget (d.tile t).nq [] s).filter (·.isStore)).map (·.target)
    targets.eraseDups.foldl (fun d dest => flushOne env t s dest d) d) d

end Sys2Proof.Machine
end

