-- ==== Sys2Proof/Machine/Commands.lean ====
section
/-! DEFINITION. Commands of the asynchronous queues: the words that place them, what they move, their completion, their stalls and
failures; notifies; fences, markers and joins (R147 to R155, R158, R245, R311). -/

namespace Sys2Proof.Machine

/-! ### Commands -/

/-- CMD of a command (R122). -/
def cmdCode : CmdKind → Nat
  | .copy => 0
  | .copy2d => 1
  | .gather => 2
  | .scatter => 3
  | .xfer => 4
  | .xferm => 5
  | .notify => 6
  | .implicit => 6

/-- Operand i of a command. -/
def Cmd.op (c : Cmd) (i : Nat) : Dword := c.ops.getD i 0

/-- Word i of the coordinates and extents of a transfer, from operand register r on: two words a register (R154). -/
def Cmd.pair (c : Cmd) (r i : Nat) : Nat := bitsN (c.op (r + i / 2)) (32 * (i % 2)) 32

/-- Origin of the box of a transfer in dimension i (R154). -/
def Cmd.org (c : Cmd) (i : Nat) : Nat := c.pair 1 i
/-- Extent of the box of a transfer in dimension i (R154). -/
def Cmd.ext (c : Cmd) (i : Nat) : Nat := c.pair 3 i

/-- The descriptor a command was issued with as its source. -/
def Cmd.srcT (c : Cmd) : Row := c.src.getD 0
/-- The descriptor a command was issued with as its destination. -/
def Cmd.dstT (c : Cmd) : Row := c.dst.getD 0

/-- Whether a command is a notify. -/
def Cmd.isNotify (c : Cmd) : Bool := c.kind == .notify || c.kind == .implicit
/-- Whether a command is a transfer. -/
def Cmd.isXfer (c : Cmd) : Bool := c.kind == .xfer || c.kind == .xferm

/-- Bytes of a command: of its box, for a transfer (R150 to R154). -/
def Cmd.bytes (c : Cmd) : Nat :=
  match c.kind with
  | .copy => (c.op 2).toNat
  | .copy2d => (c.op 2).toNat * (c.op 3).toNat
  | .gather => (c.op 2).toNat * tLineBytes c.srcT
  | .scatter => (c.op 2).toNat * tLineBytes c.srcT
  | .xfer => c.ext 0 * c.ext 1 * c.ext 2 * c.ext 3 * fmtBytes (tFmt c.srcT)
  | .xferm => c.ext 0 * c.ext 1 * c.ext 2 * c.ext 3 * fmtBytes (tFmt c.srcT)
  | .notify => 0
  | .implicit => 0

/-- Bytes of the box of a transfer before packet p, whose runs are taken line by line (R248). -/
def Cmd.runOff (c : Cmd) (p : Nat) : Nat :=
  let e := fmtBytes (tFmt c.srcT)
  let run := 224 / max 1 e
  let runs := (c.ext 0 + run - 1) / run
  (p / runs * c.ext 0 + p % runs * run) * e

/-- Bytes that a command has moved (R122): to all receivers together, for a transfer. -/
def Cmd.moved (c : Cmd) : Nat := if c.isXfer then c.sent.foldl (fun a p => a + c.runOff p) 0 else c.off

/-- On whose behalf a command of tile t makes its accesses: under the ASID it carries (R147). -/
def cmdWho (t : Nat) (c : Cmd) : Who := { tile := t, unit := .command t, asid := c.asid, vf := c.vf, priv := c.priv }

/-- The commands of a queue of a tile. -/
def Dev.queue (d : Dev) (t q : Nat) : List Cmd := vget (d.tile t).aq [] q

/-- The device with the commands of a queue replaced. -/
def Dev.setQueue (d : Dev) (t q : Nat) (l : List Cmd) : Dev := d.onTile t fun y => { y with aq := vset y.aq q l }

/-- The head command of a queue replaced. -/
def setHead (d : Dev) (t q : Nat) (c : Cmd) : Dev := d.setQueue t q (c :: (d.queue t q).tail)

/-! ### Ends of commands -/

/-- What a command that ended leaves on its node: a transform node counts it (R56). -/
def countEnded (d : Dev) (c : Cmd) : Dev :=
  if c.tk = 3 && c.kind != .implicit then
    match d.node c.node with
    | some x => { d with nodes := d.nodes.set c.node { x with done := x.done + 1 } }
    | none => d
  else d

/-- A record about a command in the fault queue of its node (R149, R320). -/
def cmdFault (env : Env) (d : Dev) (t q : Nat) (c : Cmd) (kind code orig off : Nat) (va : Dword) : Dev :=
  postFault env d c.faultq
    { addr := va, info := dw (orig + cmdCode c.kind * 2 ^ 8 + off % 2 ^ 40 * 2 ^ 11), tile := t, vf := c.vf, aq := q, eng := 4,
      kind := kind, code := code }

/-- All writes that a command has sent are performed (R244). -/
def flushOut (env : Env) (t q : Nat) (c : Cmd) (d : Dev) : Dev := c.out.foldl (putOut env t q c.vf) d

/-- Bytes that a command has sent and that its target has not counted. -/
def Cmd.outBytes (c : Cmd) : Nat := c.out.foldl (fun a w => a + w.bytes.length) 0

/-- A command fails (R149, R384): what it has moved stays moved, elements that its packets have matched are performed (R253); ASYNC_FAILURE,
STATUS 1 for an event record, its node. It is no longer in its queue. -/
def failCmd (env : Env) (d : Dev) (t q : Nat) (c : Cmd) (orig off : Nat) (va : Dword) : Dev :=
  let d0 := flushOut env t q c (if q = 5 then landAll env (fun e => e.ag == .tile t 3) d else d)
  let d1 := cmdFault env d0 t q c 2 0x26 orig off va
  let d2 := if c.tk = 2 then
      postIter env d1 t c.serial (cmdRecord c.tgt c.moved (cmdCode c.kind) q 1) (getPts d1 (.tile t (aqPath q)))
    else d1
  failNode env (countEnded d2 c) c.node

/-- A command that has moved everything signals its target (R151, R384): `n` bytes are those that a barrier target has not
counted yet, `total` those of the record. A NOTIFY whose own target faults fails as R151 and R384 have it of a command, though R155
says that one never fails (DESIGN CHOICE, unsafe: log entry 101). -/
def signalCmd (env : Env) (t q : Nat) (c : Cmd) (n total : Nat) (d : Dev) : Res Unit :=
  let ag : Agent := .tile t (aqPath q)
  let w := cmdWho t c
  let r : Res Unit :=
    if c.tk = 0 then flagUpdate env d w ag c.tgt 1 (setterId env c.vf (0x400 + t))
    else if c.tk = 1 then (if n = 0 then .ok () d else barDecAt env d w ag c.tgt n)
    else if c.tk = 2 then .ok () (postIter env d t c.serial (cmdRecord c.tgt total (cmdCode c.kind) q 0) (getPts d ag))
    else .ok () d
  match r with
  | .ok _ d1 => .ok () (countEnded d1 c)
  | .wait w d1 => .wait w d1
  | .sys code va => .ok () (failCmd env (keepTlb env d w va) t q c code total c.tgt)
  | .trap _ _ _ _ _ => .ok () d
  | .roll _ => .ok () d

/-! ### Moving bytes -/

/-- Whether a line of an operand is kept as most recently used: the hint of its tensor (R27). -/
def optFront (r : Option Row) : Bool := match r with
  | some x => tFront x
  | none => true

/-- The index list of a gather or scatter is fetched ahead of the data (R153): from entry j on as far as one unit of coherence holds, for
one token (R269). -/
def fetchIdx (env : Env) (t q : Nat) (c : Cmd) (j : Nat) (d : Dev) : Res Cmd :=
  match c.idx.find j with
  | some _ => .ok c d
  | none =>
    (locate env d (cmdWho t c) {} (c.op 1 + dw (4 * j))).bind fun x d1 =>
      match payFrom d1 t q x.1 with
      | none => .wait Wait.share d1
      | some d2 =>
        let n := min ((x.1.unit - x.1.inUnit) / 4) ((c.op 2).toNat - j)
        let (b, d3) := loadAt env d2 (.tile t (aqPath q)) c.vf x.2 x.1 (4 * n)
        .ok { c with idx := ⟨(List.range n).map fun i => (j + i, leNat ((b.drop (4 * i)).take 4))⟩ } d3

/-- Where the next byte of a command comes from and goes to, and how many follow it in its run (R150, R152, R153); an index that its
tensor does not have is a trap of code 2. -/
def cmdAt (env : Env) (t q : Nat) (c : Cmd) (d : Dev) : Res (Cmd × Dword × Dword × Nat) :=
  let o := c.off
  let lb := tLineBytes c.srcT
  match c.kind with
  | .copy => .ok (c, c.op 0 + dw o, c.op 1 + dw o, (c.op 2).toNat - o) d
  | .copy2d =>
    let rb := (c.op 2).toNat
    .ok (c, c.op 0 + dw (o / rb) * c.op 4 + dw (o % rb), c.op 1 + dw (o / rb) * c.op 5 + dw (o % rb), rb - o % rb) d
  | .gather => (fetchIdx env t q c (o / lb) d).bind fun c1 d1 =>
      let i := c1.idx.get 0 (o / lb)
      if tLines c.srcT ≤ i then .trap 2 0 0 0 0
      else .ok (c1, dw (tLine c.srcT i + o % lb), dw (tLine c.dstT ((c.op 3).toNat + o / lb) + o % lb), lb - o % lb) d1
  | .scatter => (fetchIdx env t q c (o / lb) d).bind fun c1 d1 =>
      let i := c1.idx.get 0 (o / lb)
      if tLines c.dstT ≤ i then .trap 2 0 0 0 0
      else .ok (c1, dw (tLine c.srcT ((c.op 3).toNat + o / lb) + o % lb), dw (tLine c.dstT i + o % lb), lb - o % lb) d1
  | .xfer => .wait Wait.idle d
  | .xferm => .wait Wait.idle d
  | .notify => .wait Wait.idle d
  | .implicit => .wait Wait.idle d

/-- Read the next bytes of a command, at most n, and send them on their way: those within one unit of coherence at each end (R150, R244,
R269), behind a packet of the tile that is on its way there (R268). Their write is performed later, and until then their read may be
(R308, R310). -/
def sendChunk (env : Env) (t q : Nat) (c : Cmd) (n : Nat) (d : Dev) : Res Cmd :=
  let w := cmdWho t c
  (cmdAt env t q c d).bind fun p d0 =>
  (locate env d0 w {} p.2.1).bind fun s d1 =>
  (locate env d1 w { write := true } p.2.2.1).bind fun x d2 =>
    let k := min (min n p.2.2.2) (min (s.1.unit - s.1.inUnit) (x.1.unit - x.1.inUnit))
    if branchDue env d2 t x.1 then .wait Wait.idle d2 else
    match (payFrom d2 t q s.1).bind fun d3 => payFrom d3 t q x.1 with
    | none => .wait Wait.share d2
    | some d3 =>
      let (b, d4) := loadHint env d3 (.tile t (aqPath q)) c.vf s.2 (optFront c.src) s.1 k
      let out : OutWr := { loc := x.1, cls := x.2, front := optFront c.dst, bytes := b, src := some (s.1, s.2, optFront c.src) }
      .ok { p.1 with off := c.off + k, out := c.out ++ [out] } d4

/-- What stopped the moving of bytes. -/
inductive MoveEnd where
  | done
  | fault (code : Nat) (va : Dword)
  | badIndex
  | blocked (w : Wait)
  deriving DecidableEq, Repr

/-- Read and send n bytes of a command, a chunk at a time in increasing offset, until something stops it. One that waits for a token keeps
those that it was given (R269). -/
def sendBytes (env : Env) (t q : Nat) : Nat → Nat → Cmd → Dev → Cmd × Dev × MoveEnd
  | 0, _, c, d => (c, d, .done)
  | f + 1, n, c, d =>
    if n = 0 then (c, d, .done) else
    match sendChunk env t q c n d with
    | .ok c1 d1 => sendBytes env t q f (n - (c1.off - c.off)) c1 d1
    | .wait w d1 => (c, waitPaid t q w d d1, .blocked w)
    | .sys code va => (c, d, .fault code va)
    | .trap _ _ _ _ _ => (c, d, .badIndex)
    | .roll _ => (c, d, .blocked Wait.idle)

/-- Two writes touch a byte in common. -/
def OutWr.meets (a b : OutWr) : Bool :=
  decide (a.loc.key < b.loc.key + b.bytes.length) && decide (b.loc.key < a.loc.key + a.bytes.length)

/-- The first n bytes of a list of writes, and what is left; none where it has fewer. -/
def cutOut : Nat → List OutWr → Option (List OutWr × List OutWr)
  | n, [] => if n = 0 then some ([], []) else none
  | n, w :: r =>
    if n = 0 then some ([], w :: r)
    else if n < w.bytes.length then
      some ([{ w with bytes := w.bytes.take n }],
        { w with loc := w.loc.plus n, bytes := w.bytes.drop n, src := w.src.map fun x => (x.1.plus n, x.2) } :: r)
    else (cutOut (n - w.bytes.length) r).map fun x => (w :: x.1, x.2)

/-- n bytes of the writes a command has sent, from the i-th on, where they may be performed before those ahead of them, which touch none of
their bytes (R153, R308); what is left. -/
def takeOut (l : List OutWr) (i n : Nat) : Option (List OutWr × List OutWr) :=
  match cutOut n (l.drop i) with
  | some x => if x.1.any fun w => (l.take i).any w.meets then none else some (x.1, l.take i ++ x.2)
  | none => none

/-- Count bytes moved against a barrier target (R151); a fault there fails the command (R384). -/
def countPiece (env : Env) (t q : Nat) (c : Cmd) (n : Nat) (d : Dev) : Res Bool :=
  if c.tk = 1 && n != 0 then
    match barDecAt env d (cmdWho t c) (.tile t (aqPath q)) c.tgt n with
    | .ok _ d1 => .ok true d1
    | .wait w d1 => .wait w d1
    | .sys code va => .ok false (failCmd env (keepTlb env (d.setQueue t q (d.queue t q).tail) (cmdWho t c) va) t q c code c.off c.tgt)
    | .trap _ _ _ _ _ => .ok true d
    | .roll _ => .ok true d
  else .ok true d

/-- Keep what an attempt of a command did; one that waits leaves only its promotions. -/
def tryKeep (d : Dev) (r : Res Bool) : Dev :=
  match r with
  | .ok _ d1 => d1
  | .wait _ d1 => waitLeft d d1
  | .trap _ _ _ _ _ => d
  | .sys _ _ => d
  | .roll _ => d

/-- What an attempt to move bytes that got nowhere leaves: its promotions, and the tokens it was given (R269). -/
def MoveEnd.left (e : MoveEnd) (t k : Nat) (d d1 : Dev) : Dev :=
  match e with
  | .blocked w => waitPaid t k w d d1
  | .done => waitLeft d d1
  | .fault _ _ => waitLeft d d1
  | .badIndex => waitLeft d d1

/-- The head of a queue, where it moves bytes and is not stalled. -/
def movingHead (d : Dev) (t q : Nat) : Option Cmd :=
  match d.queue t q with
  | [] => none
  | c :: _ => if c.isNotify || c.isXfer || c.stall.isSome then none else some c

/-- n bytes of the head command of a queue are performed, in any order among those it has sent (R308), and counted against its barrier
target (R145, R151). (DEDUCED, safe: log entry 26) -/
def pieceDone (q n : Nat) (env : Env) (d : Dev) : Dev :=
  let t := env.unit
  match movingHead d t q with
  | none => d
  | some c =>
    if n = 0 || c.bytes < c.off - c.outBytes + n then d else
    let m := min (c.bytes - c.off) (max (n - c.outBytes) (Config.moveAhead env.tick))
    let (c1, d1, stop) := sendBytes env t q m m c d
    let first := match takeOut c1.out (Config.movePick env.tick % max 1 c1.out.length) n with
      | some x => some x
      | none => takeOut c1.out 0 n
    match first with
    | some (now, rest) =>
      let c2 := { c1 with out := rest }
      tryKeep d (countPiece env t q c2 n (setHead (now.foldl (putOut env t q c.vf) d1) t q c2))
    | none => stop.left t q d d1

/-- BARRIER_DECREMENT (R145). -/
def execBarrierDecrement (q : BitVec 5) (n : Nat) (s : State) : Host.Outcome State Fault Refusal := s.run (pieceDone q.toNat n)

/-- The head command of a queue moves the rest of its bytes, and ends: it signals its target, or fails at a bad index
(R149, R151, R153). (DEDUCED, safe: log entry 26) The record of a bad index has the original code 2 and ADDR 0 (DESIGN CHOICE,
unsafe: log entry 100). -/
def copyCompletes (q : Nat) (env : Env) (d : Dev) : Dev :=
  let t := env.unit
  match movingHead d t q with
  | none => d
  | some c =>
    let n := c.bytes - c.off
    let (c1, d1, stop) := sendBytes env t q n n c d
    let d2 := flushOut env t q c1 d1
    let c2 := { c1 with out := [] }
    match stop with
    | .done =>
      tryKeep d ((signalCmd env t q c2 c1.outBytes c2.bytes (d2.setQueue t q (d2.queue t q).tail)).bind fun _ d3 => .ok true d3)
    | .badIndex =>
      tryKeep d ((countPiece env t q c2 c1.outBytes (setHead d2 t q c2)).bind fun alive d3 =>
        .ok true (if alive then failCmd env (d3.setQueue t q (d3.queue t q).tail) t q c2 2 c2.off 0 else d3))
    | .blocked w => waitPaid t q w d d1
    | .fault _ _ => d

/-- The head command of a queue moves its bytes up to one that faults, and stalls there (R149). -/
def copyStalls (q : Nat) (env : Env) (d : Dev) : Dev :=
  let t := env.unit
  match movingHead d t q with
  | none => d
  | some c =>
    let n := c.bytes - c.off
    let (c1, d1, stop) := sendBytes env t q n n c d
    match stop with
    | .fault code va =>
      let d2 := keepTlb env (flushOut env t q c1 d1) (cmdWho t c) va
      let c2 := { c1 with out := [], stall := some (BitVec.ofNat 8 code), fva := va }
      tryKeep d ((countPiece env t q c2 c1.outBytes (setHead d2 t q c2)).bind fun alive d3 =>
        .ok true (if alive then cmdFault env d3 t q c2 8 code code c2.off va else d3))
    | .done => d
    | .badIndex => d
    | .blocked _ => d

/-- TCMD 3: a stalled queue goes on at its offset (R149, R321). -/
def resumeQueue (t q : Nat) (d : Dev) : Dev :=
  match d.queue t q with
  | [] => d
  | c :: _ => if c.stall.isSome then setHead d t q { c with stall := none } else d

/-- RESUME_QUEUE (R149). -/
def execResumeQueue (q : BitVec 5) (s : State) : Host.Outcome State Fault Refusal :=
  s.run fun env d => resumeQueue env.unit q.toNat d

/-- TCMD 4: the command a queue is stalled on fails (R149, R321). -/
def failQueue (env : Env) (t q : Nat) (d : Dev) : Dev :=
  match d.queue t q with
  | [] => d
  | c :: l =>
    match c.stall with
    | some code => failCmd env (d.setQueue t q l) t q c code.toNat c.off c.fva
    | none => d

/-- FAIL_QUEUE_COMMAND (R149). -/
def execFailQueueCommand (q : BitVec 5) (s : State) : Host.Outcome State Fault Refusal :=
  s.run fun env d => failQueue env env.unit q.toNat d

/-! ### Notifies -/

/-- A notify as a command, for its target (R155). -/
def NEntry.asCmd (e : NEntry) : Cmd :=
  { kind := if e.isImplicit then .implicit else .notify, tk := e.tk, tgt := e.tgt, asid := e.asid, vf := e.vf, priv := e.priv,
    serial := e.serial, node := e.node, faultq := e.faultq, walk := e.walk }

/-- A tile's elements that are matched and not performed, where no transfer of it is left that will wait for them (R253): a failed one has
left them at their barrier object. -/
def landsLost (d : Dev) (t : Nat) : Bool :=
  d.later.any (fun x => match x.el with
    | some e => e.ag == .tile t 3
    | none => false) &&
  !((d.queue t 5).any fun c => !c.isNotify) &&
  !((d.cluster (t / 8)).slots.toList.any fun s => s.st != .free && match s.job with
    | some j => j.tile == t && j.desc.getLsbD 16
    | none => false)

/-- A notify at the head of its queue or stream completes (R113, R155). -/
def notifyCompletes (q : Nat) (env : Env) (d : Dev) : Dev :=
  let t := env.unit
  if q ≤ 5 then
    match d.queue t q with
    | [] => d
    | c :: l => if c.isNotify && !(q = 5 && landsLost d t) then tryKeep d ((signalCmd env t q c 0 0 (d.setQueue t q l)).bind fun _ d1 => .ok true d1) else d
  else
    match vget (d.tile t).nq [] (q - 8) with
    | [] => d
    | e :: l =>
      if !e.isNotify then d else
      let d1 := d.onTile t fun y => { y with nq := vset y.nq (q - 8) l }
      let c := e.asCmd
      if c.tk = 2 && e.failed then
        postIter env d1 t c.serial (cmdRecord c.tgt 0 6 q 1) (getPts d1 (.tile t 4))
      else tryKeep d ((signalCmd env t q c 0 0 d1).bind fun _ d2 => .ok true d2)

/-- NOTIFY_COMPLETE (R155). -/
def execNotifyComplete (q : BitVec 5) (s : State) : Host.Outcome State Fault Refusal := s.run (notifyCompletes q.toNat)

/-! ### The words -/

/-- The iteration names an asynchronous queue (R113). -/
def nameQueue (q : BitVec 5) (c : TCore) : TCore := if c.named.contains q then c else { c with named := c.named ++ [q] }

/-- Append a command to its queue, or wait while it holds 32; one of zero bytes completes at once (R147, R150). -/
def appendCmd (env : Env) (t : Nat) (q : BitVec 5) (c : Cmd) (d : Dev) : Res Unit :=
  if 32 ≤ (d.queue t q.toNat).length then .wait Wait.idle d else
  let d1 := d.onCore t (nameQueue q)
  if c.bytes = 0 && !c.isNotify then signalCmd env t q.toNat c 0 0 d1
  else .ok () (d1.setQueue t q.toNat (d1.queue t q.toNat ++ [c]))

/-- A notify behind the remote words of a stream (R155); it reports a failure that no earlier one has (R160). -/
def appendNote (t : Nat) (q : BitVec 5) (c : Cmd) (d : Dev) : Dev :=
  let s := q.toNat - 8
  let e : NEntry := { isNotify := true, failed := (d.tile t).core.net.bad.getLsbD s, walk := c.walk, serial := c.serial, node := c.node, faultq := c.faultq, asid := c.asid,
                      vf := c.vf, priv := c.priv, tk := c.tk, tgt := c.tgt }
  let clear (c : TCore) : TCore := { c with net := { c.net with bad := c.net.bad &&& ~~~(BitVec.ofNat 16 1 <<< s) } }
  (d.onCore t fun c => clear (nameQueue q c)).onTile t fun y => { y with nq := vset y.nq s (vget y.nq [] s ++ [e]) }

/-- The command an ENG word makes: a snapshot of its operands and of its target (R147). -/
def newCmd (d : Dev) (t : Nat) (kind : CmdKind) (n : Nat) (a b : BitVec 5) (k : BitVec 2) : Cmd :=
  let c := (d.tile t).core
  { kind := kind, ops := (List.range n).map fun i => c.a (b + BitVec.ofNat 5 i), tk := k, tgt := c.a a, asid := c.csr.asid,
    vf := c.csr.vfid, priv := privileged d t, serial := c.iter.serial, node := c.iter.node, faultq := c.iter.faultq,
    walk := (c.engine .a).walk }

/-- An ENG word (R147): the target's alignment, the checks of the command, the append. `check` gives the command with its
resolved descriptors. -/
def engTry (kind : CmdKind) (n : Nat) (a b : BitVec 5) (k : BitVec 2) (q : BitVec 5) (check : TCore → Cmd → Dev → Res Cmd)
    (env : Env) (at_ : At) (d : Dev) : Res Unit :=
  let c := newCmd d at_.t kind n a b k
  if k.toNat < 2 && !aligned c.tgt 16 then misaligned c.tgt 16 else
  (check (d.tile at_.t).core c d).bind fun c1 d1 => appendCmd env at_.t q c1 d1

/-- COPY's operand check (R151). -/
def copyCheck (_ : TCore) (c : Cmd) (d : Dev) : Res Cmd := if 2 ^ 40 ≤ (c.op 2).toNat then aShape 2 (c.op 2) else .ok c d

/-- COPY2D's operand checks (R152). A product of rows and row bytes out of range is reported at the row count (DESIGN CHOICE, unsafe: log
entry 99). -/
def copy2dCheck (_ : TCore) (c : Cmd) (d : Dev) : Res Cmd :=
  if 2 ^ 32 ≤ (c.op 2).toNat then aShape 2 (c.op 2)
  else if 2 ^ 32 ≤ (c.op 3).toNat || 2 ^ 40 ≤ (c.op 2).toNat * (c.op 3).toNat then aShape 3 (c.op 3)
  else .ok c d

/-- GATHER's and SCATTER's checks (R130, R153): the alignment of the index list, the descriptors, then the operands. Lines out of range
are reported at the first line (DESIGN CHOICE, unsafe: log entry 99). -/
def gatherCheck (core : TCore) (c : Cmd) (d : Dev) : Res Cmd :=
  if !aligned (c.op 1) 4 then misaligned (c.op 1) 4 else
  match tidOf core.tids (bitsN (c.op 0) 0 8), tidOf core.tids (bitsN (c.op 0) 8 8) with
  | some s, some x =>
    if tFmt s != tFmt x || tSize s 0 != tSize x 0 || !tWritable x then tensorEntry
    else if 2 ^ 16 ≤ (c.op 0).toNat then aShape 0 (c.op 0)
    else if 2 ^ 32 ≤ (c.op 2).toNat then aShape 2 (c.op 2)
    else if tLines (if c.kind == .gather then x else s) < (c.op 3).toNat + (c.op 2).toNat then aShape 3 (c.op 3)
    else .ok { c with src := some s, dst := some x } d
  | some _, none => tensorEntry
  | none, some _ => tensorEntry
  | none, none => tensorEntry

/-- A target word that breaks the table of R154, or names a disabled unit of this device. -/
def targetOk (env : Env) (w : Dword) : Bool :=
  let unit := bitsN w 8 10
  let here := bitsN w 0 6 == env.caps.devid.toNat
  bitsN w 18 46 == 0 && !w.getLsbD 6 &&
    (if w.getLsbD 7 then decide (unit < 160) && (!here || env.caps.sliceOn unit)
     else decide (unit < 640) && (!here || env.caps.tileOn unit))

/-- The operand of a transfer that its box makes wrong: a reserved bit, an extent at or above RANK, a box that leaves the tensor
at its origin's register (R147, R154); 9 for none. -/
def boxBad (c : Cmd) (s : Row) : Nat :=
  let empty := (List.range 4).any fun i => c.ext i == 0
  let bad (i : Nat) : List Nat :=
    (if tRank s ≤ i && decide (1 < c.ext i) then [3 + i / 2] else []) ++
    (if !empty && decide (tSize s i < c.org i + c.ext i) then [1 + i / 2] else [])
  ((if 2 ^ 8 ≤ (c.op 0).toNat then [0] else []) ++ (List.range 4).flatMap bad).foldl min 9

/-- XFER's and XFERM's checks (R29, R130, R154): the alignment of the receiver list first. -/
def xferCheck (env : Env) (core : TCore) (c : Cmd) (d : Dev) : Res Cmd :=
  if c.kind != .xfer && !aligned (c.op 5) 8 then misaligned (c.op 5) 8 else
  match tidOf core.tids (bitsN (c.op 0) 0 8) with
  | none => tensorEntry
  | some s =>
    if tKey s = 0 || tFmt s = 8 || tFmt s = 9 then tensorEntry
    else if boxBad c s != 9 then aShape (boxBad c s) (c.op (boxBad c s))
    else if c.kind == .xfer then
      if !targetOk env (c.op 5) then aShape 5 (c.op 5) else .ok { c with src := some s, recv := some [c.op 5], sent := [0] } d
    else if (c.op 6).toNat < 1 || 64 < (c.op 6).toNat then aShape 6 (c.op 6)
    else .ok { c with src := some s } d

/-- COPY (R147, R150). -/
def execCopy (a b : BitVec 5) (k : BitVec 2) (q : BitVec 5) (s : State) : Host.Outcome State Fault Refusal :=
  aTry (.copy a b k q) (engTry .copy 3 a b k q copyCheck) s
/-- COPY2D (R147, R152). -/
def execCopy2d (a b : BitVec 5) (k : BitVec 2) (q : BitVec 5) (s : State) : Host.Outcome State Fault Refusal :=
  aTry (.copy2d a b k q) (engTry .copy2d 6 a b k q copy2dCheck) s
/-- GATHER (R147, R153). -/
def execGather (a b : BitVec 5) (k : BitVec 2) (q : BitVec 5) (s : State) : Host.Outcome State Fault Refusal :=
  aTry (.gather a b k q) (engTry .gather 4 a b k q gatherCheck) s
/-- SCATTER (R147, R153). -/
def execScatter (a b : BitVec 5) (k : BitVec 2) (q : BitVec 5) (s : State) : Host.Outcome State Fault Refusal :=
  aTry (.scatter a b k q) (engTry .scatter 4 a b k q gatherCheck) s
/-- XFER (R147, R154). -/
def execXfer (a b : BitVec 5) (k : BitVec 2) (q : BitVec 5) (s : State) : Host.Outcome State Fault Refusal :=
  aTry (.xfer a b k q) (fun env at_ d => engTry .xfer 6 a b k q (xferCheck env) env at_ d) s
/-- XFERM (R147, R154). -/
def execXferm (a b : BitVec 5) (k : BitVec 2) (q : BitVec 5) (s : State) : Host.Outcome State Fault Refusal :=
  aTry (.xferm a b k q) (fun env at_ d => engTry .xferm 7 a b k q (xferCheck env) env at_ d) s

/-- NOTIFY (R155). -/
def notifyWord (a : BitVec 5) (k : BitVec 2) (q : BitVec 5) (env : Env) (at_ : At) (d : Dev) : Res Unit :=
  let c := newCmd d at_.t .notify 0 a 0 k
  if k.toNat < 2 && !aligned c.tgt 16 then misaligned c.tgt 16
  else if q.toNat ≤ 5 then appendCmd env at_.t q c d
  else .ok () (appendNote at_.t q c d)

/-- NOTIFY (R155). -/
def execNotify (a : BitVec 5) (k : BitVec 2) (q : BitVec 5) (s : State) : Host.Outcome State Fault Refusal :=
  aTry (.notify a k q) (notifyWord a k q) s

/-! ### Fences, markers and joins (R158, R245, R311) -/

/-- A rake's job sends a coordinate transfer (R215). -/
def RakeJob.xfer (j : RakeJob) : Bool := j.desc.getLsbD 16

/-- The rake jobs of a tile's iteration that words of a walk count below `walk` closed and whose output is not performed. -/
def jobsLeft (d : Dev) (t serial : Nat) (walk : Dword) : List RakeJob :=
  let k := d.cluster (t / 8)
  let mine (j : RakeJob) : Bool := j.tile == t && j.serial == serial && decide (j.walk.toNat < walk.toNat)
  ((k.slots.toList.filter fun s => s.st != .free).filterMap (·.job)).filter mine ++
    (k.mq.filterMap fun m => m.kind.job).filter mine

/-- Every access of path p that words of A or M below a walk count issued has been performed (R158, R253). -/
def pathDone (d : Dev) (t : Nat) (walk : Dword) (p : Nat) : Bool :=
  let y := d.tile t
  let serial := y.core.iter.serial
  let early (w : Dword) (z : Nat) : Bool := z == serial && decide (w.toNat < walk.toNat)
  let queues (l : List Nat) : Bool := !l.any fun q => (d.queue t q).any fun c => !c.isNotify && early c.walk c.serial
  match p with
  | 0 => true
  | 1 => queues [0, 1, 2, 3]
  | 2 => queues [4]
  | 3 => queues [5] && !((jobsLeft d t serial walk).any (·.xfer) || landsLost d t)
  | 4 => !y.nq.toList.any fun l => l.any fun e => !e.isNotify && early e.walk e.serial
  | _ =>
    let m := y.core.engine .m
    (m.stopped || walk.toNat ≤ m.walk.toNat) && (jobsLeft d t serial walk).isEmpty &&
      !(d.cluster (t / 8)).mq.any fun c => c.tile == t && early c.walk c.serial

/-- A fence waits until the accesses of the m1 paths below a walk count are performed; it flushes the streams when it waits on
the network path (R158). -/
def fenceTry (m1 m0 : BitVec 6) (walk : Dword) (env : Env) (at_ : At) (d : Dev) : Res Unit :=
  if (pathsOf m1).all (pathDone d at_.t walk) then
    .ok () (fencePts at_.t m1 m0 d)
  else
    .wait Wait.idle (if m1.getLsbD 4 && !pathDone d at_.t walk 4 then flushStreams env at_.t d else d)

/-- M steps over a fence or join that holds it: its later commands wait for A, and so do the packets of its later closes (R158, R271). -/
def fenceSkip (m0 : BitVec 6) (e : Eng) (c : TCore) : TCore :=
  if e = .m then
    let w := (c.engine .m).walk + 1
    { c with mfence := if m0.getLsbD 5 then dmax c.mfence w else c.mfence, xfence := if m0.getLsbD 3 then dmax c.xfence w else c.xfence }
  else c

/-- FENCEX (R158). -/
def execFencex (m n : BitVec 6) (s : State) : Host.Outcome State Fault Refusal :=
  s.run fun env d =>
    engineWord .a (.fencex m n) (fun a dv => fenceTry m n ((dv.tile a.t).core.engine .a).walk env a dv) (fenceSkip n) env d

/-- MARK (R158): a marker is its paths and a sequence number. -/
def execMark (d : BitVec 5) (m : BitVec 6) (s : State) : Host.Outcome State Fault Refusal :=
  aWord (.mark d m) (fun c =>
    let seq := c.mseq + 1
    { c.setA d (dw (seq * 256 + m.toNat)) with mseq := seq, markers := ⟨seq, m, (c.engine .a).walk⟩ :: c.markers }) s

/-- What the marker in a register names (R158): any other value names all paths up to here. -/
def markerOf (c : TCore) (v : Dword) : BitVec 6 × Dword :=
  match c.markers.find? fun k => dw (k.seq * 256 + k.paths.toNat) == v with
  | some k => (k.paths, k.walk)
  | none => (63, (c.engine .a).walk)

/-- JOIN (R158). -/
def execJoin (a : BitVec 5) (n : BitVec 6) (s : State) : Host.Outcome State Fault Refusal :=
  s.run fun env d =>
    engineWord .a (.join a n) (fun p dv =>
      let k := markerOf (dv.tile p.t).core ((dv.tile p.t).core.a a)
      fenceTry k.1 n k.2 env p dv) (fenceSkip n) env d

end Sys2Proof.Machine
end

