-- ==== Sys2Proof/Machine/MatrixMath.lean ====
section
/-! DEFINITION. The numerics of the matrix array (R11, R13, R19 to R23): elements as exact numbers, group sums, accumulation
with its status bits, and the pairs of operands it runs. -/

namespace Sys2Proof.Machine

/-- An element of a format as an exact number: a GQ4 code stands for its level (R8, R11). -/
def elemNum (fmt : Nat) (x : Word) : Num :=
  match fmt with
  | 0 => num32 x
  | 1 => bf16.dec x.toNat
  | 2 => fp16.dec x.toNat
  | 3 => e4m3.dec x.toNat
  | 4 => e5m2.dec x.toNat
  | 5 => .ofInt (x.setWidth 8).toInt
  | 6 => .ofInt x.toNat
  | 7 => .ofInt x.toInt
  | _ => gq4Level x.toNat

/-- The product of one position of a group; one that compressed A leaves out is +0 (R20, R22). -/
def posProd (fa fb : Nat) (x y : Option Word) : Num :=
  match x, y with
  | some u, some v => (elemNum fa u).mul (elemNum fb v)
  | some _, none => .fin false 0 0
  | none, some _ => .fin false 0 0
  | none, none => .fin false 0 0

/-- The exact sum of the products of a group: -0 only when every product is -0 (R20). -/
def exactSum : List Num → Num
  | [] => .fin false 0 0
  | x :: r => r.foldl Num.add x

/-- Whether a number is an infinity. -/
def Num.isInf : Num → Bool
  | .nan => false
  | .inf _ => true
  | .fin _ _ _ => false

/-- An exact FP32 result as a number again. -/
def rne32 (x : Num) : Num := num32 (BitVec.ofNat 32 (fp32.result x).1)

/-- One group into an FP32 accumulator, under the scale of its GQ4 block if it has one (R20, R21). -/
def accFp32 (s : Num) (scale : Option Word) (acc : Word) : Word × MFlags :=
  let g := rne32 s
  let (g2, sc) := match scale with
    | none => (g, Num.fin false 1 0)
    | some w => (rne32 (g.mul (num32 w)), num32 w)
  let a := num32 acc
  let r := a.add g2
  if g2.isNan || (r.isNan && !a.isNan) then (0x7FC00000, mNanIn)
  else if a.isNan then (0x7FC00000, 0)
  else
    let out := (fp32.result r).1
    (BitVec.ofNat 32 out, mWhen (!s.isInf && !sc.isInf && !a.isInf && (fp32.dec out).isInf) mAccInf)

/-- One group into an FP16 accumulator (R20, R21): a finite sum out of range is clamped. A tiny negative sum that rounds to zero gives
+0: R21 says that an element accumulated from a fresh slot is never -0, and an FP16 slot is always fresh when its first product comes
(DEDUCED, unsafe: log entry 81: R20's rne_f16 alone would give -0). -/
def accFp16 (s : Num) (acc : Word) : Word × MFlags :=
  let g := rne32 s
  let a := fp16.dec acc.toNat
  let r := a.add g
  if g.isNan || (r.isNan && !a.isNan) then (0x7E00, mNanIn)
  else match r with
    | .nan => (0x7E00, 0)
    | .inf neg => (BitVec.ofNat 32 (fp16.infOf neg), 0)
    | .fin neg m e =>
      let (b, f) := fp16.round .rne true neg m e
      (BitVec.ofNat 32 (if m ≠ 0 ∧ b = fp16.sign then 0 else b), mWhen (f &&& fOverflow != 0) mSatF16)

/-- The integer a number without fraction stands for. -/
def Num.int : Num → Int
  | .nan => 0
  | .inf _ => 0
  | .fin neg m e => signedAt neg m e 0

/-- One group into an INT32 accumulator (R20). -/
def accInt32 (s : Num) (acc : Word) : Word × MFlags :=
  let z := acc.toInt + s.int
  if z < -(2 ^ 31) then (0x80000000, mSatI32)
  else if 2 ^ 31 ≤ z then (0x7FFFFFFF, mSatI32)
  else (BitVec.ofInt 32 z, 0)

/-- One group into an accumulator: 1 FP32, 2 FP16, 3 INT32 (R204). -/
def accGroup (kind : BitVec 2) (s : Num) (scale : Option Word) (acc : Word) : Word × MFlags :=
  if kind = 1 then accFp32 s scale acc else if kind = 2 then accFp16 s acc else accInt32 s acc

/-- One element of a product, group after group (R19, R20): rows of A and B over K, the scales of B's blocks. `n` bounds the
groups. -/
def accElem (kind : BitVec 2) (g fa fb : Nat) : Nat → List (Option Word) → List (Option Word) → List Word → Word → MFlags →
    Word × MFlags
  | 0, _, _, _, acc, fl => (acc, fl)
  | n + 1, a, b, sc, acc, fl =>
    if a.isEmpty then (acc, fl) else
    let s := exactSum (List.zipWith (posProd fa fb) (a.take g) (b.take g))
    let (acc1, f1) := accGroup kind s sc.head? acc
    accElem kind g fa fb n (a.drop g) (b.drop g) sc.tail acc1 (fl ||| f1)

/-- A product added to M x N elements by rows (R209): the elements and the status bits raised. -/
def matMul (kind : BitVec 2) (g : Nat) (a b : Opnd) (old : List Word) : List Word × MFlags :=
  let row (ra : List (Option Word)) (acc : List Word) : List (Word × MFlags) :=
    (List.range b.elems.length).map fun j =>
      accElem kind g a.fmt.toNat b.fmt.toNat ra.length ra (b.elems.getD j []) (b.scales.getD j []) (acc.getD j 0) 0
  let n := b.elems.length
  let r := ((List.range a.elems.length).map fun i => row (a.elems.getD i []) ((old.drop (i * n)).take n)).flatten
  (r.map (·.1), r.foldl (fun f x => f ||| x.2) 0)

/-! ### What the fetch unit has read, as elements -/

/-- The bytes of what has been read. -/
def piecesBytes (l : List Piece) : List Byte := (l.map (·.bytes)).flatten

/-- n elements of e bytes. -/
def cutElems (e : Nat) : Nat → List Byte → List (Option Word)
  | 0, _ => []
  | n + 1, b => some (BitVec.ofNat 32 (leNat (b.take e))) :: cutElems e n (b.drop e)

/-- The codes of GQ4 bytes, the even element low (R12). -/
def cutNibbles : List Byte → List (Option Word)
  | [] => []
  | b :: r => some (BitVec.ofNat 32 (b.toNat % 16)) :: some (BitVec.ofNat 32 (b.toNat / 16)) :: cutNibbles r

/-- The elements of a box, span by span (R207). -/
def ReadBox.elems (b : ReadBox) : List (List (Option Word)) := b.spans.map fun s =>
  if b.fmt = 8 then cutNibbles (piecesBytes s) else cutElems (fmtBytes b.fmt.toNat) b.n (piecesBytes s)

/-- An element of a format converted exactly to FP32 (R37, R223). A NaN, of an FP32 box too, becomes the canonical one (DESIGN CHOICE,
unsafe: log entry 96). -/
def toFp32 (fmt : Nat) (x : Word) : Word := BitVec.ofNat 32 (fp32.result (elemNum fmt x)).1

/-- The elements of a box in the order of the boundary, as FP32 (R223). -/
def ReadBox.fp32 (b : ReadBox) : List Word := b.elems.flatten.map fun x => toFp32 b.fmt.toNat (x.getD 0)

/-- The scale of a GQ4 block from its code and its superscale (R13). -/
def gq4Scale (code sup : List Byte) : Word := (f32Mul (i32ToF32 (BitVec.ofNat 32 (leNat code))).1 (BitVec.ofNat 32 (leNat sup))).1

/-- Nibble g of the metadata words of a row (R211). -/
def nibbleAt (row : List (Option Word)) (g : Nat) : Nat := (((row.getD (g / 8) none).getD 0).toNat) / 16 ^ (g % 8) % 16

/-- A compressed row spread over its K positions (R211). -/
def spread (row stored : List (Option Word)) (k : Nat) : List (Option Word) :=
  (List.range k).map fun j =>
    let nb := nibbleAt row (j / 4)
    if nb % 4 = j % 4 then stored.getD (j / 4 * 2) none
    else if nb / 4 = j % 4 then stored.getD (j / 4 * 2 + 1) none else none

/-- An operand from what has been read of it (R207, R211). -/
def OpRead.opnd (o : OpRead) : Opnd :=
  { fmt := o.rows.fmt
    elems := match o.meta_ with
      | none => o.rows.elems
      | some mt => List.zipWith (fun r s => spread r s (2 * o.rows.n)) mt o.rows.elems
    scales := o.codes.map fun l => l.map fun x => gq4Scale (piecesBytes x.1) (piecesBytes x.2) }

/-- The columns of a core (R34): n_k spans each, K innermost. -/
def ChainStep.cols (s : ChainStep) (core : ReadBox) : List (List (Option Word)) :=
  (List.range (s.m * s.bond)).map fun q => ((core.elems.drop (s.nn * q)).take s.nn).flatten

/-- The group size and the accumulator of a pair of formats, if the array runs it (R19, R23, R211). -/
def pairRule (fa fb : Nat) (f16 sparse : Bool) : Option (Nat × BitVec 2) :=
  let fp8 (f : Nat) : Bool := f == 3 || f == 4
  let acc : BitVec 2 := if f16 then 2 else 1
  if fp8 fa && fp8 fb then some (32, acc)
  else if sparse then none
  else if fb = 8 then if (fp8 fa || fa == 1) && !f16 then some (64, 1) else none
  else if fa = 1 && fb = 1 then if f16 then none else some (16, 1)
  else if fa = 2 && fb = 2 then some (16, acc)
  else if fa = 5 && fb = 5 then if f16 then none else some (32, 3)
  else none

/-- The metadata nibbles that are legal (R14). -/
def nibbleOk (n : Nat) : Bool := n % 4 < n / 4 % 4

end Sys2Proof.Machine
end

