-- ==== Sys2Proof/Machine/Turns.lean ====
section
/-! DEFINITION. Leases and turns (R197 to R203, R225), what every M word waits for (R158, R335), operands as the tile fetch unit
reads them (R207, R208), and the commands of the array in their order (R197, R210). -/

namespace Sys2Proof.Machine

/-! ### The array's commands -/

/-- A close or a drop takes effect (R215, R218). -/
def Cluster.takeEffect (k : Cluster) (m : MCmd) : Cluster :=
  match m.kind with
  | .close s j => k.setSlot s.toNat { k.slot s.toNat with st := .closed, job := some j }
  | .drop s => k.freeSlot s.toNat
  | .mma _ _ _ _ => k
  | .step _ => k
  | .cinit _ _ => k
  | .emit _ => k

/-- Whether an entry is a close or a drop. -/
def MKind.isEnd : MKind → Bool
  | .close _ _ => true
  | .drop _ => true
  | .mma _ _ _ _ => false
  | .step _ => false
  | .cinit _ _ => false
  | .emit _ => false

/-- Every close and drop behind which no command of its own tile is left takes effect (R215, R218). -/
def settleMq (k : Cluster) : Cluster :=
  k.mq.foldl (fun c m =>
    if m.kind.isEnd && !c.mq.any (fun x => x.tile == m.tile) then c.takeEffect m
    else { c with mq := c.mq ++ [m] }) { k with mq := [] }

/-- Append a command or an end to the array's order, with the lines its reads have pinned (R208). -/
def pushMq (d : Dev) (t : Nat) (kind : MKind) : Dev :=
  let c := (d.tile t).core
  (d.onTile t fun y => { y with paid := y.paid.set 8 0, core := { y.core with fuPins := [] } }).onCluster (t / 8) fun k =>
    settleMq { k with mq := k.mq ++ [{ kind := kind, tile := t, serial := c.iter.serial, vf := c.csr.vfid, walk := (c.engine .m).walk,
                                       pins := c.fuPins }] }

/-- Whether a command on the boundary is under way in a cluster. -/
def chainBusy (d : Dev) (c : Nat) : Bool := (d.cluster c).mq.any fun m => m.kind.onBnd

/-! ### Turns -/

/-- A tile asks for a turn, once (R197). -/
def askTurn (d : Dev) (t : Nat) : Dev :=
  d.onCluster (t / 8) fun k => if k.reqs.contains t then k else { k with reqs := k.reqs ++ [t] }

/-- The lease of a tile is open: a LEASE walked since dispatch with no LREL or END after it (R200, R202). -/
def Lease.isOpen (l : Lease) : Bool := l.held || l.trapped

/-- LEASE_PROTOCOL (R200). -/
def leaseTrap {α : Type} (d : Dev) (a : At) (i : Instr) (n : Nat) : Res α :=
  .trap 0x06 (dw n) (dw (d.tile a.t).core.lease.left) (zx ((encode i).getD 0)) 0

/-- Go on when this tile has the turn (R200 to R202): ask for it otherwise and wait; a turn past its limit ends first. The
lease that a trap ended is opened again. -/
def withTurn {α : Type} (a : At) (d : Dev) (f : Dev → Res α) : Res α :=
  let k := d.cluster (a.t / 8)
  if k.holder = some a.t then
    if !k.expired then f (d.onCore a.t fun c => { c with lease := { c.lease with held := true, trapped := false } })
    else if mIdle d a.t then .wait Wait.idle (askTurn (endTurn d a.t 4) a.t)
    else .wait Wait.idle d
  else .wait Wait.idle (askTurn d a.t)

/-- A leased word (R200): `charged` for a word that needs budget. -/
def leasedWord {α : Type} (i : Instr) (charged : Bool) (a : At) (d : Dev) (f : Dev → Res α) : Res α :=
  let l := (d.tile a.t).core.lease
  if !l.isOpen then leaseTrap d a i 1
  else if charged && l.left == 0 then leaseTrap d a i 2
  else withTurn a d f

/-- Charge one command to the budget (R200). -/
def charge (d : Dev) (t : Nat) : Dev := d.onCore t fun c => { c with lease := { c.lease with left := c.lease.left - 1 } }

/-- An M word; before one that ERET has let go, A's accesses count as fenced (R335). -/
def mTry (i : Instr) (f : Env → At → Dev → Res Unit) (s : State) : Host.Outcome State Fault Refusal :=
  s.run fun env d =>
    engineWord .m i (fun a dv =>
      f env a (if (dv.tile a.t).core.trap.mHold then fencePts a.t 0x01 0x20 dv else dv)) (fun _ c => c) env d

/-- An M word that accesses memory or the array: it waits for A at the latest fence or join that names the matrix path in its m0
(R158). -/
def mFenced (i : Instr) (f : Env → At → Dev → Res Unit) (s : State) : Host.Outcome State Fault Refusal :=
  mTry i (fun env a d =>
    let c := (d.tile a.t).core
    if (c.engine .a).walk.toNat < c.mfence.toNat then .wait Wait.idle d else f env a d) s

/-- OPERAND_SHAPE of M (R226). -/
def mShape {α : Type} (d : Dev) (a : At) (i : Instr) (n : Nat) : Res α :=
  .trap 0x02 (dw n) (zx ((encode i).getD 0)) (mshapeCsr (d.tile a.t).core) 0

/-- TENSOR_ENTRY of a TID (R209, R222). -/
def mTensor {α : Type} (n v : Nat) : Res α := .trap 0x09 (dw n) (dw v) 0 0

/-- UNSUPPORTED_COMBINATION (R23). -/
def mUnsupported {α : Type} : Res α := .trap 0x03 0 0 0 0

/-- LEASE (R198). (DEDUCED, unsafe: log entry 33) -/
def leaseWord (n : BitVec 18) (a : At) (d : Dev) : Res Unit :=
  let c := (d.tile a.t).core
  let k := d.cluster (a.t / 8)
  let left := min n.toNat (min c.lease.cap k.lcap.toNat)
  let opened (d : Dev) : Dev := d.onCore a.t fun c => { c with lease := { c.lease with held := true, trapped := false, left := left } }
  if c.lease.held then .ok () (opened d) else withTurn a d fun d1 => .ok () (opened d1)

/-- LEASE (R198). -/
def execLease (n : BitVec 18) (s : State) : Host.Outcome State Fault Refusal := mTry (.lease n) (fun _ => leaseWord n) s

/-- LREL (R198): with no lease held it has no effect, save that a lease which a trap ended is not opened again. -/
def lrelWord (a : At) (d : Dev) : Res Unit :=
  let l := (d.tile a.t).core.lease
  if l.held then (if mIdle d a.t then .ok () (endLease d a.t 1) else .wait Wait.idle d)
  else if l.trapped then .ok () (endLease d a.t 1) else .ok () d

/-- LREL (R198). -/
def execLrel (s : State) : Host.Outcome State Fault Refusal := mTry .lrel (fun _ => lrelWord) s

/-! ### Turns as the arbiter sees them -/

/-- The slots of a departing VF that hold work for the rake (R203). -/
def drainsFor (k : Cluster) (vf : BitVec 10) : Bool :=
  k.slots.toList.any fun s => (s.st == .closed || s.st == .draining) && s.vf == vf

/-- The copy of physical register p goes to the park block; it is lost where that faults, and waits while its page is promoted or frozen
(R193, R318, R327). -/
def parkSave (env : Env) (t : Nat) (vf : BitVec 10) (p : Nat) (x : VReg) (d : Dev) : Res Park :=
  if (d.vf vf.toNat).parkbase = 0 then .ok .lost d else
  match hwWrite env (whoVf d vf t) .none 3 d (parkBlock d vf t + dw (2048 * p)) (vregBytes x) with
  | .ok _ d1 => .ok (.saved 2) d1
  | .wait w d1 => .wait w d1
  | .trap _ _ _ _ _ => .ok .lost d
  | .sys _ _ => .ok .lost d
  | .roll _ => .ok .lost d

/-- The copies of one iteration of a departing VF go to its park block (R193, R203, R327). (DEDUCED, unsafe: log entry 36) -/
def parkOut (env : Env) (t : Nat) (c : TCore) : List (Nat × Park) → Dev → Res (NMap Park)
  | [], d => .ok c.park d
  | e :: r, d =>
    match e.2 with
    | .held _ x _ =>
      (parkSave env t c.csr.vfid e.1 x d).bind fun p d1 => (parkOut env t c r d1).bind fun m d2 => .ok (m.set e.1 p) d2
    | .saved _ => parkOut env t c r d
    | .lost => parkOut env t c r d

/-- Save the parked rows of a VF's saved iterations on one tile, from the i-th on (R203). -/
def parkSaved (env : Env) (vf : BitVec 10) (t : Nat) : Nat → Nat → Dev → Res Unit
  | 0, _, d => .ok () d
  | f + 1, i, d =>
    match (d.tile t).saved[i]? with
    | none => .ok () d
    | some c =>
      if c.csr.vfid = vf then
        (parkOut env t c c.park.entries d).bind fun m d1 =>
          parkSaved env vf t f (i + 1) (d1.onTile t fun y => { y with saved := y.saved.set i { c with park := m } })
      else parkSaved env vf t f (i + 1) d

/-- Save the parked rows of a VF's iterations on one tile (R203). -/
def parkTile (env : Env) (vf : BitVec 10) (t : Nat) (d : Dev) : Res Unit :=
  let c := (d.tile t).core
  let run : Res Unit :=
    if c.csr.vfid = vf && !c.park.entries.isEmpty then
      (parkOut env t c c.park.entries d).bind fun m d1 => .ok () (d1.onCore t fun y => { y with park := m })
    else .ok () d
  run.bind fun _ d1 => parkSaved env vf t (d1.tile t).saved.length 0 d1

/-- Save the parked rows of a VF on some tiles, one after another. -/
def parkTiles (env : Env) (vf : BitVec 10) : List Nat → Dev → Res Unit
  | [], d => .ok () d
  | t :: r, d => (parkTile env vf t d).bind fun _ d1 => parkTiles env vf r d1

/-- Clear the open heads of a departing VF, and the boundary it leaves (R203). -/
def clearFor (vf : BitVec 10) (c : Nat) (d : Dev) : Dev :=
  let d1 := (List.range 8).foldl (fun d s =>
    let k := d.cluster c
    let x := k.slot s
    if x.st == .open_ && x.vf == vf then
      let lose (y : TCore) : TCore := if y.head = some (BitVec.ofNat 3 s) then { y with head := none, headLost := true } else y
      (d.setCluster c (k.freeSlot s)).onTile x.tile fun y => { y with core := lose y.core, saved := y.saved.map lose }
    else d) d
  d1.onCluster c fun k => if k.bnd.empty then k else { k with bnd := { lost := vf :: k.bnd.lost.filter (· != vf) } }

/-- The arbiter grants the oldest request a turn once the commands of other tiles have completed (R197, R203): between VFs it hands the
cluster over first; a park block that is promoted or frozen delays it. -/
def turnGrant (env : Env) (d : Dev) : Dev :=
  let c := env.unit
  let k := d.cluster c
  match k.holder, k.reqs with
  | none, t :: r =>
    let vf := (d.tile t).core.csr.vfid
    let grant (d : Dev) : Dev := d.onCluster c fun k => { k with holder := some t, reqs := r, expired := false, prevVf := some vf }
    if k.mq.any fun m => m.tile != t then d else
    match k.prevVf with
    | none => grant d
    | some old =>
      if old = vf then grant d
      else if drainsFor k old || !k.mq.isEmpty then d
      else match parkTiles env old ((List.range 8).map (8 * c + ·)) d with
        | .ok _ d1 => grant (clearFor old c (settlePark d1 c))
        | .wait _ d1 => waitLeft d d1
        | .trap _ _ _ _ _ => d
        | .sys _ _ => d
        | .roll _ => d
  | none, [] => d
  | some _, _ => d

/-- TURN_GRANT (R197, R203). -/
def execTurnGrant (s : State) : Host.Outcome State Fault Refusal := s.run turnGrant

/-- A turn that has accepted its last command ends once they have completed (R201). (DEDUCED, safe: log entry 32) -/
def expireTurn (d : Dev) (c : Nat) : Dev :=
  let k := d.cluster c
  match k.holder with
  | some t => if k.expired && mIdle d t then endTurn d t 4 else d
  | none => d

/-- TURN_TIME_LIMIT (R201). -/
def execTurnTimeLimit (s : State) : Host.Outcome State Fault Refusal :=
  s.run fun env d =>
    if (d.cluster env.unit).holder.isSome then expireTurn (d.onCluster env.unit fun k => { k with expired := true }) env.unit else d

/-- The words that need a lease (R196). -/
def isLeased : Instr → Bool
  | .mma _ _ _ _ => true
  | .mmas _ _ _ _ => true
  | .rclose _ => true
  | .rdrop => true
  | .rwaitFree => true
  | .rwaitSlot _ => true
  | .cbound _ => true
  | .cord _ => true
  | .cstep => true
  | .chain _ => true
  | .bdset _ _ => true
  | .cinit _ _ => true
  | .cemit => true
  | _ => false

/-- M stands and waits at a leased word. -/
def atLeased (env : Env) (d : Dev) (t : Nat) : Bool :=
  let g := (d.tile t).core.engine .m
  g.wait.isSome && (match (peekAt env d t .m g.pc).map decodeTotal with
    | some i => isLeased i
    | none => false)

/-- A spent turn ends when another tile waits (R201). -/
def budgetEnd (env : Env) (d : Dev) : Dev :=
  let k := d.cluster env.unit
  match k.holder with
  | some t =>
    if (d.tile t).core.lease.left == 0 && mIdle d t && !k.reqs.isEmpty && !atLeased env d t && !(d.tile t).dbg.stopped &&
        !(d.tile t).dbg.pending then endTurn d t 3 else d
  | none => d

/-- TURN_END_BUDGET (R201). -/
def execTurnEndBudget (s : State) : Host.Outcome State Fault Refusal := s.run budgetEnd

/-! ### The tile fetch unit -/

/-- A line of a command's operands is pinned in its slice (R208): none where no way can be taken. What is no line of L2 is noted alike. -/
def fuPin (env : Env) (d : Dev) (t : Nat) (cls : BitVec 4) (loc : Loc) : Option Dev :=
  let note (d : Dev) : Dev := d.onCore t fun c => { c with fuPins := (loc.base, cls) :: c.fuPins }
  match loc with
  | .hbm pa => (l2Pin env d pa cls).map note
  | .spad _ _ => some (note d)
  | .staging _ _ => some (note d)
  | .port _ => some d

/-- How the fetch unit reads: whether it pins the lines, whether they are kept as most recently used, and for which work of the tile they cost
tokens, if they do: 8 for the word of M (R27, R208, R269). -/
structure FuMode where
  pin   : Bool := false
  front : Bool := true
  pay   : Option Nat := some 8

/-- The fetch unit reads k bytes of one unit of coherence on the matrix path (R208): the unit is filled as its hint says and then pinned; one
that it has read for the same command already is read with it, at no cost (DEDUCED, unsafe: log entry 31). -/
def fuUnit (env : Env) (t : Nat) (w : Who) (m : FuMode) (loc : Loc) (cls : BitVec 4) (k : Nat) (d : Dev) : Res (List Byte) :=
  if m.pin && ((d.tile t).core.fuPins.any fun p => p.1 == loc.base) then .ok (readBytes env d (.tile t 5) loc k) d else
  match (match m.pay with
    | some k => payFrom d t k loc
    | none => some d) with
  | none => .wait Wait.share d
  | some d1 =>
    let (b, d2) := loadHint env d1 (.tile t 5) w.vf cls m.front loc k
    match (if m.pin then fuPin env d2 t cls loc else some d2) with
    | none => .wait Wait.idle d2
    | some d3 => .ok b d3

/-- The fetch unit reads n bytes on the matrix path, a unit of coherence at a time (R208). -/
def fuRead (env : Env) (t : Nat) (w : Who) (m : FuMode) : Nat → Dev → Dword → Nat → Res (List Piece)
  | 0, d, _, _ => .ok [] d
  | f + 1, d, va, n =>
    if n = 0 then .ok [] d else
    (locate env d w {} va).bind fun x d1 =>
      let k := min n (x.1.unit - x.1.inUnit)
      (fuUnit env t w m x.1 x.2 k d1).bind fun b d2 =>
        (fuRead env t w m f d2 (va + dw k) (n - k)).bind fun c d3 =>
          .ok ({ loc := x.1, cls := x.2, front := m.front, bytes := b } :: c) d3

/-- Bytes that the fetch unit reads, with no part in a command that completes later. -/
def fuBytes (env : Env) (t : Nat) (w : Who) (m : FuMode) (d : Dev) (va : Dword) (n : Nat) : Res (List Byte) :=
  (fuRead env t w m (n + 1) d va n).bind fun l d1 => .ok (piecesBytes l) d1

/-- Read n bytes that a word of M needs at its acceptance alone, under the ASID of its word (R163, R208). -/
def mRead (env : Env) (t : Nat) (d : Dev) (va n : Nat) : Res (List Byte) := fuBytes env t (whoM d t) {} d (dw va) n

/-- Read n bytes of an operand of a word of M: its lines stay pinned until the command has consumed them (R208). -/
def mFetch (env : Env) (t : Nat) (r : Row) (d : Dev) (va n : Nat) : Res (List Piece) :=
  fuRead env t (whoM d t) { pin := true, front := tFront r } (n + 1) d (dw va) n

/-- Reads of a word of M: a word that waits for tokens keeps those it was given, and a wait leaves otherwise only its promotions
(R208, R269). -/
def reading {α : Type} (t : Nat) (d : Dev) (r : Res α) : Res α :=
  match r with
  | .wait w d1 => .wait w (waitPaid t 8 w d d1)
  | .ok x d1 => .ok x d1
  | .trap c i0 i1 i2 i3 => .trap c i0 i1 i2 i3
  | .sys c va => .sys c va
  | .roll c => .roll c

/-- Read a list of things one after another. -/
def readAll {α β : Type} (f : α → Dev → Res β) : List α → Dev → Res (List β)
  | [], d => .ok [] d
  | x :: r, d => (f x d).bind fun y d1 => (readAll f r d1).bind fun l d2 => .ok (y :: l) d2

/-- n elements of row y of a tensor from element x of dimension 0 on (R207). -/
def readRow (env : Env) (t : Nat) (r : Row) (x n y : Nat) (d : Dev) : Res (List Piece) :=
  if tFmt r = 8 then mFetch env t r d (tLineAt r y 0 0 + x / 2) (n / 2)
  else mFetch env t r d (tLineAt r y 0 0 + x * fmtBytes (tFmt r)) (n * fmtBytes (tFmt r))

/-- The scale code and the superscale of GQ4 block b (R13). -/
def readScale (env : Env) (t : Nat) (r : Row) (b : Nat) (d : Dev) : Res (List Piece × List Piece) :=
  let nb := tLines r * (tSize r 0 / 64)
  (mFetch env t r d (tScale r + b) 1).bind fun code d1 =>
    (mFetch env t r d1 (tScale r + 256 * ((nb + 255) / 256) + 4 * (b / 256)) 4).bind fun sup d2 => .ok (code, sup) d2

/-- An operand box of n rows from row y on, K elements each from element kb on (R207). (DEDUCED, unsafe: log entry 31) -/
def readBox (env : Env) (t : Nat) (r : Row) (kb k y n : Nat) (d : Dev) : Res OpRead :=
  (readAll (fun i => readRow env t r kb k (y + i)) (List.range n) d).bind fun rows d1 =>
    let blocks (i : Nat) : List Nat :=
      if tFmt r = 8 then (List.range (k / 64)).map fun g => (y + i) * (tSize r 0 / 64) + kb / 64 + g else []
    (readAll (fun i => readAll (readScale env t r) (blocks i)) (List.range n) d1).bind fun sc d2 =>
      .ok { rows := { fmt := BitVec.ofNat 4 (tFmt r), n := k, spans := rows }, codes := sc } d2

/-! ### What a command reads until it completes -/

/-- One thing after another, each with the device that the one before leaves. -/
def mapDev {α β : Type} (f : α → Dev → β × Dev) : List α → Dev → List β × Dev
  | [], d => ([], d)
  | x :: r, d =>
    let (y, d1) := f x d
    let (l, d2) := mapDev f r d1
    (y :: l, d2)

/-- What a command of the array has read, as it has read it or as it is at the command's completion (R310; DESIGN CHOICE, safe: log entry
106). -/
def latePiece (env : Env) (t : Nat) (vf : BitVec 10) (p : Piece) (d : Dev) : Piece × Dev :=
  let (b, d1) := lateRead env d t 5 vf p.cls p.front p.loc p.bytes
  ({ p with bytes := b }, d1)

/-- A box at the completion of its command. -/
def ReadBox.late (env : Env) (t : Nat) (vf : BitVec 10) (b : ReadBox) (d : Dev) : ReadBox × Dev :=
  let (l, d1) := mapDev (mapDev (latePiece env t vf)) b.spans d
  ({ b with spans := l }, d1)

/-- An operand at the completion of its command. -/
def OpRead.late (env : Env) (t : Nat) (vf : BitVec 10) (o : OpRead) (d : Dev) : OpRead × Dev :=
  let (b, d1) := o.rows.late env t vf d
  let pair (x : List Piece × List Piece) (d : Dev) : (List Piece × List Piece) × Dev :=
    let (u, d1) := mapDev (latePiece env t vf) x.1 d
    let (v, d2) := mapDev (latePiece env t vf) x.2 d1
    ((u, v), d2)
  let (c, d2) := mapDev (mapDev pair) o.codes d1
  ({ o with rows := b, codes := c }, d2)

/-! ### Completion -/

/-- A dword of the CSR image of a saved iteration is written anew (R325, R326): nothing to do for one that runs. -/
def imageCsr (env : Env) (t serial i : Nat) (f : TCore → Nat) (d : Dev) : Dev :=
  match (d.tile t).savedOf serial with
  | some c => imageWrite env d t serial (whoSaved d t c) (c.csr.ctxptr + dw (0xEC0 + 8 * i)) (natLe 8 (f c))
  | none => d

/-- A command completes (R204, R210): its status bits become visible, also in the image of an iteration that has been saved meanwhile
(R325), and its lines are released (R208). -/
def cmdDone (env : Env) (m : MCmd) (fl : MFlags) (d : Dev) : Dev :=
  let d1 := onIter (unpin env d m.pins) m.tile m.serial fun c =>
    { c with csr := { c.csr with mstat := c.csr.mstat ||| fl }
             lease := { c.lease with lastW := (m.walk + 1).setWidth 24, lastF := fl } }
  imageCsr env m.tile m.serial 6 (fun c => c.csr.mstat.toNat) (countEv d1 m.tile m.vf 5 1)

/-- A step of a chain completes: CSTEPIDX rises (R36). -/
def stepDone (env : Env) (m : MCmd) (d : Dev) : Dev :=
  imageCsr env m.tile m.serial 12 (fun c => c.csr.cstep.toNat)
    (onIter d m.tile m.serial fun y => { y with csr := { y.csr with cstep := y.csr.cstep + 1 } })

/-- The boundary that a box gives (R223). -/
def Boundary.load (b : Boundary) (vf : BitVec 10) (ext : List Nat) (elems : List Word) : Boundary :=
  { empty := false, bm := #v[ext.getD 0 1, ext.getD 1 1, ext.getD 2 1, ext.getD 3 1, 1], ba := 1, elems := elems
    lost := b.lost.filter (· != vf) }

/-- Elements of a boundary. -/
def Boundary.size (b : Boundary) : Nat := b.ba * b.bm.toList.foldl (· * ·) 1

/-- Its elements in storage order; an empty boundary reads as zero (R31). -/
def Boundary.at (b : Boundary) (i : Nat) : Word := b.elems.getD i 0

/-- Copy the boundary to a slot (R224). -/
def emitTo (s : BitVec 3) (k : Cluster) : Cluster :=
  let x := k.slot s.toNat
  k.setSlot s.toNat { x with elems := (List.range (x.m * x.n)).map k.bnd.at }

/-- The modes of a boundary but j. -/
def otherModes (b : Boundary) (j : Nat) : List Nat := ((List.range 5).filter (· != j)).map fun i => vget b.bm 1 i

/-- The rows of the product of a step (R34): every open mode but j, with K over (i_n, bond), the bond fastest, as BF16. -/
def stepRows (b : Boundary) (j nn : Nat) : List (List (Option Word)) :=
  let low := (b.bm.toList.take j).foldl (· * ·) 1
  let rows := (otherModes b j).foldl (· * ·) 1
  (List.range rows).map fun r => (List.range (b.ba * nn)).map fun k =>
    let i := k % b.ba + b.ba * (r % low + low * (k / b.ba + nn * (r / low)))
    some (BitVec.ofNat 32 (bf16.result (num32 (b.at i))).1)

/-- The product of a step replaces the boundary (R34). -/
def absorb (s : ChainStep) (cols : List (List (Option Word))) (b : Boundary) : Boundary × MFlags :=
  let rows := stepRows b s.mode s.nn
  let n := s.m * s.bond
  let (out, fl) := matMul 1 16 { fmt := 1, elems := rows } { fmt := 1, elems := cols } (List.replicate (rows.length * n) 0)
  let o := otherModes b s.mode
  ({ b with empty := false, bm := #v[s.m, o.getD 0 1, o.getD 1 1, o.getD 2 1, o.getD 3 1], ba := s.bond, elems := out }, fl)

/-- What the command at the head of the array's order does when it completes. -/
def runHead (env : Env) (c : Nat) (m : MCmd) (d : Dev) : Dev :=
  let k := d.cluster c
  match m.kind with
  | .mma s g a b =>
    let x := k.slot s.toNat
    let (a1, d1) := a.late env m.tile m.vf d
    let (b1, d2) := b.late env m.tile m.vf d1
    let (e, fl) := matMul x.acc g a1.opnd b1.opnd x.elems
    cmdDone env m fl (d2.onCluster c fun k => k.setSlot s.toNat { x with elems := e })
  | .step s =>
    let (core, d1) := s.core.late env m.tile m.vf d
    let (b0, d2) := match s.init with
      | some (ext, box) =>
        let (box1, d2) := box.late env m.tile m.vf d1
        (k.bnd.load m.vf ext box1.fp32, d2)
      | none => (k.bnd, d1)
    let (b1, fl) := absorb s (s.cols core) b0
    cmdDone env m fl (stepDone env m (d2.onCluster c fun k =>
      let k1 := { k with bnd := b1 }
      match s.emit with
      | some x => emitTo x k1
      | none => k1))
  | .cinit ext box =>
    let (box1, d1) := box.late env m.tile m.vf d
    cmdDone env m 0 (d1.onCluster c fun k => { k with bnd := k.bnd.load m.vf ext box1.fp32 })
  | .emit s => cmdDone env m 0 (d.setCluster c (emitTo s k))
  | .close _ _ => d
  | .drop _ => d

/-- Whether a command is a step of a chain. -/
def MKind.isStep : MKind → Bool
  | .step _ => true
  | .mma _ _ _ _ => false
  | .cinit _ _ => false
  | .emit _ => false
  | .close _ _ => false
  | .drop _ => false

/-- The command at the head of the array's order completes (R197, R210): closes and drops behind it may take effect, and a turn
past its limit may end. -/
def headDone (steps : Bool) (env : Env) (d : Dev) : Dev :=
  let c := env.unit
  match (d.cluster c).mq with
  | [] => d
  | m :: r =>
    if m.kind.isStep != steps then d
    else expireTurn ((runHead env c m d).onCluster c fun k => settleMq { k with mq := r }) c

/-- MATRIX_COMMAND_COMPLETE (R210). -/
def execMatrixCommandComplete (s : State) : Host.Outcome State Fault Refusal := s.run (headDone false)

/-- CHAIN_RECORD_COMPLETE (R222). -/
def execChainRecordComplete (s : State) : Host.Outcome State Fault Refusal := s.run (headDone true)

/-- The first notify of a tile on the matrix path completes (R113, R219) once the commands before it have completed and the slots
closed before it have been drained; its record carries the timestamps of the matrix path and of the packets that slots sent (R309). -/
def mnotifyDone (env : Env) (d : Dev) : Dev :=
  let t := env.unit
  let c := t / 8
  let k := d.cluster c
  match k.notes.find? fun n => n.tile == t with
  | none => d
  | some n =>
    let before (w : Dword) : Bool := decide (w.toNat < n.walk.toNat)
    if k.mq.any (fun m => m.tile == t && m.serial == n.serial && before m.walk) || !(jobsLeft d t n.serial n.walk).isEmpty then d
    else
      let d1 := d.setCluster c { k with notes := k.notes.erase n }
      match n.tag with
      | some tag => postIter env d1 t n.serial (cmdRecord tag 0 7 31 0) (dmax (getPts d1 (.tile t 5)) (getPts d1 (.tile t 3)))
      | none => d1

/-- MNOTIFY_COMPLETE (R219). -/
def execMnotifyComplete (s : State) : Host.Outcome State Fault Refusal := s.run mnotifyDone

end Sys2Proof.Machine
end

