-- ==== Sys2Proof/Machine/Matrix.lean ====
section
/-! DEFINITION. The M words of coordinates, products and the ring (R205 to R215, R218, R219). -/

namespace Sys2Proof.Machine

/-! ### Coordinates and shape -/

/-- A coordinate register with field f replaced: m0, n0, k0, kext (R205). -/
def coordSet (x : Dword) (f : BitVec 2) (v : Nat) : Dword := dw (putBits x.toNat (16 * f.toNat) 16 v)

/-- MSET (R205). -/
def execMset (c : BitVec 4) (f : BitVec 2) (v : BitVec 16) (s : State) : Host.Outcome State Fault Refusal :=
  mTry (.mset c f v) (fun _ a d => .ok () (d.onCore a.t fun y => y.setC c (coordSet (y.c c) f v.toNat))) s

/-- MADDC: modulo 2^16 within the field (R205). -/
def execMaddc (c : BitVec 4) (f : BitVec 2) (v : BitVec 16) (s : State) : Host.Outcome State Fault Refusal :=
  mTry (.maddc c f v) (fun _ a d =>
    .ok () (d.onCore a.t fun y => y.setC c (coordSet (y.c c) f (bitsN (y.c c) (16 * f.toNat) 16 + v.toNat)))) s

/-- Pop an entry of q.xm, or wait (R70, R205, R219). -/
def popXm (a : At) (d : Dev) (f : Dword → Dev → Res Unit) : Res Unit :=
  match (d.tile a.t).core.q.xm with
  | [] => waitEmpty 6 d
  | x :: r => f x (d.onCore a.t fun c => { c with q := { c.q with xm := r } })

/-- MPOPC (R205). -/
def execMpopc (c : BitVec 4) (s : State) : Host.Outcome State Fault Refusal :=
  mTry (.mpopc c) (fun _ a d => popXm a d fun x d1 => .ok () (d1.onCore a.t fun y => y.setC c x)) s

/-- MPUSH (R205). -/
def execMpush (c : BitVec 4) (s : State) : Host.Outcome State Fault Refusal :=
  mTry (.mpush c) (fun _ a d =>
    if qdepth 7 ≤ (d.tile a.t).core.qlen 7 then waitFull 7 d
    else .ok () (d.onCore a.t fun y => { y with q := { y.q with mx := y.q.mx ++ [y.c c] } })) s

/-- MSHAPE (R206). -/
def execMshape (f : BitVec 2) (v : BitVec 16) (s : State) : Host.Outcome State Fault Refusal :=
  mTry (.mshape f v) (fun _ a d => .ok () (d.onCore a.t fun y => y.onCsr fun x =>
    if f = 0 then { x with shM := v.setWidth 9 } else if f = 1 then { x with shN := v.setWidth 9 }
    else { x with shK := v.setWidth 10 })) s

/-! ### Products -/

/-- What the checks of MMA and MMAS settle (R209). -/
structure MmaPlan where
  a     : Row
  b     : Row
  md    : Option Row
  group : Nat
  acc   : BitVec 2
  /-- K origin, row origins of A and B -/
  kb    : Nat
  m0    : Nat
  n0    : Nat
  m     : Nat
  n     : Nat
  k     : Nat

/-- The tensors of a product (R209 step 2): A, B, and the metadata of MMAS. -/
def mmaTids (tids : Vector (Option Row) 256) (x y : BitVec 8) (sparse : Bool) (f : Row → Row → Option Row → Res Unit) : Res Unit :=
  match tidOf tids x.toNat with
  | none => mTensor 12 x.toNat
  | some a =>
    match tidOf tids y.toNat with
    | none => mTensor 12 y.toNat
    | some b =>
      if !sparse then f a b none else
      match (if x = 255 then none else tidOf tids (x.toNat + 1)) with
      | none => mTensor 12 (x.toNat + 1)
      | some md => f a b (some md)

/-- Why a shape or a box is refused, 0 for none (R209 step 4, R226). -/
def mmaShapeBad (p : MmaPlan) : Nat :=
  let ka := if p.md.isSome then (p.kb + p.k + 1) / 2 else p.kb + p.k
  if p.m = 0 || p.n = 0 || p.k = 0 then 1
  else if tSize p.a 0 < ka || tSize p.a 1 < p.m0 + p.m then 2
  else if (match p.md with | some r => decide (tSize r 0 < (p.kb + p.k + 31) / 32) || decide (tSize r 1 < p.m0 + p.m) | none => false) then 2
  else if tSize p.b 0 < p.kb + p.k || tSize p.b 1 < p.n0 + p.n then 3
  else if tFmt p.b = 8 && (p.kb % 64 != 0 || p.k % 64 != 0) then 4
  else if p.md.isSome && (p.kb % 32 != 0 || p.k % 32 != 0) then 5
  else 0

/-- Why the head is refused, 0 for none (R226). -/
def mmaHeadBad (head : Option RingSlot) (fresh : Bool) (m n : Nat) : Nat :=
  match head with
  | some h => if fresh then 6 else if h.m != m || h.n != n then 8 else 0
  | none => if fresh then 0 else 7

/-- The metadata words of a row (R207). -/
def readMeta (env : Env) (t : Nat) (r : Row) (p : MmaPlan) (d : Dev) : Res (List (List (Option Word))) :=
  (readAll (fun i => readRow env t r (p.kb / 32) (p.k / 32) (p.m0 + i)) (List.range p.m) d).bind fun l d1 =>
    .ok ({ fmt := BitVec.ofNat 4 (tFmt r), n := p.k / 32, spans := l } : ReadBox).elems d1

/-- The first illegal nibble, rows before groups (R212). -/
def badNibble (mt : List (List (Option Word))) (k : Nat) : Option (Nat × Nat) :=
  ((List.range mt.length).flatMap fun i => (List.range (k / 4)).map fun g => (i, g)).find? fun p =>
    !nibbleOk (nibbleAt (mt.getD p.1 []) p.2)

/-- The operands of a product, read at its acceptance (R207, R208, R211, R212). -/
def mmaOperands (env : Env) (a : At) (p : MmaPlan) (d : Dev) : Res (OpRead × OpRead) :=
  match p.md with
  | none =>
    (readBox env a.t p.a p.kb p.k p.m0 p.m d).bind fun x d1 =>
      (readBox env a.t p.b p.kb p.k p.n0 p.n d1).bind fun y d2 => .ok (x, y) d2
  | some md =>
    (readBox env a.t p.a (p.kb / 2) (p.k / 2) p.m0 p.m d).bind fun x d1 =>
      (readMeta env a.t md p d1).bind fun mt d2 =>
        (readBox env a.t p.b p.kb p.k p.n0 p.n d2).bind fun y d3 =>
          match badNibble mt p.k with
          | some (i, g) =>
            let row := mt.getD i []
            .trap 0x04 (dw i) (dw g) (zx ((row.getD (g / 8) none).getD 0)) (dw (nibbleAt row g))
          | none => .ok ({ x with meta_ := some mt }, y) d3

/-- The head slot of a tile. (DEDUCED, unsafe: log entry 35) -/
def headSlot (d : Dev) (t : Nat) : Option RingSlot :=
  (d.tile t).core.head.map fun s => (d.cluster (t / 8)).slot s.toNat

/-- Open the next free slot as the head of a tile (R209, R214). -/
def openHead (d : Dev) (t s : Nat) (acc : BitVec 2) (m n : Nat) : Dev :=
  (d.onCluster (t / 8) fun k => k.openSlot s t (d.tile t).core.csr.vfid acc m n (List.replicate (m * n) 0)).onCore t
    fun c => { c with head := some (BitVec.ofNat 3 s) }

/-- Acceptance of a product (R209): the slot a fresh one opens, the operands, the charge, the place in the array's order. -/
def mmaAccept (env : Env) (a : At) (p : MmaPlan) (fresh : Bool) (d : Dev) : Res Unit :=
  let go (s : Nat) (d1 : Dev) : Res Unit :=
    (reading a.t d1 (mmaOperands env a p d1)).bind fun o d2 =>
      let d3 := if fresh then openHead d2 a.t s p.acc p.m p.n else d2
      .ok () (pushMq (charge d3 a.t) a.t (.mma (BitVec.ofNat 3 s) p.group o.1 o.2))
  if fresh then
    match (d.cluster (a.t / 8)).nextFree with
    | none => .wait Wait.idle d
    | some s => go s d
  else go (((d.tile a.t).core.head.getD 0).toNat) d

/-- MMA and MMAS once M has its turn (R209). -/
def mmaWord (i : Instr) (sparse : Bool) (x y : BitVec 8) (cr : BitVec 4) (md : BitVec 2) (env : Env) (a : At) (d : Dev) : Res Unit :=
  leasedWord i true a d fun d1 =>
    let c := (d1.tile a.t).core
    let fresh := !md.getLsbD 0
    if !fresh && c.headLost then .roll .lostState else
    mmaTids c.tids x y sparse fun ta tb tm =>
      match pairRule (tFmt ta) (tFmt tb) (md.getLsbD 1) sparse with
      | none => mUnsupported
      | some (g, acc) =>
        let head := headSlot d1 a.t
        let other := match head with | some h => !fresh && h.acc != acc | none => false
        if other || (match tm with | some r => tFmt r != 9 | none => false) then mUnsupported else
        let q := c.c cr
        let p : MmaPlan :=
          { a := ta, b := tb, md := tm, group := g, acc := acc, kb := bitsN q 32 32, m0 := bitsN q 0 16, n0 := bitsN q 16 16
            m := c.csr.shM.toNat, n := c.csr.shN.toNat, k := c.csr.shK.toNat }
        if mmaShapeBad p != 0 then mShape d1 a i (mmaShapeBad p)
        else if mmaHeadBad head fresh p.m p.n != 0 then mShape d1 a i (mmaHeadBad head fresh p.m p.n)
        else mmaAccept env a p fresh d1

/-- MMA (R209). -/
def execMma (x y : BitVec 8) (c : BitVec 4) (m : BitVec 2) (s : State) : Host.Outcome State Fault Refusal :=
  mFenced (.mma x y c m) (mmaWord (.mma x y c m) false x y c m) s
/-- MMAS (R209, R211). -/
def execMmas (x y : BitVec 8) (c : BitVec 4) (m : BitVec 2) (s : State) : Host.Outcome State Fault Refusal :=
  mFenced (.mmas x y c m) (mmaWord (.mmas x y c m) true x y c m) s

/-! ### The ring -/

/-- A field of a rake descriptor (R215). -/
def rdField (r : Row) (lo w : Nat) : Nat := bitsN r lo w
/-- DTID (R215). -/
def rdDtid (r : Row) : Nat := bitsN r 8 8
/-- SBTID (R215). -/
def rdSbtid (r : Row) : Nat := bitsN r 0 8
/-- ACT (R215). -/
def rdAct (r : Row) : Nat := bitsN r 17 2
/-- OFMT (R215). -/
def rdOfmt (r : Row) : Nat := bitsN r 22 4
/-- SBORG (R215). -/
def rdSborg (r : Row) : Nat := bitsN r 32 32
/-- DORGd (R215). -/
def rdDorg (r : Row) (d : Nat) : Nat := bitsN r (128 + 32 * d) 32
/-- KEY (R215). -/
def rdKey (r : Row) : Nat := bitsN r 256 24
/-- NRECV (R215). -/
def rdNrecv (r : Row) : Nat := bitsN r 288 7
/-- RLIST (R215). -/
def rdRlist (r : Row) : Nat := bitsN r 320 55
/-- DONE (R215). -/
def rdDone (r : Row) : Nat := bitsN r 384 55

/-- A descriptor whose fields are wrong in themselves (R215): TENSOR_ENTRY 13. -/
def rdBad (r : Row) : Bool :=
  bitsN r 26 6 != 0 || bitsN r 280 8 != 0 || bitsN r 295 25 != 0 || bitsN r 375 9 != 0 || bitsN r 439 9 != 0 || bitsN r 448 64 != 0 ||
    8 ≤ rdOfmt r || rdAct r == 3 || rdDone r % 16 != 0 || rdRlist r % 8 != 0 ||
    (if r.getLsbD 16 then rdDtid r != 0 || rdKey r == 0 || rdNrecv r == 0 || decide (64 < rdNrecv r)
     else rdRlist r != 0 || rdNrecv r != 0 || rdKey r != 0)

/-- The destination box lies within its tensor (R215). -/
def rdBoxOk (r t : Row) (m n : Nat) : Bool :=
  decide (rdDorg r 0 + n ≤ tSize t 0) && decide (rdDorg r 1 + m ≤ tSize t 1) && decide (rdDorg r 2 < tSize t 2) &&
    decide (rdDorg r 3 < tSize t 3)

/-- The tensors of a rake descriptor (R215). -/
def rakeTensors (i : Instr) (tids : Vector (Option Row) 256) (r : Row) (m n : Nat) (a : At) (d : Dev)
    (f : Option Row → Option Row → Res Unit) : Res Unit :=
  let scale (dt : Option Row) : Res Unit :=
    if rdSbtid r = 0 then f none dt else
    match tidOf tids (rdSbtid r) with
    | none => mTensor 15 0
    | some t =>
      if tFmt t != 0 || tRank t < 2 || tSize t 1 < 2 then mTensor 15 0
      else if tSize t 0 < rdSborg r + n then mShape d a i 14
      else f (some t) dt
  if r.getLsbD 16 then scale none else
  match tidOf tids (rdDtid r) with
  | none => mTensor 14 0
  | some t =>
    if !tWritable t || tFmt t != rdOfmt r then mTensor 14 0
    else if !rdBoxOk r t m n then mShape d a i 14
    else scale (some t)

/-- RCLOSE once M has its turn (R215). -/
def rcloseWord (cr : BitVec 4) (env : Env) (a : At) (d : Dev) : Res Unit :=
  leasedWord (.rclose cr) false a d fun d1 =>
    let c := (d1.tile a.t).core
    let va := bitsN (c.c cr) 0 55
    if va % 64 != 0 then misaligned (dw va) 64
    else if c.headLost && c.head.isNone then .roll .lostState
    else match c.head with
      | none => mShape d1 a (.rclose cr) 7
      | some h =>
        (reading a.t d1 (mRead env a.t d1 va 64)).bind fun b d2 =>
          let r := rowOf b
          let x := (d2.cluster (a.t / 8)).slot h.toNat
          if rdBad r then mTensor 13 0 else
          rakeTensors (.rclose cr) c.tids r x.m x.n a d2 fun sb dt =>
            let w := whoM d2 a.t
            let job : RakeJob :=
              { desc := r, sb := sb, dt := dt, tile := a.t, asid := w.asid, vf := w.vf, priv := w.priv, serial := c.iter.serial
                node := c.iter.node, faultq := c.iter.faultq, walk := (c.engine .m).walk, fence := c.xfence }
            .ok () (pushMq (d2.onCore a.t fun y => { y with head := none, closed := true }) a.t (.close h job))

/-- RCLOSE (R215). -/
def execRclose (c : BitVec 4) (s : State) : Host.Outcome State Fault Refusal := mFenced (.rclose c) (rcloseWord c) s

/-- RDROP (R218). -/
def execRdrop (s : State) : Host.Outcome State Fault Refusal :=
  mTry .rdrop (fun _ a d => leasedWord .rdrop false a d fun d1 =>
    match (d1.tile a.t).core.head with
    | none => .ok () d1
    | some h => .ok () (pushMq (d1.onCore a.t fun y => { y with head := none }) a.t (.drop h))) s

/-- RWAIT free (R218). -/
def execRwaitFree (s : State) : Host.Outcome State Fault Refusal :=
  mTry .rwaitFree (fun _ a d => leasedWord .rwaitFree false a d fun d1 =>
    if (d1.cluster (a.t / 8)).nextFree.isSome then .ok () d1 else .wait Wait.idle d1) s

/-- RWAIT slot (R218). -/
def execRwaitSlot (n : BitVec 3) (s : State) : Host.Outcome State Fault Refusal :=
  mTry (.rwaitSlot n) (fun _ a d => leasedWord (.rwaitSlot n) false a d fun d1 =>
    let x := (d1.cluster (a.t / 8)).slot n.toNat
    if x.st == .closed || x.st == .draining then .wait Wait.idle d1 else .ok () d1) s

/-- MNOTIFY (R219). -/
def execMnotify (s : State) : Host.Outcome State Fault Refusal :=
  mTry .mnotify (fun _ a d => popXm a d fun x d1 =>
    let c := (d1.tile a.t).core
    .ok () (d1.onCluster (a.t / 8) fun k => { k with notes := k.notes ++ [⟨a.t, c.iter.serial, (c.engine .m).walk, some x⟩] })) s

end Sys2Proof.Machine
end

