-- ==== Sys2Proof/Machine/Chain.lean ====
section
/-! DEFINITION. The chain words of M (R30 to R37, R220 to R224, R355). -/

namespace Sys2Proof.Machine

/-- A chain word once M has its turn: it waits for the command on the boundary that is under way (R355). -/
def chainWord {α : Type} (i : Instr) (charged : Bool) (a : At) (d : Dev) (f : Dev → Res α) : Res α :=
  leasedWord i charged a d fun d1 => if chainBusy d1 (a.t / 8) then .wait Wait.idle d1 else f d1

/-- The boundary is lost for the VF of a tile (R203). -/
def bndLost (d : Dev) (t : Nat) : Bool := (d.cluster (t / 8)).bnd.lost.contains (d.tile t).core.csr.vfid

/-- BCAP of a tile lowered to what a reservation holds (R32). -/
def lowerCap (cap t : Nat) (d : Dev) : Dev :=
  if cap < (d.tile t).core.csr.bcap.toNat then d.onCore t fun c => c.onCsr fun x => { x with bcap := BitVec.ofNat 13 cap } else d

/-- The slots with a new reservation (R220). -/
def reserve (r : Nat) (k : Cluster) : Cluster :=
  let set (k : Cluster) (s : Nat) : Cluster :=
    if 8 - r ≤ s then k.setSlot s { st := .reserved }
    else if (k.slot s).st == .reserved then k.setSlot s {} else k
  { (List.range 8).foldl set k with resv := r }

/-- CBOUND once M has its turn (R220). -/
def cboundWord (n : BitVec 18) (a : At) (d : Dev) : Res Unit :=
  chainWord (.cbound n) false a d fun d1 =>
    let r := n.toNat
    let c := a.t / 8
    let k := d1.cluster c
    let took := (k.slots.toList.drop (8 - r)).map (·.st)
    let size := if k.bnd.empty then 0 else k.bnd.size * 4
    if took.any (fun x => x == .open_ || x == .parked) || r * 262144 < size then mShape d1 a (.cbound n) 12
    else if took.any (fun x => x == .closed || x == .draining) then .wait Wait.idle d1
    else
      let d2 := (List.range 8).foldl (fun d i => lowerCap (r * 1024) (8 * c + i) d) (d1.onCluster c (reserve r))
      .ok () (d2.onCore a.t fun y => y.onCsr fun x => { x with bcap := BitVec.ofNat 13 (r * 1024) })

/-- CBOUND (R220). -/
def execCbound (n : BitVec 18) (s : State) : Host.Outcome State Fault Refusal := mTry (.cbound n) (fun _ => cboundWord n) s

/-- CORD (R221). -/
def execCord (c : BitVec 4) (s : State) : Host.Outcome State Fault Refusal :=
  mTry (.cord c) (fun _ a d => chainWord (.cord c) false a d fun d1 =>
    .ok () (d1.onCore a.t fun y => y.onCsr fun x => { x with cord := (y.c c).setWidth 55, cstep := 0 })) s

/-- BDSET (R221). -/
def execBdset (k : BitVec 4) (v : BitVec 16) (s : State) : Host.Outcome State Fault Refusal :=
  mTry (.bdset k v) (fun _ a d => leasedWord (.bdset k v) false a d fun d1 =>
    if v = 0 then mShape d1 a (.bdset k v) 13
    else .ok () (d1.onCore a.t fun y => y.onCsr fun x => { x with bd := vset x.bd k.toNat v })) s

/-! ### CINIT and CEMIT -/

/-- The four fields of a coordinate register. -/
def fields4 (x : Dword) : List Nat := (List.range 4).map fun i => bitsN x (16 * i) 16

/-- BOUNDARY_OVERFLOW (R35). -/
def bndOverflow {α : Type} (idx : Dword) (need cap : Nat) (info : Dword) : Res α := .trap 0x05 idx (dw need) (dw cap) info

/-- A box that breaks the extent rules of R37 or leaves its tensor. -/
def initBad (t : Row) (org ext : List Nat) : Bool :=
  (List.range 4).any fun i =>
    let e := ext.getD i 0
    (if i < tRank t then e == 0 else e != 1) || decide (tSize t i < org.getD i 0 + e)

/-- CINIT's checks (R223): `idx` is what an overflow reports. -/
def initCheck {α : Type} (i : Instr) (idx : Dword) (t : Row) (org ext : List Nat) (a : At) (d : Dev) (f : Res α) : Res α :=
  let cap := (d.tile a.t).core.csr.bcap.toNat * 256
  let need := ext.foldl (· * ·) 1 * 4
  if initBad t org ext then mShape d a i 10
  else if 7 ≤ tFmt t then mUnsupported
  else if cap < need then bndOverflow idx need cap 0
  else f

/-- The box of a CINIT in the order of the boundary (R223). -/
def readInit (env : Env) (a : At) (t : Row) (org ext : List Nat) (d : Dev) : Res ReadBox :=
  let e (i : Nat) : Nat := ext.getD i 0
  let o (i : Nat) : Nat := org.getD i 0
  let row (l : Nat) (d : Dev) : Res (List Piece) :=
    mFetch env a.t t d (tLineAt t (o 1 + l % e 1) (o 2 + l / e 1 % e 2) (o 3 + l / e 1 / e 2) + o 0 * fmtBytes (tFmt t))
      (e 0 * fmtBytes (tFmt t))
  (readAll row (List.range (e 1 * e 2 * e 3)) d).bind fun l d1 =>
    .ok { fmt := BitVec.ofNat 4 (tFmt t), n := e 0, spans := l } d1

/-- CINIT once M has its turn (R223). -/
def cinitWord (x : BitVec 8) (cr : BitVec 4) (env : Env) (a : At) (d : Dev) : Res Unit :=
  chainWord (.cinit x cr) true a d fun d1 =>
    let c := (d1.tile a.t).core
    match tidOf c.tids x.toNat with
    | none => mTensor 12 x.toNat
    | some t =>
      let org := fields4 (c.c cr)
      let ext := fields4 (c.c (cr + 1))
      initCheck (.cinit x cr) (BitVec.allOnes 64) t org ext a d1
        ((reading a.t d1 (readInit env a t org ext d1)).bind fun e d2 => .ok () (pushMq (charge d2 a.t) a.t (.cinit ext e)))

/-- CINIT (R223). -/
def execCinit (x : BitVec 8) (c : BitVec 4) (s : State) : Host.Outcome State Fault Refusal :=
  mFenced (.cinit x c) (cinitWord x c) s

/-- Rows and columns of the boundary as CEMIT lays it out (R224): from BA and BM0 to BM4. -/
def emitShape (ba : Nat) (bm : List Nat) : Nat × Nat := ((bm.drop 1).foldl (· * ·) 1, ba * bm.getD 0 1)

/-- CEMIT's checks (R224): the slot it opens. -/
def emitCheck {α : Type} (i : Instr) (mn : Nat × Nat) (a : At) (d : Dev) (f : Nat → Res α) : Res α :=
  if 256 < mn.1 || 256 < mn.2 then mShape d a i 11
  else if (d.tile a.t).core.head.isSome then mShape d a i 6
  else match (d.cluster (a.t / 8)).nextFree with
    | none => .wait Wait.idle d
    | some s => f s

/-- CEMIT once M has its turn (R224). -/
def cemitWord (a : At) (d : Dev) : Res Unit :=
  chainWord .cemit true a d fun d1 =>
    if bndLost d1 a.t then .roll .lostState else
    let b := (d1.cluster (a.t / 8)).bnd
    let mn := emitShape b.ba b.bm.toList
    emitCheck .cemit mn a d1 fun s => .ok () (pushMq (charge (openHead d1 a.t s 1 mn.1 mn.2) a.t) a.t (.emit (BitVec.ofNat 3 s)))

/-- CEMIT (R224). -/
def execCemit (s : State) : Host.Outcome State Fault Refusal := mFenced .cemit (fun _ => cemitWord) s

/-! ### Steps -/

/-- A step record that breaks R37. -/
def stepBad (r : Nat) : Bool :=
  let f (lo w : Nat) : Nat := r / 2 ^ lo % 2 ^ w
  f 11 1 != 0 || f 15 1 != 0 || f 18 14 != 0 || f 44 20 != 0 || 5 ≤ f 8 3 || f 0 8 == 0 || (f 16 1 == 0 && (f 32 12 != 0 || f 64 64 != 0))

/-- The first BA left-bond slices of a core for the physical indices and right bonds of a step, column by column (R34). -/
def readCore (env : Env) (a : At) (t : Row) (ba nn m bond : Nat) (d : Dev) : Res ReadBox :=
  let span (q : Nat) (d : Dev) : Res (List Piece) :=
    mFetch env a.t t d (tLineAt t (q % nn + nn * (q / nn / bond)) (q / nn % bond) 0) (2 * ba)
  (readAll span (List.range (m * bond * nn)) d).bind fun l d1 => .ok { fmt := 1, n := ba, spans := l } d1

/-- A step's own checks against the boundary it would find (R34, R35, R222 checks 4 to 6, and CEMIT's). -/
def stepCheck {α : Type} (i : Instr) (r : Nat) (core : Row) (ba : Nat) (bm : List Nat) (a : At) (d : Dev)
    (f : Nat → Nat → Nat → Option Nat → Res α) : Res α :=
  let c := (d.tile a.t).core
  let j := r / 2 ^ 8 % 8
  let k := r / 2 ^ 12 % 8
  let m := tCm core
  let nn := tSize core 1 / m
  let bond := min (tSize core 2) (vget c.csr.bd 0 k).toNat
  let rest := (List.range 5).filter (· != j) |>.map fun x => bm.getD x 1
  let need := rest.foldl (· * ·) 1 * m * bond * 4
  let cap := c.csr.bcap.toNat * 256
  if tFmt core != 1 then mUnsupported
  else if bm.getD j 1 != nn || tSize core 0 < ba then mShape d a i 9
  else if cap < need then bndOverflow (zx c.csr.cstep) need cap (dw (bond * 65536 + k))
  else if r / 2 ^ 17 % 2 = 1 then emitCheck i (emitShape bond (m :: rest)) a d fun s => f nn m bond (some s)
  else f nn m bond none

/-- The box a first step loads (R37): its tensor, origin and extents. -/
def stepBox (c : TCore) (r : Nat) (t : Row) : Row × List Nat × List Nat :=
  (t, fields4 (c.c (BitVec.ofNat 4 (r / 2 ^ 40))), fields4 (dw (r / 2 ^ 64)))

/-- A record starts (R222, R355): its checks, its operands, its charge. -/
def stepStart (i : Instr) (r : Nat) (env : Env) (a : At) (d : Dev) : Res Unit :=
  let c := (d.tile a.t).core
  let idx := zx c.csr.cstep
  let first := r / 2 ^ 16 % 2 = 1
  let b := (d.cluster (a.t / 8)).bnd
  let go (core : Row) (box : Option (Row × List Nat × List Nat)) : Res Unit :=
    let (ba, bm) := match box with
      | some (_, _, ext) => (1, ext ++ [1])
      | none => (b.ba, b.bm.toList)
    stepCheck i r core ba bm a d fun nn m bond slot =>
      let reads : Res (Option (List Nat × ReadBox) × ReadBox) :=
        (match box with
          | some (t, org, ext) => (readInit env a t org ext d).bind fun e d1 => .ok (some (ext, e)) d1
          | none => .ok none d).bind fun init d1 =>
        (readCore env a core ba nn m bond d1).bind fun l d2 => .ok (init, l) d2
      (reading a.t d reads).bind fun x d1 =>
        let st : ChainStep :=
          { init := x.1, mode := r / 2 ^ 8 % 8, nn := nn, m := m, bond := bond, core := x.2, emit := slot.map (BitVec.ofNat 3) }
        let d2 := match slot with
          | some s =>
            let mn := emitShape bond (m :: ((List.range 5).filter (· != r / 2 ^ 8 % 8)).map fun y => bm.getD y 1)
            openHead d1 a.t s 1 mn.1 mn.2
          | none => d1
        .ok () (pushMq (charge d2 a.t) a.t (.step st))
  match tidOf c.tids (r % 256) with
  | none => mTensor 12 (r % 256)
  | some core =>
    if tCm core = 0 then mTensor 12 (r % 256)
    else if first then
      match tidOf c.tids (r / 2 ^ 32 % 256) with
      | none => mTensor 12 (r / 2 ^ 32 % 256)
      | some t =>
        let box := stepBox c r t
        initCheck i idx t box.2.1 box.2.2 a d (go core (some box))
    else go core none

/-- The record at CSTEPIDX runs (R36, R37, R203, R222). -/
def stepWord (i : Instr) (env : Env) (a : At) (d : Dev) : Res Unit :=
  let c := (d.tile a.t).core
  let cord := c.csr.cord.toNat
  if cord % 16 != 0 then misaligned (dw cord) 16 else
  (reading a.t d (mRead env a.t d (cord + 16 * c.csr.cstep.toNat) 16)).bind fun b d1 =>
    let r := leNat b
    if stepBad r then mTensor 11 c.csr.cstep.toNat
    else if r / 2 ^ 16 % 2 = 0 && bndLost d1 a.t then .roll .lostState
    else stepStart i r env a d1

/-- CSTEP (R222). -/
def execCstep (s : State) : Host.Outcome State Fault Refusal :=
  mFenced .cstep (fun env a d => chainWord .cstep true a d fun d1 => stepWord .cstep env a d1) s

/-- The CHAIN word of M notes that it has made the check of its budget (R355). -/
def chainSeen (t : Nat) (e : Option Dword) (d : Dev) : Dev :=
  d.onCore t fun y => { y.onCsr fun x => { x with chainE := e } with chainOk := e.isSome }

/-- The records that a CHAIN word has still to start (R222): none for a word that has not begun. -/
def chainLeft (c : TCore) : Option Nat := c.csr.chainE.map fun e => e.toNat - c.csr.cstep.toNat

/-- CHAIN (R222, R355): the end index is kept when the word first has its turn; every record starts once the one before has
completed, and M walks on when the last has started. The budget is checked when the word is walked, first or again, not for each record.
(DEDUCED, unsafe: log entry 34) -/
def runChain (n : BitVec 18) (env : Env) (a : At) (d : Dev) : Res Unit :=
  let c := (d.tile a.t).core
  let again := !c.chainOk && (match chainLeft c with | some k => decide (c.lease.left < k) | none => false)
  if c.lease.isOpen && again then leaseTrap d a (.chain n) 3 else
  chainWord (.chain n) false a (if c.csr.chainE.isSome then chainSeen a.t c.csr.chainE d else d) fun d1 =>
    let c := (d1.tile a.t).core
    let idx := c.csr.cstep.toNat
    match c.csr.chainE with
    | none =>
      if c.lease.left < n.toNat then leaseTrap d1 a (.chain n) 3
      else .wait Wait.idle (chainSeen a.t (some (dw (idx + n.toNat))) d1)
    | some e =>
      if e.toNat ≤ idx then .ok () (chainSeen a.t none d1)
      else (stepWord (.chain n) env a d1).bind fun _ d2 =>
        if e.toNat ≤ idx + 1 then .ok () (chainSeen a.t none d2) else .wait Wait.idle d2

/-- CHAIN (R222). (DEDUCED, unsafe: log entry 34) -/
def execChain (n : BitVec 18) (s : State) : Host.Outcome State Fault Refusal := mFenced (.chain n) (runChain n) s

end Sys2Proof.Machine
end

