-- ==== Sys2Proof/Machine/Frames.lean ====
section
/-! DEFINITION. Registers of the memory side: frames and their scrubbing (R242), staging ways (R239, R259), share controllers (R270),
the ageing of timestamps (R300), LCAP (R199). -/

namespace Sys2Proof.Machine

/-! ### Frames (R242) -/

/-- The device with a frame replaced. -/
def Dev.setFrame (d : Dev) (f : Nat) (x : Frame) : Dev := { d with frames := d.frames.set f x }

/-- FRAMEASSIGN: an unowned frame takes the tag; a frame that is scrubbed takes it when it is unowned; one that is owned is
refused, which is recorded to the resident kernel. (DEDUCED, unsafe: log entry 57) -/
def frameAssign (f : Nat) (vf : BitVec 10) (d : Dev) : Dev :=
  let x := d.frame f
  if x.scrub then d.setFrame f { x with next := some vf }
  else if x.owned then { d with kernel := d.kernel ++ [.frame f vf] }
  else d.setFrame f { vf := vf, owned := true, scrub := false }

/-- FRAMEASSIGN (R242). -/
def execFrameassign (vf : BitVec 10) (s : State) : Host.Outcome State Fault Refusal := s.run fun env d => frameAssign env.unit vf d

/-- FRAMERELEASE: an owned frame is scrubbed; any other is left. What has been sent is performed before. -/
def frameRelease (env : Env) (f : Nat) (d : Dev) : Dev :=
  let x := d.frame f
  if x.owned && !x.scrub then (drainSent env d).setFrame f { x with scrub := true } else d

/-- FRAMERELEASE (R242). -/
def execFramerelease (s : State) : Host.Outcome State Fault Refusal := s.run fun env d => frameRelease env env.unit d

/-- The lines of a slice that a test selects are gone; MTS keeps their rts, so that no lease ends early (R243, R245). -/
def Slice.evict (y : Slice) (p : L2Line → Bool) : Slice :=
  let gone := (y.sets.entries.flatMap (·.2)).filter p
  { y with
    sets := ⟨y.sets.entries.map fun e => (e.1, e.2.filter fun l => !p l)⟩
    mts := gone.foldl (fun a l => dmax a l.rts) y.mts }

/-- Every cached copy of the lines that a test on their addresses selects is gone, from every L1, every instruction cache and every L2. -/
def dropLines (p : Nat → Bool) (d : Dev) : Dev :=
  { d with
    tiles := ⟨d.tiles.entries.map fun e => (e.1, { e.2 with
      l1 := e.2.l1.filter fun c => !p c.line, icache := e.2.icache.filter fun c => !p c.line })⟩
    slices := ⟨d.slices.entries.map fun e => (e.1, e.2.evict fun l => p l.line)⟩ }

/-- Whether a line lies in a frame. -/
def lineIn (f : Nat) (line : Nat) : Bool := line / 512 == f

/-- Scrubbing ends: cached copies are gone, the frame is zero with good ECC, and unowned, or owned by the VF that waits for it. -/
def scrubComplete (f : Nat) (d : Dev) : Dev :=
  let x := d.frame f
  if !x.scrub then d else
  let d1 := clearBad (forgetPast (dropLines (lineIn f) d) (f * 65536) 65536) (f * 65536) 65536
  let d2 := dropResv { d1 with mem := Memory.zero (f * 65536) 65536 d1.mem, poison := d1.poison.filter fun l => !lineIn f l } (f * 65536) 65536
  d2.setFrame f (match x.next with
    | some v => { vf := v, owned := true, scrub := false }
    | none => { vf := x.vf, owned := false, scrub := false })

/-- SCRUB_COMPLETE (R242). -/
def execScrubComplete (s : State) : Host.Outcome State Fault Refusal := s.run fun env d => scrubComplete env.unit d

/-! ### Staging ways (R239) -/

/-- The way its bytes reach in dimension i: from LO to HI by the stride (R250). -/
def MapGen.reach (g : MapGen) (i : Nat) : Int :=
  (((g.hi.getD i 0).toNat : Int) - (g.lo.getD i 0).toNat) * (g.stride.getD i 0).toInt

/-- The ways of its slice in which the bytes of a generation land (R251). -/
def genWays (g : MapGen) : List Nat :=
  let sum (f : Int → Int) : Int := (List.range g.rank).foldl (fun a i => a + f (g.reach i)) (g.dbase.toNat : Int)
  let low := sum fun x => min 0 x
  let high := sum (fun x => max 0 x) + fmtBytes g.fmt.toNat - 1
  (List.range 16).filter fun w => decide (low / 0x40000 ≤ w) && decide ((w : Int) ≤ high / 0x40000)

/-- Retire the generations of a slice that land in a way, with no record (R259). -/
def Slice.retireIn (y : Slice) (w : Nat) : Slice :=
  let keep (g : Option MapGen) : Option MapGen := g.filter fun x => !(genWays x).contains w
  { y with slots := ⟨y.slots.entries.map fun e => (e.1, { act := keep e.2.act, drain := keep e.2.drain })⟩ }

/-- A write of SWAYw (R239, R259): GRANT and VF at once; a change of STAGE begins. Clearing STAGE or GRANT retires the generations
that land in the way. -/
def swayWrite (w : Nat) (v : Dword) (y : Slice) : Slice :=
  let old := vget y.sway {} w
  let stage := v.getLsbD 11
  let grant := v.getLsbD 10
  let y1 := if (old.stage && !stage) || (old.grant && !grant) then y.retireIn w else y
  { y1 with sway := vset y1.sway w { old with
      grant := grant, vf := v.setWidth 10
      change := if stage != old.stage then some stage else none } }

/-- A STAGE change of a way ends: the lines of a cache way have been written back and are gone; the way is zeroed (R239). It waits for
lines of the way that are pinned. -/
def stageDone (s w : Nat) (d : Dev) : Dev :=
  let y := d.slice s
  let old := vget y.sway {} w
  match old.change with
  | none => d
  | some st =>
    if (y.sets.entries.flatMap (·.2)).any fun l => l.way == w && !l.pins.isEmpty then d else
    let y1 := y.evict fun l => l.way == w
    let d1 := d.setSlice s { y1 with sway := vset y1.sway w { old with stage := st, change := none } }
    let k := stageKey s (w * 0x40000)
    dropResv (clearBad (forgetPast { d1 with mem := Memory.zero k 0x40000 d1.mem } k 0x40000) k 0x40000) k 0x40000

/-- A write of SWAYw of slice s; what has been sent to the slice is performed before. -/
def swayStore (env : Env) (s w : Nat) (v : Dword) (d : Dev) : Dev :=
  let d1 := drainSent env d
  d1.setSlice s (swayWrite w v (d1.slice s))

/-- SWAY_STAGE_SET (R239): a write of SWAYw with STAGE = 1. -/
def execSwayStageSet (w : Nat) (v : Dword) (s : State) : Host.Outcome State Fault Refusal :=
  s.run fun env d => if v.getLsbD 11 then swayStore env env.unit w v d else d

/-- SWAY_STAGE_CLEAR (R239): a write of SWAYw with STAGE = 0. -/
def execSwayStageClear (w : Nat) (v : Dword) (s : State) : Host.Outcome State Fault Refusal :=
  s.run fun env d => if v.getLsbD 11 then d else swayStore env env.unit w v d

/-- STAGE_CHANGE_COMPLETE (R239). -/
def execStageChangeComplete (w : Nat) (s : State) : Host.Outcome State Fault Refusal := s.run fun env d => stageDone env.unit w d

/-! ### Shares (R270) -/

/-- The enabled tiles of a die. -/
def dieTiles (env : Env) (die : Nat) : List Nat := (List.range 640).filter fun t => env.caps.tileOn t && dieOfTile t == die

/-- What a tile of VF v is given (R270): `n` active tiles of the VF, `sum` of every share, `act` of those of the active VFs. -/
def shareTokens (w pool sum act sh n : Nat) : Nat :=
  let f (x : Nat) : Nat := if 65536 < sum then x * 65536 / sum else x
  f sh * w / 65536 / n + (if act = 0 then 0 else pool * f sh / act / n)

/-- The share controller of a die refills the buckets of its tiles (R270). -/
def shareRefill (env : Env) (d : Dev) : Dev :=
  let k := d.share env.unit
  let tiles := dieTiles env env.unit
  let run := tiles.filter fun t => (d.tile t).running
  let vfOf (t : Nat) : Nat := (d.tile t).core.csr.vfid.toNat
  let sh (v : Nat) : Nat := (k.share.get 0 v).toNat
  let sum := k.share.entries.foldl (fun a e => a + e.2.toNat) 0
  let scaled (v : Nat) : Nat := if 65536 < sum then sh v * 65536 / sum else sh v
  let active := (run.map vfOf).foldl (fun l v => if l.contains v then l else v :: l) []
  let act := active.foldl (fun a v => a + scaled v) 0
  let pool := tiles.foldl (fun a t => a + (d.tile t).bucket) 0
  let give (t : Nat) : Nat :=
    if (d.tile t).running then shareTokens k.dwb.toNat pool sum act (sh (vfOf t)) (run.countP fun u => vfOf u == vfOf t) else 0
  let gifts := tiles.map fun t => (t, give t)
  gifts.foldl (fun d e => if (d.tile e.1).bucket = e.2 then d else d.onTile e.1 fun y => { y with bucket := e.2 }) d

/-- SHARE_REFILL (R270). -/
def execShareRefill (s : State) : Host.Outcome State Fault Refusal := s.run shareRefill

/-! ### Timestamps and caps -/

/-- Cycles pass on a tile: the ordinary path's pts rises by 1 at each 64th (R300). -/
def tileTime (t n : Nat) (d : Dev) : Dev :=
  let c := (d.tile t).cycle.toNat
  let k := (c + n) / 64 - c / 64
  let d1 := if k = 0 then d else setPts d (.tile t 0) (getPts d (.tile t 0) + dw k)
  d1.onTile t fun y => { y with cycle := y.cycle + dw n }

/-- An agent raises its pts by 1 (R300): a tile on which no iteration runs, as its cycles pass on to the next multiple of 64, and not under a
debug stop, where CYCLE stands (R361); or a system core. The cycles of a tile that runs pass at the turns of its engines (log entry 11). -/
def ptsTick (isCore : Bool) (env : Env) (d : Dev) : Dev :=
  if isCore then (if env.unit < 48 then setPts d (.core env.unit) (getPts d (.core env.unit) + 1) else d)
  else
    let y := d.tile env.unit
    if tileOk env.unit && !y.running && !y.dbg.inStop then tileTime env.unit (64 - y.cycle.toNat % 64) d else d

/-- PTS_TICK (R300). -/
def execPtsTick (isCore : Bool) (s : State) : Host.Outcome State Fault Refusal := s.run (ptsTick isCore)

/-- A write of LCAP: 0 and values above 64 are ignored (R199). -/
def lcapWrite (c : Nat) (v : Dword) (d : Dev) : Dev :=
  if 1 ≤ v.toNat && v.toNat ≤ 64 then d.onCluster c fun k => { k with lcap := v.setWidth 7 } else d

/-- LCAP_WRITE (R199). -/
def execLcapWrite (v : Dword) (s : State) : Host.Outcome State Fault Refusal := s.run fun env d => lcapWrite env.unit v d

end Sys2Proof.Machine
end

