-- ==== Sys2Proof/Machine/Landing.lean ====
section
/-! DEFINITION. Landing maps and coordinate transfers: the map words, matching and landing, strays and overlaps, the packets of
a transfer (R154, R156, R157, R248 to R260). -/

namespace Sys2Proof.Machine

/-! ### Maps -/

/-- The map unit and slot that a selector names (R156): a tile's own scratchpad, or a slice. -/
structure MapSel where
  mem  : Bool
  unit : Nat
  slot : Nat
  deriving DecidableEq, Repr

/-- A way of a slice is a staging way granted to a VF (R239). -/
def stagedFor (d : Dev) (s w : Nat) (vf : BitVec 10) : Bool :=
  let y := vget (d.slice s).sway {} w
  y.stage && y.grant && y.vf == vf && y.change == none

/-- The selector of a map word; none breaks its table, or names a disabled slice or one not granted to the VF (R156, R157). -/
def mapSel (env : Env) (d : Dev) (t : Nat) (v : Dword) : Option MapSel :=
  let s := bitsN v 8 8
  if bitsN v 16 48 != 0 || v.getLsbD 7 then none
  else if v.getLsbD 6 then
    if env.caps.sliceOn s && (List.range 16).any (fun w => stagedFor d s w (d.tile t).core.csr.vfid) then
      some ⟨true, s, bitsN v 0 6⟩ else none
  else if s = 0 then some ⟨false, t, bitsN v 0 6⟩ else none

/-- The slot a selector names. -/
def mapSlot (d : Dev) (s : MapSel) : MapSlot :=
  if s.mem then (d.slice s.unit).slots.get {} s.slot else (d.tile s.unit).slots.get {} s.slot

/-- The device with that slot replaced. -/
def setMapSlot (d : Dev) (s : MapSel) (x : MapSlot) : Dev :=
  if s.mem then d.setSlice s.unit { d.slice s.unit with slots := (d.slice s.unit).slots.set s.slot x }
  else d.onTile s.unit fun y => { y with slots := y.slots.set s.slot x }

/-- LOd, HId of a map descriptor (R250). -/
def mdLo (m : Nat) (d : Nat) : Nat := recBits m (160 + 32 * d) 32
/-- The upper bound of dimension d (R250). -/
def mdHi (m : Nat) (d : Nat) : Nat := recBits m (288 + 32 * d) 32
/-- The signed stride of dimension d (R250). -/
def mdStride (m : Nat) (d : Nat) : Int := (BitVec.ofNat 32 (recBits m (32 + 32 * d) 32)).toInt
/-- The rank of a map descriptor (R250). -/
def mdRank (m : Nat) : Nat := recBits m 444 3
/-- span_d below RANK (R251). -/
def mdSpan (m : Nat) (d : Nat) : Int := if d < mdRank m then ((mdHi m d : Int) - mdLo m d) * mdStride m d else 0

/-- The lowest byte that a map lands on (R251). -/
def mdLowest (m : Nat) : Int := (List.range 4).foldl (fun a d => a + min 0 (mdSpan m d)) (recBits m 0 32 : Int)
/-- The highest byte that a map lands on (R251). -/
def mdHighest (m : Nat) : Int :=
  (List.range 4).foldl (fun a d => a + max 0 (mdSpan m d)) (recBits m 0 32 : Int) + fmtBytes (recBits m 440 4) - 1

/-- The check of R251 that a map descriptor fails, 0 for none. -/
def mapCheck (d : Dev) (s : MapSel) (vf : BitVec 10) (m : Nat) : Nat :=
  let e := fmtBytes (recBits m 440 4)
  let r := List.range 4
  if recBits m 519 505 != 0 || recBits m 453 11 != 0 || recBits m 447 1 != 0 then 1
  else if recBits m 416 24 = 0 then 2
  else if 8 ≤ recBits m 440 4 then 3
  else if mdRank m = 0 || 5 ≤ mdRank m then 4
  else if r.any fun k => if k < mdRank m then decide (mdHi m k < mdLo m k) else
      mdLo m k != 0 || mdHi m k != 0 || mdStride m k != 0 then 5
  else if recBits m 0 32 % e != 0 || r.any fun k => decide (k < mdRank m) && mdStride m k % e != 0 then 6
  else if mdLowest m < 0 || (if s.mem then 4 * 2 ^ 20 else 3 * 2 ^ 20) ≤ mdHighest m then 7
  else if s.mem && (List.range 16).any fun w =>
      decide (mdLowest m / 0x40000 ≤ w ∧ (w : Int) ≤ mdHighest m / 0x40000) && !stagedFor d s.unit w vf then 8
  else if recBits m 464 55 % 16 != 0 then 9
  else 0

/-- The generation a descriptor makes (R250), with its number. -/
def mapGen (no : Nat) (va : Dword) (vf : BitVec 10) (t : Nat) (m : Nat) : MapGen :=
  { no := no, va := va, vf := vf, tile := t, rank := mdRank m, fmt := BitVec.ofNat 4 (recBits m 440 4),
    key := BitVec.ofNat 24 (recBits m 416 24), lo := (List.range 4).map fun d => BitVec.ofNat 32 (mdLo m d),
    hi := (List.range 4).map fun d => BitVec.ofNat 32 (mdHi m d),
    stride := (List.range 4).map fun d => BitVec.ofNat 32 (recBits m (32 + 32 * d) 32),
    dbase := BitVec.ofNat 32 (recBits m 0 32), bar := BitVec.ofNat 55 (recBits m 464 55),
    prio := BitVec.ofNat 4 (recBits m 448 4), rovl := recBits m 452 1 == 1 }

/-- MAP_DESCRIPTOR (R157). -/
def mapTrap {α : Type} (n : Nat) : Res α := .trap 0x0A (dw n) 0 0 0

/-- The map-retired record of a generation (R258). -/
def retiredRec (s : MapSel) (g : MapGen) : Rec16 :=
  rec16 (4 + g.key.toNat * 2 ^ 8 + b2n s.mem * 2 ^ 39 + s.slot * 2 ^ 40 +
    (if s.mem then s.unit / 128 * 2 ^ 46 + s.unit % 128 * 2 ^ 47 else 0)) (g.va.toNat % 2 ^ 55)

/-- An ordinary read of a map descriptor (R131, R250), a unit of coherence at a time. -/
def readDesc (env : Env) (t : Nat) (va : Dword) (d : Dev) : Res Nat :=
  (locate env d (whoTile d t) {} va).bind fun x d1 =>
    (tileLine env d1 t (d1.tile t).core.csr.vfid x.2 x.1).bind fun b d2 => .ok (leNat b) d2

/-- Matched writes of a generation that are not performed (R156, R157). -/
def pendOf (d : Dev) (g : MapGen) : Nat :=
  d.later.countP fun x => match x.el with
    | some e => e.gen.no == g.no
    | none => false

/-- A generation drains no longer: it has no unperformed matched write (R156). -/
def drained (d : Dev) : Option MapGen → Bool
  | some g => pendOf d g == 0
  | none => true
/-- A map word's selector and the state of its slot (R157). -/
def mapSlotCheck (env : Env) (t : Nat) (v : Dword) (bad : MapSlot → Nat) (d : Dev) : Res MapSel :=
  match mapSel env d t v with
  | none => mapTrap 16
  | some s => if bad (mapSlot d s) != 0 then mapTrap (bad (mapSlot d s)) else .ok s d

/-- MAPINST and MAPSWAP (R156, R157): `put` is what the slot becomes with the new generation, and the generation retired. -/
def mapWord (a b : BitVec 5) (bad : MapSlot → Nat) (put : MapSlot → MapGen → MapSlot × Option MapGen) (env : Env) (at_ : At)
    (d : Dev) : Res Unit :=
  let c := (d.tile at_.t).core
  let va := c.a a
  if !aligned va 128 then misaligned va 128 else
  (mapSlotCheck env at_.t (c.a b) bad d).bind fun s d1 =>
  if !drained d1 (mapSlot d1 s).drain then .wait Wait.idle d1 else
  (readDesc env at_.t va d1).bind fun m d2 =>
    let n := mapCheck d2 s c.csr.vfid m
    if n != 0 then mapTrap n else
    let (x, old) := put (mapSlot d2 s) (mapGen d2.genNo va c.csr.vfid at_.t m)
    let d3 := { setMapSlot d2 s x with genNo := d2.genNo + 1 }
    match old with
    | none => .ok () d3
    | some g => .ok () (postRunning d3 at_.t (retiredRec s g) (getPts d3 (.tile at_.t 0)))

/-- MAPINST on a slot that is not free reports 17 (R157). -/
def instBad (x : MapSlot) : Nat := if x.act.isSome || x.drain.isSome then 17 else 0
/-- MAPSWAP on a slot with no active generation reports 18 (R157). -/
def swapBad (x : MapSlot) : Nat := if x.act.isNone then 18 else 0
/-- MAPRET on a free slot reports 19 (R157). -/
def retBad (x : MapSlot) : Nat := if x.act.isNone && x.drain.isNone then 19 else 0

/-- MAPINST (R156). -/
def execMapinst (a b : BitVec 5) (s : State) : Host.Outcome State Fault Refusal :=
  aTry (.mapinst a b) (mapWord a b instBad fun _ g => ({ act := some g }, none)) s

/-- MAPSWAP's change (R156): the old active generation drains; one that was draining is retired. -/
def swapPut (x : MapSlot) (g : MapGen) : MapSlot × Option MapGen := ({ act := some g, drain := x.act }, x.drain)

/-- MAPSWAP (R156). -/
def execMapswap (a b : BitVec 5) (s : State) : Host.Outcome State Fault Refusal := aTry (.mapswap a b) (mapWord a b swapBad swapPut) s

/-- MAPRET (R156): the draining generation is retired; with none, the active one starts draining first, and A waits. -/
def mapretWord (b : BitVec 5) (env : Env) (at_ : At) (d : Dev) : Res Unit :=
  (mapSlotCheck env at_.t ((d.tile at_.t).core.a b) retBad d).bind fun s d1 =>
    let x := mapSlot d1 s
    match x.drain with
    | some g =>
      if !drained d1 x.drain then .wait Wait.idle d1 else
      let d2 := setMapSlot d1 s { x with drain := none }
      .ok () (postRunning d2 at_.t (retiredRec s g) (getPts d2 (.tile at_.t 0)))
    | none => .wait Wait.idle (setMapSlot d1 s { act := none, drain := x.act })

/-- MAPRET (R156). -/
def execMapret (b : BitVec 5) (s : State) : Host.Outcome State Fault Refusal := aTry (.mapret b) (mapretWord b) s

/-- Whether an agent has elements under way that are matched and not performed (R253). -/
def landsLeft (d : Dev) (a : Agent) : Bool :=
  d.later.any fun x => match x.el with
    | some e => e.ag == a
    | none => false

/-- The generation that drains in the slot a map word names. -/
def drainingOf (env : Env) (d : Dev) (t : Nat) (v : Dword) : Option MapGen :=
  match mapSel env d t v with
  | some s => (mapSlot d s).drain
  | none => none

/-- The last matched writes of the draining generation that MAPRET or MAPSWAP waits on are performed (R156): A's word goes on. -/
def mapDrained (env0 : Env) (d0 : Dev) : Dev :=
  let env := { env0 with eng := .a }
  let t := env.unit
  let drain (b : BitVec 5) : Dev :=
    match drainingOf env d0 t ((d0.tile t).core.a b) with
    | some g => landAll env (fun e => e.gen.no == g.no) d0
    | none => d0
  match ready d0 t .a with
  | .go pc _ =>
    if ((d0.tile t).core.engine .a).wait.isNone then d0 else
    match (peekAt env d0 t .a pc).map decodeTotal with
    | some (.mapret b) => engineWord .a (.mapret b) (mapretWord b env) (fun _ c => c) env (drain b)
    | some (.mapswap a b) => engineWord .a (.mapswap a b) (mapWord a b swapBad swapPut env) (fun _ c => c) env (drain b)
    | _ => d0
  | .slip => d0
  | .hold => d0
  | .no => d0

/-- MAP_DRAIN_COMPLETE (R156). -/
def execMapDrainComplete (s : State) : Host.Outcome State Fault Refusal := s.run mapDrained

/-- What MAPQ returns (R157). -/
def mapStatus (d : Dev) (x : MapSlot) : Nat :=
  (match x.act with | some g => g.key.toNat * 2 ^ 40 + g.prio.toNat * 2 ^ 36 | none => 0) +
    (match x.drain with | some g => min (pendOf d g) 0xFFFFFF * 2 ^ 8 | none => 0) + 2 * b2n x.drain.isSome + b2n x.act.isSome

/-- MAPQ (R156). -/
def mapqWord (r b : BitVec 5) (env : Env) (at_ : At) (d : Dev) : Res Unit :=
  (mapSlotCheck env at_.t ((d.tile at_.t).core.a b) (fun _ => 0) d).bind fun s d1 =>
    .ok () (d1.onCore at_.t fun c => c.setA r (dw (mapStatus d1 (mapSlot d1 s))))

/-- MAPQ (R156). -/
def execMapq (d b : BitVec 5) (s : State) : Host.Outcome State Fault Refusal := aTry (.mapq d b) (mapqWord d b) s

/-! ### Matching (R252 to R258) -/

/-- Coordinate d of element k of a packet. -/
def coordOf (h : XHdr) (k d : Nat) : Nat :=
  match d with
  | 0 => (h.c0.toNat + k) % 2 ^ 32
  | 1 => h.c1.toNat
  | 2 => h.c2.toNat
  | _ => h.c3.toNat

/-- Element k of a packet matches a generation (R252). -/
def MapGen.matches (g : MapGen) (h : XHdr) (k : Nat) : Bool :=
  g.vf == h.vf && g.key == h.key && (List.range 4).all fun d =>
    if d < g.rank then decide ((g.lo.getD d 0).toNat ≤ coordOf h k d) && decide (coordOf h k d ≤ (g.hi.getD d 0).toNat)
    else coordOf h k d == 0

/-- The generations active in a map unit, by slot (R252). -/
def activeGens (d : Dev) (slice : Bool) (unit : Nat) : List (Nat × MapGen) :=
  (if slice then (d.slice unit).slots else (d.tile unit).slots).entries.filterMap fun e => e.2.act.map fun g => (e.1, g)

/-- The winner of the candidates: highest PRIO, then lowest slot (R252). -/
def winner : List (Nat × MapGen) → Option (Nat × MapGen)
  | [] => none
  | x :: r => match winner r with
    | none => some x
    | some y => if x.2.prio.toNat < y.2.prio.toNat then some y else some x

/-- Where element k lands in its memory (R253). -/
def MapGen.offset (g : MapGen) (h : XHdr) (k : Nat) : Int :=
  (List.range g.rank).foldl
    (fun a d => a + ((coordOf h k d : Int) - (g.lo.getD d 0).toNat) * (g.stride.getD d 0).toInt) (g.dbase.toNat : Int)

/-- What a packet has left beside the bytes it landed: stray elements, and overlapped elements with slot and generation. -/
structure Landed where
  strays : List Nat := []
  overs  : List (Nat × Nat × MapGen) := []

/-- Element k of a packet, which a generation has matched (R253): performed at once, or later (R271; DESIGN CHOICE, safe: log entry 77),
and behind those matched before it that write a byte of it (R254). -/
def landElem (env : Env) (k : Nat) (e : LandEl) (d : Dev) : Dev :=
  if Config.landLater env.tick k || landBehind d e then d.defer (.land e) else landNow env e d

/-- The elements of a packet from element k on (R252). -/
def landElems (env : Env) (ag : Agent) (h : XHdr) (gens : List (Nat × MapGen)) :
    Nat → Nat → List Byte → Landed → Dev → Landed × Dev
  | 0, _, _, l, d => (l, d)
  | n + 1, k, b, l, d =>
    let e := fmtBytes h.fmt.toNat
    let cand := gens.filter fun x => x.2.matches h k
    match winner cand with
    | none => landElems env ag h gens n (k + 1) (b.drop e) { l with strays := l.strays ++ [k] } d
    | some (slot, g) =>
      let l1 := if 2 ≤ cand.length then { l with overs := l.overs ++ [(k, slot, g)] } else l
      if g.fmt != h.fmt then
        landElems env ag h gens n (k + 1) (b.drop e) { l1 with strays := l1.strays ++ [k] } d
      else
        landElems env ag h gens n (k + 1) (b.drop e) l1
          (landElem env k { ag := ag, slice := h.slice, unit := h.unit.toNat, slot := slot, gen := g, off := (g.offset h k).toNat, bytes := b.take e } d)

/-- A landing record goes to the iteration running on a tile when it belongs to the VF that owns the tile's scratchpad (R330); with none
running it is discarded and counted (R120). -/
def postLanding (d : Dev) (t : Nat) (r : Rec16) (ts : Dword) : Dev :=
  if !(d.tile t).running || (d.tile t).tag = some (d.tile t).core.csr.vfid then postRunning d t r ts else d

/-- Count stray elements and post their record (R255, R258). -/
def strayOut (h : XHdr) (t : Nat) (l : Landed) (ts : Dword) (d : Dev) : Dev :=
  match l.strays with
  | [] => d
  | k :: _ =>
    let n := l.strays.length
    let d1 := countEv (d.onTile t fun y => { y with stray := sat32 y.stray n }) t h.vf 8 n
    postLanding d1 t (rec16 (2 + h.key.toNat * 2 ^ 8 + n * 2 ^ 32 + h.fmt.toNat * 2 ^ 40 + coordOf h k 2 % 1024 * 2 ^ 44 +
      coordOf h k 3 % 1024 * 2 ^ 54) (coordOf h k 0 + coordOf h k 1 * 2 ^ 32)) ts

/-- The overlap record for one tile (R256, R258). -/
def overRec (h : XHdr) (l : List (Nat × Nat × MapGen)) : Option Rec16 :=
  match l with
  | [] => none
  | (k, slot, _) :: _ => some (rec16 (3 + h.key.toNat * 2 ^ 8 + l.length * 2 ^ 32 + slot * 2 ^ 40 + b2n h.slice * 2 ^ 46)
      (coordOf h k 0 + coordOf h k 1 * 2 ^ 32))

/-- Count overlapped elements and post their records (R256). -/
def overOut (h : XHdr) (l : Landed) (ts : Dword) (d : Dev) : Dev :=
  let own (g : MapGen) : Nat := if h.slice then g.tile else h.unit.toNat
  let tiles := (l.overs.map fun x => own x.2.2).eraseDups
  tiles.foldl (fun d t =>
    let mine := l.overs.filter fun x => own x.2.2 == t
    let d1 := d.onTile t fun y => { y with ovlp := sat32 y.ovlp mine.length }
    match overRec h (mine.filter fun x => x.2.2.rovl) with
    | none => d1
    | some r => postLanding d1 t r ts) d

/-- The tile that takes a unit's strays, if any (R255, R260). -/
def strayTile (d : Dev) (h : XHdr) : Option Nat :=
  if !h.slice then some h.unit.toNat
  else
    let s := (d.slice h.unit.toNat).sstray
    if s.getLsbD 10 then some (bitsN s 0 10) else none

/-- A packet reaches a memory of another VF (R260). -/
def foreign (d : Dev) (h : XHdr) : Bool :=
  if !h.slice then (d.tile h.unit.toNat).tag != some h.vf
  else !((activeGens d true h.unit.toNat).any fun x => x.2.vf == h.vf) &&
    !(match strayTile d h with | some t => (d.tile t).tag == some h.vf | none => false)

/-- A map unit handles a packet (R249, R252 to R256, R260). Of one packet the record of its strays is posted before that of its overlaps
(DESIGN CHOICE, unsafe: log entry 103). -/
def landPacket (env : Env) (ag : Agent) (h : XHdr) (b : List Byte) (d : Dev) : Dev :=
  if vfGen d h.vf != h.gen then d
  else if foreign d h then { d with xvfdrop := sat32 d.xvfdrop 1 }
  else
    let (l, d1) := landElems env ag h (activeGens d h.slice h.unit.toNat) h.run.toNat 0 b {} d
    let ts := getPts d1 ag
    overOut h l ts (match strayTile d1 h with
      | some t => strayOut h t l ts d1
      | none => d1)

/-! ### Sending a box (R154, R248) -/

/-- Elements of a run at most (R248). -/
def runMax (fmt : Nat) : Nat := 224 / max 1 (fmtBytes fmt)

/-- A box as a sender cuts it: origin, extents, format, key. -/
structure Box where
  org : List Nat
  ext : List Nat
  fmt : Nat
  key : BitVec 24

/-- Runs of a line. -/
def Box.runs (b : Box) : Nat := (b.ext.getD 0 0 + runMax b.fmt - 1) / runMax b.fmt

/-- Packets of a box (R248). -/
def Box.packets (b : Box) : Nat := b.runs * (b.ext.getD 1 0 * b.ext.getD 2 0 * b.ext.getD 3 0)

/-- The first element of packet p: its position in the box in each dimension; and how many elements it has (R248). -/
def Box.at (b : Box) (p : Nat) : List Nat × Nat :=
  let i0 := p % b.runs * runMax b.fmt
  let l := p / b.runs
  let e1 := b.ext.getD 1 1
  let e2 := b.ext.getD 2 1
  ([i0, l % e1, l / e1 % e2, l / e1 / e2], min (runMax b.fmt) (b.ext.getD 0 0 - i0))

/-- The header of packet p of a box for a receiver (R249). -/
def Box.hdr (env : Env) (d : Dev) (b : Box) (p : Nat) (recv : Dword) (vf : BitVec 10) (stile : Nat) : XHdr :=
  let c (i : Nat) : BitVec 32 := BitVec.ofNat 32 (b.org.getD i 0 + (b.at p).1.getD i 0)
  { c0 := c 0, c1 := c 1, c2 := c 2, c3 := c 3, ddev := BitVec.ofNat 6 (bitsN recv 0 6), slice := recv.getLsbD 7,
    unit := BitVec.ofNat 10 (bitsN recv 8 10), gen := vfGen d vf, vf := vf, stile := BitVec.ofNat 10 stile, sdev := env.caps.devid,
    run := BitVec.ofNat 8 (b.at p).2, fmt := BitVec.ofNat 4 b.fmt, key := b.key }

/-- How a packet leaves: matched at this device, sent to another; no bridge takes packets for the peer, or none now (R274,
R284). -/
inductive SendEnd where
  | sent | dead | later
  deriving DecidableEq, Repr

/-- Send one packet to its receiver (R248, R273, R274). -/
def sendXfer (env : Env) (ag : Agent) (stile : Nat) (h : XHdr) (b : List Byte) (d : Dev) : SendEnd × Dev :=
  if h.ddev = env.caps.devid then (.sent, landPacket env ag h b d)
  else if !reachable env d h.ddev.toNat then (.dead, d)
  else match choosePath d stile h.ddev.toNat with
    | some p => (.sent, sendOn d p h.ddev.toNat .req (.xfer env.caps.devid h b))
    | none => (if d.peersLost.getLsbD h.ddev.toNat then .dead else .later, d)

/-- Read bytes on a path, a unit of coherence at a time (R244, R269): work k of the tile pays for them. -/
def pathRead (env : Env) (t k : Nat) (w : Who) (ag : Agent) (front : Bool) : Nat → Dev → Dword → Nat → Res (List Byte)
  | 0, d, _, _ => .ok [] d
  | f + 1, d, va, n =>
    if n = 0 then .ok [] d else
    (locate env d w {} va).bind fun x d1 =>
      let m := min n (x.1.unit - x.1.inUnit)
      match payFrom d1 t k x.1 with
      | none => .wait Wait.share d1
      | some d2 =>
        let (b, d3) := loadHint env d2 ag w.vf x.2 front x.1 m
        (pathRead env t k w ag front f d3 (va + dw m) (n - m)).bind fun c d4 => .ok (b ++ c) d4

/-- The box of a transfer command (R154). -/
def Cmd.box (c : Cmd) : Box :=
  { org := (List.range 4).map c.org, ext := (List.range 4).map c.ext, fmt := tFmt c.srcT, key := BitVec.ofNat 24 (tKey c.srcT) }

/-- The address of the first element of packet p of a transfer command. -/
def Cmd.runAt (c : Cmd) (p : Nat) : Dword :=
  let i := (c.box.at p).1
  let x (k : Nat) : Nat := c.org k + i.getD k 0
  dw (tLineAt c.srcT (x 1) (x 2) (x 3) + x 0 * fmtBytes (tFmt c.srcT))

/-- The payload of packet p. -/
def readRun (env : Env) (t : Nat) (c : Cmd) (p : Nat) (d : Dev) : Res (List Byte) :=
  let n := (c.box.at p).2 * fmtBytes (tFmt c.srcT)
  pathRead env t 5 (cmdWho t c) (.tile t 3) (optFront c.src) n d (c.runAt p) n

/-- The first entry of a receiver list that names no unit that may receive. -/
def badTarget (env : Env) (l : List Dword) : Option Nat := l.findIdx? fun w => !targetOk env w

/-- The receivers from the bytes of a list. -/
def recvList : Nat → List Byte → List Dword
  | 0, _ => []
  | n + 1, b => dw (leNat (b.take 8)) :: recvList n (b.drop 8)

/-- A transfer starts (R154): XFERM reads its receiver list once. -/
def startXfer (env : Env) (t : Nat) (c : Cmd) (d : Dev) : Res Cmd :=
  match c.recv with
  | some _ => .ok c d
  | none =>
    let n := (c.op 6).toNat
    (pathRead env t 5 (cmdWho t c) (.tile t 3) true (8 * n) d (c.op 5) (8 * n)).bind fun b d1 =>
      .ok { c with recv := some (recvList n b), sent := List.replicate n 0 } d1

/-- The transfer at the head of a tile's XFQ, where it is not stalled. -/
def xferHead (d : Dev) (t : Nat) : Option Cmd :=
  match d.queue t 5 with
  | [] => none
  | c :: _ => if c.isXfer && c.stall.isNone then some c else none

/-- The command at the head of XFQ fails (R149). -/
def failXfer (env : Env) (t : Nat) (c : Cmd) (code off : Nat) (d : Dev) : Dev :=
  failCmd env (d.setQueue t 5 (d.queue t 5).tail) t 5 c code off 0

/-- A transfer that has started, or why it has not: a stall, a bad entry of its list. -/
def withXfer (env : Env) (t : Nat) (d : Dev) (go : Cmd → Dev → Dev) (stall : Nat → Dword → Dev) : Dev :=
  match xferHead d t with
  | none => d
  | some c =>
    match startXfer env t c d with
    | .ok c1 d1 =>
      match badTarget env (c1.recv.getD []) with
      | some i => failXfer env t c1 2 (8 * i) d1
      | none => go c1 (setHead d1 t 5 c1)
    | .wait w d1 => waitPaid t 5 w d d1
    | .sys code va => stall code va
    | .trap _ _ _ _ _ => d
    | .roll _ => d

/-- Whether a receiver is a unit of this device. -/
def recvHere (env : Env) (w : Dword) : Bool := bitsN w 0 6 == env.caps.devid.toNat

/-- Packets sent after packet p has gone to receiver r: a unit of this device gets one copy, whichever entries of the list name it (R266). -/
def sentTo (env : Env) (recv : List Dword) (sent : List Nat) (r p : Nat) : List Nat :=
  let w := recv.getD r 0
  if recvHere env w then sent.mapIdx fun i n => if recv[i]? == some w then p + 1 else n else sent.set r (p + 1)

/-- The payload of a packet that goes to units of this device is read once for them all (R248, R266): what is kept of it after it has
gone to receiver r, while some have still to get it. -/
def keepLoad (env : Env) (recv : List Dword) (sent : List Nat) (r p : Nat) (b : List Byte) (load : List (Nat × List Byte)) :
    List (Nat × List Byte) :=
  if !recvHere env (recv.getD r 0) then load else
  let rest := load.filter fun x => x.1 != p
  if (List.range recv.length).any fun i => recvHere env (recv.getD i 0) && decide (sent.getD i 0 ≤ p) then (p, b) :: rest else rest

/-- The payload of a packet for receiver r: as it was read for another unit of this device, or read now. -/
def payloadFor (env : Env) (w : Dword) (p : Nat) (load : List (Nat × List Byte)) (d : Dev) (read : Dev → Res (List Byte)) : Res (List Byte) :=
  match (if recvHere env w then load.find? fun x => x.1 == p else none) with
  | some x => .ok x.2 d
  | none => read d

/-- The next packet of a transfer command goes to receiver r (R248, R252). -/
def sendCmdPacket (env : Env) (t r : Nat) (d : Dev) : Dev :=
  withXfer env t d (fun c d1 =>
    let p := c.sent.getD r 0
    let recv := c.recv.getD []
    match recv[r]? with
    | none => d
    | some target =>
      if c.box.packets ≤ p then d else
      match payloadFor env target p c.load d1 (readRun env t c p) with
      | .ok b d2 =>
        match sendXfer env (.tile t 3) t (c.box.hdr env d2 p target c.vf t) b d2 with
        | (.sent, d3) =>
          let sent := sentTo env recv c.sent r p
          setHead d3 t 5 { c with sent := sent, load := keepLoad env recv sent r p b c.load }
        | (.dead, d3) => failXfer env t c 0x25 (c.runOff p) d3
        | (.later, _) => d
      | .wait w d3 => waitPaid t 5 w d d3
      | .sys _ _ => d
      | .trap _ _ _ _ _ => d
      | .roll _ => d) (fun _ _ => d)

/-- A transfer completes once every packet has been matched at every receiver and every matched write performed (R154, R253). -/
def xferCompletes (env : Env) (t : Nat) (d0 : Dev) : Dev :=
  let d := landAll env (fun e => e.ag == .tile t 3) d0
  withXfer env t d (fun c d1 =>
    let recv := c.recv.getD []
    if (c.sent.all fun n => decide (c.box.packets ≤ n)) && !landsLeft d1 (.tile t 3) && (recv.all (recvHere env) || farDone env d1 t) then
      let n := c.bytes * c.sent.length
      tryKeep d ((signalCmd env t 5 c n n (d1.setQueue t 5 (d1.queue t 5).tail)).bind fun _ d2 => .ok true d2)
    else d) (fun _ _ => d)

/-- A transfer stalls: on its receiver list at offset 0, or on a byte of its next packet (R149, R154). -/
def xferStalls (env : Env) (t : Nat) (d : Dev) : Dev :=
  let stop (c : Cmd) (code off : Nat) (va : Dword) (d : Dev) : Dev :=
    let c1 := { c with stall := some (BitVec.ofNat 8 code), fva := va, off := off }
    cmdFault env (keepTlb env (setHead d t 5 c1) (cmdWho t c) va) t 5 c1 8 code code off va
  withXfer env t d (fun c d1 =>
    match c.sent.find? fun n => decide (n < c.box.packets) with
    | none => d
    | some p =>
      match readRun env t c p d1 with
      | .sys code va => stop c code (c.runOff p + (va - c.runAt p).toNat) va d1
      | .ok _ _ => d
      | .wait _ _ => d
      | .trap _ _ _ _ _ => d
      | .roll _ => d)
    (fun code va => match xferHead d t with
      | some c => stop c code 0 va d
      | none => d)

/-- COMMAND_COMPLETION (R151). -/
def execCommandCompletion (q : BitVec 5) (s : State) : Host.Outcome State Fault Refusal :=
  s.run fun env d => if (xferHead d env.unit).isSome && q = 5 then xferCompletes env env.unit d else copyCompletes q.toNat env d

/-- COMMAND_STALL (R149). -/
def execCommandStall (q : BitVec 5) (s : State) : Host.Outcome State Fault Refusal :=
  s.run fun env d => if (xferHead d env.unit).isSome && q = 5 then xferStalls env env.unit d else copyStalls q.toNat env d

end Sys2Proof.Machine
end

