-- ==== Sys2Proof/Machine/Moves.lean ====
section
/-! DEFINITION. The records of the migration engine (R339), and how a move aborts (R352, R354). -/

namespace Sys2Proof.Machine

/-- A record of the migration engine (R339). -/
structure MRec where
  op     : Nat
  status : Nat := 0
  vf     : BitVec 10
  page   : BitVec 55
  dev    : Nat := 0
  code   : Nat := 0
  tag    : Dword := 0
  detail : Dword := 0

/-- The 32 bytes of a record (R339). -/
def MRec.bytes (r : MRec) : List Byte :=
  natLe 8 (r.op + r.status * 2 ^ 4 + r.dev * 2 ^ 8 + r.vf.toNat * 2 ^ 14 + r.code * 2 ^ 24) ++ natLe 8 r.tag.toNat ++
    natLe 8 r.detail.toNat ++ natLe 8 r.page.toNat

/-- Whether n bytes from a physical address on lie in HBM (R230). -/
def inHbm (env : Env) (pa n : Nat) : Bool := decide (pa + n ≤ env.caps.hbm)

/-- A dword in HBM. -/
def physRead8 (d : Dev) (pa : Nat) : Nat := leNat (Memory.read d.mem pa 8)

/-- Bytes stored in HBM as an access of no agent, of the VF that owns the frame (R242). -/
def physWrite (env : Env) (pa : Nat) (b : List Byte) (d : Dev) : Dev :=
  storeSpan env .none (d.frame (pa / 65536)).vf 0 (b.length + 1) d (.hbm pa) b

/-- Write an entry to a ring named by a physical address, with the header of R319: a fault when the ring cannot be written, a wait
while a page of it is frozen. The stores are made as in `ringPost`. The flag it names is found under the ASID of the VF concerned. (DEDUCED, unsafe: log entry 45) -/
def ringPostPa (env : Env) (vf : BitVec 10) (agent pa : Nat) (b : List Byte) (d : Dev) : Res Unit :=
  let size := physRead8 d pa
  let head := physRead8 d (pa + 8)
  let tail := physRead8 d (pa + 16)
  let at_ := pa + 64 + b.length * (head % size)
  (physCheck env d pa 64).bind fun _ _ =>
    if !ringSizeOk size then .sys 0 (dw pa)
    else if (head + 2 ^ 64 - tail) % 2 ^ 64 = size then
      .ok () (physWrite env (pa + 24) (natLe 8 (physRead8 d (pa + 24) + 1)) d)
    else (physCheck env d at_ b.length).bind fun _ _ =>
      let (d0, t1) := stampSpan env (d.frame (at_ / 65536)).vf 0 (b.length + 1) d 0 (.hbm at_) b
      let (d1, t2) := stampSpan env (d.frame (pa / 65536)).vf 0 9 d0 t1 (.hbm (pa + 8)) (natLe 8 (head + 1))
      let fq := physRead8 d (pa + 32)
      .ok () (if fq = 0 then d1 else ringFlag env d1 (whoVf d1 vf 640) (dw fq) agent t2)

/-- An entry of such a ring; one that cannot be written is counted in FQDROP where it is the migration engine's (R339). -/
def ringAddPa (env : Env) (vf : BitVec 10) (agent pa : Nat) (b : List Byte) (d : Dev) : Dev :=
  settle env d (.ringPa vf agent pa b) (fun _ _ => if agent = 0x0C02 then { d with fqdrop := sat32 d.fqdrop 1 } else d)
    (ringPostPa env vf agent pa b d)

/-- Post a record of the migration engine (R312, R339). -/
def migRecord (env : Env) (r : MRec) (d : Dev) : Dev := ringAddPa env r.vf 0x0C02 d.mig.mrecq.toNat r.bytes d

/-- A change to what the migration engine holds. -/
def Dev.onMig (d : Dev) (f : Mig → Mig) : Dev := { d with mig := f d.mig }

/-- An owner message about a page (R351). -/
def sendOwner (env : Env) (dest : BitVec 6) (vf : BitVec 10) (page : BitVec 55) (op : BitVec 8) (ssn : Nat) (body : List Byte)
    (d : Dev) : Dev :=
  let h : RHdr := { va := page, gen := vfGen d vf, vf := vf, sdev := env.caps.devid, ddev := dest, ssn := BitVec.ofNat 32 ssn, op := op }
  sendFree env d 0 dest (.remote env.caps.devid h body) op.toNat

/-- OP of the record of a command: its own; for a block refused with another, one of those that a record may hold (R338, R339; DESIGN
CHOICE, safe: log entry 91). -/
def MigCmd.recOp (c : MigCmd) : Nat :=
  if 1 ≤ c.op.toNat && c.op.toNat ≤ 4 then c.op.toNat else 1 + Config.refusedOp c.op.toNat % 7

/-- The record that a command ends with (R339). -/
def MigCmd.record (c : MigCmd) (status : Nat) (detail : Dword) : MRec :=
  { op := c.recOp, status := status, vf := c.vf, page := c.va, dev := if c.op = 2 then c.dev.toNat else 0
    code := c.code.toNat, tag := c.tag, detail := detail }

/-- The move of a page that is in progress at its source. -/
def Mig.moveOf (m : Mig) (vf : BitVec 10) (page : BitVec 55) : Option MigCmd :=
  m.cmds.find? fun c => c.op == 2 && c.vf == vf && c.va == page

/-- A change to the move of a page. -/
def Mig.onMove (m : Mig) (vf : BitVec 10) (page : BitVec 55) (f : MigCmd → MigCmd) : Mig :=
  { m with cmds := m.cmds.map fun c => if c.op == 2 && c.vf == vf && c.va == page then f c else c }

/-- The move of a page gives up its slot. -/
def Mig.dropMove (m : Mig) (vf : BitVec 10) (page : BitVec 55) : Mig :=
  { m with cmds := m.cmds.filter fun c => !(c.op == 2 && c.vf == vf && c.va == page) }

/-- The freeze of a move ends (R340, R352). -/
def Mig.endFreeze (m : Mig) (vf : BitVec 10) (page : BitVec 55) : Mig :=
  { m with
    freezes := m.freezes.filter fun z => !(z.vf == vf && z.page == page && !z.thaw)
    ovt := m.ovt.map fun e => if e.vf == vf && e.page == page && e.st == .frozen then { e with st := .present } else e }

/-- A home that is neither end of a move has been sent OWNERSET. -/
def MigCmd.toldHome (env : Env) (c : MigCmd) : Bool := c.owner != 0 && c.home != c.dev && c.home != env.caps.devid

/-- Where an entry of this device's own directory may stand, from its index on (R348). -/
def dirIndex (vf : BitVec 10) (page : BitVec 55) (i : Nat) : Nat :=
  (Nat.xor (page.toNat / 65536 % 65536) vf.toNat + i) % 65536

/-- The address of a directory entry (R348). -/
def dirAt (d : Dev) (i : Nat) : Nat := d.mig.homedir.toNat / 2 ^ 20 * 2 ^ 20 + 16 * i

/-- The first dword of the entry of a page (R348). -/
def dirKey (vf : BitVec 10) (page : BitVec 55) : Nat := 1 + 2 * vf.toNat + page.toNat / 65536 * 65536

/-- The addresses at which a page is sought (R348). -/
def dirPlaces (d : Dev) (vf : BitVec 10) (page : BitVec 55) : List Nat := (List.range 16).map fun i => dirAt d (dirIndex vf page i)

/-- The probes of R348; an entry that may not be accessed is no entry and no place for one (R242; DEDUCED, unsafe: log entry 92). -/
def dirProbe (env : Env) (d : Dev) (vf : BitVec 10) (page : BitVec 55) (want : Nat → Bool) : Option Nat :=
  (dirPlaces d vf page).find? fun a => (physCheck env d a 16).done && want (physRead8 d a)

/-- Whether a probe meets a frozen page (R340). -/
def dirWaits (env : Env) (d : Dev) (vf : BitVec 10) (page : BitVec 55) : Bool :=
  d.mig.homedir.getLsbD 0 && (dirPlaces d vf page).any fun a => (physCheck env d a 16).waits

/-- The owner that the directory of this device, a page's home, names (R348). -/
def dirOwner (env : Env) (d : Dev) (vf : BitVec 10) (page : BitVec 55) : BitVec 6 :=
  if !d.mig.homedir.getLsbD 0 then env.caps.devid else
  match dirProbe env d vf page fun x => x == dirKey vf page with
  | none => env.caps.devid
  | some a => BitVec.ofNat 6 (leNat (Memory.read d.mem (a + 8) 1))

/-- The directory names an owner for a page of this home: none where it finds no place. -/
def dirWrite (env : Env) (vf : BitVec 10) (page : BitVec 55) (o : BitVec 6) (d : Dev) : Option Dev :=
  if !d.mig.homedir.getLsbD 0 then none else
  let here := match dirProbe env d vf page fun x => x == dirKey vf page with
    | some a => some a
    | none => dirProbe env d vf page fun x => x % 2 == 0
  here.map fun a => physWrite env a (natLe 8 (dirKey vf page) ++ natLe 8 o.toNat) d

/-- The directory's entry of a page goes: its home owns it again. A frozen directory is waited for (R340). -/
def dirRemove (env : Env) (vf : BitVec 10) (page : BitVec 55) (d : Dev) : Dev :=
  if !d.mig.homedir.getLsbD 0 then d
  else if dirWaits env d vf page then d.defer (.dirEnd vf page)
  else match dirProbe env d vf page fun x => x == dirKey vf page with
  | some a => physWrite env a (natLe 8 0) d
  | none => d

/-- What an OWNERSET of a move has changed at the home, or may change, is undone: the directory names this device again. (DEDUCED, unsafe:
log entry 51) -/
def undoHome (env : Env) (c : MigCmd) (d : Dev) : Dev :=
  if c.owner = 0 || c.phase = .abort then d
  else if c.home = env.caps.devid then dirRemove env c.vf c.va d
  else if c.toldHome env then sendOwner env c.home c.vf c.va 0x10 0 (natLe 8 env.caps.devid.toNat) d
  else d

/-- A move that has failed sends ABORT, and ends any freeze; ownership is unchanged (R352, R354). -/
def abortMove (env : Env) (vf : BitVec 10) (page : BitVec 55) (code detail : Nat) (d : Dev) : Dev :=
  match d.mig.moveOf vf page with
  | none => d
  | some c =>
    if c.phase = .abort then d else
    sendOwner env c.dev vf page 0x1F 0 [] ((undoHome env c d).onMig fun m =>
      (m.endFreeze vf page).onMove vf page fun x => { x with phase := .abort, code := BitVec.ofNat 8 code, detail := dw detail })

/-- The lines of a frame that a mask names, by index. -/
def maskLines (m : BitVec 512) : List Nat := (List.range 512).filter fun i => m.getLsbD i

/-- The first line of a move that is not acknowledged; 512 once every line is (R339). -/
def MigCmd.failLine (c : MigCmd) : Nat :=
  if c.owner != 0 then 512
  else match c.phase with
    | .copy => min c.acked 512
    | .freeze => (maskLines c.dirty).getD (c.acked - 512) 512
    | .closing => 512
    | .abort => 512

/-- FAIL of a PAGEDATA or an OWNERSET reaches the source (R281, R354). -/
def moveFails (env : Env) (h : RHdr) (code : Nat) (d : Dev) : Dev :=
  match d.mig.moveOf h.vf h.va with
  | some c =>
    if (c.dev = h.sdev || (2 ≤ c.owner && c.home = h.sdev)) && h.stile = 0 && h.epoch = 0 then
      abortMove env h.vf h.va code (if c.owner = 0 then h.ssn.toNat else 512) d
    else d
  | none => d

/-- A move whose destination is lost ends without its answer; one whose home is lost aborts (R284, R354). -/
def moveLost (env : Env) (peer : BitVec 6) (d : Dev) (c : MigCmd) : Dev :=
  if c.op != 2 then d
  else if c.dev = peer then
    let c1 := if c.phase = .abort then c else { c with code := 0x25, detail := dw c.failLine }
    migRecord env (c1.record 2 c1.detail) ((undoHome env c d).onMig fun m => (m.endFreeze c.vf c.va).dropMove c.vf c.va)
  else if 2 ≤ c.owner && c.home = peer then abortMove env c.vf c.va 0x25 512 d
  else d

end Sys2Proof.Machine
end

