-- ==== Sys2Proof/Machine/RemWords.lean ====
section
/-! DEFINITION. The remote words RLD, RST, RSTF and RAMO at the issuer (R159 to R161, R276, R282, R283, R305, R306, R313, R346,
R349, R359), and the completion and failure of a remote access there (R160, R281, R332). -/

namespace Sys2Proof.Machine

/-! ### Outstanding accesses -/

/-- Some remote access of this device to a page is outstanding and passes a test. -/
def outstanding (d : Dev) (vf : BitVec 10) (page : BitVec 55) (p : NEntry → Bool) : Bool :=
  d.tiles.entries.any fun e => e.2.nq.toList.any fun l => l.any fun x =>
    !x.isNotify && x.vf == vf && pageOf (zx x.va) == page && p x

/-- The first notify of a list reports a failure (R160); whether the list holds one. -/
def markNote : List NEntry → List NEntry × Bool
  | [] => ([], false)
  | e :: l =>
    if e.isNotify && !e.isImplicit then ({ e with failed := true } :: l, true)
    else let r := markNote l; (e :: r.1, r.2)

/-- A remote access of a stream failed: the NOTIFY behind it, or the next one, reports it (R160). -/
def markFailed (t s serial : Nat) (before behind : List NEntry) (d : Dev) : Dev :=
  let r := markNote behind
  let d1 := d.onTile t fun y => { y with nq := vset y.nq s (before ++ r.1) }
  if r.2 then d1 else onIter d1 t serial fun c => { c with net := { c.net with bad := c.net.bad ||| (BitVec.ofNat 16 1 <<< s) } }

/-- The record of a failed remote access (R160, R281), or of one whose iteration has retired (R332). -/
def remRecord (env : Env) (t s : Nat) (e : NEntry) (code : Nat) (addr : Dword) (d : Dev) : Dev :=
  let gone := ((d.tile t).iterOf e.serial).isNone
  let r : FRec := { addr := addr, info := dw code, tile := t, vf := e.vf, aq := 8 + s, eng := 7, kind := 2,
                    code := if gone then 0x26 else code }
  let d1 := postFault env d e.faultq r
  if gone then failNode env d1 e.node else d1

/-- A stream of a tile. -/
def Dev.stream (d : Dev) (t s : Nat) : List NEntry := vget (d.tile t).nq [] s

/-- The entry at a position of a stream completes. -/
def endEntry (t s i : Nat) (d : Dev) : Dev := d.onTile t fun y => { y with nq := vset y.nq s ((d.stream t s).eraseIdx i) }

/-- The entry at a position of a stream completes as failed (R160, R281). -/
def failEntry (env : Env) (t s i : Nat) (e : NEntry) (code : Nat) (addr : Dword) (d : Dev) : Dev :=
  remRecord env t s e code addr (markFailed t s e.serial ((d.stream t s).take i) ((d.stream t s).drop (i + 1)) d)

/-! ### The owner of a page (R346 to R349) -/

/-- The stub of this device for a page (R352). -/
def stubOf (d : Dev) (vf : BitVec 10) (page : BitVec 55) : Option Stub :=
  d.mig.stubs.find? fun x => x.vf == vf && x.page == page

/-- The owner cache's answer, and the cache with that entry used last (R349). -/
def ownerHit (d : Dev) (vf : BitVec 10) (page : BitVec 55) : Option (BitVec 6 × Dev) :=
  match d.owners.find? fun e => e.1 == vf && e.2.1 == page with
  | none => none
  | some e => some (e.2.2, { d with owners := e :: d.owners.filter fun x => !(x.1 == vf && x.2.1 == page) })

/-- The device a remote word is sent to (R349): this device when it is the owner or a stub of its own stands for the page,
else the cached owner, else the home. -/
def remDest (env : Env) (w : Who) (write : Bool) (va : Dword) (d : Dev) : Res (BitVec 6) :=
  let here := env.caps.devid
  match translate env d w { write := write, remote := true } va with
  | .ok _ _ => .ok here (keepTlb env d w va)
  | .promo _ => .ok here d
  | .frozen => .ok here d
  | .fault c =>
    if c = cFrameOwner && (stubOf d w.vf (pageOf va)).isSome then .ok here d else .sys c va
  | .remote home =>
    let d1 := keepTlb env d w va
    if (stubOf d w.vf (pageOf va)).isSome then .ok here d1 else
    match ownerHit d1 w.vf (pageOf va) with
    | some (o, d2) => .ok o d2
    | none => .ok home d1

/-! ### Issue -/

/-- What a remote word asks for, with its operands as snapshots (R159). -/
structure RemReq where
  kind   : RKind
  va     : Dword
  s      : Nat
  local_ : Dword := 0
  flag   : Dword := 0
  body   : List Byte := []
  fl     : Bool := false
  ord    : Bool := false
  aop    : BitVec 4 := 0
  aw     : Bool := false

/-- OP of a request (R280). -/
def rkOp : RKind → BitVec 8
  | .rld => 0x01
  | .rst => 0x03
  | .rstf => 0x04
  | .ramo => 0x05

/-- A stream has no room for another access of a kind (R159). -/
def streamFull (l : List NEntry) (k : RKind) : Bool :=
  if k = .rld then decide (32 ≤ (l.filter fun e => !e.isNotify && e.kind == .rld).length)
  else decide (128 ≤ (l.filter (·.isStore)).length)

/-- The register of a remote flag's address must have zero in bits [63:55] (R130). -/
def flagReg (r : RemReq) (d : Dev) : Res Unit := if highBits r.flag = 0 then .ok () d else .sys cTranslation r.flag

/-- A packet of this device for a page waits for a path, so that a later access to the page may not pass it (R276, R304, R307). -/
def sendWaits (env : Env) (d : Dev) (vf : BitVec 10) (page : BitVec 55) : Bool :=
  d.later.any fun x => match x with
    | .send _ _ (.remote _ h _) _ => h.sdev == env.caps.devid && h.vf == vf && pageOf (zx h.va) == page
    | _ => false

/-- The checks of the local address of a remote word and of the register of its flag, in the order of its operands: RST reads 128 bytes as an ordinary load; RLD's and RAMO's replies are
written (R159, R305). -/
def remLocal (env : Env) (t : Nat) (r : RemReq) (d : Dev) : Res Unit :=
  let w := whoTile d t
  match r.kind with
  | .rld => (locate env d w { write := true } r.local_).bind fun _ d1 => .ok () d1
  | .rst => (locate env d w {} r.local_).bind fun _ d1 => flagReg r d1
  | .rstf => .ok () d
  | .ramo => (flagReg r d).bind fun _ d1 =>
    if r.local_ = 0 then .ok () d1 else (locate env d1 w { write := true } r.local_).bind fun _ d2 => .ok () d2

/-- The body of a request but for an ordered flag's counts: RST reads its local line (R159, R305). -/
def remBody (env : Env) (t : Nat) (r : RemReq) (d : Dev) : Res (List Byte) :=
  if r.kind = .rst then
    (locate env d (whoTile d t) {} r.local_).bind fun x d1 =>
      let vf := (d1.tile t).core.csr.vfid
      match x.1 with
      | .hbm pa => tileLine env d1 t vf x.2 (.hbm pa)
      | .spad u o => tileLine env d1 t vf x.2 (.spad u o)
      | .staging u o => tileLine env d1 t vf x.2 (.staging u o)
      | .port _ => .sys cTranslation r.local_
  else .ok r.body d

/-- The counts that an ordered flag carries (R161, R313): the latest PSN of its stream to its target on each path. -/
def ordCounts (y : Tile) (s : Nat) (dest : BitVec 6) : List Byte :=
  [0, 1, 2, 3].flatMap fun p => natLe 4 (y.core.net.psn.get 0 (psnKey s dest.toNat p)).toNat

/-- The entry of a remote word of the iteration that runs on a tile. -/
def newEntry (env : Env) (t : Nat) (r : RemReq) (dest : BitVec 6) (d : Dev) : NEntry :=
  let y := d.tile t
  let c := y.core
  { kind := r.kind, walk := (c.engine .a).walk, serial := c.iter.serial, node := c.iter.node, faultq := c.iter.faultq,
    asid := c.csr.asid, vf := c.csr.vfid, priv := (d.vf c.csr.vfid.toNat).priv, va := r.va, local_ := r.local_,
    flag := r.flag.setWidth 55, target := dest, via := dest, epoch := c.net.epoch, era := c.net.era, wide := r.aw
    hdr := { va := r.va.setWidth 55, flag := r.flag.setWidth 55, gen := vfGen d c.csr.vfid, vf := c.csr.vfid,
             stile := BitVec.ofNat 10 t, sdev := env.caps.devid, ddev := dest, stream := BitVec.ofNat 4 r.s,
             epoch := c.net.epoch, era := c.net.era, fl := r.fl, ord := r.ord, aop := r.aop, aw := r.aw, op := rkOp r.kind } }

/-- An access gets its path and its numbers, and leaves (R276, R282, R283, R313). -/
def launch (env : Env) (t : Nat) (r : RemReq) (e : NEntry) (p : BitVec 2) (body : List Byte) (d : Dev) : Dev :=
  let y := d.tile t
  let dest := e.target
  let store := r.kind != .rld
  let ssn := if store then y.core.net.ssn.get 0 (ssnKey r.s dest.toNat) + 1 else 0
  let psn := if store then y.core.net.psn.get 0 (psnKey r.s dest.toNat p.toNat) + 1 else 0
  let b := if r.ord then body ++ ordCounts y r.s dest else if r.kind = .rstf then body ++ List.replicate 16 0 else body
  let h := { e.hdr with path := p, ssn := ssn, psn := psn }
  let e1 := { e with path := p, ssn := ssn, psn := psn, hdr := h, body := b }
  let d0 := d.onTile t fun y => { y with nq := vset y.nq r.s (vget y.nq [] r.s ++ [e1]) }
  let d1 := if store then d0.onCore t fun c =>
      { c with net := { c.net with ssn := c.net.ssn.set (ssnKey r.s dest.toNat) ssn,
                                   psn := c.net.psn.set (psnKey r.s dest.toNat p.toNat) psn } } else d0
  sendRemote env d1 dest p h b

/-- A remote word once its operands have passed their checks (R159): translation, owner, room, issue. -/
def issueRem (env : Env) (t : Nat) (r : RemReq) (d : Dev) : Res Unit :=
  let w := whoTile d t
  (remDest env w (r.kind != .rld) r.va d).bind fun dest d1 =>
  (remLocal env t r d1).bind fun _ d2 =>
    if streamFull (d2.stream t r.s) r.kind then .wait Wait.idle d2
    else if sendWaits env d2 w.vf (pageOf r.va) then .wait Wait.idle d2
    else if dest = env.caps.devid && outstanding d2 w.vf (pageOf r.va) (fun x => x.via != dest) then .wait Wait.idle d2
    else
      let dead := !reachable env d2 dest.toNat || (dest != env.caps.devid && d2.peersLost.getLsbD dest.toNat)
      match (if dead then some 0 else pathFor env d2 t dest) with
      | none => .wait Wait.idle d2
      | some p =>
        if !dead && dest != env.caps.devid &&
          mustWait d2 p.toNat dest.toNat (.remote env.caps.devid (newEntry env t r dest d2).hdr []) (rkOp r.kind).toNat then
          .wait Wait.idle d2
        else (remBody env t r d2).bind fun body d3 =>
          let d4 := d3.onCore t (nameQueue (BitVec.ofNat 5 (8 + r.s)))
          let e := newEntry env t r dest d4
          if dead then .ok () (remRecord env t r.s e 0x25 r.va (markFailed t r.s (d4.tile t).core.iter.serial (d4.stream t r.s) [] d4))
          else .ok () (launch env t r e p body d4)

/-- An alignment check (R130). -/
def alignedOr (va : Dword) (n : Nat) (next : Res Unit) : Res Unit := if !aligned va n then misaligned va n else next

/-- RLD (R159). -/
def rldWord (a b : BitVec 5) (s : BitVec 4) (env : Env) (at_ : At) (d : Dev) : Res Unit :=
  let c := (d.tile at_.t).core
  alignedOr (c.a a) 128 <| alignedOr (c.a b) 128 <|
    issueRem env at_.t { kind := .rld, va := c.a a, s := s.toNat, local_ := c.a b } d

/-- RLD (R159). -/
def execRld (a b : BitVec 5) (s : BitVec 4) (st : State) : Host.Outcome State Fault Refusal :=
  aTry (.rld a b s) (rldWord a b s) st

/-- RST (R159). -/
def rstWord (a b : BitVec 5) (f : Bool) (s : BitVec 4) (env : Env) (at_ : At) (d : Dev) : Res Unit :=
  let c := (d.tile at_.t).core
  alignedOr (c.a a) 128 <| alignedOr (c.a b) 128 <| alignedOr (c.a (b + 1)) 16 <|
    issueRem env at_.t { kind := .rst, va := c.a a, s := s.toNat, local_ := c.a b, flag := c.a (b + 1), fl := f } d

/-- RST (R159). -/
def execRst (a b : BitVec 5) (f : Bool) (s : BitVec 4) (st : State) : Host.Outcome State Fault Refusal :=
  aTry (.rst a b f s) (rstWord a b f s) st

/-- RSTF (R159, R161). -/
def rstfWord (a b : BitVec 5) (o f : Bool) (s : BitVec 4) (env : Env) (at_ : At) (d : Dev) : Res Unit :=
  let c := (d.tile at_.t).core
  alignedOr (c.a a) 16 <|
    issueRem env at_.t { kind := .rstf, va := c.a a, s := s.toNat, body := natLe 8 (c.a b).toNat, fl := f, ord := o } d

/-- RSTF (R159). -/
def execRstf (a b : BitVec 5) (o f : Bool) (s : BitVec 4) (st : State) : Host.Outcome State Fault Refusal :=
  aTry (.rstf a b o f s) (rstfWord a b o f s) st

/-- A reserved value of RAMO's A[b] (R159). -/
def ramoBad (v : Dword) : Bool := bitsN v 5 59 != 0 || decide (10 ≤ bitsN v 0 4) || (bitsN v 0 4 == 9 && v.getLsbD 4)

/-- RAMO (R159). -/
def ramoWord (a b : BitVec 5) (f : Bool) (s : BitVec 4) (env : Env) (at_ : At) (d : Dev) : Res Unit :=
  let c := (d.tile at_.t).core
  let v := c.a b
  alignedOr (c.a a) (if v.getLsbD 4 then 8 else 4) <| alignedOr (c.a (b + 2)) 16 <| alignedOr (c.a (b + 3)) 8 <|
    if ramoBad v then aShape 0 v else
    issueRem env at_.t
      { kind := .ramo, va := c.a a, s := s.toNat, local_ := c.a (b + 3), flag := c.a (b + 2), body := natLe 8 (c.a (b + 1)).toNat,
        fl := f, aop := BitVec.ofNat 4 (bitsN v 0 4), aw := v.getLsbD 4 } d

/-- RAMO (R159). -/
def execRamo (a b : BitVec 5) (f : Bool) (s : BitVec 4) (st : State) : Host.Outcome State Fault Refusal :=
  aTry (.ramo a b f s) (ramoWord a b f s) st

end Sys2Proof.Machine
end

