-- ==== Sys2Proof/Machine/Remote.lean ====
section
/-! DEFINITION. Remote accesses at their target and at the relays between: service, acknowledgements, ordered flags, relaying,
and the answers at the issuer (R160, R161, R279 to R283, R302 to R307, R313, R314, R346 to R351, R356 to R359). -/

namespace Sys2Proof.Machine

/-! ### Packets that have arrived -/

/-- A packet that has arrived and is a remote packet of one of some kinds: its flight, header and body. -/
def flightOf (d : Dev) (k : Nat) (ops : List Nat) : Option (Flight × RHdr × List Byte) :=
  match d.flights[k]? with
  | none => none
  | some f =>
    match f.pkt with
    | .remote _ h b => if ops.contains h.op.toNat then some (f, h, b) else none
    | .xfer _ _ _ => none

/-- A packet that has arrived is done with: the allowance of the buffers that its end frees goes back (R279). -/
def dropFlight (env : Env) (k : Nat) (d : Dev) : Dev :=
  match d.flights[k]? with
  | none => d
  | some f =>
    let d1 := { d with flights := d.flights.eraseIdx k }
    if f.src = env.caps.devid || f.units = 0 then d1 else
    let cls := match f.pkt with
      | .remote _ h _ => opClass h.op.toNat
      | .xfer _ _ _ => .req
    let l := d1.link f.path.toNat f.src.toNat
    ackFlit (d1.setLink f.path.toNat f.src.toNat { l with ret := vset l.ret (clsIdx cls) (vget l.ret 0 (clsIdx cls) + f.units) })
      f.path.toNat f.src.toNat

/-- An attempt that waits leaves the packet where it is and only starts promotions (R344). -/
def orWait (d : Dev) (r : Res Unit) : Dev := attempt d r

/-! ### Answers -/

/-- The header of an answer to a request: it goes back to the requester, with the request's numbers (R280). -/
def ansHdr (d : Dev) (h : RHdr) (op : BitVec 8) : RHdr :=
  { h with sdev := h.ddev, ddev := h.sdev, gen := vfGen d h.vf, flag := 0, fl := false, ord := false, aop := 0, aw := false,
           op := op }

/-- Send an answer to where the request came from, on its path (R276, R350), with the PATH under which the request was numbered (R283); an owner
message names the page (R351). -/
def answer (env : Env) (f : Flight) (h : RHdr) (op : BitVec 8) (body : List Byte) (d : Dev) : Dev :=
  let va := if op = 0x17 || op = 0x1A then pageOf (zx h.va) else h.va
  sendTo env d f.src f.path (.remote env.caps.devid { ansHdr d h op with va := va } body) op.toNat

/-- FAIL with a code (R281); a flag's fault names the flag. -/
def answerFail (env : Env) (f : Flight) (h : RHdr) (va : BitVec 55) (code : Nat) (d : Dev) : Dev :=
  answer env f { h with va := va } 0x09 (natLe 8 code) d

/-! ### Stream state (R282, R283, R302) -/

/-- The key of the state of a stream: issuing device, tile, stream and epoch (R283), where a new epoch whose number has come round again is
another (DESIGN CHOICE, unsafe: log entry 112). -/
def streamKey (h : RHdr) : Nat :=
  h.sdev.toNat + 64 * (h.stile.toNat + 1024 * (h.stream.toNat + 16 * (h.epoch.toNat + 256 * h.era)))

/-- A number is at or past another, modulo 2^32 (R282). -/
def newer (a b : Word) : Bool := decide ((a - b).toNat < 2 ^ 31)

/-- OP of the request a relayed request carries, and its hop count (R351). -/
def reqOf (op : Nat) : Nat × Nat :=
  if op < 0x10 then (op, 0) else if op < 0x18 then (op - 0x10, 1) else (op - 0x18, 2)

/-- A state with nothing open: its stores are performed and it holds no flag (R283). -/
def StreamSt.idle (x : StreamSt) : Bool :=
  x.done.isEmpty && x.qdone.toList.all (·.isEmpty) && x.held.isEmpty && x.want.isEmpty

/-- The state of a stream at its target; a new epoch starts empty, and takes the place of an old one of its number that has nothing open
(R283). -/
def openStream (h : RHdr) (d : Dev) : Dev :=
  match d.streams.find (streamKey h) with
  | some _ => d
  | none => { d with streams := (d.streams.keep fun k x => !(k % 2 ^ 28 == streamKey h % 2 ^ 28 && x.idle)).set (streamKey h) {} }

/-- A performed prefix takes in the numbers performed ahead of it. -/
def advance : Nat → Word → List Word → Word × List Word
  | 0, p, l => (p, l)
  | n + 1, p, l => if l.contains (p + 1) then advance n (p + 1) (l.erase (p + 1)) else (p, l)

/-- The counts of an ordered flag are met (R283). -/
def countsMet (q counts : Vector Word 4) : Bool := (List.range 4).all fun p => newer (vget q 0 p) (vget counts 0 p)

/-- SACK of a prefix on a path (R282). (DEDUCED, unsafe: log entry 47) -/
def sendSack (env : Env) (h : RHdr) (path : BitVec 2) (p : Word) (d : Dev) : Dev :=
  sendRemote env d h.sdev path
    { gen := vfGen d h.vf, vf := h.vf, stile := h.stile, sdev := env.caps.devid, ddev := h.sdev, stream := h.stream, ssn := p,
      epoch := h.epoch, era := h.era, op := 0x07 } []

/-- Acknowledge what a prefix covers: each multiple of 64, stores with FL, and what a FLUSH named (R282). -/
def ackStream (env : Env) (h : RHdr) (old : Word) (path : BitVec 2) (d : Dev) : Dev :=
  let st := d.streams.get {} (streamKey h)
  let due := st.want.filter fun w => newer st.p w.1
  let d1 := { d with streams := d.streams.set (streamKey h) { st with want := st.want.filter fun w => !newer st.p w.1 } }
  match due with
  | w :: _ => sendSack env h w.2 st.p d1
  | [] => if old.toNat / 64 != st.p.toNat / 64 then sendSack env h path st.p d1 else d1

/-- A store counts as performed in the prefixes of this device, which is the one named in its DDEV (R282, R283, R307). -/
def countStore (env : Env) (h : RHdr) (path : BitVec 2) (d0 : Dev) : Dev :=
  let d := openStream h d0
  let st := d.streams.get {} (streamKey h)
  let (p, done) := advance (st.done.length + 1) st.p (st.done ++ [h.ssn])
  let k := h.path.toNat
  let (q, qdone) := advance ((vget st.qdone [] k).length + 1) (vget st.q 0 k) (vget st.qdone [] k ++ [h.psn])
  let st1 := { st with p := p, done := done, q := vset st.q k q, qdone := vset st.qdone k qdone,
                       want := if h.fl then st.want ++ [(h.ssn, path)] else st.want }
  ackStream env h st.p path { d with streams := d.streams.set (streamKey h) st1 }

/-! ### Service at the target -/

/-- The entry of this device that an answer or a request of its own belongs to: its position in its stream (R160). -/
def entryPos (d : Dev) (t : Nat) (s : Nat) (p : NEntry → Bool) : Option Nat :=
  (d.stream t s).findIdx? fun e => !e.isNotify && p e

/-- The entry of a request this device issued, with its position. -/
def entryOf (d : Dev) (target : BitVec 6) (h : RHdr) (rld : Bool) : Option (Nat × NEntry) :=
  let ok (e : NEntry) : Bool := e.epoch == h.epoch && e.era == h.era && e.target == target &&
    (if rld then e.kind == .rld && e.path == h.path && e.va == zx h.va
     else e.isStore && e.ssn == h.ssn)
  match entryPos d h.stile.toNat h.stream.toNat ok with
  | none => none
  | some i => ((d.stream h.stile.toNat h.stream.toNat)[i]?).map fun e => (i, e)

/-- On whose behalf a request is served: under the ASID bound to its VF in RASID (R280, R327), one of this device's own under
the ASID it was issued with (R159). -/
def servWho (env : Env) (d : Dev) (h : RHdr) (rld : Bool) : Who :=
  let v := d.vf h.vf.toNat
  if h.sdev = env.caps.devid then
    let asid := match entryOf d h.ddev h rld with
      | some (_, e) => e.asid
      | none => v.asid
    { tile := h.stile.toNat, unit := .access h.stile.toNat, asid := asid, vf := h.vf, priv := v.priv }
  else { tile := 640, asid := v.rasid, vf := h.vf, priv := v.priv }

/-- What a device does with a request (R350). -/
inductive Fate where
  | serve (loc : Loc) (cls : BitVec 4)
  | fail (code : Nat)
  | queue
  | wait (p : Promo)
  | relay (dest : BitVec 6) (stub : Bool)
  | reresolve
  deriving DecidableEq, Repr

/-- The home that the leaf of a page names, whatever its kind (R346); this device where the page has no leaf. (DEDUCED, unsafe: log entry
64) -/
def homeOf (env : Env) (d : Dev) (w : Who) (va : Dword) : BitVec 6 :=
  match leafFor env d w.unit w.asid va with
  | .leaf x _ => BitVec.ofNat 6 (bitsN x 56 6)
  | .fault _ => env.caps.devid
  | .frozen => env.caps.devid

/-- The fate of a request with a hop count at this device (R350). A page of kind 00 on a frame that its VF does not own is not owned here
(R346); where the directory knows no other owner, the fault stands (R281). -/
def fateOf (env : Env) (d : Dev) (h : RHdr) (base hop : Nat) : Fate :=
  let own := h.sdev = env.caps.devid
  let w := servWho env d h (base == 1)
  let page := pageOf (zx h.va)
  if !own && !(d.vf h.vf.toNat).rasidV then .fail cTranslation else
  match stubOf d h.vf page with
  | some s => if hop ≤ 1 then .relay s.dest true else .reresolve
  | none =>
    match translate env d w { write := base != 1, remote := true } (zx h.va) with
    | .ok loc cls => .serve loc cls
    | .fault c =>
      let o := dirOwner env d h.vf page
      if c != cFrameOwner || inWindow (zx h.va) then .fail c
      else if homeOf env d w (zx h.va) != env.caps.devid then .reresolve
      else if dirWaits env d h.vf page then .queue
      else if o = env.caps.devid then .fail c
      else if hop ≤ 1 then .relay o false else .reresolve
    | .promo p => .wait p
    | .frozen => .queue
    | .remote home =>
      let o := dirOwner env d h.vf page
      if home = env.caps.devid && dirWaits env d h.vf page then .queue
      else if home = env.caps.devid && hop ≤ 1 && o != env.caps.devid then .relay o false else .reresolve

/-- The flag update that an RST or RAMO names, after its data access (R281, R303): the code of a fault, 0 for none. -/
def remFlag (env : Env) (w : Who) (ag : Agent) (h : RHdr) (d : Dev) : Res Nat :=
  if h.flag = 0 then .ok 0 d else
  match flagUpdate env d w ag (zx h.flag) 1 (h.vf.toNat * 2 ^ 22 + h.sdev.toNat * 2 ^ 16 + h.stile.toNat) with
  | .ok _ d1 => .ok 0 d1
  | .wait x d1 => .wait x d1
  | .sys c va => .ok c (keepTlb env d w va)
  | .trap _ _ _ _ _ => .ok 0 d
  | .roll _ => .ok 0 d

/-- RAMO's new value (R137, R138, R159). -/
def ramoNew (h : RHdr) (old b : Nat) : Nat :=
  match h.aop.toNat with
  | 0 => amoAdd h.aw old b
  | 1 => b
  | 2 => amoLogic 0 old b
  | 3 => amoLogic 1 old b
  | 4 => amoLogic 2 old b
  | 5 => amoMinMax h.aw 0 old b
  | 6 => amoMinMax h.aw 1 old b
  | 7 => amoMinMax h.aw 2 old b
  | 8 => amoMinMax h.aw 3 old b
  | _ => amoFadd old b

/-- A request performed at its home (R302, R303): the code of a fault in its flag, and the bytes of its reply. -/
def serveAt (env : Env) (w : Who) (h : RHdr) (base : Nat) (body : List Byte) (loc : Loc) (cls : BitVec 4) (d : Dev) :
    Res (Nat × List Byte) :=
  let ag : Agent := .stream (streamKey h)
  let x := leNat (body.take 8)
  match base with
  | 1 => let (b, d1) := loadSpan env ag h.vf cls 3 d loc 128; .ok (0, b) d1
  | 3 => (remFlag env w ag h (storeSpan env ag h.vf cls 3 d loc body)).bind fun c d1 => .ok (c, []) d1
  | 4 =>
    let setter := h.vf.toNat * 2 ^ 22 + h.sdev.toNat * 2 ^ 16 + h.stile.toNat
    .ok (0, []) (atomicAt env d ag h.vf cls loc 16 (flagAdd x setter)).2
  | _ =>
    let n := if h.aw then 8 else 4
    let (old, d1) := atomicAt env d ag h.vf cls loc n fun o => natLe n (ramoNew h (leNat o) (cutTo h.aw (dw x)))
    (remFlag env w ag h d1).bind fun c d2 => .ok (c, natLe 8 (leNat old)) d2

/-- A store has been performed, or has failed, at this device: counted here when its DDEV names this device, else reported
with PERFORMED, which a FAIL stands in for (R281, R307, R350). -/
def storeDone (env : Env) (f : Flight) (h : RHdr) (base : Nat) (failed : Bool) (d : Dev) : Dev :=
  if base = 1 then d
  else if h.ddev = env.caps.devid then countStore env h f.path d
  else if failed then d
  else answer env f h 0x1A [] d

/-- The answer to a served request: a reply, or FAIL for a fault in its flag (R281). -/
def servedAnswer (env : Env) (f : Flight) (h : RHdr) (base code : Nat) (b : List Byte) (d : Dev) : Dev :=
  if code != 0 then storeDone env f h base true (answerFail env f h h.flag code d)
  else
    let d1 := if base = 1 then answer env f h 0x02 b d else if base = 5 then answer env f h 0x06 b d else d
    storeDone env f h base false d1

/-- The network path of the issuing tile moves with the stream agent of its own device (R306, R309): before and after. -/
def syncOwn (env : Env) (h : RHdr) (d : Dev) : Dev :=
  if h.sdev != env.caps.devid then d else
  let a : Agent := .tile h.stile.toNat 4
  let b : Agent := .stream (streamKey h)
  let x := dmax (getPts d a) (getPts d b)
  setPts (setPts d a x) b x

/-- A request is performed and answered; `take` takes it from where it waited. -/
def serveReq (env : Env) (take : Dev → Dev) (f : Flight) (h : RHdr) (base : Nat) (body : List Byte) (loc : Loc) (cls : BitVec 4)
    (d : Dev) : Dev :=
  let d0 := syncOwn env h (openStream h d)
  orWait d ((serveAt env (servWho env d h (base == 1)) h base body loc cls d0).bind fun r d1 =>
    .ok () (servedAnswer env f h base r.1 r.2 (syncOwn env h (take d1))))

/-- The REDIRECT that a relay sends to the requester (R350, R358). -/
def sendRedirect (env : Env) (f : Flight) (h : RHdr) (dest : BitVec 6) (d : Dev) : Dev :=
  sendRemote env d h.sdev f.path
    { va := pageOf (zx h.va), gen := vfGen d h.vf, vf := h.vf, stile := h.stile, sdev := env.caps.devid, ddev := h.sdev,
      stream := h.stream, epoch := h.epoch, era := h.era, op := 0x16 } (natLe 8 dest.toNat)

/-- Add to RELAYCNT (R356). -/
def countRelay (stub : Bool) (d : Dev) : Dev :=
  let x := d.mig.relaycnt
  let lo := if stub then min (bitsN x 0 32 + 1) 0xFFFFFFFF else bitsN x 0 32
  let hi := if stub then bitsN x 32 32 else min (bitsN x 32 32 + 1) 0xFFFFFFFF
  { d with mig := { d.mig with relaycnt := dw (hi * 2 ^ 32 + lo) } }

/-- This device's own access travels on through another device (R359). -/
def ownVia (env : Env) (h : RHdr) (dest : BitVec 6) (rld : Bool) (d : Dev) : Dev :=
  if h.sdev != env.caps.devid then d else
  match entryOf d h.ddev h rld with
  | some (i, e) => d.onTile h.stile.toNat fun y =>
      { y with nq := vset y.nq h.stream.toNat ((vget y.nq [] h.stream.toNat).set i { e with via := dest }) }
  | none => d

/-- A request is relayed with one hop more, on its path (R307, R350, R351); to a device that no path reaches it fails. -/
def relayReq (env : Env) (take : Dev → Dev) (f : Flight) (h : RHdr) (base hop : Nat) (body : List Byte) (dest : BitVec 6) (stub : Bool)
    (d : Dev) : Dev :=
  let op := BitVec.ofNat 8 (0x10 + 8 * hop + base)
  let next : Packet := .remote env.caps.devid { h with op := op } body
  if dest != env.caps.devid && mustWait d f.path.toNat dest.toNat next op.toNat then d else
  let d1 := take d
  if !reachable env d dest.toNat || d.peersLost.getLsbD dest.toNat then
    storeDone env f h base true (answerFail env f h h.va 0x25 d1)
  else
    let d2 := { ownVia env h dest (base == 1) d1 with relays := d1.relays ++ [{ hdr := h, prev := f.src, dest := dest, path := f.path }] }
    countRelay stub (sendTo env (sendRedirect env f h dest d2) dest f.path next op.toNat)

/-- An earlier packet that has arrived holds a request back: one queued or to be relayed on its page, or one of its stream on
its path for its line (R304 case 1, R307, R350). A flag that is held holds nothing back (R314). -/
def heldBack (d : Dev) (k : Nat) (h : RHdr) (path : BitVec 2) (relay : Bool) : Bool :=
  (d.flights.take k).any fun g =>
    match g.pkt with
    | .xfer _ _ _ => false
    | .remote _ x _ =>
      [1, 3, 4, 5].contains (reqOf x.op.toNat).1 &&
        ((x.vf == h.vf && pageOf (zx x.va) == pageOf (zx h.va) && (g.held || relay)) ||
         (x.sdev == h.sdev && x.stile == h.stile && x.stream == h.stream && g.path == path &&
            x.va.toNat / 128 == h.va.toNat / 128))

/-- A request queued behind a freeze, counted once in FRZQ (R350, R356). (DEDUCED, unsafe: log entry 41) -/
def queueReq (k : Nat) (f : Flight) (d : Dev) : Dev :=
  if f.held then d else
  { d with flights := d.flights.set k { f with held := true }, mig := { d.mig with frzq := sat32 d.mig.frzq 1 } }

/-- An ordered flag whose counts are not met is held (R283, R314). -/
def holdFlag (env : Env) (k : Nat) (f : Flight) (h : RHdr) (body : List Byte) (d : Dev) : Option Dev :=
  if !h.ord || h.ddev != env.caps.devid then none else
  let d1 := openStream h d
  let st := d1.streams.get {} (streamKey h)
  let counts : Vector Word 4 := Vector.ofFn fun p => BitVec.ofNat 32 (leNat ((body.drop (8 + 4 * p.val)).take 4))
  if countsMet st.q counts then none else
  let x : Held := { hdr := h, inc := dw (leNat (body.take 8)), counts := counts, src := f.src, path := f.path }
  some (dropFlight env k { d1 with streams := d1.streams.set (streamKey h) { st with held := st.held ++ [x] } })

/-- A store with FL that is to be performed by way of another device wants its SACK once P covers it, where it is numbered here (R282, R350). -/
def wantSack (env : Env) (h : RHdr) (path : BitVec 2) (d : Dev) : Dev :=
  if h.fl && h.ddev = env.caps.devid then
    let d1 := openStream h d
    let st := d1.streams.get {} (streamKey h)
    { d1 with streams := d1.streams.set (streamKey h) { st with want := st.want ++ [(h.ssn, path)] } }
  else d

/-- RERESOLVE (R350): the store stays numbered here. -/
def reresolveReq (env : Env) (take : Dev → Dev) (f : Flight) (h : RHdr) (d : Dev) : Dev :=
  wantSack env h f.path (answer env f h 0x17 [] (take d))

/-- A request meets its fate; `wait` is what becomes of it on a frozen page (R281, R350). -/
def meetFate (env : Env) (take wait : Dev → Dev) (f : Flight) (h : RHdr) (base hop : Nat) (body : List Byte) (fate : Fate) (d : Dev) : Dev :=
  match fate with
  | .serve loc cls => serveReq env take f h base body loc cls d
  | .fail code =>
    storeDone env f h base true (answerFail env f h h.va code (take (keepTlb env d (servWho env d h (base == 1)) (zx h.va))))
  | .queue => wait d
  | .wait p => startPromo d p
  | .relay dest stub => relayReq env take f h base hop body dest stub d
  | .reresolve => reresolveReq env take f h d

/-- A request that has arrived as packet k meets its fate (R281, R350). (DEDUCED, unsafe: log entry 40) -/
def meetReq (env : Env) (k : Nat) (f : Flight) (h : RHdr) (body : List Byte) (d : Dev) : Dev :=
  let (base, hop) := reqOf h.op.toNat
  let fate := fateOf env d h base hop
  let relay := match fate with | .relay _ _ => true | _ => false
  if vfGen d h.vf != h.gen then dropFlight env k d
  else if fate == .queue then queueReq k f d
  else if heldBack d k h f.path relay then d
  else match holdFlag env k f h body d with
    | some d1 => d1
    | none => meetFate env (dropFlight env k) (queueReq k f) f h base hop body fate d

/-- A held ordered flag whose counts are met is performed (R283, R314): it stays held while its page is promoted or frozen. -/
def freeFlag (env : Env) (key : Nat) (d : Dev) (x : Held) : Dev :=
  let st := d.streams.get {} key
  if !st.held.contains x || !countsMet st.q x.counts then d else
  let h := { x.hdr with ord := false }
  let (base, hop) := reqOf h.op.toNat
  let body := natLe 8 x.inc.toNat ++ List.replicate 16 0
  let take (d : Dev) : Dev :=
    let st := d.streams.get {} key
    { d with streams := d.streams.set key { st with held := st.held.erase x } }
  meetFate env take id { pkt := .remote x.src h body, src := x.src, path := x.path } h base hop body (fateOf env d h base hop) d

/-- Ordered flags whose counts are met are performed, one after another; n bounds how many make way for others. -/
def freeFlags (env : Env) : Nat → Dev → Dev
  | 0, d => d
  | n + 1, d =>
    let d1 := d.streams.entries.foldl (fun d e => e.2.held.foldl (freeFlag env e.1) d) d
    if d1.streams == d.streams then d1 else freeFlags env n d1

/-- What follows a store that has been counted: ordered flags that waited for it (R283, R314). -/
def countedOut (env : Env) (d : Dev) : Dev := freeFlags env (d.streams.entries.foldl (fun a e => a + e.2.held.length) 0) d

/-- A request of one of some kinds arrives. -/
def requestArrives (ops : List Nat) (env : Env) (d : Dev) : Dev :=
  match flightOf d env.unit ops with
  | some (f, h, b) => countedOut env (meetReq env env.unit f h b d)
  | none => d

/-- RLD_REQUEST (R280, R302). -/
def execRldRequest (s : State) : Host.Outcome State Fault Refusal := s.run (requestArrives [0x01])
/-- RST_ARRIVAL (R282, R303). -/
def execRstArrival (s : State) : Host.Outcome State Fault Refusal := s.run (requestArrives [0x03])
/-- RSTF_ARRIVAL (R283, R303). -/
def execRstfArrival (s : State) : Host.Outcome State Fault Refusal := s.run (requestArrives [0x04])
/-- RAMO_REQUEST (R280, R303). -/
def execRamoRequest (s : State) : Host.Outcome State Fault Refusal := s.run (requestArrives [0x05])
/-- RELAYED_REQUEST (R350). -/
def execRelayedRequest (s : State) : Host.Outcome State Fault Refusal :=
  s.run (requestArrives [0x11, 0x13, 0x14, 0x15, 0x19, 0x1B, 0x1C, 0x1D])

/-- A FLUSH arrives (R282, R351). -/
def flushArrives (env : Env) (d : Dev) : Dev :=
  match flightOf d env.unit [0x08] with
  | none => d
  | some (f, h, _) =>
    let d1 := dropFlight env env.unit d
    if vfGen d h.vf != h.gen then d1 else
    let d2 := openStream h d1
    let st := d2.streams.get {} (streamKey h)
    if newer st.p h.ssn then sendSack env h f.path st.p d2
    else { d2 with streams := d2.streams.set (streamKey h) { st with want := st.want ++ [(h.ssn, f.path)] } }

/-- FLUSH (R282). -/
def execFlush (s : State) : Host.Outcome State Fault Refusal := s.run flushArrives

/-! ### Answers on their way back -/

/-- The relay of this device that an answer belongs to (R350). -/
def relayPos (d : Dev) (f : Flight) (h : RHdr) : Option Nat :=
  d.relays.findIdx? fun r =>
    r.dest == f.src && r.hdr.sdev == h.ddev && r.hdr.ddev == h.sdev && r.hdr.stile == h.stile && r.hdr.stream == h.stream &&
      r.hdr.epoch == h.epoch && r.hdr.era == h.era && r.hdr.ssn == h.ssn && r.hdr.psn == h.psn && r.hdr.path == h.path &&
      (h.ssn != 0 || (if h.op = 0x17 then pageOf (zx r.hdr.va) == h.va else r.hdr.va == h.va))

/-- An answer passes through a relay in reverse (R350). A RAMO's reply leaves the report still to come; the report of a store
whose DDEV is this device is counted here and goes no further; one of those that is answered RERESOLVE stays numbered here. -/
def relayBack (env : Env) (k i : Nat) (r : Relay) (f : Flight) (h : RHdr) (b : List Byte) (d : Dev) : Dev :=
  let d1 := dropFlight env k d
  let op := h.op.toNat
  let d2 := if op = 0x06 then d1 else { d1 with relays := d1.relays.eraseIdx i }
  let mine := r.hdr.ddev = env.caps.devid && (reqOf r.hdr.op.toNat).1 != 1
  let d3 := if mine && (op = 0x1A || op = 0x09) then countStore env r.hdr r.path d2
    else if op = 0x17 then wantSack env r.hdr r.path d2 else d2
  if mine && op = 0x1A then d3 else sendTo env d3 r.prev f.path (.remote env.caps.devid h b) op

/-- An answer ahead of the k-th packet on its path comes first: a REDIRECT or a RERESOLVE, or one of its own kind for the same address of the
same stream (R277, R307, R358). -/
def answerAhead (d : Dev) (k : Nat) (f : Flight) (h : RHdr) : Bool :=
  (d.flights.take k).any fun g =>
    g.src == f.src && g.path == f.path && match g.pkt with
      | .remote _ x _ => x.op == 0x16 || x.op == 0x17 || (x.op == h.op && x.va == h.va && x.stile == h.stile && x.stream == h.stream)
      | .xfer _ _ _ => false

/-- An answer of one of some kinds arrives: through a relay, or at the issuer. -/
def answerArrives (ops : List Nat) (mine : Env → Flight → RHdr → List Byte → Dev → Dev) (env : Env) (d : Dev) : Dev :=
  match flightOf d env.unit ops with
  | none => d
  | some (f, h, b) =>
    if vfGen d h.vf != h.gen then dropFlight env env.unit d
    else if answerAhead d env.unit f h then d else
    match relayPos d f h with
    | some i =>
      match d.relays[i]? with
      | some r => countedOut env (relayBack env env.unit i r f h b d)
      | none => d
    | none => countedOut env (mine env f h b d)

/-- The entry of an access that was sent again and whose report is still to come goes to the reports that are awaited (R350). -/
def keepReport (e : NEntry) (d : Dev) : Dev := if e.reissued && e.isStore then { d with reports := d.reports ++ [e] } else d

/-- Bytes of a write of one page by an agent other than an engine, a unit of coherence at a time (R243, R308). -/
def sentSpan (env : Env) (ag : Agent) (vf : BitVec 10) (cls : BitVec 4) : Nat → Dev → Loc → List Byte → Dev
  | 0, d, _, _ => d
  | f + 1, d, loc, b =>
    if b.isEmpty then d else
    let k := min b.length (loc.unit - loc.inUnit)
    sentSpan env ag vf cls f (sentMark env d ag vf cls true loc (b.take k)).1 (loc.plus k) (b.drop k)

/-- A reply's bytes, of one line, are written at the issuer on the network path, which completes the access (R160, R305); to device memory they
cost a token of the issuing tile (R269). A fault there fails it and keeps the translation (R236). -/
def writeReply (env : Env) (t s i : Nat) (e : NEntry) (b : List Byte) (d : Dev) : Res Unit :=
  let w : Who := { tile := t, unit := .access t, asid := e.asid, vf := e.vf, priv := e.priv }
  match locate env d w { write := true } e.local_ with
  | .ok (loc, cls) d1 =>
    match payToken d1 t loc with
    | none => .wait Wait.share d1
    | some d2 => .ok () (keepReport e (endEntry t s i (sentSpan env (.tile t 4) e.vf cls (b.length + 1) d2 loc b)))
  | .wait x d1 => .wait x d1
  | .sys c va => .ok () (keepReport e (failEntry env t s i e c va (keepTlb env d w va)))
  | .trap _ _ _ _ _ => .ok () d
  | .roll _ => .ok () d

/-- A reply at the issuer (R160). -/
def replyMine (rld : Bool) (env : Env) (_ : Flight) (h : RHdr) (b : List Byte) (d : Dev) : Dev :=
  let d1 := dropFlight env env.unit d
  match entryOf d h.sdev h rld with
  | none => d1
  | some (i, e) =>
    if e.local_ = 0 then d1 else
    orWait d (writeReply env h.stile.toNat h.stream.toNat i e
      (if rld then b else natLe 8 (extend (if e.wide then 8 else 4) false (leNat (b.take 8))).toNat) d1)

/-- RLD_REPLY (R160). -/
def execRldReply (s : State) : Host.Outcome State Fault Refusal := s.run (answerArrives [0x02] (replyMine true))
/-- RAMO_REPLY (R160). -/
def execRamoReply (s : State) : Host.Outcome State Fault Refusal := s.run (answerArrives [0x06] (replyMine false))

/-- An answer's report goes on to the device named in DDEV, or is counted here when that is this device (R350). -/
def forwardReport (env : Env) (e : NEntry) (h : RHdr) (b : List Byte) (d : Dev) : Dev :=
  if e.target = env.caps.devid then countStore env e.hdr e.path d
  else sendTo env d e.target e.path (.remote env.caps.devid h b) h.op.toNat

/-- The device named in DDEV takes a report that the requester forwarded (R350). -/
def takeReport (env : Env) (f : Flight) (h : RHdr) (d : Dev) : Dev :=
  countStore env { h with sdev := h.ddev, ddev := h.sdev } f.path d

/-- PERFORMED where no relay passes it on (R350): the report of an access that was sent again goes on, whether its reply is still to come
or has come. -/
def performedMine (env : Env) (f : Flight) (h : RHdr) (b : List Byte) (d : Dev) : Dev :=
  let d1 := dropFlight env env.unit d
  if h.ddev = env.caps.devid then
    match entryOf d1 h.sdev h false with
    | some (i, e) =>
      if e.reissued then
        forwardReport env e h b (d1.onTile h.stile.toNat fun y =>
          { y with nq := vset y.nq h.stream.toNat ((vget y.nq [] h.stream.toNat).set i { e with reissued := false, via := e.target }) })
      else d1
    | none =>
      match d1.reports.find? fun e => e.hdr.stile == h.stile && e.hdr.stream == h.stream && e.epoch == h.epoch && e.era == h.era && e.target == h.sdev &&
          e.ssn == h.ssn with
      | some e => forwardReport env e h b { d1 with reports := d1.reports.erase e }
      | none => d1
  else if h.sdev = env.caps.devid then takeReport env f h d1
  else d1

/-- PERFORMED (R350). -/
def execPerformed (s : State) : Host.Outcome State Fault Refusal := s.run (answerArrives [0x1A] performedMine)

/-- The entry a FAIL or a RERESOLVE answers: a load's has no number. -/
def answered (d : Dev) (h : RHdr) : Option (Nat × NEntry) :=
  if h.ssn = 0 then
    match entryOf d h.sdev h true with
    | some x => some x
    | none => entryOf d h.sdev h false
  else entryOf d h.sdev h false

/-- FAIL at the issuer, or forwarded to the device named in DDEV (R281, R350). (DEDUCED, unsafe: log entry 39) -/
def failMine (env : Env) (f : Flight) (h : RHdr) (b : List Byte) (d : Dev) : Dev :=
  let d1 := dropFlight env env.unit d
  if h.ddev = env.caps.devid then
    match answered d1 h with
    | none => moveFails env h (leNat (b.take 1)) d1
    | some (i, e) =>
      let d2 := failEntry env h.stile.toNat h.stream.toNat i e (leNat (b.take 1)) (zx h.va) d1
      if e.reissued && e.isStore then forwardReport env e h b d2 else d2
  else if h.sdev = env.caps.devid && h.ssn != 0 then takeReport env f h d1
  else d1

/-- FAIL (R281). -/
def execFail (s : State) : Host.Outcome State Fault Refusal := s.run (answerArrives [0x09] failMine)

/-- A SACK completes the stores of its stream up to its number (R160, R282): a RAMO that writes its old value completes when
that is written. -/
def sackArrives (env : Env) (d : Dev) : Dev :=
  match flightOf d env.unit [0x07] with
  | none => d
  | some (_, h, _) =>
    let d1 := dropFlight env env.unit d
    if vfGen d h.vf != h.gen then d1 else
    let t := h.stile.toNat
    let s := h.stream.toNat
    let done (e : NEntry) : Bool := e.isStore && e.epoch == h.epoch && e.era == h.era && e.target == h.sdev && newer h.ssn e.ssn &&
      !(e.kind == .ramo && e.local_ != 0)
    d1.onTile t fun y => { y with nq := vset y.nq s ((vget y.nq [] s).filter fun e => !done e) }

/-- SACK (R282). -/
def execSack (s : State) : Host.Outcome State Fault Refusal := s.run sackArrives

/-- RERES counts a RERESOLVE that is received (R356). -/
def countReres (d : Dev) : Dev :=
  let n := min (bitsN d.mig.occnt 32 32 + 1) 0xFFFFFFFF
  { d with mig := { d.mig with occnt := dw (n * 2 ^ 32 + bitsN d.mig.occnt 0 32) } }

/-- An access is sent again: on its path where that is up and lists the device, else on another, else when there is one (R276, R307). -/
def resend (env : Env) (t : Nat) (e : NEntry) (dest : BitVec 6) (d : Dev) : Dev :=
  let p : Packet := .remote env.caps.devid e.hdr e.body
  if dest = env.caps.devid || (pathUp d e.path.toNat dest.toNat && listed d e.path.toNat dest.toNat &&
      !mustWait d e.path.toNat dest.toNat p e.hdr.op.toNat) then
    sendTo env d dest e.path p e.hdr.op.toNat
  else sendFree env d t dest p e.hdr.op.toNat

/-- An access that was to be sent again and that no path can take fails; a store's failure is reported to the device that numbered it, where
it counts as performed (R281, R284, R350). -/
def failResend (env : Env) (t s i : Nat) (e : NEntry) (d : Dev) : Dev :=
  let d1 := failEntry env t s i e 0x25 e.va d
  if e.isStore then forwardReport env e (ansHdr d e.hdr 0x09) (natLe 8 0x25) d1 else d1

/-- The place of the first entry of a list that passes a test and has been sent again least often. -/
def leastTried (ok : NEntry → Bool) (l : List NEntry) : Option Nat :=
  let least := ((l.filter ok).map (·.tries)).foldl min ((l.filter ok).map (·.tries)).sum
  l.findIdx? fun e => ok e && e.tries == least

/-- The entry that a RERESOLVE answers: a load's names only the page, and belongs to the first load that was sent to where it comes from and has
not been sent again more often than another (R350, R351; DEDUCED, unsafe: log entry 40). -/
def reresEntry (d : Dev) (f : Flight) (h : RHdr) : Option (Nat × NEntry) :=
  let l := d.stream h.stile.toNat h.stream.toNat
  let ok (e : NEntry) : Bool := !e.isNotify && e.kind == .rld && e.epoch == h.epoch && e.era == h.era && e.target == h.sdev &&
    e.path == h.path && pageOf e.va == h.va && e.via == f.src
  match (if h.ssn = 0 then leastTried ok l else none) with
  | some i => (l[i]?).map fun e => (i, e)
  | none => entryOf d h.sdev h false

/-- RERESOLVE at the issuer (R307, R350, R357): the owner-cache entry and the pending redirect of the page go, and the access is sent again
through the home with its DDEV, SSN and PSN; one of this device's that waits for a path to be sent goes before it. -/
def reresolveMine (env : Env) (f : Flight) (h : RHdr) (_ : List Byte) (d : Dev) : Dev :=
  if sendWaits env d h.vf (pageOf (zx h.va)) then d else
  let page := pageOf (zx h.va)
  let d1 := countReres (dropFlight env env.unit d)
  let d2 := { d1 with owners := d1.owners.filter fun x => !(x.1 == h.vf && x.2.1 == page),
                      redirs := d1.redirs.filter fun x => !(x.vf == h.vf && x.page == page) }
  match reresEntry d1 f h with
  | none => d2
  | some (i, e) =>
    let t := h.stile.toNat
    let s := h.stream.toNat
    let home := homeOf env d2 { tile := t, unit := .access t, asid := e.asid, vf := e.vf, priv := e.priv } e.va
    if !reachable env d2 home.toNat || d2.peersLost.getLsbD home.toNat then failResend env t s i e d2
    else resend env t e home (d2.onTile t fun y =>
      { y with nq := vset y.nq s ((vget y.nq [] s).set i { e with reissued := true, via := home, tries := e.tries + 1 }) })

/-- RERESOLVE (R350). -/
def execReresolve (s : State) : Host.Outcome State Fault Refusal := s.run (answerArrives [0x17] reresolveMine)

/-! ### Redirects (R307, R350, R357) -/

/-- A FLUSH on every stream with unacknowledged stores to a device (R350). -/
def flushTo (env : Env) (dest : BitVec 6) (d : Dev) : Dev :=
  d.tiles.entries.foldl (fun d e => (List.range 16).foldl (fun d s => flushOne env e.1 s dest d) d) d

/-- A REDIRECT arrives, in its turn on its path: it replaces the page's pending one, and the streams to the old owner are flushed (R350, R357). -/
def redirectArrives (env : Env) (d : Dev) : Dev :=
  match flightOf d env.unit [0x16] with
  | none => d
  | some (f, h, b) =>
    if answerAhead d env.unit f h then d else
    let d1 := dropFlight env env.unit d
    if vfGen d h.vf != h.gen then d1 else
    let page := pageOf (zx h.va)
    let o := BitVec.ofNat 6 (leNat (b.take 1))
    let d2 := { d1 with redirs := { vf := h.vf, page := page, owner := o } ::
                  d1.redirs.filter fun x => !(x.vf == h.vf && x.page == page) }
    flushTo env h.sdev d2

/-- REDIRECT (R357). -/
def execRedirect (s : State) : Host.Outcome State Fault Refusal := s.run redirectArrives

/-- The k-th pending redirect is applied once no access to its page is outstanding through another device (R307, R357). -/
def redirectApplies (env : Env) (d : Dev) : Dev :=
  match d.redirs[env.unit]? with
  | none => d
  | some r =>
    if outstanding d r.vf r.page fun e => e.via != r.owner then d else
    let lo := min (bitsN d.mig.occnt 0 32 + 1) 0xFFFFFFFF
    { d with redirs := d.redirs.eraseIdx env.unit,
             owners := ((r.vf, r.page, r.owner) :: d.owners.filter fun x => !(x.1 == r.vf && x.2.1 == r.page)).take 16384,
             mig := { d.mig with occnt := dw (bitsN d.mig.occnt 32 32 * 2 ^ 32 + lo) } }

/-- REDIRECT_APPLY (R357). -/
def execRedirectApply (s : State) : Host.Outcome State Fault Refusal := s.run redirectApplies

end Sys2Proof.Machine
end

