-- ==== Sys2Proof/Machine/Rake.lean ====
section
/-! DEFINITION. The rake (R214, R216, R217), and where the packets of a transfer step come from (R248, R252). -/

namespace Sys2Proof.Machine

/-- A rounding field (R215). -/
def rndOf (n : Nat) : Rnd := match n with | 0 => .rne | 1 => .rtz | 2 => .rdn | _ => .rup

/-- A number rounded to INT32, saturating; NaN gives 0 (R216). -/
def toInt32 (r : Rnd) : Num → Nat
  | .nan => 0
  | .inf neg => if neg then 2 ^ 31 else 2 ^ 31 - 1
  | .fin neg m e =>
    let (q, eq, _) := roundAt r neg m e 0
    let z := max (-(2 ^ 31)) (min (2 ^ 31 - 1) (signedAt neg q eq 0))
    (z % 2 ^ 32).toNat

/-- The conversion of the rake (R18, R216). -/
def rakeConv (fmt : Nat) (r : Rnd) (sat : Bool) (x : Word) : Nat :=
  match fmt with
  | 0 => x.toNat
  | 1 => (bf16.conv r sat (num32 x)).1
  | 2 => (fp16.conv r sat (num32 x)).1
  | 3 => (e4m3.conv r sat (num32 x)).1
  | 4 => (e5m2.conv r sat (num32 x)).1
  | 5 => (toInt8 (-128) 127 r sat (num32 x)).1
  | 6 => (toInt8 0 255 r sat (num32 x)).1
  | _ => toInt32 r (num32 x)

/-- The activation (R216). -/
def rakeAct (r : Row) (x : Word) : Word :=
  let n := num32 x
  let lo := BitVec.ofNat 32 (bitsN r 64 32)
  let hi := BitVec.ofNat 32 (bitsN r 96 32)
  match rdAct r with
  | 0 => x
  | 1 => if n.isNan then 0x7FC00000 else if (num32 0).lt n then x else 0
  | _ => if n.isNan then 0x7FC00000 else if n.lt (num32 lo) then lo else if (num32 hi).lt n then hi else x

/-- The value of an element of a slot after scale, bias, activation and conversion (R216). -/
def rakeElem (r : Row) (acc : BitVec 2) (v : Word) (sb : Option (Word × Word)) : Nat :=
  if acc = 3 && rdSbtid r == 0 && rdAct r == 0 && rdOfmt r == 7 then v.toNat else
  let x := if acc = 3 then (i32ToF32 v).1 else if acc = 2 then toFp32 2 v else v
  let y := match sb with
    | some (sc, bi) => (f32Fma x sc bi).1
    | none => x
  rakeConv (rdOfmt r) (rndOf (bitsN r 19 2)) (r.getLsbD 21) (rakeAct r y)

/-- On whose behalf the rake works (R216). -/
def RakeJob.who (j : RakeJob) : Who := { tile := j.tile, unit := .matrix (j.tile / 8), asid := j.asid, vf := j.vf, priv := j.priv }

/-- The path of a job's outputs (R98). -/
def RakeJob.path (j : RakeJob) : Nat := if j.xfer then 3 else 5

/-- The scale and bias of column c (R216), read on the matrix path; a line costs its token with the first column that the rake reads of it
(R269). (DEDUCED, unsafe: log entry 37) -/
def readScaleBias (env : Env) (j : RakeJob) (first : Bool) (c : Nat) (d : Dev) : Res (Option (Word × Word)) :=
  match j.sb with
  | none => .ok none d
  | some t =>
    let at_ (y : Nat) : Dword := dw (tLineAt t y 0 0 + (rdSborg j.desc + c) * 4)
    let read (y : Nat) (d : Dev) : Res (List Byte) :=
      fuBytes env j.tile j.who
        { front := tFront t, pay := if first || decide ((at_ y).toNat % 128 < 4) then some 6 else none } d (at_ y) 4
    (read 0 d).bind fun a d1 =>
      (read 1 d1).bind fun b d2 =>
        .ok (some (BitVec.ofNat 32 (leNat a), BitVec.ofNat 32 (leNat b))) d2

/-- Element k of a slot, row by row, as the bytes of its output (R216). -/
def rakeBytes (env : Env) (j : RakeJob) (x : RingSlot) (first : Bool) (k : Nat) (d : Dev) : Res (List Byte) :=
  (readScaleBias env j first (k % x.n) d).bind fun sb d1 =>
    .ok (natLe (fmtBytes (rdOfmt j.desc)) (rakeElem j.desc x.acc (x.elems.getD k 0) sb)) d1

/-- The address of element k in the destination (R217). -/
def RakeJob.dest (j : RakeJob) (x : RingSlot) (k : Nat) : Dword :=
  let t := j.dt.getD 0
  dw (tLineAt t (rdDorg j.desc 1 + k / x.n) (rdDorg j.desc 2) (rdDorg j.desc 3) + (rdDorg j.desc 0 + k % x.n) * fmtBytes (rdOfmt j.desc))

/-- The rake sends its next element on its way (R217); a line takes a token of the closing tile (R269). Its write is performed later (R308). -/
def rakeWrite (env : Env) (j : RakeJob) (x : RingSlot) (r : Rake) (d : Dev) : Res Rake :=
  (rakeBytes env j x (r.elem % x.n == 0) r.elem d).bind fun b d1 =>
    (locate env d1 j.who { write := true } (j.dest x r.elem)).bind fun l d2 =>
      let line := l.1.key / 128
      match (if r.paid = some line then some d2 else payFrom d2 j.tile 6 l.1) with
      | none => .wait Wait.share d2
      | some d3 =>
        .ok { r with elem := r.elem + 1, paid := some line
                     out := r.out ++ [{ loc := l.1, cls := l.2, front := optFront j.dt, bytes := b }] } d3

/-- Everything that the rake has sent is written. -/
def rakeFlush (env : Env) (j : RakeJob) (r : Rake) (d : Dev) : Dev := r.out.foldl (putSent env j.tile 5 j.vf) d

/-- The rake sends elements from its next one on until something stops it: how far it got, and the fault. -/
def rakeRun (env : Env) (j : RakeJob) (x : RingSlot) : Nat → Rake → Dev → Rake × Dev × MoveEnd
  | 0, r, d => (r, d, .done)
  | f + 1, r, d =>
    match rakeWrite env j x r d with
    | .ok r1 d1 => rakeRun env j x f r1 d1
    | .wait w d1 => (r, waitPaid j.tile 6 w d d1, .blocked w)
    | .sys code va => (r, d, .fault code va)
    | .trap _ _ _ _ _ => (r, d, .blocked Wait.idle)
    | .roll _ => (r, d, .blocked Wait.idle)

/-- The rake of a cluster with its slot and job. -/
def rakeOf (d : Dev) (c : Nat) : Option (Rake × RingSlot × RakeJob) :=
  match (d.cluster c).rake with
  | none => none
  | some r =>
    let x := (d.cluster c).slot r.slot.toNat
    x.job.map fun j => (r, x, j)

/-- RAKE_START (R214, R216): the oldest slot not yet drained, once it is closed. -/
def execRakeStart (s : State) : Host.Outcome State Fault Refusal :=
  s.run fun env d =>
    let k := d.cluster env.unit
    match k.rake, k.order with
    | none, x :: _ =>
      if (k.slot x).st == .closed then
        d.setCluster env.unit { k.setSlot x { k.slot x with st := .draining } with rake := some { slot := BitVec.ofNat 3 x } }
      else d
    | none, [] => d
    | some _, _ => d

/-- The slot at the rake is freed. -/
def rakeFree (c : Nat) (r : Rake) (d : Dev) : Dev := d.onCluster c fun k => { k.freeSlot r.slot.toNat with rake := none }

/-- The INFO of a record about the rake: the fault and a byte offset (R149, R217). -/
def rakeInfo (code off : Nat) : Dword := dw (code + off * 2 ^ 11)

/-- The byte offset of an element of a job. -/
def RakeJob.off (j : RakeJob) (elem : Nat) : Nat := elem * fmtBytes (rdOfmt j.desc)

/-- A slot fails (R217): what it has sent is performed; ASYNC_FAILURE, the closing tile's node, and the slot is freed without its DONE increment. -/
def rakeFail (env : Env) (c : Nat) (r : Rake) (j : RakeJob) (code off : Nat) (va : Dword) (d : Dev) : Dev :=
  let d0 := if j.xfer then landAll env (fun e => e.ag == .tile j.tile 3) d else rakeFlush env j r d
  rakeFree c r (failNode env (postFault env d0 j.faultq
    { addr := va, info := rakeInfo code off, tile := j.tile, vf := j.vf, aq := 31, eng := 5, kind := 2, code := 0x26 }) j.node)

/-- The output of the slot at the rake is performed: DONE, then the slot is free (R217, R384). -/
def rakeDone (env : Env) (c : Nat) (r : Rake) (j : RakeJob) (d : Dev) : Dev :=
  if rdDone j.desc = 0 then rakeFree c r d else
  match flagUpdate env d j.who (.tile j.tile j.path) (dw (rdDone j.desc)) 1 (setterId env j.vf (0x400 + j.tile)) with
  | .ok _ d1 => rakeFree c r d1
  | .wait _ d1 => waitLeft d d1
  | .sys code va => rakeFail env c r j code (j.off r.elem) (dw (rdDone j.desc)) (keepTlb env d j.who va)
  | .trap _ _ _ _ _ => d
  | .roll _ => d

/-- The rake as far as it has got. -/
def rakeKeep (c : Nat) (r : Rake) (d : Dev) : Dev := d.onCluster c fun k => { k with rake := some r }

/-- The receivers of a MODE 1 job, read when its first packet goes (R154, R217). -/
def rakeRecv (env : Env) (r : Rake) (j : RakeJob) (d : Dev) : Res Rake :=
  match r.recv with
  | some _ => .ok r d
  | none =>
    let n := rdNrecv j.desc
    (pathRead env j.tile 6 j.who (.tile j.tile 3) true (8 * n) d (dw (rdRlist j.desc)) (8 * n)).bind fun b d1 =>
      .ok { r with recv := some (recvList n b), sent := List.replicate n 0 } d1

/-- The box of a MODE 1 job (R217). -/
def RakeJob.box (j : RakeJob) (x : RingSlot) : Box :=
  { org := (List.range 4).map (rdDorg j.desc), ext := [x.n, x.m, 1, 1], fmt := rdOfmt j.desc, key := BitVec.ofNat 24 (rdKey j.desc) }

/-- The element of a slot with which packet p of a MODE 1 job begins. -/
def rakeFirst (b : Box) (x : RingSlot) (p : Nat) : Nat :=
  let i := (b.at p).1
  i.getD 1 0 * x.n + i.getD 0 0

/-- The payload of packet p of a MODE 1 job. -/
def rakePayload (env : Env) (j : RakeJob) (x : RingSlot) (p : Nat) (d : Dev) : Res (List Byte) :=
  let b := j.box x
  (readAll (fun i => rakeBytes env j x (i == 0) (rakeFirst b x p + i)) (List.range (b.at p).2) d).bind fun l d1 => .ok l.flatten d1

/-- A packet of a job waits for A at the fence that M had passed at the RCLOSE (R271), unless A has been terminated short of it and will
not reach it (R322). -/
def RakeJob.fenced (j : RakeJob) (d : Dev) : Bool :=
  match (d.tile j.tile).iterOf j.serial with
  | some c => !c.iter.term && decide ((c.engine .a).walk.toNat < j.fence.toNat)
  | none => false

/-- How an attempt to send a packet of the rake ends. -/
inductive RakeEnd where
  | sent (r : Rake)
  | fails (r : Rake) (code off : Nat)

/-- The next packet of the rake for receiver n is sent (R217, R248), or the slot fails: a bad entry of the list at its own offset (R154), a
peer that is lost. -/
def rakeSend (env : Env) (n : Nat) (r : Rake) (x : RingSlot) (j : RakeJob) (d : Dev) : Res RakeEnd :=
  if j.fenced d then .wait Wait.idle d else
  (rakeRecv env r j d).bind fun r1 d1 =>
    let recv := r1.recv.getD []
    match badTarget env recv with
    | some i => .ok (.fails r1 2 (8 * i)) d1
    | none =>
      let p := r1.sent.getD n 0
      match recv[n]? with
      | none => .wait Wait.idle d1
      | some target =>
        if (j.box x).packets ≤ p then .wait Wait.idle d1 else
        (payloadFor env target p r1.load d1 (rakePayload env j x p)).bind fun b d2 =>
          match sendXfer env (.tile j.tile 3) j.tile ((j.box x).hdr env d2 p target j.vf j.tile) b d2 with
          | (.sent, d3) =>
            let sent := sentTo env recv r1.sent n p
            .ok (.sent { r1 with sent := sent, load := keepLoad env recv sent n p b r1.load }) d3
          | (.dead, d3) => .ok (.fails r1 0x25 (j.off (rakeFirst (j.box x) x p))) d3
          | (.later, d3) => .wait Wait.idle d3

/-- The next packet of the rake of a cluster goes to receiver n (R217, R248). -/
def rakePacket (env : Env) (c n : Nat) (d : Dev) : Dev :=
  match rakeOf d c with
  | none => d
  | some (r, x, j) =>
    if !j.xfer || r.stall.isSome then d else
    match rakeSend env n r x j d with
    | .ok (.sent r1) d1 => rakeKeep c r1 d1
    | .ok (.fails r1 code off) d1 => rakeFail env c r1 j code off 0 d1
    | .wait w d1 => waitPaid j.tile 6 w d d1
    | .trap _ _ _ _ _ => d
    | .sys _ _ => d
    | .roll _ => d

/-- Every packet of a MODE 1 job has been matched, and every matched write performed, at every receiver (R217). -/
def rakeSent (env : Env) (r : Rake) (x : RingSlot) (j : RakeJob) (d : Dev) : Bool :=
  match r.recv with
  | none => false
  | some l => (r.sent.all fun n => decide ((j.box x).packets ≤ n)) && !landsLeft d (.tile j.tile 3) &&
      (l.all (recvHere env) || farDone env d j.tile)

/-- The rake of a cluster goes on by itself (R308): it sends elements on, and one that it has sent is written, whichever it is, behind those
before it that write a byte of it (DESIGN CHOICE, safe: log entry 107). -/
def rakeDrift (env : Env) (d : Dev) (c : Nat) : Dev :=
  match rakeOf d c with
  | none => d
  | some (r, x, j) =>
    if j.xfer || r.stall.isSome then d else
    let (r1, d1, _) := rakeRun env j x (min (x.m * x.n - r.elem) (Config.rakeAhead env.tick c)) r d
    match Config.rakePick env.tick c with
    | none => rakeKeep c r1 d1
    | some i =>
      match r1.out[i]? with
      | none => rakeKeep c r1 d1
      | some w =>
        if (r1.out.take i).any w.meets then rakeKeep c r1 d1
        else rakeKeep c { r1 with out := r1.out.eraseIdx i } (putSent env j.tile 5 j.vf d1 w)

/-- RAKE_OUTPUT_PERFORMED (R217): the rest of the elements is written, as far as it goes, or every packet has been matched. -/
def rakePerformed (env : Env) (d : Dev) : Dev :=
  let c := env.unit
  match rakeOf d c with
  | none => d
  | some (r, x, j) =>
    if r.stall.isSome then d
    else if j.xfer then
      let d1 := landAll env (fun e => e.ag == .tile j.tile 3) d
      if rakeSent env r x j d1 then rakeDone env c r j d1 else d
    else
      match rakeRun env j x (x.m * x.n - r.elem) r d with
      | (r1, d1, .done) => rakeDone env c { r1 with out := [] } j (rakeKeep c { r1 with out := [] } (rakeFlush env j r1 d1))
      | (r1, d1, .blocked _) => rakeKeep c r1 d1
      | (_, _, .fault _ _) => d
      | (_, _, .badIndex) => d

/-- RAKE_OUTPUT_PERFORMED (R217). -/
def execRakeOutputPerformed (s : State) : Host.Outcome State Fault Refusal := s.run rakePerformed

/-- The rake stops at its next element (R149, R217). -/
def rakeStop (env : Env) (c : Nat) (r : Rake) (j : RakeJob) (code : Nat) (va : Dword) (d : Dev) : Dev :=
  postFault env (keepTlb env (rakeKeep c { r with out := [], stall := some (BitVec.ofNat 8 code), fva := va } (rakeFlush env j r d)) j.who va) j.faultq
    { addr := va, info := rakeInfo code (j.off r.elem), tile := j.tile, vf := j.vf, aq := 31, eng := 5, kind := 8, code := code }

/-- The first element from which a MODE 1 job cannot go on, and its fault: its receiver list, or a scale and bias. -/
def rakeXferFault (env : Env) (r : Rake) (x : RingSlot) (j : RakeJob) (d : Dev) : Option (Nat × Nat × Dword) :=
  match rakeRecv env r j d with
  | .sys code va => some (0, code, va)
  | .ok r1 d1 =>
    match r1.sent.find? fun n => decide (n < (j.box x).packets) with
    | none => none
    | some p =>
      match rakePayload env j x p d1 with
      | .sys code va => some (rakeFirst (j.box x) x p, code, va)
      | .ok _ _ => none
      | .wait _ _ => none
      | .trap _ _ _ _ _ => none
      | .roll _ => none
  | .wait _ _ => none
  | .trap _ _ _ _ _ => none
  | .roll _ => none

/-- RAKE_STALL (R217): the rake works up to the element that faults. -/
def rakeStalls (env : Env) (d : Dev) : Dev :=
  let c := env.unit
  match rakeOf d c with
  | none => d
  | some (r, x, j) =>
    if r.stall.isSome then d
    else if j.xfer then
      match rakeXferFault env r x j d with
      | some (e, code, va) => rakeStop env c { r with elem := e } j code va d
      | none => d
    else
      match rakeRun env j x (x.m * x.n - r.elem) r d with
      | (r1, d1, .fault code va) => rakeStop env c r1 j code va d1
      | (_, _, .done) => d
      | (_, _, .blocked _) => d
      | (_, _, .badIndex) => d

/-- RAKE_STALL (R217). -/
def execRakeStall (s : State) : Host.Outcome State Fault Refusal := s.run rakeStalls

/-- TCMD 5: the rake of a tile's cluster goes on at its element (R217, R321). -/
def resumeRake (t : Nat) (d : Dev) : Dev :=
  match rakeOf d (t / 8) with
  | none => d
  | some (r, _, _) =>
    if r.stall.isSome then d.onCluster (t / 8) fun k => { k with rake := some { r with stall := none } } else d

/-- TCMD 6: the slot on which the rake of a tile's cluster is stopped fails (R217, R321). -/
def failRake (env : Env) (t : Nat) (d : Dev) : Dev :=
  match rakeOf d (t / 8) with
  | none => d
  | some (r, _, j) =>
    match r.stall with
    | some code => rakeFail env (t / 8) r j code.toNat (j.off r.elem) r.fva d
    | none => d

/-- RESUME_RAKE (R217). -/
def execResumeRake (s : State) : Host.Outcome State Fault Refusal := s.run fun env d => resumeRake env.unit d
/-- FAIL_RAKE_SLOT (R217). -/
def execFailRakeSlot (s : State) : Host.Outcome State Fault Refusal := s.run fun env d => failRake env env.unit d

/-- A transfer packet that arrived from another device is matched (R252, R280). -/
def arrived (env : Env) (k : Nat) (d : Dev) : Dev :=
  match d.flights[k]? with
  | none => d
  | some f =>
    match f.pkt with
    | .xfer _ h b => dropFlight env k (landPacket env .none h b d)
    | .remote _ _ _ => d

/-- TRANSFER_PACKET (R252). -/
def execTransferPacket (src : XSrc) (recv : Nat) (s : State) : Host.Outcome State Fault Refusal :=
  s.run fun env d => match src with
    | .command t => sendCmdPacket env t recv d
    | .rake c => rakePacket env c recv d
    | .arrival k => arrived env k d

end Sys2Proof.Machine
end

