-- ==== Sys2Proof/Machine/Image.lean ====
section
/-! DEFINITION. The context area (R326 to R329): the iteration of a tile as bytes, and read back from them. -/

namespace Sys2Proof.Machine

/-! ### Writing -/

/-- The first n things of a list as bytes of a width each, padded with zeros. -/
def packList {α : Type} (w n : Nat) (f : α → Nat) (l : List α) : List Byte :=
  ((List.range n).map fun i => natLe w (match l[i]? with | some x => f x | none => 0)).flatten

/-- Zero bytes. -/
def zeros (n : Nat) : List Byte := List.replicate n 0

/-- Bits from Booleans, the first lowest. -/
def packBits (l : List Bool) : Nat := l.foldr (fun b a => b2n b + 2 * a) 0

/-- The first dword of the header: version, handler, halted and stopped engines, lease, turn request, open head (R326). -/
def hdrFlags (asked : Bool) (c : TCore) : Nat :=
  1 + 2 ^ 8 * packBits ([c.trap.hand.isSome] ++ c.eng.toList.map (·.halted) ++ c.eng.toList.map (·.stopped) ++
    [c.lease.isOpen, asked, c.head.isSome])

/-- The header (R326). -/
def imageHeader (d : Dev) (t : Nat) (asked : Bool) : List Byte :=
  let c := (d.tile t).core
  let e := c.eng.toList
  let acc := match c.head with | some h => ((d.cluster (t / 8)).slot h.toNat).acc.toNat | none => 0
  natLe 8 (hdrFlags asked c) ++ packList 8 4 (fun (g : Engine) => g.pc.toNat) e ++ packList 8 4 (fun (g : Engine) => g.walk.toNat) e ++
  packList 8 4 (fun (g : Engine) => g.rgnWalk.toNat) e ++
  natLe 8 (c.tok.toList.foldr (fun k a => k.toNat + 16 * a) 0) ++
  packList 1 4 (fun (g : Engine) => g.ret.length) e ++ packList 1 4 (fun (g : Engine) => g.outs.length) e ++
  packList 1 8 c.qlen (List.range 8) ++ zeros 8 ++
  natLe 8 (c.lease.left + 2 ^ 8 * (c.head.getD 0).toNat + 2 ^ 12 * acc) ++ zeros 8 ++ natLe 8 c.moved ++ zeros 96

/-- The dwords of the CSR image that CSRR would read, before and behind those that need packing (R326). -/
def imageCsrs (d : Dev) (t : Nat) : List Dword :=
  let c := (d.tile t).core
  let r (l : List Nat) : List Dword := l.map (csrValue d t)
  r [0x005, 0x010, 0x011, 0x012, 0x013, 0x014, 0x020, 0x021] ++ [dw (pack16 c.csr.bd 0 4), dw (pack16 c.csr.bd 4 4)] ++
  r [0x02A, 0x02B, 0x02C] ++ [c.csr.chainE.getD 0] ++
  r [0x040, 0x041, 0x042, 0x043, 0x044, 0x045, 0x046, 0x047, 0x048, 0x049, 0x04A, 0x04B, 0x070, 0x071, 0x060, 0x050] ++
  r ((List.range 8).map (0x058 + ·)) ++ [0, 0]

/-- A dword as a number. -/
def dwN (x : Dword) : Nat := x.toNat

/-- The 96 KiB of a context area (R326): a return stack oldest first, so from its bottom. -/
def ctxImage (d : Dev) (t : Nat) (asked : Bool) : List Byte :=
  let c := (d.tile t).core
  let e := c.eng.toList
  let hand : List Dword := match c.trap.hand with | some h => h.ret.reverse | none => []
  let q (l : List Dword) (n : Nat) : List Byte := packList 8 n dwN l
  let rows (l : List Row) (n : Nat) : List Byte := packList 64 n (fun (r : Row) => r.toNat) l
  imageHeader d t asked ++
  q c.regs.s.toList 32 ++ q c.regs.a.toList 32 ++ q c.regs.c.toList 16 ++
  natLe 8 (match c.trap.hand with | some h => h.pc.toNat | none => 0) ++ natLe 8 hand.length ++ zeros 48 ++ q hand 8 ++
  packList 64 8 (fun i => (c.k i).toNat) (List.range 8) ++
  (e.map fun g => q g.ret.reverse 8).flatten ++ (e.map fun g => q g.rgnRet.reverse 8).flatten ++ (e.map fun g => q g.outs 32).flatten ++
  q c.q.ax 16 ++ q c.q.xa 16 ++ q c.q.xv 16 ++ q c.q.vx 16 ++ q c.q.xm 16 ++ q c.q.mx 8 ++
  q (imageCsrs d t) 40 ++ rows c.q.av 64 ++ rows c.q.va 64 ++
  rows (c.tids.toList.map (·.getD 0)) 256 ++ (c.regs.v.toList.map vregBytes).flatten ++
  packList 16 256 (fun (r : Rec16 × Dword) => r.1.toNat) c.ev

/-- The pending special-function results, oldest first. -/
def TCore.pending (c : TCore) : List Sfu := c.sfu.toList.filterMap id

/-- An iteration is written to its context area, and, where it is pre-empted, its pending results to its park block (R325, R327). (DEDUCED, unsafe: log entry 48) -/
def writeContext (env : Env) (d : Dev) (t : Nat) (asked : Bool) : Res Unit :=
  let c := (d.tile t).core
  (hwWrite env { whoTile d t with unit := .own } .none 4 d c.csr.ctxptr (ctxImage d t asked)).bind fun _ d1 =>
    let base := (d.vf c.csr.vfid.toNat).parkbase
    if c.pending.isEmpty then .ok () d1
    else if base = 0 then .sys 0 0
    else
      hwWrite env (whoVf d1 c.csr.vfid t) .none 3 d1 (parkBlock d1 c.csr.vfid t + 0x10000)
        ((c.pending.map fun r => vregBytes r.data).flatten)

/-! ### Reading -/

/-- Bytes of an image as a number. -/
def imgN (b : List Byte) (off n : Nat) : Nat := leNat ((b.drop off).take n)
/-- A dword of an image. -/
def imgD (b : List Byte) (off : Nat) : Dword := dw (imgN b off 8)
/-- n dwords of an image. -/
def imgDs (b : List Byte) (off n : Nat) : List Dword := (List.range n).map fun i => imgD b (off + 8 * i)
/-- n rows of an image. -/
def imgRows (b : List Byte) (off n : Nat) : List Row := (List.range n).map fun i => BitVec.ofNat 512 (imgN b (off + 64 * i) 64)
/-- A dword of the CSR image. -/
def imgCsr (b : List Byte) (i : Nat) : Dword := imgD b (0xEC0 + 8 * i)
/-- A bit of the header's first dword. -/
def imgFlag (b : List Byte) (i : Nat) : Bool := imgN b 0 8 / 2 ^ i % 2 == 1

/-- An engine as an image holds it: its PC as it stands there, and it fetches the 4 bytes from that address on also where that is no
multiple of 4 (DESIGN CHOICE, unsafe: log entry 72). -/
def imgEngine (b : List Byte) (old : TCore) (i : Nat) : Engine :=
  let g := vget old.eng {} i
  { g with
    pc := imgD b (0x08 + 8 * i)
    walk := imgD b (0x28 + 8 * i)
    ret := (imgDs b (0x600 + 64 * i) (imgN b (0x70 + i) 1 % 16)).reverse
    outs := imgDs b (0x800 + 256 * i) (imgN b (0x74 + i) 1 % 64)
    stopped := imgFlag b (13 + i)
    halted := false
    wait := none
    rgnPc := imgCsr b (22 + i)
    rgnWalk := imgD b (0x48 + 8 * i)
    rgnRet := ((imgDs b (0x700 + 64 * i) 8).take (if imgD b (0x48 + 8 * i) = g.rgnWalk then g.rgnRet.length else 8)).reverse }

/-- The control registers of an image. -/
def imgCsrs (b : List Byte) (old : Csrs) : Csrs :=
  let c (i : Nat) : Dword := imgCsr b i
  { old with
    win := (c 0).setWidth 16
    rows := (c 1).setWidth 6
    cols := (c 1).extractLsb' 8 5
    curRow := (c 2).setWidth 5
    curCol := (c 2).extractLsb' 8 4
    curDiag := (c 2).extractLsb' 16 4
    vrb := (c 3).setWidth 4
    vmask := (c 4).setWidth 3
    vflags := (c 5).setWidth 5
    mstat := (c 6).setWidth 4
    shM := (c 7).setWidth 9
    shN := (c 7).extractLsb' 16 9
    shK := (c 7).extractLsb' 32 10
    bd := Vector.ofFn fun i => (c (8 + i.val / 4)).extractLsb' (16 * (i.val % 4)) 16
    bcap := (c 10).setWidth 13
    cord := (c 11).setWidth 55
    cstep := (c 12).setWidth 32
    chainE := if c 13 = 0 then none else some (c 13)
    tvec := c 14
    asid := (c 29).setWidth 16
    profctl := (c 26).setWidth 4 &&& 13
    profbuf := (c 27).setWidth 55 }

/-- The trap registers and the handler of an image. -/
def imgTrap (b : List Byte) (old : TrapSt) : TrapSt :=
  let hand : Option Hand :=
    if imgFlag b 8 then
      some { pc := imgD b 0x380, ret := (imgDs b 0x3C0 (imgN b 0x388 8 % 16)).reverse, prev := (old.hand.map (·.prev)).getD .none }
    else none
  { old with
    cause := imgCsr b 15, pc := imgCsr b 16, eng := imgCsr b 17, info0 := imgCsr b 18, info1 := imgCsr b 19, info2 := imgCsr b 20
    info3 := imgCsr b 21, hand := hand }

/-- The queues of an image. -/
def imgQueues (b : List Byte) : Queues :=
  let n (q : Nat) : Nat := imgN b (0x78 + q) 1
  { ax := imgDs b 0xC00 (n 0), xa := imgDs b 0xC80 (n 1), av := imgRows b 0x1000 (n 2), va := imgRows b 0x2000 (n 3)
    xv := imgDs b 0xD00 (n 4), vx := imgDs b 0xD80 (n 5), xm := imgDs b 0xE00 (n 6), mx := imgDs b 0xE80 (n 7) }

/-- The registers of an image. -/
def imgRegs (b : List Byte) : Regs :=
  { s := Vector.ofFn fun i => imgD b (0x100 + 8 * i.val)
    a := Vector.ofFn fun i => imgD b (0x200 + 8 * i.val)
    c := Vector.ofFn fun i => imgD b (0x300 + 8 * i.val)
    k := Vector.ofFn fun i => BitVec.ofNat 512 (imgN b (0x400 + 64 * i.val) 64)
    v := Vector.ofFn fun i => vregOf ((b.drop (0x7000 + 2048 * i.val)).take 2048) }

/-- The event queue of an image; a record keeps the timestamp it carries (R309). -/
def imgEvents (b : List Byte) (old : List (Rec16 × Dword)) : List (Rec16 × Dword) :=
  (List.range (min 256 (imgN b (0xEC0 + 8 * 28) 2))).map fun i =>
    (BitVec.ofNat 128 (imgN b (0x17000 + 16 * i) 16), ((old[i]?).map (·.2)).getD 0)

/-- Every item of an image over the iteration that was saved (R329, R362); the special-function results stay as they are, a head that a
hand-over has taken is not given back (R203), and what a FLAGWAIT has waited counts on for the same word alone (R142). -/
def ctxRestore (b : List Byte) (old : TCore) : TCore :=
  let isOpen := imgFlag b 17
  { old with
    eng := Vector.ofFn fun i => imgEngine b old i.val
    regs := imgRegs b
    q := imgQueues b
    tok := Vector.ofFn fun i => BitVec.ofNat 4 (imgN b 0x68 8 / 16 ^ i.val)
    csr := imgCsrs b old.csr
    trap := imgTrap b old.trap
    ev := imgEvents b old.ev
    lost := (imgCsr b 28).extractLsb' 16 16
    tids := Vector.ofFn fun i => let r := BitVec.ofNat 512 (imgN b (0x3000 + 64 * i.val) 64); if r = 0 then none else some r
    lease := { old.lease with held := isOpen && !old.lease.trapped, trapped := isOpen && old.lease.trapped, left := imgN b 0x88 8 % 128 }
    moved := imgN b 0x98 8 % 128
    head := if imgFlag b 19 && !old.headLost then some (BitVec.ofNat 3 (imgN b 0x88 8 / 256)) else none
    fwSince := if imgD b 0x10 == (old.engine .a).pc && imgD b 0x30 == (old.engine .a).walk then old.fwSince else none
    ldv := none
    ldq := none
    chainOk := false
    stall := 0 }

/-- The pending results of an image, with the data that the park block holds (R328). (DEDUCED, unsafe: log entry 38) -/
def imgSfu (b : List Byte) (data : List VReg) (old : List Sfu) : Vector (Option Sfu) 8 :=
  Vector.ofFn fun i =>
    let x := imgCsr b (30 + i.val)
    if !x.getLsbD 63 then none else
    let was := old[i.val]?
    some { walk := (was.map (·.walk)).getD (dw (bitsN x 16 32)), rem := bitsN x 12 4, func := x.extractLsb' 9 3
           preg := x.setWidth 5, data := data.getD i.val (Vector.replicate 512 0)
           act := (was.map (·.act)).getD (BitVec.allOnes 512), flags := (was.map (·.flags)).getD 0 }

/-- A saved iteration read back from its context area and its park block, and whether its header records a turn request (R329), as
accesses of no agent. -/
def readContext (env : Env) (d : Dev) (t : Nat) (c : TCore) : Res (TCore × Bool) :=
  let w : Who := whoSaved d t c
  (hwRead env w .none 4 d c.csr.ctxptr 0x18000).bind fun b d1 =>
    let n := c.pending.length
    let park : Res (List Byte) :=
      if n = 0 then .ok [] d1
      else hwRead env (whoVf d1 c.csr.vfid t) .none 3 d1 (parkBlock d1 c.csr.vfid t + 0x10000) (2048 * n)
    park.bind fun p d2 =>
      let data := (List.range n).map fun i => vregOf ((p.drop (2048 * i)).take 2048)
      .ok ({ ctxRestore b c with sfu := imgSfu b data c.pending }, imgFlag b 18) d2

end Sys2Proof.Machine
end

