-- ==== Sys2Proof/Machine/Walker.lean ====
section
/-! DEFINITION. The nest walkers: work identifiers, affinity, placement, dispatch, resumption, the choice of a pre-emption, the
commands of transform nodes (R44 to R56, R228, R329). -/

namespace Sys2Proof.Machine

/-! ### Nodes as a walker sees them -/

/-- The available tiles of a node, in ascending order (R49). -/
def nodeTiles (env : Env) (d : Dev) (x : Node) : List Nat := availTiles env d x.vf (x.fld 654 4)

/-- The values of fields 0 to 5 in iteration k of a record: a count of mixed radix in the order of ORD (R44). -/
def recVals (r k : Nat) : List Nat :=
  let ps := ((List.range 6).foldl (fun (acc : Nat × List (Nat × Nat)) i =>
    let f := recOrd r i
    (acc.1 / recE r f, (f, acc.1 % recE r f) :: acc.2)) (k, [])).2
  (List.range 6).map fun f => (lookupN f ps).getD 0

/-- The work identifier of field values (R44). -/
def recWid (r : Nat) (v : List Nat) : Nat := (List.range 6).foldl (fun a f => a + v.getD f 0 * 2 ^ recO r f) 0

/-- The group key: the fields from AFF on (R45). -/
def groupKey (r wid : Nat) : Nat := wid / 2 ^ recO r (recBits r 630 3)

/-- Whether field values are those of the last iteration of their group. -/
def groupLast (r : Nat) (v : List Nat) : Bool := (List.range (recBits r 630 3)).all fun f => v.getD f 0 + 1 == recE r f

/-! ### Placement -/

/-- The lowest 1 KiB boundary at which a tile has a free range of some KiB; pre-empted iterations keep theirs (R49). -/
def spPlace (y : Tile) (len : Nat) : Option Nat :=
  let fits (o : Nat) : Bool := decide (o + len ≤ 3072) &&
    y.saved.all fun c => decide (o + len ≤ c.iter.spOff) || decide (c.iter.spOff + c.iter.spLen ≤ o)
  let starts := (0 :: y.saved.map fun c => c.iter.spOff + c.iter.spLen).filter fits
  if len = 0 then some 0 else starts.foldl (fun b o => match b with
    | none => some o
    | some x => some (min x o)) none

/-- No iteration runs on a tile and no debug stop holds it (R49). -/
def tileIdle (y : Tile) : Bool := !y.running && !y.saving && !y.dbg.stopped && !y.dbg.pending

/-- Whether a tile is free for an iteration of a VF with a reservation of some KiB (R49, R228). -/
def tileFree (d : Dev) (vf : BitVec 10) (len t : Nat) : Bool :=
  let y := d.tile t
  tileIdle y && (y.tag.isNone || y.tag == some vf || y.saved.all (·.iter.spLen == 0)) && (spPlace y len).isSome

/-- Where a node's next iteration goes, and the node's bindings after (R51): the bound cluster, or, for a new group, the one with
most free tiles; in it the lowest free tile. A tile that holds a pre-empted iteration of the node resumes that first (R54). `held` is how many
bindings the walker holds. -/
def placeNext (env : Env) (d : Dev) (held n : Nat) (x : Node) : Option (Nat × List (Nat × Nat)) :=
  let r := x.copy.toNat
  let v := recVals r x.next
  let key := groupKey r (recWid r v)
  let free := (nodeTiles env d x).filter fun t =>
    tileFree d x.vf (recBits r 688 12) t && !((d.tile t).saved.any fun c => c.iter.node == n)
  let rest := x.bound.filter fun b => b.1 != key
  let go (c : Nat) : Option (Nat × List (Nat × Nat)) :=
    match free.find? fun t => t / 8 == c with
    | some t => some (t, if groupLast r v then rest else (key, c) :: rest)
    | none => none
  match lookupN key x.bound with
  | some c => go c
  | none =>
    if 64 ≤ held then none
    else
      let count (c : Nat) : Nat := free.countP fun t => t / 8 == c
      match free.foldl (fun (b : Option Nat) t => match b with
        | none => some (t / 8)
        | some c => if count c < count (t / 8) then some (t / 8) else some c) none with
      | some c => go c
      | none => none

/-! ### Dispatch -/

/-- A scratchpad takes the tag of a VF: under another tag its generations are retired with no record, it is zeroed, and its
counters start again (R228, R257, R259); what has been sent to it under the old tag is performed before. -/
def retag (env : Env) (d : Dev) (t : Nat) (vf : BitVec 10) : Dev :=
  if (d.tile t).tag = some vf then d
  else
    let d0 := drainSent env d
    let d1 := dropResv (clearBad (forgetPast { d0 with mem := Memory.zero (spadKey t 0) 0x300000 d0.mem } (spadKey t 0) 0x300000)
      (spadKey t 0) 0x300000) (spadKey t 0) 0x300000
    d1.onTile t fun y => { y with tag := some vf, slots := {}, stray := 0, ovlp := 0 }

/-- The state an iteration starts with (R52). -/
def startCore (d : Dev) (n : Nat) (x : Node) (t serial epoch off : Nat) : TCore :=
  let r := x.copy.toNat
  let v := recVals r x.next
  let wid := recWid r v
  let sp := 0x7F0000000000 + off * 1024
  let file := [0, dw wid] ++ v.map dw ++ [dw (recBits r 64 55), dw sp]
  let regs : Vector Dword 32 := Vector.ofFn fun i => file.getD i.val 0
  let base := recBits r 320 55
  let win := recBits r 672 16
  let cap := recBits r 664 7
  { iter := { serial := serial, node := n, nodeVa := x.va, wid := dw wid, vals := v.map (BitVec.ofNat 32), faultq := x.faultq
              prio := BitVec.ofNat 4 (recBits r 650 4), ctxOk := base != 0, spOff := off, spLen := recBits r 688 12 }
    eng := Vector.replicate 4 { pc := dw (recBits r 0 55) }
    regs := { s := regs, a := regs, c := Vector.ofFn fun i => if i.val = 1 then dw wid else 0 }
    csr := { win := BitVec.ofNat 16 (if win = 0 then 4096 else win), asid := (d.vf x.vf.toNat).asid, vfid := x.vf
             ctxptr := if base = 0 then 0 else dw (base + t * 0x18000) }
    lease := { cap := if cap = 0 then 64 else cap }
    net := { epoch := BitVec.ofNat 8 epoch, era := epoch / 256 } }

/-- Whether earlier work of a path of a tile has not ended: of an iteration that was pre-empted, or of a transform node. -/
def pathBusy (d : Dev) (t p : Nat) : Bool :=
  let k := d.cluster (t / 8)
  let queued (l : List Nat) : Bool := l.any fun q => !(d.queue t q).isEmpty
  let array : Bool := (k.mq.any fun m => m.tile == t) || (k.notes.any fun m => m.tile == t) || k.slots.toList.any fun s =>
    s.st != .free && match s.job with
      | some j => j.tile == t
      | none => false
  match p with
  | 0 => false
  | 1 => queued [0, 1, 2, 3]
  | 2 => queued [4]
  | 3 => queued [5] || array || d.later.any fun x => match x.el with
    | some e => e.ag == .tile t 3
    | none => false
  | 4 => (d.tile t).nq.toList.any fun l => !l.isEmpty
  | _ => array

/-- The timestamps of the paths of a tile at a dispatch (R310): those of the tile, past what its node's predecessors did; a path on which
earlier work has not ended stays at least where it is, so that what covers that work carries its timestamps (R309; DEDUCED, unsafe: log entry
108). -/
def startPts (d : Dev) (x : Node) (t : Nat) (old : Vector Dword 6) : Vector Dword 6 :=
  let from_ := dmax (vget (d.tile t).pts 0 0) x.ts
  Vector.ofFn fun p => if pathBusy d t p.val then dmax from_ old[p] else from_

/-- The larger of two timestamps, path by path. -/
def maxPts (a b : Vector Dword 6) : Vector Dword 6 := Vector.ofFn fun p => dmax a[p] b[p]

/-- A saved iteration keeps the timestamps that the paths of its tile have had (R309, R310). -/
def TCore.keepPts (y : Tile) (c : TCore) : TCore :=
  { c with keptPts := maxPts c.keptPts y.pts, keptOrd := maxPts c.keptOrd y.ordTs }

/-- The next iteration of node n starts on a tile (R43, R52); its paths read what its predecessors wrote (R310), and its instruction cache
is re-validated (R61). -/
def startIter (env : Env) (d : Dev) (n : Nat) (x : Node) (t : Nat) (bound : List (Nat × Nat)) : Dev :=
  let d1 := retag env { d with serial := d.serial + 1 } t x.vf
  let y := d1.tile t
  let off := (spPlace y (x.fld 688 12)).getD 0
  let d2 := d1.setTile t { y with
    running := true, epoch := y.epoch + 1, core := startCore d n x t d1.serial (y.epoch + 1) off
    pts := startPts d1 x t y.pts, ordTs := startPts d1 x t y.ordTs, saved := y.saved.map (·.keepPts y), icache := [], preReq := false }
  let d3 := if x.ph = .ready then setNodeState env d2 x.vf x.va 3 else d2
  { d3 with nodes := d3.nodes.set n { x with ph := .running, next := x.next + 1, bound := bound } }

/-- What a walker did: a dispatch, a resumption or a hand-over, which counts (R53); or no more than starting promotions (R344). -/
structure Pick where
  counts : Bool
  dev    : Dev

/-- What is left of an attempt that waits: the promotions it started, if any. -/
def promosOf (d d1 : Dev) : Option Pick :=
  if d1.mig.promos.length = d.mig.promos.length then none
  else some { counts := false, dev := { d with mig := { d.mig with promos := d1.mig.promos } } }

/-- A pre-empted iteration resumes on its tile (R54, R329): none where its context cannot be read. (DEDUCED, unsafe: log entry 48) -/
def resumeIter (env : Env) (d : Dev) (t : Nat) (c : TCore) : Option Pick :=
  match readContext env d t c with
  | .ok (core, asked) d1 =>
    let d2 := d1.onTile t fun y => { y with
      running := true, core := core, saved := y.saved.filter fun z => z.iter.serial != c.iter.serial
      preReq := false, pts := maxPts y.pts core.keptPts, ordTs := maxPts y.ordTs core.keptOrd }
    let d3 := if asked then askTurn d2 t else d2
    some { counts := true, dev := trace env d3 t 6 .x (core.pcOf .x) 0 }
  | .wait _ d1 => promosOf d d1
  | .trap _ _ _ _ _ => none
  | .sys _ _ => none
  | .roll _ => none

/-- Whether bytes of the image of a saved iteration are still to be written. -/
def imageDue (d : Dev) (t serial : Nat) : Bool :=
  d.later.any fun x => match x with
    | .image u n _ _ _ => u == t && n == serial
    | _ => false

/-- The pre-empted iterations of a node that a free tile holds and whose images are complete (R54). -/
def resumables (d : Dev) (n : Nat) : List (Nat × TCore) :=
  d.tiles.entries.flatMap fun e =>
    if tileIdle e.2 then (e.2.saved.filter fun c => c.iter.node == n && !imageDue d e.1 c.iter.serial).map fun c => (e.1, c) else []

/-! ### Transform nodes (R56) -/

/-- The command a record stands for. (DESIGN CHOICE, safe: log entry 21) -/
def recordKind (b : List Byte) : CmdKind :=
  match Config.transformKind b % 6 with
  | 0 => .copy
  | 1 => .copy2d
  | 2 => .gather
  | 3 => .scatter
  | 4 => .xfer
  | _ => .xferm

/-- The queue of a transform command. -/
def kindQueue : CmdKind → Nat
  | .copy => 3
  | .copy2d => 3
  | .gather => 4
  | .scatter => 4
  | .xfer => 5
  | .xferm => 5
  | .notify => 3
  | .implicit => 3

/-- The checks of a command (R150 to R154). -/
def kindCheck (env : Env) (core : TCore) (c : Cmd) (d : Dev) : Res Cmd :=
  match c.kind with
  | .copy => copyCheck core c d
  | .copy2d => copy2dCheck core c d
  | .gather => gatherCheck core c d
  | .scatter => gatherCheck core c d
  | .xfer => xferCheck env core c d
  | .xferm => xferCheck env core c d
  | .notify => .ok c d
  | .implicit => .ok c d

/-- What a path of a tile does from now on comes after what has the timestamp x (R310). -/
def orderPath (d : Dev) (t p : Nat) (x : Dword) : Dev :=
  d.onTile t fun y => { y with pts := vset y.pts p (dmax (vget y.pts 0 p) x), ordTs := vset y.ordTs p (dmax (vget y.ordTs 0 p) x) }

/-- The next command of transform node n goes to its tile; a record that cannot be read, or whose operands fail a check, is a
command that fails. The TIDs of a gather, a scatter or a transfer are those of the table of whatever iteration runs on the tile at the
hand-over; with none running the command fails (DESIGN CHOICE, unsafe: log entry 73: the spec names no table). -/
def handOver (env : Env) (d : Dev) (n : Nat) (x : Node) : Option Pick :=
  let tiles := nodeTiles env d x
  match tiles[x.next % tiles.length]? with
  | none => none
  | some t =>
    let w := whoVf d x.vf 640
    let x1 : Node := { x with ph := if x.ph = .ready then .running else x.ph, next := x.next + 1 }
    let did (d : Dev) : Option Pick := some { counts := true, dev := d }
    let begin_ (d : Dev) : Dev :=
      let d1 := if x.ph = .ready then setNodeState env d x.vf x.va 3 else d
      { d1 with nodes := d1.nodes.set n x1 }
    let base : Cmd := { kind := .copy, asid := w.asid, vf := x.vf, priv := w.priv, node := n, faultq := x.faultq }
    match hwRead env w (.stamp x.ts) 2 d (dw (x.fld 0 55 + 64 * x.next)) 64 with
    | .ok b d1 =>
      let c : Cmd := { base with kind := recordKind b, ops := (List.range 8).map fun i => dw (leNat ((b.drop (8 * i)).take 8)) }
      let q := kindQueue c.kind
      if 32 ≤ (d.queue t q).length then none else
      let d2 := begin_ (orderPath d1 t (aqPath q) x.ts)
      match kindCheck env (d.tile t).core c d2 with
      | .ok c1 d3 =>
        if c1.bytes = 0 then did (attempt d2 (signalCmd env t q c1 0 0 d3))
        else did (d3.setQueue t q (d3.queue t q ++ [c1]))
      | .trap code _ _ _ _ => did (failCmd env d2 t q c code 0 0)
      | .sys code va => did (failCmd env d2 t q c code 0 va)
      | .wait _ _ => none
      | .roll _ => none
    | .sys code va => did (failCmd env (begin_ d) t 3 base code 0 va)
    | .wait _ d1 => promosOf d d1
    | .trap _ _ _ _ _ => none
    | .roll _ => none

/-! ### The choice (R53 to R55) -/

/-- What a walker can do for a node now: resume one of its iterations, or dispatch its next iteration or command. -/
def tryNode (env : Env) (d : Dev) (held : Nat) (e : Nat × Node) : Option Pick :=
  match (resumables d e.1).findSome? fun p => resumeIter env d p.1 p.2 with
  | some d1 => some d1
  | none =>
    let x := e.2
    if x.ph = .failed || x.total ≤ x.next then none
    else if x.fld 658 2 = 1 then handOver env d e.1 x
    else match placeNext env d held e.1 x with
      | some (t, b) => some { counts := true, dev := startIter env d e.1 x t b }
      | none => none

/-- Insert a node before those of lower PRIO, or of equal PRIO that became ready later (R53). -/
def insertNode (e : Nat × Node) : List (Nat × Node) → List (Nat × Node)
  | [] => [e]
  | f :: r =>
    let p := e.2.fld 650 4
    let q := f.2.fld 650 4
    if q < p || (p = q && e.2.ready < f.2.ready) then e :: f :: r else f :: insertNode e r

/-- The nodes a die's walker enumerates that are ready, running, or failed with iterations to resume; none of a VF being torn down (R48,
R50, R333). -/
def walkerNodes (d : Dev) (die : Nat) : List (Nat × Node) :=
  d.nodes.entries.filter fun e =>
    (e.2.ph == .ready || e.2.ph == .running || e.2.ph == .failed) && !(d.vf e.2.vf.toNat).tearing &&
      e.2.die == die

/-- The dispatch a VF would get: of its first node, by descending PRIO and then by ready time, for which something can be done. -/
def tryVf (env : Env) (d : Dev) (held : Nat) (l : List (Nat × Node)) (v : Nat) : Option Pick :=
  ((l.filter fun e => e.2.vf.toNat == v).foldl (fun s e => insertNode e s) []).findSome? (tryNode env d held)

/-- The VFs of a list of nodes, in ascending order after VF `cur`, wrapping, `cur` itself last. -/
def vfOrder (l : List (Nat × Node)) (cur : Nat) : List Nat :=
  let ins (v : Nat) (s : List Nat) : List Nat := if s.contains v then s else
    let key (z : Nat) : Nat := (z + 1023 - cur) % 1024
    (s.filter fun z => key z < key v) ++ v :: s.filter fun z => key v < key z
  l.foldl (fun s e => ins e.2.vf.toNat s) []

/-- Keep the walker's current VF and its count. -/
def Dev.setWalker (d : Dev) (k : Nat) (w : Walker) : Dev := { d with walkers := d.walkers.set k w }

/-- How many group bindings a die's walker holds (R51): those of a failed or drained node count for as long as the node is listed
(DESIGN CHOICE, unsafe: log entry 82: the spec ends a binding only with the last dispatch of its group). -/
def heldBy (d : Dev) (die : Nat) : Nat :=
  (d.nodes.entries.filter fun e => e.2.die == die).foldl (fun a e => a + e.2.bound.length) 0

/-- The walker of a die makes one dispatch, weighted round robin over the VFs (R53); a step that only starts promotions is none. -/
def dispatchOne (env : Env) (d : Dev) (die : Nat) : Option Dev :=
  let w := d.walker die
  let l := walkerNodes d die
  let held := heldBy d die
  let go (v count : Nat) : Option Dev :=
    (tryVf env d held l v).map fun p =>
      if p.counts then p.dev.setWalker die { p.dev.walker die with cur := some (BitVec.ofNat 10 v), count := count } else p.dev
  let stay : Option Dev := match w.cur with
    | some c => if w.count < max 1 (d.vf c.toNat).wgt.toNat then go c.toNat (w.count + 1) else none
    | none => none
  match stay with
  | some d1 => some d1
  | none => (vfOrder l ((w.cur.map (·.toNat)).getD 1023)).findSome? fun v => go v 1

/-- The iteration that a node which cannot be placed pre-empts (R55): of its VF, of lower priority, with a context area, on an
available tile, in the bound cluster; the lowest priority, then the latest dispatched. A resumption is no dispatch here (DESIGN CHOICE,
unsafe: log entry 83: the spec does not say). -/
def victim (env : Env) (d : Dev) (x : Node) : Option Nat :=
  let r := x.copy.toNat
  let bound := lookupN (groupKey r (recWid r (recVals r x.next))) x.bound
  let ok (t : Nat) : Bool :=
    let y := d.tile t
    let i := y.core.iter
    y.running && !y.saving && !i.term && y.core.csr.vfid == x.vf && decide (i.prio.toNat < x.fld 650 4) && i.ctxOk &&
      (match bound with | some c => t / 8 == c | none => true)
  (((nodeTiles env d x).filter ok).foldl (fun (b : Option Nat) t => match b with
    | none => some t
    | some u =>
      let i := (d.tile t).core.iter
      let j := (d.tile u).core.iter
      if i.prio.toNat < j.prio.toNat || (i.prio = j.prio && j.serial < i.serial) then some t else some u) none)

/-- With no pre-emption in flight, the walker asks for one on behalf of the first node whose next iteration cannot be placed and
for which there is a victim (R55). It looks at iterations that have not been dispatched: none is pre-empted for a saved iteration
whose own tile runs another (DESIGN CHOICE, unsafe: log entry 97). -/
def choosePreempt (env : Env) (d : Dev) (die : Nat) : Dev :=
  let w := d.walker die
  let l := (walkerNodes d die).foldl (fun s e => insertNode e s) []
  if w.pre.isSome then d else
  match l.findSome? fun e =>
      if e.2.ph == .failed || e.2.fld 658 2 == 1 || decide (e.2.total ≤ e.2.next) || (placeNext env d (heldBy d die) e.1 e.2).isSome then none
      else victim env d e.2 with
  | some t => (d.setWalker die { w with pre := some t }).onTile t fun y => { y with preReq := true }
  | none => d

/-- A walker chooses: a dispatch where there is one, and a pre-emption for a node that cannot be placed (R53 to R55). -/
def walkerDispatch (env : Env) (d : Dev) : Dev :=
  choosePreempt env ((dispatchOne env d env.unit).getD d) env.unit

/-- WALKER_DISPATCH (R53). -/
def execWalkerDispatch (s : State) : Host.Outcome State Fault Refusal := s.run walkerDispatch

end Sys2Proof.Machine
end

