-- ==== Sys2Proof/Machine/Traps.lean ====
section
/-! DEFINITION. Rollback, the stall watchdog and pending results as events; pre-emption; retirement; TERMINATE; VF teardown (R74 to
R76, R176, R318, R322 to R325, R330 to R334). -/

namespace Sys2Proof.Machine

/-- Whether the engines of a tile may walk at all: an iteration runs, nothing freezes it, no debug stop holds it. -/
def tileLive (y : Tile) : Bool :=
  y.running && !y.saving && !y.core.trap.undel && !y.core.trap.stuck && !y.dbg.stopped && !y.dbg.pending && !y.core.iter.term

/-! ### Rollback, watchdog, pending results -/

/-- Whether a word ends in a region rollback. -/
def Res.rolls {α : Type} : Res α → Bool
  | .roll _ => true
  | .ok _ _ => false
  | .wait _ _ => false
  | .trap _ _ _ _ _ => false
  | .sys _ _ => false

/-- Whether a word rolls its tile back for state that is lost: of M, a product, a step, CEMIT or RCLOSE that needs the head or the boundary
(R203); of V, a VUNPARK (R327). -/
def lossAt (env : Env) (d : Dev) (a : At) (i : Instr) : Bool :=
  let m (f : Env → At → Dev → Res Unit) : Bool :=
    a.e == .m && !decide (((d.tile a.t).core.engine .a).walk.toNat < (d.tile a.t).core.mfence.toNat) && (f env a d).rolls
  match i with
  | .mma x y c md => m (mmaWord i false x y c md)
  | .mmas x y c md => m (mmaWord i true x y c md)
  | .rclose c => m (rcloseWord c)
  | .cemit => m fun _ => cemitWord
  | .cstep => m fun env a d => chainWord .cstep true a d fun d1 => stepWord .cstep env a d1
  | .chain n => m (runChain n)
  | .vunpark v => a.e == .v && (vunparkWord env v a d).rolls
  | _ => false

/-- Whether the word an engine of a tile stands at, and may walk now, rolls the tile back for state that is lost. -/
def lossDue (env : Env) (d : Dev) (t : Nat) (e : Eng) : Bool :=
  match ready d t e with
  | .go pc false => match (peekAt env d t e pc).map decodeTotal with
    | some i => lossAt env d ⟨t, e, pc, false⟩ i
    | none => false
  | .go _ true => false
  | .slip => false
  | .hold => false
  | .no => false

/-- A fault for which a rollback is made (R323): an uncorrectable error in the vector registers, the accumulator storage or an accepted
operand comes when it comes; for lost state or a lost copy, a word that needs it must stand at its turn. An uncorrectable error
in a line of memory is met by the accesses that reach it (R318). -/
def rollbackEvent (cause : Rollback) (env : Env) (d : Dev) : Dev :=
  let t := env.unit
  let go (e : Eng) (due : Bool) : Dev := if tileLive (d.tile t) && due then rollback env d t e cause else d
  match cause with
  | .uncorrectable => go .v true
  | .lostState => go .m (lossDue env d t .m)
  | .lostPark => go .v (lossDue env d t .v)
  | .inLine l => if d.bad.contains l then d else { d with bad := l :: d.bad }

/-- REGION_ROLLBACK (R74, R323). -/
def execRegionRollback (cause : Rollback) (s : State) : Host.Outcome State Fault Refusal := s.run (rollbackEvent cause)

/-- The watchdog's code of an engine's state, 0 for one that is not counted (R75). -/
def stallCode (g : Engine) : Nat :=
  if g.stopped then 11 else match g.wait with
    | some w => w.code.toNat
    | none => 0

/-- A byte of TINFO1 (R76). -/
def stallDetail (g : Engine) : Nat :=
  if g.stopped then 0 else match g.wait with
    | some w => if w.code.toNat ≤ 3 then w.detail.toNat else 0
    | none => 0

/-- The stall count reaches 2^20: ENGINE_STALL_WATCHDOG on X (R75, R76). -/
def watchdog (env : Env) (d : Dev) : Dev :=
  let t := env.unit
  let c := (d.tile t).core
  let e := c.eng.toList
  if tileLive (d.tile t) && c.trap.hand.isNone && e.all (fun g => stallCode g != 0) && !e.all (·.stopped) &&
      decide (2 ^ 20 ≤ c.stall) then
    let pack (f : Engine → Nat) : Nat := e.foldr (fun g a => f g + 256 * a) 0
    enterTrap env d t .x (c.engine .x).pc 0x0E (dw (pack stallCode)) (dw (pack stallDetail)) 0 0
  else d

/-- ENGINE_STALL_WATCHDOG (R75). -/
def execEngineStallWatchdog (s : State) : Host.Outcome State Fault Refusal := s.run watchdog

/-- V's wait is one whose cycles are issue cycles: at END or at RGN, or for a slot while eight results are pending (R175). -/
def tickWait (c : TCore) : Bool :=
  match (c.engine .v).wait with
  | some w => w.tick && (w.detail != 8 || c.sfuFull)
  | none => false

/-- V counts issue cycles while it waits at END, at RGN or for a slot, until the first pending result lands (R175 to R177); in the one cycle
of a STEP it counts that one, where it tries its word (R360). -/
def sfuLand (env : Env) (d : Dev) : Dev :=
  let t := env.unit
  let c := (d.tile t).core
  match c.pending with
  | [] => d
  | r :: l =>
    if tileLive (d.tile t) && (d.tile t).dbg.step.isNone && c.trap.hand.isNone && tickWait c then
      let n := l.foldl (fun a x => min a x.rem) r.rem
      d.onCore t fun y => (List.range (max 1 n)).foldl (fun z _ => issueTick z) y
    else d

/-- SFU_RESULT_LAND (R176). -/
def execSfuResultLand (s : State) : Host.Outcome State Fault Refusal := s.run sfuLand

/-- TCMD 1: an engine halted on a system fault walks its word again (R318, R321). -/
def resumeEngine (t : Nat) (g : Eng) (d : Dev) : Dev :=
  d.onCore t fun c => c.onEng g fun x => { x with halted := false }

/-- RESUME_ENGINE (R318). -/
def execResumeEngine (g : Eng) (s : State) : Host.Outcome State Fault Refusal := s.run fun env d => resumeEngine env.unit g d

/-! ### Pre-emption -/

/-- No walker waits for the pre-emption of a tile any more. -/
def clearPre (d : Dev) (t : Nat) : Dev :=
  { d with walkers := ⟨d.walkers.entries.map fun e => (e.1, if e.2.pre = some t then { e.2 with pre := none } else e.2)⟩ }

/-- A pre-emption request is taken: the tile stops, and what its engines were blocked on is abandoned (R325). Under a debug stop
it waits (R361). -/
def takePreempt (env : Env) (d : Dev) : Dev :=
  let t := env.unit
  let y := d.tile t
  if y.running && y.preReq && !y.saving && !y.dbg.stopped && !y.dbg.pending && y.dbg.step.isNone then
    (dropWaiter d t).onTile t fun z => { z with saving := true, preReq := false, core := z.core.abandon }
  else d

/-- PREEMPT_REQUEST (R325). -/
def execPreemptRequest (s : State) : Host.Outcome State Fault Refusal := s.run takePreempt

/-- On whose behalf a save reaches an address: the iteration's own for its context area, the VF's for the park block. -/
def whoSave (d : Dev) (t : Nat) (va : Dword) : Who :=
  let c := (d.tile t).core
  if decide (c.csr.ctxptr.toNat ≤ va.toNat) && decide (va.toNat < c.csr.ctxptr.toNat + 0x18000) then { whoTile d t with unit := .own }
  else whoVf d c.csr.vfid t

/-- The save of a tile ends: the iteration is saved and the tile free (R325), or the save has faulted and the tile goes on as if
nothing had been (R331). -/
def saveDone (env : Env) (d : Dev) : Dev :=
  let t := env.unit
  let y := d.tile t
  let k := d.cluster (t / 8)
  let asked := k.holder == some t || k.reqs.contains t
  if !(y.running && y.saving) then d else
  match writeContext env d t asked with
  | .ok _ d1 =>
    let d2 := trace env (endTurn d1 t 6) t 5 .x (y.core.pcOf .x) 0
    let c := (d2.tile t).core
    let d3 := (clearPre d2 t).onTile t fun z => { z with running := false, saving := false, saved := z.saved ++ [c], core := {} }
    postFault env d3 c.iter.faultq { addr := c.csr.ctxptr, tile := t, vf := c.csr.vfid, kind := 6, code := 0x27 }
  | .wait _ d1 => waitLeft d d1
  | .sys code va =>
    let d1 := if code = 0 then d else keepTlb env d (whoSave d t va) va
    postFault env ((clearPre d1 t).onTile t fun z => { z with saving := false }) y.core.iter.faultq
      { addr := va, tile := t, vf := y.core.csr.vfid, kind := 3, code := code }
  | .trap _ _ _ _ _ => d
  | .roll _ => d

/-- CONTEXT_SAVE_DONE (R325, R331). -/
def execContextSaveDone (s : State) : Host.Outcome State Fault Refusal := s.run saveDone

/-! ### Retirement -/

/-- Commands, remote words, notifies, accepted matrix commands and closed slots that an iteration of a tile has issued and that
have not ended (R334). -/
def iterBusy (d : Dev) (t serial : Nat) : Bool :=
  let y := d.tile t
  let k := d.cluster (t / 8)
  y.aq.toList.any (·.any fun c => c.serial == serial) || y.nq.toList.any (·.any fun c => c.serial == serial) ||
    (k.mq.any fun m => m.tile == t && m.serial == serial) || (k.notes.any fun m => m.tile == t && m.serial == serial) ||
    k.slots.toList.any fun s => s.st != .free && match s.job with
      | some j => j.tile == t && j.serial == serial
      | none => false

/-- The open head of a tile's iteration is freed behind its accepted commands, as RDROP frees it (R218). -/
def freeHead (d : Dev) (t : Nat) : Dev :=
  match (d.tile t).core.head with
  | none => d
  | some h => pushMq (d.onCore t fun y => { y with head := none }) t (.drop h)

/-- The combiner retires the iteration of a tile (R71, R193, R334). -/
def retire (env : Env) (d : Dev) : Dev :=
  let t := env.unit
  let y := d.tile t
  let c := y.core
  if y.running && !y.saving && !y.dbg.stopped && !y.dbg.pending && c.trap.hand.isNone && !c.trap.undel && !c.trap.stuck &&
      c.eng.toList.all (·.stopped) && !iterBusy d t c.iter.serial then
    let d1 := unparkAll (freeHead d t) t
    let top := (List.range 6).foldl (fun a p => dmax a (getPts d1 (.tile t p))) 0
    let d2 := match d1.node c.iter.node with
      | some x => { d1 with nodes := d1.nodes.set c.iter.node { x with ts := dmax x.ts top } }
      | none => d1
    let d3 := (clearPre d2 t).onTile t fun z => { z with running := false, preReq := false, core := {} }
    { d3 with retMsgs := d3.retMsgs ++ [{ node := c.iter.node, wid := c.iter.wid, term := c.iter.term }] }
  else d

/-- ITERATION_RETIREMENT (R334). -/
def execIterationRetirement (s : State) : Host.Outcome State Fault Refusal := s.run retire

/-- TERMINATE (R322): the engines stop, halts, handler and debug stop end, queues, pending results and parked copies are discarded,
the open head is freed, turn and lease end; the end of a debug stop leaves its trace record (R361, R365). The node fails when the message of the retirement reaches its walker (R334). (DEDUCED, unsafe: log entry 50) -/
def terminate (env : Env) (t : Nat) (d : Dev) : Dev :=
  if !(d.tile t).running then d else
  let d0 := if (d.tile t).dbg.inStop then traceRun env d t 4 .x else d
  let d1 := clearPre (unparkAll (freeHead (endLease (dropWaiter d0 t) t 8) t) t) t
  d1.onTile t fun y =>
    let c := y.core.abandon
    { y with
      saving := false, preReq := false
      dbg := { y.dbg with stopped := false, pending := false, step := none }
      core := { c with
        eng := c.eng.map fun g => { g with stopped := true, halted := false, outs := [] }
        q := {}
        sfu := Vector.replicate 8 none
        iter := { c.iter with term := true }
        trap := { c.trap with hand := none, undel := false, stuck := false, pendRb := none, mHold := false } } }

/-- TERMINATE (R322). -/
def execTerminate (s : State) : Host.Outcome State Fault Refusal := s.run fun env d => terminate env env.unit d

/-! ### Teardown of a VF (R333) -/

/-- Discard the pre-empted iterations of a VF on a tile with their contexts; an open head is freed behind its commands. -/
def discardSaved (vf : BitVec 10) (t : Nat) (d : Dev) : Dev :=
  let gone := (d.tile t).saved.filter fun c => c.csr.vfid == vf
  let d1 := gone.foldl (fun d c => match c.head with
    | some h => d.onCluster (t / 8) fun k => settleMq { k with mq := k.mq ++ [{ kind := .drop h, tile := t, serial := c.iter.serial, vf := vf, walk := 0 }] }
    | none => d) d
  settlePark (d1.onTile t fun y => { y with saved := y.saved.filter fun c => c.csr.vfid != vf }) (t / 8)

/-- A write of TEAR = 1: step 1 of R333. -/
def tearVf (env : Env) (v : Nat) (d : Dev) : Dev :=
  if (d.vf v).tearing then d else
  let vf := BitVec.ofNat 10 v
  let d0 := d.setVf v { d.vf v with tearing := true }
  (d0.tiles.entries.map (·.1)).foldl (fun d t =>
    discardSaved vf t (if (d.tile t).running && (d.tile t).core.csr.vfid == vf then terminate env t d else d)) d0

/-- VF_TEARDOWN (R333). -/
def execVfTeardown (s : State) : Host.Outcome State Fault Refusal := s.run fun env d => tearVf env env.unit d

/-- What a tile still holds of a VF's commands and remote words is given up (R333 steps 3 to 5). -/
def dropVfWork (vf : BitVec 10) (y : Tile) : Tile :=
  { y with aq := y.aq.map fun l => l.filter fun c => c.vf != vf, nq := y.nq.map fun l => l.filter fun e => e.vf != vf }

/-- Whether something that waits is hardware's own on behalf of a VF. -/
def Later.ofVf (vf : BitVec 10) : Later → Bool
  | .flag w _ _ _ _ _ => w.vf == vf
  | .record v _ _ => v == vf
  | .prof w _ _ => w.vf == vf
  | .image _ _ w _ _ => w.vf == vf
  | .state v _ _ => v == vf
  | .release v _ => v == vf.toNat
  | .ringPa v _ _ _ => v == vf
  | .land e => e.gen.vf == vf
  | .load _ _ => false
  | .dirEnd v _ => v == vf
  | .send _ _ p _ => match p with
    | .remote _ h _ => h.vf == vf
    | .xfer _ h _ => h.vf == vf

/-- What the migration engine and the targets of remote words hold of a VF is given up, with no record (R333, R349, R353). -/
def dropVfPages (vf : BitVec 10) (d : Dev) : Dev :=
  { d with
    owners := d.owners.filter fun o => o.1 != vf
    redirs := d.redirs.filter fun r => r.vf != vf
    relays := d.relays.filter fun r => r.hdr.vf != vf
    reports := d.reports.filter fun r => r.vf != vf
    later := d.later.filter fun x => !x.ofVf vf
    streams := ⟨d.streams.entries.map fun e => (e.1, { e.2 with held := e.2.held.filter fun h => h.hdr.vf != vf })⟩
    mig := { d.mig with
      cmds := d.mig.cmds.filter fun c => c.vf != vf
      ovt := d.mig.ovt.filter fun o => o.vf != vf
      stubs := d.mig.stubs.filter fun o => o.vf != vf
      promos := d.mig.promos.filter fun o => o.vf != vf
      freezes := d.mig.freezes.filter fun o => o.vf != vf
      incoming := d.mig.incoming.filter fun o => o.vf != vf } }

/-- What a cluster still does for a VF is given up, with no record (R333): its accepted commands, the rake's work for it and the slots that
wait for the rake; open heads and the boundary are left to the next hand-over (R203). -/
def dropVfArray (env : Env) (vf : BitVec 10) (c : Nat) (d : Dev) : Dev :=
  let k := d.cluster c
  let mine (s : Nat) : Bool := (k.slot s).vf == vf && ((k.slot s).st == .closed || (k.slot s).st == .draining)
  let gone := (List.range 8).filter mine
  let d1 := unpin env d ((k.mq.filter fun m => m.vf == vf).flatMap (·.pins))
  d1.onCluster c fun k =>
    let k1 := settleMq { k with mq := k.mq.filter fun m => m.vf != vf }
    gone.foldl (fun k s => k.freeSlot s) { k1 with rake := k1.rake.filter fun r => !gone.contains r.slot.toNat }

/-- The wait of R333 ends: the generation moves on, what is owed to the VF is released, its nodes are gone. (DEDUCED, unsafe: log entry 50) -/
def tearEnd (env : Env) (v : Nat) (d : Dev) : Dev :=
  let b := d.vf v
  if !b.tearing then d else
  let vf := BitVec.ofNat 10 v
  let d0 := (d.clusters.entries.map (·.1)).foldl (fun d c => dropVfArray env vf c d) d
  let d1 := d0.setVf v { b with tearing := false, gen := b.gen + 1 }
  dropVfPages vf { d1 with
    tiles := ⟨d1.tiles.entries.map fun e => (e.1, dropVfWork vf e.2)⟩
    nodes := d1.nodes.keep fun _ x => x.vf != vf }

/-- TEARDOWN_TIMEOUT (R333). -/
def execTeardownTimeout (s : State) : Host.Outcome State Fault Refusal := s.run fun env d => tearEnd env env.unit d

end Sys2Proof.Machine
end

