-- ==== Sys2Proof/Machine/Time.lean ====
section
/-! DEFINITION. What cycles of a tile do: CYCLE and pts (R127, R300), the counts of a profiling session (R367), the stall watchdog (R75,
R76). -/

namespace Sys2Proof.Machine

/-- Engines of a tile whose wait has one of some codes. -/
def waiting (y : Tile) (codes : List Nat) : Nat :=
  (y.core.eng.toList.filter fun e => match e.wait with | some w => codes.contains w.code.toNat | none => false).length

/-- Whether an attempt waits on a share bucket (R269). -/
def Res.onShare {α : Type} : Res α → Bool
  | .wait w _ => w == Wait.share
  | .ok _ _ => false
  | .trap _ _ _ _ _ => false
  | .sys _ _ => false
  | .roll _ => false

/-- The transfer at the head of a tile's XFQ waits for a token of its bucket. -/
def xferOnShare (env : Env) (d : Dev) (t : Nat) : Bool :=
  match xferHead d t with
  | none => false
  | some c => ((startXfer env t c d).bind fun c1 d1 =>
      match c1.sent.find? fun n => decide (n < c1.box.packets) with
      | some p => readRun env t c1 p d1
      | none => .ok [] d1).onShare

/-- The rake of a tile's cluster, at work on a slot that the tile closed, waits for a token of its bucket. -/
def rakeOnShare (env : Env) (d : Dev) (t : Nat) : Bool :=
  match rakeOf d (t / 8) with
  | none => false
  | some (r, x, j) => j.tile == t && r.stall.isNone &&
      (if j.xfer then
        let n := (r.sent.findIdx? fun p => decide (p < (j.box x).packets)).getD 0
        (rakeSend env n r x j d).onShare
      else decide (r.elem < x.m * x.n) && (rakeWrite env j x r d).onShare)

/-- The REQ messages of a tile that wait on its bucket (R269): those of its engines, of the heads of its queues and of the rake. -/
def shareWaits (env : Env) (d : Dev) (t : Nat) : Nat :=
  let engines := (d.tile t).core.eng.toList.countP fun e => e.wait == some Wait.share
  if !(d.share (dieOfTile t)).gate then engines else
  let head (q : Nat) : Bool := match movingHead d t q with
    | some c => decide (c.off < c.bytes) && (sendChunk env t q c 1 d).onShare
    | none => false
  engines + (List.range 5).countP head + b2n (xferOnShare env d t) + b2n (rakeOnShare env d t)

/-- The session of a tile's VF counts n cycles of it (R367). (DESIGN CHOICE, unsafe: log entry 94) -/
def countCycles (env : Env) (t n : Nat) (d : Dev) : Dev :=
  let y := d.tile t
  if !y.running then d else
  let vf := y.core.csr.vfid
  countEv (countEv (countEv (countEv d t vf 1 n) t vf 3 (n * waiting y [4])) t vf 4 (n * waiting y [1, 2])) t vf 7 (n * shareWaits env d t)

/-- Every engine of a tile is in a state that the watchdog counts, and some engine has not stopped (R75). -/
def TCore.stalls (c : TCore) : Bool :=
  c.trap.hand.isNone && c.eng.toList.all (fun g => stallCode g != 0) && !c.eng.toList.all (·.stopped)

/-- n cycles pass on a tile: its watchdog counts them or not, and a count that reaches 2^20 ends in ENGINE_STALL_WATCHDOG (R75). -/
def spend (env : Env) (t n : Nat) (stalls : Bool) (d : Dev) : Dev :=
  watchdog { env with unit := t }
    ((countCycles env t n (tileTime t n d)).onCore t fun c => { c with stall := if stalls then c.stall + n else 0 })

end Sys2Proof.Machine
end

