-- ==== Sys2Proof/Machine/Debug.lean ====
section
/-! DEFINITION. Debug stops, single steps, breakpoints and images (R360 to R363), trace records about them (R365), and profiling
sessions (R367, R368). -/

namespace Sys2Proof.Machine

/-- A change to the debug registers of a tile. -/
def onDbg (d : Dev) (t : Nat) (f : Dbg → Dbg) : Dev := d.onTile t fun y => { y with dbg := f y.dbg }

/-- A waiting WFE, FLAGWAIT or BARWAIT is abandoned; every other word stays in progress (R361). -/
def dropWaits (c : TCore) : TCore :=
  let c1 := c.onEng .a fun g => { g with wait := g.wait.filter fun w => w.code != 8 && w.code != 9 }
  c1.onEng .x fun g => { g with wait := g.wait.filter fun w => w.code != 0 }

/-- Whether something that waits is the reload of a tile's image. -/
def Later.loads (t : Nat) : Later → Bool
  | .load _ u => u == t
  | .flag _ _ _ _ _ _ => false
  | .record _ _ _ => false
  | .prof _ _ _ => false
  | .image _ _ _ _ _ => false
  | .state _ _ _ => false
  | .release _ _ => false
  | .ringPa _ _ _ _ => false
  | .land _ => false
  | .dirEnd _ _ => false
  | .send _ _ _ _ => false

/-- A debug stop begins (R361): `hit` are the breakpoints that caused it. With an image to write it is pending until that is done. -/
def debugStop (env : Env) (t hit : Nat) (e : Eng) (d : Dev) : Dev :=
  let d0 := { d with later := d.later.filter fun x => !x.loads t }
  let d1 := (dropWaiter d0 t).onTile t fun y =>
    let img := y.dbg.img.toNat / 4096 != 0
    { y with core := { dropWaits y.core with skip := Eng.all.map fun g => (g, y.core.pcOf g) }
             dbg := { y.dbg with stopped := !img, pending := img, bphit := BitVec.ofNat 4 hit, step := none } }
  traceRun env d1 t 3 e

/-- STOP (R360, R361). (DEDUCED, unsafe: log entry 54) -/
def dbgStop (t : Nat) (env : Env) (d : Dev) : Dev := if (d.tile t).dbg.inStop then d else debugStop env t 0 .x d

/-- DBG_STOP (R361). -/
def execDbgStop (s : State) : Host.Outcome State Fault Refusal := s.run fun env d => dbgStop env.unit env d

/-- The tile has written its image (R362), which waits while a page of it is frozen; a write that faults leaves the tile stopped. -/
def imageWritten (env : Env) (d : Dev) : Dev :=
  let t := env.unit
  let pa := (d.tile t).dbg.img.toNat / 4096 * 4096
  if !(d.tile t).dbg.pending then d else
  match physCheck env d pa 0x18000 with
  | .ok _ _ =>
    onDbg (storeSpan env .none (d.frame (pa / 65536)).vf 0 0x18001 d (.hbm pa) (ctxImage d t ((d.cluster (t / 8)).reqs.contains t))) t
      fun g => { g with stopped := true, pending := false, imgFault := false }
  | .wait _ _ => d
  | .sys _ _ => onDbg d t fun g => { g with stopped := true, pending := false, imgFault := true }
  | .trap _ _ _ _ _ => d
  | .roll _ => d

/-- DEBUG_IMAGE_WRITTEN (R362). -/
def execDebugImageWritten (s : State) : Host.Outcome State Fault Refusal := s.run imageWritten

/-- Every item of the image is reloaded, but for the pending results, and the tile goes on from there (R362). -/
def reload (b : List Byte) (t : Nat) (d : Dev) : Dev :=
  let d1 := d.onCore t fun c =>
    let r := ctxRestore b c
    { r with trap := { r.trap with undel := false, stuck := false } }
  let d2 := onDbg d1 t fun g => { g with imgFault := false }
  if imgFlag b 18 && (d.cluster (t / 8)).holder != some t then askTurn d2 t else d2

/-- The breakpoints that hit for an engine that is about to walk a word (R363). -/
def hitsOf (d : Dev) (t : Nat) (e : Eng) : Nat :=
  match ready (onDbg d t fun g => { g with bpctl := Vector.replicate 4 0 }) t e with
  | .go pc _ => bpMask (d.tile t) e pc
  | .slip => 0
  | .hold => 0
  | .no => 0

/-- The breakpoints that hit at one edge, as BPHIT bits (R363). -/
def allHits (d : Dev) (t : Nat) : Nat := Eng.all.foldl (fun a g => a ||| hitsOf d t g) 0

/-- The engine whose breakpoint makes a stop: the first of those that hit, or X for a stop that none makes. -/
def hitEng (d : Dev) (t : Nat) : Eng := (Eng.all.find? fun e => hitsOf d t e != 0).getD .x

/-- Whether the image can be read now, where a reload is asked for (R362): with no image it cannot; a frozen page is waited for (R340). -/
def loadCheck (env : Env) (load : Bool) (t : Nat) (d : Dev) : Res Unit :=
  let pa := (d.tile t).dbg.img.toNat / 4096 * 4096
  if !load then .ok () d else if pa = 0 then .sys 0 0 else physCheck env d pa 0x18000

/-- The stop ends, from the frozen state or from the image; a STEP begins its cycle, and a breakpoint that hits at its edge stops the tile
before any word is walked (R360, R362, R363). -/
def goOn (env : Env) (step load : Bool) (t : Nat) (d : Dev) : Dev :=
  let pa := (d.tile t).dbg.img.toNat / 4096 * 4096
  let d1 := if load && (d.tile t).running then reload (Memory.read d.mem pa 0x18000) t d else d
  let d2 := traceRun env (onDbg d1 t fun g => { g with stopped := false, pending := false, step := if step then some [] else none }) t 4 .x
  if step && allHits d2 t != 0 then debugStop env t (allHits d2 t) (hitEng d2 t) d2 else d2

/-- RESUME, or STEP: the stop ends (R360, R362); a reload waits for a frozen page (R340), and a faulting one leaves the tile stopped. -/
def dbgGo (step load : Bool) (t : Nat) (env : Env) (d : Dev) : Dev :=
  if !(d.tile t).dbg.inStop then d else
  match loadCheck env load t d with
  | .ok _ _ => goOn env step load t d
  | .wait _ _ => d.defer (.load step t)
  | .sys _ _ => onDbg d t fun g => { g with imgFault := true }
  | .trap _ _ _ _ _ => d
  | .roll _ => d

/-- DBG_RESUME (R362). -/
def execDbgResume (load : Bool) (s : State) : Host.Outcome State Fault Refusal := s.run fun env d => dbgGo false load env.unit env d
/-- DBG_STEP (R360). -/
def execDbgStep (load : Bool) (s : State) : Host.Outcome State Fault Refusal := s.run fun env d => dbgGo true load env.unit env d

/-- The cycle of a STEP is over: no engine is left that could act in it (R360). It is one cycle of the tile (R127), which its watchdog counts
or not as every engine has just been tried (R75); breakpoints that held an engine in it make the stop (R363). -/
def stepEnd (env : Env) (d : Dev) : Dev :=
  let t := env.unit
  if (d.tile t).dbg.step.isSome && Eng.all.all fun e => ready d t e == .no then
    debugStop env t (allHits d t) (hitEng d t) (spend env t 1 (d.tile t).core.stalls d)
  else d

/-- DEBUG_STEP_END (R360). -/
def execDebugStepEnd (s : State) : Host.Outcome State Fault Refusal := s.run stepEnd

/-- A breakpoint hits: those of one edge make one stop (R363). -/
def breakpointHit (env : Env) (d : Dev) : Dev :=
  let t := env.unit
  if allHits d t = 0 then d else debugStop env t (allHits d t) (hitEng d t) d

/-- BREAKPOINT_HIT (R363). -/
def execBreakpointHit (s : State) : Host.Outcome State Fault Refusal := s.run breakpointHit

/-- A write of DBGCTL (R360). -/
def dbgctlWrite (t : Nat) (v : Dword) (env : Env) (d : Dev) : Dev :=
  match v.toNat with
  | 1 => dbgStop t env d
  | 5 => dbgStop t env d
  | 2 => dbgGo false false t env d
  | 6 => dbgGo false true t env d
  | 8 => dbgGo true false t env d
  | 12 => dbgGo true true t env d
  | _ => d

/-! ### Profiling sessions -/

/-- A write of PSESS (R368). -/
def psessWrite (k : Nat) (v : Dword) (d : Dev) : Dev :=
  d.setVf k { d.vf k with ver := v.setWidth 16, active := v.getLsbD 16, changed := bitsN v 0 16 != 3 }

/-- PSESS_WRITE (R368). -/
def execPsessWrite (v : Dword) (s : State) : Host.Outcome State Fault Refusal := s.run fun env d => psessWrite env.unit v d

/-- EVCNTn as it reads: all ones where its event is absent from set 3 (R368). -/
def evcnt (b : VfBlk) (n : Nat) : Dword :=
  let e := (vget b.evsel 0 n).toNat
  if 1 ≤ e && e ≤ 8 then vget b.evcnt 0 n else BitVec.allOnes 64

end Sys2Proof.Machine
end

