-- ==== Sys2Proof/Machine/Lanes.lean ====
section
/-! DEFINITION. The links of the fabric: flits as they arrive, the health of lanes, peers that are lost (R277 to R279, R284 to
R286). -/

namespace Sys2Proof.Machine

/-- The counter of departures rises and the lane retrains (R286). -/
def Lane.depart (l : Lane) : Lane := { l with state := 3, ldrop := sat32 l.ldrop 1 }

/-- The lane is handed back (R286). -/
def Lane.comeBack (l : Lane) : Lane := { l with state := 1, lback := sat32 l.lback 1, tries := 0 }

/-- A path to a peer is up again, which gives a lost one back (R284). -/
def foundPeer (b peer : Nat) (d : Dev) : Dev :=
  if pathUp d b peer then { d with peersLost := d.peersLost &&& ~~~(BitVec.ofNat 64 1 <<< peer) } else d

/-- The sender resends, or sends under its new lane set, every flit that no RSEQ covers (R278, R286). -/
def restripe (b peer : Nat) (d : Dev) : Dev :=
  let l := d.link b peer
  d.setLink b peer { l with replay := l.replay.map fun f => { f with lane := stripe d b peer f.seq } }

/-- The first lane of a sub-link is active again: its allowances start at ALLOW, and what waits for a lane goes out on it (R279, R284). -/
def firstLane (b peer : Nat) (d : Dev) : Dev :=
  let l := d.link b peer
  restripe b peer (d.setLink b peer { l with allow := (d.bridge b).allow.map (·.toNat) })

/-- The sender takes a lane out of its set, or puts it back: the flit that announces it is striped under the old set, the next one under
the new (R286). A lane it already has out or in stays so, and the last one does not leave. -/
def announce (b peer : Nat) (away : Bool) (q : Nat) (d : Dev) : Dev :=
  let l := d.link b peer
  if l.sendOff.contains q = away || (away && sendLanes d b peer == [q]) then d else
  let d1 := emitFlit d b peer .mgt true 255 [] (some (if away then .leave q else .back q))
  let m := d1.link b peer
  let d2 := d1.setLink b peer { m with sendOff := if away then q :: m.sendOff else m.sendOff.filter (· != q) }
  if away then d2 else foundPeer b peer (if (sendLanes d b peer).isEmpty then firstLane b peer d2 else d2)

/-- The lane on plane q of the peer has lost lock there: it leaves the sender's set without announcement, and what no RSEQ covers is striped
anew (R286). How the sender learns of it is not given: the model's receiver says so in a flit. (DESIGN CHOICE, safe: log entry 84) -/
def lostLock (b peer q : Nat) (d : Dev) : Dev :=
  let l := d.link b peer
  restripe b peer (d.setLink b peer { l with sendOff := if l.sendOff.contains q then l.sendOff else q :: l.sendOff })

/-- The boundary that a flit announces is reached: every flit below the next SEQ is delivered (R286). A leaving lane has left; a returning one is
back, at the boundary of its return alone. -/
def reachBound (b peer : Nat) (away : Bool) (q : Nat) (d : Dev) : Dev :=
  let x := d.lane b q peer
  if away && x.state == 2 then d.setLane b q peer x.depart
  else if !away && x.state == 4 then foundPeer b peer (d.setLane b q peer x.comeBack)
  else d

/-- What a delivered flit says of the lanes on which this device receives, or asks or says of those on which it sends (R286). -/
def laneNews (b peer : Nat) (c : LaneChange) (d : Dev) : Dev :=
  match c with
  | .leave q => reachBound b peer true q d
  | .back q => reachBound b peer false q d
  | .askLeave q => announce b peer true q d
  | .askBack q => announce b peer false q d
  | .lost q => lostLock b peer q d

/-- The acknowledgement that a flit brings ends replay up to it; NAK has the rest sent again (R278). -/
def takeRseq (b peer : Nat) (f : Flit) (d : Dev) : Dev :=
  let l := d.link b peer
  let d1 := d.setLink b peer { l with replay := l.replay.filter fun g => !newer f.rseq g.seq }
  if f.nak then restripe b peer d1 else d1

/-- The allowances that a delivered flit returns (R279). -/
def takeReturns (b peer : Nat) (f : Flit) (d : Dev) : Dev :=
  let al := allowOf d b peer
  let r := [f.rreq, f.rrsp, f.ratm, f.rmgt]
  d.setLink b peer { d.link b peer with allow := Vector.ofFn fun k => vget al 0 k.val + (r.getD k.val 0).toNat }

/-- A packet that this device takes in (R280): one of another OP is discarded on receipt. -/
def knownPkt : Packet → Bool
  | .remote _ h _ => 0x01 ≤ h.op.toNat && h.op.toNat ≤ 0x1F && !(0x0A ≤ h.op.toNat && h.op.toNat ≤ 0x0F)
  | .xfer _ _ _ => true

/-- The packets that end in a flit arrive; the last of them holds the flit's buffer, and those of the flits before it in which none ended. A
discarded packet's allowance goes back at once (R279, R280; DEDUCED, unsafe: log entry 88). -/
def takePkts (b : Nat) (peer : BitVec 6) (f : Flit) (d : Dev) : Dev :=
  if f.empty then d else
  let l := d.link b peer.toNat
  let k := clsIdx f.cls
  let n := vget l.carry 0 k + 1
  let last := f.pkts.length - 1
  let fl := f.pkts.zipIdx.map fun x =>
    ({ pkt := x.1, src := peer, path := BitVec.ofNat 2 b, units := if x.2 = last then n else 0 } : Flight)
  let gone := (fl.filter fun x => !knownPkt x.pkt).foldl (fun a x => a + x.units) 0
  { d.setLink b peer.toNat { l with carry := vset l.carry k (if f.pkts.isEmpty then n else 0), ret := vset l.ret k (vget l.ret 0 k + gone) } with
    flights := d.flights ++ fl.filter fun x => knownPkt x.pkt }

/-- A flit is delivered in its turn (R277): its packets arrive on this path from this peer, and the boundary that it announces is reached. -/
def deliverFlit (b : Nat) (peer : BitVec 6) (f : Flit) (d0 : Dev) : Dev :=
  let p := peer.toNat
  let d := takeReturns b p f d0
  let l := d.link b p
  let d1 := takePkts b peer f (d.setLink b p { l with expect := l.expect + 1 })
  match f.change with
  | some c => laneNews b p c d1
  | none => d1

/-- Deliver the flits that arrived early and whose turn has come (R277). -/
def deliverEarly (b : Nat) (peer : BitVec 6) : Nat → Dev → Dev
  | 0, d => d
  | n + 1, d =>
    let l := d.link b peer.toNat
    match l.early.find? fun f => f.seq == l.expect with
    | none => d
    | some f =>
      deliverEarly b peer n (deliverFlit b peer f (d.setLink b peer.toNat { l with early := l.early.filter fun g => g.seq != f.seq }))

/-- A flit with good codewords arrives on a lane (R277): delivered in its turn, kept until then, or a repetition. -/
def flitGood (b : Nat) (peer : BitVec 6) (f : Flit) (d : Dev) : Dev :=
  let p := peer.toNat
  let d1 := takeRseq b p f d
  let l := d1.link b p
  if f.seq = l.expect then
    let d2 := deliverEarly b peer l.early.length (deliverFlit b peer f d1)
    if f.empty then d2 else ackFlit d2 b p
  else if newer f.seq l.expect && !(l.early.any fun g => g.seq == f.seq) then
    d1.setLink b p { l with early := l.early ++ [f] }
  else d1

/-- The codewords that a discarded flit is the first to show (R278, R285): a flit lies in two of them at most, and one touches up to three flits
after the first. -/
def Lane.countBad (x : Lane) (n : Nat) : Lane :=
  let k := if n = 0 && x.badLeft = 0 then 1 else min 2 n
  { x with lunc := sat32 x.lunc k, badLeft := if k = 0 then x.badLeft - 1 else 3 }

/-- A flit arrives on the lane on which its sender striped it (R277, R278), which is active or returning: one that an uncorrectable codeword
touches is discarded, and NAK goes out. A codeword touches several flits, so that LUNC rises by those that this one is the first to show. -/
def flitArrives (q : Nat) (peer : BitVec 6) (f : Flit) (bad : Bool) (env : Env) (d : Dev) : Dev :=
  let b := env.unit
  let p := peer.toNat
  let x := d.lane b q p
  if peer = env.caps.devid || !(x.live || x.state == 4) || f.lane != q then d
  else if bad then
    let d1 := d.setLane b q p (x.countBad (Config.badWords env.tick))
    let d2 := d1.setLink b p { d1.link b p with nak := true }
    ackFlit d2 b p
  else flitGood b peer f (d.setLane b q p { x with badLeft := 0 })

/-- FLIT_RECEIVE (R277). -/
def execFlitReceive (q : Nat) (peer : BitVec 6) (f : Flit) (bad : Bool) (s : State) : Host.Outcome State Fault Refusal :=
  s.run (flitArrives q peer f bad)

/-- The errors of a complete window (R285). -/
def Lane.window (l : Lane) (errs : Nat) : Lane :=
  { l with lerr := BitVec.ofNat 20 (min errs 0xFFFFF), lcorr := BitVec.ofNat 48 (min (l.lcorr.toNat + errs) (2 ^ 48 - 1)) }

/-- A lane's window ends (R285, R286): with more errors than LIMIT, and another lane active, a leave request goes out. -/
def windowEnds (q : Nat) (peer : BitVec 6) (errs : Nat) (env : Env) (d : Dev) : Dev :=
  let b := env.unit
  let p := peer.toNat
  let x := (d.lane b q p).window errs
  let other := (d.lane b (1 - q) p).state == 1
  if x.state = 1 && decide ((d.bridge b).limit.toNat < errs) && other && peer != env.caps.devid then
    emitFlit (d.setLane b q p { x with state := 2 }) b p .mgt true 255 [] (some (.askLeave q))
  else if x.state = 0 || x.state = 3 || x.state = 5 then d
  else d.setLane b q p x

/-- LANE_WINDOW_END (R285). -/
def execLaneWindowEnd (q : Nat) (peer : BitVec 6) (errs : Nat) (s : State) : Host.Outcome State Fault Refusal :=
  s.run (windowEnds q peer errs)

/-- A peer asks for a change of the lane on plane q (R286); this device asks itself nothing (R273). -/
def asked (away : Bool) (q : Nat) (peer : BitVec 6) (env : Env) (d : Dev) : Dev :=
  if peer = env.caps.devid then d else announce env.unit peer.toNat away q d

/-- LEAVE_REQUEST (R286): the peer's request for the lane on plane q. -/
def execLeaveRequest (q : Nat) (peer : BitVec 6) (s : State) : Host.Outcome State Fault Refusal :=
  s.run (asked true q peer)

/-- RETURN_REQUEST (R286): the peer's request for the lane on plane q. -/
def execReturnRequest (q : Nat) (peer : BitVec 6) (s : State) : Host.Outcome State Fault Refusal :=
  s.run (asked false q peer)

/-- A retraining lane's trial window ends (R286). The loopback of this device carries no flits (R273): with no sender to ask, it is back at
once (DESIGN CHOICE, unsafe: log entry 90). -/
def trialEnds (q : Nat) (peer : BitVec 6) (errs : Nat) (env : Env) (d : Dev) : Dev :=
  let b := env.unit
  let p := peer.toNat
  let x := (d.lane b q p).window errs
  if x.state != 3 then d
  else if errs ≤ (d.bridge b).limit.toNat / 2 then
    if peer = env.caps.devid then d.setLane b q p x.comeBack
    else emitFlit (d.setLane b q p { x with state := 4 }) b p .mgt true 255 [] (some (.askBack q))
  else
    let n := BitVec.ofNat 8 (min 255 (x.tries.toNat + 1))
    if 8 ≤ n.toNat then
      { d.setLane b q p { x with tries := n, state := 5 } with kernel := d.kernel ++ [.lane b q p] }
    else d.setLane b q p { x with tries := n }

/-- LANE_TRIAL_WINDOW (R286). -/
def execLaneTrialWindow (q : Nat) (peer : BitVec 6) (errs : Nat) (s : State) : Host.Outcome State Fault Refusal :=
  s.run (trialEnds q peer errs)

/-- A lane loses lock (R286): it leaves without announcement. -/
def losesLock (q : Nat) (peer : BitVec 6) (env : Env) (d : Dev) : Dev :=
  let b := env.unit
  let p := peer.toNat
  let x := d.lane b q p
  if !x.live then d else
  let d1 := d.setLane b q p x.depart
  if peer = env.caps.devid then d1 else emitFlit d1 b p .mgt true 255 [] (some (.lost q))

/-- LANE_LOSS_OF_LOCK (R286). -/
def execLaneLossOfLock (q : Nat) (peer : BitVec 6) (s : State) : Host.Outcome State Fault Refusal := s.run (losesLock q peer)

/-- A write of RETRY to LSTAT (R285, R286). -/
def retryLane (b q peer : Nat) (d : Dev) : Dev :=
  let x := d.lane b q peer
  if x.state = 5 then d.setLane b q peer { x with state := 3 } else d

/-- LANE_RETRY (R285). -/
def execLaneRetry (q : Nat) (peer : BitVec 6) (s : State) : Host.Outcome State Fault Refusal :=
  s.run fun env d => retryLane env.unit q peer.toNat d

/-! ### Lost peers (R284) -/

/-- The first access of a stream that is outstanding to a peer: one that is numbered there, or was sent there last. -/
def lostPos (l : List NEntry) (peer : BitVec 6) : Option Nat :=
  l.findIdx? fun e => !e.isNotify && ((e.isStore && e.target == peer) || e.via == peer)

/-- Every access of a stream that is outstanding to a peer fails with REMOTE_UNREACHABLE (R160, R284); the failure of a store that was sent again
through it is reported to the device that numbered it (R350). -/
def failStream (env : Env) (peer : BitVec 6) (t s : Nat) : Nat → Dev → Dev
  | 0, d => d
  | n + 1, d =>
    match lostPos (d.stream t s) peer with
    | none => d
    | some i =>
      match (d.stream t s)[i]? with
      | some e => failStream env peer t s n
          (if e.reissued && e.target != peer then failResend env t s i e d else failEntry env t s i e 0x25 e.va d)
      | none => d

/-- Requests that this device relayed to a lost peer fail, each answered to where it came from. -/
def failRelays (env : Env) (peer : BitVec 6) (d : Dev) : Dev :=
  let gone := d.relays.filter fun r => r.dest == peer
  gone.foldl (fun d r =>
    let f : Flight := { pkt := .remote r.prev r.hdr [], src := r.prev, path := r.path }
    storeDone env f r.hdr (reqOf r.hdr.op.toNat).1 true (answerFail env f r.hdr r.hdr.va 0x25 d))
    { d with relays := d.relays.filter fun r => r.dest != peer }

/-- A peer is lost (R284): what is outstanding to it fails, and the stream state both ways is discarded. -/
def losePeer (env : Env) (peer : BitVec 6) (d : Dev) : Dev :=
  let p := peer.toNat
  let d1 := { d with peersLost := d.peersLost ||| (BitVec.ofNat 64 1 <<< p), reports := d.reports.filter (·.target != peer),
                     streams := d.streams.keep fun k _ => k % 64 != p }
  let d2 := d1.tiles.entries.foldl (fun d e =>
    (List.range 16).foldl (fun d s => failStream env peer e.1 s (d.stream e.1 s).length d) d) d1
  let other (k : Nat) : Bool := k % 64 != p
  let forget (c : TCore) : TCore :=
    { c with net := { c.net with ssn := c.net.ssn.keep fun k _ => other k, psn := c.net.psn.keep fun k _ => other (k / 4),
                                 flushed := c.net.flushed.keep fun k _ => other k } }
  let d3 : Dev := { d2 with tiles := ⟨d2.tiles.entries.map fun e =>
    (e.1, { e.2 with core := forget e.2.core, saved := e.2.saved.map forget })⟩ }
  countedOut env (failRelays env peer (d3.mig.cmds.foldl (moveLost env peer) d3))

/-- PEER_LOST (R284): every path to the peer has been down for PEERLOST cycles. -/
def execPeerLost (s : State) : Host.Outcome State Fault Refusal :=
  s.run fun env d =>
    let p := BitVec.ofNat 6 env.unit
    if p = env.caps.devid || d.peersLost.getLsbD env.unit || (List.range 4).any (fun b => pathUp d b env.unit) then d
    else losePeer env p d

end Sys2Proof.Machine
end

