-- ==== Sys2Proof/Machine/Migrate.lean ====
section
/-! DEFINITION. The migration engine: its commands, demotion and promotion, moves between devices (R337 to R354). -/

namespace Sys2Proof.Machine

/-! ### Command blocks -/

/-- The 64 bytes of a command block as a number; 0, which is no command, where they may not be read (R230, R242; DEDUCED, unsafe: log entry
92). -/
def blockAt (env : Env) (d : Dev) (pa : Nat) : Nat := if (physCheck env d pa 64).done then leNat (Memory.read d.mem pa 64) else 0

/-- The command of a block (R338). -/
def blockCmd (b : Nat) : MigCmd :=
  { op := BitVec.ofNat 8 (recBits b 0 8), vf := BitVec.ofNat 10 (recBits b 8 10), dev := BitVec.ofNat 6 (recBits b 18 6)
    va := BitVec.ofNat 55 (recBits b 64 55), leafPa := dw (recBits b 128 64), target := dw (recBits b 192 64)
    tag := dw (recBits b 256 64) }

/-- A block whose reserved fields are zero, where its OP uses no other field either, and whose OP exists (R338). -/
def blockOk (env : Env) (b : Nat) : Bool :=
  let op := recBits b 0 8
  let target := recBits b 192 64
  recBits b 24 40 == 0 && recBits b 64 16 == 0 && recBits b 119 9 == 0 && recBits b 320 192 == 0 && decide (1 ≤ op) &&
    decide (op ≤ 4) && (op == 2 || recBits b 18 6 == 0) && (decide (op ≤ 2) || (recBits b 128 64 == 0 && target == 0)) &&
    recBits b 128 3 == 0 && (op != 1 || target / 2 ^ 32 == 0) &&
    (op != 2 || (target % 65536 == 0 && recBits b 18 6 != env.caps.devid.toNat))

/-- A leaf that is valid, of kind 00 and a level-3 entry, whose frame a VF owns (R342, R352): its frame. -/
def leafFrame (env : Env) (d : Dev) (vf : BitVec 10) (pa : Nat) : Option Nat :=
  let e := physRead8 d pa
  let f := recBits e 16 36
  if (physCheck env d pa 8).done && recBits e 0 3 == 1 && recBits e 7 1 == 0 && recBits e 62 2 == 0 && d.owns f vf then some f else none

/-- A command completes with a status and no effect of its own. -/
def migDone (env : Env) (c : MigCmd) (status : Nat) (d : Dev) : Dev := migRecord env (c.record status 0) d

/-! ### DEMOTE, RETIRE, THAW -/

/-- DEMOTE begins (R342 steps 1 and 2): the page is frozen, or the command is refused. What has been sent to it is performed before (R340). -/
def demoteStart (env : Env) (c : MigCmd) (d : Dev) : Dev :=
  match leafFrame env d c.vf c.leafPa.toNat with
  | none => migDone env c 1 d
  | some f => (drainSent env d).onMig fun m => { m with
      cmds := m.cmds ++ [{ c with frame := f }]
      freezes := m.freezes ++ [{ vf := c.vf, page := c.va, frame := f, thaw := false }] }

/-- Lines of a frame become poisoned in HBM (R342, R354). -/
def poisonLines (f : Nat) (l : List Nat) (d : Dev) : Dev := { d with poison := l.map (f * 512 + ·) ++ d.poison }

/-- The lines, of some of a frame, in which the engine finds an uncorrectable error as it reads them: those that have one, or are found to
(DESIGN CHOICE, safe: log entry 22). -/
def readErrors (env : Env) (d : Dev) (f : Nat) (l : List Nat) : List Nat :=
  l.filter fun i => (Config.lineErrors env.tick).getLsbD i || d.bad.contains (f * 512 + i)

/-- Where a chunk of the capacity tier lies (R341). -/
def chunkPa (h : Nat) : Nat :=
  if h < 2 ^ 29 then 0x1000000000000 + h * 4096 else 0x2000000000000 + (h - 2 ^ 29) * 4096

/-- An image takes its chunks, and one that it overwrites stands no more (R341). A page that is not compressed is written as it is; the
layout of a compressed one belongs to the engine alone (R342). -/
def putImage (h n : Nat) (packed : Bool) (b : List Byte) (d : Dev) : Dev :=
  let d1 := if packed then d else
    { d with mem := (List.range 16).foldl (fun m i => Memory.write (chunkPa (h + i)) ((b.drop (4096 * i)).take 4096) m) d.mem }
  d1.onMig fun m => { m with
    images := (m.images.keep fun k x => decide (k + x.chunks ≤ h) || decide (h + n ≤ k)).set h
      { chunks := n, packed := if packed then some b else none } }

/-- The k-th command, a DEMOTE, ends (R342 steps 3 to 5). A leaf that cannot be read again ends it as an error in step 4 does, with the fault's
code; one on another frozen page is waited for (R340; DEDUCED, unsafe: log entry 92). -/
def demoteDone (env : Env) (d : Dev) : Dev :=
  match d.mig.cmds[env.unit]? with
  | none => d
  | some c =>
    let leaf := physCheck env d c.leafPa.toNat 8
    if c.op != 1 || (leaf.waits && c.leafPa.toNat / 65536 != c.frame) then d else
    let d0 := (dropLines (lineIn c.frame) d).onMig fun m => { m with cmds := m.cmds.eraseIdx env.unit }
    let bad := readErrors env d c.frame (List.range 512)
    let here (z : Freeze) : Bool := z.vf == c.vf && z.page == c.va && z.frame == c.frame && !z.thaw
    if !bad.isEmpty then
      let d1 := (poisonLines c.frame bad d0).onMig fun m => { m with freezes := m.freezes.filter fun z => !here z }
      migRecord env ({ c with code := 0x24 }.record 2 0) d1
    else if leaf.faults then
      migRecord env ({ c with code := BitVec.ofNat 8 (ownFault d c.leafPa.toNat) }.record 2 0)
        (d0.onMig fun m => { m with freezes := m.freezes.filter fun z => !here z })
    else
      let b := Memory.read d0.mem (c.frame * 65536) 65536
      let cod := recBits (physRead8 d0 c.leafPa.toNat) 6 1 == 1
      let n := if cod then (Config.imageChunks b).toNat + 1 else 16
      let d1 := (putImage (c.target.toNat % 2 ^ 32) n cod b d0).onMig fun m => { m with
        freezes := m.freezes.map fun z => if here z then { z with thaw := true } else z }
      migRecord env (c.record 0 (dw n)) d1

/-- DEMOTE_COMPLETE (R342). -/
def execDemoteComplete (s : State) : Host.Outcome State Fault Refusal := s.run demoteDone

/-- THAW (R342): it ends a freeze that a completed DEMOTE left. -/
def thaw (env : Env) (c : MigCmd) (d : Dev) : Dev :=
  let here (z : Freeze) : Bool := z.vf == c.vf && z.page == c.va && z.thaw
  if d.mig.freezes.any here then
    migDone env c 0 (d.onMig fun m => { m with freezes := m.freezes.filter fun z => !here z })
  else migDone env c 1 d

/-- RETIRE (R345): it removes a present or poisoned override entry. -/
def retireEntry (env : Env) (c : MigCmd) (d : Dev) : Dev :=
  let here (e : OvEntry) : Bool := e.vf == c.vf && e.page == c.va && e.st != .frozen
  if d.mig.ovt.any here then migDone env c 0 (d.onMig fun m => { m with ovt := m.ovt.filter fun e => !here e })
  else migDone env c 1 d

/-! ### Promotion (R344) -/

/-- Where the entry at TAIL of the free-frame pool lies (R344). -/
def poolAt (d : Dev) : Nat :=
  let pa := d.mig.pool.toNat
  pa + 64 + 8 * (physRead8 d (pa + 16) % physRead8 d pa)

/-- Whether the pool's header, or its entry at TAIL, meets a frozen page (R340). -/
def poolWaits (env : Env) (d : Dev) : Bool :=
  (physCheck env d d.mig.pool.toNat 64).waits ||
    ((physCheck env d d.mig.pool.toNat 64).done && ringSizeOk (physRead8 d d.mig.pool.toNat) && (physCheck env d (poolAt d) 8).waits)

/-- Entries of the free-frame pool; one whose SIZE is not allowed acts as empty (R319, R344), and so does one whose header or entry at TAIL
may not be accessed (R242; DEDUCED, unsafe: log entry 92). -/
def poolLen (env : Env) (d : Dev) : Nat :=
  let pa := d.mig.pool.toNat
  if (physCheck env d pa 64).done && ringSizeOk (physRead8 d pa) && (physCheck env d (poolAt d) 8).done then
    (physRead8 d (pa + 8) + 2 ^ 64 - physRead8 d (pa + 16)) % 2 ^ 64
  else 0

/-- Take the entry at TAIL. -/
def poolTake (env : Env) (d : Dev) : Nat × Dev :=
  let pa := d.mig.pool.toNat
  (physRead8 d (poolAt d), physWrite env (pa + 16) (natLe 8 (physRead8 d (pa + 16) + 1)) d)

/-- Take entries until one names an unowned frame of HBM; the others are dropped. -/
def poolFrame (env : Env) : Nat → Dev → Option Nat × Dev
  | 0, d => (none, d)
  | n + 1, d =>
    if poolLen env d = 0 then (none, d) else
    let (pa, d1) := poolTake env d
    let x := d1.frame (pa / 65536)
    if inHbm env pa 65536 && !x.owned && !x.scrub then (some (pa / 65536), d1) else poolFrame env n d1

/-- The page that a handle expands to: what its image holds, read in its chunks where it is not compressed; where no image stands, its
layout, and so what it is read as, is not given (DESIGN CHOICE, safe: log entry 14). -/
def expandImage (env : Env) (d : Dev) (h : Nat) : List Byte :=
  match d.mig.images.find h with
  | some i =>
    match i.packed with
    | some b => b
    | none => (List.range 16).flatMap fun k => Memory.read d.mem (chunkPa (h + k)) 4096
  | none => (List.range 65536).map (Config.imageByte env.tick)

/-- A promotion that finds the pool empty waits; one record says so each time the pool becomes empty. -/
def poolEmpty (env : Env) (p : Promo) (d : Dev) : Dev :=
  if d.mig.poolDry then d
  else migRecord env { op := 7, vf := p.vf, page := p.page } (d.onMig fun m => { m with poolDry := true })

/-- A promotion has its frame (R344 steps 3 to 5): the image is expanded and the entry it took made present, or poisoned. -/
def promoEnd (env : Env) (k f : Nat) (p : Promo) (d : Dev) : Dev :=
  let bad := Config.imageError env.tick
  let d1 := (d.setFrame f { vf := p.vf, owned := true, scrub := false }).onMig fun m => { m with
    promos := m.promos.eraseIdx k
    ovt := m.ovt ++ [{ vf := p.vf, page := p.page, frame := f, st := if bad then .poisoned else .present }] }
  let d2 := if bad then d1 else
    putBytes (clearBad (forgetPast d1 (f * 65536) 65536) (f * 65536) 65536) (.hbm (f * 65536)) (expandImage env d1 p.handle)
  let asid := (d2.vf p.vf.toNat).asid
  let d3 := { d2 with tlb := d2.tlb.filter fun e => !e.covers asid (zx p.page) }
  migRecord env { op := 5, status := if bad then 2 else 0, code := if bad then 0x24 else 0, vf := p.vf, page := p.page
                  tag := dw p.handle, detail := dw (f * 65536) } d3

/-- A promotion whose chunks have gone fails with TRANSLATION (R341, R377): the accesses that wait for it take that fault. (DEDUCED, unsafe: log
entry 52) -/
def promoFails (env : Env) (k : Nat) (p : Promo) (d : Dev) : Dev :=
  migRecord env { op := 5, status := 2, code := cTranslation, vf := p.vf, page := p.page, tag := dw p.handle }
    (d.onMig fun m => { m with promos := m.promos.eraseIdx k })

/-- The k-th promotion goes on (R344): it takes an override entry, then a frame, and ends; or it waits for the one or the other. (DEDUCED,
unsafe: log entry 52) -/
def promoDone (env : Env) (d : Dev) : Dev :=
  match d.mig.promos[env.unit]? with
  | none => d
  | some p =>
    if !handleOk d p.handle then promoFails env env.unit p d
    else if (!p.taken && decide (2048 ≤ d.mig.ovUse)) || poolWaits env d then d else
    let d0 := d.onMig fun m => { m with promos := m.promos.set env.unit { p with taken := true } }
    match poolFrame env (poolLen env d) (if poolLen env d = 0 then d0 else d0.onMig fun m => { m with poolDry := false }) with
    | (none, d1) => if poolWaits env d1 then d1 else poolEmpty env p d1
    | (some f, d1) => promoEnd env env.unit f p d1

/-- PROMOTION_COMPLETE (R344). -/
def execPromotionComplete (s : State) : Host.Outcome State Fault Refusal := s.run promoDone

/-! ### Moves: the source (R352) -/

/-- Send lines of the page of a move, as the frame holds them. -/
def sendLines (env : Env) (c : MigCmd) (l : List Nat) (d : Dev) : Dev :=
  l.foldl (fun d i => sendOwner env c.dev c.vf c.va 0x18 i (Memory.read d.mem (c.frame * 65536 + 128 * i) 128) d) d

/-- The frame of a page that this device owns: of its present override entry, or of its leaf; none where a stub of this device stands
for it (R346). -/
def ownedFrame (env : Env) (d : Dev) (c : MigCmd) : Option Nat :=
  if d.mig.stubs.any fun s => s.vf == c.vf && s.page == c.va then none
  else match d.override c.vf c.va with
    | some e => if e.st == .present && d.owns e.frame c.vf then some e.frame else none
    | none => leafFrame env d c.vf c.leafPa.toNat

/-- Stubs in use or reserved by moves (R337, R352). -/
def Mig.stubUse (m : Mig) : Nat := m.stubs.length + m.cmds.countP fun c => c.op == 2

/-- The source reads and sends lines; one that has an uncorrectable error is poisoned, and the move aborts (R354). -/
def sourceRead (env : Env) (c : MigCmd) (l : List Nat) (d : Dev) : Dev :=
  match readErrors env d c.frame l with
  | i :: r => abortMove env c.vf c.va 0x24 i (poisonLines c.frame (i :: r) d)
  | [] => sendLines env c l d

/-- MOVE is accepted, or refused (R352). -/
def moveStart (env : Env) (c : MigCmd) (d : Dev) : Dev :=
  match ownedFrame env d c with
  | none => migDone env c 1 d
  | some f =>
    if 4096 ≤ d.mig.stubUse || (d.mig.moveOf c.vf c.va).isSome || !reachable env d c.dev.toNat || d.peersLost.getLsbD c.dev.toNat then
      migDone env c 1 d
    else
      let home := BitVec.ofNat 6 (recBits (physRead8 d c.leafPa.toNat) 56 6)
      let c1 := { c with frame := f, home := home, sent := 512 }
      sourceRead env c1 (List.range 512) (d.onMig fun m => { m with cmds := m.cmds ++ [c1] })

/-- Every line is acknowledged (R352): OWNERSET goes to the destination and to the home, or this device writes its own directory. A home
that finds no place, or that cannot be reached, refuses. -/
def sendOwnerset (env : Env) (c : MigCmd) (d : Dev) : Dev :=
  let tell (dest : BitVec 6) (d : Dev) : Dev := sendOwner env dest c.vf c.va 0x10 0 (natLe 8 c.dev.toNat) d
  let wait (n : Nat) (d : Dev) : Dev := d.onMig fun m => m.onMove c.vf c.va fun x => { x with owner := n }
  if c.home = c.dev then tell c.dev (wait 1 d)
  else if c.home = env.caps.devid then
    match dirWrite env c.vf c.va c.dev d with
    | some d1 => tell c.dev (wait 1 d1)
    | none => abortMove env c.vf c.va 0 512 d
  else if !reachable env d c.home.toNat || d.peersLost.getLsbD c.home.toNat then abortMove env c.vf c.va 0x25 512 d
  else tell c.home (tell c.dev (wait 3 d))

/-- COPY ends: what has been sent to the page is performed, the page is frozen, and its dirty lines are sent again (R340, R352). -/
def moveFreeze (env : Env) (c : MigCmd) (d : Dev) : Dev :=
  let d0 := drainSent env d
  let c0 := (d0.mig.moveOf c.vf c.va).getD c
  let l := maskLines c0.dirty
  let c1 := { c0 with phase := .freeze, sent := 512 + l.length }
  let d1 := d0.onMig fun m => { m.onMove c.vf c.va (fun _ => c1) with
    freezes := m.freezes ++ [{ vf := c.vf, page := c.va, frame := c.frame, thaw := false }]
    ovt := m.ovt.map fun e => if e.vf == c.vf && e.page == c.va && e.st == .present then { e with st := .frozen } else e }
  if l.isEmpty then sendOwnerset env c1 d1 else sourceRead env c1 l d1

/-- STUB (R352): the stub is active, the frame is scrubbed, the override entry and the freeze are gone, the record is posted. -/
def moveStub (env : Env) (c : MigCmd) (d : Dev) : Dev :=
  let d1 := d.onMig fun m => { (m.endFreeze c.vf c.va).dropMove c.vf c.va with
    ovt := m.ovt.filter fun e => !(e.vf == c.vf && e.page == c.va)
    stubs := m.stubs ++ [{ vf := c.vf, page := c.va, dest := c.dev, tag := c.tag }] }
  migRecord env (c.record 0 0) (frameRelease env c.frame d1)

/-- MIGACK of lines (R352). -/
def ackLines (env : Env) (c : MigCmd) (n : Nat) (d : Dev) : Dev :=
  let c1 := { c with acked := max c.acked n }
  let d1 := d.onMig fun m => m.onMove c.vf c.va fun _ => c1
  if c1.acked < c1.sent || c1.owner != 0 then d1
  else match c1.phase with
    | .copy => moveFreeze env c1 d1
    | .freeze => sendOwnerset env c1 d1
    | .closing => d1
    | .abort => d1

/-- MIGACK at the source of a move (R352 to R354). (DEDUCED, unsafe: log entry 51) -/
def migackMove (env : Env) (h : RHdr) (code : Nat) (c : MigCmd) (d : Dev) : Dev :=
  let dest := h.sdev == c.dev
  match code with
  | 0 =>
    let left := if dest then c.owner / 2 * 2 else if h.sdev == c.home && 2 ≤ c.owner then c.owner - 2 else c.owner
    if c.phase != .freeze || left == c.owner then d
    else if left = 0 then moveStub env c d
    else d.onMig fun m => m.onMove c.vf c.va fun x => { x with owner := left }
  | 1 => if c.phase == .freeze && c.owner != 0 then abortMove env c.vf c.va 0 512 d else d
  | 2 => if dest then ackLines env c h.ssn.toNat d else d
  | 4 => if dest && c.phase == .abort then migRecord env (c.record 2 c.detail) (d.onMig fun m => m.dropMove c.vf c.va) else d
  | _ => d

/-- MIGACK arrives (R352, R353). It waits while this device would write a frozen page of its own directory (R340). -/
def migackArrives (env : Env) (d : Dev) : Dev :=
  match flightOf d env.unit [0x12] with
  | none => d
  | some (_, h, b) =>
    let d1 := dropFlight env env.unit d
    let code := leNat (b.take 1)
    if vfGen d h.vf != h.gen then d1
    else if code = 3 then
      match d1.mig.stubs.find? fun s => s.vf == h.vf && s.page == h.va && s.dest == h.sdev && s.closing with
      | some s => migRecord env { op := 6, vf := s.vf, page := s.page, tag := s.tag }
          (d1.onMig fun m => { m with stubs := m.stubs.filter fun x => !(x.vf == h.vf && x.page == h.va && x.closing) })
      | none => d1
    else match d1.mig.moveOf h.vf h.va with
      | some c => if c.home = env.caps.devid && dirWaits env d h.vf h.va then d else migackMove env h code c d1
      | none => d1

/-- MIGACK (R352). -/
def execMigack (s : State) : Host.Outcome State Fault Refusal := s.run migackArrives

/-- The k-th stub has stood for STUBLIFE cycles: CLOSING (R352). -/
def stubExpires (env : Env) (d : Dev) : Dev :=
  match d.mig.stubs[env.unit]? with
  | none => d
  | some s =>
    if s.closing then d else
    sendOwner env s.dest s.vf s.page 0x1E 0 [] (d.onMig fun m => { m with stubs := m.stubs.set env.unit { s with closing := true } })

/-- STUB_LIFETIME_EXPIRY (R352). -/
def execStubLifetimeExpiry (s : State) : Host.Outcome State Fault Refusal := s.run stubExpires

/-! ### Moves: the destination and the home (R352 to R354) -/

/-- MIGACK to where an owner message came from. -/
def sendMigack (env : Env) (f : Flight) (h : RHdr) (code n : Nat) (d : Dev) : Dev :=
  answer env f { h with ssn := BitVec.ofNat 32 n } 0x12 (natLe 8 code) d

/-- The move of a page that comes to this device; its first message chooses the frame. -/
def incomingOf (env : Env) (d : Dev) (h : RHdr) : Incoming :=
  match d.mig.incoming.find? fun x => x.vf == h.vf && x.page == h.va with
  | some x => x
  | none => { src := h.sdev, vf := h.vf, page := h.va, frame := Config.moveTarget env.tick }

/-- Keep an incoming move. -/
def Mig.putIncoming (m : Mig) (x : Incoming) : Mig :=
  { m with incoming := x :: m.incoming.filter fun y => !(y.vf == x.vf && y.page == x.page) }

/-- An owner message of one kind arrives, of the current generation of its VF (R333). -/
def ownerArrives (op : Nat) (go : Flight → RHdr → List Byte → Dev → Dev) (env : Env) (d : Dev) : Dev :=
  match flightOf d env.unit [op] with
  | none => d
  | some (f, h, b) => if vfGen d h.vf != h.gen then dropFlight env env.unit d else go f h b d

/-- PAGEDATA (R352): the line is stored in the target frame and acknowledged; a frame the VF does not own fails it (R281). (DESIGN CHOICE, safe: log entry 23) -/
def pageData (env : Env) (f : Flight) (h : RHdr) (b : List Byte) (d : Dev) : Dev :=
  let x := incomingOf env d h
  let d1 := dropFlight env env.unit d
  if 512 ≤ h.ssn.toNat then d1
  else if !inHbm env (x.frame * 65536) 65536 || !d1.owns x.frame h.vf then
    answerFail env f h h.va cFrameOwner (d1.onMig fun m => m.putIncoming x)
  else
    let x1 := { x with lines := x.lines + 1 }
    let d2 := (putBytes d1 (.hbm (x.frame * 65536 + 128 * h.ssn.toNat)) (b.take 128)).onMig fun m => m.putIncoming x1
    sendMigack env f h 2 x1.lines d2

/-- PAGEDATA (R352). -/
def execPagedata (s : State) : Host.Outcome State Fault Refusal :=
  s.run fun env d => ownerArrives 0x18 (pageData env) env d

/-- OWNERSET at the destination: a present override entry on the target frame; the directory of a home that is the destination
forgets the page. -/
def takePage (env : Env) (f : Flight) (h : RHdr) (d : Dev) : Dev :=
  let x := incomingOf env d h
  let rest (m : Mig) : List OvEntry := m.ovt.filter fun e => !(e.vf == h.vf && e.page == h.va)
  if 2048 ≤ (rest d.mig).length + d.mig.promos.countP (·.taken) then sendMigack env f h 1 0 d
  else
    let d1 := d.onMig fun m => { m with
      ovt := rest m ++ [{ vf := h.vf, page := h.va, frame := x.frame, st := .present }]
      incoming := m.incoming.filter fun y => !(y.vf == h.vf && y.page == h.va) }
    sendMigack env f h 0 0 (dirRemove env h.vf h.va d1)

/-- OWNERSET (R352). It waits while the directory's page is frozen (R340). -/
def ownerset (env : Env) (f : Flight) (h : RHdr) (b : List Byte) (d : Dev) : Dev :=
  if dirWaits env d h.vf h.va then d else
  let d1 := dropFlight env env.unit d
  let o := BitVec.ofNat 6 (leNat (b.take 1))
  if o = env.caps.devid then takePage env f h d1
  else match dirWrite env h.vf h.va o d1 with
    | some d2 => sendMigack env f h 0 0 d2
    | none => sendMigack env f h 1 0 d1

/-- OWNERSET (R352). -/
def execOwnerset (s : State) : Host.Outcome State Fault Refusal := s.run fun env d => ownerArrives 0x10 (ownerset env) env d

/-- Whether an access that a stub of a device relayed to a page here is not yet performed and reported (R353). -/
def relayedOpen (d : Dev) (src : BitVec 6) (h : RHdr) : Bool :=
  (d.flights.any fun g => match g.pkt with
    | .xfer _ _ _ => false
    | .remote _ x _ => g.src == src && decide (1 ≤ (reqOf x.op.toNat).2) && [1, 3, 4, 5].contains (reqOf x.op.toNat).1 &&
        x.vf == h.vf && pageOf (zx x.va) == h.va) ||
  (d.relays.any fun r => r.prev == src && r.hdr.vf == h.vf && pageOf (zx r.hdr.va) == h.va) ||
  d.streams.entries.any fun e => e.2.held.any fun x => x.src == src && decide (1 ≤ (reqOf x.hdr.op.toNat).2) && x.hdr.vf == h.vf &&
    pageOf (zx x.hdr.va) == h.va

/-- CLOSE (R353): answered once every access that the stub relayed here has been performed and reported. -/
def closeStub (env : Env) (f : Flight) (h : RHdr) (_ : List Byte) (d : Dev) : Dev :=
  if relayedOpen d f.src h then d else sendMigack env f h 3 0 (dropFlight env env.unit d)

/-- CLOSE (R353). -/
def execClose (s : State) : Host.Outcome State Fault Refusal := s.run fun env d => ownerArrives 0x1E (closeStub env) env d

/-- ABORT (R352, R354), also where no line has come: the target frame goes through scrubbing, and an override entry that an OWNERSET made is gone. -/
def abortArrives (env : Env) (f : Flight) (h : RHdr) (_ : List Byte) (d : Dev) : Dev :=
  let d1 := dropFlight env env.unit d
  let here (e : OvEntry) : Bool := e.vf == h.vf && e.page == h.va
  let known := (d1.mig.incoming.filter fun x => x.vf == h.vf && x.page == h.va).map (·.frame) ++ (d1.mig.ovt.filter here).map (·.frame)
  let frames := if known.isEmpty then [Config.moveTarget env.tick] else known
  let d2 := (frames.foldl (fun d k => if d.owns k h.vf then frameRelease env k d else d) d1).onMig fun m => { m with
    incoming := m.incoming.filter fun x => !(x.vf == h.vf && x.page == h.va)
    ovt := m.ovt.filter fun e => !here e }
  sendMigack env f h 4 0 d2

/-- ABORT (R354). -/
def execAbort (s : State) : Host.Outcome State Fault Refusal := s.run fun env d => ownerArrives 0x1F (abortArrives env) env d

/-! ### Submission (R338) -/

/-- The engine starts the command of a block. -/
def migStart (env : Env) (b : Nat) (d : Dev) : Dev :=
  let c := blockCmd b
  if !blockOk env b then migDone env c 1 d
  else match c.op.toNat with
    | 1 => demoteStart env c d
    | 2 => moveStart env c d
    | 3 => retireEntry env c d
    | _ => thaw env c d

/-- Whether the engine waits for a frozen page before it starts the command at an address: that of the block, or of the leaf that it names
(R340). -/
def blockWaits (env : Env) (d : Dev) (pa : Nat) : Bool :=
  (physCheck env d pa 64).waits ||
    (let b := blockAt env d pa
     blockOk env b && decide (recBits b 0 8 ≤ 2) && (physCheck env d (recBits b 128 64) 8).waits)

/-- A write of MSUBMIT (R338). -/
def migSubmit (env : Env) (v : Dword) (d : Dev) : Res Unit :=
  if 8 ≤ d.mig.cmds.length || 2 ^ 52 ≤ v.toNat || v.toNat % 64 != 0 then .ok () (d.onMig fun m => { m with refused := true })
  else if blockWaits env d v.toNat then .wait Wait.idle d
  else .ok () (migStart env (blockAt env d v.toNat) d)

/-- A write of MSUBMIT whose block holds an OP. (DEDUCED, unsafe: log entry 53) -/
def submitOp (op : Nat) (v : Dword) (env : Env) (d : Dev) : Dev :=
  if recBits (blockAt env d v.toNat) 0 8 = op then attempt d (migSubmit env v d) else d

/-- DEMOTE (R342). -/
def execDemote (pa : Dword) (s : State) : Host.Outcome State Fault Refusal := s.run (submitOp 1 pa)
/-- MOVE (R352). -/
def execMove (pa : Dword) (s : State) : Host.Outcome State Fault Refusal := s.run (submitOp 2 pa)
/-- RETIRE (R345). -/
def execRetire (pa : Dword) (s : State) : Host.Outcome State Fault Refusal := s.run (submitOp 3 pa)
/-- THAW (R342). -/
def execThaw (pa : Dword) (s : State) : Host.Outcome State Fault Refusal := s.run (submitOp 4 pa)

end Sys2Proof.Machine
end

