-- ==== Sys2Proof/Machine/Sha.lean ====
section
/-! DEFINITION. SHA-384 (R378, R380): the hash that extends MEAS, as FIPS 180-4 defines it (PRESUMED, unsafe: log entry 67); its
constants are computed from the primes that the standard derives them from. -/

namespace Sys2Proof.Machine

/-- The first n primes above those of a list, by trial division; f bounds the search. -/
def primesFrom : Nat → Nat → List Nat → Nat → List Nat
  | 0, _, l, _ => l
  | f + 1, c, l, n =>
    if n ≤ l.length then l
    else primesFrom f (c + 1) (if l.any fun p => c % p == 0 then l else l ++ [c]) n

/-- The first 80 primes. -/
def shaPrimes : List Nat := primesFrom 500 2 [] 80

/-- The greatest r whose k-th power is at most x, found bit by bit from bit b - 1 down. -/
def rootBits (k x : Nat) : Nat → Nat → Nat
  | 0, r => r
  | b + 1, r => rootBits k x b (if (r + 2 ^ b) ^ k ≤ x then r + 2 ^ b else r)

/-- The first 64 bits of the fraction of a prime's k-th root. -/
def rootFraction (k p : Nat) : Dword := dw (rootBits k (p * 2 ^ (64 * k)) 70 0)

/-- The constant of each round: the fractions of the cube roots of the first 80 primes. -/
def shaRoundConsts : List Dword := shaPrimes.map (rootFraction 3)

/-- The hash that SHA-384 starts from: the fractions of the square roots of the ninth to the sixteenth prime. -/
def shaInit : List Dword := ((shaPrimes.drop 8).take 8).map (rootFraction 2)

/-- The eight working variables. -/
structure ShaVars where
  a : Dword
  b : Dword
  c : Dword
  d : Dword
  e : Dword
  f : Dword
  g : Dword
  h : Dword

/-- Working variables from a hash. -/
def ShaVars.of (l : List Dword) : ShaVars :=
  ⟨l.getD 0 0, l.getD 1 0, l.getD 2 0, l.getD 3 0, l.getD 4 0, l.getD 5 0, l.getD 6 0, l.getD 7 0⟩

/-- One round. -/
def ShaVars.round (v : ShaVars) (k w : Dword) : ShaVars :=
  let s1 := v.e.rotateRight 14 ^^^ v.e.rotateRight 18 ^^^ v.e.rotateRight 41
  let ch := (v.e &&& v.f) ^^^ (~~~ v.e &&& v.g)
  let t1 := v.h + s1 + ch + k + w
  let s0 := v.a.rotateRight 28 ^^^ v.a.rotateRight 34 ^^^ v.a.rotateRight 39
  let mj := (v.a &&& v.b) ^^^ (v.a &&& v.c) ^^^ (v.b &&& v.c)
  ⟨t1 + (s0 + mj), v.a, v.b, v.c, v.d + t1, v.e, v.f, v.g⟩

/-- The next word of a message schedule from its last 16, the latest first. -/
def shaNext (l : List Dword) : Dword :=
  let x := l.getD 14 0
  let y := l.getD 1 0
  (y.rotateRight 19 ^^^ y.rotateRight 61 ^^^ (y >>> 6)) + l.getD 6 0 + (x.rotateRight 1 ^^^ x.rotateRight 8 ^^^ (x >>> 7)) +
    l.getD 15 0

/-- n more words of a message schedule, the latest first. -/
def shaExpand : Nat → List Dword → List Dword
  | 0, l => l
  | n + 1, l => shaExpand n (shaNext l :: l)

/-- A dword from eight octets, the first highest. -/
def beDword (b : List Byte) : Dword := dw (leNat b.reverse)

/-- One block of 128 octets. -/
def shaBlock (hash : List Dword) (b : List Byte) : List Dword :=
  let w := (shaExpand 64 (((List.range 16).map fun i => beDword ((b.drop (8 * i)).take 8)).reverse)).reverse
  let v := (shaRoundConsts.zip w).foldl (fun v p => v.round p.1 p.2) (ShaVars.of hash)
  (hash.zip [v.a, v.b, v.c, v.d, v.e, v.f, v.g, v.h]).map fun p => p.1 + p.2

/-- The blocks of a padded message. -/
def shaBlocks : Nat → List Dword → List Byte → List Dword
  | 0, hash, _ => hash
  | n + 1, hash, b => shaBlocks n (shaBlock hash (b.take 128)) (b.drop 128)

/-- SHA-384 of octets: 48 octets. -/
def sha384 (b : List Byte) : List Byte :=
  let n := (b.length + 17 + 127) / 128
  let pad := b ++ [0x80] ++ List.replicate (n * 128 - b.length - 17) 0 ++ (natLe 16 (8 * b.length)).reverse
  ((shaBlocks n shaInit pad).take 6).flatMap fun x => (natLe 8 x.toNat).reverse

end Sys2Proof.Machine
end

