-- ==== Sys2Proof/Machine/Signature.lean ====
section
/-! DEFINITION. Signatures (R378): ECDSA over brainpoolP384r1 with SHA-384. The spec names them and does not restate them: the curve is that
of RFC 5639, the scheme that of FIPS 186-4 (PRESUMED, unsafe: log entry 67). -/

namespace Sys2Proof.Machine

/-- The prime of the field. -/
def curveP : Nat := 0x8CB91E82A3386D280F5D6F7E50E641DF152F7109ED5456B412B1DA197FB71123ACD3A729901D1A71874700133107EC53
/-- The coefficients of y^2 = x^3 + A x + B. -/
def curveA : Nat := 0x7BC382C63D8C150C3C72080ACE05AFA0C2BEA28E4FB22787139165EFBA91F90F8AA5814A503AD4EB04A8C7DD22CE2826
/-- See `curveA`. -/
def curveB : Nat := 0x04A8C7DD22CE28268B39B55416F0447C2FB77DE107DCD2A62E880EA53EEB62D57CB4390295DBC9943AB78696FA504C11
/-- The generator. -/
def curveG : Nat × Nat :=
  (0x1D1C64F068CF45FFA2A63A81B7C13F6B8847A3E77EF14FE3DB7FCAFE0CBD10E8E826E03436D646AAEF87B2E247D4AF1E,
   0x8ABE1D7520F9C2A45CB1EB8E95CFD55262B70B29FEEC5864E19C054FF99129280E4646217791811142820341263C5315)
/-- The order of the generator. -/
def curveQ : Nat := 0x8CB91E82A3386D280F5D6F7E50E641DF152F7109ED5456B31F166E6CAC0425A7CF3AB6AF6B7FC3103B883202E9046565

/-- b to the power e modulo m; f bounds the bits of e. -/
def powMod (m : Nat) : Nat → Nat → Nat → Nat
  | 0, _, _ => 1 % m
  | f + 1, b, e => let h := powMod m f (b * b % m) (e / 2); if e % 2 = 1 then h * b % m else h

/-- The inverse modulo a prime of 384 bits. -/
def invMod (m x : Nat) : Nat := powMod m 384 (x % m) (m - 2)

/-- A point: none is the point at infinity. -/
abbrev Point : Type := Option (Nat × Nat)

/-- Whether a pair is a point of the curve. -/
def onCurve (p : Nat × Nat) : Bool :=
  decide (p.1 < curveP) && decide (p.2 < curveP) && p.2 * p.2 % curveP == (p.1 * p.1 * p.1 + curveA * p.1 + curveB) % curveP

/-- The third point of a line of slope m through two points, mirrored. -/
def thirdPoint (m x1 y1 x2 : Nat) : Point :=
  let x := (m * m + 2 * curveP - x1 - x2) % curveP
  some (x, (m * (x1 + curveP - x) + curveP - y1) % curveP)

/-- The sum of two points. -/
def addPoint : Point → Point → Point
  | none, q => q
  | some p, none => some p
  | some (x1, y1), some (x2, y2) =>
    if x1 = x2 then
      if (y1 + y2) % curveP = 0 then none
      else thirdPoint ((3 * x1 * x1 + curveA) % curveP * invMod curveP (2 * y1) % curveP) x1 y1 x2
    else thirdPoint ((y2 + curveP - y1) * invMod curveP (x2 + curveP - x1) % curveP) x1 y1 x2

/-- k times a point; f bounds the bits of k. -/
def mulPoint : Nat → Nat → Point → Point
  | 0, _, _ => none
  | f + 1, k, p => let h := mulPoint f (k / 2) (addPoint p p); if k % 2 = 1 then addPoint h p else h

/-- The number that octets write, the first octet highest. -/
def beNat (b : List Byte) : Nat := leNat b.reverse

/-- The n octets of a number, the first octet highest. -/
def beOctets (n x : Nat) : List Byte := (natLe n x).reverse

/-- A signature of a hash with a private key and a secret number k. -/
def ecdsaSign (key k z : Nat) : Nat × Nat :=
  match mulPoint 384 k (some curveG) with
  | none => (0, 0)
  | some (x, _) => (x % curveQ, invMod curveQ k * (z + x % curveQ * key) % curveQ)

/-- Whether a signature of a hash verifies under a public key. -/
def ecdsaVerify (pub : Nat × Nat) (z : Nat) (sig : Nat × Nat) : Bool :=
  let w := invMod curveQ sig.2
  decide (1 ≤ sig.1) && decide (sig.1 < curveQ) && decide (1 ≤ sig.2) && decide (sig.2 < curveQ) && onCurve pub &&
    match addPoint (mulPoint 384 (z * w % curveQ) (some curveG)) (mulPoint 384 (sig.1 * w % curveQ) (some pub)) with
    | none => false
    | some (x, _) => x % curveQ == sig.1

/-- The octets of a public key: X, then Y, of 48 octets each (DESIGN CHOICE, unsafe: log entry 111). -/
def keyOctets (pub : Nat × Nat) : List Byte := beOctets 48 pub.1 ++ beOctets 48 pub.2

/-- The identity key pair of the module (R380): the private key never leaves it. -/
def identityPub : Nat × Nat := (mulPoint 384 (1 + Config.identityKey % (curveQ - 1)) (some curveG)).getD (0, 0)

/-- A signature with the identity key over octets (R378, R381): with a secret number that gives one that may stand (DESIGN CHOICE, safe: log
entry 15). -/
def identitySign (env : Env) (b : List Byte) : Nat × Nat :=
  let try_ (i : Nat) : Nat × Nat :=
    ecdsaSign (1 + Config.identityKey % (curveQ - 1)) (1 + Config.signSecret env.tick i % (curveQ - 1)) (beNat (sha384 b))
  (((List.range 4).map try_).find? fun s => s.1 != 0 && s.2 != 0).getD (try_ 4)

/-- The octets over which the signature of a firmware image is made (DESIGN CHOICE, unsafe: log entry 111). -/
def signedOctets (f : Firmware) : List Byte := natLe 8 f.ver.toNat ++ f.body

/-- What step 1 of bring-up makes of an image (R371, R372, R379): 1 where it accepts it, else the BOOTSTAT that it ends with. -/
def verdict (f : Firmware) : BitVec 8 :=
  if beNat (sha384 (keyOctets (f.keyX, f.keyY))) ≠ Config.rootDigest.toNat then 2
  else if !ecdsaVerify (f.keyX, f.keyY) (beNat (sha384 (signedOctets f))) (f.r, f.s) then 2
  else if f.ver.toNat < Config.minVersion.toNat then 3
  else 1

end Sys2Proof.Machine
end

