-- ==== Sys2Proof/Machine/Power.lean ====
section
/-! DEFINITION. Power-up and power-down, clocks, measurements, attestation and the mailbox (R371 to R382). -/

namespace Sys2Proof.Machine

/-- A change to the management controller. -/
def Dev.onMgmt (d : Dev) (f : Mgmt → Mgmt) : Dev := { d with mgmt := f d.mgmt }

/-- Octets of a register, the first lowest. -/
def octets (n : Nat) {w : Nat} (x : BitVec w) : List Byte := natLe n x.toNat

/-- A measurement extends MEAS and appends its entry to the log (R380). The first entry has sequence number 0 (DESIGN CHOICE, unsafe: log
entry 86). -/
def extendMeas (env : Env) (digest comp : List Byte) (d : Dev) : Dev :=
  let n := d.mgmt.mlogcnt.toNat
  let e := digest ++ comp ++ natLe 4 n ++ natLe 8 0
  let d1 := d.onMgmt fun m => { m with
    meas := BitVec.ofNat 384 (leNat (sha384 (octets 48 m.meas ++ digest)))
    mlogcnt := BitVec.ofNat 32 (n + 1) }
  putBytes d1 (.hbm (env.caps.mlog.toNat + 64 * n)) e

/-- The firmware measures itself and the boot image (R380). (DESIGN CHOICE, unsafe: log entry 111) -/
def bootMeasures (env : Env) (d : Dev) : Dev :=
  [0, 1].foldl (fun d i => extendMeas env (octets 48 (Config.bootDigest i).1) (octets 4 (Config.bootDigest i).2) d) d

/-- The enabled lanes that fail loopback as step 3 of bring-up checks it; a bring-up that ends before it checks none (R371, R372). -/
def loopbackFails (stat : BitVec 8) (env : Env) (k : Nat) : Bool :=
  (stat == 1 || stat == 5) && env.caps.laneEn.getLsbD k && (Config.loopbackFails env.tick).getLsbD k

/-- The receiving lanes after bring-up: one that the part does not have is in state 0, and stays there; one that fails loopback is in state 5
(R7, R286, R372). -/
def bringLanes (stat : BitVec 8) (env : Env) : NMap Lane :=
  ⟨(List.range 512).filterMap fun k =>
    if !env.caps.laneEn.getLsbD k then some (k, { state := 0 })
    else if loopbackFails stat env k then some (k, { state := 5 }) else none⟩

/-- The records of the lanes that failed, for the resident kernel (R372). (DESIGN CHOICE, unsafe: log entry 43) -/
def laneRecords (stat : BitVec 8) (env : Env) : List KernelRec :=
  ((List.range 512).filter (loopbackFails stat env)).map fun k => .lane (k / 128) (k / 64 % 2) (k % 64)

/-- The system cores as they are released, at the reset vector (R371). -/
def freshCores : NMap SysCore := ⟨(List.range 48).map fun n => (n, { pc := Config.resetVector })⟩

/-- The root ports as they are released: eight (R1, R377). -/
def freshPorts : NMap RootPort := ⟨(List.range 8).map fun k => (k, {})⟩

/-- The firmware image in flash (R379). -/
def Dev.image (d : Dev) : Firmware := d.flash.getD Config.flashImage

/-- Whether bring-up may end with a BOOTSTAT: one that step 1 gives where it refuses the image in flash, and else none of those (R372,
R379). -/
def mayEnd (stat : BitVec 8) (f : Firmware) : Bool :=
  if verdict f = 1 then stat == 1 || stat == 4 || stat == 5 else stat == verdict f

/-- Bring-up ends with a BOOTSTAT (R371, R372): every register and memory has its value of power-up; with 1 the module is ready and runs the
verified image. A failed bring-up is not tried again before power-down. (DEDUCED, unsafe: log entry 60) -/
def powerUp (stat : BitVec 8) (env : Env) (d : Dev) : Dev :=
  if (d.powered && d.mgmt.bootstat != 0) || !mayEnd stat d.image then d else
  let fresh : Dev := { mgmt := { bootstat := stat, ready := stat == 1 }, lanes := bringLanes stat env, kernel := laneRecords stat env,
                       flash := d.flash }
  if stat = 1 then
    bootMeasures env { fresh with cores := freshCores, ports := freshPorts, mgmt := { fresh.mgmt with fwVer := d.image.ver } }
  else fresh

/-- POWER_UP (R371). -/
def execPowerUp (stat : BitVec 8) (s : State) : Host.Outcome State Fault Refusal := s.run (powerUp stat)

/-- Power goes (R372, R379): nothing is left but the image in flash, in whose place another may be written. -/
def powerDown (env : Env) (d : Dev) : Dev :=
  { powered := false, flash := match Config.newFlash env.tick with | some f => some f | none => d.flash }

/-- POWER_DOWN (R372). -/
def execPowerDown (s : State) : Host.Outcome State Fault Refusal := s.run powerDown

/-- CURF of an island changes, up to its highest clock (R376). -/
def clockChange (island : Nat) (mhz : BitVec 16) (env : Env) (d : Dev) : Dev :=
  if mhz.toNat ≤ (vget env.caps.maxF 0 island).toNat then d.onMgmt fun m => { m with curF := m.curF.set island mhz } else d

/-- ISLAND_CLOCK_CHANGE (R376). -/
def execIslandClockChange (island : Nat) (mhz : BitVec 16) (s : State) : Host.Outcome State Fault Refusal := s.run (clockChange island mhz)

/-- Whether the module serves a step: before DEVREADY nothing is dispatched or served, and only power comes and goes (R371,
R372). -/
def served (i : Instr) (d : Dev) : Bool :=
  match i with
  | .powerUp _ => true
  | .powerDown => true
  | _ => d.powered && d.mgmt.ready

/-! ### The mailbox -/

/-- A write of MBCMD (R382). -/
def mbcmdWrite (v : Dword) (d : Dev) : Dev :=
  if 256 ≤ v.toNat then d
  else if d.mgmt.mbState = 1 then d.onMgmt fun m => { m with mbRefused := true }
  else if v = 1 || v = 2 then d.onMgmt fun m => { m with mbState := 1, mbOp := v.setWidth 8, mbRefused := false, mbResult := 0 }
  else d.onMgmt fun m => { m with mbState := 2, mbResult := 2 }

/-- Bytes of MBDATA. -/
def mbBytes (d : Dev) (off n : Nat) : List Byte := ((octets 512 d.mgmt.mbData).drop off).take n

/-- EXTEND waits for its entry's page, which is frozen (R340). -/
def extendWaits (env : Env) (d : Dev) : Bool :=
  d.mgmt.mbState == 1 && d.mgmt.mbOp == 1 && decide (d.mgmt.mlogcnt.toNat < 4096) &&
    frozenAt d (env.caps.mlog.toNat + 64 * d.mgmt.mlogcnt.toNat)

/-- EXTEND as it is served (R380, R382): `mbOp` goes back to 0 once its effect is made. -/
def serveExtend (env : Env) (d : Dev) : Dev :=
  if !(d.mgmt.mbState == 1 && d.mgmt.mbOp == 1) || extendWaits env d then d
  else if 4096 ≤ d.mgmt.mlogcnt.toNat then d.onMgmt fun m => { m with mbOp := 0, mbResult := 3 }
  else (extendMeas env (mbBytes d 0 48) (mbBytes d 0x30 4) d).onMgmt fun m => { m with mbOp := 0, mbResult := 0 }

/-- EXTEND (R382). -/
def execExtend (s : State) : Host.Outcome State Fault Refusal := s.run serveExtend

/-- The part of a report that is signed (R381). -/
def reportHead (env : Env) (nonce : List Byte) (d : Dev) : List Byte :=
  natLe 4 1 ++ natLe 4 env.caps.devid.toNat ++ natLe 8 d.mgmt.mlogcnt.toNat ++ natLe 16 d.mgmt.fwVer.toNat ++ nonce ++
    octets 48 d.mgmt.meas ++ sha384 (keyOctets identityPub) ++ List.replicate 80 0

/-- ATTEST as it is served (R378, R381, R382): the signature is made with the identity key over SHA-384 of the report's first 256 octets. -/
def serveAttest (env : Env) (d : Dev) : Dev :=
  if !(d.mgmt.mbState == 1 && d.mgmt.mbOp == 2) then d else
  let r := reportHead env (mbBytes d 0 48) d
  let sig := identitySign env r
  let rep := r ++ beOctets 48 sig.1 ++ beOctets 48 sig.2
  d.onMgmt fun m => { m with
    mbOp := 0, mbResult := 0
    mbData := BitVec.ofNat 4096 (leNat (rep ++ (octets 512 m.mbData).drop 352)) }

/-- ATTEST (R381). -/
def execAttest (s : State) : Host.Outcome State Fault Refusal := s.run serveAttest

/-- The command being served finishes (R382). -/
def mailboxDone (env : Env) (d : Dev) : Dev :=
  if d.mgmt.mbState = 1 && !extendWaits env d then (serveAttest env (serveExtend env d)).onMgmt fun m => { m with mbState := 2 } else d

/-- MAILBOX_COMMAND_DONE (R382). -/
def execMailboxCommandDone (s : State) : Host.Outcome State Fault Refusal := s.run mailboxDone

end Sys2Proof.Machine
end

