-- ==== Sys2Proof/Machine/Registers.lean ====
section
/-! DEFINITION. The memory-mapped registers (R230, R298): what an aligned 8-byte store does to one, and what a dword of them reads
as. `o` is always the offset within the block. -/

namespace Sys2Proof.Machine

/-- Where the blocks of registers lie: the block's number and the offset in it (R230). -/
def mmioAt (pa : Nat) : Option (Nat × Nat) :=
  if decide (0xF000000000000 ≤ pa) && decide (pa < 2 ^ 52) then some (pa / 2 ^ 40 % 4096, pa % 2 ^ 40) else none

/-! ### Slices (R239, R260) -/

/-- A slice's register. -/
def sliceRead (y : Slice) (o : Nat) : Dword :=
  if o < 0x80 then
    let w := vget y.sway {} (o / 8)
    dw (b2n w.stage * 2 ^ 11 + b2n w.grant * 2 ^ 10 + w.vf.toNat)
  else if o < 0x100 then zx (vget y.cmask 0 ((o - 0x80) / 8))
  else if o < 0x180 then zx (vget y.cwgt 0 ((o - 0x100) / 8))
  else if o = 0x180 then zx y.sstray
  else 0

/-- A store to a slice's register behind those of its ways. -/
def sliceWrite (o : Nat) (v : Dword) (y : Slice) : Slice :=
  if o < 0x80 then y
  else if o < 0x100 then { y with cmask := vset y.cmask ((o - 0x80) / 8) (v.setWidth 16) }
  else if o < 0x180 then { y with cwgt := vset y.cwgt ((o - 0x100) / 8) (v.setWidth 8) }
  else if o = 0x180 then { y with sstray := v.setWidth 11 }
  else y

/-! ### Share controllers (R270) -/

/-- A share controller's register. -/
def shareRead (k : ShareCtl) (o : Nat) : Dword :=
  if o = 0 then b2d k.gate
  else if o = 8 then zx k.dwb
  else if 0x1000 ≤ o && o < 0x3000 then zx (k.share.get 0 ((o - 0x1000) / 8))
  else 0

/-- A store to a share controller's register. -/
def shareWrite (o : Nat) (v : Dword) (k : ShareCtl) : ShareCtl :=
  if o = 0 then { k with gate := v.getLsbD 0 }
  else if o = 8 then { k with dwb := v.setWidth 20 }
  else if 0x1000 ≤ o && o < 0x3000 then { k with share := k.share.set ((o - 0x1000) / 8) (v.setWidth 16) }
  else k

/-! ### Bridges (R285) -/

/-- A lane's register. -/
def laneRead (env : Env) (peer : Nat) (l : Lane) (o : Nat) : Dword :=
  match o with
  | 0 => dw ((env.caps.devid.toNat + 64 - peer) % 64 * 2 ^ 16 + l.tries.toNat * 2 ^ 8 + l.state.toNat)
  | 0x08 => zx l.lerr
  | 0x10 => zx l.lcorr
  | 0x18 => zx l.lunc
  | 0x20 => zx l.ldrop
  | 0x28 => zx l.lback
  | _ => 0

/-- A store to a lane's counter clears it. -/
def laneWrite (o : Nat) (l : Lane) : Lane :=
  match o with
  | 0x10 => { l with lcorr := 0 }
  | 0x18 => { l with lunc := 0 }
  | 0x20 => { l with ldrop := 0 }
  | 0x28 => { l with lback := 0 }
  | _ => l

/-- Plane and peer of a lane block of a bridge; none below the blocks and behind them. -/
def laneOf (o : Nat) : Option (Nat × Nat) :=
  if decide (0x10000 ≤ o) && decide (o < 0x10000 + 128 * 0x40) then some ((o - 0x10000) / 0x40 / 64, (o - 0x10000) / 0x40 % 64) else none

/-- A bridge's register. -/
def bridgeRead (env : Env) (d : Dev) (b o : Nat) : Dword :=
  let r := d.bridge b
  match laneOf o with
  | some (q, p) => laneRead env p (d.lane b q p) (o % 0x40)
  | none =>
    match o with
    | 0 => zx r.limit
    | 0x08 => dw ((List.range 4).foldr (fun i a => (vget r.allow 0 (vget #v[0, 1, 2, 3] 0 i)).toNat + 256 * a) 0)
    | 0x10 => r.peers
    | 0x18 => zx r.lost
    | _ => 0

/-- A store to a bridge's register. -/
def bridgeWrite (b o : Nat) (v : Dword) (d : Dev) : Dev :=
  let r := d.bridge b
  let put (x : Bridge) : Dev := { d with bridges := d.bridges.set b x }
  match laneOf o with
  | some (q, p) =>
    if o % 0x40 = 0 then (if v.getLsbD 63 then retryLane b q p d else d)
    else d.setLane b q p (laneWrite (o % 0x40) (d.lane b q p))
  | none =>
    match o with
    | 0 => put { r with limit := v.setWidth 20 }
    | 0x08 => put { r with allow := Vector.ofFn fun i => v.extractLsb' (8 * i.val) 8 }
    | 0x10 => put { r with peers := v }
    | 0x18 => put { r with lost := v.setWidth 32 }
    | _ => d

/-! ### Tiles (R321, R360) -/

/-- TSTAT (R321). -/
def tstat (d : Dev) (t : Nat) : Dword :=
  let y := d.tile t
  let stalled (q : Nat) : Bool := match d.queue t q with
    | c :: _ => c.stall.isSome
    | [] => false
  dw (packBits ((List.range 6).map stalled) * 2 ^ 8 + b2n y.saving * 2 ^ 6 + b2n y.core.trap.hand.isSome * 2 ^ 5 +
    b2n y.core.trap.undel * 2 ^ 4 + packBits (y.core.eng.toList.map (·.halted)))

/-- A register of a tile's control block. -/
def tileRead (d : Dev) (t o : Nat) : Dword :=
  let g := (d.tile t).dbg
  if o = 0x008 then tstat d t
  else if o = 0x108 then dw (b2n g.imgFault * 2 ^ 8 + g.bphit.toNat * 2 ^ 4 + b2n g.pending * 2 + b2n g.stopped)
  else if o = 0x110 then zx g.img
  else if 0x140 ≤ o && o < 0x180 then
    if o % 16 = 0 then vget g.bpctl 0 ((o - 0x140) / 16) else vget g.bpwalk 0 ((o - 0x140) / 16)
  else 0

/-- A write of TCMD (R321). -/
def tcmd (t : Nat) (v : Dword) (env : Env) (d : Dev) : Dev :=
  let q := bitsN v 16 5
  if 2 ^ 21 ≤ v.toNat || bitsN v 10 6 != 0 || bitsN v 4 4 != 0 then d
  else match bitsN v 0 4 with
    | 1 => resumeEngine t (Eng.ofBits (v.extractLsb' 8 2)) d
    | 2 => terminate env t d
    | 3 => resumeQueue t q d
    | 4 => failQueue env t q d
    | 5 => resumeRake t d
    | 6 => failRake env t d
    | _ => d

/-- A store to a register of a tile's control block. -/
def tileWrite (t o : Nat) (v : Dword) (env : Env) (d : Dev) : Dev :=
  if o = 0 then tcmd t v env d
  else if o = 0x100 then dbgctlWrite t v env d
  else if o = 0x110 then onDbg d t fun g => { g with img := v.setWidth 52 &&& 0xFFFFFFFFFF000 }
  else if 0x140 ≤ o && o < 0x180 then
    onDbg d t fun g =>
      let k := (o - 0x140) / 16
      if o % 16 = 0 then { g with bpctl := vset g.bpctl k (v &&& 0xF87FFFFFFFFFFFFC) } else { g with bpwalk := vset g.bpwalk k v }
  else d

/-! ### VF control blocks (R327, R367) -/

/-- A register of a VF's control block. -/
def vfRead (b : VfBlk) (o : Nat) : Dword :=
  if o = 0x00 then dw (b2n b.priv + 4 * b2n b.tearing)
  else if o = 0x08 then zx b.gen
  else if o = 0x10 then zx b.deffq
  else if o = 0x18 then zx b.parkbase
  else if o = 0x20 then dw (b.ver.toNat + b2n b.active * 2 ^ 16 + b2n b.changed * 2 ^ 17)
  else if o < 0x28 then 0
  else if o < 0x48 then zx (vget b.evsel 0 ((o - 0x28) / 8))
  else if o < 0x68 then evcnt b ((o - 0x48) / 8)
  else if o = 0x68 then zx b.wgt
  else if o = 0x70 then dw (b.rasid.toNat + b2n b.rasidV * 2 ^ 16)
  else 0

/-- A store to a register of a VF's control block. -/
def vfWrite (k o : Nat) (v : Dword) (env : Env) (d : Dev) : Dev :=
  let b := d.vf k
  if o = 0x00 then
    let d1 := d.setVf k { b with priv := v.getLsbD 0 }
    if v.getLsbD 1 then tearVf env k d1 else d1
  else if o = 0x10 then d.setVf k { b with deffq := v.setWidth 55 }
  else if o = 0x18 then d.setVf k { b with parkbase := v.setWidth 55 }
  else if o = 0x20 then psessWrite k v d
  else if o < 0x28 then d
  else if o < 0x48 then d.setVf k { b with evsel := vset b.evsel ((o - 0x28) / 8) (v.setWidth 16) }
  else if o < 0x68 then d.setVf k { b with evcnt := vset b.evcnt ((o - 0x48) / 8) v }
  else if o = 0x68 then d.setVf k { b with wgt := v.setWidth 8 }
  else if o = 0x70 then d.setVf k { b with rasid := v.setWidth 16, rasidV := v.getLsbD 16 }
  else if o = 0x78 then releaseNode k v env d
  else d

/-! ### The migration engine (R337, R356) -/

/-- A register of the migration engine. -/
def migRead (m : Mig) (o : Nat) : Dword :=
  match o with
  | 0x08 => dw (m.ovUse * 2 ^ 32 + m.stubUse * 2 ^ 16 + b2n m.refused * 2 ^ 4 + m.cmds.length)
  | 0x10 => zx m.mrecq
  | 0x18 => zx m.homedir
  | 0x20 => zx m.pool
  | 0x28 => zx m.stubLife
  | 0x30 => m.occnt
  | 0x38 => m.relaycnt
  | 0x40 => zx m.frzq
  | _ => 0

/-- A store to a register of the migration engine; one to MIGSTAT clears REFUSED where it has that bit set. -/
def migWrite (o : Nat) (v : Dword) (env : Env) (d : Dev) : Dev :=
  match o with
  | 0x00 => attempt d (migSubmit env v d)
  | 0x08 => if v.getLsbD 4 then d.onMig fun m => { m with refused := false } else d
  | 0x10 => d.onMig fun m => { m with mrecq := v.setWidth 52 }
  | 0x18 => d.onMig fun m => { m with homedir := v.setWidth 52 &&& 0xFFFFFFFF00001 }
  | 0x20 => d.onMig fun m => { m with pool := v.setWidth 52 }
  | 0x28 => d.onMig fun m => { m with stubLife := v.setWidth 32 }
  | 0x30 => d.onMig fun m => { m with occnt := 0 }
  | 0x38 => d.onMig fun m => { m with relaycnt := 0 }
  | 0x40 => d.onMig fun m => { m with frzq := 0 }
  | _ => d

/-! ### Capabilities, configuration, mailbox (R247, R373, R382) -/

/-- A dword of a mask, the first lowest. -/
def maskDword {w : Nat} (m : BitVec w) (i : Nat) : Dword := m.extractLsb' (64 * i) 64

/-- Dword i of the enable mask of n units (R373). -/
def unitMask (on : Nat → Bool) (n i : Nat) : Dword :=
  dw (packBits ((List.range 64).map fun k => decide (64 * i + k < n) && on (64 * i + k)))

/-- A byte of LATTAB (R373). -/
def lattab (env : Env) (i : Nat) : Byte :=
  if i < 80 * 160 then if env.caps.sliceOn (i % 160) then Config.latency (i / 160) (i % 160) else 0xFF else 0

/-- ISLFREQ of an island (R373). -/
def isl (c : Caps) (d : Dev) (i : Nat) : Dword := dw ((vget c.maxF 0 i).toNat * 2 ^ 16 + (d.mgmt.curF.get (vget c.maxF 0 i) i).toNat)

/-- A dword of the capability registers. -/
def capRead (env : Env) (d : Dev) (o : Nat) : Dword :=
  let c := env.caps
  if o = 0 then dw (d.mgmt.bootstat.toNat * 2 ^ 16 + b2n d.mgmt.ready * 2 ^ 6 + c.devid.toNat)
  else if o = 8 then 3
  else if 0x100 ≤ o && o < 0x150 then unitMask c.tileOn 640 ((o - 0x100) / 8)
  else if 0x180 ≤ o && o < 0x198 then unitMask c.sliceOn 160 ((o - 0x180) / 8)
  else if 0x1C0 ≤ o && o < 0x1F0 then maskDword c.chanEn ((o - 0x1C0) / 8)
  else if 0x300 ≤ o && o < 0x480 then isl c d ((o - 0x300) / 8)
  else if 0x1000 ≤ o then dw (leNat ((List.range 8).map fun i => lattab env (o - 0x1000 + i)))
  else 0

/-- A register of the device configuration block. -/
def confRead (d : Dev) (o : Nat) : Dword :=
  match o with
  | 0x00 => zx d.asidtab
  | 0x08 => zx d.leaselen
  | 0x10 => zx d.xvfdrop
  | 0x18 => zx d.fqdrop
  | 0x20 => zx d.profdrop
  | _ => 0

/-- A store to a register of the device configuration block. -/
def confWrite (o : Nat) (v : Dword) (d : Dev) : Dev :=
  match o with
  | 0x00 => { d with asidtab := v.setWidth 52 &&& 0xFFFFFFFF80000 }
  | 0x08 => { d with leaselen := v.setWidth 10 }
  | 0x10 => { d with xvfdrop := 0 }
  | 0x18 => { d with fqdrop := 0 }
  | 0x20 => { d with profdrop := 0 }
  | _ => d

/-- A dword of the mailbox. -/
def mbRead (env : Env) (d : Dev) (o : Nat) : Dword :=
  let m := d.mgmt
  if o = 0x08 then dw (b2n m.mbRefused * 2 ^ 16 + (if m.mbState = 1 then 0 else m.mbResult.toNat) * 2 ^ 8 + m.mbState.toNat)
  else if o = 0x10 then zx env.caps.mlog
  else if o = 0x18 then zx m.mlogcnt
  else if 0x100 ≤ o && o < 0x300 then m.mbData.extractLsb' (8 * (o - 0x100)) 64
  else 0

/-- Bytes stored to MBDATA. -/
def mbStore (o : Nat) (b : List Byte) (d : Dev) : Dev :=
  d.onMgmt fun m => { m with mbData := BitVec.ofNat 4096 (putBits m.mbData.toNat (8 * (o - 0x100)) (8 * b.length) (leNat b)) }

/-! ### Partitions (R50) -/

/-- Dword i of a mask of a partition table. -/
def partRead (d : Dev) (o : Nat) : Dword :=
  if o % 0x80 < 0x50 then maskDword (d.parts.get 0 (o / 0x80)) (o % 0x80 / 8) else 0

/-- A store to a mask of a partition table. -/
def partWrite (o : Nat) (v : Dword) (d : Dev) : Dev :=
  if o % 0x80 < 0x50 then
    let k := o / 0x80
    { d with parts := d.parts.set k (BitVec.ofNat 640 (putBits (d.parts.get 0 k).toNat (o % 0x80 / 8 * 64) 64 v.toNat)) }
  else d

/-! ### All registers -/

/-- The aligned dword at a register address. -/
def regRead (env : Env) (d : Dev) (pa : Nat) : Dword :=
  match mmioAt pa with
  | none => 0
  | some (blk, o) =>
    match blk with
    | 0xF00 => if o / 0x10000 < 160 then sliceRead (d.slice (o / 0x10000)) (o % 0x10000) else 0
    | 0xF01 => if o / 2 ^ 32 < 4 then shareRead (d.share (o / 2 ^ 32)) (o % 2 ^ 32) else 0
    | 0xF02 => if o / 2 ^ 32 < 4 then bridgeRead env d (o / 2 ^ 32) (o % 2 ^ 32) else 0
    | 0xF03 => if o / 0x1000 < 640 then tileRead d (o / 0x1000) (o % 0x1000) else 0
    | 0xF04 => if o / 0x100 < 1024 then vfRead (d.vf (o / 0x100)) (o % 0x100) else 0
    | 0xF05 => migRead d.mig o
    | 0xF06 => if o / 0x100 < 48 then
        (if o % 0x100 = 0 then b2d (d.core (o / 0x100)).rplctl else if o % 0x100 = 8 then zx (d.core (o / 0x100)).rplbase else 0) else 0
    | 0xF07 => capRead env d o
    | 0xF08 => confRead d o
    | 0xF09 => if o / 0x1000 < 80 && o % 0x1000 = 0 then zx (d.cluster (o / 0x1000)).lcap else 0
    | 0xF0A => if o < 1024 * 0x800 then partRead d o else 0
    | 0xF0B => mbRead env d o
    | 0xF0D => if o < 1024 * 8 then zx (d.vf (o / 8)).asid else 0
    | _ => 0

/-- An aligned 8-byte store to a register. -/
def regWrite (env : Env) (pa : Nat) (v : Dword) (d : Dev) : Dev :=
  match mmioAt pa with
  | none => d
  | some (blk, o) =>
    match blk with
    | 0xF00 =>
      if 160 ≤ o / 0x10000 then d
      else if o % 0x10000 < 0x80 then swayStore env (o / 0x10000) (o % 0x10000 / 8) v d
      else d.setSlice (o / 0x10000) (sliceWrite (o % 0x10000) v (d.slice (o / 0x10000)))
    | 0xF01 =>
      if o / 2 ^ 32 < 4 then { d with shares := d.shares.set (o / 2 ^ 32) (shareWrite (o % 2 ^ 32) v (d.share (o / 2 ^ 32))) } else d
    | 0xF02 => if o / 2 ^ 32 < 4 then bridgeWrite (o / 2 ^ 32) (o % 2 ^ 32) v d else d
    | 0xF03 => if o / 0x1000 < 640 then tileWrite (o / 0x1000) (o % 0x1000) v env d else d
    | 0xF04 => if o / 0x100 < 1024 then vfWrite (o / 0x100) (o % 0x100) v env d else d
    | 0xF05 => migWrite o v env d
    | 0xF06 =>
      if 48 ≤ o / 0x100 then d
      else if o % 0x100 = 0 then d.setCore (o / 0x100) { d.core (o / 0x100) with rplctl := v.getLsbD 0 }
      else if o % 0x100 = 8 then d.setCore (o / 0x100) { d.core (o / 0x100) with rplbase := v.setWidth 52 }
      else d
    | 0xF08 => confWrite o v d
    | 0xF09 => if o / 0x1000 < 80 && o % 0x1000 = 0 then lcapWrite (o / 0x1000) v d else d
    | 0xF0A => if o < 1024 * 0x800 then partWrite o v d else d
    | 0xF0B => if o = 0 then mbcmdWrite v d else if 0x100 ≤ o && o < 0x300 then mbStore o (natLe 8 v.toNat) d else d
    | 0xF0D => if o < 1024 * 8 then d.setVf (o / 8) { d.vf (o / 8) with asid := v.setWidth 16 } else d
    | _ => d

/-- A store of a register's bytes by system core n: all 8 at once and aligned, but for MBDATA (R298). One to a launch port page submits, and
is done once the submission is accepted or refused (R40, R50); one to MSUBMIT is done once the engine has read the block (R338, R340). -/
def regStore (env : Env) (n pa : Nat) (b : List Byte) (d : Dev) : Res Unit :=
  let whole := b.length = 8 && pa % 8 = 0
  match mmioAt pa with
  | some (0xF0B, o) =>
    .ok () (if 0x100 ≤ o && o + b.length ≤ 0x300 && o % b.length = 0 then mbStore o b d
      else if whole then regWrite env pa (dw (leNat b)) d else d)
  | some (0xF0C, o) =>
    if whole && o < 1024 * 65536 then portTry n (BitVec.ofNat 10 (o / 65536)) (dw (leNat b)) env d else .ok () d
  | some (0xF05, 0) => if whole then migSubmit env (dw (leNat b)) d else .ok () d
  | some _ => .ok () (if whole then regWrite env pa (dw (leNat b)) d else d)
  | none => .ok () d

/-- An aligned load of k bytes of registers (R298). -/
def regLoad (env : Env) (d : Dev) (pa k : Nat) : List Byte :=
  ((natLe 8 (regRead env d (pa / 8 * 8)).toNat).drop (pa % 8)).take k

/-- A store of 8 bytes to a register that a system core performs, ahead of what it has not done yet (R298); one without privilege reaches no
register (R230, R382). -/
def registerWrite (pa v : Dword) (env : Env) (d : Dev) : Dev :=
  if (d.core env.unit).level = .user then d else attempt d (regStore env env.unit pa.toNat (natLe 8 v.toNat) d)

/-- REGISTER_WRITE (R298). -/
def execRegisterWrite (pa v : Dword) (s : State) : Host.Outcome State Fault Refusal := s.run (registerWrite pa v)

end Sys2Proof.Machine
end

