-- ==== Sys2Proof/Machine/Cores.lean ====
section
/-! DEFINITION. The system cores as the device sees them: their accesses (R298), what reaches them from outside, and their replay logs
(R369). -/

namespace Sys2Proof.Machine

/-- A change to a system core. -/
def onCpu (d : Dev) (n : Nat) (f : SysCore → SysCore) : Dev := d.setCore n (f (d.core n))

/-- A record of a replay log, where the core keeps one (R369). -/
def replayLog (env : Env) (n kind : Nat) (src val : Dword) (d : Dev) : Dev :=
  let c := d.core n
  if !c.rplctl then d else
  ringAddPa env 0 0x0C01 c.rplbase.toNat (natLe 8 kind ++ natLe 8 src.toNat ++ natLe 8 val.toNat ++ natLe 8 c.retired.toNat) d

/-- Whether a system core runs with privilege (R234, R382): above user level. (DESIGN CHOICE, unsafe: log entry 56) -/
def SysCore.priv (c : SysCore) : Bool := c.level != .user

/-- On whose behalf a system core makes an access through the page tables. (DESIGN CHOICE, unsafe: log entry 56) -/
def coreWho (d : Dev) (n : Nat) (asid : BitVec 16) (vf : BitVec 10) : Who :=
  { unit := .core n, asid := asid, vf := vf, priv := (d.core n).priv }

/-- Where a core's access of n bytes goes: memory under a VF, or registers at a physical address. -/
inductive CLoc where
  | mem (loc : Loc) (cls : BitVec 4) (vf : BitVec 10)
  | reg (pa : Nat)

/-- Find the place of an address a core uses: the device registers and HBM by physical address, which only a core with privilege uses (R230,
R382); anything else there is a fault. A physical access to HBM is of the VF that owns the frame: one to a frame that is unowned or scrubbed
takes FRAME_OWNER, one to a frozen page waits (R242, R340; DEDUCED, unsafe: log entry 92). -/
def coreLoc (env : Env) (n : Nat) (write : Bool) (a : CAddr) (d : Dev) : Res CLoc :=
  match a with
  | .phys pa =>
    if !(d.core n).priv then .sys cPermission pa
    else if pa.toNat < env.caps.hbm then
      let vf := (d.frame (pa.toNat / 65536)).vf
      match checkFrame env d (coreWho d n 0 vf) {} pa.toNat 0 with
      | .ok loc cls => .ok (.mem loc cls vf) d
      | .fault c => .sys c pa
      | .promo p => .wait Wait.idle (startPromo d p)
      | .frozen => .wait Wait.idle d
      | .remote _ => .sys cPermission pa
    else if (mmioAt pa.toNat).isSome then .ok (.reg pa.toNat) d
    else .sys cTranslation pa
  | .virt asid vf va =>
    (locate env d (coreWho d n asid vf) { write := write, port := true } va).bind fun x d1 => .ok (.mem x.1 x.2 vf) d1

/-- m of the stores to registers that a system core has posted are performed, oldest first; one may wait (R40, R340). -/
def performPosted (env : Env) (n : Nat) : Nat → Dev → Res Unit
  | 0, d => .ok () d
  | m + 1, d =>
    match (d.core n).posted with
    | [] => .ok () d
    | (pa, b) :: r => (regStore env n pa.toNat b d).bind fun _ d1 => performPosted env n m (onCpu d1 n fun c => { c with posted := r })

/-- Every store to registers that a system core has posted is performed. -/
def drainPosted (env : Env) (n : Nat) (d : Dev) : Res Unit := performPosted env n (d.core n).posted.length d

/-- A load of k bytes at one place, which end in its page; one of registers comes after the core's stores to registers. -/
def coreLoadAt (env : Env) (n k : Nat) (l : CLoc) (d : Dev) : Res (List Byte) :=
  match l with
  | .mem loc cls vf => let (b, d1) := loadSpan env (.core n) vf cls k d loc k; .ok b d1
  | .reg pa =>
    if pa % k = 0 then (drainPosted env n d).bind fun _ d1 => .ok (regLoad env d1 pa k) d1 else .sys cTranslation (dw pa)

/-- Whether a physical address is one of the launch port pages (R50). -/
def inLaunch (pa : Nat) : Bool :=
  match mmioAt pa with
  | some (blk, _) => blk == 0xF0C
  | none => false

/-- A store at one place. To the launch port page, of 8 bytes, it submits, in its place in the core's order (R40, R50). One to other registers is
outside that order: it is posted, and performed later (R298; DESIGN CHOICE, safe: log entry 109). -/
def coreStoreAt (env : Env) (n : Nat) (a : CAddr) (l : CLoc) (b : List Byte) (d : Dev) : Res Unit :=
  match l with
  | .mem (.port v) _ _ =>
    let off := match a with | .virt _ _ va => va.toNat | .phys pa => pa.toNat
    if b.length = 8 && off % 8 = 0 then portTry n (BitVec.ofNat 10 v) (dw (leNat b)) env d else .ok () d
  | .mem loc cls vf => .ok () (storeSpan env (.core n) vf cls b.length d loc b)
  | .reg pa =>
    if inLaunch pa then regStore env n pa b d
    else .ok () (onCpu d n fun c => { c with posted := c.posted ++ [(dw pa, b)] })

/-- An address k bytes further on. -/
def addrPlus (a : CAddr) (k : Nat) : CAddr :=
  match a with
  | .phys pa => .phys (pa + dw k)
  | .virt asid vf va => .virt asid vf (va + dw k)

/-- Bytes of an access that lie in the page of its address. -/
def addrInPage (a : CAddr) (k : Nat) : Nat :=
  match a with
  | .phys pa => min k (65536 - pa.toNat % 65536)
  | .virt _ _ va => min k (65536 - va.toNat % 65536)

/-- A load of k bytes, which may cross into the next page. -/
def coreLoad (env : Env) (n k : Nat) (a : CAddr) (d : Dev) : Res (List Byte) :=
  let m := addrInPage a k
  (coreLoc env n false a d).bind fun l d1 =>
    (coreLoadAt env n m l d1).bind fun b d2 =>
      if m = k then .ok b d2
      else (coreLoc env n false (addrPlus a m) d2).bind fun l2 d3 => (coreLoadAt env n (k - m) l2 d3).bind fun c d4 => .ok (b ++ c) d4

/-- A store, which may cross into the next page; nothing is stored where one of them faults. -/
def coreStore (env : Env) (n : Nat) (b : List Byte) (a : CAddr) (d : Dev) : Res Unit :=
  let m := addrInPage a b.length
  (coreLoc env n true a d).bind fun l d1 =>
    if m = b.length then coreStoreAt env n a l b d1
    else (coreLoc env n true (addrPlus a m) d1).bind fun l2 d2 =>
      (coreStoreAt env n a l (b.take m) d2).bind fun _ d3 => coreStoreAt env n (addrPlus a m) l2 (b.drop m) d3

/-- An aligned place of memory that is no register and no launch port, for an atomic of a core (R50). -/
def coreAtomicLoc (env : Env) (n k : Nat) (write : Bool) (a : CAddr) (d : Dev) : Res (Loc × BitVec 4 × BitVec 10) :=
  let off := match a with | .virt _ _ va => va.toNat | .phys pa => pa.toNat
  if off % k != 0 then .sys 0x0B 0 else
  (coreLoc env n write a d).bind fun l d1 =>
    match l with
    | .mem (.port _) _ _ => .sys cTranslation 0
    | .mem loc cls vf => .ok (loc, cls, vf) d1
    | .reg _ => .sys cTranslation 0

/-- The new value of an atomic memory operation: add, swap, and, or, xor, min, max, minu, maxu; none for another number. -/
def coreAmo (wide : Bool) (op : Nat) (old b : Nat) : Option Nat :=
  match op with
  | 0 => some (amoAdd wide old b)
  | 1 => some b
  | 2 => some (amoLogic 0 old b)
  | 3 => some (amoLogic 1 old b)
  | 4 => some (amoLogic 2 old b)
  | 5 => some (amoMinMax wide 0 old b)
  | 6 => some (amoMinMax wide 1 old b)
  | 7 => some (amoMinMax wide 2 old b)
  | 8 => some (amoMinMax wide 3 old b)
  | _ => none

/-- A register of a system core is written; x0 stays 0. -/
def SysCore.put (c : SysCore) (r : BitVec 5) (v : Dword) : SysCore := if r = 0 then c else { c with x := vset c.x r.toNat v }

/-- The value of an integer register. -/
def SysCore.get (c : SysCore) (r : BitVec 5) : Dword := vget c.x 0 r.toNat

/-- What a load of k bytes writes to its register: sign or zero extended, or, in a floating-point register, with ones above it. (PRESUMED,
unsafe: log entry 68) -/
def SysCore.loaded (c : SysCore) (rd : CReg) (k : Nat) (signed : Bool) (b : List Byte) : SysCore :=
  match rd with
  | .x r => c.put r (if signed then extend k false (leNat b) else dw (leNat b))
  | .f r => { c with f := vset c.f r.toNat (dw (leNat b + (2 ^ 64 - 2 ^ (8 * k)))) }

/-- The register whose low bytes a store writes. -/
def SysCore.stored (c : SysCore) (rs : CReg) : Dword :=
  match rs with
  | .x r => c.get r
  | .f r => vget c.f 0 r.toNat

/-- Bytes of the vector register file from one on. -/
def SysCore.vbytes (c : SysCore) (at_ n : Nat) : List Byte := (List.range n).map fun i => c.v.get 0 (at_ + i)

/-- Bytes of the vector register file are written. -/
def SysCore.putV (c : SysCore) (l : List (Nat × Byte)) : SysCore :=
  { c with v := l.foldl (fun m e => m.set (e.1 % (32 * Config.vlenb)) e.2) c.v }

/-- Where element i of k bytes of a vector register group lies in the register file. -/
def vecAt (r : BitVec 5) (k i : Nat) : Nat := r.toNat * Config.vlenb + k * i

/-- An instruction of a system core: what it leaves in memory and in the register it writes. (PRESUMED, unsafe: log entry 68) -/
def coreRun (env : Env) (n : Nat) (op : CoreOp) (d : Dev) : Res Unit :=
  let width (w : Bool) : Nat := if w then 8 else 4
  match op with
  | .load rd a z sg => (coreLoad env n (msBytes z) a d).bind fun b d1 => .ok () (onCpu d1 n fun c => c.loaded rd (msBytes z) sg b)
  | .store a z rs => coreStore env n (natLe (msBytes z) ((d.core n).stored rs).toNat) a d
  | .vload vd i a z _ =>
    (coreLoad env n (msBytes z) a d).bind fun b d1 =>
      .ok () (onCpu d1 n fun c => c.putV (b.mapIdx fun k x => (vecAt vd (msBytes z) i + k, x)))
  | .vstore vs i a z _ => coreStore env n ((d.core n).vbytes (vecAt vs (msBytes z) i) (msBytes z)) a d
  | .zero a =>
    coreStore env n (List.replicate 64 0) (match a with
      | .phys pa => .phys (pa &&& ~~~ 63)
      | .virt asid vf va => .virt asid vf (va &&& ~~~ 63)) d
  | .amo rd a w o rs =>
    let v := cutTo w ((d.core n).get rs)
    (coreAtomicLoc env n (width w) true a d).bind fun x d1 =>
      let (old, d2) := atomicAt env d1 (.core n) x.2.2 x.2.1 x.1 (width w) fun b =>
        natLe (width w) ((coreAmo w o.toNat (leNat b) v).getD (leNat b))
      .ok () (onCpu d2 n fun c => c.put rd (extend (width w) false (leNat old)))
  | .lr rd a w =>
    (coreAtomicLoc env n (width w) false a d).bind fun x d1 =>
      let (b, d2) := loadAt env d1 (.core n) x.2.2 x.2.1 x.1 (width w)
      .ok () (onCpu d2 n fun c => { c.put rd (extend (width w) false (leNat b)) with resv := some (x.1.key, width w) })
  | .sc rd a w rs =>
    let v := ((d.core n).get rs).toNat
    (coreAtomicLoc env n (width w) true a d).bind fun x d1 =>
      let held := (d1.core n).resv == some (x.1.key, width w)
      let d2 := if held then storeAt env d1 (.core n) x.2.2 x.2.1 x.1 (natLe (width w) v) else d1
      .ok () (onCpu d2 n fun c => { c.put rd (b2d (!held)) with resv := none })
  | .fence pred _ => if pred.getLsbD 2 then drainPosted env n d else .ok () d
  | .timer rd csr v => .ok () (onCpu (replayLog env n 4 (zx csr) v d) n fun c => c.put rd v)
  | .tlbinv scope asid va =>
    .ok () { d with tlb := d.tlb.filter fun e =>
      !(if scope = 0 then e.covers asid va else if scope = 1 then e.asid == asid else true) }
  | .other => .ok () d

/-- What a trap of a system core leaves in its pc, its CSRs and its mode: the RISC-V rules say it, which are no part of the spec. (DESIGN
CHOICE, safe: log entry 93) -/
def SysCore.trapped (env : Env) (c : SysCore) : SysCore :=
  let w := Config.coreWrites env.tick
  { c with
    pc := w.pc, level := w.level, virt := w.virt
    csr := w.csr.foldl (fun m e => m.set e.1.toNat e.2) c.csr }

/-- What an instruction leaves in its core whose effect is RISC-V's own: anything in the registers that it writes. (DESIGN CHOICE, safe: log
entry 93) -/
def SysCore.ran (env : Env) (c : SysCore) : SysCore :=
  let w := Config.coreWrites env.tick
  let c1 := match w.x with
    | some (r, v) => c.put r v
    | none => c
  let c2 := match w.f with
    | some (r, v) => { c1 with f := vset c1.f r.toNat v }
    | none => c1
  (c2.putV w.v).trapped env

/-- A system core after an instruction whose effect is made: it goes on behind it, and the instruction is counted, with the last element of a
vector instruction; one that is RISC-V's own may go anywhere. -/
def SysCore.retire (env : Env) (op : CoreOp) (c : SysCore) : SysCore :=
  let next (c : SysCore) : SysCore := { c with pc := c.pc + (if Config.coreShort env.tick then 2 else 4), retired := c.retired + 1, fault := 0 }
  match op with
  | .vload _ _ _ _ last => if last then next c else { c with fault := 0 }
  | .vstore _ _ _ _ last => if last then next c else { c with fault := 0 }
  | .other => { c.ran env with retired := c.retired + 1, fault := 0 }
  | .load _ _ _ _ => next c
  | .store _ _ _ => next c
  | .zero _ => next c
  | .amo _ _ _ _ _ => next c
  | .lr _ _ _ => next c
  | .sc _ _ _ _ => next c
  | .fence _ _ => next c
  | .timer _ _ _ => next c
  | .tlbinv _ _ _ => next c

/-- The address that an instruction of a system core uses. -/
def coreOpAddr : CoreOp → Option CAddr
  | .load _ a _ _ => some a
  | .store a _ _ => some a
  | .vload _ _ a _ _ => some a
  | .vstore _ _ a _ _ => some a
  | .zero a => some a
  | .amo _ a _ _ _ => some a
  | .lr _ a _ => some a
  | .sc _ a _ _ => some a
  | .fence _ _ => none
  | .timer _ _ _ => none
  | .tlbinv _ _ _ => none
  | .other => none

/-- On whose behalf an instruction of a system core translates its address, if it does. -/
def coreOpWho (d : Dev) (n : Nat) (op : CoreOp) : Option Who :=
  match coreOpAddr op with
  | some (.virt asid vf _) => some (coreWho d n asid vf)
  | some (.phys _) => none
  | none => none

/-- An instruction of a system core (R298): it retires; or its access faults, and the core traps under the RISC-V rules, with the translation
kept that the access used (R236); or it waits for a promotion or a freeze. -/
def coreStep (op : CoreOp) (env : Env) (d : Dev) : Dev :=
  let n := env.unit
  match coreRun env n op d with
  | .ok _ d1 => onCpu d1 n (SysCore.retire env op)
  | .wait _ d1 => waitLeft d d1
  | .sys code va => onCpu (keepFault env (coreOpWho d n op) va d) n fun c => { c.trapped env with fault := BitVec.ofNat 8 code }
  | .trap _ _ _ _ _ => d
  | .roll _ => d

/-- SYSTEM_CORE_INSTRUCTION (R298). -/
def execSystemCoreInstruction (op : CoreOp) (s : State) : Host.Outcome State Fault Refusal := s.run (coreStep op)

/-- On whose behalf a root port reads and writes (R235): it translates through its I/O TLB under the ASID loaded for it. -/
def portWho (k : Nat) (r : RootPort) : Who := { unit := .port k, asid := r.asid, vf := r.vf, priv := true }

/-- A root port with the ASID and the VF of an access. -/
def RootPort.under (r : RootPort) (a : DmaAddr) : RootPort := { r with asid := a.asid, vf := a.vf }

/-- A DMA write of a root port is performed (R235, R377), under the ASID and VF that it holds from then on, and the core that logs replay
records it (R369): one that faults anywhere writes nothing and keeps the translation that failed (R236), one that meets a frozen page is not
performed yet. (DEDUCED, unsafe: log entry 92) -/
def dmaWrite (env : Env) (a : DmaAddr) (b : List Byte) (d : Dev) : Dev :=
  let r := (d.ports.get {} a.port.toNat).under a
  let w := portWho a.port.toNat r
  let n := b.length / 65536 + 2
  let done : Res Unit :=
    (locate env { d with ports := d.ports.set a.port.toNat r } w { write := true } a.va).bind fun x d1 =>
      (hwCheck env w { write := true } n d1 a.va b.length).bind fun _ d2 =>
        (hwWrite env w .none n d2 a.va b).bind fun _ d3 =>
          .ok () (replayLog env env.unit 1 (dw x.1.key) (dw b.length) d3)
  match done with
  | .sys _ va => keepTlb env d w va
  | .ok _ d1 => d1
  | .wait _ d1 => waitLeft d d1
  | .trap _ _ _ _ _ => d
  | .roll _ => d

/-- A DMA read of a root port (R235, R377): its bytes go outside. -/
def dmaRead (env : Env) (a : DmaAddr) (n : Nat) (d : Dev) : Dev :=
  let r := (d.ports.get {} a.port.toNat).under a
  let w := portWho a.port.toNat r
  match hwRead env w .none (n / 65536 + 2) { d with ports := d.ports.set a.port.toNat r } a.va n with
  | .sys _ va => keepTlb env d w va
  | .ok _ d1 => d1
  | .wait _ d1 => waitLeft d d1
  | .trap _ _ _ _ _ => d
  | .roll _ => d

/-- What comes from outside at root port k (R377, R379); only a port that runs as CXL brings CXL memory, or takes it away. (DESIGN CHOICE, safe:
log entry 110) -/
def portOn (env : Env) (d : Dev) (k : Nat) : Dev :=
  match Config.portEvent env.tick k with
  | none => d
  | some (.mode cxl) => { d with ports := d.ports.set k { d.ports.get {} k with cxl := cxl } }
  | some (.memory l) => if (d.ports.get {} k).cxl then { d with cxl := l } else d
  | some (.read a n) => dmaRead env { a with port := BitVec.ofNat 3 k } n d
  | some (.flash f) => { d with flash := some f }

/-- What comes from outside, and the stores to registers that system cores perform now (R298, R377). -/
def outside (env : Env) (d : Dev) : Dev :=
  let d1 := (d.ports.entries.map (·.1)).foldl (portOn env) d
  (d1.cores.entries.map (·.1)).foldl (fun d n =>
    if (d.core n).posted.isEmpty then d else attempt d (performPosted env n (min (Config.postNow env.tick n) (d.core n).posted.length) d)) d1

/-- NETWORK_ARRIVAL (R369). -/
def execNetworkArrival (dst : DmaAddr) (bytes : List Byte) (s : State) : Host.Outcome State Fault Refusal :=
  s.run fun env d => dmaWrite env dst bytes d

/-- STORAGE_COMPLETION (R369). -/
def execStorageCompletion (src status : Dword) (s : State) : Host.Outcome State Fault Refusal :=
  s.run fun env d => replayLog env env.unit 2 src status d

/-- A system core takes an interrupt before its next instruction (R369), under the RISC-V rules. -/
def interrupt (cause num : Dword) (env : Env) (d : Dev) : Dev :=
  onCpu (replayLog env env.unit 3 num cause d) env.unit (SysCore.trapped env)

/-- INTERRUPT_TAKEN (R369). -/
def execInterruptTaken (cause num : Dword) (s : State) : Host.Outcome State Fault Refusal := s.run (interrupt cause num)

end Sys2Proof.Machine
end

