-- ==== Sys2Proof/Machine/Dispatch.lean ====
section
/-! DEFINITION. Which meaning each instruction has: one arm per constructor, each one call. -/

namespace Sys2Proof.Machine

/-- One instruction, run at the tile and engine the state names. -/
def exec (i : Instr) (s : State) : Host.Outcome State Fault Refusal :=
  match i with
  | .powerUp stat => Sys2Proof.Machine.execPowerUp stat s
  | .islandClockChange island mhz => Sys2Proof.Machine.execIslandClockChange island mhz s
  | .launchPortStore vf va => Sys2Proof.Machine.execLaunchPortStore vf va s
  | .walkerDispatch => Sys2Proof.Machine.execWalkerDispatch s
  | .preemptRequest => Sys2Proof.Machine.execPreemptRequest s
  | .contextSaveDone => Sys2Proof.Machine.execContextSaveDone s
  | .iterationRetirement => Sys2Proof.Machine.execIterationRetirement s
  | .retirementMessage => Sys2Proof.Machine.execRetirementMessage s
  | .nodeCompletion => Sys2Proof.Machine.execNodeCompletion s
  | .releaseWrite va => Sys2Proof.Machine.execReleaseWrite va s
  | .engineStallWatchdog => Sys2Proof.Machine.execEngineStallWatchdog s
  | .regionRollback cause => Sys2Proof.Machine.execRegionRollback cause s
  | .sfuResultLand => Sys2Proof.Machine.execSfuResultLand s
  | .flagwaitSatisfied => Sys2Proof.Machine.execFlagwaitSatisfied s
  | .barrierDecrement q n => Sys2Proof.Machine.execBarrierDecrement q n s
  | .commandCompletion q => Sys2Proof.Machine.execCommandCompletion q s
  | .commandStall q => Sys2Proof.Machine.execCommandStall q s
  | .notifyComplete q => Sys2Proof.Machine.execNotifyComplete q s
  | .mapDrainComplete => Sys2Proof.Machine.execMapDrainComplete s
  | .transferPacket src recv => Sys2Proof.Machine.execTransferPacket src recv s
  | .shareRefill => Sys2Proof.Machine.execShareRefill s
  | .ptsTick isCore => Sys2Proof.Machine.execPtsTick isCore s
  | .turnGrant => Sys2Proof.Machine.execTurnGrant s
  | .turnTimeLimit => Sys2Proof.Machine.execTurnTimeLimit s
  | .turnEndBudget => Sys2Proof.Machine.execTurnEndBudget s
  | .matrixCommandComplete => Sys2Proof.Machine.execMatrixCommandComplete s
  | .rakeStart => Sys2Proof.Machine.execRakeStart s
  | .rakeOutputPerformed => Sys2Proof.Machine.execRakeOutputPerformed s
  | .rakeStall => Sys2Proof.Machine.execRakeStall s
  | .mnotifyComplete => Sys2Proof.Machine.execMnotifyComplete s
  | .chainRecordComplete => Sys2Proof.Machine.execChainRecordComplete s
  | .resumeEngine g => Sys2Proof.Machine.execResumeEngine g s
  | .terminate => Sys2Proof.Machine.execTerminate s
  | .resumeQueue q => Sys2Proof.Machine.execResumeQueue q s
  | .failQueueCommand q => Sys2Proof.Machine.execFailQueueCommand q s
  | .resumeRake => Sys2Proof.Machine.execResumeRake s
  | .failRakeSlot => Sys2Proof.Machine.execFailRakeSlot s
  | .vfTeardown => Sys2Proof.Machine.execVfTeardown s
  | .teardownTimeout => Sys2Proof.Machine.execTeardownTimeout s
  | .lcapWrite v => Sys2Proof.Machine.execLcapWrite v s
  | .swayStageSet w v => Sys2Proof.Machine.execSwayStageSet w v s
  | .swayStageClear w v => Sys2Proof.Machine.execSwayStageClear w v s
  | .frameassign vf => Sys2Proof.Machine.execFrameassign vf s
  | .framerelease => Sys2Proof.Machine.execFramerelease s
  | .scrubComplete => Sys2Proof.Machine.execScrubComplete s
  | .flitReceive q peer f bad => Sys2Proof.Machine.execFlitReceive q peer f bad s
  | .laneWindowEnd q peer errs => Sys2Proof.Machine.execLaneWindowEnd q peer errs s
  | .leaveRequest q peer => Sys2Proof.Machine.execLeaveRequest q peer s
  | .returnRequest q peer => Sys2Proof.Machine.execReturnRequest q peer s
  | .laneTrialWindow q peer errs => Sys2Proof.Machine.execLaneTrialWindow q peer errs s
  | .laneLossOfLock q peer => Sys2Proof.Machine.execLaneLossOfLock q peer s
  | .laneRetry q peer => Sys2Proof.Machine.execLaneRetry q peer s
  | .peerLost => Sys2Proof.Machine.execPeerLost s
  | .rldRequest => Sys2Proof.Machine.execRldRequest s
  | .rldReply => Sys2Proof.Machine.execRldReply s
  | .rstArrival => Sys2Proof.Machine.execRstArrival s
  | .rstfArrival => Sys2Proof.Machine.execRstfArrival s
  | .ramoRequest => Sys2Proof.Machine.execRamoRequest s
  | .ramoReply => Sys2Proof.Machine.execRamoReply s
  | .sack => Sys2Proof.Machine.execSack s
  | .flush => Sys2Proof.Machine.execFlush s
  | .fail => Sys2Proof.Machine.execFail s
  | .relayedRequest => Sys2Proof.Machine.execRelayedRequest s
  | .ownerset => Sys2Proof.Machine.execOwnerset s
  | .migack => Sys2Proof.Machine.execMigack s
  | .redirect => Sys2Proof.Machine.execRedirect s
  | .redirectApply => Sys2Proof.Machine.execRedirectApply s
  | .reresolve => Sys2Proof.Machine.execReresolve s
  | .pagedata => Sys2Proof.Machine.execPagedata s
  | .performed => Sys2Proof.Machine.execPerformed s
  | .close => Sys2Proof.Machine.execClose s
  | .abort => Sys2Proof.Machine.execAbort s
  | .stubLifetimeExpiry => Sys2Proof.Machine.execStubLifetimeExpiry s
  | .demote pa => Sys2Proof.Machine.execDemote pa s
  | .demoteComplete => Sys2Proof.Machine.execDemoteComplete s
  | .move pa => Sys2Proof.Machine.execMove pa s
  | .retire pa => Sys2Proof.Machine.execRetire pa s
  | .thaw pa => Sys2Proof.Machine.execThaw pa s
  | .promotionComplete => Sys2Proof.Machine.execPromotionComplete s
  | .dbgStop => Sys2Proof.Machine.execDbgStop s
  | .dbgResume load => Sys2Proof.Machine.execDbgResume load s
  | .dbgStep load => Sys2Proof.Machine.execDbgStep load s
  | .debugStepEnd => Sys2Proof.Machine.execDebugStepEnd s
  | .breakpointHit => Sys2Proof.Machine.execBreakpointHit s
  | .debugImageWritten => Sys2Proof.Machine.execDebugImageWritten s
  | .psessWrite v => Sys2Proof.Machine.execPsessWrite v s
  | .networkArrival dst bytes => Sys2Proof.Machine.execNetworkArrival dst bytes s
  | .storageCompletion src status => Sys2Proof.Machine.execStorageCompletion src status s
  | .interruptTaken cause num => Sys2Proof.Machine.execInterruptTaken cause num s
  | .extend => Sys2Proof.Machine.execExtend s
  | .attest => Sys2Proof.Machine.execAttest s
  | .mailboxCommandDone => Sys2Proof.Machine.execMailboxCommandDone s
  | .registerWrite pa v => Sys2Proof.Machine.execRegisterWrite pa v s
  | .br o => Sys2Proof.Machine.execBr o s
  | .brc e c r f => Sys2Proof.Machine.execBrc e c r f s
  | .loop e r o => Sys2Proof.Machine.execLoop e r o s
  | .loopr e r o => Sys2Proof.Machine.execLoopr e r o s
  | .call o => Sys2Proof.Machine.execCall o s
  | .ret => Sys2Proof.Machine.execRet s
  | .rgn => Sys2Proof.Machine.execRgn s
  | .tok f t n => Sys2Proof.Machine.execTok f t n s
  | .endw => Sys2Proof.Machine.execEndw s
  | .brx e r => Sys2Proof.Machine.execBrx e r s
  | .nop => Sys2Proof.Machine.execNop s
  | .add d a b => Sys2Proof.Machine.execAdd d a b s
  | .sub d a b => Sys2Proof.Machine.execSub d a b s
  | .mul d a b => Sys2Proof.Machine.execMul d a b s
  | .mulh d a b => Sys2Proof.Machine.execMulh d a b s
  | .mulhu d a b => Sys2Proof.Machine.execMulhu d a b s
  | .div d a b => Sys2Proof.Machine.execDiv d a b s
  | .divu d a b => Sys2Proof.Machine.execDivu d a b s
  | .rem d a b => Sys2Proof.Machine.execRem d a b s
  | .remu d a b => Sys2Proof.Machine.execRemu d a b s
  | .and d a b => Sys2Proof.Machine.execAnd d a b s
  | .or d a b => Sys2Proof.Machine.execOr d a b s
  | .xor d a b => Sys2Proof.Machine.execXor d a b s
  | .andn d a b => Sys2Proof.Machine.execAndn d a b s
  | .shl d a b => Sys2Proof.Machine.execShl d a b s
  | .shr d a b => Sys2Proof.Machine.execShr d a b s
  | .sar d a b => Sys2Proof.Machine.execSar d a b s
  | .rol d a b => Sys2Proof.Machine.execRol d a b s
  | .min d a b => Sys2Proof.Machine.execMin d a b s
  | .max d a b => Sys2Proof.Machine.execMax d a b s
  | .minu d a b => Sys2Proof.Machine.execMinu d a b s
  | .maxu d a b => Sys2Proof.Machine.execMaxu d a b s
  | .slt d a b => Sys2Proof.Machine.execSlt d a b s
  | .sltu d a b => Sys2Proof.Machine.execSltu d a b s
  | .seq d a b => Sys2Proof.Machine.execSeq d a b s
  | .sne d a b => Sys2Proof.Machine.execSne d a b s
  | .clz d a => Sys2Proof.Machine.execClz d a s
  | .ctz d a => Sys2Proof.Machine.execCtz d a s
  | .popc d a => Sys2Proof.Machine.execPopc d a s
  | .sel d a b c => Sys2Proof.Machine.execSel d a b c s
  | .addi d a im => Sys2Proof.Machine.execAddi d a im s
  | .andi d a im => Sys2Proof.Machine.execAndi d a im s
  | .ori d a im => Sys2Proof.Machine.execOri d a im s
  | .xori d a im => Sys2Proof.Machine.execXori d a im s
  | .shli d a sr => Sys2Proof.Machine.execShli d a sr s
  | .shri d a sr => Sys2Proof.Machine.execShri d a sr s
  | .sari d a sr => Sys2Proof.Machine.execSari d a sr s
  | .slti d a im => Sys2Proof.Machine.execSlti d a im s
  | .lui d im => Sys2Proof.Machine.execLui d im s
  | .fadd d a b => Sys2Proof.Machine.execFadd d a b s
  | .fsub d a b => Sys2Proof.Machine.execFsub d a b s
  | .fmul d a b => Sys2Proof.Machine.execFmul d a b s
  | .ffma d a b => Sys2Proof.Machine.execFfma d a b s
  | .fmin d a b => Sys2Proof.Machine.execFmin d a b s
  | .fmax d a b => Sys2Proof.Machine.execFmax d a b s
  | .fcmp d a b r => Sys2Proof.Machine.execFcmp d a b r s
  | .fcvtToInt d a => Sys2Proof.Machine.execFcvtToInt d a s
  | .fcvtToFp d a => Sys2Proof.Machine.execFcvtToFp d a s
  | .pop d q => Sys2Proof.Machine.execPop d q s
  | .push q a => Sys2Proof.Machine.execPush q a s
  | .qstat d q => Sys2Proof.Machine.execQstat d q s
  | .evpop d => Sys2Proof.Machine.execEvpop d s
  | .evpeek d => Sys2Proof.Machine.execEvpeek d s
  | .evcnt d => Sys2Proof.Machine.execEvcnt d s
  | .launch d a => Sys2Proof.Machine.execLaunch d a s
  | .csrr d c => Sys2Proof.Machine.execCsrr d c s
  | .csrw a c => Sys2Proof.Machine.execCsrw a c s
  | .csrs d a c => Sys2Proof.Machine.execCsrs d a c s
  | .csrc d a c => Sys2Proof.Machine.execCsrc d a c s
  | .trap c => Sys2Proof.Machine.execTrap c s
  | .eret => Sys2Proof.Machine.execEret s
  | .wfe => Sys2Proof.Machine.execWfe s
  | .anop => Sys2Proof.Machine.execAnop s
  | .aadd d a b => Sys2Proof.Machine.execAadd d a b s
  | .asub d a b => Sys2Proof.Machine.execAsub d a b s
  | .amul d a b => Sys2Proof.Machine.execAmul d a b s
  | .ashl d a b => Sys2Proof.Machine.execAshl d a b s
  | .ashr d a b => Sys2Proof.Machine.execAshr d a b s
  | .aand d a b => Sys2Proof.Machine.execAand d a b s
  | .amin d a b => Sys2Proof.Machine.execAmin d a b s
  | .amax d a b => Sys2Proof.Machine.execAmax d a b s
  | .aslt d a b => Sys2Proof.Machine.execAslt d a b s
  | .aaddi d a im => Sys2Proof.Machine.execAaddi d a im s
  | .alui d im => Sys2Proof.Machine.execAlui d im s
  | .aandi d a im => Sys2Proof.Machine.execAandi d a im s
  | .ashli d a sr => Sys2Proof.Machine.execAshli d a sr s
  | .ld d b z u o => Sys2Proof.Machine.execLd d b z u o s
  | .ldq q b z u o => Sys2Proof.Machine.execLdq q b z u o s
  | .ldv q a n => Sys2Proof.Machine.execLdv q a n s
  | .st sr b z o => Sys2Proof.Machine.execSt sr b z o s
  | .stq q b z o => Sys2Proof.Machine.execStq q b z o s
  | .stv q a n => Sys2Proof.Machine.execStv q a n s
  | .pref l b z o => Sys2Proof.Machine.execPref l b z o s
  | .amoadd d a b w => Sys2Proof.Machine.execAmoadd d a b w s
  | .amoswap d a b w => Sys2Proof.Machine.execAmoswap d a b w s
  | .amocas d a b w => Sys2Proof.Machine.execAmocas d a b w s
  | .amologic d a b w o => Sys2Proof.Machine.execAmologic d a b w o s
  | .amominmax d a b w o => Sys2Proof.Machine.execAmominmax d a b w o s
  | .amofadd d a b => Sys2Proof.Machine.execAmofadd d a b s
  | .flagwait a b => Sys2Proof.Machine.execFlagwait a b s
  | .flaginc a b => Sys2Proof.Machine.execFlaginc a b s
  | .flagset a b => Sys2Proof.Machine.execFlagset a b s
  | .flagread d a => Sys2Proof.Machine.execFlagread d a s
  | .bararm a b => Sys2Proof.Machine.execBararm a b s
  | .barwait a => Sys2Proof.Machine.execBarwait a s
  | .copy a b k q => Sys2Proof.Machine.execCopy a b k q s
  | .copy2d a b k q => Sys2Proof.Machine.execCopy2d a b k q s
  | .gather a b k q => Sys2Proof.Machine.execGather a b k q s
  | .scatter a b k q => Sys2Proof.Machine.execScatter a b k q s
  | .xfer a b k q => Sys2Proof.Machine.execXfer a b k q s
  | .xferm a b k q => Sys2Proof.Machine.execXferm a b k q s
  | .notify a k q => Sys2Proof.Machine.execNotify a k q s
  | .mapinst a b => Sys2Proof.Machine.execMapinst a b s
  | .mapswap a b => Sys2Proof.Machine.execMapswap a b s
  | .mapret b => Sys2Proof.Machine.execMapret b s
  | .mapq d b => Sys2Proof.Machine.execMapq d b s
  | .fencex m n => Sys2Proof.Machine.execFencex m n s
  | .mark d m => Sys2Proof.Machine.execMark d m s
  | .join a n => Sys2Proof.Machine.execJoin a n s
  | .rld a b sr => Sys2Proof.Machine.execRld a b sr s
  | .rst a b f sr => Sys2Proof.Machine.execRst a b f sr s
  | .rstf a b o f sr => Sys2Proof.Machine.execRstf a b o f sr s
  | .ramo a b f sr => Sys2Proof.Machine.execRamo a b f sr s
  | .tidset a t => Sys2Proof.Machine.execTidset a t s
  | .tidinv t => Sys2Proof.Machine.execTidinv t s
  | .tidget a t => Sys2Proof.Machine.execTidget a t s
  | .tlbinv a sr => Sys2Proof.Machine.execTlbinv a sr s
  | .asidset a => Sys2Proof.Machine.execAsidset a s
  | .vaddF d a b m => Sys2Proof.Machine.execVaddF d a b m s
  | .vsubF d a b m => Sys2Proof.Machine.execVsubF d a b m s
  | .vmulF d a b m => Sys2Proof.Machine.execVmulF d a b m s
  | .vfmaF d a b m => Sys2Proof.Machine.execVfmaF d a b m s
  | .vfmsF d a b m => Sys2Proof.Machine.execVfmsF d a b m s
  | .vminF d a b m => Sys2Proof.Machine.execVminF d a b m s
  | .vmaxF d a b m => Sys2Proof.Machine.execVmaxF d a b m s
  | .vabsF d a m => Sys2Proof.Machine.execVabsF d a m s
  | .vnegF d a m => Sys2Proof.Machine.execVnegF d a m s
  | .vcmpF r k a b m => Sys2Proof.Machine.execVcmpF r k a b m s
  | .vaddB d a b m => Sys2Proof.Machine.execVaddB d a b m s
  | .vsubB d a b m => Sys2Proof.Machine.execVsubB d a b m s
  | .vmulB d a b m => Sys2Proof.Machine.execVmulB d a b m s
  | .vfmaB d a b m => Sys2Proof.Machine.execVfmaB d a b m s
  | .vfmsB d a b m => Sys2Proof.Machine.execVfmsB d a b m s
  | .vminB d a b m => Sys2Proof.Machine.execVminB d a b m s
  | .vmaxB d a b m => Sys2Proof.Machine.execVmaxB d a b m s
  | .vaddI d a b m => Sys2Proof.Machine.execVaddI d a b m s
  | .vsubI d a b m => Sys2Proof.Machine.execVsubI d a b m s
  | .vmulI d a b m => Sys2Proof.Machine.execVmulI d a b m s
  | .vminI d a b m => Sys2Proof.Machine.execVminI d a b m s
  | .vmaxI d a b m => Sys2Proof.Machine.execVmaxI d a b m s
  | .vand d a b m => Sys2Proof.Machine.execVand d a b m s
  | .vor d a b m => Sys2Proof.Machine.execVor d a b m s
  | .vxor d a b m => Sys2Proof.Machine.execVxor d a b m s
  | .vshl d a b m => Sys2Proof.Machine.execVshl d a b m s
  | .vshr d a b m => Sys2Proof.Machine.execVshr d a b m s
  | .vsar d a b m => Sys2Proof.Machine.execVsar d a b m s
  | .vcmpI r k a b m => Sys2Proof.Machine.execVcmpI r k a b m s
  | .vrcp d a m => Sys2Proof.Machine.execVrcp d a m s
  | .vrsqrt d a m => Sys2Proof.Machine.execVrsqrt d a m s
  | .vexp2 d a m => Sys2Proof.Machine.execVexp2 d a m s
  | .vlog2 d a m => Sys2Proof.Machine.execVlog2 d a m s
  | .vtanh d a m => Sys2Proof.Machine.execVtanh d a m s
  | .vredsum d a t x m => Sys2Proof.Machine.execVredsum d a t x m s
  | .vredmax d a t x m => Sys2Proof.Machine.execVredmax d a t x m s
  | .vmov d a m => Sys2Proof.Machine.execVmov d a m s
  | .vbcast d q => Sys2Proof.Machine.execVbcast d q s
  | .vtrans d a => Sys2Proof.Machine.execVtrans d a s
  | .vsel d a b => Sys2Proof.Machine.execVsel d a b s
  | .vshift d a x f n => Sys2Proof.Machine.execVshift d a x f n s
  | .viota d im => Sys2Proof.Machine.execViota d im s
  | .vpop d q c => Sys2Proof.Machine.execVpop d q c s
  | .vpush sr q c => Sys2Proof.Machine.execVpush sr q c s
  | .vpushx sr q => Sys2Proof.Machine.execVpushx sr q s
  | .vunpE4 d a p => Sys2Proof.Machine.execVunpE4 d a p s
  | .vunpE5 d a p => Sys2Proof.Machine.execVunpE5 d a p s
  | .vunpI8 d a p => Sys2Proof.Machine.execVunpI8 d a p s
  | .vunpH d a p => Sys2Proof.Machine.execVunpH d a p s
  | .vunpQ4 d a sr p => Sys2Proof.Machine.execVunpQ4 d a sr p s
  | .vpackE4 d a t r p => Sys2Proof.Machine.execVpackE4 d a t r p s
  | .vpackE5 d a t r p => Sys2Proof.Machine.execVpackE5 d a t r p s
  | .vpackI8 d a t r p => Sys2Proof.Machine.execVpackI8 d a t r p s
  | .vpackH d a t r p => Sys2Proof.Machine.execVpackH d a t r p s
  | .vpackB d a t r p => Sys2Proof.Machine.execVpackB d a t r p s
  | .vcvtFi d a => Sys2Proof.Machine.execVcvtFi d a s
  | .vcvtIf d a => Sys2Proof.Machine.execVcvtIf d a s
  | .vshape r c => Sys2Proof.Machine.execVshape r c s
  | .vcur r c g => Sys2Proof.Machine.execVcur r c g s
  | .vrbset n => Sys2Proof.Machine.execVrbset n s
  | .vpark sr => Sys2Proof.Machine.execVpark sr s
  | .vunpark d => Sys2Proof.Machine.execVunpark d s
  | .kand d a b => Sys2Proof.Machine.execKand d a b s
  | .kor d a b => Sys2Proof.Machine.execKor d a b s
  | .knot d a => Sys2Proof.Machine.execKnot d a s
  | .kmov d a => Sys2Proof.Machine.execKmov d a s
  | .kcnt a => Sys2Proof.Machine.execKcnt a s
  | .lease n => Sys2Proof.Machine.execLease n s
  | .lrel => Sys2Proof.Machine.execLrel s
  | .mset c f v => Sys2Proof.Machine.execMset c f v s
  | .maddc c f v => Sys2Proof.Machine.execMaddc c f v s
  | .mpopc c => Sys2Proof.Machine.execMpopc c s
  | .mpush c => Sys2Proof.Machine.execMpush c s
  | .mshape f v => Sys2Proof.Machine.execMshape f v s
  | .mma x y c m => Sys2Proof.Machine.execMma x y c m s
  | .mmas x y c m => Sys2Proof.Machine.execMmas x y c m s
  | .rclose c => Sys2Proof.Machine.execRclose c s
  | .rdrop => Sys2Proof.Machine.execRdrop s
  | .rwaitFree => Sys2Proof.Machine.execRwaitFree s
  | .rwaitSlot sr => Sys2Proof.Machine.execRwaitSlot sr s
  | .cbound r => Sys2Proof.Machine.execCbound r s
  | .cord c => Sys2Proof.Machine.execCord c s
  | .cstep => Sys2Proof.Machine.execCstep s
  | .chain n => Sys2Proof.Machine.execChain n s
  | .bdset k v => Sys2Proof.Machine.execBdset k v s
  | .cinit x c => Sys2Proof.Machine.execCinit x c s
  | .cemit => Sys2Proof.Machine.execCemit s
  | .mnotify => Sys2Proof.Machine.execMnotify s
  | .systemCoreInstruction op => Sys2Proof.Machine.execSystemCoreInstruction op s
  | .reservedWord w k => Sys2Proof.Machine.execReservedWord w k s
  | .extWord imm => Sys2Proof.Machine.execExtWord imm s
  | .stageChangeComplete w => Sys2Proof.Machine.execStageChangeComplete w s
  | .powerDown => Sys2Proof.Machine.execPowerDown s

end Sys2Proof.Machine
end

