-- ==== Sys2Proof/Machine/Later.lean ====
section
/-! DEFINITION. What waits goes on (R340, R344): at the start of every step hardware tries again what met a page that was promoted or
frozen, matched elements are performed, ordered flags whose counts are met are, the links send on, and FLAGWAITs whose flags suffice complete. -/

namespace Sys2Proof.Machine

/-- A packet that no path could take (R284): it goes when one can; once its peer is lost, or listed no more, the access it belongs to fails
(R160), and any other packet is discarded. -/
def sendAgain (env : Env) (t : Nat) (dest : BitVec 6) (p : Packet) (op : Nat) (d : Dev) : Dev :=
  if reachable env d dest.toNat && !d.peersLost.getLsbD dest.toNat then sendFree env d t dest p op else
  match p with
  | .xfer _ _ _ => d
  | .remote _ h _ =>
    if h.sdev != env.caps.devid || !([1, 3, 4, 5].contains op) then d else
    match entryOf d h.ddev h (op == 1) with
    | some (i, e) =>
      if e.reissued then failResend env h.stile.toNat h.stream.toNat i e d
      else failEntry env h.stile.toNat h.stream.toNat i e 0x25 e.va d
    | none => d

/-- An update of hardware's own that waits is tried again (R340, R344, R384). A matched element's turn comes when it comes (DESIGN CHOICE,
safe: log entry 77); the image of an iteration that has been resumed or has ended takes nothing more. -/
def tryLater (env : Env) (x : Later) (d : Dev) : Dev :=
  match x with
  | .flag w va ts inc setter lost => hwFlag env d w va ts inc setter lost
  | .record vf fq b => settle env d x (fun _ _ => d) (tryRecord env d vf fq b)
  | .prof w buf b => profWrite env d w buf b
  | .image t serial w va b => if ((d.tile t).savedOf serial).isSome then imageWrite env d t serial w va b else d
  | .state vf va st => setNodeState env d vf va st
  | .release v va => releaseNode v va env d
  | .ringPa vf agent pa b => ringAddPa env vf agent pa b d
  | .land e => if Config.landLater env.tick d.later.length || landBehind d e then d.defer x else landNow env e d
  | .load step t => dbgGo step true t env d
  | .dirEnd vf page => dirRemove env vf page d
  | .send t dest p op => sendAgain env t dest p op d

/-- Everything that waits is tried, oldest first. -/
def tryAll (env : Env) (d : Dev) : Dev := d.later.foldl (fun d x => tryLater env x d) { d with later := [] }

/-- The homes of flags test the FLAGWAITs that wait there, in the order of their arrival (R141): what the last step has updated satisfies
them before anything else happens. -/
def wakeAll (env : Env) (d : Dev) : Dev :=
  d.waiters.foldl (fun d w => flagSatisfied { env with unit := w.tile, eng := .a } d) d

/-- The rakes of the clusters go on (R308). -/
def rakesOn (env : Env) (d : Dev) : Dev := (d.clusters.entries.map (·.1)).foldl (rakeDrift env) d

/-- What goes on by itself at the start of a step. -/
def drive (env : Env) (d : Dev) : Dev := wakeAll env (pumpAll env (countedOut env (tryAll env (rakesOn env (outside env d)))))

end Sys2Proof.Machine
end

