-- ==== Sys2Proof/Machine/Run.lean ====
section
/-! DEFINITION. The parts of a step: the turn that comes next, the passing of time, what an engine does at its turn, and the
placing of a program of one word. -/

namespace Sys2Proof.Machine

/-- Whether an instruction is a step of another agent and no word of program text. -/
def isEvent (i : Instr) : Bool := (encode i).isNone

/-- The turn that comes next, and the schedule after it. (DESIGN CHOICE, safe: log entry 1) -/
def nextTurn (s : State) : Turn × List Turn :=
  match s.sched with
  | [] => (Config.schedule s.env.tick, [])
  | t :: r => (t, r)

/-- The state at the start of a turn: the unit and the engine are named and the index of free values moves on. -/
def beginTurn (s : State) (unit : Nat) (e : Eng) (rest : List Turn) : State :=
  { s with env := { s.env with unit := unit, eng := e, tick := s.env.tick + 1 }, sched := rest }

/-- What an engine that may walk does with what its fetch gives (R61). -/
def runFetched (s : State) (t : Nat) (e : Eng) (pc : Dword) (hand : Bool) : Host.Outcome State Fault Refusal :=
  match fetchAt s.env s.dev t e pc with
  | .ok w d => exec (decodeTotal w) { s with dev := d }
  | .wait w d => .next { s with dev := setWait d ⟨t, e, pc, hand⟩ w }
  | .sys c va => .next { s with dev := haltEngine s.env s.dev (whoEng s.dev t e) t e pc 0 c va }
  | .trap _ _ _ _ _ => .next s
  | .roll _ => .next s

/-- A turn of an engine. (DEDUCED, safe: log entry 65) -/
def engineTurn (s : State) (t : Nat) (e : Eng) : Host.Outcome State Fault Refusal :=
  match ready s.dev t e with
  | .go pc hand => runFetched s t e pc hand
  | .slip => .next { s with dev := setWait s.dev ⟨t, e, 0, false⟩ { code := 4 } }
  | .hold => .next { s with dev := setWait s.dev ⟨t, e, 0, false⟩ { code := 2, detail := 1 } }
  | .no => .next s

/-- What an engine would wait for, were it to try its word now: on a copy of the machine; none for one that would do something, or that
may not walk. -/
def triedWait (s : State) (t : Nat) (e : Eng) : Option Wait :=
  let g := (s.dev.tile t).core.engine e
  if ready s.dev t e == .no then none else
  match engineTurn { s with env := { s.env with eng := e } } t e with
  | .next s1 =>
    let h := (s1.dev.tile t).core.engine e
    if !h.halted && !h.stopped && h.walk == g.walk then h.wait else none
  | .fault _ => none
  | .refused _ => none

/-- The iteration of a tile with every engine waiting for what it would wait for now (R75, R76): one that has not stopped. -/
def triedCore (s : State) (t : Nat) : TCore :=
  let c := (s.dev.tile t).core
  Eng.all.foldl (fun y e => y.onEng e fun g => if g.stopped then g else { g with wait := triedWait s t e }) c

/-- Time passes on a tile after a turn of one of its engines (R4, R127, R300): n cycles, which its watchdog counts where every engine is in a
counted state, as its own last try has left it and as a try now finds it (R75). None pass under a debug stop (R361), nor
here under a STEP, whose one cycle passes at its end (R360). (DESIGN CHOICE, safe: log entry 11) -/
def passTime (t : Nat) (s : State) : State :=
  let g := (s.dev.tile t).dbg
  if g.inStop || g.step.isSome then s else
  let n := Config.turnCycles s.env.tick
  if (s.dev.tile t).core.stalls then
    let c := triedCore s t
    if c.stalls then s.onDev fun env d => spend env t n true (d.onCore t fun _ => c) else s.onDev fun env d => spend env t n false d
  else s.onDev fun env d => spend env t n false d

/-- What a turn of an engine ends in: M is let go where it may be (R335), and time passes. -/
def afterTurn (t : Nat) (r : Host.Outcome State Fault Refusal) : Host.Outcome State Fault Refusal :=
  match r with
  | .next s => .next (passTime t (s.onDev fun _ d => freeM t d))
  | .fault f => .fault f
  | .refused r => .refused r

/-- The engine that acts on a word: its owner, or the decider of a decided C word, or X. -/
def actor (w : Word) : Eng :=
  match (w.extractLsb' 29 3).toNat with
  | 0 => .x
  | 1 => .a
  | 2 => .v
  | 3 => .m
  | 4 => if [1, 2, 3, 9].contains (w.extractLsb' 24 5).toNat then Eng.ofBits (w.extractLsb' 22 2) else .x
  | _ => .x

/-- What places a program of one word: the page tables and the text page of ASID 0, and the word at their text. -/
def placeWord (w : Nat) (m : List Host.Cell) : List Host.Cell :=
  Memory.write 0x40000 (natLe 8 w) (Memory.write 0x30008 (natLe 8 0x40039) (Memory.write 0x20000 (natLe 8 0x30001)
    (Memory.write 0x10000 (natLe 8 0x20001) (Memory.write 0 (natLe 8 0x10001) m))))

/-- Whether a line lies in the frames of `placeWord`. -/
def textLine (l : Nat) : Bool := decide (l < 5 * 512)

/-- Frames 0 to 4 belong to VF 0 and hold nothing of another: no cached line, error or freeze. -/
def clearText (d : Dev) : Dev :=
  { dropLines textLine d with
    later := []
    poison := d.poison.filter fun l => !textLine l
    bad := d.bad.filter fun l => !textLine l
    frames := (List.range 5).foldl (fun m f => m.set f { vf := 0, owned := true, scrub := false }) d.frames
    mig := { d.mig with freezes := d.mig.freezes.filter fun z => decide (5 ≤ z.frame) && !(z.vf == 0 && z.page == 0x10000) } }

/-- A tile on which an iteration of VF 0 starts at the text of `placeWord`. -/
def startTile (y : Tile) : Tile :=
  { y with
    running := true, saving := false, tag := some 0, dbg := {}, icache := []
    core := { y.core with
      asids := [], asidDue := []
      eng := Vector.replicate 4 { pc := 0x10000 }
      trap := {}
      csr := { y.core.csr with win := 4096, asid := 0, vfid := 0 } } }

end Sys2Proof.Machine
end

