-- ==== Sys2Proof/Machine/Step.lean ====
section
/-! DEFINITION. One step: the schedule names whose move is next (DESIGN CHOICE, safe: log entry 1). An engine fetches the word at its PC and runs it;
a step of another agent happens at its unit. -/

namespace Sys2Proof.Machine

/-- One step: what waits goes on, then the turn is taken. -/
def step (s : State) : Host.Outcome State Fault Refusal :=
  match nextTurn s with
  | (.engine t e, rest) =>
    if tileOk t then afterTurn t (engineTurn ((beginTurn s t e rest).onDev drive) t e) else .fault .noSuchUnit
  | (.event u i, rest) =>
    if isEvent i && i.unitOk u && i.wf then
      if served i s.dev then exec i ((beginTurn s u s.env.eng rest).onDev drive) else .next (beginTurn s u s.env.eng rest)
    else .fault .noSuchUnit

/-- The state with one instruction stored where the next step fetches, on tile 0, and that step's turn next (DESIGN CHOICE, unsafe: log entry 18). -/
def State.withFetchWord (s : State) (nbits w : Nat) : State :=
  let x := w % 2 ^ nbits
  { s with
    sched := .engine 0 (actor (BitVec.ofNat 32 x)) :: s.sched
    dev := { clearText s.dev with
      powered := true
      mgmt := { s.dev.mgmt with bootstat := 1, ready := true }
      asidtab := 0
      tlb := []
      mem := placeWord x s.dev.mem
      tiles := s.dev.tiles.set 0 (startTile (s.dev.tile 0)) } }

end Sys2Proof.Machine
end

