-- ==== Sys2Proof/Safety.lean ====
section
/-! DEFINITION. What counts as a safe run, and the terms claims use. -/

namespace Sys2Proof.Safety

open Sys2Proof.Machine

/-- What every step keeps: memory is in its canonical form, and the fused capabilities are those named (R373). -/
def Inv (caps : Caps) (s : State) : Prop := Memory.wf s.dev.mem = true ∧ s.env.caps = caps

/-- A step does not end the machine. -/
def Goes (s : State) : Prop := ∃ t, step s = .next t

/-- Engine e of the tile that the state names is about to walk the word at an address (R57, R62); `hand`: X walks a user-trap
handler (R114). -/
def Stands (s : State) (e : Eng) (pc : Dword) (hand : Bool) : Prop :=
  s.env.eng = e ∧ ready s.dev s.env.unit e = .go pc hand

/-- The tile the state names. -/
def unitTile (s : State) : Tile := s.dev.tile s.env.unit

/-- What belongs to the iteration of the tile the state names. -/
def iter (s : State) : TCore := (unitTile s).core

/-- On whose behalf the words of that tile make accesses. -/
def who (s : State) : Who := whoTile s.dev s.env.unit

/-- The state with a new device. -/
def withDev (s : State) (d : Dev) : State := { s with dev := d }

/-- The state after an engine has walked the word at pc: a device d that the word's effect leaves, in which the engine goes on at
`next`. `prev` is what kind of word it was, for an EXT word behind it (R59). -/
def walked (s : State) (pc : Dword) (d : Dev) (e : Eng) (hand : Bool) (next : Dword) (prev : Prev) : State :=
  withDev s (walkTo d ⟨s.env.unit, e, pc, hand⟩ next prev)

/-- The state after a word of one engine whose whole effect is a change to what belongs to the iteration. -/
def after (s : State) (e : Eng) (pc : Dword) (hand : Bool) (f : TCore → TCore) : State :=
  walked s pc (s.dev.onCore s.env.unit f) e hand (pc + 4) (.other e)

/-- An access of the tile's words to a virtual address reaches a place, of a cache class; d is the device with the translation
kept (R236). -/
def Reaches (s : State) (k : AccKind) (va : Dword) (loc : Loc) (cls : BitVec 4) (d : Dev) : Prop :=
  locate s.env s.dev (who s) k va = .ok (loc, cls) d

/-- A load from a place is served by its home: no copy of the line stands in L1, and under gating a token is left (R237, R269). -/
def FromHome (s : State) (loc : Loc) : Prop :=
  (∀ pa, loc = .hbm pa → (unitTile s).l1Find (pa / 128) = none) ∧ payToken s.dev s.env.unit loc ≠ none

/-- Nothing but the iteration and the event counters of the tile the state names differs between two devices. -/
def OnlyIter (s t : State) : Prop :=
  t.env = s.env ∧ t.sched = s.sched ∧
  t.dev = { s.dev with tiles := t.dev.tiles, vfs := t.dev.vfs } ∧
  (∀ u, u ≠ s.env.unit → t.dev.tile u = s.dev.tile u) ∧
  unitTile t = { unitTile s with core := iter t, dbg := (unitTile t).dbg }

/-- The engine that walked goes on at an address with its walk count one higher and waits no more; the other three stand as
before. In a handler it is the handler's PC that moves (R57, R114). -/
def Advanced (s t : State) (e : Eng) (hand : Bool) (next : Dword) : Prop :=
  if hand then
    (iter t).eng = (iter s).eng ∧ ∃ h, (iter s).trap.hand = some h ∧ ∃ g, (iter t).trap.hand = some g ∧ g.pc = next ∧ g.ret = h.ret
  else
    ((iter t).engine e).pc = next ∧ ((iter t).engine e).walk = ((iter s).engine e).walk + 1 ∧ ((iter t).engine e).wait = none ∧
    ∀ g, g ≠ e → (iter t).engine g = (iter s).engine g

/-- Bytes of memory outside a range read as before. -/
def OutsideSame (s t : State) (k n : Nat) : Prop :=
  ∀ a, a < k ∨ k + n ≤ a → Memory.get a t.dev.mem = Memory.get a s.dev.mem

/-- Every byte of memory reads as before. -/
def MemSame (s t : State) : Prop := ∀ a, Memory.get a t.dev.mem = Memory.get a s.dev.mem

end Sys2Proof.Safety
end

