-- ==== Sys2Proof/Certificates/Slice0/Obligations.lean ====
section
/-! DEFINITION. The statements for the provers. -/

section

open Sys2Proof Sys2Proof.Machine Sys2Proof.Safety

/-- The device as an engine finds it when it walks a word: V counts an issue cycle of its pending results first (R175). -/
def Sys2Proof.Claims.found (s : State) (e : Eng) (hand : Bool) : Dev :=
  if e = .v && !hand then s.dev.onCore s.env.unit issueTick else s.dev

/-! ### The words of X -/

/-- What the register forms of X compute (R115 to R117): the register written and its value. Bitwise and shift forms are in
integer arithmetic where the table of R115 gives them so. -/
def Sys2Proof.Claims.intResult (i : Instr) (c : TCore) : Option (BitVec 5 × Dword) :=
  match i with
  | .nop => some (0, 0)
  | .add d a b => some (d, BitVec.ofInt 64 ((c.s a).toInt + (c.s b).toInt))
  | .sub d a b => some (d, BitVec.ofInt 64 ((c.s a).toInt - (c.s b).toInt))
  | .mul d a b => some (d, BitVec.ofInt 64 ((c.s a).toInt * (c.s b).toInt))
  | .mulh d a b => some (d, BitVec.ofInt 64 ((c.s a).toInt * (c.s b).toInt / 2 ^ 64))
  | .mulhu d a b => some (d, BitVec.ofNat 64 ((c.s a).toNat * (c.s b).toNat / 2 ^ 64))
  | .div d a b => some (d, if c.s b = 0 then BitVec.ofInt 64 (-1) else BitVec.ofInt 64 ((c.s a).toInt.tdiv (c.s b).toInt))
  | .divu d a b => some (d, if c.s b = 0 then BitVec.ofInt 64 (-1) else BitVec.ofNat 64 ((c.s a).toNat / (c.s b).toNat))
  | .rem d a b => some (d, if c.s b = 0 then c.s a else BitVec.ofInt 64 ((c.s a).toInt.tmod (c.s b).toInt))
  | .remu d a b => some (d, if c.s b = 0 then c.s a else BitVec.ofNat 64 ((c.s a).toNat % (c.s b).toNat))
  | .and d a b => some (d, c.s a &&& c.s b)
  | .or d a b => some (d, c.s a ||| c.s b)
  | .xor d a b => some (d, c.s a ^^^ c.s b)
  | .andn d a b => some (d, c.s a &&& ~~~ c.s b)
  | .shl d a b => some (d, BitVec.ofNat 64 ((c.s a).toNat * 2 ^ ((c.s b).toNat % 64)))
  | .shr d a b => some (d, BitVec.ofNat 64 ((c.s a).toNat / 2 ^ ((c.s b).toNat % 64)))
  | .sar d a b => some (d, BitVec.ofInt 64 ((c.s a).toInt / 2 ^ ((c.s b).toNat % 64)))
  | .rol d a b => some (d, (c.s a).rotateLeft ((c.s b).toNat % 64))
  | .min d a b => some (d, if (c.s a).toInt ≤ (c.s b).toInt then c.s a else c.s b)
  | .max d a b => some (d, if (c.s a).toInt ≤ (c.s b).toInt then c.s b else c.s a)
  | .minu d a b => some (d, if (c.s a).toNat ≤ (c.s b).toNat then c.s a else c.s b)
  | .maxu d a b => some (d, if (c.s a).toNat ≤ (c.s b).toNat then c.s b else c.s a)
  | .slt d a b => some (d, if (c.s a).toInt < (c.s b).toInt then 1 else 0)
  | .sltu d a b => some (d, if (c.s a).toNat < (c.s b).toNat then 1 else 0)
  | .seq d a b => some (d, if c.s a = c.s b then 1 else 0)
  | .sne d a b => some (d, if c.s a = c.s b then 0 else 1)
  | .sel d a b e => some (d, if c.s e = 0 then c.s b else c.s a)
  | .shli d a n => some (d, BitVec.ofNat 64 ((c.s a).toNat * 2 ^ n.toNat))
  | .shri d a n => some (d, BitVec.ofNat 64 ((c.s a).toNat / 2 ^ n.toNat))
  | .sari d a n => some (d, BitVec.ofInt 64 ((c.s a).toInt / 2 ^ n.toNat))
  | .lui d n => some (d, BitVec.ofInt 64 (n.toInt * 4096))
  | _ => none

/-- NOP and the register and shift-immediate forms of X, SEL and LUI (R115, R116, R117): in every state in which X stands at the
word, the step ends in the state in which S[d] alone has changed, to the value of the table of R115; a write to S0 is discarded;
no such word traps on a value. -/
def Sys2Proof.Claims.IntegerWordsOfX : Prop :=
  ∀ (i : Instr) (s : State) (pc : Dword) (hand : Bool) (d : BitVec 5) (v : Dword), Stands s .x pc hand →
    Claims.intResult i (iter s) = some (d, v) →
    exec i s = .next (after s .x pc hand fun c => if d = 0 then c else { c with regs := { c.regs with s := c.regs.s.set d.toNat v d.isLt } })

/-- CLZ, CTZ and POPC (R115): the step ends with S[d] holding the number of leading zero bits, trailing zero bits, set bits of
S[a]; 64 zero bits when S[a] is 0. -/
def Sys2Proof.Claims.CountWordsOfX : Prop :=
  ∀ (s : State) (pc : Dword) (hand : Bool) (d a : BitVec 5), Stands s .x pc hand →
    (∃ n : Nat, exec (.clz d a) s = .next (after s .x pc hand fun c => c.setS d (BitVec.ofNat 64 n)) ∧ n ≤ 64 ∧
      ((iter s).s a).toNat < 2 ^ (64 - n) ∧ (n < 64 → 2 ^ (63 - n) ≤ ((iter s).s a).toNat)) ∧
    (∃ n : Nat, exec (.ctz d a) s = .next (after s .x pc hand fun c => c.setS d (BitVec.ofNat 64 n)) ∧ n ≤ 64 ∧
      2 ^ n ∣ ((iter s).s a).toNat ∧ (n < 64 → ¬ 2 ^ (n + 1) ∣ ((iter s).s a).toNat)) ∧
    (∃ n : Nat, exec (.popc d a) s = .next (after s .x pc hand fun c => c.setS d (BitVec.ofNat 64 n)) ∧
      n = ((List.range 64).filter fun k => ((iter s).s a).getLsbD k).length)

/-- The integer words of X (R115 to R117): the register and shift-immediate forms, SEL, LUI, and the counts of leading, trailing and
set bits. In every state in which X stands at the word the step ends with S[d] alone changed, to the value of the table of R115. -/
def Obligations.IntegerWords : Prop :=
  Claims.IntegerWordsOfX ∧ Claims.CountWordsOfX

/-- The words of an extended immediate with no EXT word behind them (R91, R116, R133): ADDI, ANDI, ORI, XORI, SLTI on X, AADDI,
AANDI on A, where the word behind can be fetched (into d1, with its translation kept) and is no EXT word. -/
def Sys2Proof.Claims.ImmediateWords : Prop :=
  ∀ (s : State) (pc : Dword) (hand : Bool) (d a : BitVec 5) (n : BitVec 12) (w : Word) (d1 : Dev),
    (∀ i r, (i, r) ∈ [(Instr.addi d a n, fun c : TCore => c.s a + n.signExtend 64), (.andi d a n, fun c => c.s a &&& n.signExtend 64),
        (.ori d a n, fun c => c.s a ||| n.signExtend 64), (.xori d a n, fun c => c.s a ^^^ n.signExtend 64),
        (.slti d a n, fun c => if (c.s a).toInt < n.toInt then 1 else 0)] →
      Stands s .x pc hand → fetchAt s.env s.dev s.env.unit .x (pc + 4) = .ok w d1 → w.extractLsb' 29 3 ≠ 5 →
      exec i s = .next (walked s pc (d1.onCore s.env.unit fun c => c.setS d (r c)) .x hand (pc + 4) (.other .x))) ∧
    (∀ i r, (i, r) ∈ [(Instr.aaddi d a n, fun c : TCore => c.a a + n.signExtend 64), (.aandi d a n, fun c => c.a a &&& n.signExtend 64)] →
      Stands s .a pc hand → fetchAt s.env s.dev s.env.unit .a (pc + 4) = .ok w d1 → w.extractLsb' 29 3 ≠ 5 →
      exec i s = .next (walked s pc (d1.onCore s.env.unit fun c => c.setA d (r c)) .a hand (pc + 4) (.other .a)))

/-- What an extended immediate makes of a register's value, by the word (R116, R133). -/
def Sys2Proof.Claims.immResult : RiOp → Dword → Dword → Dword
  | .addi, x, n => BitVec.ofInt 64 (x.toInt + n.toInt)
  | .andi, x, n => x &&& n
  | .ori, x, n => x ||| n
  | .xori, x, n => x ^^^ n
  | .slti, x, n => if x.toInt < n.toInt then 1 else 0
  | .aaddi, x, n => BitVec.ofInt 64 (x.toInt + n.toInt)
  | .aandi, x, n => x &&& n

/-- EXT words (R58, R59, R91, R114): the last of one or two behind an ADDI, ANDI, ORI, XORI or SLTI of X or an AADDI or AANDI of A, with no
third behind it, is where the instruction takes its effect, with the immediate of one or of two EXT words, in a handler too; another
engine than the one of the word before it steps over an EXT word; one behind a word that takes none is illegal, with TINFO1 4. -/
def Sys2Proof.Claims.ExtendedImmediates : Prop :=
  ∀ (s : State) (e own : Eng) (pc : Dword) (hand : Bool) (op : RiOp) (d a : BitVec 5) (n : BitVec 12) (e1 e2 : BitVec 29) (w : Word)
    (d1 : Dev), Stands s e pc hand →
    let prev : Prev := if hand then ((iter s).trap.hand.map fun h => h.prev).getD .none else ((iter s).engine e).prev
    let set (imm : Dword) (c : TCore) : TCore :=
      if e = .x then c.setS d (Claims.immResult op (c.s a) imm) else c.setA d (Claims.immResult op (c.a a) imm)
    (e = (if op = .aaddi ∨ op = .aandi then .a else .x) → fetchAt s.env s.dev s.env.unit e (pc + 4) = .ok w d1 →
      w.extractLsb' 29 3 ≠ 5 →
      (prev = .ri op d a n none → exec (.extWord e1) s = .next (walked s pc (d1.onCore s.env.unit (set ((e1 ++ n).signExtend 64))) e hand
        (pc + 4) (.other e))) ∧
      (prev = .ri op d a n (some e1) → e1.extractLsb' 23 6 = 0 →
        exec (.extWord e2) s = .next (walked s pc (d1.onCore s.env.unit (set (e1.extractLsb' 0 23 ++ e2 ++ n))) e hand (pc + 4) (.other e)))) ∧
    (prev = .other own → own ≠ e → exec (.extWord e1) s = .next (walked s pc (Claims.found s e hand) e hand (pc + 4) (.other own))) ∧
    (prev = .none ∨ prev = .c ∨ prev = .other e →
      exec (.extWord e1) s = .next (withDev s (enterTrap s.env s.dev s.env.unit e pc 0x01 ((5#3 ++ e1).setWidth 64) 4 0 0)))

/-- The words that take an extended immediate (R59, R91, R116, R133): their result with no EXT word behind them, and with one or
two. -/
def Obligations.ImmediateForms : Prop :=
  Claims.ImmediateWords ∧ Claims.ExtendedImmediates

/-- The arithmetic FP32 words (R118): FADD, FSUB, FMUL, FFMA, FMIN and FMAX complete in every state in which X stands at the word:
the step ends in the state in which bits [31:0] of S[d] hold the result on bits [31:0] of the sources, bits [63:32] are zero, and the
exceptions are ORed into VFLAGS. What the named operations give is stated by FloatValues. -/
def Sys2Proof.Claims.FloatWordsOfX : Prop :=
  ∀ (s : State) (pc : Dword) (hand : Bool) (d a b : BitVec 5) (i : Instr) (r : TCore → Word × FFlags), Stands s .x pc hand →
    (i, r) ∈ [(Instr.fadd d a b, fun c : TCore => f32Add ((c.s a).setWidth 32) ((c.s b).setWidth 32)),
      (.fsub d a b, fun c => f32Sub ((c.s a).setWidth 32) ((c.s b).setWidth 32)),
      (.fmul d a b, fun c => f32Mul ((c.s a).setWidth 32) ((c.s b).setWidth 32)),
      (.ffma d a b, fun c => f32Fma ((c.s a).setWidth 32) ((c.s b).setWidth 32) ((c.s d).setWidth 32)),
      (.fmin d a b, fun c => f32Min ((c.s a).setWidth 32) ((c.s b).setWidth 32)),
      (.fmax d a b, fun c => f32Max ((c.s a).setWidth 32) ((c.s b).setWidth 32))] →
    exec i s = .next (after s .x pc hand fun c =>
      { c.setS d ((r c).1.setWidth 64) with csr := { c.csr with vflags := c.csr.vflags ||| (r c).2 } })

/-- Whether an FP32 encoding is a NaN (R9). -/
def Sys2Proof.Claims.nan32 (w : Word) : Bool := decide (0x7F800000 < w.toNat % 2 ^ 31)

/-- Whether an FP32 encoding is an infinity (R9). -/
def Sys2Proof.Claims.inf32 (w : Word) : Bool := w.toNat % 2 ^ 31 == 0x7F800000

/-- Whether an FP32 encoding is a finite number (R9). -/
def Sys2Proof.Claims.fin32 (w : Word) : Bool := decide (w.toNat % 2 ^ 31 < 0x7F800000)

/-- The value of a finite FP32 encoding (R9). -/
def Sys2Proof.Claims.value32 (w : Word) : ℚ :=
  let ex : Nat := w.toNat / 2 ^ 23 % 256
  let fr : Nat := w.toNat % 2 ^ 23
  (if w.getLsbD 31 then -1 else 1) * (if ex = 0 then (fr : ℚ) / 2 ^ 149 else (((2 ^ 23 + fr : Nat) : ℚ)) * 2 ^ ex / 2 ^ 150)

/-- FP32 encodings that are no NaN, by value, with -0 below +0 (R15). -/
def Sys2Proof.Claims.order32 (w : Word) : Int := if w.getLsbD 31 then -1 - (w.toNat % 2 ^ 31 : Nat) else (w.toNat % 2 ^ 31 : Nat)

/-- Whether a rel b holds, by the number of the relation: eq, ne, lt, le, gt, ge (R118). A NaN is unordered; the zeros are equal. -/
def Sys2Proof.Claims.rel32 (rel : BitVec 3) (a b : Word) : Bool :=
  let un := Claims.nan32 a || Claims.nan32 b
  let eq := !un && (a == b || a ||| b == 0x80000000 && a &&& b == 0)
  let lt := !un && !eq && decide (Claims.order32 a < Claims.order32 b)
  let gt := !un && !eq && decide (Claims.order32 b < Claims.order32 a)
  match rel.toNat with
  | 0 => eq
  | 1 => !eq
  | 2 => lt
  | 3 => lt || eq
  | 4 => gt
  | _ => gt || eq

/-- An exact result q other than 0, rounded once to FP32 with round-to-nearest-even, and its flags (R15, R17): no finite FP32 value
is nearer than the one delivered, a tie goes to the even encoding, a subnormal is kept; from (2^25 - 1) 2^103 on in magnitude an
infinity is delivered with overflow and inexact; underflow is raised where an inexact result is below 2^-126 after rounding to 24 bits. -/
def Sys2Proof.Claims.Rounded32 (q : ℚ) (r : Word × FFlags) : Prop :=
  if |q| < (2 ^ 25 - 1) * 2 ^ 103 then
    Claims.fin32 r.1 ∧ (∀ v, Claims.fin32 v → |Claims.value32 r.1 - q| ≤ |Claims.value32 v - q| ∧
      (|Claims.value32 v - q| = |Claims.value32 r.1 - q| → Claims.value32 v ≠ Claims.value32 r.1 → r.1.getLsbD 0 = false)) ∧
    r.1.getLsbD 31 = decide (q < 0) ∧
    r.2 = (if Claims.value32 r.1 = q then 0 else if |q| < 1 / 2 ^ 126 - 1 / 2 ^ 151 then fInexact ||| fUnderflow else fInexact)
  else r = (if q < 0 then 0xFF800000 else 0x7F800000, fOverflow ||| fInexact)

/-- FCMP and FCVT complete in every state in which X stands at the word (R118). FCMP gives 1 where the relation holds, else 0, and
raises invalid for a NaN under lt, le, gt, ge alone. FCVT to=int rounds to the nearest integer, ties to even, and saturates by sign;
a NaN gives 0; invalid, or inexact, is raised as the rule says. FCVT to=fp rounds the signed 64-bit value by the FP32 rounding that
FloatValues states, and zero gives zero. -/
def Sys2Proof.Claims.FloatCompareAndConvert : Prop :=
  ∀ (s : State) (pc : Dword) (hand : Bool) (d a b : BitVec 5) (rel : BitVec 3), Stands s .x pc hand →
    let x : Word := ((iter s).s a).setWidth 32
    let y : Word := ((iter s).s b).setWidth 32
    let gives (v : Dword) (f : FFlags) (c : TCore) : TCore := { c.setS d v with csr := { c.csr with vflags := c.csr.vflags ||| f } }
    exec (.fcmp d a b rel) s = .next (after s .x pc hand
      (gives (if Claims.rel32 rel x y then 1 else 0) (if 2 ≤ rel.toNat ∧ (Claims.nan32 x ∨ Claims.nan32 y) then fInvalid else 0))) ∧
    (∃ (z : Int) (f : FFlags), exec (.fcvtToInt d a) s = .next (after s .x pc hand (gives (BitVec.ofInt 64 z) f)) ∧
      (Claims.nan32 x → z = 0 ∧ f = fInvalid) ∧
      (Claims.inf32 x → z = (if x.getLsbD 31 then -2 ^ 63 else 2 ^ 63 - 1) ∧ f = fInvalid) ∧
      (Claims.fin32 x → ∃ n : Int, |Claims.value32 x - n| ≤ 1 / 2 ∧ (|Claims.value32 x - n| = 1 / 2 → n % 2 = 0) ∧
        if -2 ^ 63 ≤ n ∧ n < 2 ^ 63 then z = n ∧ f = (if (n : ℚ) = Claims.value32 x then 0 else fInexact)
        else z = (if x.getLsbD 31 then -2 ^ 63 else 2 ^ 63 - 1) ∧ f = fInvalid)) ∧
    (∃ r : Word × FFlags, exec (.fcvtToFp d a) s = .next (after s .x pc hand (gives (r.1.setWidth 64) r.2)) ∧
      ((iter s).s a = 0 → r = (0, 0)) ∧
      ((iter s).s a ≠ 0 → Claims.Rounded32 (((iter s).s a).toInt : ℚ) r))

/-- The floating-point words of X complete (R118): FADD, FSUB, FMUL, FFMA, FMIN, FMAX, FCMP and both forms of FCVT end, in every
state in which X stands at the word, in the state in which S[d] holds the result, VFLAGS has the exceptions ORed in, and nothing
else changes but X's PC and walk count. -/
def Obligations.FloatWords : Prop :=
  Claims.FloatWordsOfX ∧ Claims.FloatCompareAndConvert

/-- The sums, products and fused products of finite FP32 numbers round their exact value once (R15, R118): RNE, subnormals kept. -/
def Sys2Proof.Claims.RoundedArithmetic : Prop :=
  ∀ a b c : Word, Claims.fin32 a → Claims.fin32 b → Claims.fin32 c →
    (Claims.value32 a + Claims.value32 b ≠ 0 → Claims.Rounded32 (Claims.value32 a + Claims.value32 b) (f32Add a b)) ∧
    (Claims.value32 a - Claims.value32 b ≠ 0 → Claims.Rounded32 (Claims.value32 a - Claims.value32 b) (f32Sub a b)) ∧
    (Claims.value32 a * Claims.value32 b ≠ 0 → Claims.Rounded32 (Claims.value32 a * Claims.value32 b) (f32Mul a b)) ∧
    (Claims.value32 a * Claims.value32 b + Claims.value32 c ≠ 0 →
      Claims.Rounded32 (Claims.value32 a * Claims.value32 b + Claims.value32 c) (f32Fma a b c))

/-- The results that are no rounding (R15, R17): a NaN operand gives the canonical NaN and no flag; a NaN that arises from operands
that are none raises invalid; an infinity passes; an exact zero sum of operands of opposite sign is +0. -/
def Sys2Proof.Claims.SpecialResults : Prop :=
  ∀ a b c : Word,
    let sg (w : Word) : Bool := w.getLsbD 31
    let inf (neg : Bool) : Word × FFlags := (if neg then 0xFF800000 else 0x7F800000, 0)
    let zero (neg : Bool) : Word × FFlags := (if neg then 0x80000000 else 0, 0)
    (Claims.nan32 a || Claims.nan32 b →
      f32Add a b = (0x7FC00000, 0) ∧ f32Sub a b = (0x7FC00000, 0) ∧ f32Mul a b = (0x7FC00000, 0)) ∧
    (Claims.nan32 a || Claims.nan32 b || Claims.nan32 c → f32Fma a b c = (0x7FC00000, 0)) ∧
    (Claims.inf32 a → Claims.inf32 b →
      f32Add a b = (if sg a = sg b then inf (sg a) else (0x7FC00000, fInvalid)) ∧
      f32Sub a b = (if sg a = sg b then (0x7FC00000, fInvalid) else inf (sg a)) ∧ f32Mul a b = inf (sg a != sg b)) ∧
    (Claims.inf32 a → Claims.fin32 b → f32Add a b = inf (sg a) ∧ f32Add b a = inf (sg a) ∧ f32Sub a b = inf (sg a) ∧
      f32Sub b a = inf (!sg a) ∧
      f32Mul a b = (if Claims.value32 b = 0 then (0x7FC00000, fInvalid) else inf (sg a != sg b)) ∧ f32Mul b a = f32Mul a b) ∧
    (Claims.fin32 a → Claims.fin32 b →
      (Claims.value32 a + Claims.value32 b = 0 → f32Add a b = zero (Claims.value32 a = 0 && sg a && sg b)) ∧
      (Claims.value32 a - Claims.value32 b = 0 → f32Sub a b = zero (Claims.value32 a = 0 && sg a && !sg b)) ∧
      (Claims.value32 a * Claims.value32 b = 0 → f32Mul a b = zero (sg a != sg b)) ∧
      (Claims.inf32 c → f32Fma a b c = inf (sg c)) ∧
      (Claims.fin32 c → Claims.value32 a * Claims.value32 b + Claims.value32 c = 0 →
        f32Fma a b c = zero (Claims.value32 c = 0 && (sg a != sg b) && sg c)))

/-- FMIN and FMAX (R15, R118): the other operand where exactly one is a NaN, the canonical NaN where both are, else the smaller and the
larger, with -0 below +0; they raise nothing. -/
def Sys2Proof.Claims.SmallerAndLarger : Prop :=
  ∀ a b : Word,
    f32Min a b = (if Claims.nan32 a ∧ Claims.nan32 b then 0x7FC00000 else if Claims.nan32 a then b else if Claims.nan32 b then a
      else if Claims.order32 b < Claims.order32 a then b else a, 0) ∧
    f32Max a b = (if Claims.nan32 a ∧ Claims.nan32 b then 0x7FC00000 else if Claims.nan32 a then b else if Claims.nan32 b then a
      else if Claims.order32 a < Claims.order32 b then b else a, 0)

/-- The results of the floating-point operations (R15, R17, R118): one rounding of the exact result to nearest even, the special
results, and the order of FMIN and FMAX. -/
def Obligations.FloatValues : Prop :=
  Claims.RoundedArithmetic ∧ Claims.SpecialResults ∧ Claims.SmallerAndLarger

/-- POP, PUSH, QSTAT (R70, R119): POP takes the head of q.ax, q.vx or q.mx; PUSH places S[a] at the tail of q.xa, q.xv or q.xm while
there is room; QSTAT gives depth and count. -/
def Sys2Proof.Claims.QueueWordsOfX : Prop :=
  ∀ (s : State) (pc : Dword) (hand : Bool) (d a q : BitVec 5) (x : Dword) (r : List Dword), Stands s .x pc hand →
    ((iter s).q.ax = x :: r → exec (.pop d 0) s = .next (after s .x pc hand fun c => { c with q := { c.q with ax := r } }.setS d x)) ∧
    ((iter s).q.vx = x :: r → exec (.pop d 5) s = .next (after s .x pc hand fun c => { c with q := { c.q with vx := r } }.setS d x)) ∧
    ((iter s).q.mx = x :: r → exec (.pop d 7) s = .next (after s .x pc hand fun c => { c with q := { c.q with mx := r } }.setS d x)) ∧
    ((iter s).q.xa.length < 16 →
      exec (.push 1 a) s = .next (after s .x pc hand fun c => { c with q := { c.q with xa := c.q.xa ++ [c.s a] } })) ∧
    ((iter s).q.xv.length < 16 →
      exec (.push 4 a) s = .next (after s .x pc hand fun c => { c with q := { c.q with xv := c.q.xv ++ [c.s a] } })) ∧
    ((iter s).q.xm.length < 16 →
      exec (.push 6 a) s = .next (after s .x pc hand fun c => { c with q := { c.q with xm := c.q.xm ++ [c.s a] } })) ∧
    exec (.qstat d q) s = .next (after s .x pc hand fun c =>
      c.setS d (BitVec.ofNat 64 ((if q = 2 ∨ q = 3 then 64 else if q = 7 then 8 else 16) * 256 + c.qlen q.toNat)))

/-- A word of X that reads a queue X does not consume, or writes one X does not produce, raises QUEUE_PROTOCOL (R70); one that
finds its queue empty, or full, waits with nothing else changed. -/
def Sys2Proof.Claims.QueueWordsTrapOrWait : Prop :=
  ∀ (s : State) (pc : Dword) (hand : Bool) (d a q : BitVec 5), Stands s .x pc hand →
    (q.toNat ≠ 0 → q.toNat ≠ 5 → q.toNat ≠ 7 →
      exec (.pop d q) s = .next (withDev s (enterTrap s.env s.dev s.env.unit .x pc 0x07 (BitVec.ofNat 64 q.toNat) 0 0 0))) ∧
    (q.toNat ≠ 1 → q.toNat ≠ 4 → q.toNat ≠ 6 →
      exec (.push q a) s = .next (withDev s (enterTrap s.env s.dev s.env.unit .x pc 0x07 (BitVec.ofNat 64 q.toNat) 0 0 0))) ∧
    (∀ k l, (k, l) ∈ [(0#5, (iter s).q.ax), (5#5, (iter s).q.vx), (7#5, (iter s).q.mx)] → l = [] →
      exec (.pop d k) s = .next (withDev s (setWait s.dev ⟨s.env.unit, .x, pc, hand⟩ { code := 1, detail := k.setWidth 8 }))) ∧
    (∀ k l, (k, l) ∈ [(1#5, (iter s).q.xa), (4#5, (iter s).q.xv), (6#5, (iter s).q.xm)] → l.length = 16 →
      exec (.push k a) s = .next (withDev s (setWait s.dev ⟨s.env.unit, .x, pc, hand⟩ { code := 2, detail := k.setWidth 8 })))

/-- POP, PUSH and QSTAT (R70, R119): what they move, where they trap and where they wait. -/
def Obligations.QueueForms : Prop :=
  Claims.QueueWordsOfX ∧ Claims.QueueWordsTrapOrWait

/-- The event-queue words (R123): EVPOP gives the head record in S[d] and S[d+1] and removes it, EVPEEK leaves it, both give 0 where no
record is held; EVCNT gives the number held; none of them blocks, and nothing else changes but X's PC and walk count, and, at EVPOP, the
pts of path 0, which rises to the timestamp the record carries (R309); a d of 0 or 31 is reserved. Each with its word. -/
def Obligations.EventQueueWords : Prop :=
  ∀ (s : State) (pc : Dword) (hand : Bool) (d : BitVec 5), Stands s .x pc hand →
    let rec16 := ((iter s).ev.map Prod.fst).headD 0
    let read (c : TCore) : TCore := (c.setS d (rec16.extractLsb' 0 64)).setS (d + 1) (rec16.extractLsb' 64 64)
    let gives (t : State) (ev : List (Rec16 × Dword)) : Prop := (iter t).ev = ev ∧
      (iter t).s d = rec16.extractLsb' 0 64 ∧ (iter t).s (d + 1) = rec16.extractLsb' 64 64 ∧
      (∀ r, r ≠ d → r ≠ d + 1 → (iter t).s r = (iter s).s r) ∧ (∀ r, (iter t).a r = (iter s).a r) ∧ MemSame s t ∧
      (iter t).q = (iter s).q ∧ (iter t).csr = (iter s).csr ∧ Advanced s t .x hand (pc + 4)
    (1 ≤ d.toNat → d.toNat ≤ 30 →
      (∃ t, exec (.evpop d) s = .next t ∧ gives t (iter s).ev.tail ∧
        t = walked s pc (setPts (s.dev.onCore s.env.unit fun c => { read c with ev := c.ev.tail }) (.tile s.env.unit 0)
          (dmax (getPts s.dev (.tile s.env.unit 0)) (((iter s).ev.map Prod.snd).headD 0))) .x hand (pc + 4) (.other .x)) ∧
      ∃ t, exec (.evpeek d) s = .next t ∧ gives t (iter s).ev ∧ t = after s .x pc hand read) ∧
    exec (.evcnt d) s = .next (after s .x pc hand fun c => c.setS d (BitVec.ofNat 64 c.ev.length)) ∧
    encode (.evpop d) = some (0x12000000 + d.setWidth 32 * 0x20000) ∧ encode (.evpeek d) = some (0x12400000 + d.setWidth 32 * 0x20000) ∧
    encode (.evcnt d) = some (0x12800000 + d.setWidth 32 * 0x20000) ∧
    (d = 0 ∨ d = 31 → (Instr.evpop d).wf = false ∧ (Instr.evpeek d).wf = false)

/-- WFE completes where a record is held, and waits with no wait code where none is (R75, R124). The code is the model's (log entry
59). -/
def Sys2Proof.Claims.WaitForEvent : Prop :=
  ∀ (s : State) (pc : Dword) (hand : Bool), Stands s .x pc hand →
    ((iter s).ev ≠ [] → exec .wfe s = .next (after s .x pc hand fun c => c)) ∧
    ((iter s).ev = [] → exec .wfe s = .next (withDev s (setWait s.dev ⟨s.env.unit, .x, pc, hand⟩ Wait.idle)))

/-- NOP (R117): X walks it and nothing else changes; a zero word in text is one, and the other engines step over it. -/
def Obligations.NopWord : Prop :=
  decode 0 = .ok .nop ∧
  ∀ (s : State) (e : Eng) (pc : Dword) (hand : Bool), Stands s e pc hand →
    exec .nop s = .next (walked s pc ((Claims.found s e hand).onCore s.env.unit id) e hand
      (pc + 4) (.other .x))

/-- The CSR words (R126): CSRR reads; CSRW writes; CSRS sets and CSRC clears bits and both give the old value. Stated of WIN and
TVEC, which are read/write, and of VFLAGS, which is read, clear; WIN refuses a value outside 64 to 65,535 with OPERAND_SHAPE (R63). -/
def Sys2Proof.Claims.CsrWords : Prop :=
  ∀ (s : State) (pc : Dword) (hand : Bool) (d a : BitVec 5) (c : BitVec 12), Stands s .x pc hand →
    exec (.csrr d c) s = .next (after s .x pc hand fun x => x.setS d (csrValue s.dev s.env.unit c.toNat)) ∧
    (64 ≤ ((iter s).s a).toNat → ((iter s).s a).toNat ≤ 65535 → ∃ t, exec (.csrw a 0x005) s = .next t ∧
      (iter t).csr.win.toNat = ((iter s).s a).toNat ∧ (iter t).regs = (iter s).regs) ∧
    (((iter s).s a).toNat < 64 ∨ 65535 < ((iter s).s a).toNat → exec (.csrw a 0x005) s = .next (withDev s (enterTrap s.env s.dev s.env.unit .x pc 0x02 0 0 0 0))) ∧
    (∃ t, exec (.csrs d a 0x040) s = .next t ∧ (iter t).s d = (if d = 0 then 0 else (iter s).csr.tvec) ∧
      (iter t).csr.tvec = ((iter s).csr.tvec ||| (iter s).s a) &&& ~~~ 3#64) ∧
    (∃ t, exec (.csrc d a 0x014) s = .next t ∧ (iter t).s d = (if d = 0 then 0 else (iter s).csr.vflags.setWidth 64) ∧
      (iter t).csr.vflags = (iter s).csr.vflags &&& ~~~ ((iter s).s a).setWidth 5)

/-- The CSR words (R63, R126) and WFE (R124). -/
def Obligations.EventAndCsrWords : Prop :=
  Claims.CsrWords ∧ Claims.WaitForEvent

/-! ### The words of A -/

/-- Address arithmetic (R133): ANOP and the two-source forms, ASHLI and ALUI write A[d], modulo 2^64; a write to A0 is discarded. -/
def Obligations.AddressWords : Prop :=
  ∀ (i : Instr) (s : State) (pc : Dword) (hand : Bool) (d a b : BitVec 5) (n : BitVec 12) (u : BitVec 17) (r : TCore → Dword),
    Stands s .a pc hand →
    (i, r) ∈ [(Instr.aadd d a b, fun c : TCore => BitVec.ofInt 64 ((c.a a).toInt + (c.a b).toInt)),
      (.asub d a b, fun c => BitVec.ofInt 64 ((c.a a).toInt - (c.a b).toInt)),
      (.amul d a b, fun c => BitVec.ofInt 64 ((c.a a).toInt * (c.a b).toInt)),
      (.ashl d a b, fun c => BitVec.ofNat 64 ((c.a a).toNat * 2 ^ ((c.a b).toNat % 64))),
      (.ashr d a b, fun c => BitVec.ofInt 64 ((c.a a).toInt / 2 ^ ((c.a b).toNat % 64))),
      (.aand d a b, fun c => c.a a &&& c.a b),
      (.amin d a b, fun c => if (c.a a).toInt ≤ (c.a b).toInt then c.a a else c.a b),
      (.amax d a b, fun c => if (c.a a).toInt ≤ (c.a b).toInt then c.a b else c.a a),
      (.aslt d a b, fun c => if (c.a a).toInt < (c.a b).toInt then 1 else 0),
      (.ashli d a n, fun c => BitVec.ofNat 64 ((c.a a).toNat * 2 ^ n.toNat)),
      (.alui d u, fun _ => BitVec.ofInt 64 (u.toInt * 4096))] →
    exec i s = .next (after s .a pc hand fun c =>
      if d = 0 then c else { c with regs := { c.regs with a := c.regs.a.set d.toNat (r c) d.isLt } }) ∧
    exec .anop s = .next (after s .a pc hand fun c => c)

/-- LD, LDQ and FLAGREAD (R134, R141): a load whose address translates and whose bytes come from their home gives those bytes,
extended, and changes no memory. LDQ needs room in q.ax. An access is performed in the step of its word (log entry 8). -/
def Sys2Proof.Claims.LoadWords : Prop :=
  ∀ (s : State) (pc : Dword) (d b : BitVec 5) (z : MSize) (u : Bool) (o : BitVec 9) (loc : Loc) (cls : BitVec 4) (d1 : Dev),
    Stands s .a pc false → FromHome s loc →
    (((iter s).memAddr b z o).toNat % msBytes z = 0 → Reaches s { port := true } ((iter s).memAddr b z o) loc cls d1 →
      (∃ t, exec (.ld d b z u o) s = .next t ∧ MemSame s t ∧
        (iter t).regs = ((iter s).setA d (extend (msBytes z) u (leNat (getBytes s.dev loc (msBytes z))))).regs ∧
        ((iter t).engine .a).pc = pc + 4) ∧
      ((iter s).ldq = none → (iter s).q.ax.length < 16 →
        ∃ t, exec (.ldq 0 b z u o) s = .next t ∧ MemSame s t ∧ (iter t).regs = (iter s).regs ∧
          (iter t).q.ax = (iter s).q.ax ++ [extend (msBytes z) u (leNat (getBytes s.dev loc (msBytes z)))] ∧
          ((iter t).engine .a).pc = pc + 4)) ∧
    (((iter s).a b).toNat % 16 = 0 → Reaches s { write := true } ((iter s).a b) loc cls d1 →
      ∃ t, exec (.flagread d b) s = .next t ∧ MemSame s t ∧
        (iter t).regs = ((iter s).setA d (BitVec.ofNat 64 (leNat (getBytes s.dev loc 8)))).regs)

/-- LDV (R135): from the tile's own scratchpad, with room for all its rows and no uncorrectable error in them, it moves n consecutive rows of 64 bytes to the tail of
q.av, in address order. -/
def Sys2Proof.Claims.RowLoads : Prop :=
  ∀ (s : State) (pc : Dword) (r : BitVec 5) (n : BitVec 7) (off : Nat), Stands s .a pc false → s.env.unit < 640 →
    1 ≤ n.toNat → n.toNat ≤ 64 → off % 64 = 0 → off + 64 * n.toNat ≤ 0x300000 →
    (iter s).a r = BitVec.ofNat 64 (0x7F0000000000 + off) → (unitTile s).tag = some (iter s).csr.vfid →
    (∀ i, i < n.toNat → s.dev.bad.contains (spadKey s.env.unit (off + 64 * i) / 128) = false) → (iter s).ldv = none → (iter s).moved = 0 → (iter s).q.av.length + n.toNat ≤ 64 →
    ∃ t, exec (.ldv 2 r n) s = .next t ∧ MemSame s t ∧ (iter t).regs = (iter s).regs ∧
      (iter t).q.av = (iter s).q.av ++ (List.range n.toNat).map fun i =>
        rowOf (Memory.read s.dev.mem (spadKey s.env.unit (off + 64 * i)) 64)

/-- ST, STQ and TIDGET (R134, R162): a store whose address translates to memory writes its bytes there, little-endian, and no other
byte of memory; A's registers stay. STQ takes the head of q.xa. No packet of the tile is on its way to the same unit (R268). An access is
performed in the step of its word (log entry 8). -/
def Sys2Proof.Claims.StoreWords : Prop :=
  ∀ (s : State) (pc : Dword) (r b : BitVec 5) (z : MSize) (o : BitVec 9) (loc : Loc) (cls : BitVec 4) (d1 : Dev), Stands s .a pc false →
    payToken s.dev s.env.unit loc ≠ none → (∀ v, loc ≠ .port v) → branchDue s.env s.dev s.env.unit loc = false →
    (((iter s).memAddr b z o).toNat % msBytes z = 0 → Reaches s { write := true, port := true } ((iter s).memAddr b z o) loc cls d1 →
      (∃ t, exec (.st r b z o) s = .next t ∧ (iter t).regs = (iter s).regs ∧ (iter t).csr = (iter s).csr ∧
        t.dev.mem = Memory.write loc.key (natLe (msBytes z) ((iter s).a r).toNat) s.dev.mem ∧
        (Memory.wf s.dev.mem = true → OutsideSame s t loc.key (msBytes z))) ∧
      (∀ x l, (iter s).q.xa = x :: l →
        ∃ t, exec (.stq 1 b z o) s = .next t ∧ (iter t).regs = (iter s).regs ∧ (iter t).q = { (iter s).q with xa := l } ∧
          t.dev.mem = Memory.write loc.key (natLe (msBytes z) x.toNat) s.dev.mem ∧
          (Memory.wf s.dev.mem = true → OutsideSame s t loc.key (msBytes z)))) ∧
    (((iter s).a b).toNat % 64 = 0 → Reaches s { write := true } ((iter s).a b) loc cls d1 →
      ∀ tid row, tidOf (iter s).tids tid = some row → tid < 256 →
        ∃ t, exec (.tidget b (BitVec.ofNat 8 tid)) s = .next t ∧ (iter t).regs = (iter s).regs ∧
          t.dev.mem = Memory.write loc.key (rowBytes row) s.dev.mem)

/-- STV (R135), where no line of its rows has an uncorrectable error and no packet of the tile is on its way to the scratchpad (R268): its
last row goes from the head of q.va to memory at A[a] + 64 i, where i rows have gone before it. -/
def Sys2Proof.Claims.RowStores : Prop :=
  ∀ (s : State) (pc : Dword) (r : BitVec 5) (n : BitVec 7) (off : Nat) (x : Row) (l : List Row), Stands s .a pc false →
    s.env.unit < 640 → 1 ≤ n.toNat → n.toNat ≤ 64 → off % 64 = 0 → off + 64 * n.toNat ≤ 0x300000 →
    (iter s).a r = BitVec.ofNat 64 (0x7F0000000000 + off) → (unitTile s).tag = some (iter s).csr.vfid →
    (∀ i, i < n.toNat → s.dev.bad.contains (spadKey s.env.unit (off + 64 * i) / 128) = false) → (iter s).moved + 1 = n.toNat →
    (iter s).q.va = x :: l → branchDue s.env s.dev s.env.unit (.spad s.env.unit 0) = false →
    ∃ t, exec (.stv 3 r n) s = .next t ∧ (iter t).regs = (iter s).regs ∧ (iter t).q.va = l ∧ (iter t).moved = 0 ∧
      t.dev.mem = Memory.write (spadKey s.env.unit (off + 64 * (iter s).moved)) (rowBytes x) s.dev.mem

/-- ST, STQ, TIDGET and STV (R130, R134, R135, R162): the bytes stored, at the address the word names, and every other byte as
before. -/
def Obligations.StoreForms : Prop :=
  Claims.StoreWords ∧ Claims.RowStores

/-- A misaligned access of LD, LDQ, ST or STQ raises MISALIGNED with the address and the size, and an address with bits [63:55] not all
zero halts the engine with TRANSLATION; nothing is loaded, stored or taken from a queue (R130, R131, R134). -/
def Obligations.AddressFaults : Prop :=
  ∀ (s : State) (pc : Dword) (d b : BitVec 5) (z : MSize) (u : Bool) (o : BitVec 9), Stands s .a pc false → (iter s).ldq = none →
    let va := (iter s).memAddr b z o
    ∀ i ∈ [Instr.ld d b z u o, .ldq 0 b z u o, .st d b z o, .stq 1 b z o],
      (va.toNat % msBytes z ≠ 0 →
        exec i s = .next (withDev s (enterTrap s.env s.dev s.env.unit .a pc 0x0B va (BitVec.ofNat 64 (msBytes z)) 0 0))) ∧
      (va.toNat % msBytes z = 0 → 2 ^ 55 ≤ va.toNat → ∀ w, encode i = some w →
        exec i s = .next (withDev s (haltEngine s.env s.dev (who s) s.env.unit .a pc w 0x20 va)))

/-- PREF (R134): a line of HBM brought into L1 or L2, where there is a way for it; a misaligned or faulting address, such as
one of a page that another device owns, nothing at all: no memory and no register changes. -/
def Sys2Proof.Claims.Prefetch : Prop :=
  ∀ (s : State) (pc : Dword) (l b : BitVec 5) (z : MSize) (o : BitVec 9), Stands s .a pc false →
    let va := (iter s).memAddr b z o
    (va.toNat % msBytes z ≠ 0 ∨ (∃ c, translate s.env s.dev (who s) {} va = .fault c) →
      exec (.pref l b z o) s = .next (after s .a pc false fun c => c)) ∧
    (∀ pa cls, va.toNat % msBytes z = 0 →
      translate s.env s.dev (who s) {} va = .ok (.hbm pa) cls → payToken s.dev s.env.unit (.hbm pa) ≠ none →
      let k := sliceOf s.env.caps pa
      let lines (d : Dev) : List L2Line := (d.slice k).sets.get [] (setOf pa)
      ∃ t, exec (.pref l b z o) s = .next t ∧ MemSame s t ∧ (iter t).regs = (iter s).regs ∧
        (l = 0 → ((unitTile t).l1Find (pa / 128)).map (·.val) =
          some (BitVec.ofNat 1024 (leNat (Memory.read s.dev.mem (pa / 128 * 128) 128)))) ∧
        ((∃ y ∈ lines s.dev, y.line = pa / 128) ∨ fillWay (s.dev.slice k) cls (lines s.dev) ≠ none →
          ∃ y ∈ lines t.dev, y.line = pa / 128))

/-- LD, LDQ, FLAGREAD, LDV and PREF (R134, R135, R141): what a load gives and where it puts it, and that it stores nothing. -/
def Obligations.LoadForms : Prop :=
  Claims.LoadWords ∧ Claims.RowLoads ∧ Claims.Prefetch

/-- Atomics (R137, R138): one atomic step at the home: A[d] receives the old value, sign-extended, and memory the new one; AMOCAS
writes A[b + 1] only where the old value is A[b]. Stated of the 8-byte and the 4-byte forms, and of AMOFADD, whose width is 4. That an
atomic has not to pay for its message under gating, and is performed in the step of its word, is the model's choice (log entries 28, 8). -/
def Sys2Proof.Claims.AtomicWords : Prop :=
  ∀ (i : Instr) (s : State) (pc : Dword) (d a b : BitVec 5) (loc : Loc) (cls : BitVec 4) (d1 : Dev) (g : Nat → Option Nat) (n old : Nat)
    (w : Bool), Stands s .a pc false → Reaches s { write := true } ((iter s).a a) loc cls d1 → ((iter s).a a).toNat % n = 0 →
    old = leNat (getBytes s.dev loc n) →
    let k : Nat := if w then 8 else 4
    let y (r : BitVec 5) : Nat := ((iter s).a r).toNat % 2 ^ (8 * k)
    let sg (x : Nat) : Int := (BitVec.ofNat (8 * k) x).toInt
    (i, g, n) ∈ [(Instr.amoadd d a b w, fun x => some ((x + y b) % 2 ^ (8 * k)), k),
      (.amoswap d a b w, fun _ => some (y b), k),
      (.amocas d a b w, fun x => if x = y b then some (y (b + 1)) else none, k),
      (.amologic d a b w 0, fun x => some (x &&& y b), k),
      (.amologic d a b w 1, fun x => some (x ||| y b), k),
      (.amologic d a b w 2, fun x => some (x ^^^ y b), k),
      (.amominmax d a b w 0, fun x => some (if sg x ≤ sg (y b) then x else y b), k),
      (.amominmax d a b w 1, fun x => some (if sg x ≤ sg (y b) then y b else x), k),
      (.amominmax d a b w 2, fun x => some (min x (y b)), k),
      (.amominmax d a b w 3, fun x => some (max x (y b)), k),
      (.amofadd d a b, fun x => some (f32Add (BitVec.ofNat 32 x) (((iter s).a b).setWidth 32)).1.toNat, 4)] →
    ∃ t, exec i s = .next t ∧ (iter t).regs = ((iter s).setA d (extend n false old)).regs ∧
      (∀ x, g old = some x → t.dev.mem = Memory.write loc.key (natLe n x) s.dev.mem ∧
        (Memory.wf s.dev.mem = true → OutsideSame s t loc.key n)) ∧
      (g old = none → t.dev.mem = s.dev.mem)

/-- The 4-byte forms of the atomics that compare as signed numbers (R137), with the choices of log entries 28 and 8. -/
def Sys2Proof.Claims.AtomicMinMaxSigned : Prop :=
  ∀ (s : State) (pc : Dword) (d a b : BitVec 5) (loc : Loc) (cls : BitVec 4) (d1 : Dev) (old : BitVec 32),
    Stands s .a pc false → Reaches s { write := true } ((iter s).a a) loc cls d1 → ((iter s).a a).toNat % 4 = 0 →
    old.toNat = leNat (getBytes s.dev loc 4) →
    (∃ t, exec (.amominmax d a b false 0) s = .next t ∧
      t.dev.mem = Memory.write loc.key (natLe 4
        (if old.toInt ≤ (((iter s).a b).setWidth 32).toInt then old else ((iter s).a b).setWidth 32).toNat) s.dev.mem) ∧
    (∃ t, exec (.amominmax d a b false 1) s = .next t ∧
      t.dev.mem = Memory.write loc.key (natLe 4
        (if old.toInt ≤ (((iter s).a b).setWidth 32).toInt then ((iter s).a b).setWidth 32 else old).toNat) s.dev.mem)

/-- The atomic words (R137, R138): the old value in the register, the new one in memory, every other byte as before. -/
def Obligations.AtomicForms : Prop :=
  Claims.AtomicWords ∧ Claims.AtomicMinMaxSigned

/-- FLAGINC, FLAGSET and FLAGWAIT (R140, R141): one atomic step on a flag's 16 bytes, with the setter's identifier; a FLAGWAIT whose
VALUE suffices, with none before it, subtracts what it needs. That a flag word has not to pay for its message under gating, and is
performed in the step of its word, is the model's choice (log entries 28, 8). -/
def Sys2Proof.Claims.FlagWords : Prop :=
  ∀ (s : State) (pc : Dword) (a b : BitVec 5) (loc : Loc) (cls : BitVec 4) (d1 : Dev), Stands s .a pc false →
    ((iter s).a a).toNat % 16 = 0 → Reaches s { write := true } ((iter s).a a) loc cls d1 →
    (∃ t, exec (.flaginc a b) s = .next t ∧ (iter t).regs = (iter s).regs ∧
      t.dev.mem = Memory.write loc.key (natLe 8 ((leNat ((getBytes s.dev loc 16).take 8) + ((iter s).a b).toNat) % 2 ^ 64) ++
        natLe 8 ((iter s).csr.vfid.toNat * 2 ^ 22 + s.env.caps.devid.toNat * 2 ^ 16 + s.env.unit)) s.dev.mem) ∧
    (∃ t, exec (.flagset a b) s = .next t ∧ (iter t).regs = (iter s).regs ∧
      t.dev.mem = Memory.write loc.key (natLe 8 ((iter s).a b).toNat ++
        natLe 8 ((iter s).csr.vfid.toNat * 2 ^ 22 + s.env.caps.devid.toNat * 2 ^ 16 + s.env.unit)) s.dev.mem) ∧
    ((iter s).a b = 0 → ∃ t, exec (.flagwait a b) s = .next t ∧ MemSame s t ∧ (iter t).regs = (iter s).regs) ∧
    ((iter s).a b ≠ 0 → (iter s).csr.profctl = 0 → s.dev.waiters = [] →
      ((iter s).a b).toNat ≤ leNat ((getBytes s.dev loc 16).take 8) →
      ∃ t, exec (.flagwait a b) s = .next t ∧ (iter t).regs = (iter s).regs ∧
        t.dev.mem = Memory.write loc.key (natLe 8 (leNat ((getBytes s.dev loc 16).take 8) - ((iter s).a b).toNat)) s.dev.mem)

/-- FLAGWAIT_SATISFIED (R141): the FLAGWAIT at which A waits is evaluated again at its home, as if A walked it. -/
def Sys2Proof.Claims.FlagWaitSatisfied : Prop :=
  ∀ (s : State) (pc : Dword) (w : Word) (a b : BitVec 5) (loc : Loc) (cls : BitVec 4) (d1 : Dev) (x : Waiter),
    ready s.dev s.env.unit .a = .go pc false → peekAt s.env s.dev s.env.unit .a pc = some w → decode w = .ok (.flagwait a b) →
    s.dev.waiters = [x] → x.tile = s.env.unit → ((iter s).a a).toNat % 16 = 0 → Reaches s { write := true } ((iter s).a a) loc cls d1 →
    (iter s).a b ≠ 0 → (iter s).csr.profctl = 0 → ((iter s).a b).toNat ≤ leNat ((getBytes s.dev loc 16).take 8) →
    ∃ t, exec .flagwaitSatisfied s = .next t ∧ t.dev.waiters = [] ∧ ((iter t).engine .a).pc = pc + 4 ∧
      t.dev.mem = Memory.write loc.key (natLe 8 (leNat ((getBytes s.dev loc 16).take 8) - ((iter s).a b).toNat)) s.dev.mem

/-- BARARM and BARWAIT (R143, R144, R146): BARARM of n bytes below 2^56 sets ARMT to the tile in every state; it arms an object in state 0
or 2 with COUNT = n, or has it reach zero where n is 0; in state 1 it adds n, or reports the excess and leaves state 3; in any other state
COUNT and STATE stay. A zero or an error is recorded in the tile's event queue; stated where no flag is to be incremented. BARWAIT completes
unless the object is in state 1, and waits with code 9 there. Neither has to pay for its message under gating: the model's choice (log
entry 28); each is one step (log entry 8). -/
def Sys2Proof.Claims.BarrierWords : Prop :=
  ∀ (s : State) (pc : Dword) (a b : BitVec 5) (loc : Loc) (cls : BitVec 4) (d1 : Dev) (o : BarObj), Stands s .a pc false →
    ((iter s).a a).toNat % 16 = 0 → o = barOf (getBytes s.dev loc 16) → Reaches s { write := true } ((iter s).a a) loc cls d1 →
    (((iter s).a b).toNat < 2 ^ 56 →
      let n : Nat := ((iter s).a b).toNat
      let idle : Prop := o.state = 0 ∨ o.state = 2
      let spill : Prop := o.state = 1 ∧ 2 ^ 56 ≤ o.count + n
      let zero : Prop := (idle ∧ n = 0) ∨ (o.state = 1 ∧ o.count + n = 0)
      let count : Nat := if idle then n else if spill then 0 else if o.state = 1 then o.count + n else o.count
      let state : Nat := if zero then 2 else if idle then 1 else if spill then 3 else o.state
      let va : Nat := ((iter s).a a).toNat
      (zero → o.flag = 0) → (zero ∨ spill → (iter s).ev.length < 256) →
      ∃ t ts, exec (.bararm a b) s = .next t ∧ (iter t).regs = (iter s).regs ∧ t.dev.mem = Memory.write loc.key
        (natLe 16 (count + state * 2 ^ 56 + o.flag * 2 ^ 64 + s.env.unit * 2 ^ 115 + o.top * 2 ^ 125)) s.dev.mem ∧
        (iter t).ev = (iter s).ev ++ (if zero then [(rec16 (va * 256 + 5) 0, ts)]
          else if spill then [(rec16 (va * 256 + 6) (o.count + n - (2 ^ 56 - 1) + 2 ^ 56), ts)] else [])) ∧
    (o.state ≠ 1 → ∃ t, exec (.barwait a) s = .next t ∧ MemSame s t ∧ (iter t).regs = (iter s).regs ∧
      ((iter t).engine .a).pc = pc + 4) ∧
    (o.state = 1 → ∃ t, exec (.barwait a) s = .next t ∧ MemSame s t ∧ (iter t).regs = (iter s).regs ∧
      ((iter t).engine .a).pc = pc ∧ ((iter t).engine .a).wait = some { code := 9 })

/-- The flag words, FLAGWAIT's completion and the barrier words (R140, R141, R144, R146). -/
def Obligations.FlagForms : Prop :=
  Claims.FlagWords ∧ Claims.FlagWaitSatisfied ∧ Claims.BarrierWords

/-- TIDSET, TIDINV, TLBINV, ASIDSET (R162, R163): TIDSET loads a descriptor that passes the checks into the tensor table; TIDINV
removes one; with privilege TLBINV removes translations and ASIDSET changes the ASID, or raises OPERAND_SHAPE for a value of more than
16 bits; without privilege both raise PRIVILEGED. -/
def Obligations.TableAndPrivilegedWords : Prop :=
  ∀ (s : State) (pc : Dword) (a : BitVec 5) (tid : BitVec 8) (loc : Loc) (cls : BitVec 4) (d1 : Dev), Stands s .a pc false →
    (tid ≠ 0 → ((iter s).a a).toNat % 64 = 0 → Reaches s {} ((iter s).a a) loc cls d1 → FromHome s loc →
      tidCheck tid (rowOf (getBytes s.dev loc 64)) = 0 →
      ∃ t, exec (.tidset a tid) s = .next t ∧ MemSame s t ∧ (iter t).tids[tid.toNat]? = some (some (rowOf (getBytes s.dev loc 64)))) ∧
    (tid ≠ 0 → ∃ t, exec (.tidinv tid) s = .next t ∧ MemSame s t ∧ (iter t).tids[tid.toNat]? = some none) ∧
    ((s.dev.vf (iter s).csr.vfid.toNat).priv = true →
      (∃ t, exec (.tlbinv a 2) s = .next t ∧ t.dev.tlb = []) ∧
      (∃ t, exec (.tlbinv a 0) s = .next t ∧ t.dev.tlb = s.dev.tlb.filter fun e => !e.covers (iter s).csr.asid ((iter s).a a)) ∧
      (∃ t, exec (.tlbinv a 1) s = .next t ∧ t.dev.tlb = s.dev.tlb.filter fun e => e.asid != (iter s).csr.asid) ∧
      (((iter s).a a).toNat < 2 ^ 16 → ∃ t, exec (.asidset a) s = .next t ∧ (iter t).csr.asid.toNat = ((iter s).a a).toNat ∧
        (iter t).regs = (iter s).regs) ∧
      (2 ^ 16 ≤ ((iter s).a a).toNat → exec (.asidset a) s = .next (withDev s (enterTrap s.env s.dev s.env.unit .a pc 0x02 0 0 0 0)))) ∧
    ((s.dev.vf (iter s).csr.vfid.toNat).priv = false →
      exec (.tlbinv a 2) s = .next (withDev s (enterTrap s.env s.dev s.env.unit .a pc 0x0D 0 0 0 0)) ∧
      exec (.asidset a) s = .next (withDev s (enterTrap s.env s.dev s.env.unit .a pc 0x0D 0 0 0 0)))

/-! ### The C words, traps and their return -/

/-- BR, CALL and RET (R67, R107, R114): every engine that reaches the word branches on its own; CALL pushes the address behind it on
the engine's return stack, RET pops it; a ninth push and a pop of an empty stack trap RETURN_STACK. X does the same in a handler,
with the handler's stack. -/
def Obligations.BranchWords : Prop :=
  ∀ (s : State) (e : Eng) (pc x : Dword) (o : BitVec 22) (l : List Dword),
    (∀ hand, Stands s e pc hand →
      exec (.br o) s = .next (walked s pc (Claims.found s e hand) e hand (pc + BitVec.ofInt 64 (4 * o.toInt)) .c)) ∧
    (Stands s e pc false →
      (((iter s).engine e).ret.length < 8 → exec (.call o) s = .next (walked s pc
        ((Claims.found s e false).onCore s.env.unit fun c => c.onEng e fun g => { g with ret := (pc + 4) :: g.ret }) e false
        (pc + BitVec.ofInt 64 (4 * o.toInt)) .c)) ∧
      (((iter s).engine e).ret.length = 8 →
        exec (.call o) s = .next (withDev s (enterTrap s.env s.dev s.env.unit e pc 0x08 0 0 0 0))) ∧
      (((iter s).engine e).ret = x :: l → exec .ret s = .next (walked s pc
        ((Claims.found s e false).onCore s.env.unit fun c => c.onEng e fun g => { g with ret := l }) e false x .c)) ∧
      (((iter s).engine e).ret = [] →
        exec .ret s = .next (withDev s (enterTrap s.env s.dev s.env.unit e pc 0x08 0 0 0 0)))) ∧
    (∀ h : Hand, Stands s .x pc true → (iter s).trap.hand = some h →
      let stack (r : List Dword) : Dev := s.dev.onCore s.env.unit fun c =>
        { c with trap := { c.trap with hand := c.trap.hand.map fun g => { g with ret := r } } }
      (h.ret.length < 8 →
        exec (.call o) s = .next (walked s pc (stack ((pc + 4) :: h.ret)) .x true (pc + BitVec.ofInt 64 (4 * o.toInt)) .c)) ∧
      (h.ret.length = 8 → exec (.call o) s = .next (withDev s (enterTrap s.env s.dev s.env.unit .x pc 0x08 0 0 0 0))) ∧
      (h.ret = x :: l → exec .ret s = .next (walked s pc (stack l) .x true x .c)) ∧
      (h.ret = [] → exec .ret s = .next (withDev s (enterTrap s.env s.dev s.env.unit .x pc 0x08 0 0 0 0))))

/-- Whether BRC is taken, by the decider's engine, its condition and its register (R94). -/
def Sys2Proof.Claims.brcTaken (e : Eng) (cond : BitVec 4) (r : BitVec 5) (c : TCore) : Prop :=
  let v : Dword := if e = .x then c.s r else if e = .a then c.a r else vget c.regs.c 0 r.toNat
  let hit := ∃ p, p < 512 ∧ c.inShape p = true ∧ (c.k r.toNat).getLsbD p = true
  (e ≠ .v ∧ ((cond = 0 ∧ v = 0) ∨ (cond = 1 ∧ v ≠ 0) ∨ (cond = 2 ∧ v.toInt < 0) ∨ (cond = 3 ∧ 0 ≤ v.toInt) ∨
    (cond = 4 ∧ 0 < v.toInt) ∨ (cond = 5 ∧ v.toInt ≤ 0))) ∨ (e = .v ∧ ((cond = 6 ∧ hit) ∨ (cond = 7 ∧ ¬ hit)))

/-- The decider of a decided word goes on at an address, has pushed the outcome to the other three engines, and nothing else of
the program has changed but what f says. -/
def Sys2Proof.Claims.Decides (i : Instr) (s : State) (e : Eng) (next x : Dword) (f : TCore → TCore) : Prop :=
  ∃ t, exec i s = .next t ∧ MemSame s t ∧ ((iter t).engine e).pc = next ∧ ((iter t).engine e).outs = ((iter s).engine e).outs ∧
    (iter t).regs.s = (f (iter s)).regs.s ∧ (iter t).regs.a = (f (iter s)).regs.a ∧ (iter t).regs.c = (iter s).regs.c ∧
    (iter t).q = (iter s).q ∧
    ∀ g, g ≠ e → (iter t).engine g = { (iter s).engine g with outs := ((iter s).engine g).outs ++ [x] }

/-- BRC, LOOP, LOOPR and BRX at their decider (R64, R65, R108, R109, R111): while the other three outcome queues have room, it
evaluates the word, pushes the outcome to all three and applies it. -/
def Sys2Proof.Claims.DecidedWords : Prop :=
  ∀ (s : State) (e : Eng) (pc : Dword) (cond : BitVec 4) (r : BitVec 5) (o13 : BitVec 13) (o17 : BitVec 17), Stands s e pc false →
    (∀ g, g ≠ e → ((iter s).engine g).outs.length < 32) →
    ((if e = .v then cond = 6 ∨ cond = 7 else cond.toNat ≤ 5) →
      (Claims.brcTaken e cond r (iter s) →
        Claims.Decides (.brc e cond r o13) s e (pc + BitVec.ofInt 64 (4 * o13.toInt)) 1 fun c => c) ∧
      (¬ Claims.brcTaken e cond r (iter s) → Claims.Decides (.brc e cond r o13) s e (pc + 4) 0 fun c => c)) ∧
    (e = .x → ∀ i ∈ [Instr.loop .x r o17, .loopr .x r o17],
      ((iter s).s r - 1 ≠ 0 → Claims.Decides i s .x (pc + BitVec.ofInt 64 (4 * o17.toInt)) 1 fun c => c.setS r (c.s r - 1)) ∧
      ((iter s).s r - 1 = 0 → Claims.Decides i s .x (pc + 4) 0 fun c => c.setS r (c.s r - 1))) ∧
    (e = .a → ∀ i ∈ [Instr.loop .a r o17, .loopr .a r o17],
      ((iter s).a r - 1 ≠ 0 → Claims.Decides i s .a (pc + BitVec.ofInt 64 (4 * o17.toInt)) 1 fun c => c.setA r (c.a r - 1)) ∧
      ((iter s).a r - 1 = 0 → Claims.Decides i s .a (pc + 4) 0 fun c => c.setA r (c.a r - 1))) ∧
    (e = .x → Claims.Decides (.brx .x r) s .x ((iter s).s r &&& ~~~ 3#64) ((iter s).s r &&& ~~~ 3#64) fun c => c) ∧
    (e = .a → Claims.Decides (.brx .a r) s .a ((iter s).a r &&& ~~~ 3#64) ((iter s).a r &&& ~~~ 3#64) fun c => c)

/-- A decided word at another engine than its decider (R64, R65, R110, R111): it pops the head of its outcome queue and applies
it, and waits while the queue is empty; V rotates the window with a taken LOOPR. -/
def Sys2Proof.Claims.FollowedWords : Prop :=
  ∀ (s : State) (g e : Eng) (pc x : Dword) (l : List Dword) (cond : BitVec 4) (r : BitVec 5) (o13 : BitVec 13) (o17 : BitVec 17),
    Stands s g pc false → g ≠ e →
    (((iter s).engine g).outs = [] → ∀ i ∈ [Instr.brc e cond r o13, .loop e r o17, .loopr e r o17, .brx e r],
      exec i s = .next (withDev s (setWait s.dev ⟨s.env.unit, g, pc, false⟩ { code := 5, detail := 0 }))) ∧
    (((iter s).engine g).outs = x :: l →
      ∀ i next vrb, (i, next, vrb) ∈ [
        (Instr.brc e cond r o13, (if x = 0 then pc + 4 else pc + BitVec.ofInt 64 (4 * o13.toInt)), (iter s).csr.vrb),
        (.loop e r o17, (if x = 0 then pc + 4 else pc + BitVec.ofInt 64 (4 * o17.toInt)), (iter s).csr.vrb),
        (.loopr e r o17, (if x = 0 then pc + 4 else pc + BitVec.ofInt 64 (4 * o17.toInt)),
          if g = .v ∧ x ≠ 0 then (iter s).csr.vrb - 1 else (iter s).csr.vrb),
        (.brx e r, x, (iter s).csr.vrb)] →
      exec i s = .next (walked s pc ((Claims.found s g false).onCore s.env.unit fun c =>
        { (c.onEng g fun y => { y with outs := l }) with csr := { c.csr with vrb := vrb } }) g false next .c))

/-- BRC, LOOP, LOOPR and BRX (R64, R65, R108 to R111): what the decider does and the outcome it hands on, and what an engine that
follows does with it. -/
def Obligations.DecidedForms : Prop :=
  Claims.DecidedWords ∧ Claims.FollowedWords

/-- TOK (R68): the sender raises its counter by n while it stays at most 15, the receiver lowers it by n once it holds n, the other
two engines skip; each waits with code 3 until it may. -/
def Obligations.TokenWords : Prop :=
  ∀ (s : State) (e f t : Eng) (pc : Dword) (n : BitVec 4), Stands s e pc false → f ≠ t →
    let k := 4 * f.idx.val + t.idx.val
    let x := ((iter s).tok.toList.getD k 0).toNat
    (e = f → x + n.toNat ≤ 15 → exec (.tok f t n) s = .next (walked s pc ((Claims.found s e false).onCore s.env.unit fun c =>
      { c with tok := vset c.tok k (BitVec.ofNat 4 (x + n.toNat)) }) e false (pc + 4) .c)) ∧
    (e = t → n.toNat ≤ x → exec (.tok f t n) s = .next (walked s pc ((Claims.found s e false).onCore s.env.unit fun c =>
      { c with tok := vset c.tok k (BitVec.ofNat 4 (x - n.toNat)) }) e false (pc + 4) .c)) ∧
    (e ≠ f → e ≠ t → exec (.tok f t n) s = .next (walked s pc (Claims.found s e false) e false (pc + 4) .c)) ∧
    ((e = f ∧ 15 < x + n.toNat) ∨ (e = t ∧ x < n.toNat) →
      exec (.tok f t n) s = .next (withDev s (setWait s.dev ⟨s.env.unit, e, pc, false⟩ { code := 3, detail := BitVec.ofNat 8 k })))

/-- RGN (R72): the last engine to reach it lets all four go on at the next word, each with its region entry recorded, where
every queue is empty and every token counter 0; where the lowest-numbered queue that is not empty is q.ax, the tile traps
QUEUE_PROTOCOL (R73). -/
def Sys2Proof.Claims.RegionEntry : Prop :=
  ∀ (s : State) (e : Eng) (pc : Dword), Stands s e pc false → (iter s).sfu = Vector.replicate 8 none →
    (∀ g, g ≠ e → ((iter s).engine g).walk = ((iter s).engine e).walk ∧
      ∃ w, ((iter s).engine g).wait = some w ∧ w.code = 7) →
    ((iter s).q = {} → (iter s).tok = Vector.replicate 16 0 → (∀ g, ((iter s).engine g).outs = []) →
      ∃ t, exec .rgn s = .next t ∧ MemSame s t ∧ (iter t).regs = (iter s).regs ∧
        ∀ g, ((iter t).engine g).pc = pc + 4 ∧ ((iter t).engine g).rgnPc = pc ∧
          ((iter t).engine g).rgnWalk = ((iter s).engine g).walk ∧ ((iter t).engine g).rgnRet = ((iter s).engine g).ret ∧
          ((iter t).engine g).walk = ((iter s).engine g).walk + 1) ∧
    ((iter s).q.ax ≠ [] →
      exec .rgn s = .next (withDev s (enterTrap s.env s.dev s.env.unit .x pc 0x07 0 0 0 0)))

/-- END (R113, R198): the engine that reaches it stops there, with its PC at the word: X at once; V with no result pending, while it waits
otherwise; A has placed an implicit notify behind everything in each queue and each network queue that the iteration named; M releases a
lease once its commands have completed, and waits until then, and places an implicit notify on the matrix path where the iteration closed
a slot. A full queue holds A at END (log entry 27). -/
def Sys2Proof.Claims.EndWord : Prop :=
  ∀ (s : State) (e : Eng) (pc : Dword), Stands s e pc false →
    let stops (t : State) : Prop := MemSame s t ∧ (iter t).regs = (iter s).regs ∧ (iter t).q = (iter s).q ∧
      ((iter t).engine e).stopped = true ∧ ((iter t).engine e).pc = pc ∧
      ((iter t).engine e).walk = ((iter s).engine e).walk + 1 ∧ ∀ g, g ≠ e → (iter t).engine g = (iter s).engine g
    let waits (w : Wait) : Prop := exec .endw s = .next (withDev s (setWait (Claims.found s e false) ⟨s.env.unit, e, pc, false⟩ w))
    (e = .x → ∃ t, exec .endw s = .next t ∧ stops t) ∧
    (e = .v →
      ((iter s).sfu = Vector.replicate 8 none → ∃ t, exec .endw s = .next t ∧ stops t) ∧
      ((issueTick (iter s)).sfuBusy = true → waits { code := 0, tick := true })) ∧
    (e = .a → (iter s).named.Nodup → (∀ q ∈ (iter s).named, q.toNat ≤ 5 ∨ (8 ≤ q.toNat ∧ q.toNat < 24)) →
      ((∀ q ∈ (iter s).named, q.toNat ≤ 5 → (s.dev.queue s.env.unit q.toNat).length < 32) →
        ∃ t, exec .endw s = .next t ∧ stops t ∧
          (∀ q : BitVec 5, q.toNat ≤ 5 → ∃ cs, t.dev.queue s.env.unit q.toNat = s.dev.queue s.env.unit q.toNat ++ cs ∧
            cs.length = (if q ∈ (iter s).named then 1 else 0) ∧ ∀ c ∈ cs, c.kind = .implicit ∧ c.node = (iter s).iter.node) ∧
          ∀ q : BitVec 5, 8 ≤ q.toNat → q.toNat < 24 →
            ∃ es, t.dev.stream s.env.unit (q.toNat - 8) = s.dev.stream s.env.unit (q.toNat - 8) ++ es ∧
              es.length = (if q ∈ (iter s).named then 1 else 0) ∧
              ∀ x ∈ es, x.isNotify = true ∧ x.isImplicit = true ∧ x.node = (iter s).iter.node) ∧
      ((∃ q ∈ (iter s).named, q.toNat ≤ 5 ∧ 32 ≤ (s.dev.queue s.env.unit q.toNat).length) → waits Wait.idle)) ∧
    (e = .m →
      let k := s.env.unit / 8
      ((iter s).lease.held = true → mIdle s.dev s.env.unit = false → waits Wait.idle) ∧
      ((iter s).lease.held = false ∨ mIdle s.dev s.env.unit = true → ∃ t, exec .endw s = .next t ∧ stops t ∧ (iter t).lease.held = false ∧
        ((iter s).lease.held = true → (iter t).lease.left = 0 ∧ (t.dev.cluster k).holder ≠ some s.env.unit ∧
          s.env.unit ∉ (t.dev.cluster k).reqs) ∧
        (t.dev.cluster k).notes = (s.dev.cluster k).notes ++
          (if (iter s).closed then [⟨s.env.unit, (iter s).iter.serial, ((iter s).engine .m).walk, none⟩] else [])))

/-- RGN and END (R72, R73, R113). -/
def Obligations.RegionAndEnd : Prop :=
  Claims.RegionEntry ∧ Claims.EndWord

/-- LAUNCH (R41, R42, R125): a record that the tile reads and that passes the checks is accepted: S[d] receives 0 with the STATE left, and a new node
stands for it, ready when its DEPCNT is 0; a misaligned one is refused, with code 1 and STATE 0xFF in S[d]. -/
def Obligations.LaunchWord : Prop :=
  ∀ (s : State) (pc : Dword) (hand : Bool) (d a : BitVec 5) (loc : Loc) (cls : BitVec 4) (b : List Byte) (d1 d2 : Dev),
    Stands s .x pc hand →
    (((iter s).s a).toNat % 128 ≠ 0 → ∃ t, exec (.launch d a) s = .next t ∧ (iter t).regs = ((iter s).setS d 0xFF01).regs) ∧
    (((iter s).s a).toNat % 128 = 0 →
      locate s.env s.dev { whoEng s.dev s.env.unit .x with unit := .access s.env.unit } { write := true } ((iter s).s a) =
        .ok (loc, cls) d1 →
      readRecord s.env d1 (.tile s.env.unit 0) (iter s).csr.vfid cls (some s.env.unit) loc = .ok b d2 →
      let r := putBits (leNat b) 768 64 (leNat (getBytes s.dev (loc.plus 96) 8))
      recBits r 784 4 = 0 → recCheck s.env d2 (iter s).csr.vfid r = 0 →
      let dep := recBits r 768 16
      ∃ t, exec (.launch d a) s = .next t ∧
        (iter t).regs = ((iter s).setS d (BitVec.ofNat 64 (256 * (if dep = 0 then 2 else 1)))).regs ∧
        t.dev.nodeNext = s.dev.nodeNext + 1 ∧
        ∃ x, t.dev.nodes.find s.dev.nodeNext = some x ∧ x.va = (iter s).s a ∧ x.next = 0 ∧ x.done = 0 ∧
          x.ph = (if dep = 0 then .ready else .waiting) ∧ x.copy = BitVec.ofNat 768 r)

/-- What a tile holds when it has just taken a user trap with a handler (R315): the trap registers, X at TVEC with an empty return
stack, no engine waiting, every engine where it was. -/
def Sys2Proof.Claims.Trapped (c t : TCore) (e : Eng) (pc : Dword) (code : Nat) (i0 : Dword) : Prop :=
  t.trap.cause = BitVec.ofNat 64 code ∧ t.trap.pc = pc ∧ t.trap.eng = BitVec.ofNat 64 e.idx.val ∧ t.trap.info0 = i0 ∧
  t.trap.info2 = 0 ∧ t.trap.info3 = 0 ∧ t.trap.hand = some { pc := c.csr.tvec } ∧ t.trap.undel = c.trap.undel ∧
  t.regs = c.regs ∧ t.q = c.q ∧ t.csr = c.csr ∧ t.tok = c.tok ∧
  ∀ g, t.engine g = { c.engine g with wait := none }

/-- TRAP (R128), with TVEC not 0 and no handler running: X takes SOFTWARE with the code in TINFO0 and TPC at the word; the word is
complete and counts as walked, so X is frozen behind it, and the ERET of the handler lets it go on there. -/
def Obligations.TrapWord : Prop :=
  ∀ (s : State) (pc : Dword) (code : BitVec 12), Stands s .x pc false → (iter s).csr.tvec ≠ 0 → (iter s).csr.profctl = 0 →
    encode (.trap code) = some (0x18000000 ||| code.setWidth 32) ∧
    (∃ t, exec (.trap code) s = .next t ∧ MemSame s t ∧
      Claims.Trapped ((iter s).onEng .x fun g => { g with pc := pc + 4, walk := g.walk + 1, prev := .other .x }) (iter t) .x pc 0x0C
        (code.setWidth 64) ∧ (iter t).trap.info1 = 0) ∧
    (∀ (u : State) (hp : Dword), Stands u .x hp true → ((iter u).engine .x).pc = pc + 4 → (iter u).csr.profctl = 0 →
      (iter u).trap.pendRb = none → ∃ t, exec .eret u = .next t ∧ (iter t).trap.hand = none ∧ ((iter t).engine .x).pc = pc + 4)

/-- A word that does not decode (R60, R101, R315), with TVEC not 0 and no handler running: it raises ILLEGAL_WORD on its owner, on the
engine that reaches it when its TAG names no owner, with the word in TINFO0 and the kind of fault in TINFO1. -/
def Sys2Proof.Claims.ReservedWords : Prop :=
  ∀ (s : State) (e : Eng) (pc : Dword) (w : Word) (k : BadWord), Stands s e pc false → (iter s).csr.tvec ≠ 0 →
    (iter s).csr.profctl = 0 →
    (w.extractLsb' 29 3 = 6 ∨ w.extractLsb' 29 3 = 7 ∨ w.extractLsb' 29 3 = 4 ∨ (w.extractLsb' 29 3).toNat = e.idx.val) →
      ∃ t, exec (.reservedWord w k) s = .next t ∧ MemSame s t ∧ Claims.Trapped (iter s) (iter t) e pc 0x01 (w.setWidth 64) ∧
        (iter t).trap.info1 = (match k with
          | .reservedTag => 0
          | .unassigned => 1
          | .fieldValue => 2
          | .reservedBits => 3
          | .extIllegal => 4
          | .extThird => 5)

/-- A user trap with TVEC 0, or of X while a handler runs, is undeliverable (R316), whatever its code, its engine and what it reports: no
handler runs for it and the tile stays frozen; with TVEC 0 the trap registers hold it, and within a handler they keep the first trap. So it
is for the TRAP word and for a word that does not decode. -/
def Sys2Proof.Claims.UndeliverableTrap : Prop :=
  ∀ (s : State) (e : Eng) (pc : Dword) (code : Nat) (i0 i1 i2 i3 : Dword) (n : BitVec 12) (w : Word) (k : BadWord) (h : Hand),
    let frozen (t : State) : Prop := (iter t).trap.undel = true ∧ ∀ g, ready t.dev t.env.unit g = .no
    let holds (t : State) (e : Eng) (c : Nat) (i : Dword) : Prop := frozen t ∧ (iter t).trap.hand = none ∧
      (iter t).trap.cause = BitVec.ofNat 64 c ∧ (iter t).trap.pc = pc ∧ (iter t).trap.eng = BitVec.ofNat 64 e.idx.val ∧ (iter t).trap.info0 = i
    let t := withDev s (enterTrap s.env s.dev s.env.unit e pc code i0 i1 i2 i3)
    ((iter s).csr.tvec = 0 → (iter s).trap.hand = none → holds t e code i0 ∧ (iter t).trap.info1 = i1 ∧ (iter t).trap.info2 = i2 ∧
      (iter t).trap.info3 = i3) ∧
    ((iter s).trap.hand = some h → frozen t ∧ (iter t).trap = { (iter s).trap with undel := true }) ∧
    ((iter s).csr.tvec = 0 → Stands s .x pc false → ∃ t, exec (.trap n) s = .next t ∧ holds t .x 0x0C (n.setWidth 64)) ∧
    ((iter s).csr.tvec = 0 → Stands s e pc false →
      (w.extractLsb' 29 3 = 6 ∨ w.extractLsb' 29 3 = 7 ∨ w.extractLsb' 29 3 = 4 ∨ (w.extractLsb' 29 3).toNat = e.idx.val) →
      ∃ t, exec (.reservedWord w k) s = .next t ∧ holds t e 0x01 (w.setWidth 64))

/-- A word that does not decode traps (R60, R101, R315), and a trap with TVEC 0 freezes the tile (R316). -/
def Obligations.TrapsOfReservedWords : Prop :=
  Claims.ReservedWords ∧ Claims.UndeliverableTrap

/-- ERET (R129): it ends the handler, and every engine stands where it was frozen; with no handler running it raises ILLEGAL_WORD
with TINFO1 1. -/
def Obligations.ReturnFromTrap : Prop :=
  ∀ (s : State) (pc : Dword),
    (Stands s .x pc true → (iter s).csr.profctl = 0 → (iter s).trap.pendRb = none →
      ∃ t, exec .eret s = .next t ∧ MemSame s t ∧ (iter t).trap.hand = none ∧ (iter t).eng = (iter s).eng ∧
        (iter t).regs = (iter s).regs ∧ (iter t).q = (iter s).q ∧ (iter t).csr = (iter s).csr) ∧
    (Stands s .x pc false →
      exec .eret s = .next (withDev s (enterTrap s.env s.dev s.env.unit .x pc 0x01 0x18400000 1 0 0)))
/-! ### Commands, maps, remote words and fences -/

/-- A word of A places a command at the tail of a queue: its operands are those of A[b] on, its target kind k with A[a], under the
ASID of the moment; nothing else of the program or of the other queues changes. -/
def Sys2Proof.Claims.Places (i : Instr) (s : State) (pc : Dword) (kind : CmdKind) (n : Nat) (a b : BitVec 5) (k : BitVec 2) (q : Nat) : Prop :=
  ∃ t c, exec i s = .next t ∧ MemSame s t ∧ (iter t).regs = (iter s).regs ∧ ((iter t).engine .a).pc = pc + 4 ∧
    t.dev.queue s.env.unit q = s.dev.queue s.env.unit q ++ [c] ∧
    (∀ p, p < 6 → p ≠ q → t.dev.queue s.env.unit p = s.dev.queue s.env.unit p) ∧
    c.kind = kind ∧ c.ops = (List.range n).map (fun j => (iter s).a (b + BitVec.ofNat 5 j)) ∧ c.tk = k ∧ c.tgt = (iter s).a a ∧
    c.asid = (iter s).csr.asid ∧ c.vf = (iter s).csr.vfid ∧ c.off = 0 ∧ c.stall = none

/-- COPY, COPY2D, GATHER, SCATTER, XFER, XFERM and NOTIFY (R147, R151 to R155): with room in the queue, the target aligned and the
checks of the command passed, the command stands at the tail of its queue and A goes on; a COPY of no bytes completes at once,
with its record. -/
def Sys2Proof.Claims.CommandWords : Prop :=
  ∀ (s : State) (pc : Dword) (a b : BitVec 5) (k : BitVec 2) (q : BitVec 5) (x y : Row), Stands s .a pc false → q.toNat ≤ 5 →
    (k.toNat < 2 → ((iter s).a a).toNat % 16 = 0) → (s.dev.queue s.env.unit q.toNat).length < 32 →
    let op (j : Nat) : Dword := (iter s).a (b + BitVec.ofNat 5 j)
    (0 < (op 2).toNat → (op 2).toNat < 2 ^ 40 → Claims.Places (.copy a b k q) s pc .copy 3 a b k q.toNat) ∧
    (0 < (op 2).toNat → 0 < (op 3).toNat → (op 2).toNat < 2 ^ 32 → (op 3).toNat < 2 ^ 32 → (op 2).toNat * (op 3).toNat < 2 ^ 40 →
      Claims.Places (.copy2d a b k q) s pc .copy2d 6 a b k q.toNat) ∧
    (tidOf (iter s).tids ((op 0).toNat % 256) = some x → tidOf (iter s).tids ((op 0).toNat / 256 % 256) = some y →
      tFmt x = tFmt y → tSize x 0 = tSize y 0 → tWritable y = true → (op 0).toNat < 2 ^ 16 → (op 1).toNat % 4 = 0 →
      (op 2).toNat < 2 ^ 32 → 0 < (op 2).toNat * tLineBytes x →
      ((op 3).toNat + (op 2).toNat ≤ tLines y → Claims.Places (.gather a b k q) s pc .gather 4 a b k q.toNat) ∧
      ((op 3).toNat + (op 2).toNat ≤ tLines x → Claims.Places (.scatter a b k q) s pc .scatter 4 a b k q.toNat)) ∧
    (tidOf (iter s).tids ((op 0).toNat % 256) = some x → tKey x ≠ 0 → tFmt x ≠ 8 → tFmt x ≠ 9 → (op 0).toNat < 2 ^ 8 →
      let c : Cmd := { kind := .xfer, ops := (List.range 7).map op, src := some x }
      (∀ j, j < 4 → 0 < c.ext j ∧ c.org j + c.ext j ≤ tSize x j ∧ (tRank x ≤ j → c.ext j ≤ 1)) → 0 < c.bytes →
      (targetOk s.env (op 5) = true → Claims.Places (.xfer a b k q) s pc .xfer 6 a b k q.toNat) ∧
      ((op 5).toNat % 8 = 0 → 1 ≤ (op 6).toNat → (op 6).toNat ≤ 64 → Claims.Places (.xferm a b k q) s pc .xferm 7 a b k q.toNat)) ∧
    Claims.Places (.notify a k q) s pc .notify 0 a 0 k q.toNat ∧
    (op 2 = 0 → k = 2 → (iter s).ev.length < 256 → ∃ t, exec (.copy a b k q) s = .next t ∧ MemSame s t ∧
      t.dev.queue s.env.unit q.toNat = s.dev.queue s.env.unit q.toNat ∧
      (iter t).ev = (iter s).ev ++ [(cmdRecord ((iter s).a a) 0 0 q.toNat 0, getPts s.dev (.tile s.env.unit (aqPath q.toNat)))])

/-- The first check of a command that fails is the one reported, with nothing changed but the trap (R147, R150): a target that is
not a multiple of 16 is MISALIGNED; COPY with 2^40 bytes or more is OPERAND_SHAPE of register 2. -/
def Sys2Proof.Claims.CommandTraps : Prop :=
  ∀ (s : State) (pc : Dword) (a b : BitVec 5) (k : BitVec 2) (q : BitVec 5), Stands s .a pc false →
    (k.toNat < 2 → ((iter s).a a).toNat % 16 ≠ 0 →
      ∀ i ∈ [Instr.copy a b k q, .copy2d a b k q, .gather a b k q, .scatter a b k q, .xfer a b k q, .xferm a b k q, .notify a k q],
        exec i s = .next (withDev s (enterTrap s.env s.dev s.env.unit .a pc 0x0B ((iter s).a a) 16 0 0))) ∧
    ((k.toNat < 2 → ((iter s).a a).toNat % 16 = 0) → 2 ^ 40 ≤ ((iter s).a (b + 2)).toNat →
      exec (.copy a b k q) s = .next (withDev s (enterTrap s.env s.dev s.env.unit .a pc 0x02 2 ((iter s).a (b + 2)) 0 0)))

/-- The words that place a command in an asynchronous queue (R147, R150 to R155): what is placed, and where they trap instead. -/
def Obligations.CommandForms : Prop :=
  Claims.CommandWords ∧ Claims.CommandTraps

/-- MAPINST, MAPSWAP, MAPRET and MAPQ (R156, R157): with a selector that names a slot in the state the word asks for, and a
descriptor that passes its checks, the slot takes the new generation; a swapped one drains; MAPRET retires the draining
generation, and makes an active one drain first; MAPSWAP and MAPRET wait for the unperformed writes of one that drains already; MAPQ gives A[d]
the slot's word. -/
def Sys2Proof.Claims.MapWords : Prop :=
  ∀ (s : State) (pc : Dword) (a b d : BitVec 5) (sel : MapSel) (m : Nat) (d2 : Dev), Stands s .a pc false →
    mapSel s.env s.dev s.env.unit ((iter s).a b) = some sel →
    (((iter s).a a).toNat % 128 = 0 → readDesc s.env s.env.unit ((iter s).a a) s.dev = .ok m d2 →
      mapCheck d2 sel (iter s).csr.vfid m = 0 →
      let g := mapGen s.dev.genNo ((iter s).a a) (iter s).csr.vfid s.env.unit m
      ((mapSlot s.dev sel).act = none → (mapSlot s.dev sel).drain = none →
        ∃ t, exec (.mapinst a b) s = .next t ∧ MemSame s t ∧ (iter t).regs = (iter s).regs ∧
          mapSlot t.dev sel = { act := some g, drain := none }) ∧
      (∀ g0, (mapSlot s.dev sel).act = some g0 → drained s.dev (mapSlot s.dev sel).drain = true →
        ∃ t, exec (.mapswap a b) s = .next t ∧ MemSame s t ∧ (iter t).regs = (iter s).regs ∧
          mapSlot t.dev sel = { act := some g, drain := some g0 })) ∧
    (∀ g0, (mapSlot s.dev sel).drain = some g0 → pendOf s.dev g0 = 0 →
      ∃ t, exec (.mapret b) s = .next t ∧ MemSame s t ∧ (iter t).regs = (iter s).regs ∧
        mapSlot t.dev sel = { act := (mapSlot s.dev sel).act, drain := none }) ∧
    ((mapSlot s.dev sel).act ≠ none → (mapSlot s.dev sel).drain = none → exec (.mapret b) s = .next (withDev s (setWait
      (setMapSlot s.dev sel { act := none, drain := (mapSlot s.dev sel).act }) ⟨s.env.unit, .a, pc, false⟩ Wait.idle))) ∧
    (∀ g0, (mapSlot s.dev sel).drain = some g0 → pendOf s.dev g0 ≠ 0 →
      exec (.mapret b) s = .next (withDev s (setWait s.dev ⟨s.env.unit, .a, pc, false⟩ Wait.idle)) ∧
      ((mapSlot s.dev sel).act ≠ none → ((iter s).a a).toNat % 128 = 0 →
        exec (.mapswap a b) s = .next (withDev s (setWait s.dev ⟨s.env.unit, .a, pc, false⟩ Wait.idle)))) ∧
    (∃ t, exec (.mapq d b) s = .next t ∧ MemSame s t ∧ mapSlot t.dev sel = mapSlot s.dev sel ∧
      (iter t).regs = ((iter s).setA d (BitVec.ofNat 64
        ((match (mapSlot s.dev sel).act with
          | some g => g.key.toNat * 2 ^ 40 + g.prio.toNat * 2 ^ 36 + 1
          | none => 0) + (match (mapSlot s.dev sel).drain with
          | some g => min (pendOf s.dev g) (2 ^ 24 - 1) * 256 + 2
          | none => 0)))).regs)

/-- MAP_DESCRIPTOR (R157): a selector that names no slot reports 16, MAPINST on a slot in use 17, MAPSWAP without an active
generation 18, MAPRET on a free slot 19; no slot changes. -/
def Sys2Proof.Claims.MapTraps : Prop :=
  ∀ (s : State) (pc : Dword) (a b d : BitVec 5), Stands s .a pc false →
    let trapped (i : Instr) (n : Dword) : Prop := exec i s = .next (withDev s (enterTrap s.env s.dev s.env.unit .a pc 0x0A n 0 0 0))
    (mapSel s.env s.dev s.env.unit ((iter s).a b) = none → trapped (.mapret b) 16 ∧ trapped (.mapq d b) 16 ∧
      (((iter s).a a).toNat % 128 = 0 → trapped (.mapinst a b) 16 ∧ trapped (.mapswap a b) 16)) ∧
    (∀ sel, mapSel s.env s.dev s.env.unit ((iter s).a b) = some sel →
      (((iter s).a a).toNat % 128 = 0 →
        ((mapSlot s.dev sel).act ≠ none ∨ (mapSlot s.dev sel).drain ≠ none → trapped (.mapinst a b) 17) ∧
        ((mapSlot s.dev sel).act = none → trapped (.mapswap a b) 18)) ∧
      ((mapSlot s.dev sel).act = none → (mapSlot s.dev sel).drain = none → trapped (.mapret b) 19))

/-- MAPINST, MAPSWAP, MAPRET and MAPQ (R156, R157): their effect, and where they trap instead. -/
def Obligations.MapForms : Prop :=
  Claims.MapWords ∧ Claims.MapTraps

/-- RLD, RST, RSTF and RAMO (R159, R276, R282, R283): aligned operands, an owner that can be reached, room in the stream, and no earlier
packet to the page that waits for a path, and no request of another class before it on its sub-link that it may not pass (log entry 88):
the access stands at the tail of its stream with its target and path; a store has the next SSN of its stream to that target. -/
def Sys2Proof.Claims.RemoteWords : Prop :=
  ∀ (i : Instr) (s : State) (pc : Dword) (a b : BitVec 5) (o f : Bool) (n : BitVec 4) (r : RemReq) (dest : BitVec 6) (p : BitVec 2)
    (body : List Byte) (d1 d2 d3 : Dev) (al : List (Dword × Nat)), Stands s .a pc false →
    (i, al, r) ∈ [
      (Instr.rld a b n, [((iter s).a a, 128), ((iter s).a b, 128)],
        { kind := .rld, va := (iter s).a a, s := n.toNat, local_ := (iter s).a b : RemReq }),
      (.rst a b f n, [((iter s).a a, 128), ((iter s).a b, 128), ((iter s).a (b + 1), 16)],
        { kind := .rst, va := (iter s).a a, s := n.toNat, local_ := (iter s).a b, flag := (iter s).a (b + 1), fl := f }),
      (.rstf a b o f n, [((iter s).a a, 16)],
        { kind := .rstf, va := (iter s).a a, s := n.toNat, body := natLe 8 ((iter s).a b).toNat, fl := f, ord := o }),
      (.ramo a b f n, [((iter s).a a, if ((iter s).a b).getLsbD 4 then 8 else 4), ((iter s).a (b + 2), 16), ((iter s).a (b + 3), 8)],
        { kind := .ramo, va := (iter s).a a, s := n.toNat, local_ := (iter s).a (b + 3), flag := (iter s).a (b + 2),
          body := natLe 8 ((iter s).a (b + 1)).toNat, fl := f, aop := ((iter s).a b).extractLsb' 0 4, aw := ((iter s).a b).getLsbD 4 })] →
    (∀ x ∈ al, x.1.toNat % x.2 = 0) →
    (r.kind = .ramo → ((iter s).a b).toNat < 32 ∧ ((iter s).a b).toNat % 16 ≤ 9 ∧ ((iter s).a b).toNat ≠ 25) →
    remDest s.env (whoTile s.dev s.env.unit) (r.kind != .rld) r.va s.dev = .ok dest d1 → remLocal s.env s.env.unit r d1 = .ok () d2 →
    streamFull (d2.stream s.env.unit r.s) r.kind = false → sendWaits s.env d2 (iter s).csr.vfid (pageOf r.va) = false →
    (dest = s.env.caps.devid ∨ (reachable s.env d2 dest.toNat = true ∧ d2.peersLost.getLsbD dest.toNat = false)) →
    (dest = s.env.caps.devid → outstanding d2 (iter s).csr.vfid (pageOf r.va) (fun x => x.via != dest) = false) →
    pathFor s.env d2 s.env.unit dest = some p →
    (dest ≠ s.env.caps.devid → mustWait d2 p.toNat dest.toNat (.remote s.env.caps.devid (newEntry s.env s.env.unit r dest d2).hdr [])
      (rkOp r.kind).toNat = false) →
    remBody s.env s.env.unit r d2 = .ok body d3 →
    ∃ t e, exec i s = .next t ∧ MemSame s t ∧ (iter t).regs = (iter s).regs ∧ ((iter t).engine .a).pc = pc + 4 ∧
      t.dev.stream s.env.unit r.s = s.dev.stream s.env.unit r.s ++ [e] ∧
      e.isNotify = false ∧ e.kind = r.kind ∧ e.va = r.va ∧ e.local_ = r.local_ ∧ e.target = dest ∧ e.via = dest ∧ e.path = p ∧
      (r.kind ≠ .rld → e.ssn = (iter s).net.ssn.get 0 (r.s * 64 + dest.toNat) + 1 ∧
        (iter t).net.ssn.get 0 (r.s * 64 + dest.toNat) = e.ssn)

/-- NOTIFY on a stream of remote words (R155, R160): with its target aligned, the notify stands at the tail of the stream, and
reports STATUS 1 where an access of the stream failed with no notify behind it. That only the first NOTIFY reports it, since it clears the
stream's mark, is the model's reading (log entry 39). -/
def Sys2Proof.Claims.NotifyOnStream : Prop :=
  ∀ (s : State) (pc : Dword) (a : BitVec 5) (k : BitVec 2) (q : BitVec 5), Stands s .a pc false → 8 ≤ q.toNat → q.toNat < 24 →
    (k.toNat < 2 → ((iter s).a a).toNat % 16 = 0) →
    ∃ t e, exec (.notify a k q) s = .next t ∧ MemSame s t ∧ (iter t).regs = (iter s).regs ∧
      t.dev.stream s.env.unit (q.toNat - 8) = s.dev.stream s.env.unit (q.toNat - 8) ++ [e] ∧
      e.isNotify = true ∧ e.tk = k ∧ e.tgt = (iter s).a a ∧ e.failed = (iter s).net.bad.getLsbD (q.toNat - 8) ∧
      (iter t).net.bad.getLsbD (q.toNat - 8) = false

/-- RLD, RST, RSTF, RAMO and NOTIFY on a network queue (R155, R159, R160, R276, R282, R283): what waits in the queue behind the
word. -/
def Obligations.RemoteForms : Prop :=
  Claims.RemoteWords ∧ Claims.NotifyOnStream

/-- FENCEX, MARK and JOIN (R158, R245): A goes on once every path that the word waits on is done, and then the pts of each path of m0 is
at least that of each path it waited on; until then it waits, with nothing stored and no register changed, and only where it waits on the
network path are FLUSH packets sent. FENCEX waits on the paths of m1; JOIN on those of the marker in A[a], for the words before that marker,
and on all paths up to here where A[a] holds no marker; MARK gives A[d] a marker without waiting. -/
def Obligations.FenceWords : Prop :=
  ∀ (s : State) (pc : Dword) (d a : BitVec 5) (m n : BitVec 6), Stands s .a pc false →
    let at_ : At := ⟨s.env.unit, .a, pc, false⟩
    let walk : Dword := ((iter s).engine .a).walk
    let acts (i : Instr) (m1 : BitVec 6) (w : Dword) : Prop :=
      ((∀ p, p < 6 → m1.getLsbD p = true → pathDone s.dev s.env.unit w p = true) →
        ∃ t, exec i s = .next t ∧ MemSame s t ∧ (iter t).regs = (iter s).regs ∧ ((iter t).engine .a).pc = pc + 4 ∧
          ∀ p q, p < 6 → q < 6 → n.getLsbD p = true → m1.getLsbD q = true →
            (getPts t.dev (.tile s.env.unit q)).toNat ≤ (getPts t.dev (.tile s.env.unit p)).toNat) ∧
      (∀ q, q < 6 → m1.getLsbD q = true → pathDone s.dev s.env.unit w q = false →
        (∃ t, exec i s = .next t ∧ MemSame s t ∧ (iter t).regs = (iter s).regs ∧ ((iter t).engine .a).pc = pc ∧
          ((iter t).engine .a).walk = walk ∧ ((iter t).engine .a).wait = some Wait.idle) ∧
        (m1.getLsbD 4 = false ∨ pathDone s.dev s.env.unit w 4 = true → exec i s = .next (withDev s (setWait s.dev at_ Wait.idle))))
    let marker : Option Marker := (iter s).markers.find? fun j => BitVec.ofNat 64 (j.seq * 256 + j.paths.toNat) == (iter s).a a
    acts (.fencex m n) m walk ∧
    (∀ k, marker = some k → acts (.join a n) k.paths k.walk) ∧
    (marker = none → acts (.join a n) 63 walk) ∧
    (∃ t, exec (.mark d m) s = .next t ∧ MemSame s t ∧
      (iter t).regs = ((iter s).setA d (BitVec.ofNat 64 (((iter s).mseq + 1) * 256 + m.toNat))).regs ∧
      ((iter t).engine .a).pc = pc + 4)
/-! ### The arithmetic of the data formats -/

/-- Whether an encoding of a floating-point format is a finite number (R9). -/
def Sys2Proof.Claims.finite (f : FFmt) (x : Nat) : Prop := x < 2 * f.sign ∧ x % f.sign ≤ f.maxB

/-- The value of a finite encoding of a format (R9). -/
def Sys2Proof.Claims.value (f : FFmt) (x : Nat) : ℚ :=
  let ex : Nat := x % f.sign / 2 ^ f.frac
  let fr : Nat := x % 2 ^ f.frac
  (if x / f.sign % 2 = 1 then -1 else 1) * ((if ex = 0 then fr * 2 else (2 ^ f.frac + fr) * 2 ^ ex : Nat) : ℚ) / 2 ^ (f.bias + f.frac)

/-- Whether a rounding takes q towards zero (R18). -/
def Sys2Proof.Claims.Toward (r : Rnd) (q : ℚ) : Prop := r = .rtz ∨ (r = .rdn ∧ 0 < q) ∨ (r = .rup ∧ q < 0)

/-- Whether q, rounded with an unbounded exponent, exceeds the largest finite value of a format (R18): in the nearest rounding a tie goes
to the even encoding, which for E4M3 is the largest finite one. -/
def Sys2Proof.Claims.OutOfRange (f : FFmt) (r : Rnd) (q : ℚ) : Prop :=
  let top := Claims.value f f.maxB
  let unit : ℚ := 2 ^ (f.maxB / 2 ^ f.frac) / 2 ^ (f.bias + f.frac)
  (r = .rne ∧ (top + unit / 2 < |q| ∨ (|q| = top + unit / 2 ∧ f.maxB % 2 = 1))) ∨
  (Claims.Toward r q ∧ top + unit ≤ |q|) ∨ (r ≠ .rne ∧ ¬ Claims.Toward r q ∧ top < |q|)

/-- Whether q, rounded with an unbounded exponent, is below the smallest normal number of a format (R17). -/
def Sys2Proof.Claims.Tiny (f : FFmt) (r : Rnd) (q : ℚ) : Prop :=
  let least : ℚ := 2 / 2 ^ f.bias
  let unit : ℚ := 1 / 2 ^ (f.bias + f.frac)
  (r = .rne ∧ |q| < least - unit / 2) ∨ (Claims.Toward r q ∧ |q| < least) ∨ (r ≠ .rne ∧ ¬ Claims.Toward r q ∧ |q| ≤ least - unit)

/-- An encoding is the rounding of q other than 0 to a format, in a direction (R18): the nearest finite value, a tie to the even encoding; the
nearest one towards zero, below or above. -/
def Sys2Proof.Claims.InRange (f : FFmt) (r : Rnd) (q : ℚ) (b : Nat) : Prop :=
  let x := Claims.value f b
  Claims.finite f b ∧ (b / f.sign % 2 = 1 ↔ q < 0) ∧ ∀ v, Claims.finite f v →
    let y := Claims.value f v
    match r with
    | .rne => |x - q| ≤ |y - q| ∧ (|y - q| = |x - q| → y ≠ x → b % 2 = 0)
    | .rtz => |x| ≤ |q| ∧ (|y| ≤ |q| → |y| ≤ |x|)
    | .rdn => x ≤ q ∧ (y ≤ q → y ≤ x)
    | .rup => q ≤ x ∧ (q ≤ y → x ≤ y)

/-- What the conversion of an FP32 value to a narrower floating-point format delivers, and its flags (R17, R18). -/
def Sys2Proof.Claims.Converted (f : FFmt) (r : Rnd) (sat : Bool) (x : Word) (y : Nat × FFlags) : Prop :=
  let sg (b : Nat) : Nat := if x.getLsbD 31 then f.sign + b else b
  let q := Claims.value32 x
  (Claims.nan32 x → y = (f.nanB, 0)) ∧
  (Claims.inf32 x → y = if sat then (sg f.maxB, fInexact) else (sg f.infB, if f.hasInf then 0 else fInvalid)) ∧
  (Claims.fin32 x → q = 0 → y = (sg 0, 0)) ∧
  (Claims.fin32 x → q ≠ 0 → Claims.OutOfRange f r q →
    (sat = true ∨ Claims.Toward r q → y = (sg f.maxB, fOverflow ||| fInexact)) ∧
    (sat = false → ¬ Claims.Toward r q → y = (sg f.infB, fOverflow ||| (if f.hasInf then fInexact else fInvalid)))) ∧
  (Claims.fin32 x → q ≠ 0 → ¬ Claims.OutOfRange f r q →
    Claims.InRange f r q y.1 ∧ (Claims.value f y.1 = q → y.2 = 0) ∧
    (Claims.value f y.1 ≠ q → (Claims.Tiny f r q → y.2 = fInexact ||| fUnderflow) ∧ (¬ Claims.Tiny f r q → y.2 = fInexact)))

/-- An integer is the rounding of q in a direction. -/
def Sys2Proof.Claims.IntRounded (r : Rnd) (q : ℚ) (n : Int) : Prop :=
  match r with
  | .rne => |q - n| ≤ 1 / 2 ∧ (|q - n| = 1 / 2 → n % 2 = 0)
  | .rtz => n = if 0 ≤ q then ⌊q⌋ else ⌈q⌉
  | .rdn => n = ⌊q⌋
  | .rup => n = ⌈q⌉

/-- The conversions of the pack words (R17, R18, R216): to BF16, FP16, E4M3 and E5M2, and to an 8-bit integer, signed or unsigned, whose low
8 bits are delivered where a finite value is out of range and saturation is off. -/
def Sys2Proof.Claims.ConversionValues : Prop :=
  ∀ (r : Rnd) (sat : Bool) (x : Word),
    (∀ f ∈ [bf16, fp16, e4m3, e5m2], Claims.Converted f r sat x (f.conv r sat (num32 x))) ∧
    ∀ lo hi : Int, (lo, hi) ∈ [((-128 : Int), (127 : Int)), (0, 255)] →
      let y := toInt8 lo hi r sat (num32 x)
      (Claims.nan32 x → y = (0, fInvalid)) ∧
      (Claims.inf32 x → y = (((if x.getLsbD 31 then lo else hi) % 256).toNat, fInvalid)) ∧
      (Claims.fin32 x → ∃ n : Int, Claims.IntRounded r (Claims.value32 x) n ∧
        if lo ≤ n ∧ n ≤ hi then y = ((n % 256).toNat, if (n : ℚ) = Claims.value32 x then 0 else fInexact)
        else y = (((if sat then (if n < lo then lo else hi) else n) % 256).toNat, fInvalid))

/-- The result of a BF16 word (R10, R16, R17): the FP32 result, rounded once more to BF16, in bits [31:16] with zero below, with the flags of
both roundings; its operands are bits [31:16] with [15:0] ignored. The fused word that subtracts rounds c - a b once. -/
def Sys2Proof.Claims.BfValues : Prop :=
  ∀ (w a b c : Word) (f : FFlags),
    (∃ (v : Nat) (g : FFlags), toBf (w, f) = (BitVec.ofNat 32 (v * 65536), f ||| g) ∧ v < 65536 ∧
      Claims.Converted bf16 .rne false w (v, g)) ∧
    (bfArg w).toNat = w.toNat / 65536 * 65536 ∧
    (Claims.fin32 a → Claims.fin32 b → Claims.fin32 c → Claims.value32 c - Claims.value32 a * Claims.value32 b ≠ 0 →
      Claims.Rounded32 (Claims.value32 c - Claims.value32 a * Claims.value32 b) (f32Fms a b c))

/-- A word is the FP32 rounding of q; a zero has the sign given (R15). -/
def Sys2Proof.Claims.Rne32 (q : ℚ) (neg : Bool) (r : Word) : Prop :=
  if q = 0 then r = (if neg then 0x80000000 else 0) else ∃ f, Claims.Rounded32 q (r, f)

/-- The value of a number that is neither a NaN nor an infinity. -/
def Sys2Proof.Claims.rat : Machine.Num → Option ℚ
  | .nan => none
  | .inf _ => none
  | .fin neg m e => some ((if neg then -1 else 1) * m * (2 : ℚ) ^ e)

/-- The elements of a matrix operand as exact numbers (R8 to R11, R20): the value of the format, an integer, the level of a GQ4 code; their
products are exact. -/
def Sys2Proof.Claims.ElementValues : Prop :=
  (∀ (fmt : Nat) (f : FFmt) (x : Word), (fmt, f) ∈ [(0, fp32), (1, bf16), (2, fp16), (3, e4m3), (4, e5m2)] → Claims.finite f x.toNat →
    Claims.rat (elemNum fmt x) = some (Claims.value f x.toNat)) ∧
  (∀ x : Word, Claims.rat (elemNum 5 x) = some ((x.setWidth 8).toInt : ℚ)) ∧
  (∀ q : Nat, q < 16 → Claims.rat (elemNum 8 (BitVec.ofNat 32 q)) =
    some ((([-512, -356, -268, -202, -146, -96, -47, 0, 40, 82, 126, 172, 224, 286, 368, 512].getD q 0 : Int) : ℚ) / 512)) ∧
  (∀ (x y : Machine.Num) (p q : ℚ), Claims.rat x = some p → Claims.rat y = some q →
    Claims.rat (x.mul y) = some (p * q) ∧ (x.mul y).isNeg = (x.isNeg != y.isNeg)) ∧
  ∀ (fa fb : Nat) (x y : Word), posProd fa fb (some x) (some y) = (elemNum fa x).mul (elemNum fb y) ∧
    Claims.rat (posProd fa fb none (some y)) = some 0 ∧ (posProd fa fb none (some y)).isNeg = false

/-- The sum of a group (R20, R21): exact; -0 only where every product is; a NaN among the products, or opposite infinities, give a NaN, an
infinity without its opposite passes. -/
def Sys2Proof.Claims.GroupSums : Prop :=
  ∀ (l : List Machine.Num) (qs : List ℚ), l ≠ [] →
    (l.map Claims.rat = qs.map some → Claims.rat (exactSum l) = some qs.sum ∧
      (qs.sum = 0 → ((exactSum l).isNeg = true ↔ ∀ x ∈ l, x.isNeg = true ∧ Claims.rat x = some 0))) ∧
    (.nan ∈ l ∨ (.inf true ∈ l ∧ .inf false ∈ l) → exactSum l = .nan) ∧
    ∀ neg, .nan ∉ l → .inf neg ∈ l → .inf (!neg) ∉ l → exactSum l = .inf neg

/-- A group sum into an accumulator (R13, R20, R21). FP32: the sum rounds once, the scale of a GQ4 block multiplies it with one rounding, the
sum with the accumulator rounds once; an infinity that comes from finite operands raises ACC_INF. FP16: the sum rounds once to FP32, and its
sum with the accumulator once to FP16, clamped with SAT_F16; what a tiny negative sum leaves is log entry 81. INT32: exact, clamped with
SAT_I32. NaNs and infinities as R21 gives them. -/
def Sys2Proof.Claims.AccumulatorValues : Prop :=
  ∀ (s : Machine.Num) (q : ℚ) (n : Int) (scale : Option Word) (acc : Word),
    (Claims.rat s = some q → Claims.fin32 acc → (∀ w, scale = some w → Claims.fin32 w) →
      let r := accFp32 s scale acc
      ∃ g h : Word, Claims.Rne32 q s.isNeg g ∧ (scale = none → h = g) ∧
        (∀ w, scale = some w →
          (Claims.fin32 g → Claims.Rne32 (Claims.value32 g * Claims.value32 w) (g.getLsbD 31 != w.getLsbD 31) h) ∧
          (Claims.inf32 g → Claims.value32 w ≠ 0 → h = if g.getLsbD 31 != w.getLsbD 31 then 0xFF800000 else 0x7F800000) ∧
          (Claims.inf32 g → Claims.value32 w = 0 → Claims.nan32 h ∧ r = (0x7FC00000, mNanIn))) ∧
        (Claims.fin32 h → Claims.Rne32 (Claims.value32 acc + Claims.value32 h) (acc.getLsbD 31 && h.getLsbD 31) r.1 ∧
          r.2 = if Claims.inf32 r.1 then mAccInf else 0) ∧
        (Claims.inf32 h → r = (h, mAccInf))) ∧
    (accFp32 .nan scale acc = (0x7FC00000, mNanIn)) ∧
    (Claims.rat s = some q → Claims.nan32 acc → |q| < 2 ^ 100 → accFp32 s none acc = (0x7FC00000, 0)) ∧
    (∀ neg, Claims.fin32 acc → accFp32 (.inf neg) none acc = (if neg then 0xFF800000 else 0x7F800000, 0)) ∧
    (∀ neg, acc = (if neg then 0x7F800000 else 0xFF800000) → accFp32 (.inf neg) none acc = (0x7FC00000, mNanIn)) ∧
    (Claims.rat s = some q → Claims.finite fp16 acc.toNat →
      let r := accFp16 s acc
      ∃ g : Word, Claims.Rne32 q s.isNeg g ∧
        (Claims.inf32 g → r = (if g.getLsbD 31 then 0xFC00 else 0x7C00, 0)) ∧
        (Claims.fin32 g →
          let z := Claims.value fp16 acc.toNat + Claims.value32 g
          (z = 0 → r = (if acc.getLsbD 15 && g.getLsbD 31 then 0x8000 else 0, 0)) ∧
          (z ≠ 0 → Claims.OutOfRange fp16 .rne z → r = (if z < 0 then 0xFBFF else 0x7BFF, mSatF16)) ∧
          (z ≠ 0 → ¬ Claims.OutOfRange fp16 .rne z → ∃ v, Claims.InRange fp16 .rne z v ∧
            r = (BitVec.ofNat 32 (if v = 0x8000 then 0 else v), 0)))) ∧
    (accFp16 .nan acc = (0x7E00, mNanIn)) ∧
    (Claims.rat s = some (n : ℚ) → let z := acc.toInt + n
      accInt32 s acc = if z < -2 ^ 31 then (0x80000000, mSatI32) else if 2 ^ 31 ≤ z then (0x7FFFFFFF, mSatI32) else (BitVec.ofInt 32 z, 0))

/-- A product, element by element (R19, R20, R22): element (i, j) takes the groups of g consecutive positions of row i of A and row j of B in
increasing K, each with the scale of its block, and the status bits of all of them are raised. -/
def Sys2Proof.Claims.ProductElements : Prop :=
  ∀ (kind : BitVec 2) (g i j : Nat) (a b : Opnd) (old : List Word), 0 < g → i < a.elems.length → j < b.elems.length →
    let n := b.elems.length
    let ra := a.elems.getD i []
    let rb := b.elems.getD j []
    let group (k : Nat) (l : List (Option Word)) : List (Option Word) := (l.drop (k * g)).take g
    let r := (List.range ((ra.length + g - 1) / g)).foldl (fun (x : Word × MFlags) k =>
      let y := accGroup kind (exactSum (List.zipWith (posProd a.fmt.toNat b.fmt.toNat) (group k ra) (group k rb)))
        ((b.scales.getD j [])[k]?) x.1
      (y.1, x.2 ||| y.2)) (old.getD (i * n + j) 0, 0)
    (matMul kind g a b old).1.length = a.elems.length * n ∧ (matMul kind g a b old).1.getD (i * n + j) 0 = r.1 ∧
    ∀ f, r.2.getLsbD f = true → (matMul kind g a b old).2.getLsbD f = true

/-- The value of an element that the rake writes (R18, R216): an INT32 slot unchanged where nothing else is asked; else the accumulator as
FP32 (FP16 exactly, INT32 rounded once), scale and bias in one rounding, the activation, and the conversion to the output format. -/
def Sys2Proof.Claims.RakeValues : Prop :=
  ∀ (r : Row) (acc : BitVec 2) (v : Word) (sb : Option (Word × Word)),
    let act := bitsN r 17 2
    let fmt := bitsN r 22 4
    let rnd : Rnd := match bitsN r 19 2 with
      | 0 => .rne
      | 1 => .rtz
      | 2 => .rdn
      | _ => .rup
    let sat := r.getLsbD 21
    let lo : Word := BitVec.ofNat 32 (bitsN r 64 32)
    let hi : Word := BitVec.ofNat 32 (bitsN r 96 32)
    let out := rakeElem r acc v sb
    let exact : Prop := acc = 3 ∧ bitsN r 0 8 = 0 ∧ act = 0 ∧ fmt = 7
    (exact → out = v.toNat) ∧
    (¬ exact → ∃ x y z : Word,
      (acc = 3 → Claims.Rne32 (v.toInt : ℚ) false x) ∧
      (acc = 2 → Claims.finite fp16 v.toNat → Claims.fin32 x ∧ Claims.value32 x = Claims.value fp16 v.toNat ∧ x.getLsbD 31 = v.getLsbD 15) ∧
      (acc ≠ 3 → acc ≠ 2 → x = v) ∧
      (sb = none → y = x) ∧ (∀ s b, sb = some (s, b) → y = (f32Fma x s b).1) ∧
      (act = 0 → z = y) ∧
      (act = 1 → z = if Claims.nan32 y then 0x7FC00000 else if Claims.rel32 2 0 y then y else 0) ∧
      (2 ≤ act → z = if Claims.nan32 y then 0x7FC00000 else if Claims.rel32 2 y lo then lo else if Claims.rel32 2 hi y then hi else y) ∧
      (fmt = 0 → out = z.toNat) ∧
      (∀ f, (fmt, f) ∈ [(1, bf16), (2, fp16), (3, e4m3), (4, e5m2)] → ∃ fl, Claims.Converted f rnd sat z (out, fl)) ∧
      (fmt = 5 → out = (toInt8 (-128) 127 rnd sat (num32 z)).1) ∧ (fmt = 6 → out = (toInt8 0 255 rnd sat (num32 z)).1) ∧
      (fmt = 7 → (Claims.nan32 z → out = 0) ∧ (Claims.inf32 z → out = if z.getLsbD 31 then 2 ^ 31 else 2 ^ 31 - 1) ∧
        (Claims.fin32 z → ∃ n : Int, Claims.IntRounded rnd (Claims.value32 z) n ∧
          out = (max (-2 ^ 31) (min (2 ^ 31 - 1) n) % 2 ^ 32).toNat)))

/-! ### The words of V -/

/-- What a V word may change and how: register d at the elements where `act` holds, to the values `val`; VFLAGS by the bits of
`ex`; q as given. V finds the iteration after the issue cycle of the word (R175). -/
def Sys2Proof.Claims.VWrites (s t : State) (pc : Dword) (d : BitVec 5) (act : Nat → Bool) (val : Nat → Word) (ex : Nat → FFlags)
    (q : Queues) : Prop :=
  let c := issueTick (iter s)
  MemSame s t ∧ ((iter t).engine .v).pc = pc + 4 ∧
  (∀ p, p < 512 → vget ((iter t).v d) 0 p = if act p then val p else vget (c.v d) 0 p) ∧
  (∀ n, c.phys n ≠ c.phys d → (iter t).v n = c.v n) ∧
  (iter t).regs.s = c.regs.s ∧ (iter t).regs.a = c.regs.a ∧ (iter t).regs.c = c.regs.c ∧ (iter t).regs.k = c.regs.k ∧
  (iter t).q = q ∧ (iter t).csr = { c.csr with vflags := (iter t).csr.vflags } ∧
  ∀ b, (iter t).csr.vflags.getLsbD b = true ↔ c.csr.vflags.getLsbD b = true ∨ ∃ p, p < 512 ∧ (ex p).getLsbD b = true

/-- The arithmetic words of two sources (R165 to R167, R171, R179): where the directions have a class, the destination matches it
and the cursor lies within VSHAPE, each active element of d receives the result of its pair of sources, and its exceptions go to
VFLAGS; no other element changes. -/
def Sys2Proof.Claims.VectorTwoSourceWords : Prop :=
  ∀ (i : Instr) (s : State) (pc : Dword) (d a b : VOp) (m : Bool) (g : Word → Word → Word → Word × FFlags), Stands s .v pc false →
    (i, g) ∈ [
      (Instr.vaddF d a b m, fun x y _ => f32Add x y), (.vsubF d a b m, fun x y _ => f32Sub x y),
      (.vmulF d a b m, fun x y _ => f32Mul x y), (.vfmaF d a b m, fun x y z => f32Fma x y z),
      (.vfmsF d a b m, fun x y z => f32Fms x y z), (.vminF d a b m, fun x y _ => f32Min x y),
      (.vmaxF d a b m, fun x y _ => f32Max x y),
      (.vaddB d a b m, fun x y _ => toBf (f32Add (bfArg x) (bfArg y))), (.vsubB d a b m, fun x y _ => toBf (f32Sub (bfArg x) (bfArg y))),
      (.vmulB d a b m, fun x y _ => toBf (f32Mul (bfArg x) (bfArg y))),
      (.vfmaB d a b m, fun x y z => toBf (f32Fma (bfArg x) (bfArg y) (bfArg z))),
      (.vfmsB d a b m, fun x y z => toBf (f32Fms (bfArg x) (bfArg y) (bfArg z))),
      (.vminB d a b m, fun x y _ => toBf (f32Min (bfArg x) (bfArg y))), (.vmaxB d a b m, fun x y _ => toBf (f32Max (bfArg x) (bfArg y))),
      (.vaddI d a b m, fun x y _ => (BitVec.ofInt 32 (x.toInt + y.toInt), 0)),
      (.vsubI d a b m, fun x y _ => (BitVec.ofInt 32 (x.toInt - y.toInt), 0)),
      (.vmulI d a b m, fun x y _ => (BitVec.ofInt 32 (x.toInt * y.toInt), 0)),
      (.vminI d a b m, fun x y _ => (if x.toInt ≤ y.toInt then x else y, 0)),
      (.vmaxI d a b m, fun x y _ => (if x.toInt ≤ y.toInt then y else x, 0)),
      (.vand d a b m, fun x y _ => (x &&& y, 0)), (.vor d a b m, fun x y _ => (x ||| y, 0)), (.vxor d a b m, fun x y _ => (x ^^^ y, 0)),
      (.vshl d a b m, fun x y _ => (BitVec.ofNat 32 (x.toNat * 2 ^ (y.toNat % 32)), 0)),
      (.vshr d a b m, fun x y _ => (BitVec.ofNat 32 (x.toNat / 2 ^ (y.toNat % 32)), 0)),
      (.vsar d a b m, fun x y _ => (BitVec.ofInt 32 (x.toInt / 2 ^ (y.toNat % 32)), 0))] →
    let c := issueTick (iter s)
    c.dirBad (class2 a.dir b.dir) d.dir [a.dir, b.dir] = none →
    let act (p : Nat) : Bool := c.active d.dir [a.dir, b.dir] (c.wordMask m) p
    let r (p : Nat) : Word × FFlags := g (c.src a p) (c.src b p) (vget (c.v d.reg) 0 p)
    ∃ t, exec i s = .next t ∧
      Claims.VWrites s t pc d.reg act (fun p => (r p).1) (fun p => if act p then (r p).2 else 0) (iter s).q

/-- The two-source arithmetic words of V, element by element (R175, R178 to R180), and the value of a BF16 word: the FP32 result
rounded once more, its flags those of both roundings (R16, R17). -/
def Obligations.VectorArithmetic : Prop :=
  Claims.VectorTwoSourceWords ∧ Claims.BfValues

/-- The words of one source, VSEL and VIOTA (R167, R179, R184, R189): element by element, as the arithmetic words. -/
def Obligations.VectorElementWords : Prop :=
  ∀ (i : Instr) (s : State) (pc : Dword) (d a b : VOp) (m : Bool) (n : BitVec 8) (k : Option VClass) (srcs : List Dir) (mk : Mask)
    (r : Nat → Word × FFlags), Stands s .v pc false →
    let c := issueTick (iter s)
    let one (g : Word → Word × FFlags) (p : Nat) : Word × FFlags := g (c.src a p)
    (i, k, srcs, mk, r) ∈ [
      (Instr.vabsF d a m, some (class1 a.dir), [a.dir], c.wordMask m,
        one fun x => (if (num32 x).isNan then 0x7FC00000 else x &&& 0x7FFFFFFF, 0)),
      (.vnegF d a m, some (class1 a.dir), [a.dir], c.wordMask m,
        one fun x => (if (num32 x).isNan then 0x7FC00000 else x ^^^ 0x80000000, 0)),
      (.vmov d a m, some (class1 a.dir), [a.dir], c.wordMask m, one fun x => (x, 0)),
      (.vcvtFi d a, some (class1 a.dir), [a.dir], BitVec.allOnes 512,
        one fun x => (BitVec.ofInt 32 (toIntSat 32 (num32 x)).1, (toIntSat 32 (num32 x)).2)),
      (.vcvtIf d a, some (class1 a.dir), [a.dir], BitVec.allOnes 512,
        one fun x => (BitVec.ofNat 32 (fp32.result (.ofInt x.toInt)).1, (fp32.result (.ofInt x.toInt)).2)),
      (.vsel d a b, class2 a.dir b.dir, [a.dir, b.dir], BitVec.allOnes 512,
        fun p => (if (c.wordMask true).getLsbD p then c.src a p else c.src b p, 0)),
      (.viota d n, some (class1 d.dir), [], BitVec.allOnes 512,
        fun p => (BitVec.ofNat 32 (if n = 0 then p else if n = 1 then p / 16 else p % 16), 0))] →
    c.dirBad k d.dir srcs = none →
    ∃ t, exec i s = .next t ∧ Claims.VWrites s t pc d.reg (c.active d.dir srcs mk) (fun p => (r p).1)
      (fun p => if c.active d.dir srcs mk p then (r p).2 else 0) (iter s).q

/-- Whether the directions of the sources have a class (R166). -/
def Sys2Proof.Claims.HasClass (srcs : List Dir) : Prop :=
  .whole ∈ srcs ∨ (∀ x ∈ srcs, x = .row) ∨ ∀ x ∈ srcs, x = .col ∨ x = .diag

/-- Whether a destination matches the class of the sources (R166, R167). -/
def Sys2Proof.Claims.Matches (d : Dir) (srcs : List Dir) : Prop :=
  (.whole ∈ srcs ∧ d = .whole) ∨ ((∀ x ∈ srcs, x = .row) ∧ d = .row) ∨ ((∀ x ∈ srcs, x = .col ∨ x = .diag) ∧ (d = .col ∨ d = .diag))

/-- Whether a row or a column operand lies outside VSHAPE (R165). -/
def Sys2Proof.Claims.Outside (c : TCore) (dirs : List Dir) : Prop :=
  (.row ∈ dirs ∧ c.csr.rows.toNat ≤ c.csr.curRow.toNat) ∨ (.col ∈ dirs ∧ c.csr.cols.toNat ≤ c.csr.curCol.toNat)

/-- Where V words trap OPERAND_SHAPE (R165 to R168, R170, R183, R186), with TINFO0, the word in TINFO1 and VSHAPE in TINFO2: 1 where the
sources have no class or the destination does not match it; 2 where a row or column operand lies outside VSHAPE; 3 where a direction other
than whole stands where whole operands are required; 4 for VTRANS of another shape than 16 or 32 rows of 16; 5 for VUNPARK of a register
that is not parked; 6 for a reduction whose destination its axis does not allow; 7 for VPUSHX with the cursor outside VSHAPE. Of every V
word that has such a check. -/
def Obligations.VectorShapeTraps : Prop :=
  ∀ (i : Instr) (s : State) (pc : Dword) (d a b : VOp) (m u x sat : Bool) (w : Word) (n : BitVec 8) (sc : BitVec 5) (p k : BitVec 3)
    (rel : BitVec 4) (rows cnt : BitVec 6) (r : Rnd) (o : Dir) (srcs : List Dir), Stands s .v pc false → encode i = some w →
    let c := iter s
    let trapped (e : Dword) : Prop := exec i s = .next (withDev s (enterTrap s.env s.dev s.env.unit .v pc 0x02 e (w.setWidth 64)
      (BitVec.ofNat 64 (c.csr.rows.toNat + 256 * c.csr.cols.toNat)) 0))
    ((i, o, srcs) ∈ [
        (Instr.vaddF d a b m, d.dir, [a.dir, b.dir]), (.vsubF d a b m, d.dir, [a.dir, b.dir]), (.vmulF d a b m, d.dir, [a.dir, b.dir]),
        (.vfmaF d a b m, d.dir, [a.dir, b.dir]), (.vfmsF d a b m, d.dir, [a.dir, b.dir]), (.vminF d a b m, d.dir, [a.dir, b.dir]),
        (.vmaxF d a b m, d.dir, [a.dir, b.dir]), (.vaddB d a b m, d.dir, [a.dir, b.dir]), (.vsubB d a b m, d.dir, [a.dir, b.dir]),
        (.vmulB d a b m, d.dir, [a.dir, b.dir]), (.vfmaB d a b m, d.dir, [a.dir, b.dir]), (.vfmsB d a b m, d.dir, [a.dir, b.dir]),
        (.vminB d a b m, d.dir, [a.dir, b.dir]), (.vmaxB d a b m, d.dir, [a.dir, b.dir]), (.vaddI d a b m, d.dir, [a.dir, b.dir]),
        (.vsubI d a b m, d.dir, [a.dir, b.dir]), (.vmulI d a b m, d.dir, [a.dir, b.dir]), (.vminI d a b m, d.dir, [a.dir, b.dir]),
        (.vmaxI d a b m, d.dir, [a.dir, b.dir]), (.vand d a b m, d.dir, [a.dir, b.dir]), (.vor d a b m, d.dir, [a.dir, b.dir]),
        (.vxor d a b m, d.dir, [a.dir, b.dir]), (.vshl d a b m, d.dir, [a.dir, b.dir]), (.vshr d a b m, d.dir, [a.dir, b.dir]),
        (.vsar d a b m, d.dir, [a.dir, b.dir]), (.vsel d a b, d.dir, [a.dir, b.dir]), (.vabsF d a m, d.dir, [a.dir]),
        (.vnegF d a m, d.dir, [a.dir]), (.vmov d a m, d.dir, [a.dir]), (.vcvtFi d a, d.dir, [a.dir]), (.vcvtIf d a, d.dir, [a.dir]),
        (.vrcp d a m, d.dir, [a.dir]), (.vrsqrt d a m, d.dir, [a.dir]), (.vexp2 d a m, d.dir, [a.dir]), (.vlog2 d a m, d.dir, [a.dir]),
        (.vtanh d a m, d.dir, [a.dir]), (.viota d n, d.dir, [d.dir])] →
      (¬ Claims.Matches o srcs → trapped 1) ∧ (Claims.Matches o srcs → Claims.Outside c (o :: srcs) → trapped 2)) ∧
    (i ∈ [Instr.vcmpF rel k a b m, .vcmpI rel k a b m] →
      (¬ Claims.HasClass [a.dir, b.dir] → trapped 1) ∧
      (Claims.HasClass [a.dir, b.dir] → Claims.Outside c [a.dir, b.dir] → trapped 2)) ∧
    ((i, srcs) ∈ [
        (Instr.vtrans d a, [d.dir, a.dir]), (.vshift d a x m cnt, [d.dir, a.dir]), (.vpop d 2 rows, [d.dir]), (.vpush d 3 rows, [d.dir]),
        (.vpushx d 5, [d.dir]), (.vunpE4 d a p, [d.dir, a.dir]), (.vunpE5 d a p, [d.dir, a.dir]), (.vunpI8 d a p, [d.dir, a.dir]),
        (.vunpH d a p, [d.dir, a.dir]), (.vunpQ4 d a sc p, [d.dir, a.dir]), (.vpackE4 d a sat r p, [d.dir, a.dir]),
        (.vpackE5 d a sat r p, [d.dir, a.dir]), (.vpackI8 d a sat r p, [d.dir, a.dir]), (.vpackH d a sat r p, [d.dir, a.dir]),
        (.vpackB d a sat r p, [d.dir, a.dir]), (.vpark d, [d.dir]), (.vunpark d, [d.dir]), (.vredsum d a u x m, [a.dir]),
        (.vredmax d a u x m, [a.dir])] → (∃ y ∈ srcs, y ≠ .whole) → trapped 3) ∧
    (i = .vtrans d a → d.dir = .whole → a.dir = .whole → c.csr.cols ≠ 16 ∨ (c.csr.rows ≠ 16 ∧ c.csr.rows ≠ 32) → trapped 4) ∧
    (i = .vunpark d → d.dir = .whole → c.park.find (c.phys d.reg) = none → trapped 5) ∧
    (i ∈ [Instr.vredsum d a u x m, .vredmax d a u x m] → a.dir = .whole →
      let allowed : Prop := d.dir = .whole ∨ (d.dir = .row ∧ x = true) ∨ ((d.dir = .col ∨ d.dir = .diag) ∧ x = false)
      (¬ allowed → ¬ Claims.Outside c [d.dir] → trapped 6) ∧ (allowed → Claims.Outside c [d.dir] → trapped 2)) ∧
    (i = .vbcast d 4 → Claims.Outside c [d.dir] → trapped 2) ∧
    (i = .vpushx d 5 → d.dir = .whole → c.csr.rows.toNat ≤ c.csr.curRow.toNat ∨ c.csr.cols.toNat ≤ c.csr.curCol.toNat → trapped 7)

/-- VCMP.F and VCMP.I (R180): K[k] receives the relation at the active compared elements and 0 everywhere else. -/
def Sys2Proof.Claims.VectorCompares : Prop :=
  ∀ (s : State) (pc : Dword) (rel : BitVec 4) (k : BitVec 3) (a b : VOp) (m : Bool), Stands s .v pc false → k ≠ 0 → rel.toNat ≤ 5 →
    let c := issueTick (iter s)
    let dir : Dir := cmpDir a.dir b.dir
    c.dirBad (class2 a.dir b.dir) dir [a.dir, b.dir] = none →
    let act (p : Nat) : Bool := c.active dir [a.dir, b.dir] (c.wordMask m) p
    (∃ t, exec (.vcmpF rel k a b m) s = .next t ∧ MemSame s t ∧ (iter t).regs.v = c.regs.v ∧ (iter t).regs.s = c.regs.s ∧
      ∀ p, p < 512 → ((iter t).k k.toNat).getLsbD p = (act p && relNum rel.toNat (num32 (c.src a p)) (num32 (c.src b p)))) ∧
    (∃ t, exec (.vcmpI rel k a b m) s = .next t ∧ MemSame s t ∧ (iter t).regs.v = c.regs.v ∧ (iter t).csr.vflags = c.csr.vflags ∧
      ∀ p, p < 512 → (((iter t).k k.toNat).getLsbD p = true ↔ act p = true ∧
        ((rel = 0 ∧ c.src a p = c.src b p) ∨ (rel = 1 ∧ c.src a p ≠ c.src b p) ∨
         (rel = 2 ∧ (c.src a p).toInt < (c.src b p).toInt) ∨ (rel = 3 ∧ (c.src a p).toInt ≤ (c.src b p).toInt) ∨
         (rel = 4 ∧ (c.src b p).toInt < (c.src a p).toInt) ∨ (rel = 5 ∧ (c.src b p).toInt ≤ (c.src a p).toInt))))

/-- VRCP, VRSQRT, VEXP2, VLOG2 and VTANH (R176, R177, R178, R181): with fewer than eight results pending the word adds one with its
latency, its destination and its values; registers and VFLAGS keep theirs until it lands. With eight pending it waits in a cycle that
is an issue cycle, also where the oldest lands in it (log entry 102). How the values are computed: log entry 19. -/
def Sys2Proof.Claims.SpecialFunctionWords : Prop :=
  ∀ (i : Instr) (s : State) (pc : Dword) (d a : VOp) (m : Bool) (f l : Nat), Stands s .v pc false →
    (i, f, l) ∈ [(Instr.vrcp d a m, 0, 6), (.vrsqrt d a m, 1, 6), (.vexp2 d a m, 2, 8), (.vlog2 d a m, 3, 8), (.vtanh d a m, 4, 10)] →
    let c := issueTick (iter s)
    let live (c : TCore) : List Sfu := c.sfu.toList.filterMap id
    (iter s).dirBad (some (class1 a.dir)) d.dir [a.dir] = none →
    ((live (iter s)).length = 8 → exec i s = .next (withDev s (setWait (s.dev.onCore s.env.unit issueTick) ⟨s.env.unit, .v, pc, false⟩
      { code := 0, detail := 8, tick := true }))) ∧
    ((live (iter s)).length < 8 → ∃ t x, exec i s = .next t ∧ MemSame s t ∧ (iter t).regs = c.regs ∧ (iter t).csr = c.csr ∧ live (iter t) = live c ++ [x] ∧
      x.rem = l ∧ x.func.toNat = f ∧ x.preg.toNat = c.phys d.reg ∧ x.walk = ((iter s).engine .v).walk + 1 ∧
      ∀ p, (h : p < 512) → x.act.getLsbD p = c.active d.dir [a.dir] (c.wordMask m) p ∧
        (x.act.getLsbD p = true → x.data[p] = (special f (c.src a p)).1))

/-- The compares of V and the special functions, whose results land later (R176, R178, R180, R181). -/
def Obligations.ComparesAndSpecialFunctions : Prop :=
  Claims.VectorCompares ∧ Claims.SpecialFunctionWords

/-- VREDSUM and VREDMAX (R15, R17, R182, R183): the reduced value of a row or of a column, folded from its first element in increasing
order, goes to every position of the row or column that d names; an FP32 reduction delivers a NaN as the canonical one, that of a single
element too (log entry 80); its exceptions go to VFLAGS, an integer one raises none. -/
def Sys2Proof.Claims.Reductions : Prop :=
  ∀ (i : Instr) (s : State) (pc : Dword) (d a : VOp) (t x m : Bool) (g : Word → Word → Word × FFlags) (z : Word), Stands s .v pc false →
    (i, g, z) ∈ [
      (Instr.vredsum d a t x m, fun u v => if t then (BitVec.ofInt 32 (u.toInt + v.toInt), 0) else f32Add u v, 0),
      (.vredmax d a t x m, fun u v => if t then (if u.toInt ≤ v.toInt then v else u, 0) else f32Max u v,
        if t then 0x80000000 else 0xFF800000)] →
    let c := issueTick (iter s)
    a.dir = .whole → c.cursorOk d.dir = true → (d.dir = .row → x = true) → (d.dir = .col ∨ d.dir = .diag → x = false) →
    let elems (o : Nat) : List Word :=
      ((List.range (if x then c.csr.rows.toNat else c.csr.cols.toNat)).map fun k => if x then 16 * k + o else 16 * o + k).filterMap
        fun p => if (c.wordMask m).getLsbD p then some (vget (c.v a.reg) 0 p) else none
    let red (o : Nat) : Word × FFlags := match elems o with
      | [] => (z, 0)
      | y :: r => r.foldl (fun q v => ((g q.1 v).1, q.2 ||| (g q.1 v).2)) (y, 0)
    let value (o : Nat) : Word := if t = false ∧ Claims.nan32 (red o).1 = true then 0x7FC00000 else (red o).1
    ∃ u, exec i s = .next u ∧ MemSame s u ∧ ((iter u).engine .v).pc = pc + 4 ∧
      (∀ p, p < 512 → vget ((iter u).v d.reg) 0 p =
        if c.inShape p && c.inDir d.dir p then value (if x then p % 16 else p / 16) else vget (c.v d.reg) 0 p) ∧
      (∀ n, c.phys n ≠ c.phys d.reg → (iter u).v n = c.v n) ∧ (iter u).regs.k = c.regs.k ∧
      ∀ b, (iter u).csr.vflags.getLsbD b = true ↔ c.csr.vflags.getLsbD b = true ∨
        ∃ o, o < (if x then c.csr.cols.toNat else c.csr.rows.toNat) ∧ (red o).2.getLsbD b = true

/-- VTRANS and VSHIFT (R184, R185): the transpose of each half of 16 rows; the shift along rows or columns within VSHAPE, filling with
zero or turning round. -/
def Sys2Proof.Claims.TransposeAndShift : Prop :=
  ∀ (s : State) (pc : Dword) (d a : VOp) (x f : Bool) (k : BitVec 6), Stands s .v pc false → d.dir = .whole → a.dir = .whole →
    let c := issueTick (iter s)
    let e (i j : Nat) : Word := vget (c.v a.reg) 0 (16 * i + j)
    (c.csr.cols = 16 → c.csr.rows = 16 ∨ c.csr.rows = 32 →
      ∃ t, exec (.vtrans d a) s = .next t ∧ Claims.VWrites s t pc d.reg (fun p => decide (p / 16 < c.csr.rows.toNat))
        (fun p => e (p / 256 * 16 + p % 16) (p / 16 % 16)) (fun _ => 0) (iter s).q) ∧
    (∃ t, exec (.vshift d a x f k) s = .next t ∧ Claims.VWrites s t pc d.reg (fun p => c.inShape p)
      (fun p =>
        let n : Nat := if x then c.csr.rows.toNat else c.csr.cols.toNat
        let y : Int := (if x then p / 16 else p % 16 : Nat) - k.toInt
        if f = true ∨ (0 ≤ y ∧ y < n) then
          (if x then e (y % n).toNat (p % 16) else e (p / 16) (y % n).toNat)
        else 0) (fun _ => 0) (iter s).q)

/-- The reductions of V, VTRANS and VSHIFT (R182 to R185). -/
def Obligations.ReductionsAndMoves : Prop :=
  Claims.Reductions ∧ Claims.TransposeAndShift

/-- VBCAST, VPOP, VPUSH, VPUSHX and KCNT (R70, R75, R186, R194): they move entries between registers and V's queues, whole words at a
time; each waits while its queue has too few entries (code 1) or too little room (code 2), with the queue's number. -/
def Obligations.VectorQueueWords : Prop :=
  ∀ (s : State) (pc y : Dword) (l : List Dword) (d : VOp) (n : BitVec 6) (k : BitVec 5), Stands s .v pc false →
    let c := issueTick (iter s)
    let waits (i : Instr) (code detail : BitVec 8) : Prop :=
      exec i s = .next (withDev s (setWait s.dev ⟨s.env.unit, .v, pc, false⟩ { code := code, detail := detail }))
    (c.q.xv = y :: l → c.cursorOk d.dir = true → ∃ t, exec (.vbcast d 4) s = .next t ∧
      Claims.VWrites s t pc d.reg (fun p => c.active d.dir [] (BitVec.allOnes 512) p) (fun _ => y.setWidth 32) (fun _ => 0)
        { c.q with xv := l }) ∧
    (c.q.xv = [] → c.cursorOk d.dir = true → waits (.vbcast d 4) 1 4) ∧
    (d.dir = .whole →
      (n.toNat ≤ c.q.av.length → ∃ t, exec (.vpop d 2 n) s = .next t ∧
        Claims.VWrites s t pc d.reg (fun p => decide (p / 16 < n.toNat))
          (fun p => ((c.q.av[p / 16]?).getD 0).extractLsb' (32 * (p % 16)) 32) (fun _ => 0)
          { c.q with av := c.q.av.drop n.toNat }) ∧
      (c.q.av.length < n.toNat → waits (.vpop d 2 n) 1 2) ∧
      (c.q.va.length + n.toNat ≤ 64 → ∃ t, exec (.vpush d 3 n) s = .next t ∧ MemSame s t ∧ (iter t).regs = c.regs ∧
        (iter t).csr = c.csr ∧ ∃ rows : List Row, (iter t).q = { c.q with va := c.q.va ++ rows } ∧ rows.length = n.toNat ∧
          ∀ i j r, rows[i]? = some r → j < 16 → r.extractLsb' (32 * j) 32 = vget (c.v d.reg) 0 (16 * i + j)) ∧
      (64 < c.q.va.length + n.toNat → waits (.vpush d 3 n) 2 3) ∧
      (c.q.vx.length < 16 → c.csr.curRow.toNat < c.csr.rows.toNat → c.csr.curCol.toNat < c.csr.cols.toNat →
        ∃ t, exec (.vpushx d 5) s = .next t ∧ MemSame s t ∧ (iter t).regs = c.regs ∧ (iter t).q = { c.q with vx :=
          c.q.vx ++ [(vget (c.v d.reg) 0 (16 * c.csr.curRow.toNat + c.csr.curCol.toNat)).setWidth 64] }) ∧
      (c.q.vx.length = 16 → c.csr.curRow.toNat < c.csr.rows.toNat → c.csr.curCol.toNat < c.csr.cols.toNat → waits (.vpushx d 5) 2 5)) ∧
    (c.q.vx.length < 16 → ∃ t, exec (.kcnt k) s = .next t ∧ MemSame s t ∧ (iter t).regs = c.regs ∧ (iter t).q = { c.q with vx :=
      c.q.vx ++ [BitVec.ofNat 64 (((List.range 512).filter fun p => c.inShape p && (c.k k.toNat).getLsbD p).length)] }) ∧
    (c.q.vx.length = 16 → waits (.kcnt k) 2 5)

/-- The unpack words (R187): element j of d is the value of field j of the part that the word names. -/
def Sys2Proof.Claims.UnpackWords : Prop :=
  ∀ (i : Instr) (s : State) (pc : Dword) (d a : VOp) (sc : BitVec 5) (p : BitVec 3) (r : Nat → Word × FFlags), Stands s .v pc false →
    d.dir = .whole → a.dir = .whole →
    let c := issueTick (iter s)
    let byte (n : Nat) : Nat := (vget (c.v a.reg) 0 (n / 4)).toNat / 256 ^ (n % 4) % 256
    (i, r) ∈ [
      (Instr.vunpE4 d a p, fun j => (BitVec.ofNat 32 (fp32.result (e4m3.dec (byte (512 * p.toNat + j)))).1, 0)),
      (.vunpE5 d a p, fun j => (BitVec.ofNat 32 (fp32.result (e5m2.dec (byte (512 * p.toNat + j)))).1, 0)),
      (.vunpI8 d a p, fun j => ((BitVec.ofNat 8 (byte (512 * p.toNat + j))).signExtend 32, 0)),
      (.vunpH d a p, fun j => (BitVec.ofNat 32 (fp32.result (fp16.dec
        (byte (1024 * p.toNat + 2 * j) + 256 * byte (1024 * p.toNat + 2 * j + 1)))).1, 0)),
      (.vunpQ4 d a sc p, fun j =>
        let q := byte (256 * p.toNat + j / 2) / 16 ^ (j % 2) % 16
        let x := num32 (vget (c.v sc) 0 (j / 64))
        fdeliver [gq4Level q, x] ((gq4Level q).mul x))] →
    ∃ t, exec i s = .next t ∧ Claims.VWrites s t pc d.reg (fun _ => true) (fun j => (r j).1) (fun j => (r j).2) (iter s).q

/-- The pack words (R188): the bytes of the part become the converted elements of a, every other byte of d keeps its value. -/
def Sys2Proof.Claims.PackWords : Prop :=
  ∀ (i : Instr) (s : State) (pc : Dword) (d a : VOp) (sat : Bool) (r : Rnd) (p : BitVec 3) (w : Nat) (conv : Machine.Num → Nat × FFlags),
    Stands s .v pc false → d.dir = .whole → a.dir = .whole →
    (i, w, conv) ∈ [(Instr.vpackE4 d a sat r p, 1, e4m3.conv r sat), (.vpackE5 d a sat r p, 1, e5m2.conv r sat),
      (.vpackI8 d a sat r p, 1, toInt8 (-128) 127 r sat), (.vpackH d a sat r p, 2, fp16.conv r sat),
      (.vpackB d a sat r p, 2, bf16.conv r sat)] →
    let c := issueTick (iter s)
    let byte (v : VReg) (n : Nat) : Nat := (vget v 0 (n / 4)).toNat / 256 ^ (n % 4) % 256
    let at_ (j : Nat) : Nat × FFlags := conv (num32 (vget (c.v a.reg) 0 j))
    ∃ t, exec i s = .next t ∧ MemSame s t ∧ ((iter t).engine .v).pc = pc + 4 ∧
      (∀ j k, j < 512 → k < w → 512 * w * p.toNat + w * j + k < 2048 →
        byte ((iter t).v d.reg) (512 * w * p.toNat + w * j + k) = (at_ j).1 / 256 ^ k % 256) ∧
      (∀ n, n < 2048 → n < 512 * w * p.toNat ∨ 512 * w * (p.toNat + 1) ≤ n → byte ((iter t).v d.reg) n = byte (c.v d.reg) n) ∧
      (∀ n, c.phys n ≠ c.phys d.reg → (iter t).v n = c.v n) ∧ (iter t).q = c.q ∧
      ∀ b, (iter t).csr.vflags.getLsbD b = true ↔ c.csr.vflags.getLsbD b = true ∨ ∃ j, j < 512 ∧ (at_ j).2.getLsbD b = true

/-- The unpack and pack words (R187, R188), and the values of their conversions (R16 to R18). -/
def Obligations.UnpackAndPack : Prop :=
  Claims.UnpackWords ∧ Claims.PackWords ∧ Claims.ConversionValues

/-- VSHAPE (R190): the shape becomes r rows and c columns, and nothing else changes but V's PC and walk count, so every element keeps
its value; a row count of 0 or above 32 and a column count of 0 or above 16 are reserved field values. -/
def Obligations.ShapeWord : Prop :=
  ∀ (s : State) (pc : Dword) (r c : BitVec 7), Stands s .v pc false →
    (exec (.vshape r c) s = .next (after s .v pc false fun x =>
      { issueTick x with csr := { (issueTick x).csr with rows := BitVec.ofNat 6 r.toNat, cols := BitVec.ofNat 5 c.toNat } })) ∧
    encode (.vshape r c) = some (0x58000000 + r.setWidth 32 * 0x8000 + c.setWidth 32 * 0x100) ∧
    ((Instr.vshape r c).wf = true ↔ 1 ≤ r.toNat ∧ r.toNat ≤ 32 ∧ 1 ≤ c.toNat ∧ c.toNat ≤ 16) ∧
    (r = 0 ∨ 32 < r.toNat ∨ c = 0 ∨ 16 < c.toNat →
      decode (0x58000000 + r.setWidth 32 * 0x8000 + c.setWidth 32 * 0x100) = .error .fieldValue)

/-- VCUR, VRBSET and the mask words (R173, R191, R194): they set the cursor, the window, a mask register of 512
bits, and nothing else. -/
def Sys2Proof.Claims.ShapeAndMaskWords : Prop :=
  ∀ (i : Instr) (s : State) (pc : Dword) (r c : BitVec 7) (h n : BitVec 8) (d a b : BitVec 5) (f : TCore → TCore), Stands s .v pc false →
    (i, f) ∈ [
      (Instr.vcur r c h, fun x => { x with csr := { x.csr with
        curRow := BitVec.ofNat 5 r.toNat, curCol := BitVec.ofNat 4 c.toNat, curDiag := BitVec.ofNat 4 h.toNat } }),
      (.vrbset n, fun x => { x with csr := { x.csr with vrb := BitVec.ofNat 4 n.toNat } }),
      (.kand d a b, fun x => x.setK d.toNat (x.k a.toNat &&& x.k b.toNat)),
      (.kor d a b, fun x => x.setK d.toNat (x.k a.toNat ||| x.k b.toNat)),
      (.knot d a, fun x => x.setK d.toNat (x.k a.toNat ^^^ BitVec.allOnes 512)),
      (.kmov d a, fun x => x.setK d.toNat (x.k a.toNat))] →
    exec i s = .next (after s .v pc false fun x => f (issueTick x))

/-- VPARK and VUNPARK (R192): VPARK keeps a copy of all 512 elements in two rows of the accumulator storage, and waits while no slot
has them; VUNPARK restores the register and frees the rows. -/
def Sys2Proof.Claims.ParkWords : Prop :=
  ∀ (s : State) (pc : Dword) (v : VOp), Stands s .v pc false → v.dir = .whole →
    let c := issueTick (iter s)
    let d := s.dev.onCore s.env.unit issueTick
    (parkReg d s.env.unit (c.phys v.reg) (c.v v.reg) ≠ none →
      ∃ t sl, exec (.vpark v) s = .next t ∧ MemSame s t ∧ (iter t).regs = c.regs ∧
        (iter t).park.find (c.phys v.reg) = some (.held 2 (c.v v.reg) sl) ∧ sl.length = 2) ∧
    (parkReg d s.env.unit (c.phys v.reg) (c.v v.reg) = none →
      exec (.vpark v) s = .next (withDev s (setWait s.dev ⟨s.env.unit, .v, pc, false⟩ { code := 10 }))) ∧
    (∀ n x sl, c.park.find (c.phys v.reg) = some (.held n x sl) →
      ∃ t, exec (.vunpark v) s = .next t ∧ MemSame s t ∧ (iter t).v v.reg = x ∧
        (iter t).park.find (c.phys v.reg) = none ∧ (∀ r, c.phys r ≠ c.phys v.reg → (iter t).v r = c.v r) ∧
        (iter t).regs.k = c.regs.k ∧ (iter t).csr = c.csr)
/-! ### The words of M -/

/-- VCUR, VRBSET, the mask words (R173, R191, R194), VPARK and VUNPARK (R192). -/
def Obligations.ShapeMaskAndParkWords : Prop :=
  Claims.ShapeAndMaskWords ∧ Claims.ParkWords

/-- M may go on with a leased word: the lease of its tile is open and the tile has the turn, which is not spent (R200 to R202). -/
def Sys2Proof.Claims.Turn (s : State) : Prop :=
  ((iter s).lease.held = true ∨ (iter s).lease.trapped = true) ∧ (s.dev.cluster (s.env.unit / 8)).holder = some s.env.unit ∧
  (s.dev.cluster (s.env.unit / 8)).expired = false

/-- The device as a leased word finds it: the lease that a trap ended is open again (R202), and A's accesses count as
fenced when ERET has let M go (R335). -/
def Sys2Proof.Claims.turned (s : State) : Dev :=
  let d := if (iter s).trap.mHold then fencePts s.env.unit 0x01 0x20 s.dev else s.dev
  d.onCore s.env.unit fun c => { c with lease := { c.lease with held := true, trapped := false } }

/-- A word of M has gone on: no byte of memory and no register has changed. -/
def Sys2Proof.Claims.WentOn (s t : State) (pc : Dword) : Prop :=
  MemSame s t ∧ (iter t).regs = (iter s).regs ∧ ((iter t).engine .m).pc = pc + 4 ∧ ((iter t).engine .m).wait = none

/-- MSET, MADDC, MPOPC, MPUSH and MSHAPE (R205, R206): a 16-bit field of a coordinate register is set or raised modulo 2^16, a
register is popped from q.xm or pushed to q.mx, and MSHAPE sets M, N or K. -/
def Obligations.CoordinateWords : Prop :=
  ∀ (s : State) (pc x : Dword) (l : List Dword) (c : BitVec 4) (f : BitVec 2) (v : BitVec 16), Stands s .m pc false →
    let put (n : Nat) : Dword := BitVec.ofNat 64 (((iter s).c c).toNat
      - ((iter s).c c).toNat / 2 ^ (16 * f.toNat) % 2 ^ 16 * 2 ^ (16 * f.toNat) + n % 2 ^ 16 * 2 ^ (16 * f.toNat))
    let does (i : Instr) (g : TCore → TCore) : Prop := ∃ t, exec i s = .next t ∧ MemSame s t ∧
      ((iter t).engine .m).pc = pc + 4 ∧ (iter t).regs = (g (iter s)).regs ∧ (iter t).q = (g (iter s)).q ∧ (iter t).csr = (g (iter s)).csr
    does (.mset c f v) (fun y => y.setC c (put v.toNat)) ∧
    does (.maddc c f v) (fun y => y.setC c (put (((iter s).c c).toNat / 2 ^ (16 * f.toNat) % 2 ^ 16 + v.toNat))) ∧
    ((iter s).q.xm = x :: l → does (.mpopc c) fun y => { y.setC c x with q := { y.q with xm := l } }) ∧
    ((iter s).q.mx.length < 8 → does (.mpush c) fun y => { y with q := { y.q with mx := y.q.mx ++ [y.c c] } }) ∧
    does (.mshape 0 v) (fun y => { y with csr := { y.csr with shM := v.setWidth 9 } }) ∧
    does (.mshape 1 v) (fun y => { y with csr := { y.csr with shN := v.setWidth 9 } }) ∧
    does (.mshape 2 v) (fun y => { y with csr := { y.csr with shK := v.setWidth 10 } })

/-- LEASE, LREL, RDROP, RWAIT and MNOTIFY (R198, R200, R218, R219): LEASE sets the budget to the least of n, the tile's cap and LCAP, once
the tile has the turn; LREL ends lease and turn once the tile's commands have completed; a leased word without a lease traps
LEASE_PROTOCOL 1. -/
def Sys2Proof.Claims.LeaseWords : Prop :=
  ∀ (s : State) (pc x : Dword) (l : List Dword) (n : BitVec 18) (z : BitVec 3), Stands s .m pc false →
    let k := s.dev.cluster (s.env.unit / 8)
    ((iter s).lease.held = true ∨ (k.holder = some s.env.unit ∧ k.expired = false) →
      ∃ t, exec (.lease n) s = .next t ∧ Claims.WentOn s t pc ∧ (iter t).lease.held = true ∧
        (iter t).lease.left = min n.toNat (min (iter s).lease.cap k.lcap.toNat)) ∧
    ((iter s).lease.held = false → k.holder ≠ some s.env.unit →
      ∃ t, exec (.lease n) s = .next t ∧ (iter t).lease = (iter s).lease ∧ ((iter t).engine .m).pc = ((iter s).engine .m).pc ∧
        s.env.unit ∈ (t.dev.cluster (s.env.unit / 8)).reqs) ∧
    ((iter s).lease.held = false → (iter s).lease.trapped = false →
      (∃ t, exec .lrel s = .next t ∧ Claims.WentOn s t pc ∧ (iter t).lease = (iter s).lease) ∧
      (∀ i ∈ [Instr.rdrop, .rwaitFree, .rwaitSlot z], ∀ w, encode i = some w →
        exec i s = .next (withDev s (enterTrap s.env s.dev s.env.unit .m pc 0x06 1 (BitVec.ofNat 64 (iter s).lease.left)
          (w.setWidth 64) 0)))) ∧
    ((iter s).lease.held = true → mIdle s.dev s.env.unit = true →
      ∃ t, exec .lrel s = .next t ∧ Claims.WentOn s t pc ∧ (iter t).lease.held = false ∧
        (t.dev.cluster (s.env.unit / 8)).holder ≠ some s.env.unit) ∧
    (Claims.Turn s →
      (k.nextFree.isSome → ∃ t, exec .rwaitFree s = .next t ∧ Claims.WentOn s t pc) ∧
      ((k.slot z.toNat).st ≠ .closed → (k.slot z.toNat).st ≠ .draining → ∃ t, exec (.rwaitSlot z) s = .next t ∧ Claims.WentOn s t pc) ∧
      ((iter s).head = none → ∃ t, exec .rdrop s = .next t ∧ Claims.WentOn s t pc ∧ (t.dev.cluster (s.env.unit / 8)).slots = k.slots) ∧
      ((iter s).head = some z → (∀ m ∈ k.mq, m.tile ≠ s.env.unit) →
        ∃ t, exec .rdrop s = .next t ∧ Claims.WentOn s t pc ∧ (iter t).head = none ∧
          ((t.dev.cluster (s.env.unit / 8)).slot z.toNat).st = .free)) ∧
    ((iter s).q.xm = x :: l → ∃ t m, exec .mnotify s = .next t ∧ Claims.WentOn s t pc ∧ (iter t).q.xm = l ∧
      (t.dev.cluster (s.env.unit / 8)).notes = k.notes ++ [m] ∧ m.tile = s.env.unit ∧ m.tag = some x)

/-- MMA and MMAS (R209): with the turn, budget left, tensors that the tile's table holds, a pair that the array runs, boxes within
the tensors and a head that fits, the command takes its place in the array's order and is charged; a fresh one opens the next free
slot with zeros. When its operands are read: log entry 31. -/
def Sys2Proof.Claims.MatrixWords : Prop :=
  ∀ (s : State) (pc : Dword) (x y : BitVec 8) (cr : BitVec 4) (md : BitVec 2) (sparse : Bool) (ta tb tm : Row) (g z : Nat) (acc : BitVec 2)
    (o : OpRead × OpRead) (d2 : Dev), Stands s .m pc false → Claims.Turn s → 0 < (iter s).lease.left →
    (iter s).mfence.toNat ≤ ((iter s).engine .a).walk.toNat →
    tidOf (iter s).tids x.toNat = some ta → tidOf (iter s).tids y.toNat = some tb →
    (sparse = true → x ≠ 255 ∧ tidOf (iter s).tids (x.toNat + 1) = some tm ∧ tFmt tm = 9) →
    pairRule (tFmt ta) (tFmt tb) (md.getLsbD 1) sparse = some (g, acc) →
    let q := (iter s).c cr
    let p : MmaPlan :=
      { a := ta, b := tb, md := if sparse then some tm else none, group := g, acc := acc, kb := bitsN q 32 32, m0 := bitsN q 0 16
        n0 := bitsN q 16 16, m := (iter s).csr.shM.toNat, n := (iter s).csr.shN.toNat, k := (iter s).csr.shK.toNat }
    mmaShapeBad p = 0 →
    let k := s.dev.cluster (s.env.unit / 8)
    let fresh := md.getLsbD 0 = false
    (fresh → (iter s).head = none ∧ k.nextFree = some z) →
    (¬ fresh → (iter s).headLost = false ∧ ∃ h, (iter s).head = some h ∧ h.toNat = z ∧ (k.slot z).acc = acc ∧ (k.slot z).m = p.m ∧
      (k.slot z).n = p.n) →
    mmaOperands s.env ⟨s.env.unit, .m, pc, false⟩ p (Claims.turned s) = .ok o d2 →
    ∃ t, exec (if sparse then .mmas x y cr md else .mma x y cr md) s = .next t ∧ Claims.WentOn s t pc ∧
      (iter t).lease.left = (iter s).lease.left - 1 ∧ (iter t).head = some (BitVec.ofNat 3 z) ∧
      (∃ m ∈ (t.dev.cluster (s.env.unit / 8)).mq, m.kind = .mma (BitVec.ofNat 3 z) g o.1 o.2 ∧ m.tile = s.env.unit ∧
        m.walk = ((iter s).engine .m).walk) ∧
      (fresh → (∀ m ∈ k.mq, m.kind.isEnd = false) →
        let r := (t.dev.cluster (s.env.unit / 8)).slot z
        r.st = .open_ ∧ r.tile = s.env.unit ∧ r.acc = acc ∧ r.m = p.m ∧ r.n = p.n ∧ r.elems = List.replicate (p.m * p.n) 0)

/-- MMA and MMAS are accepted and charged (R209), and what a product is: the elements as exact numbers (R8 to R11), the groups in
their order (R19, R20), what each gives the accumulator (R21) and the scale of a block (R22). -/
def Obligations.MatrixProducts : Prop :=
  Claims.MatrixWords ∧ Claims.ElementValues ∧ Claims.GroupSums ∧ Claims.AccumulatorValues ∧ Claims.ProductElements

/-- RCLOSE (R215): with the turn, an open head and a descriptor that passes the checks, the head is closed behind the tile's
commands, at once when it has none. -/
def Sys2Proof.Claims.CloseWord : Prop :=
  ∀ (s : State) (pc : Dword) (cr : BitVec 4) (h : BitVec 3) (b : List Byte) (d2 : Dev), Stands s .m pc false → Claims.Turn s →
    (iter s).mfence.toNat ≤ ((iter s).engine .a).walk.toNat → (iter s).head = some h →
    let va := ((iter s).c cr).toNat % 2 ^ 55
    let k := s.dev.cluster (s.env.unit / 8)
    let r := rowOf b
    va % 64 = 0 → mRead s.env s.env.unit (Claims.turned s) va 64 = .ok b d2 → rdBad r = false →
    (r.getLsbD 16 = false → ∃ t, tidOf (iter s).tids (rdDtid r) = some t ∧ tWritable t = true ∧ tFmt t = rdOfmt r ∧
      rdBoxOk r t (k.slot h.toNat).m (k.slot h.toNat).n = true) →
    (rdSbtid r ≠ 0 → ∃ t, tidOf (iter s).tids (rdSbtid r) = some t ∧ tFmt t = 0 ∧ 2 ≤ tRank t ∧ 2 ≤ tSize t 1 ∧
      rdSborg r + (k.slot h.toNat).n ≤ tSize t 0) →
    ∃ t, exec (.rclose cr) s = .next t ∧ Claims.WentOn s t pc ∧ (iter t).head = none ∧ (iter t).closed = true ∧
      ((∀ m ∈ k.mq, m.tile ≠ s.env.unit) → ((t.dev.cluster (s.env.unit / 8)).slot h.toNat).st = .closed) ∧
      ((∃ m ∈ k.mq, m.tile = s.env.unit ∧ m.kind.isEnd = false) →
        ∃ m ∈ (t.dev.cluster (s.env.unit / 8)).mq, m.tile = s.env.unit ∧ ∃ j, m.kind = .close h j ∧ j.desc = r)

/-- LEASE, LREL, RDROP, RWAIT, MNOTIFY and RCLOSE (R198, R200, R215, R218, R219). -/
def Obligations.LeaseAndCloseWords : Prop :=
  Claims.LeaseWords ∧ Claims.CloseWord

/-- The record at CSTEPIDX can start as the step st (R34 to R37, R222, R355): its bytes are well formed; its core is a BF16 tensor core
whose middle dimension is the absorbed mode's and whose left bond covers the boundary's; the output fits the capacity; the boundary is not
lost, or the record is a first one whose box may be loaded; a last one finds an empty head and a free slot. `readInit` and `readCore` have
read its operands, the core's first BA left-bond slices. -/
def Sys2Proof.Claims.StepRuns (s : State) (r : Nat) (core : Row) (st : ChainStep) : Prop :=
  let y := iter s
  let k := s.dev.cluster (s.env.unit / 8)
  let a : At := ⟨s.env.unit, .m, (y.engine .m).pc, false⟩
  let field (lo w : Nat) : Nat := r / 2 ^ lo % 2 ^ w
  let first := field 16 1 = 1
  let org := fields4 (y.c (BitVec.ofNat 4 (field 40 4)))
  let ext := (List.range 4).map fun i => field (64 + 16 * i) 16
  let ba := if first then 1 else k.bnd.ba
  let bm := if first then ext ++ [1] else k.bnd.bm.toList
  let others := ((List.range 5).filter (· != field 8 3)).map fun i => bm.getD i 1
  let shape := emitShape st.bond (st.m :: others)
  ∃ (b : List Byte) (d2 d3 d4 : Dev),
    y.csr.cord.toNat % 16 = 0 ∧
    mRead s.env s.env.unit (Claims.turned s) (y.csr.cord.toNat + 16 * y.csr.cstep.toNat) 16 = .ok b d2 ∧ r = leNat b ∧ stepBad r = false ∧
    tidOf y.tids (field 0 8) = some core ∧ tCm core ≠ 0 ∧ tFmt core = 1 ∧
    (¬ first → bndLost s.dev s.env.unit = false ∧ st.init = none ∧ d3 = d2) ∧
    (first → ∃ t box, tidOf y.tids (field 32 8) = some t ∧ initBad t org ext = false ∧ tFmt t < 7 ∧
      ext.foldl (· * ·) 1 * 4 ≤ y.csr.bcap.toNat * 256 ∧ readInit s.env a t org ext d2 = .ok box d3 ∧ st.init = some (ext, box)) ∧
    st.mode = field 8 3 ∧ st.m = tCm core ∧ st.nn = tSize core 1 / tCm core ∧
    st.bond = min (tSize core 2) (y.csr.bd.toList.getD (field 12 3) 0).toNat ∧
    bm.getD st.mode 1 = st.nn ∧ ba ≤ tSize core 0 ∧ others.foldl (· * ·) 1 * st.m * st.bond * 4 ≤ y.csr.bcap.toNat * 256 ∧
    (field 17 1 = 0 → st.emit = none) ∧
    (field 17 1 = 1 → shape.1 ≤ 256 ∧ shape.2 ≤ 256 ∧ y.head = none ∧ ∃ z, k.nextFree = some z ∧ st.emit = some (BitVec.ofNat 3 z)) ∧
    readCore s.env a core ba st.nn st.m st.bond d3 = .ok st.core d4

/-- BDSET, CORD, CBOUND, CINIT, CEMIT, CSTEP and CHAIN (R220 to R224, R355) with the turn, and, where they act on the boundary, with no
command on it under way: the bond dimensions, the order and the reservation are set; the commands take their place in the array's
order and are charged. CSTEP queues the step of the record at CSTEPIDX. CHAIN n first notes its end, CSTEPIDX + n, or traps
LEASE_PROTOCOL 3 without the budget; then it queues record after record, and M walks on from it with the last, or when none is left.
Readings: log entries 31, 34. -/
def Obligations.ChainWords : Prop :=
  ∀ (s : State) (pc : Dword) (x : BitVec 8) (c k : BitVec 4) (v : BitVec 16) (n : BitVec 18) (z : Nat) (t : Row) (el : ReadBox)
    (d2 : Dev), Stands s .m pc false → Claims.Turn s →
    let b := s.dev.cluster (s.env.unit / 8)
    let at_ : At := ⟨s.env.unit, .m, pc, false⟩
    let took (u : State) (kind : MKind) : Prop :=
      MemSame s u ∧ (iter u).lease.left = (iter s).lease.left - 1 ∧
        ∃ m ∈ (u.dev.cluster (s.env.unit / 8)).mq, m.kind = kind ∧ m.tile = s.env.unit
    let queued (i : Instr) (u : State) (kind : MKind) : Prop := exec i s = .next u ∧ Claims.WentOn s u pc ∧ took u kind
    let headed (u : State) (st : ChainStep) : Prop := ∀ y, st.emit = some y → (iter u).head = some y
    (v ≠ 0 → ∃ u, exec (.bdset k v) s = .next u ∧ Claims.WentOn s u pc ∧
      (iter u).csr = { (iter s).csr with bd := (iter s).csr.bd.setIfInBounds k.toNat v }) ∧
    (chainBusy s.dev (s.env.unit / 8) = false →
      (∃ u, exec (.cord c) s = .next u ∧ Claims.WentOn s u pc ∧
        (iter u).csr = { (iter s).csr with cord := ((iter s).c c).setWidth 55, cstep := 0 }) ∧
      (n.toNat ≤ 6 → (∀ j, 8 - n.toNat ≤ j → j < 8 → (b.slot j).st = .free ∨ (b.slot j).st = .reserved) →
        (if b.bnd.empty then 0 else b.bnd.size * 4) ≤ n.toNat * 262144 →
        ∃ u, exec (.cbound n) s = .next u ∧ Claims.WentOn s u pc ∧ (u.dev.cluster (s.env.unit / 8)).resv = n.toNat ∧
          (iter u).csr.bcap.toNat = n.toNat * 1024 ∧
          (∀ i, i < 8 → (u.dev.tile (8 * (s.env.unit / 8) + i)).core.csr.bcap.toNat ≤ n.toNat * 1024) ∧
          ∀ j, 8 - n.toNat ≤ j → j < 8 → ((u.dev.cluster (s.env.unit / 8)).slot j).st = .reserved) ∧
      ((iter s).mfence.toNat ≤ ((iter s).engine .a).walk.toNat →
        (0 < (iter s).lease.left →
          (tidOf (iter s).tids x.toNat = some t → initBad t (fields4 ((iter s).c c)) (fields4 ((iter s).c (c + 1))) = false →
            tFmt t < 7 → (fields4 ((iter s).c (c + 1))).foldl (· * ·) 1 * 4 ≤ (iter s).csr.bcap.toNat * 256 →
            readInit s.env at_ t (fields4 ((iter s).c c)) (fields4 ((iter s).c (c + 1))) (Claims.turned s) = .ok el d2 →
            ∃ u, queued (.cinit x c) u (.cinit (fields4 ((iter s).c (c + 1))) el)) ∧
          (bndLost s.dev s.env.unit = false → (iter s).head = none → b.nextFree = some z →
            let mn := emitShape b.bnd.ba b.bnd.bm.toList
            mn.1 ≤ 256 → mn.2 ≤ 256 →
            ∃ u, queued .cemit u (.emit (BitVec.ofNat 3 z)) ∧ (iter u).head = some (BitVec.ofNat 3 z)) ∧
          ∀ r core st, Claims.StepRuns s r core st →
            ∃ u, queued .cstep u (.step st) ∧ headed u st ∧ (iter u).csr.cstep = (iter s).csr.cstep) ∧
        ((iter s).csr.chainE = none →
          (n.toNat ≤ (iter s).lease.left → ∃ u, exec (.chain n) s = .next u ∧ MemSame s u ∧ (iter u).lease.left = (iter s).lease.left ∧
            (iter u).csr.chainE = some (BitVec.ofNat 64 ((iter s).csr.cstep.toNat + n.toNat)) ∧
            ((iter u).engine .m).pc = ((iter s).engine .m).pc ∧ (u.dev.cluster (s.env.unit / 8)).mq = b.mq) ∧
          ((iter s).lease.left < n.toNat → ∀ w, encode (.chain n) = some w →
            exec (.chain n) s = .next (withDev s (enterTrap s.env s.dev s.env.unit .m pc 0x06 3 (BitVec.ofNat 64 (iter s).lease.left)
              (w.setWidth 64) 0)))) ∧
        ∀ e, (iter s).csr.chainE = some e →
          (e.toNat ≤ (iter s).csr.cstep.toNat →
            ∃ u, exec (.chain n) s = .next u ∧ Claims.WentOn s u pc ∧ (iter u).lease.left = (iter s).lease.left ∧
              (iter u).csr.chainE = none ∧ (u.dev.cluster (s.env.unit / 8)).mq = b.mq) ∧
          ((iter s).csr.cstep.toNat < e.toNat →
            ((iter s).chainOk = true ∨ e.toNat - (iter s).csr.cstep.toNat ≤ (iter s).lease.left) →
            ∀ r core st, Claims.StepRuns s r core st →
              (e.toNat = (iter s).csr.cstep.toNat + 1 →
                ∃ u, queued (.chain n) u (.step st) ∧ headed u st ∧ (iter u).csr.chainE = none) ∧
              ((iter s).csr.cstep.toNat + 1 < e.toNat → ∃ u, exec (.chain n) s = .next u ∧ took u (.step st) ∧ headed u st ∧
                (iter u).csr.chainE = some e ∧ ((iter u).engine .m).pc = ((iter s).engine .m).pc))))

/-! ### Power, the mailbox, nodes, iterations -/

/-- Power-up, power-down, a clock change and the mailbox (R371, R372, R376, R380 to R382): a successful bring-up leaves every
register and memory at its value of power-up, the lanes that the part does not have in state 0 and those that fail loopback in 5, with two
measurements made; it ends with 2 or 3 where the image in flash fails the root key, the signature or the least version, and with 1, 4 or 5
where it passes (R379). EXTEND and ATTEST make their effect once, and the command then finishes; a frozen page holds EXTEND back. The
model's own: what of it a power-up leaves and the octets of keys and image (log entries 15, 60, 111), that POWER_UP ends as mayEnd lets it (55), SHA-384
and the curve's numbers (67), that the first entry's sequence number is 0 (86). -/
def Obligations.ManagementSteps : Prop :=
  ∀ (s : State) (stat : BitVec 8) (island : Nat) (mhz : BitVec 16),
    let g := s.dev.mgmt
    let m := s.env.caps.mlog.toNat
    let n := g.mlogcnt.toNat
    let f := s.dev.flash.getD Config.flashImage
    let fails (b q p : Nat) : Bool := (Config.loopbackFails s.env.tick).getLsbD (laneKey b q p)
    let st (b q p : Nat) : BitVec 3 := if s.env.caps.laneEn.getLsbD (laneKey b q p) = false then 0
      else if (stat = 1 ∨ stat = 5) ∧ fails b q p = true then 5 else 1
    let passes : Prop := beNat (sha384 (keyOctets (f.keyX, f.keyY))) = Config.rootDigest.toNat ∧
      ecdsaVerify (f.keyX, f.keyY) (beNat (sha384 (signedOctets f))) (f.r, f.s) = true
    (∃ f, exec .powerDown s = .next (withDev s { powered := false, flash := f }) ∧
      f = (match Config.newFlash s.env.tick with | some x => some x | none => s.dev.flash)) ∧
    (s.dev.powered = false ∨ g.bootstat = 0 →
      (mayEnd stat f = true ↔ if ¬ passes then stat = 2 else if f.ver.toNat < Config.minVersion.toNat then stat = 3
        else stat = 1 ∨ stat = 4 ∨ stat = 5) ∧
      (mayEnd stat f = false → exec (.powerUp stat) s = .next s) ∧
      (mayEnd stat f = true → ∃ t, exec (.powerUp stat) s = .next t ∧ t.env = s.env ∧
        (∀ b q p, b < 4 → q < 2 → p < 64 → 
          t.dev.lane b q p = { state := st b q p } ∧
          (KernelRec.lane b q p ∈ t.dev.kernel ↔
            s.env.caps.laneEn.getLsbD (laneKey b q p) = true ∧ (stat = 1 ∨ stat = 5) ∧ fails b q p = true)) ∧
        (stat ≠ 1 → t.dev =
          { mgmt := { bootstat := stat }, lanes := t.dev.lanes, kernel := t.dev.kernel, flash := s.dev.flash }) ∧
        (stat = 1 →
          t.dev = { mem := t.dev.mem, mgmt := t.dev.mgmt, lanes := t.dev.lanes, kernel := t.dev.kernel, cores := freshCores
                    ports := freshPorts, flash := s.dev.flash } ∧
          t.dev.mgmt = { bootstat := 1, ready := true, mlogcnt := 2, meas := t.dev.mgmt.meas, fwVer := f.ver } ∧
          ∀ a, a < m ∨ m + 128 ≤ a → Memory.get a t.dev.mem = 0))) ∧
    (mhz.toNat ≤ (vget s.env.caps.maxF 0 island).toNat →
      exec (.islandClockChange island mhz) s = .next (withDev s { s.dev with mgmt := { g with curF := g.curF.set island mhz } })) ∧
    (g.mbState = 1 → g.mbOp = 1 →
      (n < 4096 → frozenAt s.dev (m + 64 * n) = true → exec .extend s = .next s ∧ exec .mailboxCommandDone s = .next s) ∧
      (n < 4096 → frozenAt s.dev (m + 64 * n) = false → ∃ t, exec .extend s = .next t ∧
        t.dev.mgmt = { g with mbOp := 0, mbResult := 0, mlogcnt := g.mlogcnt + 1,
                              meas := BitVec.ofNat 384 (leNat (sha384 (octets 48 g.meas ++ mbBytes s.dev 0 48))) } ∧
        t.dev.mem = Memory.write (m + 64 * n) (mbBytes s.dev 0 48 ++ mbBytes s.dev 48 4 ++ natLe 4 n ++ natLe 8 0) s.dev.mem) ∧
      (4096 ≤ n → exec .extend s = .next (withDev s { s.dev with mgmt := { g with mbOp := 0, mbResult := 3 } }))) ∧
    (g.mbState = 1 → g.mbOp = 2 → ∃ t, exec .attest s = .next t ∧
      t.dev = { s.dev with mgmt := { g with mbOp := 0, mbResult := 0, mbData := t.dev.mgmt.mbData } } ∧
      mbBytes t.dev 0 256 = natLe 4 1 ++ natLe 4 s.env.caps.devid.toNat ++ natLe 8 n ++ natLe 16 g.fwVer.toNat ++
        mbBytes s.dev 0 48 ++ octets 48 g.meas ++ sha384 (keyOctets identityPub) ++ List.replicate 80 0 ∧
      (let sig := identitySign s.env (mbBytes t.dev 0 256)
       mbBytes t.dev 256 96 = beOctets 48 sig.1 ++ beOctets 48 sig.2) ∧
      mbBytes t.dev 352 160 = mbBytes s.dev 352 160) ∧
    (g.mbState = 1 → g.mbOp = 0 → exec .mailboxCommandDone s = .next (withDev s { s.dev with mgmt := { g with mbState := 2 } }))

/-- A store to a launch port page and a walker's dispatch (R40 to R43, R51 to R53): an accepted record makes a node, ready when its
DEPCNT is 0; the walker with one node that has an iteration to dispatch starts it on the tile that placement gives, with the state
of R52. The walker that enumerates a node: log entry 75; other readings: log entry 63. -/
def Sys2Proof.Claims.LaunchSteps : Prop :=
  ∀ (s : State) (vf : BitVec 10) (va : Dword) (loc : Loc) (cls : BitVec 4) (d1 : Dev) (n k : Nat) (x : Node) (b : List (Nat × Nat)),
    (va.toNat % 128 = 0 → locate s.env s.dev { whoVf s.dev vf 640 with unit := .core s.env.unit } { write := true } va = .ok (loc, cls) d1 →
      let ld := loadSpan s.env (.core s.env.unit) vf cls 3 d1 loc 128
      let r := putBits (leNat ld.1) 768 64 (leNat (getBytes ld.2 (loc.plus 96) 8))
      recBits r 784 4 = 0 → recCheck s.env ld.2 vf r = 0 →
      ∃ t, exec (.launchPortStore vf va) s = .next t ∧ t.dev.nodeNext = s.dev.nodeNext + 1 ∧
        ∃ y, t.dev.nodes.find s.dev.nodeNext = some y ∧ y.va = va ∧ y.next = 0 ∧ y.done = 0 ∧
          y.copy = BitVec.ofNat 768 (leNat ld.1) ∧ y.ph = (if recBits r 768 16 = 0 then .ready else .waiting) ∧
          (availTiles s.env ld.2 vf (recBits r 654 4)).head?.map dieOfTile = some y.die) ∧
    (s.dev.nodes.entries = [(n, x)] → x.ph = .ready → x.fld 658 2 ≠ 1 → x.next < x.total → (s.dev.vf x.vf.toNat).tearing = false →
      x.die = s.env.unit → resumables s.dev n = [] →
      placeNext s.env s.dev x.bound.length n x = some (k, b) →
      let r := x.copy.toNat
      let v := recVals r x.next
      ∃ t, exec .walkerDispatch s = .next t ∧ (t.dev.tile k).running = true ∧ (t.dev.tile k).tag = some x.vf ∧
        t.dev.node n = some { x with ph := .running, next := x.next + 1, bound := b } ∧
        let c := (t.dev.tile k).core
        (∀ e, c.engine e = { pc := BitVec.ofNat 64 (recBits r 0 55) }) ∧ c.q = {} ∧ c.tok = Vector.replicate 16 0 ∧ c.ev = [] ∧
        c.s 1 = BitVec.ofNat 64 (recWid r v) ∧ (∀ i, i < 6 → c.s (BitVec.ofNat 5 (2 + i)) = BitVec.ofNat 64 (v.getD i 0)) ∧
        c.s 8 = BitVec.ofNat 64 (recBits r 64 55) ∧ (∀ i, 10 ≤ i → i < 32 → c.s (BitVec.ofNat 5 i) = 0) ∧
        (∀ i, c.a i = c.s i) ∧ c.csr.vfid = x.vf ∧ c.csr.asid = (s.dev.vf x.vf.toNat).asid ∧ c.csr.tvec = 0 ∧
        c.csr.win = (if recBits r 672 16 = 0 then 4096 else BitVec.ofNat 16 (recBits r 672 16)) ∧ c.iter.wid = c.s 1)

/-- The end of nodes (R47, R48, R334): a retirement message counts its iteration, and fails the node where it reports a termination;
a node whose iterations have all retired, with no flag and no successors, completes with STATE 4 in its record; a failed one is
released. A completion whose STATE write waits is taken up again later. A node fails at the message that reports a termination (log
entry 49). -/
def Sys2Proof.Claims.NodeSteps : Prop :=
  ∀ (s : State) (x : Node) (m : RetMsg) (va : Dword) (b : List Byte) (d1 : Dev),
    (s.dev.retMsgs[s.env.unit]? = some m → s.dev.node m.node = some x →
      let d := { s.dev with retMsgs := s.dev.retMsgs.eraseIdx s.env.unit
                            nodes := s.dev.nodes.set m.node { x with done := x.done + 1 } }
      (m.term = false → exec .retirementMessage s = .next (withDev s d)) ∧
      (m.term = true → x.ph = .running → exec .retirementMessage s = .next (withDev s (setNodeState s.env
        { d with nodes := s.dev.nodes.set m.node { x with done := x.done + 1, ph := .failed, failed := true } } x.vf x.va 5)))) ∧
    (s.dev.node s.env.unit = some x → x.ph = .running → x.done = x.total → nodeBusy s.dev s.env.unit = false →
      x.fld 192 55 = 0 → x.fld 720 7 = 0 → x.fin = 0 →
      let z := coverTs s.env s.dev x
      (∀ ts, writeState s.env s.dev x.vf x.va z.ts 4 = .ok ts d1 → exec .nodeCompletion s = .next (withDev s
        { d1 with nodes := d1.nodes.set s.env.unit { z with ph := .ended, fin := 2, ts := dmax z.ts ts } })) ∧
      (∀ w, writeState s.env s.dev x.vf x.va z.ts 4 = .wait w d1 → exec .nodeCompletion s = .next (withDev s
        { d1 with nodes := d1.nodes.set s.env.unit { z with ph := .finishing, fin := 1 } }))) ∧
    (let vf := BitVec.ofNat 10 s.env.unit
     let w : Dword := (va.setWidth 55).setWidth 64
     hwRead s.env (whoVf s.dev vf 640) .none 2 s.dev w 128 = .ok b d1 → w.toNat % 128 = 0 → recBits (leNat b) 784 4 = 6 →
      let p := releasedNode d1 vf w (leNat b)
      let d := { d1 with nodeNext := if p.1 = d1.nodeNext then p.1 + 1 else d1.nodeNext }
      p.2.fld 192 55 = 0 → p.2.fld 720 7 = 0 →
      ∀ ts d2, writeState s.env d p.2.vf p.2.va p.2.ts 4 = .ok ts d2 → exec (.releaseWrite va) s = .next (withDev s
        { d2 with nodes := d2.nodes.set p.1 { p.2 with ph := .ended, fin := 2, ts := dmax p.2.ts ts } }))

/-- The steps of the launch port, of the walkers and of the nodes (R40 to R43, R47, R48, R51 to R53, R334). -/
def Obligations.LaunchAndNodeSteps : Prop :=
  Claims.LaunchSteps ∧ Claims.NodeSteps

/-- What an iteration's engines hold once nothing blocks them (R315, R325). -/
def Sys2Proof.Claims.Unblocked (c t : TCore) : Prop :=
  t.regs = c.regs ∧ t.q = c.q ∧ t.csr = c.csr ∧ t.tok = c.tok ∧ t.ev = c.ev ∧ ∀ e, t.engine e = { c.engine e with wait := none }

/-- Pre-emption, retirement, TERMINATE and the resumption of a halted engine (R318, R322, R325, R334). Readings: log entries 38, 48.
-/
def Sys2Proof.Claims.IterationSteps : Prop :=
  ∀ (s : State) (g : Eng) (d1 : Dev),
    let y := unitTile s
    let k := s.dev.cluster (s.env.unit / 8)
    (y.running = true → y.preReq = true → y.saving = false → y.dbg.stopped = false → y.dbg.pending = false → y.dbg.step = none →
      ∃ t, exec .preemptRequest s = .next t ∧ t.dev.mem = s.dev.mem ∧ Claims.Unblocked (iter s) (iter t) ∧
        unitTile t = { y with saving := true, preReq := false, core := iter t } ∧ (∀ w ∈ t.dev.waiters, w.tile ≠ s.env.unit) ∧
        ∀ e, ready t.dev s.env.unit e = .no) ∧
    (y.running = true → y.saving = true →
      writeContext s.env s.dev s.env.unit (k.holder == some s.env.unit || k.reqs.contains s.env.unit) = .ok () d1 →
      ∃ t c, exec .contextSaveDone s = .next t ∧ (unitTile t).running = false ∧ (unitTile t).saving = false ∧ iter t = {} ∧
        (unitTile t).saved = y.saved ++ [c] ∧ c = { iter s with lease := c.lease } ∧
        (t.dev.cluster (s.env.unit / 8)).holder ≠ some s.env.unit) ∧
    (y.running = true → y.saving = false → y.dbg.stopped = false → y.dbg.pending = false → (iter s).trap.hand = none →
      (iter s).trap.undel = false → (iter s).trap.stuck = false → (∀ e, ((iter s).engine e).stopped = true) →
      iterBusy s.dev s.env.unit (iter s).iter.serial = false → (iter s).head = none →
      ∃ t, exec .iterationRetirement s = .next t ∧ t.dev.mem = s.dev.mem ∧ (unitTile t).running = false ∧ iter t = {} ∧
        t.dev.retMsgs = s.dev.retMsgs ++
          [{ node := (iter s).iter.node, wid := (iter s).iter.wid, term := (iter s).iter.term }]) ∧
    (y.running = true → ∃ t, exec .terminate s = .next t ∧ (y.dbg.inStop = false → t.dev.mem = s.dev.mem) ∧ (unitTile t).running = true ∧
      (unitTile t).saving = false ∧ (unitTile t).dbg.stopped = false ∧ (iter t).q = {} ∧ (iter t).sfu = Vector.replicate 8 none ∧
      (iter t).park = {} ∧ (iter t).head = none ∧ (iter t).iter.term = true ∧ (iter t).trap.hand = none ∧
      (iter t).lease.held = false ∧ (t.dev.cluster (s.env.unit / 8)).holder ≠ some s.env.unit ∧
      ∀ e, ((iter t).engine e).stopped = true ∧ ((iter t).engine e).halted = false ∧ ((iter t).engine e).outs = []) ∧
    exec (.resumeEngine g) s = .next (withDev s (s.dev.onCore s.env.unit fun c => c.onEng g fun x => { x with halted := false }))

/-- The teardown of a VF (R333): its running iterations are terminated and its saved ones discarded; at the end the generation moves
on and nothing is left of its nodes and its commands. The moment of the end is free (log entries 3, 50). -/
def Sys2Proof.Claims.TeardownSteps : Prop :=
  ∀ (s : State) (v : BitVec 10), s.env.unit = v.toNat →
    ((s.dev.vf v.toNat).tearing = false → ∃ t, exec .vfTeardown s = .next t ∧ (t.dev.vf v.toNat).tearing = true ∧
      ∀ k, ((t.dev.tile k).running = true → (t.dev.tile k).core.csr.vfid = v →
          (t.dev.tile k).core.iter.term = true ∧ ∀ e, ((t.dev.tile k).core.engine e).stopped = true) ∧
        ∀ c ∈ (t.dev.tile k).saved, c.csr.vfid ≠ v) ∧
    ((s.dev.vf v.toNat).tearing = true → ∃ t, exec .teardownTimeout s = .next t ∧ t.dev.mem = s.dev.mem ∧
      t.dev.vf v.toNat = { s.dev.vf v.toNat with tearing := false, gen := (s.dev.vf v.toNat).gen + 1 } ∧
      (∀ n x, t.dev.nodes.find n = some x → x.vf ≠ v) ∧
      (∀ n x, s.dev.nodes.find n = some x → x.vf ≠ v → t.dev.nodes.find n = some x) ∧
      ∀ k q, (t.dev.tile k).aq.toList.getD q [] = ((s.dev.tile k).aq.toList.getD q []).filter fun c => c.vf != v)

/-- Pre-emption, retirement and teardown (R318, R322, R325, R333, R334). -/
def Obligations.IterationAndTeardownSteps : Prop :=
  Claims.IterationSteps ∧ Claims.TeardownSteps

/-- The stall watchdog, a region rollback and the landing of the one pending result (R74 to R76, R176, R323). Which engine the
records name: log entry 17. -/
def Obligations.StallAndRollback : Prop :=
  ∀ (s : State) (r : Sfu) (w : Wait), tileLive (unitTile s) = true →
    let c := iter s
    let pack (f : Engine → Nat) : Dword := BitVec.ofNat 64
      (f (c.engine .x) + 2 ^ 8 * f (c.engine .a) + 2 ^ 16 * f (c.engine .v) + 2 ^ 24 * f (c.engine .m))
    (c.trap.hand = none → (∀ e, stallCode (c.engine e) ≠ 0) → (∃ e, (c.engine e).stopped = false) → 2 ^ 20 ≤ c.stall → c.csr.tvec ≠ 0 →
      c.csr.profctl = 0 → ∃ t, exec .engineStallWatchdog s = .next t ∧ MemSame s t ∧
        Claims.Trapped c (iter t) .x (c.engine .x).pc 0x0E (pack stallCode) ∧ (iter t).trap.info1 = pack stallDetail) ∧
    (c.trap.hand = none → (c.engine .x).rgnPc ≠ 0 → ∃ t, exec (.regionRollback .uncorrectable) s = .next t ∧
      (iter t).regs = c.regs ∧ (iter t).q = {} ∧ (iter t).tok = Vector.replicate 16 0 ∧ (iter t).sfu = Vector.replicate 8 none ∧
      (iter t).csr = { c.csr with chainE := none } ∧
      ∀ e, ((iter t).engine e).pc = (c.engine e).rgnPc ∧ ((iter t).engine e).walk = (c.engine e).rgnWalk ∧
        ((iter t).engine e).ret = (c.engine e).rgnRet ∧ ((iter t).engine e).outs = [] ∧ ((iter t).engine e).stopped = false) ∧
    (c.trap.hand = none → (c.engine .x).rgnPc = 0 → ∃ t, exec (.regionRollback .uncorrectable) s = .next t ∧
      (iter t).trap.stuck = true ∧ Claims.Unblocked c (iter t) ∧ ∀ e, ready t.dev s.env.unit e = .no) ∧
    (c.trap.hand = none → (unitTile s).dbg.step = none → (c.engine .v).wait = some w → w.tick = true → w.detail ≠ 8 → c.pending = [r] →
      ∃ t, exec .sfuResultLand s = .next t ∧ MemSame s t ∧ (iter t).sfu = Vector.replicate 8 none ∧
        (iter t).csr = { c.csr with vflags := c.csr.vflags ||| r.flags } ∧
        let old := vget c.regs.v (Vector.replicate 512 0) r.preg.toNat
        (iter t).regs = { c.regs with v := vset c.regs.v r.preg.toNat (Vector.ofFn fun i => if r.act.getLsbD i.val then r.data[i] else old[i]) })

/-! ### Commands, the array, the rake, memory -/

/-- The head command of queue q of the tile, with the commands behind it. -/
def Sys2Proof.Claims.Head (s : State) (q : BitVec 5) (c : Cmd) (l : List Cmd) : Prop := s.dev.queue s.env.unit q.toNat = c :: l

/-- The head of queue q is a COPY that has moved and sent nothing, whose bytes lie in one unit of coherence at each end: where they come
from and go to, and the device with both translations kept; no share is gated, and no branch of a packet to that unit is due (R150, R244,
R268). -/
def Sys2Proof.Claims.CopyAt (s : State) (q : BitVec 5) (c : Cmd) (l : List Cmd) (a b : Loc) (ca cb : BitVec 4) (d1 d2 : Dev) : Prop :=
  Claims.Head s q c l ∧ c.kind = .copy ∧ c.stall = none ∧ c.off = 0 ∧ c.out = [] ∧ 0 < (c.op 2).toNat ∧
  locate s.env s.dev (cmdWho s.env.unit c) {} (c.op 0) = .ok (a, ca) d1 ∧
  locate s.env d1 (cmdWho s.env.unit c) { write := true } (c.op 1) = .ok (b, cb) d2 ∧
  (c.op 2).toNat ≤ a.unit - a.inUnit ∧ (c.op 2).toNat ≤ b.unit - b.inUnit ∧ (d2.share (dieOfTile s.env.unit)).gate = false ∧
  branchDue s.env s.dev s.env.unit b = false

/-- The bytes that such a COPY reads on the path of its queue: those that stand there, or older ones that no fence has ordered before it
(R310; free: log entry 8). -/
def Sys2Proof.Claims.copyBytes (s : State) (q : BitVec 5) (c : Cmd) (a : Loc) : List Byte :=
  readBytes s.env s.dev (.tile s.env.unit (aqPath q.toNat)) a (c.op 2).toNat

/-- What a write of path p of the tile leaves at a place: its bytes, or, where an earlier store of A that no fence has ordered before the
path comes after it, the byte that stands (R132; free: log entry 105). -/
def Sys2Proof.Claims.left (s : State) (p : Nat) (z : Loc) (b : List Byte) : List Byte := overStore s.env s.dev s.env.unit p z b

/-- Bytes that a path has read at a place for work that is not complete: as it has read them, or as it reads them now, byte by byte (R310;
free: log entry 106). -/
def Sys2Proof.Claims.late (s : State) (p : Nat) (vf : BitVec 10) (a : Loc) (b : List Byte) : List Byte :=
  if a.stillOf s.dev vf then b.mapIdx fun i x =>
    if Config.readLate s.env.tick (a.key + i) then (readBytes s.env s.dev (.tile s.env.unit p) a b.length).getD i x else x
  else b

/-- The device when such a COPY has read its bytes and their write has been performed. -/
def Sys2Proof.Claims.copied (s : State) (q : BitVec 5) (c : Cmd) (a b : Loc) (ca cb : BitVec 4) (d2 : Dev) : Dev :=
  putOut s.env s.env.unit q.toNat c.vf
    (loadHint s.env d2 (.tile s.env.unit (aqPath q.toNat)) c.vf ca (optFront c.src) a (c.op 2).toNat).2
    { loc := b, cls := cb, front := optFront c.dst, bytes := Claims.copyBytes s q c a, src := some (a, ca, optFront c.src) }

/-- The steps of the asynchronous queues (R145, R149 to R151, R155, R321): a COPY writes its bytes and posts its record; bytes that
are performed are counted against its barrier object; of what it has sent, the first bytes may be performed alone; at a fault it stalls
with its offset; a stalled queue goes on, or its command fails; a NOTIFY at the head of its queue posts its record. That these are steps
is the model's, and which bytes come first, and which of the values held they have, is free (log entries 8, 26, 89, 105, 106). -/
def Sys2Proof.Claims.CommandSteps : Prop :=
  ∀ (s : State) (q : BitVec 5) (c : Cmd) (l : List Cmd) (n code : Nat) (k : BitVec 8) (va : Dword) (a b z : Loc) (ca cb cz : BitVec 4)
    (d1 d2 d4 : Dev) (o : BarObj) (w : OutWr), q.toNat ≤ 3 →
    (Claims.CopyAt s q c l a b ca cb d1 d2 → c.tk = 2 → (unitTile s).runs c.serial = true → (iter s).ev.length < 256 →
      ∃ t ts, exec (.commandCompletion q) s = .next t ∧ t.dev.queue s.env.unit q.toNat = l ∧
        t.dev.mem = Memory.write b.key (Claims.left s 1 b (Claims.copyBytes s q c a)) s.dev.mem ∧
        (iter t).ev = (iter s).ev ++ [(cmdRecord c.tgt (c.op 2).toNat 0 q.toNat 0, ts)] ∧ (iter t).regs = (iter s).regs) ∧
    (Claims.CopyAt s q c l a b ca cb d1 d2 → c.tk = 1 → c.tgt.toNat % 16 = 0 → n = (c.op 2).toNat →
      let d3 := setHead (Claims.copied s q c a b ca cb d2) s.env.unit q.toNat { c with off := n }
      locate s.env d3 (cmdWho s.env.unit c) { write := true } c.tgt = .ok (z, cz) d4 → o = barOf (getBytes d4 z 16) → o.state = 1 →
      n < o.count →
      ∃ t, exec (.barrierDecrement q n) s = .next t ∧ Claims.Head t q { c with off := n } l ∧
        t.dev.mem = Memory.write z.key ({ o with count := o.count - n } : BarObj).bytes
          (Memory.write b.key (Claims.left s 1 b (Claims.copyBytes s q c a)) s.dev.mem)) ∧
    (Claims.Head s q c l → c.kind = .copy → c.stall = none → c.off = (c.op 2).toNat → c.out = [w] → w.done = false → c.tk ≠ 1 →
      w.bytes.length ≤ c.off → 0 < n → n ≤ w.bytes.length →
      let b := match w.src with
        | some x => Claims.late s 1 c.vf x.1 (w.bytes.take n)
        | none => w.bytes.take n
      ∃ t, exec (.barrierDecrement q n) s = .next t ∧ t.dev.mem = Memory.write w.loc.key (Claims.left s 1 w.loc b) s.dev.mem ∧
        Claims.Head t q { c with out := if n = w.bytes.length then [] else
          [{ w with loc := w.loc.plus n, bytes := w.bytes.drop n, src := w.src.map fun x => (x.1.plus n, x.2) }] } l) ∧
    (Claims.Head s q c l → c.kind = .copy → c.stall = none → c.off = 0 → c.out = [] → 0 < (c.op 2).toNat →
      locate s.env s.dev (cmdWho s.env.unit c) {} (c.op 0) = .ok (a, ca) d1 →
      locate s.env d1 (cmdWho s.env.unit c) { write := true } (c.op 1) = .sys code va →
      ∃ t, exec (.commandStall q) s = .next t ∧ Claims.Head t q { c with stall := some (BitVec.ofNat 8 code), fva := va } l ∧
        (iter t).regs = (iter s).regs) ∧
    (Claims.Head s q c l → c.stall = some k →
      exec (.resumeQueue q) s = .next (withDev s (s.dev.setQueue s.env.unit q.toNat ({ c with stall := none } :: l))) ∧
      ∃ t, exec (.failQueueCommand q) s = .next t ∧ t.dev.queue s.env.unit q.toNat = l ∧ (iter t).regs = (iter s).regs ∧
        ∀ x, s.dev.node c.node = some x → x.ph = .running → ∃ y, t.dev.node c.node = some y ∧ y.ph = .failed) ∧
    (Claims.Head s q c l → c.isNotify = true → c.tk = 2 → (unitTile s).runs c.serial = true → (iter s).ev.length < 256 →
      ∃ t ts, exec (.notifyComplete q) s = .next t ∧ t.dev.mem = s.dev.mem ∧ t.dev.queue s.env.unit q.toNat = l ∧
        (iter t).ev = (iter s).ev ++ [(cmdRecord c.tgt 0 6 q.toNat 0, ts)] ∧ (iter t).regs = (iter s).regs)

/-- Landing (R156, R252, R253): a drained generation lets the MAPRET that waits for it go on, its last matched write performed; an arrived
packet of one element that one generation of a tile matches puts the element at the offset of its map, at once or later (log entry 77), and
behind the elements matched before it that write a byte of it (R254);
a packet of an old VF generation is discarded. -/
def Sys2Proof.Claims.LandingSteps : Prop :=
  ∀ (s : State) (pc : Dword) (w : Word) (b : BitVec 5) (sel : MapSel) (g : MapGen) (k slot : Nat) (f : Flight) (sdev : BitVec 6)
    (h : XHdr) (body : List Byte),
    (ready s.dev s.env.unit .a = .go pc false → ((iter s).engine .a).wait ≠ none → peekAt s.env s.dev s.env.unit .a pc = some w →
      decodeTotal w = .mapret b → mapSel s.env s.dev s.env.unit ((iter s).a b) = some sel → (mapSlot s.dev sel).drain = some g →
      let after (t : State) : Prop := (iter t).regs = (iter s).regs ∧ ((iter t).engine .a).pc = pc + 4 ∧
        mapSlot t.dev sel = { act := (mapSlot s.dev sel).act, drain := none }
      (pendOf s.dev g = 0 → ∃ t, exec .mapDrainComplete s = .next t ∧ MemSame s t ∧ after t) ∧
      (∀ e : LandEl, s.dev.later = [.land e] → e.gen = g → e.done = false → g.bar = 0 →
        let z := landLoc e.slice e.unit e.off
        let b := match e.ag with
          | .tile t (p + 1) => overStore s.env s.dev t (p + 1) z e.bytes
          | _ => e.bytes
        ∃ t, exec .mapDrainComplete s = .next t ∧ t.dev.mem = Memory.write z.key b s.dev.mem ∧
          t.dev.later = [] ∧ after t)) ∧
    (s.dev.flights[k]? = some f → f.pkt = .xfer sdev h body →
      (vfGen s.dev h.vf ≠ h.gen → exec (.transferPacket (.arrival k) 0) s = .next (withDev s (dropFlight s.env k s.dev))) ∧
      (vfGen s.dev h.vf = h.gen → h.slice = false → (s.dev.tile h.unit.toNat).tag = some h.vf →
        activeGens s.dev false h.unit.toNat = [(slot, g)] → g.matches h 0 = true → g.fmt = h.fmt → h.run = 1 → g.bar = 0 →
        body.length = fmtBytes h.fmt.toNat →
        let e : LandEl := { ag := .none, slice := false, unit := h.unit.toNat, slot := slot, gen := g, off := (g.offset h 0).toNat, bytes := body }
        let waits : Prop := Config.landLater s.env.tick 0 = true ∨ ∃ x y, x ∈ s.dev.later ∧ x.el = some y ∧ y.done = false ∧ y.meets e = true
        ∃ t, exec (.transferPacket (.arrival k) 0) s = .next t ∧ t.dev.flights = s.dev.flights.eraseIdx k ∧
          (¬ waits → t.dev.later = s.dev.later ∧
            t.dev.mem = Memory.write (spadKey h.unit.toNat (g.offset h 0).toNat) body s.dev.mem) ∧
          (waits → t.dev.mem = s.dev.mem ∧ t.dev.later = s.dev.later ++ [.land e]) ∧
          (t.dev.tile h.unit.toNat).core = (s.dev.tile h.unit.toNat).core))

/-- The steps of asynchronous commands and of the landing of transfers (R145, R149 to R151, R155, R156, R252, R253, R321). -/
def Obligations.QueueCommandSteps : Prop :=
  Claims.CommandSteps ∧ Claims.LandingSteps

/-- Turns (R197, R201, R203): the oldest request gets the turn once the commands of other tiles have completed; between VFs the cluster is
handed over first, with its boundary and the open heads of the departing VF gone, once the parked copies are saved; a turn past its limit accepts no more and ends once its commands have completed; a spent
turn ends for another tile. When the limit falls is free (log entries 3, 32); that a turn is granted, and the cluster handed over, only when
no command is left is the model's reading (log entry 36). -/
def Sys2Proof.Claims.TurnSteps : Prop :=
  ∀ (s : State) (t : Nat) (r : List Nat) (old : BitVec 10) (d1 : Dev),
    let n := s.env.unit
    let k := s.dev.cluster n
    let vf := (s.dev.tile t).core.csr.vfid
    (k.holder = none → k.reqs = t :: r →
      ((∃ m ∈ k.mq, m.tile ≠ t) → exec .turnGrant s = .next s) ∧
      ((∀ m ∈ k.mq, m.tile = t) → k.prevVf = none ∨ k.prevVf = some vf → exec .turnGrant s = .next (withDev s (s.dev.setCluster n
        { k with holder := some t, reqs := r, expired := false, prevVf := some vf }))) ∧
      (k.prevVf = some old → old ≠ vf → drainsFor k old = false → k.mq = [] →
        parkTiles s.env old ((List.range 8).map (8 * n + ·)) s.dev = .ok () d1 →
        ∃ u, exec .turnGrant s = .next u ∧ (u.dev.cluster n).holder = some t ∧ (u.dev.cluster n).prevVf = some vf ∧
          (u.dev.cluster n).bnd.empty = true ∧ (k.bnd.empty = false → old ∈ (u.dev.cluster n).bnd.lost) ∧
          ∀ j, ((u.dev.cluster n).slot j).st = .open_ → ((u.dev.cluster n).slot j).vf ≠ old)) ∧
    (k.holder = some t → t / 8 = n →
      (mIdle s.dev t = false → exec .turnTimeLimit s = .next (withDev s (s.dev.setCluster n { k with expired := true }))) ∧
      (mIdle s.dev t = true → ∃ u, exec .turnTimeLimit s = .next u ∧ u.dev.mem = s.dev.mem ∧ (u.dev.cluster n).holder = none ∧
        (u.dev.tile t).core.lease.endc = 4 ∧ (u.dev.tile t).core.lease.held = (s.dev.tile t).core.lease.held) ∧
      (mIdle s.dev t = true → (s.dev.tile t).core.lease.left = 0 → k.reqs ≠ [] → atLeased s.env s.dev t = false →
        (s.dev.tile t).dbg.stopped = false → (s.dev.tile t).dbg.pending = false →
        ∃ u, exec .turnEndBudget s = .next u ∧ u.dev.mem = s.dev.mem ∧ (u.dev.cluster n).holder = none ∧
          (u.dev.tile t).core.lease.endc = 3 ∧ (u.dev.tile t).core.lease.held = (s.dev.tile t).core.lease.held))

/-- The array and the notifies of the matrix path (R34, R113, R210, R219, R222): a command's product goes to its slot, a step's to
the boundary, on which a first one begins with its box, and the flags become visible; operands are as read at acceptance or up to then (log
entry 106). A notify with nothing left before it posts its record. -/
def Sys2Proof.Claims.ArraySteps : Prop :=
  ∀ (s : State) (m : MCmd) (z : BitVec 3) (g : Nat) (a b : OpRead) (st : ChainStep) (n : MNote) (tag : Dword),
    let k := s.dev.cluster s.env.unit
    let core (u : State) : TCore := (u.dev.tile m.tile).core
    (k.mq = [m] → k.expired = false → (s.dev.tile m.tile).runs m.serial = true → (s.dev.tile m.tile).savedOf m.serial = none →
      (m.kind = .mma z g a b →
        let x := k.slot z.toNat
        let a1 := a.late s.env m.tile m.vf s.dev
        let b1 := b.late s.env m.tile m.vf a1.2
        let p := matMul x.acc g a1.1.opnd b1.1.opnd x.elems
        ∃ u, exec .matrixCommandComplete s = .next u ∧ MemSame s u ∧ (u.dev.cluster s.env.unit).mq = [] ∧
          (u.dev.cluster s.env.unit).slot z.toNat = { x with elems := p.1 } ∧ (core u).csr.mstat = (core s).csr.mstat ||| p.2 ∧
          (core u).lease.lastF = p.2 ∧ (core u).regs = (core s).regs) ∧
      (m.kind = .step st → st.emit = none →
        let y := st.core.late s.env m.tile m.vf s.dev
        let p := absorb st (st.cols y.1) (match st.init with
          | some (ext, box) => k.bnd.load m.vf ext (box.late s.env m.tile m.vf y.2).1.fp32
          | none => k.bnd)
        ∃ u, exec .chainRecordComplete s = .next u ∧ MemSame s u ∧ (u.dev.cluster s.env.unit).mq = [] ∧
          (u.dev.cluster s.env.unit).bnd = p.1 ∧ (core u).csr.cstep = (core s).csr.cstep + 1 ∧
          (core u).csr.mstat = (core s).csr.mstat ||| p.2 ∧ (core u).regs = (core s).regs)) ∧
    (let j := s.env.unit / 8
     (s.dev.cluster j).notes = [n] → n.tile = s.env.unit → n.tag = some tag → (s.dev.cluster j).mq = [] →
      jobsLeft s.dev s.env.unit n.serial n.walk = [] → (unitTile s).runs n.serial = true → (iter s).ev.length < 256 →
      ∃ u, exec .mnotifyComplete s = .next u ∧ MemSame s u ∧ (u.dev.cluster j).notes = [] ∧
        (iter u).ev = (iter s).ev ++ [(cmdRecord tag 0 7 31 0,
          dmax (getPts s.dev (.tile s.env.unit 5)) (getPts s.dev (.tile s.env.unit 3)))])

/-- The steps of a cluster's turns and of its matrix array (R34, R113, R197, R201, R203, R210, R219, R222). -/
def Obligations.TurnAndArraySteps : Prop :=
  Claims.TurnSteps ∧ Claims.ArraySteps

/-- The rake (R214, R216, R217, R321): it takes the oldest slot once that is closed, writes the elements and frees the slot; at a
fault it stops at the element, and goes on there, or the slot fails and is freed. Readings: log entries 37, 105, 107. -/
def Sys2Proof.Claims.RakeMoves : Prop :=
  ∀ (s : State) (x : Nat) (l : List Nat) (r : Rake) (j : RakeJob) (loc : Loc) (cls : BitVec 4) (d2 : Dev) (code : Nat) (va : Dword)
    (e : BitVec 8),
    let n := s.env.unit
    let k := s.dev.cluster n
    (k.rake = none → k.order = x :: l → x < 8 → (k.slot x).st = .closed →
      ∃ u, exec .rakeStart s = .next u ∧ u.dev.mem = s.dev.mem ∧ (u.dev.cluster n).rake = some { slot := BitVec.ofNat 3 x } ∧
        (u.dev.cluster n).slot x = { k.slot x with st := .draining } ∧ ∀ i, i ≠ x → (u.dev.cluster n).slot i = k.slot i) ∧
    (k.rake = some r → (k.slot r.slot.toNat).job = some j → j.xfer = false → j.sb = none → r.stall = none →
      let y := k.slot r.slot.toNat
      r.elem + 1 = y.m * y.n → r.out = [] →
      (locate s.env s.dev j.who { write := true } (j.dest y r.elem) = .ok (loc, cls) d2 → (d2.share (dieOfTile j.tile)).gate = false →
        rdDone j.desc = 0 →
        ∃ u, exec .rakeOutputPerformed s = .next u ∧ (u.dev.cluster n).rake = none ∧ (u.dev.cluster n).slot r.slot.toNat = {} ∧
          u.dev.mem = Memory.write loc.key (overStore s.env s.dev j.tile 5 loc
            (natLe (fmtBytes (rdOfmt j.desc)) (rakeElem j.desc y.acc (y.elems.getD r.elem 0) none))) s.dev.mem) ∧
      (locate s.env s.dev j.who { write := true } (j.dest y r.elem) = .sys code va →
        ∃ u, exec .rakeStall s = .next u ∧
          (u.dev.cluster n).rake = some { r with stall := some (BitVec.ofNat 8 code), fva := va } ∧
          (u.dev.cluster n).slot r.slot.toNat = y)) ∧
    (let c := s.dev.cluster (n / 8)
     c.rake = some r → (c.slot r.slot.toNat).job = some j → r.stall = some e →
      exec .resumeRake s = .next (withDev s (s.dev.setCluster (n / 8) { c with rake := some { r with stall := none } })) ∧
      ∃ u, exec .failRakeSlot s = .next u ∧ (u.dev.cluster (n / 8)).rake = none ∧ (u.dev.cluster (n / 8)).slot r.slot.toNat = {} ∧
        ∀ y, s.dev.node j.node = some y → y.ph = .running → ∃ z, u.dev.node j.node = some z ∧ z.ph = .failed)

/-- The rake takes a closed slot, processes its elements and ends (R216, R217), and the value of an element that it writes (R18,
R216). -/
def Obligations.RakeSteps : Prop :=
  Claims.RakeMoves ∧ Claims.RakeValues

/-- Frames, staging ways, LCAP, shares and the ageing of timestamps (R199, R239, R242, R259, R270, R300): an unowned frame takes a
tag, and one that is owned is recorded to the kernel; a released one is scrubbed to zero with no copy left and no owner; a change of
STAGE takes effect, once no line of the way is pinned, with the way zeroed and no line in it; what has been sent is performed before; a refill gives the only tile that runs on a die its share, and an idle one nothing. Readings: log entries 3, 11, 43 (where the record of a refused
FRAMEASSIGN goes), 57. -/
def Obligations.MemorySteps : Prop :=
  ∀ (s : State) (vf : BitVec 10) (w k : Nat) (v : Dword) (st : Bool), w < 16 →
    let n := s.env.unit
    let fr := s.dev.frame n
    let way (d : Dev) : SWay := vget (d.slice n).sway {} w
    let sent := drainSent s.env s.dev
    (fr.owned = false → fr.scrub = false →
      exec (.frameassign vf) s = .next (withDev s (s.dev.setFrame n { vf := vf, owned := true, scrub := false }))) ∧
    (fr.owned = true → fr.scrub = false → exec (.frameassign vf) s = .next (withDev s
        { s.dev with kernel := s.dev.kernel ++ [.frame n vf] }) ∧
      exec .framerelease s = .next (withDev s (sent.setFrame n { fr with scrub := true }))) ∧
    (fr.scrub = true → ∃ t, exec .scrubComplete s = .next t ∧ (t.dev.frame n).scrub = false ∧
      (fr.next = none → (t.dev.frame n).owned = false) ∧ (∀ a, n * 65536 ≤ a → a < n * 65536 + 65536 → Memory.get a t.dev.mem = 0) ∧
      (Memory.wf s.dev.mem = true → OutsideSame s t (n * 65536) 65536) ∧
      ∀ i, (∀ c ∈ (t.dev.tile i).l1, c.line / 512 ≠ n) ∧ ∀ c ∈ (t.dev.tile i).icache, c.line / 512 ≠ n) ∧
    (v.getLsbD 11 = true → (way sent).stage = false → ∃ t, exec (.swayStageSet w v) s = .next t ∧ t.dev.mem = sent.mem ∧
      way t.dev = { stage := false, grant := v.getLsbD 10, vf := v.setWidth 10, change := some true }) ∧
    (v.getLsbD 11 = false → (way sent).stage = true → ∃ t, exec (.swayStageClear w v) s = .next t ∧ t.dev.mem = sent.mem ∧
      way t.dev = { stage := true, grant := v.getLsbD 10, vf := v.setWidth 10, change := some false } ∧
      ∀ i x g, (t.dev.slice n).slots.find i = some x → x.act = some g ∨ x.drain = some g → w ∉ genWays g) ∧
    (let pinned : Bool := ((s.dev.slice n).sets.entries.flatMap (·.2)).any fun l => l.way == w && !l.pins.isEmpty
     (way s.dev).change = some st → (pinned = true → exec (.stageChangeComplete w) s = .next s) ∧
      (pinned = false → ∃ t, exec (.stageChangeComplete w) s = .next t ∧ way t.dev = { way s.dev with stage := st, change := none } ∧
      (∀ a, stageKey n (w * 0x40000) ≤ a → a < stageKey n (w * 0x40000) + 0x40000 → Memory.get a t.dev.mem = 0) ∧
      ∀ i, ∀ x ∈ (t.dev.slice n).sets.get [] i, x.way ≠ w)) ∧
    (1 ≤ v.toNat → v.toNat ≤ 64 →
      exec (.lcapWrite v) s = .next (withDev s (s.dev.setCluster n { s.dev.cluster n with lcap := v.setWidth 7 }))) ∧
    (s.env.caps.tileOn k = true → dieOfTile k = n →
      (∀ j, j ≠ k → s.env.caps.tileOn j = true → dieOfTile j = n → (s.dev.tile j).running = false) →
      (∀ j, s.env.caps.tileOn j = true → dieOfTile j = n → (s.dev.tile j).bucket = 0) →
      (s.dev.share n).share.entries.foldl (fun a e => a + e.2.toNat) 0 ≤ 65536 →
      ∃ t, exec .shareRefill s = .next t ∧ t.dev.mem = s.dev.mem ∧ (t.dev.tile k).core = (s.dev.tile k).core ∧
        (t.dev.tile k).bucket = if (s.dev.tile k).running = true then
          ((s.dev.share n).share.get 0 (s.dev.tile k).core.csr.vfid.toNat).toNat * (s.dev.share n).dwb.toNat / 65536 else 0) ∧
    (tileOk n = true → (s.dev.tile n).running = false → (s.dev.tile n).dbg.stopped = false → (s.dev.tile n).dbg.pending = false → exec (.ptsTick false) s = .next (withDev s
      ((setPts s.dev (.tile n 0) (getPts s.dev (.tile n 0) + 1)).onTile n fun y =>
        { y with cycle := BitVec.ofNat 64 ((y.cycle.toNat / 64 + 1) * 64) }))) ∧
    (n < 48 → exec (.ptsTick true) s = .next (withDev s (setPts s.dev (.core n) (getPts s.dev (.core n) + 1))))

/-! ### The fabric -/

/-- Lanes and peers (R273, R277, R278, R284 to R286): a window with too many errors, where another lane is active, asks the peer to leave
the lane; a trial window decides whether it comes back; a lane that fails for the eighth time is reported to the kernel; a lane that
loses lock leaves at once; a request of the peer takes the lane out of the set, unless it is the last, or puts it back; a good flit in
its turn, on its lane, delivers its packets, a bad one nothing, NAK goes out, and LUNC rises by the codewords that it is the first to show, one
or two where no earlier flit touched them; what is outstanding to a lost peer has failed.
Readings: log entries 9, 42, 43, 84, 87, 88, 90. -/
def Obligations.LaneSteps : Prop :=
  ∀ (s : State) (q : Nat) (peer : BitVec 6) (errs : Nat) (f : Flit),
    let b := s.env.unit
    let p := peer.toNat
    let x := s.dev.lane b q p
    let lim := (s.dev.bridge b).limit.toNat
    let away := peer ≠ s.env.caps.devid
    let set (l : Lane) : State := withDev s (s.dev.setLane b q p l)
    (x.state = 1 → (lim < errs → (s.dev.lane b (1 - q) p).state = 1 → away →
        ∃ t, exec (.laneWindowEnd q peer errs) s = .next t ∧ t.dev.mem = s.dev.mem ∧
          t.dev.lane b q p = { x.window errs with state := 2 } ∧ (x.window errs).lerr = BitVec.ofNat 20 (min errs 0xFFFFF)) ∧
      (errs ≤ lim → exec (.laneWindowEnd q peer errs) s = .next (set (x.window errs)))) ∧
    (x.state = 3 → (errs ≤ lim / 2 → (away → ∃ t, exec (.laneTrialWindow q peer errs) s = .next t ∧ t.dev.mem = s.dev.mem ∧
          t.dev.lane b q p = { x.window errs with state := 4 }) ∧
        (¬ away → exec (.laneTrialWindow q peer errs) s = .next (set
          { x.window errs with state := 1, lback := sat32 x.lback 1, tries := 0 }))) ∧
      (lim / 2 < errs → (x.tries.toNat < 7 →
          exec (.laneTrialWindow q peer errs) s = .next (set { x.window errs with tries := x.tries + 1 })) ∧
        (7 ≤ x.tries.toNat → x.tries.toNat < 255 → exec (.laneTrialWindow q peer errs) s = .next (withDev s
          { s.dev.setLane b q p { x.window errs with tries := x.tries + 1, state := 5 } with
            kernel := s.dev.kernel ++ [.lane b q p] })))) ∧
    (x.state = 1 ∨ x.state = 2 → ∃ t, exec (.laneLossOfLock q peer) s = .next t ∧ t.dev.mem = s.dev.mem ∧
      t.dev.lane b q p = { x with state := 3, ldrop := sat32 x.ldrop 1 }) ∧
    (x.state = 5 → exec (.laneRetry q peer) s = .next (set { x with state := 3 })) ∧
    (away → q ∉ (s.dev.link b p).sendOff →
      (sendLanes s.dev b p ≠ [q] → ∃ t, exec (.leaveRequest q peer) s = .next t ∧ t.dev.mem = s.dev.mem ∧
        (t.dev.link b p).sendOff = q :: (s.dev.link b p).sendOff) ∧
      (sendLanes s.dev b p = [q] → exec (.leaveRequest q peer) s = .next s)) ∧
    (away → q ∈ (s.dev.link b p).sendOff → ∃ t, exec (.returnRequest q peer) s = .next t ∧ t.dev.mem = s.dev.mem ∧
      q ∉ (t.dev.link b p).sendOff ∧ (pathUp t.dev b p = true → t.dev.peersLost.getLsbD p = false)) ∧
    (x.state = 1 ∨ x.state = 2 ∨ x.state = 4 → away →
      (f.lane ≠ q → exec (.flitReceive q peer f false) s = .next s) ∧
      (f.lane = q → f.seq = (s.dev.link b p).expect → f.change = none → f.empty = false → (s.dev.link b p).early = [] →
        ∃ t l, exec (.flitReceive q peer f false) s = .next t ∧ t.dev.mem = s.dev.mem ∧ (t.dev.link b p).expect = f.seq + 1 ∧
          t.dev.flights = s.dev.flights ++ l ∧ l.map (·.pkt) = f.pkts.filter knownPkt ∧
          t.dev.lane b q p = { x with badLeft := 0 } ∧ ∀ g ∈ l, g.src = peer ∧ g.path = BitVec.ofNat 2 b) ∧
      (f.lane = q → ∃ t, exec (.flitReceive q peer f true) s = .next t ∧ t.dev.mem = s.dev.mem ∧ t.dev.flights = s.dev.flights ∧
        (t.dev.link b p).expect = (s.dev.link b p).expect ∧
        (∃ k, k ≤ 2 ∧ (x.badLeft = 0 → k ≠ 0) ∧
          t.dev.lane b q p = { x with lunc := sat32 x.lunc k, badLeft := if k = 0 then x.badLeft - 1 else 3 }) ∧
        (sendLanes s.dev b p ≠ [] → ∃ g, (t.dev.link b p).replay = (s.dev.link b p).replay ++ [g] ∧ g.nak = true))) ∧
    (b = p → away → s.dev.peersLost.getLsbD p = false → (∀ i, i < 4 → pathUp s.dev i p = false) →
      ∃ t, exec .peerLost s = .next t ∧ t.dev.peersLost = s.dev.peersLost ||| BitVec.ofNat 64 1 <<< p ∧
        ∀ k i, i < 16 → ∀ e ∈ t.dev.stream k i, e.isNotify = true ∨ (e.via ≠ peer ∧ (e.isStore = true → e.target ≠ peer)))

/-- The k-th packet that has arrived is a remote packet of the current generation of its VF (R280, R333). -/
def Sys2Proof.Claims.Came (s : State) (f : Flight) (h : RHdr) (b : List Byte) (op : BitVec 8) : Prop :=
  s.dev.flights[s.env.unit]? = some f ∧ (∃ src, f.pkt = .remote src h b) ∧ h.op = op ∧ vfGen s.dev h.vf = h.gen

/-- No ordered flag is held (R283). -/
def Sys2Proof.Claims.NoHeld (s : State) : Prop := ∀ k x, s.dev.streams.find k = some x → x.held = []

/-- Nothing that commands, rakes or matched packets have sent waits to be performed (R244, R253). -/
def Sys2Proof.Claims.Quiet (d : Dev) : Prop :=
  (∀ t q c l, vget (d.tile t).aq [] q = c :: l → c.out = []) ∧ (∀ k r, (d.cluster k).rake = some r → r.out = []) ∧
  ∀ x ∈ d.later, x.el = none

/-- A request is served where it is performed (R280, R302, R303, R350): an RST writes its line, an RSTF adds to its flag, a RAMO
makes its step, each in one piece, and an RLD changes nothing; a relayed one likewise; a store with the next number extends the
performed prefix of its stream at the device its DDEV names. Readings: log entries 40, 41. -/
def Sys2Proof.Claims.RemoteServeSteps : Prop :=
  ∀ (s : State) (f : Flight) (h : RHdr) (b : List Byte) (op : BitVec 8) (i : Instr) (base hop : Nat) (loc : Loc) (cls : BitVec 4),
    Claims.Came s f h b op → Claims.NoHeld s →
    (i, op, base, hop) ∈ [(Instr.rldRequest, (0x01 : BitVec 8), 1, 0), (.rstArrival, 0x03, 3, 0), (.rstfArrival, 0x04, 4, 0),
      (.ramoRequest, 0x05, 5, 0), (.relayedRequest, 0x11, 1, 1), (.relayedRequest, 0x13, 3, 1), (.relayedRequest, 0x14, 4, 1),
      (.relayedRequest, 0x15, 5, 1), (.relayedRequest, 0x19, 1, 2), (.relayedRequest, 0x1B, 3, 2), (.relayedRequest, 0x1C, 4, 2),
      (.relayedRequest, 0x1D, 5, 2)] →
    fateOf s.env s.dev h base hop = .serve loc cls → heldBack s.dev s.env.unit h f.path false = false → h.ord = false → h.flag = 0 →
    b.length = (if base = 3 then 128 else if base = 1 then 0 else if base = 4 then 24 else 8) →
    let x := leNat (b.take 8)
    let n := if h.aw then 8 else 4
    let st := (openStream h s.dev).streams.get {} (streamKey h)
    ∃ t, exec i s = .next t ∧
      t.dev.mem = (match base with
        | 1 => s.dev.mem
        | 3 => Memory.write loc.key b s.dev.mem
        | 4 => Memory.write loc.key (natLe 8 ((leNat ((getBytes s.dev loc 16).take 8) + x) % 2 ^ 64) ++
            natLe 8 (h.vf.toNat * 2 ^ 22 + h.sdev.toNat * 2 ^ 16 + h.stile.toNat)) s.dev.mem
        | _ => Memory.write loc.key (natLe n (ramoNew h (leNat (getBytes s.dev loc n)) (cutTo h.aw (BitVec.ofNat 64 x)))) s.dev.mem) ∧
      (base ≠ 1 → h.ddev = s.env.caps.devid → st.done = [] → h.ssn = st.p + 1 →
        (t.dev.streams.get {} (streamKey h)).p = h.ssn ∧ (t.dev.streams.get {} (streamKey h)).done = []) ∧
      (base = 1 → f.src = s.env.caps.devid → ∃ g a, t.dev.flights = s.dev.flights.eraseIdx s.env.unit ++ [g] ∧ a.op = 0x02 ∧
        g.pkt = .remote s.env.caps.devid a (getBytes s.dev loc 128) ∧ a.ddev = h.sdev ∧ a.stile = h.stile ∧ a.stream = h.stream)

/-- Answers at the issuer, FLUSH and redirects (R160, R281, R282, R307, R350, R357, R358): an answer waits for those ahead of it on its path; a
reply is written and ends its access; a SACK ends the stores up to its number; FAIL ends its access as failed; RERESOLVE is counted and sends it
again through the home; a FLUSH of what is not yet performed waits; a report counts its store; a redirect waits, and then names the owner.
Readings: log entries 40, 105. -/
def Sys2Proof.Claims.RemoteAnswerSteps : Prop :=
  ∀ (s : State) (f : Flight) (h : RHdr) (b : List Byte) (op : BitVec 8) (i : Nat) (e : NEntry) (d2 : Dev) (r : Redirect) (loc : Loc) (cls : BitVec 4),
    Claims.NoHeld s →
    let t := h.stile.toNat
    let n := h.stream.toNat
    let d1 := dropFlight s.env s.env.unit s.dev
    let st := (openStream h d1).streams.get {} (streamKey h)
    (∀ k : Instr, (k, op) ∈ [(Instr.rldReply, (0x02 : BitVec 8)), (.ramoReply, 0x06), (.fail, 0x09), (.reresolve, 0x17), (.performed, 0x1A),
        (.redirect, 0x16)] → Claims.Came s f h b op → answerAhead s.dev s.env.unit f h = true → exec k s = .next s) ∧
    (answerAhead s.dev s.env.unit f h = false →
    (∀ (k : Instr) (rld : Bool), (k, op, rld) ∈ [(Instr.rldReply, (0x02 : BitVec 8), true), (.ramoReply, 0x06, false)] → Claims.Came s f h b op →
      relayPos s.dev f h = none → entryOf s.dev h.sdev h rld = some (i, e) → e.local_ ≠ 0 →
      locate s.env d1 { tile := t, unit := .access t, asid := e.asid, vf := e.vf, priv := e.priv } { write := true } e.local_ =
        .ok (loc, cls) d2 → (d2.share (dieOfTile t)).gate = false →
      let x := if rld then b else natLe 8 (extend (if e.wide then 8 else 4) false (leNat (b.take 8))).toNat
      ∃ u, exec k s = .next u ∧ u.dev.mem = Memory.write loc.key (overStore s.env s.dev t 4 loc x) s.dev.mem ∧ u.dev.stream t n = (s.dev.stream t n).eraseIdx i) ∧
    (Claims.Came s f h b 0x07 → ∃ u, exec .sack s = .next u ∧ u.dev.mem = s.dev.mem ∧
      u.dev.stream t n = (s.dev.stream t n).filter fun e => !(e.isStore && e.epoch == h.epoch && e.era == h.era && e.target == h.sdev &&
        newer h.ssn e.ssn && !(e.kind == .ramo && e.local_ != 0))) ∧
    (Claims.Came s f h b 0x08 → newer st.p h.ssn = false → ∃ u, exec .flush s = .next u ∧ u.dev.mem = s.dev.mem ∧
      u.dev.streams.get {} (streamKey h) = { st with want := st.want ++ [(h.ssn, f.path)] }) ∧
    (Claims.Came s f h b 0x09 → relayPos s.dev f h = none → h.ddev = s.env.caps.devid → answered s.dev h = some (i, e) →
      e.reissued = false → ∃ u, exec .fail s = .next u ∧ (u.dev.stream t n).length + 1 = (s.dev.stream t n).length ∧
        ((s.dev.tile t).runs e.serial = true → (u.dev.tile t).core.regs = (s.dev.tile t).core.regs)) ∧
    (Claims.Came s f h b 0x17 → relayPos s.dev f h = none → reresEntry s.dev f h = some (i, e) → s.dev.peersLost = 0 →
      (∀ x : BitVec 6, reachable s.env s.dev x.toNat = true) → sendWaits s.env s.dev h.vf (pageOf (h.va.setWidth 64)) = false →
      let page := pageOf (h.va.setWidth 64)
      let home := homeOf s.env s.dev { tile := t, unit := .access t, asid := e.asid, vf := e.vf, priv := e.priv } e.va
      ∃ u, exec .reresolve s = .next u ∧ u.dev.mem = s.dev.mem ∧
        u.dev.stream t n = (s.dev.stream t n).set i { e with reissued := true, via := home, tries := e.tries + 1 } ∧
        u.dev.owners = s.dev.owners.filter (fun x => !(x.1 == h.vf && x.2.1 == page)) ∧
        u.dev.redirs = s.dev.redirs.filter (fun x => !(x.vf == h.vf && x.page == page)) ∧
        u.dev.mig.occnt.toNat / 2 ^ 32 = min (s.dev.mig.occnt.toNat / 2 ^ 32 + 1) 0xFFFFFFFF) ∧
    (Claims.Came s f h b 0x1A → relayPos s.dev f h = none → h.ddev ≠ s.env.caps.devid → h.sdev = s.env.caps.devid →
      let g := { h with sdev := h.ddev, ddev := h.sdev }
      let st := (openStream g d1).streams.get {} (streamKey g)
      st.done = [] → h.ssn = st.p + 1 →
      ∃ u, exec .performed s = .next u ∧ u.dev.mem = s.dev.mem ∧ (u.dev.streams.get {} (streamKey g)).p = h.ssn) ∧
    (Claims.Came s f h b 0x16 → ∃ u, exec .redirect s = .next u ∧ u.dev.mem = s.dev.mem ∧
      let page := pageOf (h.va.setWidth 64)
      u.dev.redirs = { vf := h.vf, page := page, owner := BitVec.ofNat 6 (leNat (b.take 1)) } ::
        s.dev.redirs.filter fun x => !(x.vf == h.vf && x.page == page))) ∧
    (s.dev.redirs[s.env.unit]? = some r → outstanding s.dev r.vf r.page (fun e => e.via != r.owner) = false →
      ∃ u, exec .redirectApply s = .next u ∧ u.dev.mem = s.dev.mem ∧ u.dev.redirs = s.dev.redirs.eraseIdx s.env.unit ∧
        u.dev.owners.head? = some (r.vf, r.page, r.owner))

/-- The steps that serve remote requests and that take their answers (R160, R280 to R282, R302, R303, R350, R357). -/
def Obligations.RemoteSteps : Prop :=
  Claims.RemoteServeSteps ∧ Claims.RemoteAnswerSteps

/-! ### Migration, debug, the system cores -/

/-- The migration engine takes the command of a block, none of whose pages is frozen (R338, R340). -/
def Sys2Proof.Claims.Block (s : State) (pa : Dword) (op : Nat) : Prop :=
  s.dev.mig.cmds.length < 8 ∧ pa.toNat < 2 ^ 52 ∧ pa.toNat % 64 = 0 ∧ blockOk s.env (blockAt s.env s.dev pa.toNat) = true ∧
  recBits (blockAt s.env s.dev pa.toNat) 0 8 = op ∧ blockWaits s.env s.dev pa.toNat = false

/-- The commands of the migration engine at one device (R338, R342, R344, R345): DEMOTE freezes the page, and when it completes no
cached copy of its frame is left and its image stands at the handle, byte for byte in its chunks where it is not compressed, or, where a
line was bad, its lines are poisoned; THAW ends the freeze; RETIRE removes an entry; a promotion takes an entry, or waits for one, and
makes it present, or poisoned, on a frame of the pool, or fails where its chunks have gone. Where a compressed image is kept is the model's
choice (log entry 14); other readings: log entries 22, 52, 53, 92. -/
def Sys2Proof.Claims.MigrationSteps : Prop :=
  ∀ (s : State) (pa : Dword) (f : Nat) (c : MigCmd) (p : Promo) (d1 : Dev),
    let b := blockCmd (blockAt s.env s.dev pa.toNat)
    (Claims.Block s pa 1 → leafFrame s.env s.dev b.vf b.leafPa.toNat = some f →
      exec (.demote pa) s = .next (withDev s ((drainSent s.env s.dev).onMig fun m => { m with
        cmds := m.cmds ++ [{ b with frame := f }]
        freezes := m.freezes ++ [{ vf := b.vf, page := b.va, frame := f, thaw := false }] }))) ∧
    (Claims.Block s pa 3 → (∃ e ∈ s.dev.mig.ovt, e.vf = b.vf ∧ e.page = b.va ∧ e.st ≠ .frozen) →
      ∃ t, exec (.retire pa) s = .next t ∧
        t.dev.mig.ovt = s.dev.mig.ovt.filter fun e => !(e.vf == b.vf && e.page == b.va && e.st != .frozen)) ∧
    (Claims.Block s pa 4 → (∃ z ∈ s.dev.mig.freezes, z.vf = b.vf ∧ z.page = b.va ∧ z.thaw = true) →
      ∃ t, exec (.thaw pa) s = .next t ∧
        t.dev.mig.freezes = s.dev.mig.freezes.filter fun z => !(z.vf == b.vf && z.page == b.va && z.thaw)) ∧
    (s.dev.mig.cmds[s.env.unit]? = some c → c.op = 1 →
      let leaf := physCheck s.env s.dev c.leafPa.toNat 8
      (leaf.waits = true → c.leafPa.toNat / 65536 = c.frame) → ∃ t d4 r, exec .demoteComplete s = .next t ∧ t.dev = migRecord s.env r d4 ∧
      t.dev.mig.cmds = s.dev.mig.cmds.eraseIdx s.env.unit ∧ (∀ i, ∀ l ∈ (t.dev.tile i).l1, l.line / 512 ≠ c.frame) ∧
      let bad := readErrors s.env s.dev c.frame (List.range 512)
      let h := c.target.toNat % 2 ^ 32
      (bad = [] → leaf.faults = true → d4.mem = s.dev.mem ∧ r.status = 2 ∧ t.dev.mig.freezes = s.dev.mig.freezes.filter fun z =>
        !(z.vf == c.vf && z.page == c.va && z.frame == c.frame && !z.thaw)) ∧
      (bad = [] → leaf.faults = false → recBits (physRead8 s.dev c.leafPa.toNat) 6 1 = 1 → d4.mem = s.dev.mem ∧ ∃ n,
        t.dev.mig.images.find h = some { chunks := n, packed := some (Memory.read s.dev.mem (c.frame * 65536) 65536) }) ∧
      (bad = [] → leaf.faults = false → recBits (physRead8 s.dev c.leafPa.toNat) 6 1 ≠ 1 →
        t.dev.mig.images.find h = some { chunks := 16, packed := none } ∧
        ∀ k, k < 65536 → Memory.get (chunkPa (h + k / 4096) + k % 4096) d4.mem = Memory.get (c.frame * 65536 + k) s.dev.mem) ∧
      (bad ≠ [] → d4.mem = s.dev.mem ∧ ∀ i ∈ bad, c.frame * 512 + i ∈ t.dev.poison)) ∧
    (s.dev.mig.promos[s.env.unit]? = some p → handleOk s.dev p.handle = true → poolWaits s.env s.dev = false →
      p.taken = true ∨ s.dev.mig.ovUse < 2048 → poolLen s.env s.dev ≠ 0 →
      poolFrame s.env (poolLen s.env s.dev) (s.dev.onMig fun m =>
        { m with promos := m.promos.set s.env.unit { p with taken := true }, poolDry := false }) = (some f, d1) →
      ∃ t d4 r, exec .promotionComplete s = .next t ∧ t.dev = migRecord s.env r d4 ∧
        t.dev.mig.promos = s.dev.mig.promos.eraseIdx s.env.unit ∧ t.dev.frame f = { vf := p.vf, owned := true, scrub := false } ∧
        t.dev.mig.ovt = s.dev.mig.ovt ++
          [{ vf := p.vf, page := p.page, frame := f, st := if Config.imageError s.env.tick then .poisoned else .present }] ∧
        (Config.imageError s.env.tick = false → d4.mem = Memory.write (f * 65536) (expandImage s.env d1 p.handle) d1.mem)) ∧
    (s.dev.mig.promos[s.env.unit]? = some p → handleOk s.dev p.handle = false → ∃ t d4 r, exec .promotionComplete s = .next t ∧
      t.dev = migRecord s.env r d4 ∧ d4.mem = s.dev.mem ∧ r.status = 2 ∧ r.code = 0x20 ∧
      t.dev.mig.promos = s.dev.mig.promos.eraseIdx s.env.unit ∧ t.dev.mig.ovt = s.dev.mig.ovt) ∧
    (s.dev.mig.promos[s.env.unit]? = some p → handleOk s.dev p.handle = true → p.taken = false → 2048 ≤ s.dev.mig.ovUse →
      exec .promotionComplete s = .next s)

/-- A move of a page between devices (R352 to R354): MOVE takes a slot; an acknowledgement of lines is counted; PAGEDATA stores its
line in the target frame; OWNERSET makes the page the destination's; a stub closes when its time is over, which is free (log entry 3), and CLOSE
is answered once nothing that it relayed is open; ABORT gives the target frame to the scrubber, also where no line has come. Readings: log
entries 23, 51, 53, 92. -/
def Sys2Proof.Claims.MoveSteps : Prop :=
  ∀ (s : State) (pa : Dword) (k : Nat) (c : MigCmd) (z : Stub) (f : Flight) (h : RHdr) (body : List Byte),
    let b := blockCmd (blockAt s.env s.dev pa.toNat)
    let x := incomingOf s.env s.dev h
    (Claims.Block s pa 2 → ownedFrame s.env s.dev b = some k → s.dev.mig.stubUse < 4096 → s.dev.mig.moveOf b.vf b.va = none →
      reachable s.env s.dev b.dev.toNat = true → s.dev.peersLost.getLsbD b.dev.toNat = false →
      ∃ t, exec (.move pa) s = .next t ∧ t.dev.mem = s.dev.mem ∧ ∃ m, t.dev.mig.moveOf b.vf b.va = some m ∧ m.frame = k ∧
        m.dev = b.dev ∧ m.acked = 0 ∧ (readErrors s.env s.dev k (List.range 512) = [] → m.phase = .copy)) ∧
    (Claims.Came s f h body 0x12 → leNat (body.take 1) = 2 → s.dev.mig.moveOf h.vf h.va = some c → h.sdev = c.dev →
      max c.acked h.ssn.toNat < c.sent → c.home ≠ s.env.caps.devid ∨ dirWaits s.env s.dev h.vf h.va = false → ∃ t, exec .migack s = .next t ∧ t.dev.mem = s.dev.mem ∧
        t.dev.mig.moveOf h.vf h.va = some { c with acked := max c.acked h.ssn.toNat }) ∧
    (Claims.Came s f h body 0x18 → h.ssn.toNat < 512 → inHbm s.env (x.frame * 65536) 65536 = true → s.dev.owns x.frame h.vf = true →
      ∃ t, exec .pagedata s = .next t ∧
        t.dev.mem = Memory.write (x.frame * 65536 + 128 * h.ssn.toNat) (body.take 128) s.dev.mem ∧
        t.dev.mig.incoming.head? = some { x with lines := x.lines + 1 }) ∧
    (Claims.Came s f h body 0x10 → BitVec.ofNat 6 (leNat (body.take 1)) = s.env.caps.devid → dirWaits s.env s.dev h.vf h.va = false →
      let rest := s.dev.mig.ovt.filter fun e => !(e.vf == h.vf && e.page == h.va)
      rest.length + s.dev.mig.promos.countP (·.taken) < 2048 → ∃ t, exec .ownerset s = .next t ∧
        t.dev.mig.ovt = rest ++ [{ vf := h.vf, page := h.va, frame := x.frame, st := .present }]) ∧
    (s.dev.mig.stubs[s.env.unit]? = some z → z.closing = false → ∃ t, exec .stubLifetimeExpiry s = .next t ∧ t.dev.mem = s.dev.mem ∧
      t.dev.mig.stubs = s.dev.mig.stubs.set s.env.unit { z with closing := true }) ∧
    (Claims.Came s f h body 0x1E →
      (relayedOpen s.dev f.src h = false →
        exec .close s = .next (withDev s (sendMigack s.env f h 3 0 (dropFlight s.env s.env.unit s.dev)))) ∧
      (relayedOpen s.dev f.src h = true → exec .close s = .next s)) ∧
    (Claims.Came s f h body 0x1F → ∃ t, exec .abort s = .next t ∧ (Claims.Quiet s.dev → t.dev.mem = s.dev.mem) ∧
      (∀ e ∈ t.dev.mig.ovt, e.vf ≠ h.vf ∨ e.page ≠ h.va) ∧ (∀ y ∈ t.dev.mig.incoming, y.vf ≠ h.vf ∨ y.page ≠ h.va) ∧
      (∀ y ∈ s.dev.mig.incoming, y.vf = h.vf → y.page = h.va → s.dev.owns y.frame h.vf = true → (t.dev.frame y.frame).scrub = true) ∧
      ((∀ y ∈ s.dev.mig.incoming, y.vf ≠ h.vf ∨ y.page ≠ h.va) → (∀ e ∈ s.dev.mig.ovt, e.vf ≠ h.vf ∨ e.page ≠ h.va) →
        let k := Config.moveTarget s.env.tick
        s.dev.owns k h.vf = true → (t.dev.frame k).scrub = true))

/-- The steps of the migration engine (R338, R342, R344, R345, R352 to R354). -/
def Obligations.PageSteps : Prop :=
  Claims.MigrationSteps ∧ Claims.MoveSteps

/-- Debug stops, steps, breakpoints, images and profiling sessions (R360 to R363, R368): a stop leaves the program where it is and
no engine walks; RESUME and STEP end it; the cycle of a STEP is one cycle of the tile; the image is the context image; breakpoints that hit stop
the tile and are named in BPHIT. Readings: log entry 54. -/
def Sys2Proof.Claims.DebugSteps : Prop :=
  ∀ (s : State) (v : Dword),
    let y := unitTile s
    let img := y.dbg.img.toNat / 4096 * 4096
    let stops (t : State) : Prop := (unitTile t).dbg.stopped = decide (img = 0) ∧ (unitTile t).dbg.pending = decide (img ≠ 0) ∧
      (unitTile t).dbg.step = none ∧ (iter t).regs = (iter s).regs ∧ (iter t).q = (iter s).q ∧ (iter t).csr = (iter s).csr ∧
      (∀ e, ((iter t).engine e).pc = ((iter s).engine e).pc) ∧ ∀ e, ready t.dev s.env.unit e = .no
    (y.dbg.stopped = false → y.dbg.pending = false → ∃ t, exec .dbgStop s = .next t ∧ stops t ∧ (unitTile t).dbg.bphit = 0) ∧
    (y.dbg.stopped = true ∨ y.dbg.pending = true →
      (∃ t, exec (.dbgResume false) s = .next t ∧ iter t = iter s ∧ (unitTile t).dbg.stopped = false ∧ (unitTile t).dbg.pending = false ∧
        (unitTile t).dbg.step = none) ∧
      ((∀ e pc, bpMask y e pc = 0) → ∃ t, exec (.dbgStep false) s = .next t ∧ iter t = iter s ∧ (unitTile t).dbg.stopped = false ∧ (unitTile t).dbg.pending = false ∧
        (unitTile t).dbg.step = some [])) ∧
    (y.dbg.step ≠ none → (∀ e, ready s.dev s.env.unit e = .no) → (iter s).stalls = false →
      ∃ t, exec .debugStepEnd s = .next t ∧ stops t ∧ (unitTile t).cycle = y.cycle + 1) ∧
    ((∃ e, hitsOf s.dev s.env.unit e ≠ 0) → ∃ t, exec .breakpointHit s = .next t ∧ stops t ∧
      (unitTile t).dbg.bphit = BitVec.ofNat 4 (Eng.all.foldl (fun a g => a ||| hitsOf s.dev s.env.unit g) 0)) ∧
    (y.dbg.pending = true →
      (physCheck s.env s.dev img 0x18000 = .ok () s.dev → ∃ t, exec .debugImageWritten s = .next t ∧ iter t = iter s ∧
        (unitTile t).dbg = { y.dbg with stopped := true, pending := false, imgFault := false } ∧
        t.dev.mem = Memory.write img (ctxImage s.dev s.env.unit ((s.dev.cluster (s.env.unit / 8)).reqs.contains s.env.unit)) s.dev.mem) ∧
      ((physCheck s.env s.dev img 0x18000).faults = true → ∃ t, exec .debugImageWritten s = .next t ∧ t.dev.mem = s.dev.mem ∧ iter t = iter s ∧
        (unitTile t).dbg = { y.dbg with stopped := true, pending := false, imgFault := true })) ∧
    exec (.psessWrite v) s = .next (withDev s (s.dev.setVf s.env.unit { s.dev.vf s.env.unit with
      ver := v.setWidth 16, active := v.getLsbD 16, changed := v.setWidth 16 != 3#16 }))

/-- The system cores and what reaches the module from outside (R230, R235, R236, R242, R247, R298, R337, R369, R382, R385): loads and stores of a
core above user level by physical address, as of the VF that owns the frame, FRAME_OWNER where none does, and PERMISSION at user level; stores
to registers, posted and then performed before a fence that names device output, or at once; its TLB invalidation; DMA through the I/O
TLB of a root port; and the records of a replay log, whose ring is written under VF 0 and agent 0x0C01 (log entries 45, 48). Readings: log
entries 55, 56, 68, 92, 93, 109. -/
def Sys2Proof.Claims.CoreSteps : Prop :=
  ∀ (s : State) (pa v w : Dword) (z : MSize) (body : List Byte) (asid : BitVec 16) (va : Dword) (vf : BitVec 10) (port : BitVec 3)
    (loc : Loc) (cls : BitVec 4) (d1 d2 d3 d4 : Dev) (code : Nat) (r : BitVec 5) (sg : Bool) (pred succ : BitVec 4),
    let n := s.env.unit
    let c := s.dev.core n
    let fr := s.dev.frame (pa.toNat / 65536)
    let went (t : State) : Prop := (t.dev.core n).fault = 0 ∧ (t.dev.core n).retired = c.retired + 1 ∧
      ((t.dev.core n).pc = c.pc + 2 ∨ (t.dev.core n).pc = c.pc + 4) ∧ (t.dev.core n).level = c.level ∧ (t.dev.core n).csr = c.csr
    (c.level ≠ .user → checkFrame s.env s.dev (coreWho s.dev n 0 fr.vf) {} pa.toNat 0 = .ok (.hbm pa.toNat) 0 →
      pa.toNat % 65536 + msBytes z ≤ 65536 →
      let b := Memory.read s.dev.mem pa.toNat (msBytes z)
      (∃ t, exec (.systemCoreInstruction (.load (.x r) (.phys pa) z sg)) s = .next t ∧ t.dev.mem = s.dev.mem ∧ went t ∧
        (t.dev.core n).x = (if r = 0 then c.x else c.x.setIfInBounds r.toNat
          (if sg then extend (msBytes z) false (leNat b) else BitVec.ofNat 64 (leNat b))) ∧ (t.dev.core n).f = c.f) ∧
      (∃ t, exec (.systemCoreInstruction (.load (.f r) (.phys pa) z sg)) s = .next t ∧ t.dev.mem = s.dev.mem ∧ went t ∧
        (t.dev.core n).x = c.x ∧
        (t.dev.core n).f = c.f.setIfInBounds r.toNat (BitVec.ofNat 64 (leNat b + (2 ^ 64 - 2 ^ (8 * msBytes z))))) ∧
      ∃ t, exec (.systemCoreInstruction (.store (.phys pa) z (.x r))) s = .next t ∧ went t ∧ (t.dev.core n).x = c.x ∧
        t.dev.mem = Memory.write pa.toNat (natLe (msBytes z) (c.x.toList.getD r.toNat 0).toNat) s.dev.mem) ∧
    (pa.toNat < s.env.caps.hbm → c.level = .user ∨ fr.owned = false ∨ fr.scrub = true →
      ∀ i ∈ [CoreOp.load (.x r) (.phys pa) z sg, .store (.phys pa) z (.x r)],
      ∃ t, exec (.systemCoreInstruction i) s = .next t ∧ t.dev.mem = s.dev.mem ∧
        (t.dev.core n).fault = (if c.level = .user then 0x21 else 0x22) ∧
        (t.dev.core n).retired = c.retired ∧ (t.dev.core n).x = c.x) ∧
    (∃ t, exec (.systemCoreInstruction (.tlbinv 1 asid va)) s = .next t ∧ t.dev.mem = s.dev.mem ∧ went t ∧ ∀ e ∈ t.dev.tlb, e.asid ≠ asid) ∧
    (c.level ≠ .user → c.posted = [] →
      ∃ t, exec (.systemCoreInstruction (.store (.phys 0xF080000000008) .d (.x r))) s = .next t ∧ went t ∧ t.dev.leaselen = s.dev.leaselen ∧
        (t.dev.core n).posted = [(0xF080000000008, natLe 8 (c.x.toList.getD r.toNat 0).toNat)]) ∧
    (c.posted = [(0xF080000000008, natLe 8 v.toNat)] → pred.getLsbD 2 = true →
      ∃ t, exec (.systemCoreInstruction (.fence pred succ)) s = .next t ∧ went t ∧ t.dev.mem = s.dev.mem ∧
        t.dev.leaselen = v.setWidth 10 ∧ (t.dev.core n).posted = []) ∧
    (c.level ≠ .user →
      exec (.registerWrite 0xF080000000008 v) s = .next (withDev s { s.dev with leaselen := v.setWidth 10 }) ∧
      exec (.registerWrite 0xF080000000000 v) s = .next (withDev s { s.dev with asidtab := v.setWidth 52 &&& 0xFFFFFFFF80000 }) ∧
      exec (.registerWrite 0xF050000000018 v) s = .next (withDev s (s.dev.onMig fun m => { m with homedir := v.setWidth 52 &&& 0xFFFFFFFF00001 })) ∧
      exec (.registerWrite (0xF0D0000000000 + 8 * vf.setWidth 64) v) s = .next (withDev s (s.dev.setVf vf.toNat
        { s.dev.vf vf.toNat with asid := v.setWidth 16 }))) ∧
    (c.level = .user → exec (.registerWrite pa v) s = .next s) ∧
    (let who := portWho port.toNat { asid := asid, vf := vf }
     let k := body.length / 65536 + 2
     let d0 := { s.dev with ports := s.dev.ports.set port.toNat { s.dev.ports.get {} port.toNat with asid := asid, vf := vf } }
     (locate s.env d0 who { write := true } va = .ok (loc, cls) d1 → hwCheck s.env who { write := true } k d1 va body.length = .ok () d2 →
       hwWrite s.env who .none k d2 va body = .ok () d3 →
       exec (.networkArrival ⟨port, asid, vf, va⟩ body) s = .next (withDev s (replayLog s.env n 1 (BitVec.ofNat 64 loc.key)
         (BitVec.ofNat 64 body.length) d3)) ∧
       (body ≠ [] → va.toNat % 65536 + body.length ≤ 65536 → locate s.env d2 who { write := true } va = .ok (loc, cls) d4 →
         d3.mem = Memory.write loc.key body s.dev.mem)) ∧
     (locate s.env d0 who { write := true } va = .sys code va →
       exec (.networkArrival ⟨port, asid, vf, va⟩ body) s = .next (withDev s (keepTlb s.env s.dev who va)))) ∧
    (let took (d : Dev) : Prop := ∃ t, exec (.interruptTaken v w) s = .next t ∧ t.dev = d.setCore n (t.dev.core n) ∧
       (t.dev.core n).x = c.x ∧ (t.dev.core n).retired = c.retired
     (c.rplctl = true →
      (ringPostPa s.env 0 0x0C01 c.rplbase.toNat (natLe 8 2 ++ natLe 8 v.toNat ++ natLe 8 w.toNat ++ natLe 8 c.retired.toNat) s.dev =
          .ok () d1 → exec (.storageCompletion v w) s = .next (withDev s d1)) ∧
      (ringPostPa s.env 0 0x0C01 c.rplbase.toNat (natLe 8 3 ++ natLe 8 w.toNat ++ natLe 8 v.toNat ++ natLe 8 c.retired.toNat) s.dev =
          .ok () d1 → took d1)) ∧
     (c.rplctl = false → exec (.storageCompletion v w) s = .next s ∧ took s.dev))

/-- The steps of the debug unit and of the system cores (R247, R298, R337, R360 to R363, R368, R369, R385). -/
def Obligations.DebugAndCoreSteps : Prop :=
  Claims.DebugSteps ∧ Claims.CoreSteps

/-! ### The machine as a whole -/

/-- A turn of an engine that may walk its word (R57, R61): the step is what the decoded word does in the state in which the turn has
begun, what waits has gone on, and what the fetch keeps is kept; then time passes on the tile. When the word does not decode, it is the
reserved word (R60). A turn of another agent: the step is that agent's step, or the machine does not change when the agent's step
cannot happen there. A turn of a unit that does not exist stops the machine. That what waits goes on at the start of a step: log entry
45. -/
def Sys2Proof.Claims.StepRunsDecodedWord : Prop :=
  ∀ (s : State) (t u : Nat) (e : Eng) (rest : List Machine.Turn) (i : Instr),
    (∀ (pc : Dword) (hand : Bool) (w : Word) (d : Dev), nextTurn s = (.engine t e, rest) → tileOk t = true →
      let s1 := (beginTurn s t e rest).onDev drive
      Stands s1 e pc hand → fetchAt s1.env s1.dev t e pc = .ok w d →
      (decode w = .ok i → step s = afterTurn t (exec i (withDev s1 d))) ∧
      ∀ k, decode w = .error k → step s = afterTurn t (exec (.reservedWord w k) (withDev s1 d))) ∧
    (nextTurn s = (.event u i, rest) → isEvent i = true → i.unitOk u = true → i.wf = true →
      (served i s.dev = true → step s = exec i ((beginTurn s u s.env.eng rest).onDev drive)) ∧
      (served i s.dev = false → step s = .next (beginTurn s u s.env.eng rest))) ∧
    (nextTurn s = (.engine t e, rest) → tileOk t = false → step s = .fault .noSuchUnit)

/-- Whatever the state, a step gives a next state, unless the schedule names a unit that does not exist; no step changes what was
fused at manufacture (R373). Whatever the word or the agent's step, its effect is a change of the device: none refuses or stops, and
what runs next is for the schedule. The schedule, and that a step whose condition does not hold changes nothing, are the model's
(log entries 1, 25). -/
def Sys2Proof.Claims.EveryStepGoesOn : Prop :=
  (∀ s : State, (∃ t, step s = .next t ∧ t.env.caps = s.env.caps ∧ t.env.tick = s.env.tick + 1) ∨ step s = .fault .noSuchUnit) ∧
  (∀ (i : Instr) (s : State), ∃ d, exec i s = .next (withDev s d))

/-- A step runs the word its engine fetches and decodes, or the step of another agent that the schedule names (R57, R60, R61), and
none refuses. -/
def Obligations.StepOfTheMachine : Prop :=
  Claims.StepRunsDecodedWord ∧ Claims.EveryStepGoesOn

/-- Memory stays in its canonical form and the fused capabilities stay as they are, whatever step the machine makes, from every
state in which they hold. -/
def Obligations.StepKeepsInv : Prop :=
  ∀ (caps : Caps) (s t : State), Inv caps s → step s = .next t → Inv caps t

/-- What holds when power has just been applied (R371, R372): DEVREADY and BOOTSTAT are 0, no iteration runs, every frame is
unowned, every share is 0 and GATE is 0, PEERS is 0 in every bridge, every pts and MTS is 0, every byte of memory reads 0; and the
invariant holds. The values that no rule gives, and the zeros before bring-up has written them, are the model's choice (log entries
2 and 4 to 7). -/
def Obligations.ResetState : Prop :=
  Inv {} State.reset ∧ State.reset.dev.mgmt.ready = false ∧ State.reset.dev.mgmt.bootstat = 0 ∧
  (∀ t, (State.reset.dev.tile t).running = false) ∧ (∀ f, State.reset.dev.frames.get ⟨0, false, false, none⟩ f = ⟨0, false, false, none⟩) ∧
  (∀ k v, (State.reset.dev.share k).gate = false ∧ (State.reset.dev.share k).share.get 0 v = 0) ∧
  (∀ b, (State.reset.dev.bridge b).peers = 0) ∧ (∀ a, Memory.get a State.reset.dev.mem = 0) ∧
  (∀ t p, getPts State.reset.dev (.tile t p) = 0) ∧ (∀ n, getPts State.reset.dev (.core n) = 0)

/-- Words written out from the maps of file 06 decode to the instruction they stand for: NOP, TRAP, EVPOP, TOK, BARWAIT, VSHAPE,
VRBSET, MAPINST, ERET, ADD, LD with its size, MMA, LUI and an EXT word. -/
def Obligations.WrittenWordsDecode : Prop :=
  decode 0x00000000 = .ok .nop ∧ decode 0x18000005 = .ok (.trap 5) ∧ decode 0x12060000 = .ok (.evpop 3) ∧
  decode 0x87084000 = .ok (.tok .x .v 1) ∧ decode 0x29403000 = .ok (.barwait 3) ∧ decode 0x58081000 = .ok (.vshape 16 16) ∧
  decode 0x58800007 = .ok (.vrbset 7) ∧ decode 0x2C001100 = .ok (.mapinst 1 2) ∧ decode 0x18400000 = .ok .eret ∧
  decode 0x00422180 = .ok (.add 1 2 3) ∧ decode 0x240A9802 = .ok (.ld 5 9 .w false 2) ∧
  decode 0x64030344 = .ok (.mma 12 13 1 0) ∧ decode 0x0A09FFFF = .ok (.lui 4 0x1FFFF) ∧ decode 0xA0000001 = .ok (.extWord 1)

/-- Decoding the word of an instruction gives the instruction back: for every well-formed word of program text, every operand at every
value its encoding admits. -/
def Obligations.EncodeThenDecode : Prop :=
  ∀ i : Instr, i.isWord = true → i.wf = true → ∃ w, encode i = some w ∧ decode w = .ok i

/-- Encoding the instruction that a word decodes to gives the word back, and that instruction is well formed: no two words are one
instruction, no bit of a word is read twice or dropped, and no reserved encoding decodes (R60, R89, R101). -/
def Obligations.DecodeThenEncode : Prop :=
  ∀ (w : Word) (i : Instr), decode w = .ok i → encode i = some w ∧ i.isWord = true ∧ i.wf = true

/-- An engine steps over the words of another engine (R58, R60), well formed or reserved: its PC goes on by 4, its walk count rises, and
nothing else of what the program sees changes. M notes FENCEX and JOIN as it steps over them: one whose m0 names the matrix path (bit 5) holds
its later commands back, one that names packets (bit 3) the packets of its later closes, and one that names neither changes nothing
(R158, R271). -/
def Obligations.SkippedWords : Prop :=
  ∀ (s : State) (i : Instr) (w : Word) (e own : Eng) (pc : Dword) (hand : Bool), Stands s e pc hand → encode i = some w →
    tagOwner w = some own → e ≠ own →
    ((e ≠ .m ∨ ∀ a m1 m0, i ≠ .fencex m1 m0 ∧ i ≠ .join a m0) →
      exec i s = .next (walked s pc ((Claims.found s e hand).onCore s.env.unit id) e hand (pc + 4) (.other own))) ∧
    (∀ a m1 m0, e = .m → i = .fencex m1 m0 ∨ i = .join a m0 →
      exec i s = .next (walked s pc (s.dev.onCore s.env.unit fun c =>
        let w := (c.engine .m).walk + 1
        let up (x : Dword) : Dword := if x.toNat ≤ w.toNat then w else x
        { c with mfence := if m0.getLsbD 5 then up c.mfence else c.mfence, xfence := if m0.getLsbD 3 then up c.xfence else c.xfence })
        e hand (pc + 4) (.other own)))

/-- The slip window (R62): on a tile whose iteration runs and that neither a trap, a debug stop nor END holds, an engine may walk its
next word exactly while its walk count plus 1 less the smallest of the four is at most WIN; one that may not waits with wait code 4
at whatever word it is, and one that is frozen, halted or stopped does nothing, so that one stopped at END keeps its walk count. The
smallest is of all four, whatever state each is in: the window holds whatever keeps the trailing engine back. -/
def Obligations.SlipWindow : Prop :=
  ∀ (s : State) (e : Eng) (i : Instr), s.env.eng = e → i.isWord = true →
    ((unitTile s).running = true → (unitTile s).saving = false → (unitTile s).dbg = {} → (iter s).trap = {} →
      ((iter s).engine e).halted = false → ((iter s).engine e).stopped = false →
      (ready s.dev s.env.unit e = .go ((iter s).engine e).pc false ↔
        ∀ g, ((iter s).engine e).walk.toNat + 1 ≤ (iter s).csr.win.toNat + ((iter s).engine g).walk.toNat) ∧
      (ready s.dev s.env.unit e = .slip ↔
        ∃ g, (iter s).csr.win.toNat + ((iter s).engine g).walk.toNat < ((iter s).engine e).walk.toNat + 1)) ∧
    (ready s.dev s.env.unit e = .slip →
      exec i s = .next (withDev s (setWait s.dev ⟨s.env.unit, e, 0, false⟩ { code := 4 }))) ∧
    (ready s.dev s.env.unit e = .no → exec i s = .next s) ∧
    (((iter s).engine e).stopped = true → (iter s).trap.hand = none → ready s.dev s.env.unit e = .no)

end
end

