-- ==== Sys2Proof/Laws/Memory.lean ====
section
/-! SUPPORT. The canonical form of memory is kept by every operation, and what a byte reads as after one. -/

namespace Sys2Proof.Machine

/-- Every key of a memory is at least k. -/
def Memory.above (k : Nat) (m : List Host.Cell) : Prop := ∀ c ∈ m, k ≤ c.1

/-- The canonical form, one cell at a time. -/
theorem Memory.wf_cons (c : Host.Cell) (m : List Host.Cell) :
    Memory.wf (c :: m) = true ↔ c.2 ≠ 0 ∧ Memory.above (c.1 + 1) m ∧ Memory.wf m = true := by
  induction m generalizing c with
  | nil => simp [Memory.wf, Memory.above]
  | cons e r ih =>
    rw [Memory.wf]
    simp only [Bool.and_eq_true, bne_iff_ne, ne_eq, decide_eq_true_eq]
    constructor
    · rintro ⟨⟨h1, h2⟩, h3⟩
      refine ⟨h1, ?_, h3⟩
      have := (ih e).1 h3
      intro x hx
      rcases List.mem_cons.1 hx with rfl | hx
      · omega
      · have := this.2.1 x hx; omega
    · rintro ⟨h1, h2, h3⟩
      exact ⟨⟨h1, by have := h2 e (by simp); omega⟩, h3⟩

theorem Memory.wf_nil : Memory.wf [] = true := rfl

theorem Memory.above_mono {k j : Nat} {m : List Host.Cell} (h : Memory.above k m) (hj : j ≤ k) : Memory.above j m :=
  fun c hc => hj.trans (h c hc)

/-- A key below all keys reads 0. -/
theorem Memory.get_of_from {k : Nat} {m : List Host.Cell} (h : Memory.above (k + 1) m) : Memory.get k m = 0 := by
  cases m with
  | nil => rfl
  | cons c r => have := h c (by simp); simp only [Memory.get]; split; omega; split; rfl; omega

theorem Memory.above_put {n k : Nat} {b : Byte} {m : List Host.Cell} (h : Memory.above n m) (hk : n ≤ k) :
    Memory.above n (Memory.put k b m) := by
  induction m with
  | nil => simpa [Memory.put, Memory.above] using hk
  | cons c r ih =>
    have hc := h c (by simp)
    have hr : Memory.above n r := fun x hx => h x (by simp [hx])
    simp only [Memory.put]
    split
    · intro x hx; rcases List.mem_cons.1 hx with rfl | hx; exact hk; exact hr x hx
    · split
      · intro x hx; rcases List.mem_cons.1 hx with rfl | hx; exact hk; exact h x hx
      · intro x hx; rcases List.mem_cons.1 hx with rfl | hx; exact hc; exact ih hr x hx

theorem Memory.above_drop {n k : Nat} {m : List Host.Cell} (h : Memory.above n m) : Memory.above n (Memory.drop k m) := by
  induction m with
  | nil => simp [Memory.drop, Memory.above]
  | cons c r ih =>
    have hc := h c (by simp)
    have hr : Memory.above n r := fun x hx => h x (by simp [hx])
    simp only [Memory.drop]
    split
    · exact hr
    · split
      · exact h
      · intro x hx; rcases List.mem_cons.1 hx with rfl | hx; exact hc; exact ih hr x hx

/-- Putting a byte that is not 0 keeps the canonical form. -/
theorem Memory.wf_put {k : Nat} {b : Byte} {m : List Host.Cell} (hb : b ≠ 0) (h : Memory.wf m = true) :
    Memory.wf (Memory.put k b m) = true := by
  induction m with
  | nil => simpa [Memory.put, Memory.wf] using hb
  | cons c r ih =>
    obtain ⟨h1, h2, h3⟩ := (Memory.wf_cons c r).1 h
    simp only [Memory.put]
    split
    · subst_vars; exact (Memory.wf_cons _ _).2 ⟨hb, h2, h3⟩
    · split
      · refine (Memory.wf_cons _ _).2 ⟨hb, ?_, h⟩
        intro x hx; rcases List.mem_cons.1 hx with rfl | hx
        · simp; omega
        · have := h2 x hx; simp; omega
      · exact (Memory.wf_cons _ _).2 ⟨h1, Memory.above_put h2 (by omega), ih h3⟩

/-- Removing a key keeps the canonical form. -/
theorem Memory.wf_drop {k : Nat} {m : List Host.Cell} (h : Memory.wf m = true) : Memory.wf (Memory.drop k m) = true := by
  induction m with
  | nil => rfl
  | cons c r ih =>
    obtain ⟨h1, h2, h3⟩ := (Memory.wf_cons c r).1 h
    simp only [Memory.drop]
    split
    · exact h3
    · split
      · exact h
      · exact (Memory.wf_cons _ _).2 ⟨h1, Memory.above_drop h2, ih h3⟩

/-- A write of a byte keeps the canonical form. -/
theorem Memory.wf_set {k : Nat} {b : Byte} {m : List Host.Cell} (h : Memory.wf m = true) : Memory.wf (Memory.set k b m) = true := by
  unfold Memory.set; split
  · exact Memory.wf_drop h
  · exact Memory.wf_put ‹_› h

/-- A write of bytes keeps the canonical form. -/
theorem Memory.wf_write {k : Nat} {b : List Byte} {m : List Host.Cell} (h : Memory.wf m = true) :
    Memory.wf (Memory.write k b m) = true := by
  induction b generalizing k m with
  | nil => exact h
  | cons x r ih => exact ih (Memory.wf_set h)

theorem Memory.above_filter {n : Nat} {p : Host.Cell → Bool} {m : List Host.Cell} (h : Memory.above n m) : Memory.above n (m.filter p) :=
  fun c hc => h c (List.mem_of_mem_filter hc)

/-- Zeroing a range keeps the canonical form. -/
theorem Memory.wf_zero {k n : Nat} {m : List Host.Cell} (h : Memory.wf m = true) : Memory.wf (Memory.zero k n m) = true := by
  unfold Memory.zero
  induction m with
  | nil => rfl
  | cons c r ih =>
    obtain ⟨h1, h2, h3⟩ := (Memory.wf_cons c r).1 h
    rw [List.filter_cons]
    split
    · exact (Memory.wf_cons _ _).2 ⟨h1, Memory.above_filter h2, ih h3⟩
    · exact ih h3

theorem Memory.get_put {k j : Nat} {b : Byte} {m : List Host.Cell} (h : Memory.wf m = true) :
    Memory.get j (Memory.put k b m) = if j = k then b else Memory.get j m := by
  induction m with
  | nil => simp only [Memory.put, Memory.get]; split <;> split <;> first | simp_all; done | (split <;> first | rfl | omega)
  | cons c r ih =>
    obtain ⟨-, h2, h3⟩ := (Memory.wf_cons c r).1 h
    simp only [Memory.put]
    split
    · subst_vars
      simp only [Memory.get]
      by_cases hj : j = c.1
      · simp [hj]
      · simp [hj, Ne.symm hj]
    · split
      · simp only [Memory.get]
        by_cases hj : j = k
        · simp [hj]
        · simp only [hj, Ne.symm hj, if_false]
          split
          · split; omega; split; rfl; omega
          · rfl
      · simp only [Memory.get, ih h3]
        by_cases hj : j = k
        · subst hj; rw [if_neg (by omega), if_neg (by omega), if_pos rfl, if_pos rfl]
        · simp [hj]

theorem Memory.get_drop {k j : Nat} {m : List Host.Cell} (h : Memory.wf m = true) :
    Memory.get j (Memory.drop k m) = if j = k then 0 else Memory.get j m := by
  induction m with
  | nil => simp [Memory.drop, Memory.get]
  | cons c r ih =>
    obtain ⟨-, h2, h3⟩ := (Memory.wf_cons c r).1 h
    simp only [Memory.drop]
    split
    · subst_vars
      by_cases hj : j = c.1
      · subst hj; simp [Memory.get_of_from h2]
      · simp only [hj, if_false, Memory.get, Ne.symm hj]
        split
        · exact Memory.get_of_from (Memory.above_mono h2 (by omega))
        · rfl
    · split
      · by_cases hj : j = k
        · subst hj; simp only [Memory.get, if_true]; rw [if_neg (by omega), if_pos (by omega)]
        · simp [hj]
      · simp only [Memory.get, ih h3]
        by_cases hj : j = k
        · subst hj; rw [if_neg (by omega), if_neg (by omega), if_pos rfl, if_pos rfl]
        · simp [hj]

/-- Reading a byte after writing one (the write keeps every other byte). -/
theorem Memory.get_set {k j : Nat} {b : Byte} {m : List Host.Cell} (h : Memory.wf m = true) :
    Memory.get j (Memory.set k b m) = if j = k then b else Memory.get j m := by
  unfold Memory.set; split
  · subst_vars; exact Memory.get_drop h
  · exact Memory.get_put h

/-- Reading a byte after writing a run of bytes. -/
theorem Memory.get_write {k j : Nat} {b : List Byte} {m : List Host.Cell} (h : Memory.wf m = true) :
    Memory.get j (Memory.write k b m) = if k ≤ j ∧ j < k + b.length then b.getD (j - k) 0 else Memory.get j m := by
  induction b generalizing k m with
  | nil => simp only [Memory.write, List.length_nil]; rw [if_neg (by omega)]
  | cons x r ih =>
    simp only [Memory.write, ih (Memory.wf_set h), Memory.get_set h, List.length_cons]
    by_cases h1 : k + 1 ≤ j ∧ j < k + 1 + r.length
    · rw [if_pos h1, if_pos (by omega)]
      obtain ⟨i, hi⟩ : ∃ i, j - k = i + 1 := ⟨j - k - 1, by omega⟩
      rw [hi, show j - (k + 1) = i by omega]; simp
    · rw [if_neg h1]
      by_cases h2 : j = k
      · subst h2; simp
      · rw [if_neg h2, if_neg (by omega)]

/-- What is outside the bytes written reads as before. -/
theorem Memory.get_write_outside {k j : Nat} {b : List Byte} {m : List Host.Cell} (h : Memory.wf m = true)
    (ho : j < k ∨ k + b.length ≤ j) : Memory.get j (Memory.write k b m) = Memory.get j m := by
  rw [Memory.get_write h, if_neg (by omega)]

@[simp] theorem Memory.length_read (m : List Host.Cell) (k n : Nat) : (Memory.read m k n).length = n := by
  induction n generalizing k with
  | zero => rfl
  | succ n ih => simp [Memory.read, ih]

theorem Memory.getD_read (m : List Host.Cell) (k n i : Nat) (h : i < n) : (Memory.read m k n).getD i 0 = Memory.get (k + i) m := by
  induction n generalizing k i with
  | zero => omega
  | succ n ih =>
    cases i with
    | zero => simp [Memory.read]
    | succ i => simp only [Memory.read, List.getD_cons_succ]; rw [ih _ _ (by omega)]; congr 1; omega

/-- Reading back what was written. -/
theorem Memory.read_write {k : Nat} {b : List Byte} {m : List Host.Cell} (h : Memory.wf m = true) :
    Memory.read (Memory.write k b m) k b.length = b := by
  apply List.ext_getElem (by simp)
  intro i h1 h2
  have hi : i < b.length := by simpa using h1
  have := Memory.getD_read (Memory.write k b m) k b.length i hi
  rw [Memory.get_write h, if_pos (by omega), show k + i - k = i by omega] at this
  rw [List.getD_eq_getElem _ _ h1, List.getD_eq_getElem _ _ hi] at this
  exact this

end Sys2Proof.Machine
end

