-- ==== Sys2Proof/Laws/NMap.lean ====
section
/-! SUPPORT. Reading a map after a write. -/

namespace Sys2Proof.Machine

/-- What a list of entries gives after an insertion. -/
theorem lookupN_insertN {α : Type} (k j : Nat) (x : α) (l : List (Nat × α)) :
    lookupN k (insertN j x l) = if k = j then some x else lookupN k l := by
  induction l with
  | nil => by_cases h : k = j <;> simp [insertN, lookupN, h, eq_comm]
  | cons e r ih =>
    obtain ⟨n, y⟩ := e
    simp only [insertN]
    split
    · next h0 => subst h0; by_cases h : k = n <;> simp [lookupN, h, eq_comm]
    · split <;> by_cases h : k = j <;> simp_all [lookupN, eq_comm]

@[simp] theorem NMap.find_set {α : Type} (m : NMap α) (k j : Nat) (x : α) :
    (m.set j x).find k = if k = j then some x else m.find k := lookupN_insertN k j x m.entries

@[simp] theorem NMap.get_set {α : Type} (m : NMap α) (d : α) (k j : Nat) (x : α) :
    (m.set j x).get d k = if k = j then x else m.get d k := by
  simp only [NMap.get, NMap.find_set]; split <;> rfl

theorem insertN_insertN {α : Type} (k : Nat) (x y : α) (l : List (Nat × α)) : insertN k x (insertN k y l) = insertN k x l := by
  induction l with
  | nil => simp [insertN]
  | cons e r ih =>
    obtain ⟨n, z⟩ := e
    by_cases h1 : n = k
    · simp [insertN, h1]
    · by_cases h2 : k < n
      · simp [insertN, h1, h2]
      · simp [insertN, h1, h2, ih]

@[simp] theorem NMap.set_set {α : Type} (m : NMap α) (k : Nat) (x y : α) : (m.set k y).set k x = m.set k x := by
  simp [NMap.set, insertN_insertN]

theorem NMap.get_set_same {α : Type} (m : NMap α) (d : α) (k : Nat) (x : α) : (m.set k x).get d k = x := by simp

theorem NMap.get_set_other {α : Type} (m : NMap α) (d : α) {k j : Nat} (x : α) (h : k ≠ j) :
    (m.set j x).get d k = m.get d k := by simp [h]

@[simp] theorem NMap.find_empty {α : Type} (k : Nat) : ({} : NMap α).find k = none := rfl

@[simp] theorem NMap.get_empty {α : Type} (d : α) (k : Nat) : ({} : NMap α).get d k = d := rfl

end Sys2Proof.Machine
end

