-- ==== Sys2Proof/Laws/State.lean ====
section
/-! SUPPORT. Each field after each update of the device. -/

namespace Sys2Proof.Machine

@[simp] theorem Dev.setTile_powered (d : Dev) (t : Nat) (x : Tile) : (d.setTile t x).powered = d.powered := rfl
@[simp] theorem Dev.setTile_clusters (d : Dev) (t : Nat) (x : Tile) : (d.setTile t x).clusters = d.clusters := rfl
@[simp] theorem Dev.setTile_slices (d : Dev) (t : Nat) (x : Tile) : (d.setTile t x).slices = d.slices := rfl
@[simp] theorem Dev.setTile_frames (d : Dev) (t : Nat) (x : Tile) : (d.setTile t x).frames = d.frames := rfl
@[simp] theorem Dev.setTile_mem (d : Dev) (t : Nat) (x : Tile) : (d.setTile t x).mem = d.mem := rfl
@[simp] theorem Dev.setTile_poison (d : Dev) (t : Nat) (x : Tile) : (d.setTile t x).poison = d.poison := rfl
@[simp] theorem Dev.setTile_bad (d : Dev) (t : Nat) (x : Tile) : (d.setTile t x).bad = d.bad := rfl
@[simp] theorem Dev.setTile_tlb (d : Dev) (t : Nat) (x : Tile) : (d.setTile t x).tlb = d.tlb := rfl
@[simp] theorem Dev.setTile_past (d : Dev) (t : Nat) (x : Tile) : (d.setTile t x).past = d.past := rfl
@[simp] theorem Dev.setTile_later (d : Dev) (t : Nat) (x : Tile) : (d.setTile t x).later = d.later := rfl
@[simp] theorem Dev.setTile_arms (d : Dev) (t : Nat) (x : Tile) : (d.setTile t x).arms = d.arms := rfl
@[simp] theorem Dev.setTile_asidtab (d : Dev) (t : Nat) (x : Tile) : (d.setTile t x).asidtab = d.asidtab := rfl
@[simp] theorem Dev.setTile_leaselen (d : Dev) (t : Nat) (x : Tile) : (d.setTile t x).leaselen = d.leaselen := rfl
@[simp] theorem Dev.setTile_xvfdrop (d : Dev) (t : Nat) (x : Tile) : (d.setTile t x).xvfdrop = d.xvfdrop := rfl
@[simp] theorem Dev.setTile_fqdrop (d : Dev) (t : Nat) (x : Tile) : (d.setTile t x).fqdrop = d.fqdrop := rfl
@[simp] theorem Dev.setTile_profdrop (d : Dev) (t : Nat) (x : Tile) : (d.setTile t x).profdrop = d.profdrop := rfl
@[simp] theorem Dev.setTile_shares (d : Dev) (t : Nat) (x : Tile) : (d.setTile t x).shares = d.shares := rfl
@[simp] theorem Dev.setTile_walkers (d : Dev) (t : Nat) (x : Tile) : (d.setTile t x).walkers = d.walkers := rfl
@[simp] theorem Dev.setTile_nodes (d : Dev) (t : Nat) (x : Tile) : (d.setTile t x).nodes = d.nodes := rfl
@[simp] theorem Dev.setTile_nodeNext (d : Dev) (t : Nat) (x : Tile) : (d.setTile t x).nodeNext = d.nodeNext := rfl
@[simp] theorem Dev.setTile_readyNo (d : Dev) (t : Nat) (x : Tile) : (d.setTile t x).readyNo = d.readyNo := rfl
@[simp] theorem Dev.setTile_serial (d : Dev) (t : Nat) (x : Tile) : (d.setTile t x).serial = d.serial := rfl
@[simp] theorem Dev.setTile_parts (d : Dev) (t : Nat) (x : Tile) : (d.setTile t x).parts = d.parts := rfl
@[simp] theorem Dev.setTile_vfs (d : Dev) (t : Nat) (x : Tile) : (d.setTile t x).vfs = d.vfs := rfl
@[simp] theorem Dev.setTile_retMsgs (d : Dev) (t : Nat) (x : Tile) : (d.setTile t x).retMsgs = d.retMsgs := rfl
@[simp] theorem Dev.setTile_waiters (d : Dev) (t : Nat) (x : Tile) : (d.setTile t x).waiters = d.waiters := rfl
@[simp] theorem Dev.setTile_bridges (d : Dev) (t : Nat) (x : Tile) : (d.setTile t x).bridges = d.bridges := rfl
@[simp] theorem Dev.setTile_lanes (d : Dev) (t : Nat) (x : Tile) : (d.setTile t x).lanes = d.lanes := rfl
@[simp] theorem Dev.setTile_links (d : Dev) (t : Nat) (x : Tile) : (d.setTile t x).links = d.links := rfl
@[simp] theorem Dev.setTile_peersLost (d : Dev) (t : Nat) (x : Tile) : (d.setTile t x).peersLost = d.peersLost := rfl
@[simp] theorem Dev.setTile_flights (d : Dev) (t : Nat) (x : Tile) : (d.setTile t x).flights = d.flights := rfl
@[simp] theorem Dev.setTile_streams (d : Dev) (t : Nat) (x : Tile) : (d.setTile t x).streams = d.streams := rfl
@[simp] theorem Dev.setTile_relays (d : Dev) (t : Nat) (x : Tile) : (d.setTile t x).relays = d.relays := rfl
@[simp] theorem Dev.setTile_reports (d : Dev) (t : Nat) (x : Tile) : (d.setTile t x).reports = d.reports := rfl
@[simp] theorem Dev.setTile_redirs (d : Dev) (t : Nat) (x : Tile) : (d.setTile t x).redirs = d.redirs := rfl
@[simp] theorem Dev.setTile_owners (d : Dev) (t : Nat) (x : Tile) : (d.setTile t x).owners = d.owners := rfl
@[simp] theorem Dev.setTile_mig (d : Dev) (t : Nat) (x : Tile) : (d.setTile t x).mig = d.mig := rfl
@[simp] theorem Dev.setTile_cores (d : Dev) (t : Nat) (x : Tile) : (d.setTile t x).cores = d.cores := rfl
@[simp] theorem Dev.setTile_ports (d : Dev) (t : Nat) (x : Tile) : (d.setTile t x).ports = d.ports := rfl
@[simp] theorem Dev.setTile_cxl (d : Dev) (t : Nat) (x : Tile) : (d.setTile t x).cxl = d.cxl := rfl
@[simp] theorem Dev.setTile_flash (d : Dev) (t : Nat) (x : Tile) : (d.setTile t x).flash = d.flash := rfl
@[simp] theorem Dev.setTile_kernel (d : Dev) (t : Nat) (x : Tile) : (d.setTile t x).kernel = d.kernel := rfl
@[simp] theorem Dev.setTile_genNo (d : Dev) (t : Nat) (x : Tile) : (d.setTile t x).genNo = d.genNo := rfl
@[simp] theorem Dev.setTile_mgmt (d : Dev) (t : Nat) (x : Tile) : (d.setTile t x).mgmt = d.mgmt := rfl
@[simp] theorem Dev.setTile_frSeq (d : Dev) (t : Nat) (x : Tile) : (d.setTile t x).frSeq = d.frSeq := rfl

@[simp] theorem Dev.setCluster_powered (d : Dev) (t : Nat) (x : Cluster) : (d.setCluster t x).powered = d.powered := rfl
@[simp] theorem Dev.setCluster_tiles (d : Dev) (t : Nat) (x : Cluster) : (d.setCluster t x).tiles = d.tiles := rfl
@[simp] theorem Dev.setCluster_slices (d : Dev) (t : Nat) (x : Cluster) : (d.setCluster t x).slices = d.slices := rfl
@[simp] theorem Dev.setCluster_frames (d : Dev) (t : Nat) (x : Cluster) : (d.setCluster t x).frames = d.frames := rfl
@[simp] theorem Dev.setCluster_mem (d : Dev) (t : Nat) (x : Cluster) : (d.setCluster t x).mem = d.mem := rfl
@[simp] theorem Dev.setCluster_poison (d : Dev) (t : Nat) (x : Cluster) : (d.setCluster t x).poison = d.poison := rfl
@[simp] theorem Dev.setCluster_bad (d : Dev) (t : Nat) (x : Cluster) : (d.setCluster t x).bad = d.bad := rfl
@[simp] theorem Dev.setCluster_tlb (d : Dev) (t : Nat) (x : Cluster) : (d.setCluster t x).tlb = d.tlb := rfl
@[simp] theorem Dev.setCluster_past (d : Dev) (t : Nat) (x : Cluster) : (d.setCluster t x).past = d.past := rfl
@[simp] theorem Dev.setCluster_later (d : Dev) (t : Nat) (x : Cluster) : (d.setCluster t x).later = d.later := rfl
@[simp] theorem Dev.setCluster_arms (d : Dev) (t : Nat) (x : Cluster) : (d.setCluster t x).arms = d.arms := rfl
@[simp] theorem Dev.setCluster_asidtab (d : Dev) (t : Nat) (x : Cluster) : (d.setCluster t x).asidtab = d.asidtab := rfl
@[simp] theorem Dev.setCluster_leaselen (d : Dev) (t : Nat) (x : Cluster) : (d.setCluster t x).leaselen = d.leaselen := rfl
@[simp] theorem Dev.setCluster_xvfdrop (d : Dev) (t : Nat) (x : Cluster) : (d.setCluster t x).xvfdrop = d.xvfdrop := rfl
@[simp] theorem Dev.setCluster_fqdrop (d : Dev) (t : Nat) (x : Cluster) : (d.setCluster t x).fqdrop = d.fqdrop := rfl
@[simp] theorem Dev.setCluster_profdrop (d : Dev) (t : Nat) (x : Cluster) : (d.setCluster t x).profdrop = d.profdrop := rfl
@[simp] theorem Dev.setCluster_shares (d : Dev) (t : Nat) (x : Cluster) : (d.setCluster t x).shares = d.shares := rfl
@[simp] theorem Dev.setCluster_walkers (d : Dev) (t : Nat) (x : Cluster) : (d.setCluster t x).walkers = d.walkers := rfl
@[simp] theorem Dev.setCluster_nodes (d : Dev) (t : Nat) (x : Cluster) : (d.setCluster t x).nodes = d.nodes := rfl
@[simp] theorem Dev.setCluster_nodeNext (d : Dev) (t : Nat) (x : Cluster) : (d.setCluster t x).nodeNext = d.nodeNext := rfl
@[simp] theorem Dev.setCluster_readyNo (d : Dev) (t : Nat) (x : Cluster) : (d.setCluster t x).readyNo = d.readyNo := rfl
@[simp] theorem Dev.setCluster_serial (d : Dev) (t : Nat) (x : Cluster) : (d.setCluster t x).serial = d.serial := rfl
@[simp] theorem Dev.setCluster_parts (d : Dev) (t : Nat) (x : Cluster) : (d.setCluster t x).parts = d.parts := rfl
@[simp] theorem Dev.setCluster_vfs (d : Dev) (t : Nat) (x : Cluster) : (d.setCluster t x).vfs = d.vfs := rfl
@[simp] theorem Dev.setCluster_retMsgs (d : Dev) (t : Nat) (x : Cluster) : (d.setCluster t x).retMsgs = d.retMsgs := rfl
@[simp] theorem Dev.setCluster_waiters (d : Dev) (t : Nat) (x : Cluster) : (d.setCluster t x).waiters = d.waiters := rfl
@[simp] theorem Dev.setCluster_bridges (d : Dev) (t : Nat) (x : Cluster) : (d.setCluster t x).bridges = d.bridges := rfl
@[simp] theorem Dev.setCluster_lanes (d : Dev) (t : Nat) (x : Cluster) : (d.setCluster t x).lanes = d.lanes := rfl
@[simp] theorem Dev.setCluster_links (d : Dev) (t : Nat) (x : Cluster) : (d.setCluster t x).links = d.links := rfl
@[simp] theorem Dev.setCluster_peersLost (d : Dev) (t : Nat) (x : Cluster) : (d.setCluster t x).peersLost = d.peersLost := rfl
@[simp] theorem Dev.setCluster_flights (d : Dev) (t : Nat) (x : Cluster) : (d.setCluster t x).flights = d.flights := rfl
@[simp] theorem Dev.setCluster_streams (d : Dev) (t : Nat) (x : Cluster) : (d.setCluster t x).streams = d.streams := rfl
@[simp] theorem Dev.setCluster_relays (d : Dev) (t : Nat) (x : Cluster) : (d.setCluster t x).relays = d.relays := rfl
@[simp] theorem Dev.setCluster_reports (d : Dev) (t : Nat) (x : Cluster) : (d.setCluster t x).reports = d.reports := rfl
@[simp] theorem Dev.setCluster_redirs (d : Dev) (t : Nat) (x : Cluster) : (d.setCluster t x).redirs = d.redirs := rfl
@[simp] theorem Dev.setCluster_owners (d : Dev) (t : Nat) (x : Cluster) : (d.setCluster t x).owners = d.owners := rfl
@[simp] theorem Dev.setCluster_mig (d : Dev) (t : Nat) (x : Cluster) : (d.setCluster t x).mig = d.mig := rfl
@[simp] theorem Dev.setCluster_cores (d : Dev) (t : Nat) (x : Cluster) : (d.setCluster t x).cores = d.cores := rfl
@[simp] theorem Dev.setCluster_ports (d : Dev) (t : Nat) (x : Cluster) : (d.setCluster t x).ports = d.ports := rfl
@[simp] theorem Dev.setCluster_cxl (d : Dev) (t : Nat) (x : Cluster) : (d.setCluster t x).cxl = d.cxl := rfl
@[simp] theorem Dev.setCluster_flash (d : Dev) (t : Nat) (x : Cluster) : (d.setCluster t x).flash = d.flash := rfl
@[simp] theorem Dev.setCluster_kernel (d : Dev) (t : Nat) (x : Cluster) : (d.setCluster t x).kernel = d.kernel := rfl
@[simp] theorem Dev.setCluster_genNo (d : Dev) (t : Nat) (x : Cluster) : (d.setCluster t x).genNo = d.genNo := rfl
@[simp] theorem Dev.setCluster_mgmt (d : Dev) (t : Nat) (x : Cluster) : (d.setCluster t x).mgmt = d.mgmt := rfl
@[simp] theorem Dev.setCluster_frSeq (d : Dev) (t : Nat) (x : Cluster) : (d.setCluster t x).frSeq = d.frSeq := rfl

@[simp] theorem Dev.setSlice_powered (d : Dev) (t : Nat) (x : Slice) : (d.setSlice t x).powered = d.powered := rfl
@[simp] theorem Dev.setSlice_tiles (d : Dev) (t : Nat) (x : Slice) : (d.setSlice t x).tiles = d.tiles := rfl
@[simp] theorem Dev.setSlice_clusters (d : Dev) (t : Nat) (x : Slice) : (d.setSlice t x).clusters = d.clusters := rfl
@[simp] theorem Dev.setSlice_frames (d : Dev) (t : Nat) (x : Slice) : (d.setSlice t x).frames = d.frames := rfl
@[simp] theorem Dev.setSlice_mem (d : Dev) (t : Nat) (x : Slice) : (d.setSlice t x).mem = d.mem := rfl
@[simp] theorem Dev.setSlice_poison (d : Dev) (t : Nat) (x : Slice) : (d.setSlice t x).poison = d.poison := rfl
@[simp] theorem Dev.setSlice_bad (d : Dev) (t : Nat) (x : Slice) : (d.setSlice t x).bad = d.bad := rfl
@[simp] theorem Dev.setSlice_tlb (d : Dev) (t : Nat) (x : Slice) : (d.setSlice t x).tlb = d.tlb := rfl
@[simp] theorem Dev.setSlice_past (d : Dev) (t : Nat) (x : Slice) : (d.setSlice t x).past = d.past := rfl
@[simp] theorem Dev.setSlice_later (d : Dev) (t : Nat) (x : Slice) : (d.setSlice t x).later = d.later := rfl
@[simp] theorem Dev.setSlice_arms (d : Dev) (t : Nat) (x : Slice) : (d.setSlice t x).arms = d.arms := rfl
@[simp] theorem Dev.setSlice_asidtab (d : Dev) (t : Nat) (x : Slice) : (d.setSlice t x).asidtab = d.asidtab := rfl
@[simp] theorem Dev.setSlice_leaselen (d : Dev) (t : Nat) (x : Slice) : (d.setSlice t x).leaselen = d.leaselen := rfl
@[simp] theorem Dev.setSlice_xvfdrop (d : Dev) (t : Nat) (x : Slice) : (d.setSlice t x).xvfdrop = d.xvfdrop := rfl
@[simp] theorem Dev.setSlice_fqdrop (d : Dev) (t : Nat) (x : Slice) : (d.setSlice t x).fqdrop = d.fqdrop := rfl
@[simp] theorem Dev.setSlice_profdrop (d : Dev) (t : Nat) (x : Slice) : (d.setSlice t x).profdrop = d.profdrop := rfl
@[simp] theorem Dev.setSlice_shares (d : Dev) (t : Nat) (x : Slice) : (d.setSlice t x).shares = d.shares := rfl
@[simp] theorem Dev.setSlice_walkers (d : Dev) (t : Nat) (x : Slice) : (d.setSlice t x).walkers = d.walkers := rfl
@[simp] theorem Dev.setSlice_nodes (d : Dev) (t : Nat) (x : Slice) : (d.setSlice t x).nodes = d.nodes := rfl
@[simp] theorem Dev.setSlice_nodeNext (d : Dev) (t : Nat) (x : Slice) : (d.setSlice t x).nodeNext = d.nodeNext := rfl
@[simp] theorem Dev.setSlice_readyNo (d : Dev) (t : Nat) (x : Slice) : (d.setSlice t x).readyNo = d.readyNo := rfl
@[simp] theorem Dev.setSlice_serial (d : Dev) (t : Nat) (x : Slice) : (d.setSlice t x).serial = d.serial := rfl
@[simp] theorem Dev.setSlice_parts (d : Dev) (t : Nat) (x : Slice) : (d.setSlice t x).parts = d.parts := rfl
@[simp] theorem Dev.setSlice_vfs (d : Dev) (t : Nat) (x : Slice) : (d.setSlice t x).vfs = d.vfs := rfl
@[simp] theorem Dev.setSlice_retMsgs (d : Dev) (t : Nat) (x : Slice) : (d.setSlice t x).retMsgs = d.retMsgs := rfl
@[simp] theorem Dev.setSlice_waiters (d : Dev) (t : Nat) (x : Slice) : (d.setSlice t x).waiters = d.waiters := rfl
@[simp] theorem Dev.setSlice_bridges (d : Dev) (t : Nat) (x : Slice) : (d.setSlice t x).bridges = d.bridges := rfl
@[simp] theorem Dev.setSlice_lanes (d : Dev) (t : Nat) (x : Slice) : (d.setSlice t x).lanes = d.lanes := rfl
@[simp] theorem Dev.setSlice_links (d : Dev) (t : Nat) (x : Slice) : (d.setSlice t x).links = d.links := rfl
@[simp] theorem Dev.setSlice_peersLost (d : Dev) (t : Nat) (x : Slice) : (d.setSlice t x).peersLost = d.peersLost := rfl
@[simp] theorem Dev.setSlice_flights (d : Dev) (t : Nat) (x : Slice) : (d.setSlice t x).flights = d.flights := rfl
@[simp] theorem Dev.setSlice_streams (d : Dev) (t : Nat) (x : Slice) : (d.setSlice t x).streams = d.streams := rfl
@[simp] theorem Dev.setSlice_relays (d : Dev) (t : Nat) (x : Slice) : (d.setSlice t x).relays = d.relays := rfl
@[simp] theorem Dev.setSlice_reports (d : Dev) (t : Nat) (x : Slice) : (d.setSlice t x).reports = d.reports := rfl
@[simp] theorem Dev.setSlice_redirs (d : Dev) (t : Nat) (x : Slice) : (d.setSlice t x).redirs = d.redirs := rfl
@[simp] theorem Dev.setSlice_owners (d : Dev) (t : Nat) (x : Slice) : (d.setSlice t x).owners = d.owners := rfl
@[simp] theorem Dev.setSlice_mig (d : Dev) (t : Nat) (x : Slice) : (d.setSlice t x).mig = d.mig := rfl
@[simp] theorem Dev.setSlice_cores (d : Dev) (t : Nat) (x : Slice) : (d.setSlice t x).cores = d.cores := rfl
@[simp] theorem Dev.setSlice_ports (d : Dev) (t : Nat) (x : Slice) : (d.setSlice t x).ports = d.ports := rfl
@[simp] theorem Dev.setSlice_cxl (d : Dev) (t : Nat) (x : Slice) : (d.setSlice t x).cxl = d.cxl := rfl
@[simp] theorem Dev.setSlice_flash (d : Dev) (t : Nat) (x : Slice) : (d.setSlice t x).flash = d.flash := rfl
@[simp] theorem Dev.setSlice_kernel (d : Dev) (t : Nat) (x : Slice) : (d.setSlice t x).kernel = d.kernel := rfl
@[simp] theorem Dev.setSlice_genNo (d : Dev) (t : Nat) (x : Slice) : (d.setSlice t x).genNo = d.genNo := rfl
@[simp] theorem Dev.setSlice_mgmt (d : Dev) (t : Nat) (x : Slice) : (d.setSlice t x).mgmt = d.mgmt := rfl
@[simp] theorem Dev.setSlice_frSeq (d : Dev) (t : Nat) (x : Slice) : (d.setSlice t x).frSeq = d.frSeq := rfl

@[simp] theorem Dev.setVf_powered (d : Dev) (t : Nat) (x : VfBlk) : (d.setVf t x).powered = d.powered := rfl
@[simp] theorem Dev.setVf_tiles (d : Dev) (t : Nat) (x : VfBlk) : (d.setVf t x).tiles = d.tiles := rfl
@[simp] theorem Dev.setVf_clusters (d : Dev) (t : Nat) (x : VfBlk) : (d.setVf t x).clusters = d.clusters := rfl
@[simp] theorem Dev.setVf_slices (d : Dev) (t : Nat) (x : VfBlk) : (d.setVf t x).slices = d.slices := rfl
@[simp] theorem Dev.setVf_frames (d : Dev) (t : Nat) (x : VfBlk) : (d.setVf t x).frames = d.frames := rfl
@[simp] theorem Dev.setVf_mem (d : Dev) (t : Nat) (x : VfBlk) : (d.setVf t x).mem = d.mem := rfl
@[simp] theorem Dev.setVf_poison (d : Dev) (t : Nat) (x : VfBlk) : (d.setVf t x).poison = d.poison := rfl
@[simp] theorem Dev.setVf_bad (d : Dev) (t : Nat) (x : VfBlk) : (d.setVf t x).bad = d.bad := rfl
@[simp] theorem Dev.setVf_tlb (d : Dev) (t : Nat) (x : VfBlk) : (d.setVf t x).tlb = d.tlb := rfl
@[simp] theorem Dev.setVf_past (d : Dev) (t : Nat) (x : VfBlk) : (d.setVf t x).past = d.past := rfl
@[simp] theorem Dev.setVf_later (d : Dev) (t : Nat) (x : VfBlk) : (d.setVf t x).later = d.later := rfl
@[simp] theorem Dev.setVf_arms (d : Dev) (t : Nat) (x : VfBlk) : (d.setVf t x).arms = d.arms := rfl
@[simp] theorem Dev.setVf_asidtab (d : Dev) (t : Nat) (x : VfBlk) : (d.setVf t x).asidtab = d.asidtab := rfl
@[simp] theorem Dev.setVf_leaselen (d : Dev) (t : Nat) (x : VfBlk) : (d.setVf t x).leaselen = d.leaselen := rfl
@[simp] theorem Dev.setVf_xvfdrop (d : Dev) (t : Nat) (x : VfBlk) : (d.setVf t x).xvfdrop = d.xvfdrop := rfl
@[simp] theorem Dev.setVf_fqdrop (d : Dev) (t : Nat) (x : VfBlk) : (d.setVf t x).fqdrop = d.fqdrop := rfl
@[simp] theorem Dev.setVf_profdrop (d : Dev) (t : Nat) (x : VfBlk) : (d.setVf t x).profdrop = d.profdrop := rfl
@[simp] theorem Dev.setVf_shares (d : Dev) (t : Nat) (x : VfBlk) : (d.setVf t x).shares = d.shares := rfl
@[simp] theorem Dev.setVf_walkers (d : Dev) (t : Nat) (x : VfBlk) : (d.setVf t x).walkers = d.walkers := rfl
@[simp] theorem Dev.setVf_nodes (d : Dev) (t : Nat) (x : VfBlk) : (d.setVf t x).nodes = d.nodes := rfl
@[simp] theorem Dev.setVf_nodeNext (d : Dev) (t : Nat) (x : VfBlk) : (d.setVf t x).nodeNext = d.nodeNext := rfl
@[simp] theorem Dev.setVf_readyNo (d : Dev) (t : Nat) (x : VfBlk) : (d.setVf t x).readyNo = d.readyNo := rfl
@[simp] theorem Dev.setVf_serial (d : Dev) (t : Nat) (x : VfBlk) : (d.setVf t x).serial = d.serial := rfl
@[simp] theorem Dev.setVf_parts (d : Dev) (t : Nat) (x : VfBlk) : (d.setVf t x).parts = d.parts := rfl
@[simp] theorem Dev.setVf_retMsgs (d : Dev) (t : Nat) (x : VfBlk) : (d.setVf t x).retMsgs = d.retMsgs := rfl
@[simp] theorem Dev.setVf_waiters (d : Dev) (t : Nat) (x : VfBlk) : (d.setVf t x).waiters = d.waiters := rfl
@[simp] theorem Dev.setVf_bridges (d : Dev) (t : Nat) (x : VfBlk) : (d.setVf t x).bridges = d.bridges := rfl
@[simp] theorem Dev.setVf_lanes (d : Dev) (t : Nat) (x : VfBlk) : (d.setVf t x).lanes = d.lanes := rfl
@[simp] theorem Dev.setVf_links (d : Dev) (t : Nat) (x : VfBlk) : (d.setVf t x).links = d.links := rfl
@[simp] theorem Dev.setVf_peersLost (d : Dev) (t : Nat) (x : VfBlk) : (d.setVf t x).peersLost = d.peersLost := rfl
@[simp] theorem Dev.setVf_flights (d : Dev) (t : Nat) (x : VfBlk) : (d.setVf t x).flights = d.flights := rfl
@[simp] theorem Dev.setVf_streams (d : Dev) (t : Nat) (x : VfBlk) : (d.setVf t x).streams = d.streams := rfl
@[simp] theorem Dev.setVf_relays (d : Dev) (t : Nat) (x : VfBlk) : (d.setVf t x).relays = d.relays := rfl
@[simp] theorem Dev.setVf_reports (d : Dev) (t : Nat) (x : VfBlk) : (d.setVf t x).reports = d.reports := rfl
@[simp] theorem Dev.setVf_redirs (d : Dev) (t : Nat) (x : VfBlk) : (d.setVf t x).redirs = d.redirs := rfl
@[simp] theorem Dev.setVf_owners (d : Dev) (t : Nat) (x : VfBlk) : (d.setVf t x).owners = d.owners := rfl
@[simp] theorem Dev.setVf_mig (d : Dev) (t : Nat) (x : VfBlk) : (d.setVf t x).mig = d.mig := rfl
@[simp] theorem Dev.setVf_cores (d : Dev) (t : Nat) (x : VfBlk) : (d.setVf t x).cores = d.cores := rfl
@[simp] theorem Dev.setVf_ports (d : Dev) (t : Nat) (x : VfBlk) : (d.setVf t x).ports = d.ports := rfl
@[simp] theorem Dev.setVf_cxl (d : Dev) (t : Nat) (x : VfBlk) : (d.setVf t x).cxl = d.cxl := rfl
@[simp] theorem Dev.setVf_flash (d : Dev) (t : Nat) (x : VfBlk) : (d.setVf t x).flash = d.flash := rfl
@[simp] theorem Dev.setVf_kernel (d : Dev) (t : Nat) (x : VfBlk) : (d.setVf t x).kernel = d.kernel := rfl
@[simp] theorem Dev.setVf_genNo (d : Dev) (t : Nat) (x : VfBlk) : (d.setVf t x).genNo = d.genNo := rfl
@[simp] theorem Dev.setVf_mgmt (d : Dev) (t : Nat) (x : VfBlk) : (d.setVf t x).mgmt = d.mgmt := rfl
@[simp] theorem Dev.setVf_frSeq (d : Dev) (t : Nat) (x : VfBlk) : (d.setVf t x).frSeq = d.frSeq := rfl

@[simp] theorem Dev.setCore_powered (d : Dev) (t : Nat) (x : SysCore) : (d.setCore t x).powered = d.powered := rfl
@[simp] theorem Dev.setCore_tiles (d : Dev) (t : Nat) (x : SysCore) : (d.setCore t x).tiles = d.tiles := rfl
@[simp] theorem Dev.setCore_clusters (d : Dev) (t : Nat) (x : SysCore) : (d.setCore t x).clusters = d.clusters := rfl
@[simp] theorem Dev.setCore_slices (d : Dev) (t : Nat) (x : SysCore) : (d.setCore t x).slices = d.slices := rfl
@[simp] theorem Dev.setCore_frames (d : Dev) (t : Nat) (x : SysCore) : (d.setCore t x).frames = d.frames := rfl
@[simp] theorem Dev.setCore_mem (d : Dev) (t : Nat) (x : SysCore) : (d.setCore t x).mem = d.mem := rfl
@[simp] theorem Dev.setCore_poison (d : Dev) (t : Nat) (x : SysCore) : (d.setCore t x).poison = d.poison := rfl
@[simp] theorem Dev.setCore_bad (d : Dev) (t : Nat) (x : SysCore) : (d.setCore t x).bad = d.bad := rfl
@[simp] theorem Dev.setCore_tlb (d : Dev) (t : Nat) (x : SysCore) : (d.setCore t x).tlb = d.tlb := rfl
@[simp] theorem Dev.setCore_past (d : Dev) (t : Nat) (x : SysCore) : (d.setCore t x).past = d.past := rfl
@[simp] theorem Dev.setCore_later (d : Dev) (t : Nat) (x : SysCore) : (d.setCore t x).later = d.later := rfl
@[simp] theorem Dev.setCore_arms (d : Dev) (t : Nat) (x : SysCore) : (d.setCore t x).arms = d.arms := rfl
@[simp] theorem Dev.setCore_asidtab (d : Dev) (t : Nat) (x : SysCore) : (d.setCore t x).asidtab = d.asidtab := rfl
@[simp] theorem Dev.setCore_leaselen (d : Dev) (t : Nat) (x : SysCore) : (d.setCore t x).leaselen = d.leaselen := rfl
@[simp] theorem Dev.setCore_xvfdrop (d : Dev) (t : Nat) (x : SysCore) : (d.setCore t x).xvfdrop = d.xvfdrop := rfl
@[simp] theorem Dev.setCore_fqdrop (d : Dev) (t : Nat) (x : SysCore) : (d.setCore t x).fqdrop = d.fqdrop := rfl
@[simp] theorem Dev.setCore_profdrop (d : Dev) (t : Nat) (x : SysCore) : (d.setCore t x).profdrop = d.profdrop := rfl
@[simp] theorem Dev.setCore_shares (d : Dev) (t : Nat) (x : SysCore) : (d.setCore t x).shares = d.shares := rfl
@[simp] theorem Dev.setCore_walkers (d : Dev) (t : Nat) (x : SysCore) : (d.setCore t x).walkers = d.walkers := rfl
@[simp] theorem Dev.setCore_nodes (d : Dev) (t : Nat) (x : SysCore) : (d.setCore t x).nodes = d.nodes := rfl
@[simp] theorem Dev.setCore_nodeNext (d : Dev) (t : Nat) (x : SysCore) : (d.setCore t x).nodeNext = d.nodeNext := rfl
@[simp] theorem Dev.setCore_readyNo (d : Dev) (t : Nat) (x : SysCore) : (d.setCore t x).readyNo = d.readyNo := rfl
@[simp] theorem Dev.setCore_serial (d : Dev) (t : Nat) (x : SysCore) : (d.setCore t x).serial = d.serial := rfl
@[simp] theorem Dev.setCore_parts (d : Dev) (t : Nat) (x : SysCore) : (d.setCore t x).parts = d.parts := rfl
@[simp] theorem Dev.setCore_vfs (d : Dev) (t : Nat) (x : SysCore) : (d.setCore t x).vfs = d.vfs := rfl
@[simp] theorem Dev.setCore_retMsgs (d : Dev) (t : Nat) (x : SysCore) : (d.setCore t x).retMsgs = d.retMsgs := rfl
@[simp] theorem Dev.setCore_waiters (d : Dev) (t : Nat) (x : SysCore) : (d.setCore t x).waiters = d.waiters := rfl
@[simp] theorem Dev.setCore_bridges (d : Dev) (t : Nat) (x : SysCore) : (d.setCore t x).bridges = d.bridges := rfl
@[simp] theorem Dev.setCore_lanes (d : Dev) (t : Nat) (x : SysCore) : (d.setCore t x).lanes = d.lanes := rfl
@[simp] theorem Dev.setCore_links (d : Dev) (t : Nat) (x : SysCore) : (d.setCore t x).links = d.links := rfl
@[simp] theorem Dev.setCore_peersLost (d : Dev) (t : Nat) (x : SysCore) : (d.setCore t x).peersLost = d.peersLost := rfl
@[simp] theorem Dev.setCore_flights (d : Dev) (t : Nat) (x : SysCore) : (d.setCore t x).flights = d.flights := rfl
@[simp] theorem Dev.setCore_streams (d : Dev) (t : Nat) (x : SysCore) : (d.setCore t x).streams = d.streams := rfl
@[simp] theorem Dev.setCore_relays (d : Dev) (t : Nat) (x : SysCore) : (d.setCore t x).relays = d.relays := rfl
@[simp] theorem Dev.setCore_reports (d : Dev) (t : Nat) (x : SysCore) : (d.setCore t x).reports = d.reports := rfl
@[simp] theorem Dev.setCore_redirs (d : Dev) (t : Nat) (x : SysCore) : (d.setCore t x).redirs = d.redirs := rfl
@[simp] theorem Dev.setCore_owners (d : Dev) (t : Nat) (x : SysCore) : (d.setCore t x).owners = d.owners := rfl
@[simp] theorem Dev.setCore_mig (d : Dev) (t : Nat) (x : SysCore) : (d.setCore t x).mig = d.mig := rfl
@[simp] theorem Dev.setCore_ports (d : Dev) (t : Nat) (x : SysCore) : (d.setCore t x).ports = d.ports := rfl
@[simp] theorem Dev.setCore_cxl (d : Dev) (t : Nat) (x : SysCore) : (d.setCore t x).cxl = d.cxl := rfl
@[simp] theorem Dev.setCore_flash (d : Dev) (t : Nat) (x : SysCore) : (d.setCore t x).flash = d.flash := rfl
@[simp] theorem Dev.setCore_kernel (d : Dev) (t : Nat) (x : SysCore) : (d.setCore t x).kernel = d.kernel := rfl
@[simp] theorem Dev.setCore_genNo (d : Dev) (t : Nat) (x : SysCore) : (d.setCore t x).genNo = d.genNo := rfl
@[simp] theorem Dev.setCore_mgmt (d : Dev) (t : Nat) (x : SysCore) : (d.setCore t x).mgmt = d.mgmt := rfl
@[simp] theorem Dev.setCore_frSeq (d : Dev) (t : Nat) (x : SysCore) : (d.setCore t x).frSeq = d.frSeq := rfl

@[simp] theorem Dev.onTile_powered (d : Dev) (t : Nat) (f : Tile → Tile) : (d.onTile t f).powered = d.powered := rfl
@[simp] theorem Dev.onTile_clusters (d : Dev) (t : Nat) (f : Tile → Tile) : (d.onTile t f).clusters = d.clusters := rfl
@[simp] theorem Dev.onTile_slices (d : Dev) (t : Nat) (f : Tile → Tile) : (d.onTile t f).slices = d.slices := rfl
@[simp] theorem Dev.onTile_frames (d : Dev) (t : Nat) (f : Tile → Tile) : (d.onTile t f).frames = d.frames := rfl
@[simp] theorem Dev.onTile_mem (d : Dev) (t : Nat) (f : Tile → Tile) : (d.onTile t f).mem = d.mem := rfl
@[simp] theorem Dev.onTile_poison (d : Dev) (t : Nat) (f : Tile → Tile) : (d.onTile t f).poison = d.poison := rfl
@[simp] theorem Dev.onTile_bad (d : Dev) (t : Nat) (f : Tile → Tile) : (d.onTile t f).bad = d.bad := rfl
@[simp] theorem Dev.onTile_tlb (d : Dev) (t : Nat) (f : Tile → Tile) : (d.onTile t f).tlb = d.tlb := rfl
@[simp] theorem Dev.onTile_past (d : Dev) (t : Nat) (f : Tile → Tile) : (d.onTile t f).past = d.past := rfl
@[simp] theorem Dev.onTile_later (d : Dev) (t : Nat) (f : Tile → Tile) : (d.onTile t f).later = d.later := rfl
@[simp] theorem Dev.onTile_arms (d : Dev) (t : Nat) (f : Tile → Tile) : (d.onTile t f).arms = d.arms := rfl
@[simp] theorem Dev.onTile_asidtab (d : Dev) (t : Nat) (f : Tile → Tile) : (d.onTile t f).asidtab = d.asidtab := rfl
@[simp] theorem Dev.onTile_leaselen (d : Dev) (t : Nat) (f : Tile → Tile) : (d.onTile t f).leaselen = d.leaselen := rfl
@[simp] theorem Dev.onTile_xvfdrop (d : Dev) (t : Nat) (f : Tile → Tile) : (d.onTile t f).xvfdrop = d.xvfdrop := rfl
@[simp] theorem Dev.onTile_fqdrop (d : Dev) (t : Nat) (f : Tile → Tile) : (d.onTile t f).fqdrop = d.fqdrop := rfl
@[simp] theorem Dev.onTile_profdrop (d : Dev) (t : Nat) (f : Tile → Tile) : (d.onTile t f).profdrop = d.profdrop := rfl
@[simp] theorem Dev.onTile_shares (d : Dev) (t : Nat) (f : Tile → Tile) : (d.onTile t f).shares = d.shares := rfl
@[simp] theorem Dev.onTile_walkers (d : Dev) (t : Nat) (f : Tile → Tile) : (d.onTile t f).walkers = d.walkers := rfl
@[simp] theorem Dev.onTile_nodes (d : Dev) (t : Nat) (f : Tile → Tile) : (d.onTile t f).nodes = d.nodes := rfl
@[simp] theorem Dev.onTile_nodeNext (d : Dev) (t : Nat) (f : Tile → Tile) : (d.onTile t f).nodeNext = d.nodeNext := rfl
@[simp] theorem Dev.onTile_readyNo (d : Dev) (t : Nat) (f : Tile → Tile) : (d.onTile t f).readyNo = d.readyNo := rfl
@[simp] theorem Dev.onTile_serial (d : Dev) (t : Nat) (f : Tile → Tile) : (d.onTile t f).serial = d.serial := rfl
@[simp] theorem Dev.onTile_parts (d : Dev) (t : Nat) (f : Tile → Tile) : (d.onTile t f).parts = d.parts := rfl
@[simp] theorem Dev.onTile_vfs (d : Dev) (t : Nat) (f : Tile → Tile) : (d.onTile t f).vfs = d.vfs := rfl
@[simp] theorem Dev.onTile_retMsgs (d : Dev) (t : Nat) (f : Tile → Tile) : (d.onTile t f).retMsgs = d.retMsgs := rfl
@[simp] theorem Dev.onTile_waiters (d : Dev) (t : Nat) (f : Tile → Tile) : (d.onTile t f).waiters = d.waiters := rfl
@[simp] theorem Dev.onTile_bridges (d : Dev) (t : Nat) (f : Tile → Tile) : (d.onTile t f).bridges = d.bridges := rfl
@[simp] theorem Dev.onTile_lanes (d : Dev) (t : Nat) (f : Tile → Tile) : (d.onTile t f).lanes = d.lanes := rfl
@[simp] theorem Dev.onTile_links (d : Dev) (t : Nat) (f : Tile → Tile) : (d.onTile t f).links = d.links := rfl
@[simp] theorem Dev.onTile_peersLost (d : Dev) (t : Nat) (f : Tile → Tile) : (d.onTile t f).peersLost = d.peersLost := rfl
@[simp] theorem Dev.onTile_flights (d : Dev) (t : Nat) (f : Tile → Tile) : (d.onTile t f).flights = d.flights := rfl
@[simp] theorem Dev.onTile_streams (d : Dev) (t : Nat) (f : Tile → Tile) : (d.onTile t f).streams = d.streams := rfl
@[simp] theorem Dev.onTile_relays (d : Dev) (t : Nat) (f : Tile → Tile) : (d.onTile t f).relays = d.relays := rfl
@[simp] theorem Dev.onTile_reports (d : Dev) (t : Nat) (f : Tile → Tile) : (d.onTile t f).reports = d.reports := rfl
@[simp] theorem Dev.onTile_redirs (d : Dev) (t : Nat) (f : Tile → Tile) : (d.onTile t f).redirs = d.redirs := rfl
@[simp] theorem Dev.onTile_owners (d : Dev) (t : Nat) (f : Tile → Tile) : (d.onTile t f).owners = d.owners := rfl
@[simp] theorem Dev.onTile_mig (d : Dev) (t : Nat) (f : Tile → Tile) : (d.onTile t f).mig = d.mig := rfl
@[simp] theorem Dev.onTile_cores (d : Dev) (t : Nat) (f : Tile → Tile) : (d.onTile t f).cores = d.cores := rfl
@[simp] theorem Dev.onTile_ports (d : Dev) (t : Nat) (f : Tile → Tile) : (d.onTile t f).ports = d.ports := rfl
@[simp] theorem Dev.onTile_cxl (d : Dev) (t : Nat) (f : Tile → Tile) : (d.onTile t f).cxl = d.cxl := rfl
@[simp] theorem Dev.onTile_flash (d : Dev) (t : Nat) (f : Tile → Tile) : (d.onTile t f).flash = d.flash := rfl
@[simp] theorem Dev.onTile_kernel (d : Dev) (t : Nat) (f : Tile → Tile) : (d.onTile t f).kernel = d.kernel := rfl
@[simp] theorem Dev.onTile_genNo (d : Dev) (t : Nat) (f : Tile → Tile) : (d.onTile t f).genNo = d.genNo := rfl
@[simp] theorem Dev.onTile_mgmt (d : Dev) (t : Nat) (f : Tile → Tile) : (d.onTile t f).mgmt = d.mgmt := rfl
@[simp] theorem Dev.onTile_frSeq (d : Dev) (t : Nat) (f : Tile → Tile) : (d.onTile t f).frSeq = d.frSeq := rfl

@[simp] theorem Dev.onCore_powered (d : Dev) (t : Nat) (f : TCore → TCore) : (d.onCore t f).powered = d.powered := rfl
@[simp] theorem Dev.onCore_clusters (d : Dev) (t : Nat) (f : TCore → TCore) : (d.onCore t f).clusters = d.clusters := rfl
@[simp] theorem Dev.onCore_slices (d : Dev) (t : Nat) (f : TCore → TCore) : (d.onCore t f).slices = d.slices := rfl
@[simp] theorem Dev.onCore_frames (d : Dev) (t : Nat) (f : TCore → TCore) : (d.onCore t f).frames = d.frames := rfl
@[simp] theorem Dev.onCore_mem (d : Dev) (t : Nat) (f : TCore → TCore) : (d.onCore t f).mem = d.mem := rfl
@[simp] theorem Dev.onCore_poison (d : Dev) (t : Nat) (f : TCore → TCore) : (d.onCore t f).poison = d.poison := rfl
@[simp] theorem Dev.onCore_bad (d : Dev) (t : Nat) (f : TCore → TCore) : (d.onCore t f).bad = d.bad := rfl
@[simp] theorem Dev.onCore_tlb (d : Dev) (t : Nat) (f : TCore → TCore) : (d.onCore t f).tlb = d.tlb := rfl
@[simp] theorem Dev.onCore_past (d : Dev) (t : Nat) (f : TCore → TCore) : (d.onCore t f).past = d.past := rfl
@[simp] theorem Dev.onCore_later (d : Dev) (t : Nat) (f : TCore → TCore) : (d.onCore t f).later = d.later := rfl
@[simp] theorem Dev.onCore_arms (d : Dev) (t : Nat) (f : TCore → TCore) : (d.onCore t f).arms = d.arms := rfl
@[simp] theorem Dev.onCore_asidtab (d : Dev) (t : Nat) (f : TCore → TCore) : (d.onCore t f).asidtab = d.asidtab := rfl
@[simp] theorem Dev.onCore_leaselen (d : Dev) (t : Nat) (f : TCore → TCore) : (d.onCore t f).leaselen = d.leaselen := rfl
@[simp] theorem Dev.onCore_xvfdrop (d : Dev) (t : Nat) (f : TCore → TCore) : (d.onCore t f).xvfdrop = d.xvfdrop := rfl
@[simp] theorem Dev.onCore_fqdrop (d : Dev) (t : Nat) (f : TCore → TCore) : (d.onCore t f).fqdrop = d.fqdrop := rfl
@[simp] theorem Dev.onCore_profdrop (d : Dev) (t : Nat) (f : TCore → TCore) : (d.onCore t f).profdrop = d.profdrop := rfl
@[simp] theorem Dev.onCore_shares (d : Dev) (t : Nat) (f : TCore → TCore) : (d.onCore t f).shares = d.shares := rfl
@[simp] theorem Dev.onCore_walkers (d : Dev) (t : Nat) (f : TCore → TCore) : (d.onCore t f).walkers = d.walkers := rfl
@[simp] theorem Dev.onCore_nodes (d : Dev) (t : Nat) (f : TCore → TCore) : (d.onCore t f).nodes = d.nodes := rfl
@[simp] theorem Dev.onCore_nodeNext (d : Dev) (t : Nat) (f : TCore → TCore) : (d.onCore t f).nodeNext = d.nodeNext := rfl
@[simp] theorem Dev.onCore_readyNo (d : Dev) (t : Nat) (f : TCore → TCore) : (d.onCore t f).readyNo = d.readyNo := rfl
@[simp] theorem Dev.onCore_serial (d : Dev) (t : Nat) (f : TCore → TCore) : (d.onCore t f).serial = d.serial := rfl
@[simp] theorem Dev.onCore_parts (d : Dev) (t : Nat) (f : TCore → TCore) : (d.onCore t f).parts = d.parts := rfl
@[simp] theorem Dev.onCore_vfs (d : Dev) (t : Nat) (f : TCore → TCore) : (d.onCore t f).vfs = d.vfs := rfl
@[simp] theorem Dev.onCore_retMsgs (d : Dev) (t : Nat) (f : TCore → TCore) : (d.onCore t f).retMsgs = d.retMsgs := rfl
@[simp] theorem Dev.onCore_waiters (d : Dev) (t : Nat) (f : TCore → TCore) : (d.onCore t f).waiters = d.waiters := rfl
@[simp] theorem Dev.onCore_bridges (d : Dev) (t : Nat) (f : TCore → TCore) : (d.onCore t f).bridges = d.bridges := rfl
@[simp] theorem Dev.onCore_lanes (d : Dev) (t : Nat) (f : TCore → TCore) : (d.onCore t f).lanes = d.lanes := rfl
@[simp] theorem Dev.onCore_links (d : Dev) (t : Nat) (f : TCore → TCore) : (d.onCore t f).links = d.links := rfl
@[simp] theorem Dev.onCore_peersLost (d : Dev) (t : Nat) (f : TCore → TCore) : (d.onCore t f).peersLost = d.peersLost := rfl
@[simp] theorem Dev.onCore_flights (d : Dev) (t : Nat) (f : TCore → TCore) : (d.onCore t f).flights = d.flights := rfl
@[simp] theorem Dev.onCore_streams (d : Dev) (t : Nat) (f : TCore → TCore) : (d.onCore t f).streams = d.streams := rfl
@[simp] theorem Dev.onCore_relays (d : Dev) (t : Nat) (f : TCore → TCore) : (d.onCore t f).relays = d.relays := rfl
@[simp] theorem Dev.onCore_reports (d : Dev) (t : Nat) (f : TCore → TCore) : (d.onCore t f).reports = d.reports := rfl
@[simp] theorem Dev.onCore_redirs (d : Dev) (t : Nat) (f : TCore → TCore) : (d.onCore t f).redirs = d.redirs := rfl
@[simp] theorem Dev.onCore_owners (d : Dev) (t : Nat) (f : TCore → TCore) : (d.onCore t f).owners = d.owners := rfl
@[simp] theorem Dev.onCore_mig (d : Dev) (t : Nat) (f : TCore → TCore) : (d.onCore t f).mig = d.mig := rfl
@[simp] theorem Dev.onCore_cores (d : Dev) (t : Nat) (f : TCore → TCore) : (d.onCore t f).cores = d.cores := rfl
@[simp] theorem Dev.onCore_ports (d : Dev) (t : Nat) (f : TCore → TCore) : (d.onCore t f).ports = d.ports := rfl
@[simp] theorem Dev.onCore_cxl (d : Dev) (t : Nat) (f : TCore → TCore) : (d.onCore t f).cxl = d.cxl := rfl
@[simp] theorem Dev.onCore_flash (d : Dev) (t : Nat) (f : TCore → TCore) : (d.onCore t f).flash = d.flash := rfl
@[simp] theorem Dev.onCore_kernel (d : Dev) (t : Nat) (f : TCore → TCore) : (d.onCore t f).kernel = d.kernel := rfl
@[simp] theorem Dev.onCore_genNo (d : Dev) (t : Nat) (f : TCore → TCore) : (d.onCore t f).genNo = d.genNo := rfl
@[simp] theorem Dev.onCore_mgmt (d : Dev) (t : Nat) (f : TCore → TCore) : (d.onCore t f).mgmt = d.mgmt := rfl
@[simp] theorem Dev.onCore_frSeq (d : Dev) (t : Nat) (f : TCore → TCore) : (d.onCore t f).frSeq = d.frSeq := rfl

@[simp] theorem Dev.onCluster_powered (d : Dev) (t : Nat) (f : Cluster → Cluster) : (d.onCluster t f).powered = d.powered := rfl
@[simp] theorem Dev.onCluster_tiles (d : Dev) (t : Nat) (f : Cluster → Cluster) : (d.onCluster t f).tiles = d.tiles := rfl
@[simp] theorem Dev.onCluster_slices (d : Dev) (t : Nat) (f : Cluster → Cluster) : (d.onCluster t f).slices = d.slices := rfl
@[simp] theorem Dev.onCluster_frames (d : Dev) (t : Nat) (f : Cluster → Cluster) : (d.onCluster t f).frames = d.frames := rfl
@[simp] theorem Dev.onCluster_mem (d : Dev) (t : Nat) (f : Cluster → Cluster) : (d.onCluster t f).mem = d.mem := rfl
@[simp] theorem Dev.onCluster_poison (d : Dev) (t : Nat) (f : Cluster → Cluster) : (d.onCluster t f).poison = d.poison := rfl
@[simp] theorem Dev.onCluster_bad (d : Dev) (t : Nat) (f : Cluster → Cluster) : (d.onCluster t f).bad = d.bad := rfl
@[simp] theorem Dev.onCluster_tlb (d : Dev) (t : Nat) (f : Cluster → Cluster) : (d.onCluster t f).tlb = d.tlb := rfl
@[simp] theorem Dev.onCluster_past (d : Dev) (t : Nat) (f : Cluster → Cluster) : (d.onCluster t f).past = d.past := rfl
@[simp] theorem Dev.onCluster_later (d : Dev) (t : Nat) (f : Cluster → Cluster) : (d.onCluster t f).later = d.later := rfl
@[simp] theorem Dev.onCluster_arms (d : Dev) (t : Nat) (f : Cluster → Cluster) : (d.onCluster t f).arms = d.arms := rfl
@[simp] theorem Dev.onCluster_asidtab (d : Dev) (t : Nat) (f : Cluster → Cluster) : (d.onCluster t f).asidtab = d.asidtab := rfl
@[simp] theorem Dev.onCluster_leaselen (d : Dev) (t : Nat) (f : Cluster → Cluster) : (d.onCluster t f).leaselen = d.leaselen := rfl
@[simp] theorem Dev.onCluster_xvfdrop (d : Dev) (t : Nat) (f : Cluster → Cluster) : (d.onCluster t f).xvfdrop = d.xvfdrop := rfl
@[simp] theorem Dev.onCluster_fqdrop (d : Dev) (t : Nat) (f : Cluster → Cluster) : (d.onCluster t f).fqdrop = d.fqdrop := rfl
@[simp] theorem Dev.onCluster_profdrop (d : Dev) (t : Nat) (f : Cluster → Cluster) : (d.onCluster t f).profdrop = d.profdrop := rfl
@[simp] theorem Dev.onCluster_shares (d : Dev) (t : Nat) (f : Cluster → Cluster) : (d.onCluster t f).shares = d.shares := rfl
@[simp] theorem Dev.onCluster_walkers (d : Dev) (t : Nat) (f : Cluster → Cluster) : (d.onCluster t f).walkers = d.walkers := rfl
@[simp] theorem Dev.onCluster_nodes (d : Dev) (t : Nat) (f : Cluster → Cluster) : (d.onCluster t f).nodes = d.nodes := rfl
@[simp] theorem Dev.onCluster_nodeNext (d : Dev) (t : Nat) (f : Cluster → Cluster) : (d.onCluster t f).nodeNext = d.nodeNext := rfl
@[simp] theorem Dev.onCluster_readyNo (d : Dev) (t : Nat) (f : Cluster → Cluster) : (d.onCluster t f).readyNo = d.readyNo := rfl
@[simp] theorem Dev.onCluster_serial (d : Dev) (t : Nat) (f : Cluster → Cluster) : (d.onCluster t f).serial = d.serial := rfl
@[simp] theorem Dev.onCluster_parts (d : Dev) (t : Nat) (f : Cluster → Cluster) : (d.onCluster t f).parts = d.parts := rfl
@[simp] theorem Dev.onCluster_vfs (d : Dev) (t : Nat) (f : Cluster → Cluster) : (d.onCluster t f).vfs = d.vfs := rfl
@[simp] theorem Dev.onCluster_retMsgs (d : Dev) (t : Nat) (f : Cluster → Cluster) : (d.onCluster t f).retMsgs = d.retMsgs := rfl
@[simp] theorem Dev.onCluster_waiters (d : Dev) (t : Nat) (f : Cluster → Cluster) : (d.onCluster t f).waiters = d.waiters := rfl
@[simp] theorem Dev.onCluster_bridges (d : Dev) (t : Nat) (f : Cluster → Cluster) : (d.onCluster t f).bridges = d.bridges := rfl
@[simp] theorem Dev.onCluster_lanes (d : Dev) (t : Nat) (f : Cluster → Cluster) : (d.onCluster t f).lanes = d.lanes := rfl
@[simp] theorem Dev.onCluster_links (d : Dev) (t : Nat) (f : Cluster → Cluster) : (d.onCluster t f).links = d.links := rfl
@[simp] theorem Dev.onCluster_peersLost (d : Dev) (t : Nat) (f : Cluster → Cluster) : (d.onCluster t f).peersLost = d.peersLost := rfl
@[simp] theorem Dev.onCluster_flights (d : Dev) (t : Nat) (f : Cluster → Cluster) : (d.onCluster t f).flights = d.flights := rfl
@[simp] theorem Dev.onCluster_streams (d : Dev) (t : Nat) (f : Cluster → Cluster) : (d.onCluster t f).streams = d.streams := rfl
@[simp] theorem Dev.onCluster_relays (d : Dev) (t : Nat) (f : Cluster → Cluster) : (d.onCluster t f).relays = d.relays := rfl
@[simp] theorem Dev.onCluster_reports (d : Dev) (t : Nat) (f : Cluster → Cluster) : (d.onCluster t f).reports = d.reports := rfl
@[simp] theorem Dev.onCluster_redirs (d : Dev) (t : Nat) (f : Cluster → Cluster) : (d.onCluster t f).redirs = d.redirs := rfl
@[simp] theorem Dev.onCluster_owners (d : Dev) (t : Nat) (f : Cluster → Cluster) : (d.onCluster t f).owners = d.owners := rfl
@[simp] theorem Dev.onCluster_mig (d : Dev) (t : Nat) (f : Cluster → Cluster) : (d.onCluster t f).mig = d.mig := rfl
@[simp] theorem Dev.onCluster_cores (d : Dev) (t : Nat) (f : Cluster → Cluster) : (d.onCluster t f).cores = d.cores := rfl
@[simp] theorem Dev.onCluster_ports (d : Dev) (t : Nat) (f : Cluster → Cluster) : (d.onCluster t f).ports = d.ports := rfl
@[simp] theorem Dev.onCluster_cxl (d : Dev) (t : Nat) (f : Cluster → Cluster) : (d.onCluster t f).cxl = d.cxl := rfl
@[simp] theorem Dev.onCluster_flash (d : Dev) (t : Nat) (f : Cluster → Cluster) : (d.onCluster t f).flash = d.flash := rfl
@[simp] theorem Dev.onCluster_kernel (d : Dev) (t : Nat) (f : Cluster → Cluster) : (d.onCluster t f).kernel = d.kernel := rfl
@[simp] theorem Dev.onCluster_genNo (d : Dev) (t : Nat) (f : Cluster → Cluster) : (d.onCluster t f).genNo = d.genNo := rfl
@[simp] theorem Dev.onCluster_mgmt (d : Dev) (t : Nat) (f : Cluster → Cluster) : (d.onCluster t f).mgmt = d.mgmt := rfl
@[simp] theorem Dev.onCluster_frSeq (d : Dev) (t : Nat) (f : Cluster → Cluster) : (d.onCluster t f).frSeq = d.frSeq := rfl

@[simp] theorem Dev.tile_setTile (d : Dev) (t u : Nat) (x : Tile) : (d.setTile t x).tile u = if u = t then x else d.tile u := by
  simp [Dev.tile, Dev.setTile]

@[simp] theorem Dev.tile_onTile (d : Dev) (t u : Nat) (f : Tile → Tile) :
    (d.onTile t f).tile u = if u = t then f (d.tile t) else d.tile u := by simp [Dev.onTile]

@[simp] theorem Dev.tile_onCore (d : Dev) (t u : Nat) (f : TCore → TCore) :
    (d.onCore t f).tile u = if u = t then { d.tile t with core := f (d.tile t).core } else d.tile u := by simp [Dev.onCore]

@[simp] theorem Dev.setTile_setTile (d : Dev) (t : Nat) (x y : Tile) : (d.setTile t x).setTile t y = d.setTile t y := by
  simp [Dev.setTile]

/-- Two changes of one tile are one change. -/
theorem Dev.onTile_onTile (d : Dev) (t : Nat) (f g : Tile → Tile) : (d.onTile t f).onTile t g = d.onTile t fun y => g (f y) := by
  simp [Dev.onTile]

/-- Two changes of one iteration are one change. -/
theorem Dev.onCore_onCore (d : Dev) (t : Nat) (f g : TCore → TCore) : (d.onCore t f).onCore t g = d.onCore t fun c => g (f c) := by
  simp [Dev.onCore, Dev.onTile_onTile]

@[simp] theorem Dev.cluster_setCluster (d : Dev) (t u : Nat) (x : Cluster) :
    (d.setCluster t x).cluster u = if u = t then x else d.cluster u := by simp [Dev.cluster, Dev.setCluster]

@[simp] theorem Dev.cluster_onCluster (d : Dev) (t u : Nat) (f : Cluster → Cluster) :
    (d.onCluster t f).cluster u = if u = t then f (d.cluster t) else d.cluster u := by simp [Dev.onCluster]

@[simp] theorem Dev.slice_setSlice (d : Dev) (t u : Nat) (x : Slice) :
    (d.setSlice t x).slice u = if u = t then x else d.slice u := by simp [Dev.slice, Dev.setSlice]

@[simp] theorem Dev.vf_setVf (d : Dev) (t u : Nat) (x : VfBlk) : (d.setVf t x).vf u = if u = t then x else d.vf u := by
  simp [Dev.vf, Dev.setVf]

@[simp] theorem Dev.core_setCore (d : Dev) (t u : Nat) (x : SysCore) :
    (d.setCore t x).core u = if u = t then x else d.core u := by simp [Dev.core, Dev.setCore]

@[simp] theorem Dev.cluster_setTile (d : Dev) (t : Nat) (x : Tile) (u : Nat) : (d.setTile t x).cluster u = d.cluster u := rfl
@[simp] theorem Dev.slice_setTile (d : Dev) (t : Nat) (x : Tile) (u : Nat) : (d.setTile t x).slice u = d.slice u := rfl
@[simp] theorem Dev.vf_setTile (d : Dev) (t : Nat) (x : Tile) (u : Nat) : (d.setTile t x).vf u = d.vf u := rfl
@[simp] theorem Dev.core_setTile (d : Dev) (t : Nat) (x : Tile) (u : Nat) : (d.setTile t x).core u = d.core u := rfl
@[simp] theorem Dev.share_setTile (d : Dev) (t : Nat) (x : Tile) (u : Nat) : (d.setTile t x).share u = d.share u := rfl
@[simp] theorem Dev.walker_setTile (d : Dev) (t : Nat) (x : Tile) (u : Nat) : (d.setTile t x).walker u = d.walker u := rfl
@[simp] theorem Dev.bridge_setTile (d : Dev) (t : Nat) (x : Tile) (u : Nat) : (d.setTile t x).bridge u = d.bridge u := rfl
@[simp] theorem Dev.tile_setCluster (d : Dev) (t : Nat) (x : Cluster) (u : Nat) : (d.setCluster t x).tile u = d.tile u := rfl
@[simp] theorem Dev.slice_setCluster (d : Dev) (t : Nat) (x : Cluster) (u : Nat) : (d.setCluster t x).slice u = d.slice u := rfl
@[simp] theorem Dev.vf_setCluster (d : Dev) (t : Nat) (x : Cluster) (u : Nat) : (d.setCluster t x).vf u = d.vf u := rfl
@[simp] theorem Dev.core_setCluster (d : Dev) (t : Nat) (x : Cluster) (u : Nat) : (d.setCluster t x).core u = d.core u := rfl
@[simp] theorem Dev.share_setCluster (d : Dev) (t : Nat) (x : Cluster) (u : Nat) : (d.setCluster t x).share u = d.share u := rfl
@[simp] theorem Dev.walker_setCluster (d : Dev) (t : Nat) (x : Cluster) (u : Nat) : (d.setCluster t x).walker u = d.walker u := rfl
@[simp] theorem Dev.bridge_setCluster (d : Dev) (t : Nat) (x : Cluster) (u : Nat) : (d.setCluster t x).bridge u = d.bridge u := rfl
@[simp] theorem Dev.tile_setSlice (d : Dev) (t : Nat) (x : Slice) (u : Nat) : (d.setSlice t x).tile u = d.tile u := rfl
@[simp] theorem Dev.cluster_setSlice (d : Dev) (t : Nat) (x : Slice) (u : Nat) : (d.setSlice t x).cluster u = d.cluster u := rfl
@[simp] theorem Dev.vf_setSlice (d : Dev) (t : Nat) (x : Slice) (u : Nat) : (d.setSlice t x).vf u = d.vf u := rfl
@[simp] theorem Dev.core_setSlice (d : Dev) (t : Nat) (x : Slice) (u : Nat) : (d.setSlice t x).core u = d.core u := rfl
@[simp] theorem Dev.share_setSlice (d : Dev) (t : Nat) (x : Slice) (u : Nat) : (d.setSlice t x).share u = d.share u := rfl
@[simp] theorem Dev.walker_setSlice (d : Dev) (t : Nat) (x : Slice) (u : Nat) : (d.setSlice t x).walker u = d.walker u := rfl
@[simp] theorem Dev.bridge_setSlice (d : Dev) (t : Nat) (x : Slice) (u : Nat) : (d.setSlice t x).bridge u = d.bridge u := rfl
@[simp] theorem Dev.tile_setVf (d : Dev) (t : Nat) (x : VfBlk) (u : Nat) : (d.setVf t x).tile u = d.tile u := rfl
@[simp] theorem Dev.cluster_setVf (d : Dev) (t : Nat) (x : VfBlk) (u : Nat) : (d.setVf t x).cluster u = d.cluster u := rfl
@[simp] theorem Dev.slice_setVf (d : Dev) (t : Nat) (x : VfBlk) (u : Nat) : (d.setVf t x).slice u = d.slice u := rfl
@[simp] theorem Dev.core_setVf (d : Dev) (t : Nat) (x : VfBlk) (u : Nat) : (d.setVf t x).core u = d.core u := rfl
@[simp] theorem Dev.share_setVf (d : Dev) (t : Nat) (x : VfBlk) (u : Nat) : (d.setVf t x).share u = d.share u := rfl
@[simp] theorem Dev.walker_setVf (d : Dev) (t : Nat) (x : VfBlk) (u : Nat) : (d.setVf t x).walker u = d.walker u := rfl
@[simp] theorem Dev.bridge_setVf (d : Dev) (t : Nat) (x : VfBlk) (u : Nat) : (d.setVf t x).bridge u = d.bridge u := rfl
@[simp] theorem Dev.tile_setCore (d : Dev) (t : Nat) (x : SysCore) (u : Nat) : (d.setCore t x).tile u = d.tile u := rfl
@[simp] theorem Dev.cluster_setCore (d : Dev) (t : Nat) (x : SysCore) (u : Nat) : (d.setCore t x).cluster u = d.cluster u := rfl
@[simp] theorem Dev.slice_setCore (d : Dev) (t : Nat) (x : SysCore) (u : Nat) : (d.setCore t x).slice u = d.slice u := rfl
@[simp] theorem Dev.vf_setCore (d : Dev) (t : Nat) (x : SysCore) (u : Nat) : (d.setCore t x).vf u = d.vf u := rfl
@[simp] theorem Dev.share_setCore (d : Dev) (t : Nat) (x : SysCore) (u : Nat) : (d.setCore t x).share u = d.share u := rfl
@[simp] theorem Dev.walker_setCore (d : Dev) (t : Nat) (x : SysCore) (u : Nat) : (d.setCore t x).walker u = d.walker u := rfl
@[simp] theorem Dev.bridge_setCore (d : Dev) (t : Nat) (x : SysCore) (u : Nat) : (d.setCore t x).bridge u = d.bridge u := rfl
@[simp] theorem Dev.cluster_onTile (d : Dev) (t : Nat) (f : Tile → Tile) (u : Nat) : (d.onTile t f).cluster u = d.cluster u := rfl
@[simp] theorem Dev.slice_onTile (d : Dev) (t : Nat) (f : Tile → Tile) (u : Nat) : (d.onTile t f).slice u = d.slice u := rfl
@[simp] theorem Dev.vf_onTile (d : Dev) (t : Nat) (f : Tile → Tile) (u : Nat) : (d.onTile t f).vf u = d.vf u := rfl
@[simp] theorem Dev.core_onTile (d : Dev) (t : Nat) (f : Tile → Tile) (u : Nat) : (d.onTile t f).core u = d.core u := rfl
@[simp] theorem Dev.share_onTile (d : Dev) (t : Nat) (f : Tile → Tile) (u : Nat) : (d.onTile t f).share u = d.share u := rfl
@[simp] theorem Dev.walker_onTile (d : Dev) (t : Nat) (f : Tile → Tile) (u : Nat) : (d.onTile t f).walker u = d.walker u := rfl
@[simp] theorem Dev.bridge_onTile (d : Dev) (t : Nat) (f : Tile → Tile) (u : Nat) : (d.onTile t f).bridge u = d.bridge u := rfl
@[simp] theorem Dev.cluster_onCore (d : Dev) (t : Nat) (f : TCore → TCore) (u : Nat) : (d.onCore t f).cluster u = d.cluster u := rfl
@[simp] theorem Dev.slice_onCore (d : Dev) (t : Nat) (f : TCore → TCore) (u : Nat) : (d.onCore t f).slice u = d.slice u := rfl
@[simp] theorem Dev.vf_onCore (d : Dev) (t : Nat) (f : TCore → TCore) (u : Nat) : (d.onCore t f).vf u = d.vf u := rfl
@[simp] theorem Dev.core_onCore (d : Dev) (t : Nat) (f : TCore → TCore) (u : Nat) : (d.onCore t f).core u = d.core u := rfl
@[simp] theorem Dev.share_onCore (d : Dev) (t : Nat) (f : TCore → TCore) (u : Nat) : (d.onCore t f).share u = d.share u := rfl
@[simp] theorem Dev.walker_onCore (d : Dev) (t : Nat) (f : TCore → TCore) (u : Nat) : (d.onCore t f).walker u = d.walker u := rfl
@[simp] theorem Dev.bridge_onCore (d : Dev) (t : Nat) (f : TCore → TCore) (u : Nat) : (d.onCore t f).bridge u = d.bridge u := rfl
@[simp] theorem Dev.tile_onCluster (d : Dev) (t : Nat) (f : Cluster → Cluster) (u : Nat) : (d.onCluster t f).tile u = d.tile u := rfl
@[simp] theorem Dev.slice_onCluster (d : Dev) (t : Nat) (f : Cluster → Cluster) (u : Nat) : (d.onCluster t f).slice u = d.slice u := rfl
@[simp] theorem Dev.vf_onCluster (d : Dev) (t : Nat) (f : Cluster → Cluster) (u : Nat) : (d.onCluster t f).vf u = d.vf u := rfl
@[simp] theorem Dev.core_onCluster (d : Dev) (t : Nat) (f : Cluster → Cluster) (u : Nat) : (d.onCluster t f).core u = d.core u := rfl
@[simp] theorem Dev.share_onCluster (d : Dev) (t : Nat) (f : Cluster → Cluster) (u : Nat) : (d.onCluster t f).share u = d.share u := rfl
@[simp] theorem Dev.walker_onCluster (d : Dev) (t : Nat) (f : Cluster → Cluster) (u : Nat) : (d.onCluster t f).walker u = d.walker u := rfl
@[simp] theorem Dev.bridge_onCluster (d : Dev) (t : Nat) (f : Cluster → Cluster) (u : Nat) : (d.onCluster t f).bridge u = d.bridge u := rfl

@[simp] theorem State.onDev_dev (f : Env → Dev → Dev) (s : State) : (s.onDev f).dev = f s.env s.dev := rfl
@[simp] theorem State.onDev_env (f : Env → Dev → Dev) (s : State) : (s.onDev f).env = s.env := rfl
@[simp] theorem State.onDev_sched (f : Env → Dev → Dev) (s : State) : (s.onDev f).sched = s.sched := rfl

/-- A meaning always answers a next state. -/
theorem State.run_eq (f : Env → Dev → Dev) (s : State) : s.run f = .next { s with dev := f s.env s.dev } := rfl

end Sys2Proof.Machine
end

