-- ==== Sys2Proof/Laws/Walk.lean ====
section
/-! SUPPORT. What walking a word does, once for all words: an owner's word, another engine's word, a C word, a wait. -/

namespace Sys2Proof.Machine

open Sys2Proof.Safety

/-! ### Counting events -/

theorem countEv_eq (d : Dev) (t : Nat) (vf : BitVec 10) (ev n : Nat) :
    countEv d t vf ev n = { d with vfs := (countEv d t vf ev n).vfs } := by
  unfold countEv; dsimp only; split <;> rfl

@[simp] theorem countEv_tiles (d : Dev) (t : Nat) (vf : BitVec 10) (ev n : Nat) : (countEv d t vf ev n).tiles = d.tiles := by
  rw [countEv_eq]
@[simp] theorem countEv_mem (d : Dev) (t : Nat) (vf : BitVec 10) (ev n : Nat) : (countEv d t vf ev n).mem = d.mem := by rw [countEv_eq]
@[simp] theorem countEv_clusters (d : Dev) (t : Nat) (vf : BitVec 10) (ev n : Nat) : (countEv d t vf ev n).clusters = d.clusters := by
  rw [countEv_eq]
@[simp] theorem countEv_tile (d : Dev) (t : Nat) (vf : BitVec 10) (ev n : Nat) (u : Nat) : (countEv d t vf ev n).tile u = d.tile u := by
  simp [Dev.tile]
@[simp] theorem countEv_cluster (d : Dev) (t : Nat) (vf : BitVec 10) (ev n : Nat) (c : Nat) :
    (countEv d t vf ev n).cluster c = d.cluster c := by
  simp [Dev.cluster]

/-! ### A word that has been walked -/

/-- Walking changes the tile and the event counters, nothing else. -/
theorem walkTo_eq (d : Dev) (a : At) (next : Dword) (p : Prev) :
    walkTo d a next p = { d with tiles := (walkTo d a next p).tiles, vfs := (walkTo d a next p).vfs } := by
  unfold walkTo; simp only [Dev.onTile, Dev.setTile]; rw [countEv_eq]

@[simp] theorem walkTo_mem (d : Dev) (a : At) (next : Dword) (p : Prev) : (walkTo d a next p).mem = d.mem := by rw [walkTo_eq]
@[simp] theorem walkTo_clusters (d : Dev) (a : At) (next : Dword) (p : Prev) : (walkTo d a next p).clusters = d.clusters := by
  rw [walkTo_eq]
@[simp] theorem walkTo_cluster (d : Dev) (a : At) (next : Dword) (p : Prev) (c : Nat) :
    (walkTo d a next p).cluster c = d.cluster c := by simp [Dev.cluster]

theorem walkTo_tile_other (d : Dev) (a : At) (next : Dword) (p : Prev) {u : Nat} (h : u ≠ a.t) :
    (walkTo d a next p).tile u = d.tile u := by
  unfold walkTo; simp [h]

/-- What the tile's iteration is after a word walked outside a handler. -/
theorem walkTo_core (d : Dev) (a : At) (next : Dword) (p : Prev) (h : a.hand = false) :
    ((walkTo d a next p).tile a.t).core =
      { ({ (d.tile a.t).core with
            stall := 0, skip := (d.tile a.t).core.skip.filter fun x => x.1 != a.e } : TCore).onEng a.e
          fun x => { x with pc := next, walk := x.walk + 1, wait := none, prev := p } with
        trap := if a.e = .m then { (d.tile a.t).core.trap with mHold := false } else (d.tile a.t).core.trap } := by
  unfold walkTo; simp [h]

/-- The same in a handler. -/
theorem walkTo_core_hand (d : Dev) (a : At) (next : Dword) (p : Prev) (h : a.hand = true) :
    ((walkTo d a next p).tile a.t).core =
      { (d.tile a.t).core with
        stall := 0
        skip := (d.tile a.t).core.skip.filter fun x => x.1 != a.e || x.2 != a.pc
        trap := { (d.tile a.t).core.trap with
          hand := (d.tile a.t).core.trap.hand.map fun h => { h with pc := next, prev := p, wait := none } } } := by
  unfold walkTo; simp [h]

/-- A tile after a word differs in its iteration and its debug registers alone. -/
theorem walkTo_tile (d : Dev) (a : At) (next : Dword) (p : Prev) :
    (walkTo d a next p).tile a.t =
      { d.tile a.t with core := ((walkTo d a next p).tile a.t).core, dbg := ((walkTo d a next p).tile a.t).dbg } := by
  unfold walkTo; simp

@[simp] theorem engine_onEng (c : TCore) (e g : Eng) (f : Engine → Engine) :
    (c.onEng e f).engine g = if g = e then f (c.engine e) else c.engine g := by
  cases e <;> cases g <;> simp [TCore.engine, TCore.onEng, Eng.idx]

theorem onEng_eq (c : TCore) (e : Eng) (f : Engine → Engine) : c.onEng e f = { c with eng := (c.onEng e f).eng } := rfl

/-! ### The words of one engine -/

theorem ready_hand {d : Dev} {t : Nat} {e : Eng} {pc : Dword} {hand : Bool} (h : ready d t e = .go pc hand) :
    hand = (d.tile t).core.trap.hand.isSome := by
  unfold ready at h
  dsimp only at h
  split at h
  · cases h
  · split at h
    · next g hg => rw [hg]; split at h <;> [(split at h <;> cases h; rfl); cases h]
    · next hg =>
      rw [hg]
      split at h
      · cases h
      · split at h
        · cases h
        · split at h
          · cases h
          · split at h <;> cases h; rfl

/-- Only X walks a handler (R114). -/
theorem ready_hand_x {d : Dev} {t : Nat} {e : Eng} {pc : Dword} (h : ready d t e = .go pc true) : e = .x := by
  unfold ready at h
  dsimp only at h
  split at h
  · cases h
  · split at h
    · split at h
      · assumption
      · cases h
    · split at h
      · cases h
      · split at h
        · cases h
        · split at h
          · cases h
          · split at h <;> cases h

/-- The device as a word of another engine than V finds it. -/
theorem issued_of {d : Dev} {a : At} (h : a.e ≠ .v) : issued d a = d := by
  unfold issued; simp [h]

/-- A word walked by its owner, whose effect is done. -/
theorem engineWord_own {own : Eng} {i : Instr} {f : At → Dev → Res Unit} {skip : Eng → TCore → TCore} {env : Env} {d d2 : Dev}
    {pc : Dword} {hand : Bool} (he : env.eng = own) (hr : ready d env.unit env.eng = .go pc hand)
    (hf : f ⟨env.unit, own, pc, hand⟩ (issued d ⟨env.unit, own, pc, hand⟩) = .ok () d2) :
    engineWord own i f skip env d = walkTo d2 ⟨env.unit, own, pc, hand⟩ (pc + 4) (.other own) := by
  unfold engineWord
  subst he
  simp only [hr, if_true, hf, Res.bind, finish]

/-- A word of another engine is stepped over (R58). -/
theorem engineWord_other {own : Eng} {i : Instr} {f : At → Dev → Res Unit} {skip : Eng → TCore → TCore} {env : Env} {d : Dev}
    {pc : Dword} {hand : Bool} (he : env.eng ≠ own) (hr : ready d env.unit env.eng = .go pc hand) :
    engineWord own i f skip env d =
      walkTo ((issued d ⟨env.unit, env.eng, pc, hand⟩).onCore env.unit (skip env.eng)) ⟨env.unit, env.eng, pc, hand⟩ (pc + 4) (.other own) := by
  unfold engineWord
  simp only [hr, if_neg he]

/-- A word of one engine whose effect waits. -/
theorem engineWord_wait {own : Eng} {i : Instr} {f : At → Dev → Res Unit} {skip : Eng → TCore → TCore} {env : Env} {d d2 : Dev}
    {pc : Dword} {hand : Bool} {w : Wait} (he : env.eng = own) (hr : ready d env.unit env.eng = .go pc hand)
    (hf : f ⟨env.unit, own, pc, hand⟩ (issued d ⟨env.unit, own, pc, hand⟩) = .wait w d2) :
    engineWord own i f skip env d =
      setWait (if own = .v && !w.tick then { d with mig := d2.mig, tlb := d2.tlb } else d2) ⟨env.unit, own, pc, hand⟩ w := by
  unfold engineWord
  subst he
  simp only [hr, if_true, hf, Res.bind, finish]

/-- A word of one engine that raises a user trap (R315). -/
theorem engineWord_trap {own : Eng} {i : Instr} {f : At → Dev → Res Unit} {skip : Eng → TCore → TCore} {env : Env} {d : Dev}
    {pc : Dword} {hand : Bool} {c : Nat} {i0 i1 i2 i3 : Dword} (he : env.eng = own) (hr : ready d env.unit env.eng = .go pc hand)
    (hf : f ⟨env.unit, own, pc, hand⟩ (issued d ⟨env.unit, own, pc, hand⟩) = .trap c i0 i1 i2 i3) :
    engineWord own i f skip env d = enterTrap env d env.unit own pc c i0 i1 i2 i3 := by
  unfold engineWord
  subst he
  simp only [hr, if_true, hf, Res.bind, finish]

/-- A C word whose effect is done. -/
theorem controlWord_go {i : Instr} {f : At → Dev → Res Dword} {env : Env} {d d2 : Dev} {pc next : Dword} {hand : Bool}
    (hr : ready d env.unit env.eng = .go pc hand)
    (hf : f ⟨env.unit, env.eng, pc, hand⟩ (issued d ⟨env.unit, env.eng, pc, hand⟩) = .ok next d2) :
    controlWord i f env d = walkTo d2 ⟨env.unit, env.eng, pc, hand⟩ next .c := by
  unfold controlWord
  simp only [hr, hf, Res.bind, finish]

/-- The step of a word of X, A or M whose effect is done, as the states name it. -/
theorem run_own {s : State} {own : Eng} {i : Instr} {f : Env → At → Dev → Res Unit} {skip : Eng → TCore → TCore} {pc : Dword}
    {hand : Bool} {d : Dev} (h : Stands s own pc hand) (hv : own ≠ .v)
    (hf : f s.env ⟨s.env.unit, own, pc, hand⟩ s.dev = .ok () d) :
    s.run (fun env d => engineWord own i (f env) skip env d) = .next (walked s pc d own hand (pc + 4) (.other own)) := by
  obtain ⟨he, hr⟩ := h
  simp only [State.run, State.onDev, walked, withDev]
  rw [engineWord_own (d2 := d) he (by rw [he]; exact hr) (by rw [issued_of hv]; exact hf)]

/-- The step of a word that acts on what belongs to the iteration alone. -/
theorem run_core {s : State} {own : Eng} {i : Instr} {f : TCore → TCore} {pc : Dword} {hand : Bool} (h : Stands s own pc hand)
    (hv : own ≠ .v) : s.run (coreWord own i f) = .next (after s own pc hand f) :=
  run_own (f := fun _ a d1 => .ok () (d1.onCore a.t f)) h hv rfl

/-- The step of a V word whose effect is done: its issue cycle is counted first (R175). -/
theorem run_v {s : State} {i : Instr} {f : Env → At → Dev → Res Unit} {skip : Eng → TCore → TCore} {pc : Dword} {hand : Bool} {d : Dev}
    (h : Stands s .v pc hand) (hf : f s.env ⟨s.env.unit, .v, pc, hand⟩ (s.dev.onCore s.env.unit issueTick) = .ok () d) :
    s.run (fun env d => engineWord .v i (f env) skip env d) = .next (walked s pc d .v hand (pc + 4) (.other .v)) := by
  obtain ⟨he, hr⟩ := h
  have hh : hand = false := by
    cases hand
    · rfl
    · cases ready_hand_x hr
  subst hh
  simp only [State.run, State.onDev, walked, withDev]
  rw [engineWord_own (d2 := d) he (by rw [he]; exact hr) (by exact hf)]

/-- The same for a word on what belongs to the iteration alone. -/
theorem run_v_core {s : State} {i : Instr} {f : TCore → TCore} {pc : Dword} {hand : Bool} (h : Stands s .v pc hand) :
    s.run (coreWord .v i f) = .next (after s .v pc hand fun c => f (issueTick c)) := by
  have := run_v (i := i) (f := fun _ a d1 => .ok () (d1.onCore a.t f)) (skip := fun _ c => c) h rfl
  refine this.trans ?_
  simp only [after, Dev.onCore_onCore]

end Sys2Proof.Machine
end

