-- ==== Sys2Proof/Laws/Access.lean ====
section
/-! SUPPORT. What translations and accesses change: the timestamps, the translations kept, the bytes of a store and nothing else of
memory. -/

namespace Sys2Proof.Machine

/-! ### Devices that agree on memory and on what belongs to the iterations -/

/-- Two devices hold the same memory, and every tile the same iteration. -/
def SameCore (d e : Dev) : Prop := e.mem = d.mem ∧ ∀ t, (e.tile t).core = (d.tile t).core

theorem SameCore.refl (d : Dev) : SameCore d d := ⟨Eq.refl _, fun _ => Eq.refl _⟩

theorem SameCore.trans {a b c : Dev} (h : SameCore a b) (g : SameCore b c) : SameCore a c :=
  ⟨g.1.trans h.1, fun t => (g.2 t).trans (h.2 t)⟩

theorem SameCore.of_tiles {d e : Dev} (h : e.mem = d.mem) (g : e.tiles = d.tiles) : SameCore d e :=
  ⟨h, fun t => by simp only [Dev.tile, g]⟩

/-- A change to one tile that keeps its iteration. -/
theorem SameCore.onTile (d : Dev) (t : Nat) (f : Tile → Tile) (h : ∀ y, (f y).core = y.core) : SameCore d (d.onTile t f) := by
  refine ⟨rfl, fun u => ?_⟩
  rw [Dev.tile_onTile]; split
  · subst_vars; exact h _
  · rfl

theorem countEv_same (d : Dev) (t : Nat) (vf : BitVec 10) (ev n : Nat) : SameCore d (countEv d t vf ev n) :=
  SameCore.of_tiles (by simp) (by simp)

theorem keepTlb_same (env : Env) (d : Dev) (w : Who) (va : Dword) : SameCore d (keepTlb env d w va) := by
  unfold keepTlb
  split
  · exact SameCore.refl d
  · split
    · exact SameCore.refl d
    · exact SameCore.refl d
    · exact SameCore.of_tiles rfl rfl

/-- A translation that succeeds keeps the device but for the translation it may keep (R236). -/
theorem locate_ok {env : Env} {d d1 : Dev} {w : Who} {k : AccKind} {va : Dword} {x : Loc × BitVec 4} (h : locate env d w k va = .ok x d1) :
    d1 = keepTlb env d w va := by
  unfold locate at h
  split at h <;> cases h
  rfl

theorem locate_same {env : Env} {d d1 : Dev} {w : Who} {k : AccKind} {va : Dword} {x : Loc × BitVec 4}
    (h : locate env d w k va = .ok x d1) : SameCore d d1 := by
  rw [locate_ok h]; exact keepTlb_same env d w va

theorem setPts_same (d : Dev) (a : Agent) (x : Dword) : SameCore d (setPts d a x) := by
  cases a with
  | tile t p => exact SameCore.onTile d t _ fun _ => rfl
  | core n => exact SameCore.of_tiles rfl rfl
  | stream k => exact SameCore.of_tiles rfl rfl
  | stamp x => exact SameCore.refl d
  | none => exact SameCore.refl d

theorem l2Touch_same (env : Env) (d : Dev) (t pa : Nat) (vf : BitVec 10) (cls : BitVec 4) (front : Bool) :
    SameCore d (l2Touch env d t pa vf cls front).2.2 := by
  unfold l2Touch; dsimp only
  split
  · exact SameCore.of_tiles rfl rfl
  · split
    · exact SameCore.refl d
    · exact SameCore.of_tiles (by simp) (by simp)

theorem l2Set_same (env : Env) (d : Dev) (pa : Nat) (kept : Bool) (wts rts : Dword) : SameCore d (l2Set env d pa kept wts rts) := by
  unfold l2Set; dsimp only; split <;> exact SameCore.of_tiles rfl rfl

theorem loadTs_same (env : Env) (d : Dev) (ag : Agent) (vf : BitVec 10) (cls : BitVec 4) (front : Bool) (loc : Loc) :
    SameCore d (loadTs env d ag vf cls front loc).1 := by
  cases loc with
  | hbm pa => exact ((l2Touch_same ..).trans (l2Set_same ..)).trans (setPts_same ..)
  | spad t o =>
    unfold loadTs; dsimp only
    refine SameCore.trans (SameCore.onTile _ _ _ ?_) (setPts_same ..)
    exact fun _ => rfl
  | staging s o => exact SameCore.refl d
  | port v => exact SameCore.refl d

theorem storeTs_same (env : Env) (d : Dev) (ag : Agent) (vf : BitVec 10) (cls : BitVec 4) (front : Bool) (loc : Loc) :
    SameCore d (storeTs env d ag vf cls front loc).1 := by
  cases loc with
  | hbm pa => exact ((l2Touch_same ..).trans (l2Set_same ..)).trans (setPts_same ..)
  | spad t o =>
    unfold storeTs; dsimp only
    refine SameCore.trans (SameCore.onTile _ _ _ ?_) (setPts_same ..)
    exact fun _ => rfl
  | staging s o => exact SameCore.refl d
  | port v => exact SameCore.refl d

theorem payToken_same {d d1 : Dev} {t : Nat} {loc : Loc} (h : payToken d t loc = some d1) : SameCore d d1 := by
  cases loc with
  | hbm pa =>
    unfold payToken at h; dsimp only at h
    split at h
    · split at h
      · cases h
      · cases h; exact SameCore.onTile d t _ fun _ => rfl
    · cases h; exact SameCore.refl d
  | spad u o => cases h; exact SameCore.refl d
  | staging u o => cases h; exact SameCore.refl d
  | port v => cases h; exact SameCore.refl d

theorem dropResv_same (d : Dev) (k n : Nat) : SameCore d (dropResv d k n) := by
  unfold dropResv; split <;> [exact SameCore.refl d; exact SameCore.of_tiles rfl rfl]

theorem markDirty_same (d : Dev) (loc : Loc) : SameCore d (markDirty d loc) := by
  cases loc with
  | hbm pa => unfold markDirty; dsimp only; split <;> [exact SameCore.refl d; exact SameCore.of_tiles rfl rfl]
  | spad u o => exact SameCore.refl d
  | staging u o => exact SameCore.refl d
  | port v => exact SameCore.refl d

/-- What a write of bytes does to memory: exactly those bytes. -/
theorem putBytes_mem (d : Dev) (loc : Loc) (b : List Byte) : (putBytes d loc b).mem = Memory.write loc.key b d.mem := by
  unfold putBytes
  exact (markDirty_same _ _).1.trans (dropResv_same _ _ _).1

theorem putBytes_core (d : Dev) (loc : Loc) (b : List Byte) (t : Nat) : ((putBytes d loc b).tile t).core = (d.tile t).core := by
  unfold putBytes
  exact ((markDirty_same _ _).2 t).trans ((dropResv_same _ _ _).2 t)

@[simp] theorem l1Put_core (y : Tile) (k : Nat) (c : L1Copy) : (y.l1Put k c).core = y.core := by
  unfold Tile.l1Put; dsimp only; split <;> [rfl; (split <;> rfl)]

/-- Keeping a copy in L1 changes the copies alone. -/
theorem l1Put_eq (y : Tile) (k : Nat) (c : L1Copy) : y.l1Put k c = { y with l1 := (y.l1Put k c).l1 } := by
  unfold Tile.l1Put; dsimp only; split <;> [rfl; (split <;> rfl)]

/-- What a write replaces is kept beside memory. -/
theorem notePast_same (d : Dev) (ag : Agent) (loc : Loc) (ts : Dword) (n : Nat) : SameCore d (notePast d ag loc ts n) :=
  SameCore.of_tiles rfl rfl

theorem l1Update_same (env : Env) (d : Dev) (t : Nat) (ts : Dword) (loc : Loc) : SameCore d (l1Update env d t ts loc) := by
  cases loc with
  | hbm pa => unfold l1Update; dsimp only; split <;> [exact SameCore.onTile d t _ fun _ => l1Put_core ..; exact SameCore.refl d]
  | spad u o => exact SameCore.refl d
  | staging u o => exact SameCore.refl d
  | port v => exact SameCore.refl d

/-- What a store of a tile does to memory and to the iterations. -/
theorem tileStore_ok {env : Env} {d d1 : Dev} {t : Nat} {vf : BitVec 10} {cls : BitVec 4} {loc : Loc} {b : List Byte}
    (h : tileStore env d t vf cls loc b = .ok () d1) :
    d1.mem = Memory.write loc.key b d.mem ∧ ∀ u, (d1.tile u).core = (d.tile u).core := by
  unfold tileStore at h
  split at h
  · cases h
  split at h
  · cases h
  · next d0 hp =>
    cases h
    have h0 := ((payToken_same hp).trans (storeTs_same env d0 (.tile t 0) vf cls true loc)).trans
      (notePast_same _ (.tile t 0) loc (storeTs env d0 (.tile t 0) vf cls true loc).2 b.length)
    have h1 := l1Update_same env (putBytes (notePast (storeTs env d0 (.tile t 0) vf cls true loc).1 (.tile t 0) loc
      (storeTs env d0 (.tile t 0) vf cls true loc).2 b.length) loc b) t (storeTs env d0 (.tile t 0) vf cls true loc).2 loc
    exact ⟨h1.1.trans ((putBytes_mem ..).trans (by rw [h0.1])), fun u => (h1.2 u).trans ((putBytes_core ..).trans (h0.2 u))⟩

/-- What an atomic of a tile gives and does. -/
theorem tileAtomic_eq (env : Env) (d : Dev) (t : Nat) (vf : BitVec 10) (cls : BitVec 4) (loc : Loc) (n : Nat)
    (f : List Byte → Option (List Byte)) :
    ∃ d1, tileAtomic env d t vf cls loc n f = .ok (getBytes d loc n) d1 ∧
      d1.mem = (match f (getBytes d loc n) with | some b => Memory.write loc.key b d.mem | none => d.mem) ∧
      ∀ u, (d1.tile u).core = (d.tile u).core := by
  have h0 := storeTs_same env d (.tile t 0) vf cls true loc
  unfold tileAtomic
  dsimp only
  cases hf : f (getBytes d loc n) with
  | none =>
    have h1 := l1Update_same env (storeTs env d (.tile t 0) vf cls true loc).1 t (storeTs env d (.tile t 0) vf cls true loc).2 loc
    exact ⟨_, rfl, (h0.trans h1).1, (h0.trans h1).2⟩
  | some b =>
    have h2 := h0.trans (notePast_same _ (.tile t 0) loc (storeTs env d (.tile t 0) vf cls true loc).2 b.length)
    have h1 := l1Update_same env (putBytes (notePast (storeTs env d (.tile t 0) vf cls true loc).1 (.tile t 0) loc
      (storeTs env d (.tile t 0) vf cls true loc).2 b.length) loc b) t (storeTs env d (.tile t 0) vf cls true loc).2 loc
    exact ⟨_, rfl, h1.1.trans ((putBytes_mem ..).trans (by rw [h2.1])), fun u => (h1.2 u).trans ((putBytes_core ..).trans (h2.2 u))⟩

/-- The bytes at a place depend on memory alone. -/
theorem getBytes_congr {d e : Dev} (h : e.mem = d.mem) (loc : Loc) (n : Nat) : getBytes e loc n = getBytes d loc n := by
  cases loc <;> simp [getBytes, h]

/-- A load of a tile that its L1 cannot serve gives the bytes at the home and changes no memory. -/
theorem tileLoad_home {env : Env} {d d0 : Dev} {t : Nat} {vf : BitVec 10} {cls : BitVec 4} {loc : Loc} {n : Nat}
    (h1 : ∀ pa, loc = .hbm pa → (d.tile t).l1Find (pa / 128) = none) (h2 : payToken d t loc = some d0) :
    ∃ d1, tileLoad env d t vf cls loc n = .ok (getBytes d loc n) d1 ∧ SameCore d d1 := by
  cases loc with
  | hbm pa =>
    unfold tileLoad
    dsimp only
    rw [h1 pa rfl, h2]
    have hs := (payToken_same h2).trans (loadTs_same env d0 (.tile t 0) vf cls true (.hbm pa))
    refine ⟨_, congrArg₂ Res.ok (getBytes_congr hs.1 _ _) rfl, hs.trans (SameCore.onTile _ t _ fun _ => l1Put_core ..)⟩
  | spad u o => exact ⟨_, rfl, loadTs_same ..⟩
  | staging u o => exact ⟨_, rfl, SameCore.refl d⟩
  | port v => exact ⟨_, rfl, SameCore.refl d⟩

/-- A late read whose place still reads as it was read is that read (R310), whichever of the two the byte takes. -/
theorem lateRead_same {env : Env} {d : Dev} {t p : Nat} {vf : BitVec 10} {cls : BitVec 4} {front : Bool} {loc : Loc} {b : List Byte}
    (h : readBytes env d (.tile t p) loc b.length = b) : lateRead env d t p vf cls front loc b = (b, d) := by
  have e : (b.mapIdx fun i x => if Config.readLate env.tick (loc.key + i) then b.getD i x else x) = b := by
    refine List.ext_getElem (by simp) fun i h1 h2 => ?_
    simp [h2]
  unfold lateRead
  simp only [h, e, beq_self_eq_true, if_true, ite_self]

end Sys2Proof.Machine
end

