-- ==== Sys2Proof/Laws/PerInstr.lean ====
section
/-! SUPPORT. The round trip of encoding and decoding, one lemma per constructor: a well-formed word is read as what was encoded
(R89 to R101, file 06). A lemma per layout of fields comes first. -/

namespace Sys2Proof.Laws

set_option Elab.async false

/-- The number of a concatenation. -/
theorem cat_toNat {m n : Nat} (x : BitVec m) (y : BitVec n) : (x ++ y).toNat = x.toNat * 2 ^ n + y.toNat := by
  rw [BitVec.toNat_append, ← Nat.shiftLeft_add_eq_or_of_lt y.isLt, Nat.shiftLeft_eq]

/-- A field of a word, by its number. -/
theorem fieldOf {w : Word} (lo : Nat) {n : Nat} {x : BitVec n} (h : w.toNat / 2 ^ lo % 2 ^ n = x.toNat) : w.extractLsb' lo n = x := by
  apply BitVec.eq_of_toNat_eq
  rw [BitVec.extractLsb'_toNat, Nat.shiftRight_eq_div_pow, h]

/-- A bit of a word, by its number. -/
theorem bitOf {w : Word} (k : Nat) {b : Bool} (h : w.toNat / 2 ^ k % 2 = (BitVec.ofBool b).toNat) : w.getLsbD k = b := by
  rw [BitVec.getLsbD, Nat.testBit_eq_decide_div_mod_eq, h]; cases b <;> rfl

/-- A field above the lowest part of a concatenation. -/
theorem skip {m n : Nat} (x : BitVec m) (y : BitVec n) (s k : Nat) : (x ++ y).extractLsb' (n + s) k = x.extractLsb' s k := by
  apply BitVec.eq_of_toNat_eq
  rw [BitVec.extractLsb'_toNat, BitVec.extractLsb'_toNat, Nat.shiftRight_eq_div_pow, Nat.shiftRight_eq_div_pow, cat_toNat, pow_add,
    ← Nat.div_div_eq_div_mul, Nat.add_comm, Nat.add_mul_div_right _ _ (Nat.two_pow_pos n), Nat.div_eq_of_lt y.isLt, Nat.zero_add]

/-- The lowest part of a concatenation. -/
theorem low {m n : Nat} (x : BitVec m) (y : BitVec n) : (x ++ y).extractLsb' 0 n = y := by
  apply BitVec.eq_of_toNat_eq
  rw [BitVec.extractLsb'_toNat, Nat.shiftRight_eq_div_pow, cat_toNat, pow_zero, Nat.div_one, Nat.add_comm, Nat.add_mul_mod_self_right,
    Nat.mod_eq_of_lt y.isLt]

/-- All of a field. -/
theorem whole {n : Nat} (x : BitVec n) : x.extractLsb' 0 n = x := by simp

/-- A mask of nothing. -/
theorem andZero {n : Nat} (x : BitVec n) : x &&& 0#n = 0#n := by simp

/-- A field of zeros. -/
theorem zeroAnd {n : Nat} (x : BitVec n) : 0#n &&& x = 0#n := by simp

/-- A mask of a concatenation. -/
theorem zcat {m n : Nat} {x c : BitVec m} {y d : BitVec n} (h1 : x &&& c = 0#m) (h2 : y &&& d = 0#n) :
    (x ++ y) &&& (c ++ d) = 0#(m + n) := by
  rw [BitVec.and_append, h1, h2]; simp

@[simp] theorem engBits (e : Eng) : Eng.ofBits e.bits = e := by cases e <;> rfl
@[simp] theorem sizeBits (z : MSize) : MSize.ofBits z.bits = z := by cases z <;> rfl
@[simp] theorem rndBits (r : Rnd) : Rnd.ofBits r.bits = r := by cases r <;> rfl
@[simp] theorem dirBits (d : Dir) : Dir.ofBits d.bits = d := by cases d <;> rfl

/-- A vector operand field, by its number. -/
theorem vopOf {w : Word} (lo : Nat) {v : VOp} (h : w.extractLsb' lo 7 = v.bits) : vopAt w lo = v := by
  obtain ⟨d, r⟩ := v
  have h' := congrArg BitVec.toNat h
  rw [VOp.bits, cat_toNat, BitVec.extractLsb'_toNat, Nat.shiftRight_eq_div_pow] at h'
  have := r.isLt; have := d.bits.isLt
  have h1 : w.extractLsb' (lo + 5) 2 = d.bits := fieldOf _ (by rw [pow_add, ← Nat.div_div_eq_div_mul]; simp only at h'; omega)
  have h2 : w.extractLsb' lo 5 = r := fieldOf _ (by simp only at h'; omega)
  rw [vopAt, h1, h2, dirBits]

/-- A flag of a word, from its field of one bit. -/
theorem bit1 {w : Word} {k : Nat} {b : Bool} (h : w.extractLsb' k 1 = BitVec.ofBool b) : w.getLsbD k = b := by
  have h' := congrArg BitVec.toNat h
  rw [BitVec.extractLsb'_toNat, Nat.shiftRight_eq_div_pow] at h'
  exact bitOf k h'

/-- The TAG of a word, from its ten highest bits. -/
theorem tag10 {w : Word} {p : BitVec 10} (h : w.extractLsb' 22 10 = p) : w.extractLsb' 29 3 = p.extractLsb' 7 3 := by
  rw [← h]; apply BitVec.eq_of_toNat_eq
  simp only [BitVec.extractLsb'_toNat, Nat.shiftRight_eq_div_pow]; omega

/-- The opcode of a word, from its ten highest bits. -/
theorem op10 {w : Word} {p : BitVec 10} (h : w.extractLsb' 22 10 = p) : w.extractLsb' 22 7 = p.extractLsb' 0 7 := by
  rw [← h]; apply BitVec.eq_of_toNat_eq
  simp only [BitVec.extractLsb'_toNat, Nat.shiftRight_eq_div_pow]; omega

/-- The TAG of a word, from its eight highest bits. -/
theorem tag8 {w : Word} {p : BitVec 8} (h : w.extractLsb' 24 8 = p) : w.extractLsb' 29 3 = p.extractLsb' 5 3 := by
  rw [← h]; apply BitVec.eq_of_toNat_eq
  simp only [BitVec.extractLsb'_toNat, Nat.shiftRight_eq_div_pow]; omega

/-- The opcode of a C word, from its eight highest bits. -/
theorem op8 {w : Word} {p : BitVec 8} (h : w.extractLsb' 24 8 = p) : w.extractLsb' 24 5 = p.extractLsb' 0 5 := by
  rw [← h]; apply BitVec.eq_of_toNat_eq
  simp only [BitVec.extractLsb'_toNat, Nat.shiftRight_eq_div_pow]; omega

/-- Decoding a word whose map gives a well-formed instruction and fixes no bit that is set. -/
theorem decode_row {w : Word} {i : Instr} {z : Word} {t : BitVec 3} (hT : w.extractLsb' 29 3 = t) (ht : t.toNat < 5)
    (hm : mapRow w = some (some (i, z))) (hwf : i.wf = true) (hz : w &&& z = 0#32) : decode w = .ok i := by
  unfold decode
  rw [hT, if_neg (by omega), if_neg (by omega), hm]
  simp [hwf, hz]

/-- A word of TAG 0. -/
theorem decode_x {w : Word} {p : BitVec 10} {i : Instr} {z : Word} (h : w.extractLsb' 22 10 = p)
    (ht : p.extractLsb' 7 3 = 0#3) (hm : rowFor executeMap (p.extractLsb' 0 7).toNat w = some (some (i, z))) (hwf : i.wf = true)
    (hz : w &&& z = 0#32) : decode w = .ok i := by
  have h3 : w.extractLsb' 29 3 = 0#3 := (tag10 h).trans ht
  refine decode_row h3 (by decide) ?_ hwf hz
  rw [mapRow, h3, op10 h]; exact hm

/-- A word of TAG 1. -/
theorem decode_a {w : Word} {p : BitVec 10} {i : Instr} {z : Word} (h : w.extractLsb' 22 10 = p)
    (ht : p.extractLsb' 7 3 = 1#3) (hm : rowFor accessMap (p.extractLsb' 0 7).toNat w = some (some (i, z))) (hwf : i.wf = true)
    (hz : w &&& z = 0#32) : decode w = .ok i := by
  have h3 : w.extractLsb' 29 3 = 1#3 := (tag10 h).trans ht
  refine decode_row h3 (by decide) ?_ hwf hz
  rw [mapRow, h3, op10 h]; exact hm

/-- A word of TAG 2. -/
theorem decode_v {w : Word} {p : BitVec 10} {i : Instr} {z : Word} (h : w.extractLsb' 22 10 = p)
    (ht : p.extractLsb' 7 3 = 2#3) (hm : rowFor vectorMap (p.extractLsb' 0 7).toNat w = some (some (i, z))) (hwf : i.wf = true)
    (hz : w &&& z = 0#32) : decode w = .ok i := by
  have h3 : w.extractLsb' 29 3 = 2#3 := (tag10 h).trans ht
  refine decode_row h3 (by decide) ?_ hwf hz
  rw [mapRow, h3, op10 h]; exact hm

/-- A word of TAG 3. -/
theorem decode_m {w : Word} {p : BitVec 10} {i : Instr} {z : Word} (h : w.extractLsb' 22 10 = p)
    (ht : p.extractLsb' 7 3 = 3#3) (hm : rowFor matrixMap (p.extractLsb' 0 7).toNat w = some (some (i, z))) (hwf : i.wf = true)
    (hz : w &&& z = 0#32) : decode w = .ok i := by
  have h3 : w.extractLsb' 29 3 = 3#3 := (tag10 h).trans ht
  refine decode_row h3 (by decide) ?_ hwf hz
  rw [mapRow, h3, op10 h]; exact hm

/-- A C word. -/
theorem decode_c {w : Word} {p : BitVec 8} {i : Instr} {z : Word} (h : w.extractLsb' 24 8 = p)
    (ht : p.extractLsb' 5 3 = 4#3) (hm : rowFor controlMap (p.extractLsb' 0 5).toNat w = some (some (i, z))) (hwf : i.wf = true)
    (hz : w &&& z = 0#32) : decode w = .ok i := by
  have h3 : w.extractLsb' 29 3 = 4#3 := (tag8 h).trans ht
  refine decode_row h3 (by decide) ?_ hwf hz
  rw [mapRow, h3, op8 h]; exact hm

theorem layout0 (p : BitVec 8) (x0 : BitVec 2) (x1 : BitVec 22) {w : Word} (hw : p ++ x0 ++ x1 = w) :
    (w : Word).extractLsb' 24 8 = p ∧ (w : Word).extractLsb' 22 2 = x0 ∧ (w : Word).extractLsb' 0 22 = x1 ∧ w &&& 0x0#32 = 0#32 := by
  subst hw
  exact ⟨(skip _ _ 2 8).trans ((skip _ _ 0 8).trans (whole _)), (skip _ _ 0 2).trans (low _ _), low _ _, andZero _⟩

theorem layout1 (p : BitVec 8) (x0 : BitVec 2) (x1 : BitVec 4) (x2 : BitVec 5) (x3 : BitVec 13) {w : Word} (hw : p ++ x0 ++ x1 ++ x2 ++ x3 = w) :
    (w : Word).extractLsb' 24 8 = p ∧ (w : Word).extractLsb' 22 2 = x0 ∧ (w : Word).extractLsb' 18 4 = x1 ∧ (w : Word).extractLsb' 13 5 = x2 ∧ (w : Word).extractLsb' 0 13 = x3 ∧ w &&& 0x0#32 = 0#32 := by
  subst hw
  exact ⟨(skip _ _ 11 8).trans ((skip _ _ 6 8).trans ((skip _ _ 2 8).trans ((skip _ _ 0 8).trans (whole _)))), (skip _ _ 9 2).trans ((skip _ _ 4 2).trans ((skip _ _ 0 2).trans (low _ _))), (skip _ _ 5 4).trans ((skip _ _ 0 4).trans (low _ _)), (skip _ _ 0 5).trans (low _ _), low _ _, andZero _⟩

theorem layout2 (p : BitVec 8) (x0 : BitVec 2) (x1 : BitVec 5) (x2 : BitVec 17) {w : Word} (hw : p ++ x0 ++ x1 ++ x2 = w) :
    (w : Word).extractLsb' 24 8 = p ∧ (w : Word).extractLsb' 22 2 = x0 ∧ (w : Word).extractLsb' 17 5 = x1 ∧ (w : Word).extractLsb' 0 17 = x2 ∧ w &&& 0x0#32 = 0#32 := by
  subst hw
  exact ⟨(skip _ _ 7 8).trans ((skip _ _ 2 8).trans ((skip _ _ 0 8).trans (whole _))), (skip _ _ 5 2).trans ((skip _ _ 0 2).trans (low _ _)), (skip _ _ 0 5).trans (low _ _), low _ _, andZero _⟩

theorem layout3 (p : BitVec 8) (x0 : BitVec 2) {w : Word} (hw : p ++ x0 ++ 0#22 = w) :
    (w : Word).extractLsb' 24 8 = p ∧ (w : Word).extractLsb' 22 2 = x0 ∧ w &&& 0x3FFFFF#32 = 0#32 := by
  subst hw
  exact ⟨(skip _ _ 2 8).trans ((skip _ _ 0 8).trans (whole _)), (skip _ _ 0 2).trans (low _ _), zcat (zcat (andZero _) (andZero _)) (zeroAnd (4194303#22))⟩

theorem layout4 (p : BitVec 8) (x0 : BitVec 2) (x1 : BitVec 2) (x2 : BitVec 2) (x3 : BitVec 4) {w : Word} (hw : p ++ x0 ++ x1 ++ x2 ++ x3 ++ 0#14 = w) :
    (w : Word).extractLsb' 24 8 = p ∧ (w : Word).extractLsb' 22 2 = x0 ∧ (w : Word).extractLsb' 20 2 = x1 ∧ (w : Word).extractLsb' 18 2 = x2 ∧ (w : Word).extractLsb' 14 4 = x3 ∧ w &&& 0x3FFF#32 = 0#32 := by
  subst hw
  exact ⟨(skip _ _ 10 8).trans ((skip _ _ 6 8).trans ((skip _ _ 4 8).trans ((skip _ _ 2 8).trans ((skip _ _ 0 8).trans (whole _))))), (skip _ _ 8 2).trans ((skip _ _ 4 2).trans ((skip _ _ 2 2).trans ((skip _ _ 0 2).trans (low _ _)))), (skip _ _ 6 2).trans ((skip _ _ 2 2).trans ((skip _ _ 0 2).trans (low _ _))), (skip _ _ 4 2).trans ((skip _ _ 0 2).trans (low _ _)), (skip _ _ 0 4).trans (low _ _), zcat (zcat (zcat (zcat (zcat (andZero _) (andZero _)) (andZero _)) (andZero _)) (andZero _)) (zeroAnd (16383#14))⟩

theorem layout5 (p : BitVec 8) (x0 : BitVec 2) (x1 : BitVec 5) {w : Word} (hw : p ++ x0 ++ x1 ++ 0#17 = w) :
    (w : Word).extractLsb' 24 8 = p ∧ (w : Word).extractLsb' 22 2 = x0 ∧ (w : Word).extractLsb' 17 5 = x1 ∧ w &&& 0x1FFFF#32 = 0#32 := by
  subst hw
  exact ⟨(skip _ _ 7 8).trans ((skip _ _ 2 8).trans ((skip _ _ 0 8).trans (whole _))), (skip _ _ 5 2).trans ((skip _ _ 0 2).trans (low _ _)), (skip _ _ 0 5).trans (low _ _), zcat (zcat (zcat (andZero _) (andZero _)) (andZero _)) (zeroAnd (131071#17))⟩

theorem layout6 (p : BitVec 10) {w : Word} (hw : p ++ 0#22 = w) :
    (w : Word).extractLsb' 22 10 = p ∧ w &&& 0x3FFFFF#32 = 0#32 := by
  subst hw
  exact ⟨(skip _ _ 0 10).trans (whole _), zcat (andZero _) (zeroAnd (4194303#22))⟩

theorem layout7 (p : BitVec 10) (x0 : BitVec 5) (x1 : BitVec 5) (x2 : BitVec 5) {w : Word} (hw : p ++ x0 ++ x1 ++ x2 ++ 0#7 = w) :
    (w : Word).extractLsb' 22 10 = p ∧ (w : Word).extractLsb' 17 5 = x0 ∧ (w : Word).extractLsb' 12 5 = x1 ∧ (w : Word).extractLsb' 7 5 = x2 ∧ w &&& 0x7F#32 = 0#32 := by
  subst hw
  exact ⟨(skip _ _ 15 10).trans ((skip _ _ 10 10).trans ((skip _ _ 5 10).trans ((skip _ _ 0 10).trans (whole _)))), (skip _ _ 10 5).trans ((skip _ _ 5 5).trans ((skip _ _ 0 5).trans (low _ _))), (skip _ _ 5 5).trans ((skip _ _ 0 5).trans (low _ _)), (skip _ _ 0 5).trans (low _ _), zcat (zcat (zcat (zcat (andZero _) (andZero _)) (andZero _)) (andZero _)) (zeroAnd (127#7))⟩

theorem layout8 (p : BitVec 10) (x0 : BitVec 5) (x1 : BitVec 5) {w : Word} (hw : p ++ x0 ++ x1 ++ 0#5 ++ 0#7 = w) :
    (w : Word).extractLsb' 22 10 = p ∧ (w : Word).extractLsb' 17 5 = x0 ∧ (w : Word).extractLsb' 12 5 = x1 ∧ w &&& 0xFFF#32 = 0#32 := by
  subst hw
  exact ⟨(skip _ _ 15 10).trans ((skip _ _ 10 10).trans ((skip _ _ 5 10).trans ((skip _ _ 0 10).trans (whole _)))), (skip _ _ 10 5).trans ((skip _ _ 5 5).trans ((skip _ _ 0 5).trans (low _ _))), (skip _ _ 5 5).trans ((skip _ _ 0 5).trans (low _ _)), zcat (zcat (zcat (zcat (andZero _) (andZero _)) (andZero _)) (zeroAnd (31#5))) (zeroAnd (127#7))⟩

theorem layout9 (p : BitVec 10) (x0 : BitVec 5) (x1 : BitVec 5) (x2 : BitVec 5) (x3 : BitVec 5) {w : Word} (hw : p ++ x0 ++ x1 ++ x2 ++ x3 ++ 0#2 = w) :
    (w : Word).extractLsb' 22 10 = p ∧ (w : Word).extractLsb' 17 5 = x0 ∧ (w : Word).extractLsb' 12 5 = x1 ∧ (w : Word).extractLsb' 7 5 = x2 ∧ (w : Word).extractLsb' 2 5 = x3 ∧ w &&& 0x3#32 = 0#32 := by
  subst hw
  exact ⟨(skip _ _ 20 10).trans ((skip _ _ 15 10).trans ((skip _ _ 10 10).trans ((skip _ _ 5 10).trans ((skip _ _ 0 10).trans (whole _))))), (skip _ _ 15 5).trans ((skip _ _ 10 5).trans ((skip _ _ 5 5).trans ((skip _ _ 0 5).trans (low _ _)))), (skip _ _ 10 5).trans ((skip _ _ 5 5).trans ((skip _ _ 0 5).trans (low _ _))), (skip _ _ 5 5).trans ((skip _ _ 0 5).trans (low _ _)), (skip _ _ 0 5).trans (low _ _), zcat (zcat (zcat (zcat (zcat (andZero _) (andZero _)) (andZero _)) (andZero _)) (andZero _)) (zeroAnd (3#2))⟩

theorem layout10 (p : BitVec 10) (x0 : BitVec 5) (x1 : BitVec 5) (x2 : BitVec 12) {w : Word} (hw : p ++ x0 ++ x1 ++ x2 = w) :
    (w : Word).extractLsb' 22 10 = p ∧ (w : Word).extractLsb' 17 5 = x0 ∧ (w : Word).extractLsb' 12 5 = x1 ∧ (w : Word).extractLsb' 0 12 = x2 ∧ w &&& 0x0#32 = 0#32 := by
  subst hw
  exact ⟨(skip _ _ 10 10).trans ((skip _ _ 5 10).trans ((skip _ _ 0 10).trans (whole _))), (skip _ _ 5 5).trans ((skip _ _ 0 5).trans (low _ _)), (skip _ _ 0 5).trans (low _ _), low _ _, andZero _⟩

theorem layoutCsrr (p : BitVec 10) (x0 : BitVec 5) (x1 : BitVec 12) {w : Word} (hw : p ++ x0 ++ 0#5 ++ x1 = w) :
    (w : Word).extractLsb' 22 10 = p ∧ (w : Word).extractLsb' 17 5 = x0 ∧ (w : Word).extractLsb' 0 12 = x1 ∧ w &&& 0x1F000#32 = 0#32 := by
  subst hw
  exact ⟨(skip _ _ 10 10).trans ((skip _ _ 5 10).trans ((skip _ _ 0 10).trans (whole _))), (skip _ _ 5 5).trans ((skip _ _ 0 5).trans (low _ _)), low _ _, zcat (zcat (zcat (andZero _) (andZero _)) (zeroAnd (31#5))) (andZero _)⟩

theorem layoutCsrw (p : BitVec 10) (x0 : BitVec 5) (x1 : BitVec 12) {w : Word} (hw : p ++ 0#5 ++ x0 ++ x1 = w) :
    (w : Word).extractLsb' 22 10 = p ∧ (w : Word).extractLsb' 12 5 = x0 ∧ (w : Word).extractLsb' 0 12 = x1 ∧ w &&& 0x3E0000#32 = 0#32 := by
  subst hw
  exact ⟨(skip _ _ 10 10).trans ((skip _ _ 5 10).trans ((skip _ _ 0 10).trans (whole _))), (skip _ _ 0 5).trans (low _ _), low _ _, zcat (zcat (zcat (andZero _) (zeroAnd (31#5))) (andZero _)) (andZero _)⟩

theorem layout11 (p : BitVec 10) (x0 : BitVec 5) (x1 : BitVec 17) {w : Word} (hw : p ++ x0 ++ x1 = w) :
    (w : Word).extractLsb' 22 10 = p ∧ (w : Word).extractLsb' 17 5 = x0 ∧ (w : Word).extractLsb' 0 17 = x1 ∧ w &&& 0x0#32 = 0#32 := by
  subst hw
  exact ⟨(skip _ _ 5 10).trans ((skip _ _ 0 10).trans (whole _)), (skip _ _ 0 5).trans (low _ _), low _ _, andZero _⟩

theorem layout12 (p : BitVec 10) (x0 : BitVec 5) (x1 : BitVec 5) (x2 : BitVec 5) (x4 : BitVec 3) {w : Word} (hw : p ++ x0 ++ x1 ++ x2 ++ 0#4 ++ x4 = w) :
    (w : Word).extractLsb' 22 10 = p ∧ (w : Word).extractLsb' 17 5 = x0 ∧ (w : Word).extractLsb' 12 5 = x1 ∧ (w : Word).extractLsb' 7 5 = x2 ∧ (w : Word).extractLsb' 0 3 = x4 ∧ w &&& 0x78#32 = 0#32 := by
  subst hw
  exact ⟨(skip _ _ 19 10).trans ((skip _ _ 15 10).trans ((skip _ _ 10 10).trans ((skip _ _ 5 10).trans ((skip _ _ 0 10).trans (whole _))))), (skip _ _ 14 5).trans ((skip _ _ 10 5).trans ((skip _ _ 5 5).trans ((skip _ _ 0 5).trans (low _ _)))), (skip _ _ 9 5).trans ((skip _ _ 5 5).trans ((skip _ _ 0 5).trans (low _ _))), (skip _ _ 4 5).trans ((skip _ _ 0 5).trans (low _ _)), low _ _, zcat (zcat (zcat (zcat (zcat (andZero _) (andZero _)) (andZero _)) (andZero _)) (zeroAnd (15#4))) (andZero _)⟩

theorem layout13 (p : BitVec 10) (x0 : BitVec 5) (x1 : BitVec 5) (x3 : BitVec 7) {w : Word} (hw : p ++ x0 ++ x1 ++ 0#5 ++ x3 = w) :
    (w : Word).extractLsb' 22 10 = p ∧ (w : Word).extractLsb' 17 5 = x0 ∧ (w : Word).extractLsb' 12 5 = x1 ∧ (w : Word).extractLsb' 0 7 = x3 ∧ w &&& 0xF80#32 = 0#32 := by
  subst hw
  exact ⟨(skip _ _ 15 10).trans ((skip _ _ 10 10).trans ((skip _ _ 5 10).trans ((skip _ _ 0 10).trans (whole _)))), (skip _ _ 10 5).trans ((skip _ _ 5 5).trans ((skip _ _ 0 5).trans (low _ _))), (skip _ _ 5 5).trans ((skip _ _ 0 5).trans (low _ _)), low _ _, zcat (zcat (zcat (zcat (andZero _) (andZero _)) (andZero _)) (zeroAnd (31#5))) (andZero _)⟩

theorem layout14 (p : BitVec 10) (x0 : BitVec 5) {w : Word} (hw : p ++ x0 ++ 0#17 = w) :
    (w : Word).extractLsb' 22 10 = p ∧ (w : Word).extractLsb' 17 5 = x0 ∧ w &&& 0x1FFFF#32 = 0#32 := by
  subst hw
  exact ⟨(skip _ _ 5 10).trans ((skip _ _ 0 10).trans (whole _)), (skip _ _ 0 5).trans (low _ _), zcat (zcat (andZero _) (andZero _)) (zeroAnd (131071#17))⟩

theorem layout15 (p : BitVec 10) (x0 : BitVec 5) (x1 : BitVec 5) {w : Word} (hw : p ++ x0 ++ x1 ++ 0#12 = w) :
    (w : Word).extractLsb' 22 10 = p ∧ (w : Word).extractLsb' 17 5 = x0 ∧ (w : Word).extractLsb' 12 5 = x1 ∧ w &&& 0xFFF#32 = 0#32 := by
  subst hw
  exact ⟨(skip _ _ 10 10).trans ((skip _ _ 5 10).trans ((skip _ _ 0 10).trans (whole _))), (skip _ _ 5 5).trans ((skip _ _ 0 5).trans (low _ _)), (skip _ _ 0 5).trans (low _ _), zcat (zcat (zcat (andZero _) (andZero _)) (andZero _)) (zeroAnd (4095#12))⟩

theorem layout16 (p : BitVec 10) (x1 : BitVec 12) {w : Word} (hw : p ++ 0#10 ++ x1 = w) :
    (w : Word).extractLsb' 22 10 = p ∧ (w : Word).extractLsb' 0 12 = x1 ∧ w &&& 0x3FF000#32 = 0#32 := by
  subst hw
  exact ⟨(skip _ _ 10 10).trans ((skip _ _ 0 10).trans (whole _)), low _ _, zcat (zcat (andZero _) (zeroAnd (1023#10))) (andZero _)⟩

theorem layout17 (p : BitVec 10) (x0 : BitVec 5) (x1 : BitVec 5) (x2 : BitVec 2) (x3 : BitVec 1) (x4 : BitVec 9) {w : Word} (hw : p ++ x0 ++ x1 ++ x2 ++ x3 ++ x4 = w) :
    (w : Word).extractLsb' 22 10 = p ∧ (w : Word).extractLsb' 17 5 = x0 ∧ (w : Word).extractLsb' 12 5 = x1 ∧ (w : Word).extractLsb' 10 2 = x2 ∧ (w : Word).extractLsb' 9 1 = x3 ∧ (w : Word).extractLsb' 0 9 = x4 ∧ w &&& 0x0#32 = 0#32 := by
  subst hw
  exact ⟨(skip _ _ 13 10).trans ((skip _ _ 12 10).trans ((skip _ _ 10 10).trans ((skip _ _ 5 10).trans ((skip _ _ 0 10).trans (whole _))))), (skip _ _ 8 5).trans ((skip _ _ 7 5).trans ((skip _ _ 5 5).trans ((skip _ _ 0 5).trans (low _ _)))), (skip _ _ 3 5).trans ((skip _ _ 2 5).trans ((skip _ _ 0 5).trans (low _ _))), (skip _ _ 1 2).trans ((skip _ _ 0 2).trans (low _ _)), (skip _ _ 0 1).trans (low _ _), low _ _, andZero _⟩

theorem layout18 (p : BitVec 10) (x0 : BitVec 5) (x1 : BitVec 5) (x2 : BitVec 2) (x4 : BitVec 9) {w : Word} (hw : p ++ x0 ++ x1 ++ x2 ++ 0#1 ++ x4 = w) :
    (w : Word).extractLsb' 22 10 = p ∧ (w : Word).extractLsb' 17 5 = x0 ∧ (w : Word).extractLsb' 12 5 = x1 ∧ (w : Word).extractLsb' 10 2 = x2 ∧ (w : Word).extractLsb' 0 9 = x4 ∧ w &&& 0x200#32 = 0#32 := by
  subst hw
  exact ⟨(skip _ _ 13 10).trans ((skip _ _ 12 10).trans ((skip _ _ 10 10).trans ((skip _ _ 5 10).trans ((skip _ _ 0 10).trans (whole _))))), (skip _ _ 8 5).trans ((skip _ _ 7 5).trans ((skip _ _ 5 5).trans ((skip _ _ 0 5).trans (low _ _)))), (skip _ _ 3 5).trans ((skip _ _ 2 5).trans ((skip _ _ 0 5).trans (low _ _))), (skip _ _ 1 2).trans ((skip _ _ 0 2).trans (low _ _)), low _ _, zcat (zcat (zcat (zcat (zcat (andZero _) (andZero _)) (andZero _)) (andZero _)) (zeroAnd (1#1))) (andZero _)⟩

theorem layout19 (p : BitVec 10) (x0 : BitVec 5) (x1 : BitVec 5) (x2 : BitVec 5) (x3 : BitVec 1) {w : Word} (hw : p ++ x0 ++ x1 ++ x2 ++ x3 ++ 0#6 = w) :
    (w : Word).extractLsb' 22 10 = p ∧ (w : Word).extractLsb' 17 5 = x0 ∧ (w : Word).extractLsb' 12 5 = x1 ∧ (w : Word).extractLsb' 7 5 = x2 ∧ (w : Word).extractLsb' 6 1 = x3 ∧ w &&& 0x3F#32 = 0#32 := by
  subst hw
  exact ⟨(skip _ _ 16 10).trans ((skip _ _ 15 10).trans ((skip _ _ 10 10).trans ((skip _ _ 5 10).trans ((skip _ _ 0 10).trans (whole _))))), (skip _ _ 11 5).trans ((skip _ _ 10 5).trans ((skip _ _ 5 5).trans ((skip _ _ 0 5).trans (low _ _)))), (skip _ _ 6 5).trans ((skip _ _ 5 5).trans ((skip _ _ 0 5).trans (low _ _))), (skip _ _ 1 5).trans ((skip _ _ 0 5).trans (low _ _)), (skip _ _ 0 1).trans (low _ _), zcat (zcat (zcat (zcat (zcat (andZero _) (andZero _)) (andZero _)) (andZero _)) (andZero _)) (zeroAnd (63#6))⟩

theorem layout20 (p : BitVec 10) (x0 : BitVec 5) (x1 : BitVec 5) (x2 : BitVec 5) (x3 : BitVec 1) (x5 : BitVec 2) {w : Word} (hw : p ++ x0 ++ x1 ++ x2 ++ x3 ++ 0#4 ++ x5 = w) :
    (w : Word).extractLsb' 22 10 = p ∧ (w : Word).extractLsb' 17 5 = x0 ∧ (w : Word).extractLsb' 12 5 = x1 ∧ (w : Word).extractLsb' 7 5 = x2 ∧ (w : Word).extractLsb' 6 1 = x3 ∧ (w : Word).extractLsb' 0 2 = x5 ∧ w &&& 0x3C#32 = 0#32 := by
  subst hw
  exact ⟨(skip _ _ 20 10).trans ((skip _ _ 16 10).trans ((skip _ _ 15 10).trans ((skip _ _ 10 10).trans ((skip _ _ 5 10).trans ((skip _ _ 0 10).trans (whole _)))))), (skip _ _ 15 5).trans ((skip _ _ 11 5).trans ((skip _ _ 10 5).trans ((skip _ _ 5 5).trans ((skip _ _ 0 5).trans (low _ _))))), (skip _ _ 10 5).trans ((skip _ _ 6 5).trans ((skip _ _ 5 5).trans ((skip _ _ 0 5).trans (low _ _)))), (skip _ _ 5 5).trans ((skip _ _ 1 5).trans ((skip _ _ 0 5).trans (low _ _))), (skip _ _ 4 1).trans ((skip _ _ 0 1).trans (low _ _)), low _ _, zcat (zcat (zcat (zcat (zcat (zcat (andZero _) (andZero _)) (andZero _)) (andZero _)) (andZero _)) (zeroAnd (15#4))) (andZero _)⟩

theorem layout21 (p : BitVec 10) (x1 : BitVec 5) (x2 : BitVec 5) {w : Word} (hw : p ++ 0#5 ++ x1 ++ x2 ++ 0#7 = w) :
    (w : Word).extractLsb' 22 10 = p ∧ (w : Word).extractLsb' 12 5 = x1 ∧ (w : Word).extractLsb' 7 5 = x2 ∧ w &&& 0x3E007F#32 = 0#32 := by
  subst hw
  exact ⟨(skip _ _ 15 10).trans ((skip _ _ 10 10).trans ((skip _ _ 5 10).trans ((skip _ _ 0 10).trans (whole _)))), (skip _ _ 5 5).trans ((skip _ _ 0 5).trans (low _ _)), (skip _ _ 0 5).trans (low _ _), zcat (zcat (zcat (zcat (andZero _) (zeroAnd (31#5))) (andZero _)) (andZero _)) (zeroAnd (127#7))⟩

theorem layout22 (p : BitVec 10) (x1 : BitVec 5) {w : Word} (hw : p ++ 0#5 ++ x1 ++ 0#5 ++ 0#7 = w) :
    (w : Word).extractLsb' 22 10 = p ∧ (w : Word).extractLsb' 12 5 = x1 ∧ w &&& 0x3E0FFF#32 = 0#32 := by
  subst hw
  exact ⟨(skip _ _ 15 10).trans ((skip _ _ 10 10).trans ((skip _ _ 5 10).trans ((skip _ _ 0 10).trans (whole _)))), (skip _ _ 5 5).trans ((skip _ _ 0 5).trans (low _ _)), zcat (zcat (zcat (zcat (andZero _) (zeroAnd (31#5))) (andZero _)) (zeroAnd (31#5))) (zeroAnd (127#7))⟩

theorem layout23 (p : BitVec 10) (x1 : BitVec 5) (x2 : BitVec 5) (x3 : BitVec 2) (x4 : BitVec 5) {w : Word} (hw : p ++ 0#5 ++ x1 ++ x2 ++ x3 ++ x4 = w) :
    (w : Word).extractLsb' 22 10 = p ∧ (w : Word).extractLsb' 12 5 = x1 ∧ (w : Word).extractLsb' 7 5 = x2 ∧ (w : Word).extractLsb' 5 2 = x3 ∧ (w : Word).extractLsb' 0 5 = x4 ∧ w &&& 0x3E0000#32 = 0#32 := by
  subst hw
  exact ⟨(skip _ _ 17 10).trans ((skip _ _ 15 10).trans ((skip _ _ 10 10).trans ((skip _ _ 5 10).trans ((skip _ _ 0 10).trans (whole _))))), (skip _ _ 7 5).trans ((skip _ _ 5 5).trans ((skip _ _ 0 5).trans (low _ _))), (skip _ _ 2 5).trans ((skip _ _ 0 5).trans (low _ _)), (skip _ _ 0 2).trans (low _ _), low _ _, zcat (zcat (zcat (zcat (zcat (andZero _) (zeroAnd (31#5))) (andZero _)) (andZero _)) (andZero _)) (andZero _)⟩

theorem layout24 (p : BitVec 10) (x1 : BitVec 5) (x3 : BitVec 2) (x4 : BitVec 5) {w : Word} (hw : p ++ 0#5 ++ x1 ++ 0#5 ++ x3 ++ x4 = w) :
    (w : Word).extractLsb' 22 10 = p ∧ (w : Word).extractLsb' 12 5 = x1 ∧ (w : Word).extractLsb' 5 2 = x3 ∧ (w : Word).extractLsb' 0 5 = x4 ∧ w &&& 0x3E0F80#32 = 0#32 := by
  subst hw
  exact ⟨(skip _ _ 17 10).trans ((skip _ _ 15 10).trans ((skip _ _ 10 10).trans ((skip _ _ 5 10).trans ((skip _ _ 0 10).trans (whole _))))), (skip _ _ 7 5).trans ((skip _ _ 5 5).trans ((skip _ _ 0 5).trans (low _ _))), (skip _ _ 0 2).trans (low _ _), low _ _, zcat (zcat (zcat (zcat (zcat (andZero _) (zeroAnd (31#5))) (andZero _)) (zeroAnd (31#5))) (andZero _)) (andZero _)⟩

theorem layout25 (p : BitVec 10) (x2 : BitVec 5) {w : Word} (hw : p ++ 0#5 ++ 0#5 ++ x2 ++ 0#7 = w) :
    (w : Word).extractLsb' 22 10 = p ∧ (w : Word).extractLsb' 7 5 = x2 ∧ w &&& 0x3FF07F#32 = 0#32 := by
  subst hw
  exact ⟨(skip _ _ 15 10).trans ((skip _ _ 10 10).trans ((skip _ _ 5 10).trans ((skip _ _ 0 10).trans (whole _)))), (skip _ _ 0 5).trans (low _ _), zcat (zcat (zcat (zcat (andZero _) (zeroAnd (31#5))) (zeroAnd (31#5))) (andZero _)) (zeroAnd (127#7))⟩

theorem layout26 (p : BitVec 10) (x0 : BitVec 5) (x2 : BitVec 5) {w : Word} (hw : p ++ x0 ++ 0#5 ++ x2 ++ 0#7 = w) :
    (w : Word).extractLsb' 22 10 = p ∧ (w : Word).extractLsb' 17 5 = x0 ∧ (w : Word).extractLsb' 7 5 = x2 ∧ w &&& 0x1F07F#32 = 0#32 := by
  subst hw
  exact ⟨(skip _ _ 15 10).trans ((skip _ _ 10 10).trans ((skip _ _ 5 10).trans ((skip _ _ 0 10).trans (whole _)))), (skip _ _ 10 5).trans ((skip _ _ 5 5).trans ((skip _ _ 0 5).trans (low _ _))), (skip _ _ 0 5).trans (low _ _), zcat (zcat (zcat (zcat (andZero _) (andZero _)) (zeroAnd (31#5))) (andZero _)) (zeroAnd (127#7))⟩

theorem layout27 (p : BitVec 10) (x2 : BitVec 6) (x3 : BitVec 6) {w : Word} (hw : p ++ 0#5 ++ 0#5 ++ x2 ++ x3 = w) :
    (w : Word).extractLsb' 22 10 = p ∧ (w : Word).extractLsb' 6 6 = x2 ∧ (w : Word).extractLsb' 0 6 = x3 ∧ w &&& 0x3FF000#32 = 0#32 := by
  subst hw
  exact ⟨(skip _ _ 16 10).trans ((skip _ _ 10 10).trans ((skip _ _ 5 10).trans ((skip _ _ 0 10).trans (whole _)))), (skip _ _ 0 6).trans (low _ _), low _ _, zcat (zcat (zcat (zcat (andZero _) (zeroAnd (31#5))) (zeroAnd (31#5))) (andZero _)) (andZero _)⟩

theorem layout28 (p : BitVec 10) (x0 : BitVec 5) (x2 : BitVec 6) {w : Word} (hw : p ++ x0 ++ 0#5 ++ x2 ++ 0#6 = w) :
    (w : Word).extractLsb' 22 10 = p ∧ (w : Word).extractLsb' 17 5 = x0 ∧ (w : Word).extractLsb' 6 6 = x2 ∧ w &&& 0x1F03F#32 = 0#32 := by
  subst hw
  exact ⟨(skip _ _ 16 10).trans ((skip _ _ 10 10).trans ((skip _ _ 5 10).trans ((skip _ _ 0 10).trans (whole _)))), (skip _ _ 11 5).trans ((skip _ _ 5 5).trans ((skip _ _ 0 5).trans (low _ _))), (skip _ _ 0 6).trans (low _ _), zcat (zcat (zcat (zcat (andZero _) (andZero _)) (zeroAnd (31#5))) (andZero _)) (zeroAnd (63#6))⟩

theorem layout29 (p : BitVec 10) (x1 : BitVec 5) (x3 : BitVec 6) {w : Word} (hw : p ++ 0#5 ++ x1 ++ 0#6 ++ x3 = w) :
    (w : Word).extractLsb' 22 10 = p ∧ (w : Word).extractLsb' 12 5 = x1 ∧ (w : Word).extractLsb' 0 6 = x3 ∧ w &&& 0x3E0FC0#32 = 0#32 := by
  subst hw
  exact ⟨(skip _ _ 16 10).trans ((skip _ _ 10 10).trans ((skip _ _ 5 10).trans ((skip _ _ 0 10).trans (whole _)))), (skip _ _ 6 5).trans ((skip _ _ 0 5).trans (low _ _)), low _ _, zcat (zcat (zcat (zcat (andZero _) (zeroAnd (31#5))) (andZero _)) (zeroAnd (63#6))) (andZero _)⟩

theorem layout30 (p : BitVec 10) (x1 : BitVec 5) (x2 : BitVec 5) (x4 : BitVec 4) {w : Word} (hw : p ++ 0#5 ++ x1 ++ x2 ++ 0#3 ++ x4 = w) :
    (w : Word).extractLsb' 22 10 = p ∧ (w : Word).extractLsb' 12 5 = x1 ∧ (w : Word).extractLsb' 7 5 = x2 ∧ (w : Word).extractLsb' 0 4 = x4 ∧ w &&& 0x3E0070#32 = 0#32 := by
  subst hw
  exact ⟨(skip _ _ 18 10).trans ((skip _ _ 15 10).trans ((skip _ _ 10 10).trans ((skip _ _ 5 10).trans ((skip _ _ 0 10).trans (whole _))))), (skip _ _ 8 5).trans ((skip _ _ 5 5).trans ((skip _ _ 0 5).trans (low _ _))), (skip _ _ 3 5).trans ((skip _ _ 0 5).trans (low _ _)), low _ _, zcat (zcat (zcat (zcat (zcat (andZero _) (zeroAnd (31#5))) (andZero _)) (andZero _)) (zeroAnd (7#3))) (andZero _)⟩

theorem layout31 (p : BitVec 10) (x1 : BitVec 5) (x2 : BitVec 5) (x4 : BitVec 1) (x5 : BitVec 4) {w : Word} (hw : p ++ 0#5 ++ x1 ++ x2 ++ 0#2 ++ x4 ++ x5 = w) :
    (w : Word).extractLsb' 22 10 = p ∧ (w : Word).extractLsb' 12 5 = x1 ∧ (w : Word).extractLsb' 7 5 = x2 ∧ (w : Word).extractLsb' 4 1 = x4 ∧ (w : Word).extractLsb' 0 4 = x5 ∧ w &&& 0x3E0060#32 = 0#32 := by
  subst hw
  exact ⟨(skip _ _ 18 10).trans ((skip _ _ 17 10).trans ((skip _ _ 15 10).trans ((skip _ _ 10 10).trans ((skip _ _ 5 10).trans ((skip _ _ 0 10).trans (whole _)))))), (skip _ _ 8 5).trans ((skip _ _ 7 5).trans ((skip _ _ 5 5).trans ((skip _ _ 0 5).trans (low _ _)))), (skip _ _ 3 5).trans ((skip _ _ 2 5).trans ((skip _ _ 0 5).trans (low _ _))), (skip _ _ 0 1).trans (low _ _), low _ _, zcat (zcat (zcat (zcat (zcat (zcat (andZero _) (zeroAnd (31#5))) (andZero _)) (andZero _)) (zeroAnd (3#2))) (andZero _)) (andZero _)⟩

theorem layout32 (p : BitVec 10) (x1 : BitVec 5) (x2 : BitVec 5) (x4 : BitVec 1) (x5 : BitVec 1) (x6 : BitVec 4) {w : Word} (hw : p ++ 0#5 ++ x1 ++ x2 ++ 0#1 ++ x4 ++ x5 ++ x6 = w) :
    (w : Word).extractLsb' 22 10 = p ∧ (w : Word).extractLsb' 12 5 = x1 ∧ (w : Word).extractLsb' 7 5 = x2 ∧ (w : Word).extractLsb' 5 1 = x4 ∧ (w : Word).extractLsb' 4 1 = x5 ∧ (w : Word).extractLsb' 0 4 = x6 ∧ w &&& 0x3E0040#32 = 0#32 := by
  subst hw
  exact ⟨(skip _ _ 18 10).trans ((skip _ _ 17 10).trans ((skip _ _ 16 10).trans ((skip _ _ 15 10).trans ((skip _ _ 10 10).trans ((skip _ _ 5 10).trans ((skip _ _ 0 10).trans (whole _))))))), (skip _ _ 8 5).trans ((skip _ _ 7 5).trans ((skip _ _ 6 5).trans ((skip _ _ 5 5).trans ((skip _ _ 0 5).trans (low _ _))))), (skip _ _ 3 5).trans ((skip _ _ 2 5).trans ((skip _ _ 1 5).trans ((skip _ _ 0 5).trans (low _ _)))), (skip _ _ 1 1).trans ((skip _ _ 0 1).trans (low _ _)), (skip _ _ 0 1).trans (low _ _), low _ _, zcat (zcat (zcat (zcat (zcat (zcat (zcat (andZero _) (zeroAnd (31#5))) (andZero _)) (andZero _)) (zeroAnd (1#1))) (andZero _)) (andZero _)) (andZero _)⟩

theorem layout33 (p : BitVec 10) (x1 : BitVec 5) (x2 : BitVec 8) {w : Word} (hw : p ++ 0#5 ++ x1 ++ x2 ++ 0#4 = w) :
    (w : Word).extractLsb' 22 10 = p ∧ (w : Word).extractLsb' 12 5 = x1 ∧ (w : Word).extractLsb' 4 8 = x2 ∧ w &&& 0x3E000F#32 = 0#32 := by
  subst hw
  exact ⟨(skip _ _ 18 10).trans ((skip _ _ 10 10).trans ((skip _ _ 5 10).trans ((skip _ _ 0 10).trans (whole _)))), (skip _ _ 8 5).trans ((skip _ _ 0 5).trans (low _ _)), (skip _ _ 0 8).trans (low _ _), zcat (zcat (zcat (zcat (andZero _) (zeroAnd (31#5))) (andZero _)) (andZero _)) (zeroAnd (15#4))⟩

theorem layout34 (p : BitVec 10) (x2 : BitVec 8) {w : Word} (hw : p ++ 0#5 ++ 0#5 ++ x2 ++ 0#4 = w) :
    (w : Word).extractLsb' 22 10 = p ∧ (w : Word).extractLsb' 4 8 = x2 ∧ w &&& 0x3FF00F#32 = 0#32 := by
  subst hw
  exact ⟨(skip _ _ 18 10).trans ((skip _ _ 10 10).trans ((skip _ _ 5 10).trans ((skip _ _ 0 10).trans (whole _)))), (skip _ _ 0 8).trans (low _ _), zcat (zcat (zcat (zcat (andZero _) (zeroAnd (31#5))) (zeroAnd (31#5))) (andZero _)) (zeroAnd (15#4))⟩

theorem layout35 (p : BitVec 10) (x1 : BitVec 5) (x3 : BitVec 7) {w : Word} (hw : p ++ 0#5 ++ x1 ++ 0#5 ++ x3 = w) :
    (w : Word).extractLsb' 22 10 = p ∧ (w : Word).extractLsb' 12 5 = x1 ∧ (w : Word).extractLsb' 0 7 = x3 ∧ w &&& 0x3E0F80#32 = 0#32 := by
  subst hw
  exact ⟨(skip _ _ 15 10).trans ((skip _ _ 10 10).trans ((skip _ _ 5 10).trans ((skip _ _ 0 10).trans (whole _)))), (skip _ _ 5 5).trans ((skip _ _ 0 5).trans (low _ _)), low _ _, zcat (zcat (zcat (zcat (andZero _) (zeroAnd (31#5))) (andZero _)) (zeroAnd (31#5))) (andZero _)⟩

theorem layout36 (p : BitVec 10) (x1 : BitVec 5) {w : Word} (hw : p ++ 0#5 ++ x1 ++ 0#12 = w) :
    (w : Word).extractLsb' 22 10 = p ∧ (w : Word).extractLsb' 12 5 = x1 ∧ w &&& 0x3E0FFF#32 = 0#32 := by
  subst hw
  exact ⟨(skip _ _ 10 10).trans ((skip _ _ 5 10).trans ((skip _ _ 0 10).trans (whole _))), (skip _ _ 0 5).trans (low _ _), zcat (zcat (zcat (andZero _) (zeroAnd (31#5))) (andZero _)) (zeroAnd (4095#12))⟩

theorem layout37 (p : BitVec 10) (x0 : BitVec 7) (x1 : BitVec 7) (x2 : BitVec 7) (x3 : BitVec 1) {w : Word} (hw : p ++ x0 ++ x1 ++ x2 ++ x3 = w) :
    (w : Word).extractLsb' 22 10 = p ∧ (w : Word).extractLsb' 15 7 = x0 ∧ (w : Word).extractLsb' 8 7 = x1 ∧ (w : Word).extractLsb' 1 7 = x2 ∧ (w : Word).extractLsb' 0 1 = x3 ∧ w &&& 0x0#32 = 0#32 := by
  subst hw
  exact ⟨(skip _ _ 21 10).trans ((skip _ _ 14 10).trans ((skip _ _ 7 10).trans ((skip _ _ 0 10).trans (whole _)))), (skip _ _ 14 7).trans ((skip _ _ 7 7).trans ((skip _ _ 0 7).trans (low _ _))), (skip _ _ 7 7).trans ((skip _ _ 0 7).trans (low _ _)), (skip _ _ 0 7).trans (low _ _), low _ _, andZero _⟩

theorem layout38 (p : BitVec 10) (x0 : BitVec 7) (x1 : BitVec 7) (x3 : BitVec 1) {w : Word} (hw : p ++ x0 ++ x1 ++ 0#7 ++ x3 = w) :
    (w : Word).extractLsb' 22 10 = p ∧ (w : Word).extractLsb' 15 7 = x0 ∧ (w : Word).extractLsb' 8 7 = x1 ∧ (w : Word).extractLsb' 0 1 = x3 ∧ w &&& 0xFE#32 = 0#32 := by
  subst hw
  exact ⟨(skip _ _ 21 10).trans ((skip _ _ 14 10).trans ((skip _ _ 7 10).trans ((skip _ _ 0 10).trans (whole _)))), (skip _ _ 14 7).trans ((skip _ _ 7 7).trans ((skip _ _ 0 7).trans (low _ _))), (skip _ _ 7 7).trans ((skip _ _ 0 7).trans (low _ _)), low _ _, zcat (zcat (zcat (zcat (andZero _) (andZero _)) (andZero _)) (zeroAnd (127#7))) (andZero _)⟩

theorem layout39 (p : BitVec 10) (x0 : BitVec 4) (x1 : BitVec 3) (x2 : BitVec 7) (x3 : BitVec 7) (x4 : BitVec 1) {w : Word} (hw : p ++ x0 ++ x1 ++ x2 ++ x3 ++ x4 = w) :
    (w : Word).extractLsb' 22 10 = p ∧ (w : Word).extractLsb' 18 4 = x0 ∧ (w : Word).extractLsb' 15 3 = x1 ∧ (w : Word).extractLsb' 8 7 = x2 ∧ (w : Word).extractLsb' 1 7 = x3 ∧ (w : Word).extractLsb' 0 1 = x4 ∧ w &&& 0x0#32 = 0#32 := by
  subst hw
  exact ⟨(skip _ _ 21 10).trans ((skip _ _ 14 10).trans ((skip _ _ 7 10).trans ((skip _ _ 4 10).trans ((skip _ _ 0 10).trans (whole _))))), (skip _ _ 17 4).trans ((skip _ _ 10 4).trans ((skip _ _ 3 4).trans ((skip _ _ 0 4).trans (low _ _)))), (skip _ _ 14 3).trans ((skip _ _ 7 3).trans ((skip _ _ 0 3).trans (low _ _))), (skip _ _ 7 7).trans ((skip _ _ 0 7).trans (low _ _)), (skip _ _ 0 7).trans (low _ _), low _ _, andZero _⟩

theorem layout40 (p : BitVec 10) (x0 : BitVec 7) (x1 : BitVec 7) (x3 : BitVec 1) (x4 : BitVec 1) (x5 : BitVec 1) {w : Word} (hw : p ++ x0 ++ x1 ++ 0#5 ++ x3 ++ x4 ++ x5 = w) :
    (w : Word).extractLsb' 22 10 = p ∧ (w : Word).extractLsb' 15 7 = x0 ∧ (w : Word).extractLsb' 8 7 = x1 ∧ (w : Word).extractLsb' 2 1 = x3 ∧ (w : Word).extractLsb' 1 1 = x4 ∧ (w : Word).extractLsb' 0 1 = x5 ∧ w &&& 0xF8#32 = 0#32 := by
  subst hw
  exact ⟨(skip _ _ 21 10).trans ((skip _ _ 20 10).trans ((skip _ _ 19 10).trans ((skip _ _ 14 10).trans ((skip _ _ 7 10).trans ((skip _ _ 0 10).trans (whole _)))))), (skip _ _ 14 7).trans ((skip _ _ 13 7).trans ((skip _ _ 12 7).trans ((skip _ _ 7 7).trans ((skip _ _ 0 7).trans (low _ _))))), (skip _ _ 7 7).trans ((skip _ _ 6 7).trans ((skip _ _ 5 7).trans ((skip _ _ 0 7).trans (low _ _)))), (skip _ _ 1 1).trans ((skip _ _ 0 1).trans (low _ _)), (skip _ _ 0 1).trans (low _ _), low _ _, zcat (zcat (zcat (zcat (zcat (zcat (andZero _) (andZero _)) (andZero _)) (zeroAnd (31#5))) (andZero _)) (andZero _)) (andZero _)⟩

theorem layout41 (p : BitVec 10) (x0 : BitVec 7) (x1 : BitVec 4) {w : Word} (hw : p ++ x0 ++ x1 ++ 0#6 ++ 0#5 = w) :
    (w : Word).extractLsb' 22 10 = p ∧ (w : Word).extractLsb' 15 7 = x0 ∧ (w : Word).extractLsb' 11 4 = x1 ∧ w &&& 0x7FF#32 = 0#32 := by
  subst hw
  exact ⟨(skip _ _ 17 10).trans ((skip _ _ 11 10).trans ((skip _ _ 7 10).trans ((skip _ _ 0 10).trans (whole _)))), (skip _ _ 10 7).trans ((skip _ _ 4 7).trans ((skip _ _ 0 7).trans (low _ _))), (skip _ _ 6 4).trans ((skip _ _ 0 4).trans (low _ _)), zcat (zcat (zcat (zcat (andZero _) (andZero _)) (andZero _)) (zeroAnd (63#6))) (zeroAnd (31#5))⟩

theorem layout42 (p : BitVec 10) (x0 : BitVec 7) (x1 : BitVec 7) {w : Word} (hw : p ++ x0 ++ x1 ++ 0#7 ++ 0#1 = w) :
    (w : Word).extractLsb' 22 10 = p ∧ (w : Word).extractLsb' 15 7 = x0 ∧ (w : Word).extractLsb' 8 7 = x1 ∧ w &&& 0xFF#32 = 0#32 := by
  subst hw
  exact ⟨(skip _ _ 21 10).trans ((skip _ _ 14 10).trans ((skip _ _ 7 10).trans ((skip _ _ 0 10).trans (whole _)))), (skip _ _ 14 7).trans ((skip _ _ 7 7).trans ((skip _ _ 0 7).trans (low _ _))), (skip _ _ 7 7).trans ((skip _ _ 0 7).trans (low _ _)), zcat (zcat (zcat (zcat (andZero _) (andZero _)) (andZero _)) (zeroAnd (127#7))) (zeroAnd (1#1))⟩

theorem layout43 (p : BitVec 10) (x0 : BitVec 7) (x1 : BitVec 7) (x2 : BitVec 1) (x3 : BitVec 1) (x4 : BitVec 6) {w : Word} (hw : p ++ x0 ++ x1 ++ x2 ++ x3 ++ x4 = w) :
    (w : Word).extractLsb' 22 10 = p ∧ (w : Word).extractLsb' 15 7 = x0 ∧ (w : Word).extractLsb' 8 7 = x1 ∧ (w : Word).extractLsb' 7 1 = x2 ∧ (w : Word).extractLsb' 6 1 = x3 ∧ (w : Word).extractLsb' 0 6 = x4 ∧ w &&& 0x0#32 = 0#32 := by
  subst hw
  exact ⟨(skip _ _ 16 10).trans ((skip _ _ 15 10).trans ((skip _ _ 14 10).trans ((skip _ _ 7 10).trans ((skip _ _ 0 10).trans (whole _))))), (skip _ _ 9 7).trans ((skip _ _ 8 7).trans ((skip _ _ 7 7).trans ((skip _ _ 0 7).trans (low _ _)))), (skip _ _ 2 7).trans ((skip _ _ 1 7).trans ((skip _ _ 0 7).trans (low _ _))), (skip _ _ 1 1).trans ((skip _ _ 0 1).trans (low _ _)), (skip _ _ 0 1).trans (low _ _), low _ _, andZero _⟩

theorem layout44 (p : BitVec 10) (x0 : BitVec 7) (x2 : BitVec 8) {w : Word} (hw : p ++ x0 ++ 0#7 ++ x2 = w) :
    (w : Word).extractLsb' 22 10 = p ∧ (w : Word).extractLsb' 15 7 = x0 ∧ (w : Word).extractLsb' 0 8 = x2 ∧ w &&& 0x7F00#32 = 0#32 := by
  subst hw
  exact ⟨(skip _ _ 14 10).trans ((skip _ _ 7 10).trans ((skip _ _ 0 10).trans (whole _))), (skip _ _ 7 7).trans ((skip _ _ 0 7).trans (low _ _)), low _ _, zcat (zcat (zcat (andZero _) (andZero _)) (zeroAnd (127#7))) (andZero _)⟩

theorem layout45 (p : BitVec 10) (x0 : BitVec 7) (x1 : BitVec 4) (x2 : BitVec 6) {w : Word} (hw : p ++ x0 ++ x1 ++ x2 ++ 0#5 = w) :
    (w : Word).extractLsb' 22 10 = p ∧ (w : Word).extractLsb' 15 7 = x0 ∧ (w : Word).extractLsb' 11 4 = x1 ∧ (w : Word).extractLsb' 5 6 = x2 ∧ w &&& 0x1F#32 = 0#32 := by
  subst hw
  exact ⟨(skip _ _ 17 10).trans ((skip _ _ 11 10).trans ((skip _ _ 7 10).trans ((skip _ _ 0 10).trans (whole _)))), (skip _ _ 10 7).trans ((skip _ _ 4 7).trans ((skip _ _ 0 7).trans (low _ _))), (skip _ _ 6 4).trans ((skip _ _ 0 4).trans (low _ _)), (skip _ _ 0 6).trans (low _ _), zcat (zcat (zcat (zcat (andZero _) (andZero _)) (andZero _)) (andZero _)) (zeroAnd (31#5))⟩

theorem layout46 (p : BitVec 10) (x0 : BitVec 7) (x1 : BitVec 7) (x3 : BitVec 3) {w : Word} (hw : p ++ x0 ++ x1 ++ 0#5 ++ x3 = w) :
    (w : Word).extractLsb' 22 10 = p ∧ (w : Word).extractLsb' 15 7 = x0 ∧ (w : Word).extractLsb' 8 7 = x1 ∧ (w : Word).extractLsb' 0 3 = x3 ∧ w &&& 0xF8#32 = 0#32 := by
  subst hw
  exact ⟨(skip _ _ 19 10).trans ((skip _ _ 14 10).trans ((skip _ _ 7 10).trans ((skip _ _ 0 10).trans (whole _)))), (skip _ _ 12 7).trans ((skip _ _ 7 7).trans ((skip _ _ 0 7).trans (low _ _))), (skip _ _ 5 7).trans ((skip _ _ 0 7).trans (low _ _)), low _ _, zcat (zcat (zcat (zcat (andZero _) (andZero _)) (andZero _)) (zeroAnd (31#5))) (andZero _)⟩

theorem layout47 (p : BitVec 10) (x0 : BitVec 7) (x1 : BitVec 7) (x2 : BitVec 5) (x3 : BitVec 3) {w : Word} (hw : p ++ x0 ++ x1 ++ x2 ++ x3 = w) :
    (w : Word).extractLsb' 22 10 = p ∧ (w : Word).extractLsb' 15 7 = x0 ∧ (w : Word).extractLsb' 8 7 = x1 ∧ (w : Word).extractLsb' 3 5 = x2 ∧ (w : Word).extractLsb' 0 3 = x3 ∧ w &&& 0x0#32 = 0#32 := by
  subst hw
  exact ⟨(skip _ _ 19 10).trans ((skip _ _ 14 10).trans ((skip _ _ 7 10).trans ((skip _ _ 0 10).trans (whole _)))), (skip _ _ 12 7).trans ((skip _ _ 7 7).trans ((skip _ _ 0 7).trans (low _ _))), (skip _ _ 5 7).trans ((skip _ _ 0 7).trans (low _ _)), (skip _ _ 0 5).trans (low _ _), low _ _, andZero _⟩

theorem layout48 (p : BitVec 10) (x0 : BitVec 7) (x1 : BitVec 7) (x3 : BitVec 1) (x4 : BitVec 2) (x5 : BitVec 3) {w : Word} (hw : p ++ x0 ++ x1 ++ 0#2 ++ x3 ++ x4 ++ x5 = w) :
    (w : Word).extractLsb' 22 10 = p ∧ (w : Word).extractLsb' 15 7 = x0 ∧ (w : Word).extractLsb' 8 7 = x1 ∧ (w : Word).extractLsb' 5 1 = x3 ∧ (w : Word).extractLsb' 3 2 = x4 ∧ (w : Word).extractLsb' 0 3 = x5 ∧ w &&& 0xC0#32 = 0#32 := by
  subst hw
  exact ⟨(skip _ _ 19 10).trans ((skip _ _ 17 10).trans ((skip _ _ 16 10).trans ((skip _ _ 14 10).trans ((skip _ _ 7 10).trans ((skip _ _ 0 10).trans (whole _)))))), (skip _ _ 12 7).trans ((skip _ _ 10 7).trans ((skip _ _ 9 7).trans ((skip _ _ 7 7).trans ((skip _ _ 0 7).trans (low _ _))))), (skip _ _ 5 7).trans ((skip _ _ 3 7).trans ((skip _ _ 2 7).trans ((skip _ _ 0 7).trans (low _ _)))), (skip _ _ 2 1).trans ((skip _ _ 0 1).trans (low _ _)), (skip _ _ 0 2).trans (low _ _), low _ _, zcat (zcat (zcat (zcat (zcat (zcat (andZero _) (andZero _)) (andZero _)) (zeroAnd (3#2))) (andZero _)) (andZero _)) (andZero _)⟩

theorem layout49 (p : BitVec 10) (x0 : BitVec 7) (x1 : BitVec 7) {w : Word} (hw : p ++ x0 ++ x1 ++ 0#8 = w) :
    (w : Word).extractLsb' 22 10 = p ∧ (w : Word).extractLsb' 15 7 = x0 ∧ (w : Word).extractLsb' 8 7 = x1 ∧ w &&& 0xFF#32 = 0#32 := by
  subst hw
  exact ⟨(skip _ _ 14 10).trans ((skip _ _ 7 10).trans ((skip _ _ 0 10).trans (whole _))), (skip _ _ 7 7).trans ((skip _ _ 0 7).trans (low _ _)), (skip _ _ 0 7).trans (low _ _), zcat (zcat (zcat (andZero _) (andZero _)) (andZero _)) (zeroAnd (255#8))⟩

theorem layout50 (p : BitVec 10) (x0 : BitVec 7) (x1 : BitVec 7) (x2 : BitVec 8) {w : Word} (hw : p ++ x0 ++ x1 ++ x2 = w) :
    (w : Word).extractLsb' 22 10 = p ∧ (w : Word).extractLsb' 15 7 = x0 ∧ (w : Word).extractLsb' 8 7 = x1 ∧ (w : Word).extractLsb' 0 8 = x2 ∧ w &&& 0x0#32 = 0#32 := by
  subst hw
  exact ⟨(skip _ _ 14 10).trans ((skip _ _ 7 10).trans ((skip _ _ 0 10).trans (whole _))), (skip _ _ 7 7).trans ((skip _ _ 0 7).trans (low _ _)), (skip _ _ 0 7).trans (low _ _), low _ _, andZero _⟩

theorem layout51 (p : BitVec 10) (x1 : BitVec 8) {w : Word} (hw : p ++ 0#14 ++ x1 = w) :
    (w : Word).extractLsb' 22 10 = p ∧ (w : Word).extractLsb' 0 8 = x1 ∧ w &&& 0x3FFF00#32 = 0#32 := by
  subst hw
  exact ⟨(skip _ _ 14 10).trans ((skip _ _ 0 10).trans (whole _)), low _ _, zcat (zcat (andZero _) (zeroAnd (16383#14))) (andZero _)⟩

theorem layout52 (p : BitVec 10) (x0 : BitVec 7) {w : Word} (hw : p ++ x0 ++ 0#7 ++ 0#7 ++ 0#1 = w) :
    (w : Word).extractLsb' 22 10 = p ∧ (w : Word).extractLsb' 15 7 = x0 ∧ w &&& 0x7FFF#32 = 0#32 := by
  subst hw
  exact ⟨(skip _ _ 21 10).trans ((skip _ _ 14 10).trans ((skip _ _ 7 10).trans ((skip _ _ 0 10).trans (whole _)))), (skip _ _ 14 7).trans ((skip _ _ 7 7).trans ((skip _ _ 0 7).trans (low _ _))), zcat (zcat (zcat (zcat (andZero _) (andZero _)) (zeroAnd (127#7))) (zeroAnd (127#7))) (zeroAnd (1#1))⟩

theorem layout53 (p : BitVec 10) (x1 : BitVec 5) (x3 : BitVec 5) (x5 : BitVec 5) {w : Word} (hw : p ++ 0#2 ++ x1 ++ 0#2 ++ x3 ++ 0#2 ++ x5 ++ 0#1 = w) :
    (w : Word).extractLsb' 22 10 = p ∧ (w : Word).extractLsb' 15 5 = x1 ∧ (w : Word).extractLsb' 8 5 = x3 ∧ (w : Word).extractLsb' 1 5 = x5 ∧ w &&& 0x3060C1#32 = 0#32 := by
  subst hw
  exact ⟨(skip _ _ 21 10).trans ((skip _ _ 16 10).trans ((skip _ _ 14 10).trans ((skip _ _ 9 10).trans ((skip _ _ 7 10).trans ((skip _ _ 2 10).trans ((skip _ _ 0 10).trans (whole _))))))), (skip _ _ 14 5).trans ((skip _ _ 9 5).trans ((skip _ _ 7 5).trans ((skip _ _ 2 5).trans ((skip _ _ 0 5).trans (low _ _))))), (skip _ _ 7 5).trans ((skip _ _ 2 5).trans ((skip _ _ 0 5).trans (low _ _))), (skip _ _ 0 5).trans (low _ _), zcat (zcat (zcat (zcat (zcat (zcat (zcat (andZero _) (zeroAnd (3#2))) (andZero _)) (zeroAnd (3#2))) (andZero _)) (zeroAnd (3#2))) (andZero _)) (zeroAnd (1#1))⟩

theorem layout54 (p : BitVec 10) (x1 : BitVec 5) (x3 : BitVec 5) {w : Word} (hw : p ++ 0#2 ++ x1 ++ 0#2 ++ x3 ++ 0#7 ++ 0#1 = w) :
    (w : Word).extractLsb' 22 10 = p ∧ (w : Word).extractLsb' 15 5 = x1 ∧ (w : Word).extractLsb' 8 5 = x3 ∧ w &&& 0x3060FF#32 = 0#32 := by
  subst hw
  exact ⟨(skip _ _ 21 10).trans ((skip _ _ 14 10).trans ((skip _ _ 9 10).trans ((skip _ _ 7 10).trans ((skip _ _ 2 10).trans ((skip _ _ 0 10).trans (whole _)))))), (skip _ _ 14 5).trans ((skip _ _ 7 5).trans ((skip _ _ 2 5).trans ((skip _ _ 0 5).trans (low _ _)))), (skip _ _ 7 5).trans ((skip _ _ 0 5).trans (low _ _)), zcat (zcat (zcat (zcat (zcat (zcat (andZero _) (zeroAnd (3#2))) (andZero _)) (zeroAnd (3#2))) (andZero _)) (zeroAnd (127#7))) (zeroAnd (1#1))⟩

theorem layout55 (p : BitVec 10) (x2 : BitVec 5) {w : Word} (hw : p ++ 0#7 ++ 0#2 ++ x2 ++ 0#7 ++ 0#1 = w) :
    (w : Word).extractLsb' 22 10 = p ∧ (w : Word).extractLsb' 8 5 = x2 ∧ w &&& 0x3FE0FF#32 = 0#32 := by
  subst hw
  exact ⟨(skip _ _ 21 10).trans ((skip _ _ 14 10).trans ((skip _ _ 9 10).trans ((skip _ _ 7 10).trans ((skip _ _ 0 10).trans (whole _))))), (skip _ _ 7 5).trans ((skip _ _ 0 5).trans (low _ _)), zcat (zcat (zcat (zcat (zcat (andZero _) (zeroAnd (127#7))) (zeroAnd (3#2))) (andZero _)) (zeroAnd (127#7))) (zeroAnd (1#1))⟩

theorem layout56 (p : BitVec 10) (x1 : BitVec 18) {w : Word} (hw : p ++ 0#4 ++ x1 = w) :
    (w : Word).extractLsb' 22 10 = p ∧ (w : Word).extractLsb' 0 18 = x1 ∧ w &&& 0x3C0000#32 = 0#32 := by
  subst hw
  exact ⟨(skip _ _ 4 10).trans ((skip _ _ 0 10).trans (whole _)), low _ _, zcat (zcat (andZero _) (zeroAnd (15#4))) (andZero _)⟩

theorem layout57 (p : BitVec 10) (x0 : BitVec 4) (x1 : BitVec 2) (x2 : BitVec 16) {w : Word} (hw : p ++ x0 ++ x1 ++ x2 = w) :
    (w : Word).extractLsb' 22 10 = p ∧ (w : Word).extractLsb' 18 4 = x0 ∧ (w : Word).extractLsb' 16 2 = x1 ∧ (w : Word).extractLsb' 0 16 = x2 ∧ w &&& 0x0#32 = 0#32 := by
  subst hw
  exact ⟨(skip _ _ 6 10).trans ((skip _ _ 4 10).trans ((skip _ _ 0 10).trans (whole _))), (skip _ _ 2 4).trans ((skip _ _ 0 4).trans (low _ _)), (skip _ _ 0 2).trans (low _ _), low _ _, andZero _⟩

theorem layout58 (p : BitVec 10) (x0 : BitVec 4) {w : Word} (hw : p ++ x0 ++ 0#18 = w) :
    (w : Word).extractLsb' 22 10 = p ∧ (w : Word).extractLsb' 18 4 = x0 ∧ w &&& 0x3FFFF#32 = 0#32 := by
  subst hw
  exact ⟨(skip _ _ 4 10).trans ((skip _ _ 0 10).trans (whole _)), (skip _ _ 0 4).trans (low _ _), zcat (zcat (andZero _) (andZero _)) (zeroAnd (262143#18))⟩

theorem layout59 (p : BitVec 10) (x1 : BitVec 2) (x2 : BitVec 16) {w : Word} (hw : p ++ 0#4 ++ x1 ++ x2 = w) :
    (w : Word).extractLsb' 22 10 = p ∧ (w : Word).extractLsb' 16 2 = x1 ∧ (w : Word).extractLsb' 0 16 = x2 ∧ w &&& 0x3C0000#32 = 0#32 := by
  subst hw
  exact ⟨(skip _ _ 6 10).trans ((skip _ _ 4 10).trans ((skip _ _ 0 10).trans (whole _))), (skip _ _ 0 2).trans (low _ _), low _ _, zcat (zcat (zcat (andZero _) (zeroAnd (15#4))) (andZero _)) (andZero _)⟩

theorem layout60 (p : BitVec 10) (x0 : BitVec 8) (x1 : BitVec 8) (x2 : BitVec 4) (x3 : BitVec 2) {w : Word} (hw : p ++ x0 ++ x1 ++ x2 ++ x3 = w) :
    (w : Word).extractLsb' 22 10 = p ∧ (w : Word).extractLsb' 14 8 = x0 ∧ (w : Word).extractLsb' 6 8 = x1 ∧ (w : Word).extractLsb' 2 4 = x2 ∧ (w : Word).extractLsb' 0 2 = x3 ∧ w &&& 0x0#32 = 0#32 := by
  subst hw
  exact ⟨(skip _ _ 20 10).trans ((skip _ _ 16 10).trans ((skip _ _ 8 10).trans ((skip _ _ 0 10).trans (whole _)))), (skip _ _ 12 8).trans ((skip _ _ 8 8).trans ((skip _ _ 0 8).trans (low _ _))), (skip _ _ 4 8).trans ((skip _ _ 0 8).trans (low _ _)), (skip _ _ 0 4).trans (low _ _), low _ _, andZero _⟩

theorem layout61 (p : BitVec 10) (x1 : BitVec 2) {w : Word} (hw : p ++ 0#4 ++ x1 ++ 0#16 = w) :
    (w : Word).extractLsb' 22 10 = p ∧ (w : Word).extractLsb' 16 2 = x1 ∧ w &&& 0x3CFFFF#32 = 0#32 := by
  subst hw
  exact ⟨(skip _ _ 6 10).trans ((skip _ _ 4 10).trans ((skip _ _ 0 10).trans (whole _))), (skip _ _ 0 2).trans (low _ _), zcat (zcat (zcat (andZero _) (zeroAnd (15#4))) (andZero _)) (zeroAnd (65535#16))⟩

theorem layout62 (p : BitVec 10) (x1 : BitVec 2) (x3 : BitVec 3) {w : Word} (hw : p ++ 0#4 ++ x1 ++ 0#13 ++ x3 = w) :
    (w : Word).extractLsb' 22 10 = p ∧ (w : Word).extractLsb' 16 2 = x1 ∧ (w : Word).extractLsb' 0 3 = x3 ∧ w &&& 0x3CFFF8#32 = 0#32 := by
  subst hw
  exact ⟨(skip _ _ 19 10).trans ((skip _ _ 6 10).trans ((skip _ _ 4 10).trans ((skip _ _ 0 10).trans (whole _)))), (skip _ _ 13 2).trans ((skip _ _ 0 2).trans (low _ _)), low _ _, zcat (zcat (zcat (zcat (andZero _) (zeroAnd (15#4))) (andZero _)) (zeroAnd (8191#13))) (andZero _)⟩

theorem layout63 (p : BitVec 10) (x0 : BitVec 4) (x2 : BitVec 16) {w : Word} (hw : p ++ x0 ++ 0#2 ++ x2 = w) :
    (w : Word).extractLsb' 22 10 = p ∧ (w : Word).extractLsb' 18 4 = x0 ∧ (w : Word).extractLsb' 0 16 = x2 ∧ w &&& 0x30000#32 = 0#32 := by
  subst hw
  exact ⟨(skip _ _ 6 10).trans ((skip _ _ 4 10).trans ((skip _ _ 0 10).trans (whole _))), (skip _ _ 2 4).trans ((skip _ _ 0 4).trans (low _ _)), low _ _, zcat (zcat (zcat (andZero _) (andZero _)) (zeroAnd (3#2))) (andZero _)⟩

theorem layout64 (p : BitVec 10) (x0 : BitVec 8) (x2 : BitVec 4) {w : Word} (hw : p ++ x0 ++ 0#8 ++ x2 ++ 0#2 = w) :
    (w : Word).extractLsb' 22 10 = p ∧ (w : Word).extractLsb' 14 8 = x0 ∧ (w : Word).extractLsb' 2 4 = x2 ∧ w &&& 0x3FC3#32 = 0#32 := by
  subst hw
  exact ⟨(skip _ _ 20 10).trans ((skip _ _ 16 10).trans ((skip _ _ 8 10).trans ((skip _ _ 0 10).trans (whole _)))), (skip _ _ 12 8).trans ((skip _ _ 8 8).trans ((skip _ _ 0 8).trans (low _ _))), (skip _ _ 0 4).trans (low _ _), zcat (zcat (zcat (zcat (andZero _) (andZero _)) (zeroAnd (255#8))) (andZero _)) (zeroAnd (3#2))⟩

namespace RoundTrip

/-- A well-formed word of program text has an encoding, and the decoder reads it back. -/
def Statement (i : Instr) : Prop := i.isWord = true → i.wf = true → ∃ w, encode i = some w ∧ decode w = .ok i

theorem powerUp (stat : BitVec 8) : Statement (.powerUp stat) := fun h => by cases h
theorem islandClockChange (island : Nat) (mhz : BitVec 16) : Statement (.islandClockChange island mhz) := fun h => by cases h
theorem launchPortStore (vf : BitVec 10) (va : Dword) : Statement (.launchPortStore vf va) := fun h => by cases h
theorem walkerDispatch : Statement (.walkerDispatch) := fun h => by cases h
theorem preemptRequest : Statement (.preemptRequest) := fun h => by cases h
theorem contextSaveDone : Statement (.contextSaveDone) := fun h => by cases h
theorem iterationRetirement : Statement (.iterationRetirement) := fun h => by cases h
theorem retirementMessage : Statement (.retirementMessage) := fun h => by cases h
theorem nodeCompletion : Statement (.nodeCompletion) := fun h => by cases h
theorem releaseWrite (va : Dword) : Statement (.releaseWrite va) := fun h => by cases h
theorem engineStallWatchdog : Statement (.engineStallWatchdog) := fun h => by cases h
theorem regionRollback (cause : Rollback) : Statement (.regionRollback cause) := fun h => by cases h
theorem sfuResultLand : Statement (.sfuResultLand) := fun h => by cases h
theorem flagwaitSatisfied : Statement (.flagwaitSatisfied) := fun h => by cases h
theorem barrierDecrement (q : BitVec 5) (n : Nat) : Statement (.barrierDecrement q n) := fun h => by cases h
theorem commandCompletion (q : BitVec 5) : Statement (.commandCompletion q) := fun h => by cases h
theorem commandStall (q : BitVec 5) : Statement (.commandStall q) := fun h => by cases h
theorem notifyComplete (q : BitVec 5) : Statement (.notifyComplete q) := fun h => by cases h
theorem mapDrainComplete : Statement (.mapDrainComplete) := fun h => by cases h
theorem transferPacket (src : XSrc) (recv : Nat) : Statement (.transferPacket src recv) := fun h => by cases h
theorem shareRefill : Statement (.shareRefill) := fun h => by cases h
theorem ptsTick (isCore : Bool) : Statement (.ptsTick isCore) := fun h => by cases h
theorem turnGrant : Statement (.turnGrant) := fun h => by cases h
theorem turnTimeLimit : Statement (.turnTimeLimit) := fun h => by cases h
theorem turnEndBudget : Statement (.turnEndBudget) := fun h => by cases h
theorem matrixCommandComplete : Statement (.matrixCommandComplete) := fun h => by cases h
theorem rakeStart : Statement (.rakeStart) := fun h => by cases h
theorem rakeOutputPerformed : Statement (.rakeOutputPerformed) := fun h => by cases h
theorem rakeStall : Statement (.rakeStall) := fun h => by cases h
theorem mnotifyComplete : Statement (.mnotifyComplete) := fun h => by cases h
theorem chainRecordComplete : Statement (.chainRecordComplete) := fun h => by cases h
theorem resumeEngine (g : Eng) : Statement (.resumeEngine g) := fun h => by cases h
theorem terminate : Statement (.terminate) := fun h => by cases h
theorem resumeQueue (q : BitVec 5) : Statement (.resumeQueue q) := fun h => by cases h
theorem failQueueCommand (q : BitVec 5) : Statement (.failQueueCommand q) := fun h => by cases h
theorem resumeRake : Statement (.resumeRake) := fun h => by cases h
theorem failRakeSlot : Statement (.failRakeSlot) := fun h => by cases h
theorem vfTeardown : Statement (.vfTeardown) := fun h => by cases h
theorem teardownTimeout : Statement (.teardownTimeout) := fun h => by cases h
theorem lcapWrite (v : Dword) : Statement (.lcapWrite v) := fun h => by cases h
theorem swayStageSet (w : Nat) (v : Dword) : Statement (.swayStageSet w v) := fun h => by cases h
theorem swayStageClear (w : Nat) (v : Dword) : Statement (.swayStageClear w v) := fun h => by cases h
theorem frameassign (vf : BitVec 10) : Statement (.frameassign vf) := fun h => by cases h
theorem framerelease : Statement (.framerelease) := fun h => by cases h
theorem scrubComplete : Statement (.scrubComplete) := fun h => by cases h
theorem flitReceive (q : Nat) (peer : BitVec 6) (f : Flit) (bad : Bool) : Statement (.flitReceive q peer f bad) := fun h => by cases h
theorem laneWindowEnd (q : Nat) (peer : BitVec 6) (errs : Nat) : Statement (.laneWindowEnd q peer errs) := fun h => by cases h
theorem leaveRequest (q : Nat) (peer : BitVec 6) : Statement (.leaveRequest q peer) := fun h => by cases h
theorem returnRequest (q : Nat) (peer : BitVec 6) : Statement (.returnRequest q peer) := fun h => by cases h
theorem laneTrialWindow (q : Nat) (peer : BitVec 6) (errs : Nat) : Statement (.laneTrialWindow q peer errs) := fun h => by cases h
theorem laneLossOfLock (q : Nat) (peer : BitVec 6) : Statement (.laneLossOfLock q peer) := fun h => by cases h
theorem laneRetry (q : Nat) (peer : BitVec 6) : Statement (.laneRetry q peer) := fun h => by cases h
theorem peerLost : Statement (.peerLost) := fun h => by cases h
theorem rldRequest : Statement (.rldRequest) := fun h => by cases h
theorem rldReply : Statement (.rldReply) := fun h => by cases h
theorem rstArrival : Statement (.rstArrival) := fun h => by cases h
theorem rstfArrival : Statement (.rstfArrival) := fun h => by cases h
theorem ramoRequest : Statement (.ramoRequest) := fun h => by cases h
theorem ramoReply : Statement (.ramoReply) := fun h => by cases h
theorem sack : Statement (.sack) := fun h => by cases h
theorem flush : Statement (.flush) := fun h => by cases h
theorem fail : Statement (.fail) := fun h => by cases h
theorem relayedRequest : Statement (.relayedRequest) := fun h => by cases h
theorem ownerset : Statement (.ownerset) := fun h => by cases h
theorem migack : Statement (.migack) := fun h => by cases h
theorem redirect : Statement (.redirect) := fun h => by cases h
theorem redirectApply : Statement (.redirectApply) := fun h => by cases h
theorem reresolve : Statement (.reresolve) := fun h => by cases h
theorem pagedata : Statement (.pagedata) := fun h => by cases h
theorem performed : Statement (.performed) := fun h => by cases h
theorem close : Statement (.close) := fun h => by cases h
theorem abort : Statement (.abort) := fun h => by cases h
theorem stubLifetimeExpiry : Statement (.stubLifetimeExpiry) := fun h => by cases h
theorem demote (pa : Dword) : Statement (.demote pa) := fun h => by cases h
theorem demoteComplete : Statement (.demoteComplete) := fun h => by cases h
theorem move (pa : Dword) : Statement (.move pa) := fun h => by cases h
theorem retire (pa : Dword) : Statement (.retire pa) := fun h => by cases h
theorem thaw (pa : Dword) : Statement (.thaw pa) := fun h => by cases h
theorem promotionComplete : Statement (.promotionComplete) := fun h => by cases h
theorem dbgStop : Statement (.dbgStop) := fun h => by cases h
theorem dbgResume (load : Bool) : Statement (.dbgResume load) := fun h => by cases h
theorem dbgStep (load : Bool) : Statement (.dbgStep load) := fun h => by cases h
theorem debugStepEnd : Statement (.debugStepEnd) := fun h => by cases h
theorem breakpointHit : Statement (.breakpointHit) := fun h => by cases h
theorem debugImageWritten : Statement (.debugImageWritten) := fun h => by cases h
theorem psessWrite (v : Dword) : Statement (.psessWrite v) := fun h => by cases h
theorem networkArrival (dst : DmaAddr) (bytes : List Byte) : Statement (.networkArrival dst bytes) := fun h => by cases h
theorem storageCompletion (src : Dword) (status : Dword) : Statement (.storageCompletion src status) := fun h => by cases h
theorem interruptTaken (cause : Dword) (num : Dword) : Statement (.interruptTaken cause num) := fun h => by cases h
theorem extend : Statement (.extend) := fun h => by cases h
theorem attest : Statement (.attest) := fun h => by cases h
theorem mailboxCommandDone : Statement (.mailboxCommandDone) := fun h => by cases h
theorem registerWrite (pa : Dword) (v : Dword) : Statement (.registerWrite pa v) := fun h => by cases h
theorem br (o : BitVec 22) : Statement (.br o) := by
  intro _ hwf
  refine ⟨_, rfl, ?_⟩
  generalize hw : (128#8 ++ 0#2 ++ o : Word) = ww; change Word at ww
  obtain ⟨hp, h0, h1, hz⟩ := layout0 128#8 (0#2) (o) hw
  refine decode_c hp rfl ?_ hwf hz
  show some (if ww.extractLsb' 22 2 == 0#2 then some (Instr.br (ww.extractLsb' 0 22), 0x0#32) else none) = _
  simp only [h0, h1]
  rfl

theorem brc (e : Eng) (c : BitVec 4) (r : BitVec 5) (f : BitVec 13) : Statement (.brc e c r f) := by
  intro _ hwf
  refine ⟨_, rfl, ?_⟩
  generalize hw : (129#8 ++ e.bits ++ c ++ r ++ f : Word) = ww; change Word at ww
  obtain ⟨hp, h0, h1, h2, h3, hz⟩ := layout1 129#8 (e.bits) (c) (r) (f) hw
  refine decode_c hp rfl ?_ hwf hz
  show some (some (Instr.brc (Eng.ofBits (ww.extractLsb' 22 2)) (ww.extractLsb' 18 4) (ww.extractLsb' 13 5) (ww.extractLsb' 0 13), 0x0#32)) = _
  simp only [h0, h1, h2, h3, engBits]

theorem loop (e : Eng) (r : BitVec 5) (o : BitVec 17) : Statement (.loop e r o) := by
  intro _ hwf
  refine ⟨_, rfl, ?_⟩
  generalize hw : (130#8 ++ e.bits ++ r ++ o : Word) = ww; change Word at ww
  obtain ⟨hp, h0, h1, h2, hz⟩ := layout2 130#8 (e.bits) (r) (o) hw
  refine decode_c hp rfl ?_ hwf hz
  show some (some (Instr.loop (Eng.ofBits (ww.extractLsb' 22 2)) (ww.extractLsb' 17 5) (ww.extractLsb' 0 17), 0x0#32)) = _
  simp only [h0, h1, h2, engBits]

theorem loopr (e : Eng) (r : BitVec 5) (o : BitVec 17) : Statement (.loopr e r o) := by
  intro _ hwf
  refine ⟨_, rfl, ?_⟩
  generalize hw : (131#8 ++ e.bits ++ r ++ o : Word) = ww; change Word at ww
  obtain ⟨hp, h0, h1, h2, hz⟩ := layout2 131#8 (e.bits) (r) (o) hw
  refine decode_c hp rfl ?_ hwf hz
  show some (some (Instr.loopr (Eng.ofBits (ww.extractLsb' 22 2)) (ww.extractLsb' 17 5) (ww.extractLsb' 0 17), 0x0#32)) = _
  simp only [h0, h1, h2, engBits]

theorem call (o : BitVec 22) : Statement (.call o) := by
  intro _ hwf
  refine ⟨_, rfl, ?_⟩
  generalize hw : (132#8 ++ 0#2 ++ o : Word) = ww; change Word at ww
  obtain ⟨hp, h0, h1, hz⟩ := layout0 132#8 (0#2) (o) hw
  refine decode_c hp rfl ?_ hwf hz
  show some (if ww.extractLsb' 22 2 == 0#2 then some (Instr.call (ww.extractLsb' 0 22), 0x0#32) else none) = _
  simp only [h0, h1]
  rfl

theorem ret : Statement (.ret) := by
  intro _ hwf
  refine ⟨_, rfl, ?_⟩
  generalize hw : (133#8 ++ 0#2 ++ 0#22 : Word) = ww; change Word at ww
  obtain ⟨hp, h0, hz⟩ := layout3 133#8 (0#2) hw
  refine decode_c hp rfl ?_ hwf hz
  show some (if ww.extractLsb' 22 2 == 0#2 then some (Instr.ret, 0x3FFFFF#32) else none) = _
  simp only [h0]
  rfl

theorem rgn : Statement (.rgn) := by
  intro _ hwf
  refine ⟨_, rfl, ?_⟩
  generalize hw : (134#8 ++ 0#2 ++ 0#22 : Word) = ww; change Word at ww
  obtain ⟨hp, h0, hz⟩ := layout3 134#8 (0#2) hw
  refine decode_c hp rfl ?_ hwf hz
  show some (if ww.extractLsb' 22 2 == 0#2 then some (Instr.rgn, 0x3FFFFF#32) else none) = _
  simp only [h0]
  rfl

theorem tok (f : Eng) (t : Eng) (n : BitVec 4) : Statement (.tok f t n) := by
  intro _ hwf
  refine ⟨_, rfl, ?_⟩
  generalize hw : (135#8 ++ 0#2 ++ f.bits ++ t.bits ++ n ++ 0#14 : Word) = ww; change Word at ww
  obtain ⟨hp, h0, h1, h2, h3, hz⟩ := layout4 135#8 (0#2) (f.bits) (t.bits) (n) hw
  refine decode_c hp rfl ?_ hwf hz
  show some (if ww.extractLsb' 22 2 == 0#2 then some (Instr.tok (Eng.ofBits (ww.extractLsb' 20 2)) (Eng.ofBits (ww.extractLsb' 18 2)) (ww.extractLsb' 14 4), 0x3FFF#32) else none) = _
  simp only [h0, h1, h2, h3, engBits]
  rfl

theorem endw : Statement (.endw) := by
  intro _ hwf
  refine ⟨_, rfl, ?_⟩
  generalize hw : (136#8 ++ 0#2 ++ 0#22 : Word) = ww; change Word at ww
  obtain ⟨hp, h0, hz⟩ := layout3 136#8 (0#2) hw
  refine decode_c hp rfl ?_ hwf hz
  show some (if ww.extractLsb' 22 2 == 0#2 then some (Instr.endw, 0x3FFFFF#32) else none) = _
  simp only [h0]
  rfl

theorem brx (e : Eng) (r : BitVec 5) : Statement (.brx e r) := by
  intro _ hwf
  refine ⟨_, rfl, ?_⟩
  generalize hw : (137#8 ++ e.bits ++ r ++ 0#17 : Word) = ww; change Word at ww
  obtain ⟨hp, h0, h1, hz⟩ := layout5 137#8 (e.bits) (r) hw
  refine decode_c hp rfl ?_ hwf hz
  show some (some (Instr.brx (Eng.ofBits (ww.extractLsb' 22 2)) (ww.extractLsb' 17 5), 0x1FFFF#32)) = _
  simp only [h0, h1, engBits]

theorem nop : Statement (.nop) := by
  intro _ hwf
  refine ⟨_, rfl, ?_⟩
  generalize hw : (0#10 ++ 0#22 : Word) = ww; change Word at ww
  obtain ⟨hp, hz⟩ := layout6 0#10 hw
  refine decode_x hp rfl ?_ hwf hz
  rfl

theorem add (d : BitVec 5) (a : BitVec 5) (b : BitVec 5) : Statement (.add d a b) := by
  intro _ hwf
  refine ⟨_, rfl, ?_⟩
  generalize hw : (1#10 ++ d ++ a ++ b ++ 0#7 : Word) = ww; change Word at ww
  obtain ⟨hp, h0, h1, h2, hz⟩ := layout7 1#10 (d) (a) (b) hw
  refine decode_x hp rfl ?_ hwf hz
  show some (some (Instr.add (ww.extractLsb' 17 5) (ww.extractLsb' 12 5) (ww.extractLsb' 7 5), 0x7F#32)) = _
  simp only [h0, h1, h2]

theorem sub (d : BitVec 5) (a : BitVec 5) (b : BitVec 5) : Statement (.sub d a b) := by
  intro _ hwf
  refine ⟨_, rfl, ?_⟩
  generalize hw : (2#10 ++ d ++ a ++ b ++ 0#7 : Word) = ww; change Word at ww
  obtain ⟨hp, h0, h1, h2, hz⟩ := layout7 2#10 (d) (a) (b) hw
  refine decode_x hp rfl ?_ hwf hz
  show some (some (Instr.sub (ww.extractLsb' 17 5) (ww.extractLsb' 12 5) (ww.extractLsb' 7 5), 0x7F#32)) = _
  simp only [h0, h1, h2]

theorem mul (d : BitVec 5) (a : BitVec 5) (b : BitVec 5) : Statement (.mul d a b) := by
  intro _ hwf
  refine ⟨_, rfl, ?_⟩
  generalize hw : (3#10 ++ d ++ a ++ b ++ 0#7 : Word) = ww; change Word at ww
  obtain ⟨hp, h0, h1, h2, hz⟩ := layout7 3#10 (d) (a) (b) hw
  refine decode_x hp rfl ?_ hwf hz
  show some (some (Instr.mul (ww.extractLsb' 17 5) (ww.extractLsb' 12 5) (ww.extractLsb' 7 5), 0x7F#32)) = _
  simp only [h0, h1, h2]

theorem mulh (d : BitVec 5) (a : BitVec 5) (b : BitVec 5) : Statement (.mulh d a b) := by
  intro _ hwf
  refine ⟨_, rfl, ?_⟩
  generalize hw : (4#10 ++ d ++ a ++ b ++ 0#7 : Word) = ww; change Word at ww
  obtain ⟨hp, h0, h1, h2, hz⟩ := layout7 4#10 (d) (a) (b) hw
  refine decode_x hp rfl ?_ hwf hz
  show some (some (Instr.mulh (ww.extractLsb' 17 5) (ww.extractLsb' 12 5) (ww.extractLsb' 7 5), 0x7F#32)) = _
  simp only [h0, h1, h2]

theorem mulhu (d : BitVec 5) (a : BitVec 5) (b : BitVec 5) : Statement (.mulhu d a b) := by
  intro _ hwf
  refine ⟨_, rfl, ?_⟩
  generalize hw : (5#10 ++ d ++ a ++ b ++ 0#7 : Word) = ww; change Word at ww
  obtain ⟨hp, h0, h1, h2, hz⟩ := layout7 5#10 (d) (a) (b) hw
  refine decode_x hp rfl ?_ hwf hz
  show some (some (Instr.mulhu (ww.extractLsb' 17 5) (ww.extractLsb' 12 5) (ww.extractLsb' 7 5), 0x7F#32)) = _
  simp only [h0, h1, h2]

theorem div (d : BitVec 5) (a : BitVec 5) (b : BitVec 5) : Statement (.div d a b) := by
  intro _ hwf
  refine ⟨_, rfl, ?_⟩
  generalize hw : (6#10 ++ d ++ a ++ b ++ 0#7 : Word) = ww; change Word at ww
  obtain ⟨hp, h0, h1, h2, hz⟩ := layout7 6#10 (d) (a) (b) hw
  refine decode_x hp rfl ?_ hwf hz
  show some (some (Instr.div (ww.extractLsb' 17 5) (ww.extractLsb' 12 5) (ww.extractLsb' 7 5), 0x7F#32)) = _
  simp only [h0, h1, h2]

theorem divu (d : BitVec 5) (a : BitVec 5) (b : BitVec 5) : Statement (.divu d a b) := by
  intro _ hwf
  refine ⟨_, rfl, ?_⟩
  generalize hw : (7#10 ++ d ++ a ++ b ++ 0#7 : Word) = ww; change Word at ww
  obtain ⟨hp, h0, h1, h2, hz⟩ := layout7 7#10 (d) (a) (b) hw
  refine decode_x hp rfl ?_ hwf hz
  show some (some (Instr.divu (ww.extractLsb' 17 5) (ww.extractLsb' 12 5) (ww.extractLsb' 7 5), 0x7F#32)) = _
  simp only [h0, h1, h2]

theorem rem (d : BitVec 5) (a : BitVec 5) (b : BitVec 5) : Statement (.rem d a b) := by
  intro _ hwf
  refine ⟨_, rfl, ?_⟩
  generalize hw : (8#10 ++ d ++ a ++ b ++ 0#7 : Word) = ww; change Word at ww
  obtain ⟨hp, h0, h1, h2, hz⟩ := layout7 8#10 (d) (a) (b) hw
  refine decode_x hp rfl ?_ hwf hz
  show some (some (Instr.rem (ww.extractLsb' 17 5) (ww.extractLsb' 12 5) (ww.extractLsb' 7 5), 0x7F#32)) = _
  simp only [h0, h1, h2]

theorem remu (d : BitVec 5) (a : BitVec 5) (b : BitVec 5) : Statement (.remu d a b) := by
  intro _ hwf
  refine ⟨_, rfl, ?_⟩
  generalize hw : (9#10 ++ d ++ a ++ b ++ 0#7 : Word) = ww; change Word at ww
  obtain ⟨hp, h0, h1, h2, hz⟩ := layout7 9#10 (d) (a) (b) hw
  refine decode_x hp rfl ?_ hwf hz
  show some (some (Instr.remu (ww.extractLsb' 17 5) (ww.extractLsb' 12 5) (ww.extractLsb' 7 5), 0x7F#32)) = _
  simp only [h0, h1, h2]

theorem and (d : BitVec 5) (a : BitVec 5) (b : BitVec 5) : Statement (.and d a b) := by
  intro _ hwf
  refine ⟨_, rfl, ?_⟩
  generalize hw : (10#10 ++ d ++ a ++ b ++ 0#7 : Word) = ww; change Word at ww
  obtain ⟨hp, h0, h1, h2, hz⟩ := layout7 10#10 (d) (a) (b) hw
  refine decode_x hp rfl ?_ hwf hz
  show some (some (Instr.and (ww.extractLsb' 17 5) (ww.extractLsb' 12 5) (ww.extractLsb' 7 5), 0x7F#32)) = _
  simp only [h0, h1, h2]

theorem or (d : BitVec 5) (a : BitVec 5) (b : BitVec 5) : Statement (.or d a b) := by
  intro _ hwf
  refine ⟨_, rfl, ?_⟩
  generalize hw : (11#10 ++ d ++ a ++ b ++ 0#7 : Word) = ww; change Word at ww
  obtain ⟨hp, h0, h1, h2, hz⟩ := layout7 11#10 (d) (a) (b) hw
  refine decode_x hp rfl ?_ hwf hz
  show some (some (Instr.or (ww.extractLsb' 17 5) (ww.extractLsb' 12 5) (ww.extractLsb' 7 5), 0x7F#32)) = _
  simp only [h0, h1, h2]

theorem xor (d : BitVec 5) (a : BitVec 5) (b : BitVec 5) : Statement (.xor d a b) := by
  intro _ hwf
  refine ⟨_, rfl, ?_⟩
  generalize hw : (12#10 ++ d ++ a ++ b ++ 0#7 : Word) = ww; change Word at ww
  obtain ⟨hp, h0, h1, h2, hz⟩ := layout7 12#10 (d) (a) (b) hw
  refine decode_x hp rfl ?_ hwf hz
  show some (some (Instr.xor (ww.extractLsb' 17 5) (ww.extractLsb' 12 5) (ww.extractLsb' 7 5), 0x7F#32)) = _
  simp only [h0, h1, h2]

theorem andn (d : BitVec 5) (a : BitVec 5) (b : BitVec 5) : Statement (.andn d a b) := by
  intro _ hwf
  refine ⟨_, rfl, ?_⟩
  generalize hw : (13#10 ++ d ++ a ++ b ++ 0#7 : Word) = ww; change Word at ww
  obtain ⟨hp, h0, h1, h2, hz⟩ := layout7 13#10 (d) (a) (b) hw
  refine decode_x hp rfl ?_ hwf hz
  show some (some (Instr.andn (ww.extractLsb' 17 5) (ww.extractLsb' 12 5) (ww.extractLsb' 7 5), 0x7F#32)) = _
  simp only [h0, h1, h2]

theorem shl (d : BitVec 5) (a : BitVec 5) (b : BitVec 5) : Statement (.shl d a b) := by
  intro _ hwf
  refine ⟨_, rfl, ?_⟩
  generalize hw : (14#10 ++ d ++ a ++ b ++ 0#7 : Word) = ww; change Word at ww
  obtain ⟨hp, h0, h1, h2, hz⟩ := layout7 14#10 (d) (a) (b) hw
  refine decode_x hp rfl ?_ hwf hz
  show some (some (Instr.shl (ww.extractLsb' 17 5) (ww.extractLsb' 12 5) (ww.extractLsb' 7 5), 0x7F#32)) = _
  simp only [h0, h1, h2]

theorem shr (d : BitVec 5) (a : BitVec 5) (b : BitVec 5) : Statement (.shr d a b) := by
  intro _ hwf
  refine ⟨_, rfl, ?_⟩
  generalize hw : (15#10 ++ d ++ a ++ b ++ 0#7 : Word) = ww; change Word at ww
  obtain ⟨hp, h0, h1, h2, hz⟩ := layout7 15#10 (d) (a) (b) hw
  refine decode_x hp rfl ?_ hwf hz
  show some (some (Instr.shr (ww.extractLsb' 17 5) (ww.extractLsb' 12 5) (ww.extractLsb' 7 5), 0x7F#32)) = _
  simp only [h0, h1, h2]

theorem sar (d : BitVec 5) (a : BitVec 5) (b : BitVec 5) : Statement (.sar d a b) := by
  intro _ hwf
  refine ⟨_, rfl, ?_⟩
  generalize hw : (16#10 ++ d ++ a ++ b ++ 0#7 : Word) = ww; change Word at ww
  obtain ⟨hp, h0, h1, h2, hz⟩ := layout7 16#10 (d) (a) (b) hw
  refine decode_x hp rfl ?_ hwf hz
  show some (some (Instr.sar (ww.extractLsb' 17 5) (ww.extractLsb' 12 5) (ww.extractLsb' 7 5), 0x7F#32)) = _
  simp only [h0, h1, h2]

theorem rol (d : BitVec 5) (a : BitVec 5) (b : BitVec 5) : Statement (.rol d a b) := by
  intro _ hwf
  refine ⟨_, rfl, ?_⟩
  generalize hw : (17#10 ++ d ++ a ++ b ++ 0#7 : Word) = ww; change Word at ww
  obtain ⟨hp, h0, h1, h2, hz⟩ := layout7 17#10 (d) (a) (b) hw
  refine decode_x hp rfl ?_ hwf hz
  show some (some (Instr.rol (ww.extractLsb' 17 5) (ww.extractLsb' 12 5) (ww.extractLsb' 7 5), 0x7F#32)) = _
  simp only [h0, h1, h2]

theorem min (d : BitVec 5) (a : BitVec 5) (b : BitVec 5) : Statement (.min d a b) := by
  intro _ hwf
  refine ⟨_, rfl, ?_⟩
  generalize hw : (18#10 ++ d ++ a ++ b ++ 0#7 : Word) = ww; change Word at ww
  obtain ⟨hp, h0, h1, h2, hz⟩ := layout7 18#10 (d) (a) (b) hw
  refine decode_x hp rfl ?_ hwf hz
  show some (some (Instr.min (ww.extractLsb' 17 5) (ww.extractLsb' 12 5) (ww.extractLsb' 7 5), 0x7F#32)) = _
  simp only [h0, h1, h2]

theorem max (d : BitVec 5) (a : BitVec 5) (b : BitVec 5) : Statement (.max d a b) := by
  intro _ hwf
  refine ⟨_, rfl, ?_⟩
  generalize hw : (19#10 ++ d ++ a ++ b ++ 0#7 : Word) = ww; change Word at ww
  obtain ⟨hp, h0, h1, h2, hz⟩ := layout7 19#10 (d) (a) (b) hw
  refine decode_x hp rfl ?_ hwf hz
  show some (some (Instr.max (ww.extractLsb' 17 5) (ww.extractLsb' 12 5) (ww.extractLsb' 7 5), 0x7F#32)) = _
  simp only [h0, h1, h2]

theorem minu (d : BitVec 5) (a : BitVec 5) (b : BitVec 5) : Statement (.minu d a b) := by
  intro _ hwf
  refine ⟨_, rfl, ?_⟩
  generalize hw : (20#10 ++ d ++ a ++ b ++ 0#7 : Word) = ww; change Word at ww
  obtain ⟨hp, h0, h1, h2, hz⟩ := layout7 20#10 (d) (a) (b) hw
  refine decode_x hp rfl ?_ hwf hz
  show some (some (Instr.minu (ww.extractLsb' 17 5) (ww.extractLsb' 12 5) (ww.extractLsb' 7 5), 0x7F#32)) = _
  simp only [h0, h1, h2]

theorem maxu (d : BitVec 5) (a : BitVec 5) (b : BitVec 5) : Statement (.maxu d a b) := by
  intro _ hwf
  refine ⟨_, rfl, ?_⟩
  generalize hw : (21#10 ++ d ++ a ++ b ++ 0#7 : Word) = ww; change Word at ww
  obtain ⟨hp, h0, h1, h2, hz⟩ := layout7 21#10 (d) (a) (b) hw
  refine decode_x hp rfl ?_ hwf hz
  show some (some (Instr.maxu (ww.extractLsb' 17 5) (ww.extractLsb' 12 5) (ww.extractLsb' 7 5), 0x7F#32)) = _
  simp only [h0, h1, h2]

theorem slt (d : BitVec 5) (a : BitVec 5) (b : BitVec 5) : Statement (.slt d a b) := by
  intro _ hwf
  refine ⟨_, rfl, ?_⟩
  generalize hw : (22#10 ++ d ++ a ++ b ++ 0#7 : Word) = ww; change Word at ww
  obtain ⟨hp, h0, h1, h2, hz⟩ := layout7 22#10 (d) (a) (b) hw
  refine decode_x hp rfl ?_ hwf hz
  show some (some (Instr.slt (ww.extractLsb' 17 5) (ww.extractLsb' 12 5) (ww.extractLsb' 7 5), 0x7F#32)) = _
  simp only [h0, h1, h2]

theorem sltu (d : BitVec 5) (a : BitVec 5) (b : BitVec 5) : Statement (.sltu d a b) := by
  intro _ hwf
  refine ⟨_, rfl, ?_⟩
  generalize hw : (23#10 ++ d ++ a ++ b ++ 0#7 : Word) = ww; change Word at ww
  obtain ⟨hp, h0, h1, h2, hz⟩ := layout7 23#10 (d) (a) (b) hw
  refine decode_x hp rfl ?_ hwf hz
  show some (some (Instr.sltu (ww.extractLsb' 17 5) (ww.extractLsb' 12 5) (ww.extractLsb' 7 5), 0x7F#32)) = _
  simp only [h0, h1, h2]

theorem seq (d : BitVec 5) (a : BitVec 5) (b : BitVec 5) : Statement (.seq d a b) := by
  intro _ hwf
  refine ⟨_, rfl, ?_⟩
  generalize hw : (24#10 ++ d ++ a ++ b ++ 0#7 : Word) = ww; change Word at ww
  obtain ⟨hp, h0, h1, h2, hz⟩ := layout7 24#10 (d) (a) (b) hw
  refine decode_x hp rfl ?_ hwf hz
  show some (some (Instr.seq (ww.extractLsb' 17 5) (ww.extractLsb' 12 5) (ww.extractLsb' 7 5), 0x7F#32)) = _
  simp only [h0, h1, h2]

theorem sne (d : BitVec 5) (a : BitVec 5) (b : BitVec 5) : Statement (.sne d a b) := by
  intro _ hwf
  refine ⟨_, rfl, ?_⟩
  generalize hw : (25#10 ++ d ++ a ++ b ++ 0#7 : Word) = ww; change Word at ww
  obtain ⟨hp, h0, h1, h2, hz⟩ := layout7 25#10 (d) (a) (b) hw
  refine decode_x hp rfl ?_ hwf hz
  show some (some (Instr.sne (ww.extractLsb' 17 5) (ww.extractLsb' 12 5) (ww.extractLsb' 7 5), 0x7F#32)) = _
  simp only [h0, h1, h2]

theorem clz (d : BitVec 5) (a : BitVec 5) : Statement (.clz d a) := by
  intro _ hwf
  refine ⟨_, rfl, ?_⟩
  generalize hw : (26#10 ++ d ++ a ++ 0#5 ++ 0#7 : Word) = ww; change Word at ww
  obtain ⟨hp, h0, h1, hz⟩ := layout8 26#10 (d) (a) hw
  refine decode_x hp rfl ?_ hwf hz
  show some (some (Instr.clz (ww.extractLsb' 17 5) (ww.extractLsb' 12 5), 0xFFF#32)) = _
  simp only [h0, h1]

theorem ctz (d : BitVec 5) (a : BitVec 5) : Statement (.ctz d a) := by
  intro _ hwf
  refine ⟨_, rfl, ?_⟩
  generalize hw : (27#10 ++ d ++ a ++ 0#5 ++ 0#7 : Word) = ww; change Word at ww
  obtain ⟨hp, h0, h1, hz⟩ := layout8 27#10 (d) (a) hw
  refine decode_x hp rfl ?_ hwf hz
  show some (some (Instr.ctz (ww.extractLsb' 17 5) (ww.extractLsb' 12 5), 0xFFF#32)) = _
  simp only [h0, h1]

theorem popc (d : BitVec 5) (a : BitVec 5) : Statement (.popc d a) := by
  intro _ hwf
  refine ⟨_, rfl, ?_⟩
  generalize hw : (28#10 ++ d ++ a ++ 0#5 ++ 0#7 : Word) = ww; change Word at ww
  obtain ⟨hp, h0, h1, hz⟩ := layout8 28#10 (d) (a) hw
  refine decode_x hp rfl ?_ hwf hz
  show some (some (Instr.popc (ww.extractLsb' 17 5) (ww.extractLsb' 12 5), 0xFFF#32)) = _
  simp only [h0, h1]

theorem sel (d : BitVec 5) (a : BitVec 5) (b : BitVec 5) (c : BitVec 5) : Statement (.sel d a b c) := by
  intro _ hwf
  refine ⟨_, rfl, ?_⟩
  generalize hw : (29#10 ++ d ++ a ++ b ++ c ++ 0#2 : Word) = ww; change Word at ww
  obtain ⟨hp, h0, h1, h2, h3, hz⟩ := layout9 29#10 (d) (a) (b) (c) hw
  refine decode_x hp rfl ?_ hwf hz
  show some (some (Instr.sel (ww.extractLsb' 17 5) (ww.extractLsb' 12 5) (ww.extractLsb' 7 5) (ww.extractLsb' 2 5), 0x3#32)) = _
  simp only [h0, h1, h2, h3]

theorem addi (d : BitVec 5) (a : BitVec 5) (i : BitVec 12) : Statement (.addi d a i) := by
  intro _ hwf
  refine ⟨_, rfl, ?_⟩
  generalize hw : (32#10 ++ d ++ a ++ i : Word) = ww; change Word at ww
  obtain ⟨hp, h0, h1, h2, hz⟩ := layout10 32#10 (d) (a) (i) hw
  refine decode_x hp rfl ?_ hwf hz
  show some (some (Instr.addi (ww.extractLsb' 17 5) (ww.extractLsb' 12 5) (ww.extractLsb' 0 12), 0x0#32)) = _
  simp only [h0, h1, h2]

theorem andi (d : BitVec 5) (a : BitVec 5) (i : BitVec 12) : Statement (.andi d a i) := by
  intro _ hwf
  refine ⟨_, rfl, ?_⟩
  generalize hw : (33#10 ++ d ++ a ++ i : Word) = ww; change Word at ww
  obtain ⟨hp, h0, h1, h2, hz⟩ := layout10 33#10 (d) (a) (i) hw
  refine decode_x hp rfl ?_ hwf hz
  show some (some (Instr.andi (ww.extractLsb' 17 5) (ww.extractLsb' 12 5) (ww.extractLsb' 0 12), 0x0#32)) = _
  simp only [h0, h1, h2]

theorem ori (d : BitVec 5) (a : BitVec 5) (i : BitVec 12) : Statement (.ori d a i) := by
  intro _ hwf
  refine ⟨_, rfl, ?_⟩
  generalize hw : (34#10 ++ d ++ a ++ i : Word) = ww; change Word at ww
  obtain ⟨hp, h0, h1, h2, hz⟩ := layout10 34#10 (d) (a) (i) hw
  refine decode_x hp rfl ?_ hwf hz
  show some (some (Instr.ori (ww.extractLsb' 17 5) (ww.extractLsb' 12 5) (ww.extractLsb' 0 12), 0x0#32)) = _
  simp only [h0, h1, h2]

theorem xori (d : BitVec 5) (a : BitVec 5) (i : BitVec 12) : Statement (.xori d a i) := by
  intro _ hwf
  refine ⟨_, rfl, ?_⟩
  generalize hw : (35#10 ++ d ++ a ++ i : Word) = ww; change Word at ww
  obtain ⟨hp, h0, h1, h2, hz⟩ := layout10 35#10 (d) (a) (i) hw
  refine decode_x hp rfl ?_ hwf hz
  show some (some (Instr.xori (ww.extractLsb' 17 5) (ww.extractLsb' 12 5) (ww.extractLsb' 0 12), 0x0#32)) = _
  simp only [h0, h1, h2]

theorem shli (d : BitVec 5) (a : BitVec 5) (s : BitVec 12) : Statement (.shli d a s) := by
  intro _ hwf
  refine ⟨_, rfl, ?_⟩
  generalize hw : (36#10 ++ d ++ a ++ s : Word) = ww; change Word at ww
  obtain ⟨hp, h0, h1, h2, hz⟩ := layout10 36#10 (d) (a) (s) hw
  refine decode_x hp rfl ?_ hwf hz
  show some (some (Instr.shli (ww.extractLsb' 17 5) (ww.extractLsb' 12 5) (ww.extractLsb' 0 12), 0x0#32)) = _
  simp only [h0, h1, h2]

theorem shri (d : BitVec 5) (a : BitVec 5) (s : BitVec 12) : Statement (.shri d a s) := by
  intro _ hwf
  refine ⟨_, rfl, ?_⟩
  generalize hw : (37#10 ++ d ++ a ++ s : Word) = ww; change Word at ww
  obtain ⟨hp, h0, h1, h2, hz⟩ := layout10 37#10 (d) (a) (s) hw
  refine decode_x hp rfl ?_ hwf hz
  show some (some (Instr.shri (ww.extractLsb' 17 5) (ww.extractLsb' 12 5) (ww.extractLsb' 0 12), 0x0#32)) = _
  simp only [h0, h1, h2]

theorem sari (d : BitVec 5) (a : BitVec 5) (s : BitVec 12) : Statement (.sari d a s) := by
  intro _ hwf
  refine ⟨_, rfl, ?_⟩
  generalize hw : (38#10 ++ d ++ a ++ s : Word) = ww; change Word at ww
  obtain ⟨hp, h0, h1, h2, hz⟩ := layout10 38#10 (d) (a) (s) hw
  refine decode_x hp rfl ?_ hwf hz
  show some (some (Instr.sari (ww.extractLsb' 17 5) (ww.extractLsb' 12 5) (ww.extractLsb' 0 12), 0x0#32)) = _
  simp only [h0, h1, h2]

theorem slti (d : BitVec 5) (a : BitVec 5) (i : BitVec 12) : Statement (.slti d a i) := by
  intro _ hwf
  refine ⟨_, rfl, ?_⟩
  generalize hw : (39#10 ++ d ++ a ++ i : Word) = ww; change Word at ww
  obtain ⟨hp, h0, h1, h2, hz⟩ := layout10 39#10 (d) (a) (i) hw
  refine decode_x hp rfl ?_ hwf hz
  show some (some (Instr.slti (ww.extractLsb' 17 5) (ww.extractLsb' 12 5) (ww.extractLsb' 0 12), 0x0#32)) = _
  simp only [h0, h1, h2]

theorem lui (d : BitVec 5) (i : BitVec 17) : Statement (.lui d i) := by
  intro _ hwf
  refine ⟨_, rfl, ?_⟩
  generalize hw : (40#10 ++ d ++ i : Word) = ww; change Word at ww
  obtain ⟨hp, h0, h1, hz⟩ := layout11 40#10 (d) (i) hw
  refine decode_x hp rfl ?_ hwf hz
  show some (some (Instr.lui (ww.extractLsb' 17 5) (ww.extractLsb' 0 17), 0x0#32)) = _
  simp only [h0, h1]

theorem fadd (d : BitVec 5) (a : BitVec 5) (b : BitVec 5) : Statement (.fadd d a b) := by
  intro _ hwf
  refine ⟨_, rfl, ?_⟩
  generalize hw : (48#10 ++ d ++ a ++ b ++ 0#7 : Word) = ww; change Word at ww
  obtain ⟨hp, h0, h1, h2, hz⟩ := layout7 48#10 (d) (a) (b) hw
  refine decode_x hp rfl ?_ hwf hz
  show some (some (Instr.fadd (ww.extractLsb' 17 5) (ww.extractLsb' 12 5) (ww.extractLsb' 7 5), 0x7F#32)) = _
  simp only [h0, h1, h2]

theorem fsub (d : BitVec 5) (a : BitVec 5) (b : BitVec 5) : Statement (.fsub d a b) := by
  intro _ hwf
  refine ⟨_, rfl, ?_⟩
  generalize hw : (49#10 ++ d ++ a ++ b ++ 0#7 : Word) = ww; change Word at ww
  obtain ⟨hp, h0, h1, h2, hz⟩ := layout7 49#10 (d) (a) (b) hw
  refine decode_x hp rfl ?_ hwf hz
  show some (some (Instr.fsub (ww.extractLsb' 17 5) (ww.extractLsb' 12 5) (ww.extractLsb' 7 5), 0x7F#32)) = _
  simp only [h0, h1, h2]

theorem fmul (d : BitVec 5) (a : BitVec 5) (b : BitVec 5) : Statement (.fmul d a b) := by
  intro _ hwf
  refine ⟨_, rfl, ?_⟩
  generalize hw : (50#10 ++ d ++ a ++ b ++ 0#7 : Word) = ww; change Word at ww
  obtain ⟨hp, h0, h1, h2, hz⟩ := layout7 50#10 (d) (a) (b) hw
  refine decode_x hp rfl ?_ hwf hz
  show some (some (Instr.fmul (ww.extractLsb' 17 5) (ww.extractLsb' 12 5) (ww.extractLsb' 7 5), 0x7F#32)) = _
  simp only [h0, h1, h2]

theorem ffma (d : BitVec 5) (a : BitVec 5) (b : BitVec 5) : Statement (.ffma d a b) := by
  intro _ hwf
  refine ⟨_, rfl, ?_⟩
  generalize hw : (51#10 ++ d ++ a ++ b ++ 0#7 : Word) = ww; change Word at ww
  obtain ⟨hp, h0, h1, h2, hz⟩ := layout7 51#10 (d) (a) (b) hw
  refine decode_x hp rfl ?_ hwf hz
  show some (some (Instr.ffma (ww.extractLsb' 17 5) (ww.extractLsb' 12 5) (ww.extractLsb' 7 5), 0x7F#32)) = _
  simp only [h0, h1, h2]

theorem fmin (d : BitVec 5) (a : BitVec 5) (b : BitVec 5) : Statement (.fmin d a b) := by
  intro _ hwf
  refine ⟨_, rfl, ?_⟩
  generalize hw : (52#10 ++ d ++ a ++ b ++ 0#7 : Word) = ww; change Word at ww
  obtain ⟨hp, h0, h1, h2, hz⟩ := layout7 52#10 (d) (a) (b) hw
  refine decode_x hp rfl ?_ hwf hz
  show some (some (Instr.fmin (ww.extractLsb' 17 5) (ww.extractLsb' 12 5) (ww.extractLsb' 7 5), 0x7F#32)) = _
  simp only [h0, h1, h2]

theorem fmax (d : BitVec 5) (a : BitVec 5) (b : BitVec 5) : Statement (.fmax d a b) := by
  intro _ hwf
  refine ⟨_, rfl, ?_⟩
  generalize hw : (53#10 ++ d ++ a ++ b ++ 0#7 : Word) = ww; change Word at ww
  obtain ⟨hp, h0, h1, h2, hz⟩ := layout7 53#10 (d) (a) (b) hw
  refine decode_x hp rfl ?_ hwf hz
  show some (some (Instr.fmax (ww.extractLsb' 17 5) (ww.extractLsb' 12 5) (ww.extractLsb' 7 5), 0x7F#32)) = _
  simp only [h0, h1, h2]

theorem fcmp (d : BitVec 5) (a : BitVec 5) (b : BitVec 5) (r : BitVec 3) : Statement (.fcmp d a b r) := by
  intro _ hwf
  refine ⟨_, rfl, ?_⟩
  generalize hw : (54#10 ++ d ++ a ++ b ++ 0#4 ++ r : Word) = ww; change Word at ww
  obtain ⟨hp, h0, h1, h2, h4, hz⟩ := layout12 54#10 (d) (a) (b) (r) hw
  refine decode_x hp rfl ?_ hwf hz
  show some (some (Instr.fcmp (ww.extractLsb' 17 5) (ww.extractLsb' 12 5) (ww.extractLsb' 7 5) (ww.extractLsb' 0 3), 0x78#32)) = _
  simp only [h0, h1, h2, h4]

theorem fcvtToInt (d : BitVec 5) (a : BitVec 5) : Statement (.fcvtToInt d a) := by
  intro _ hwf
  refine ⟨_, rfl, ?_⟩
  generalize hw : (55#10 ++ d ++ a ++ 0#5 ++ 0#7 : Word) = ww; change Word at ww
  obtain ⟨hp, h0, h1, h3, hz⟩ := layout13 55#10 (d) (a) (0#7) hw
  refine decode_x hp rfl ?_ hwf hz
  show some (if ww.extractLsb' 0 7 == 0#7 then some (Instr.fcvtToInt (ww.extractLsb' 17 5) (ww.extractLsb' 12 5), 0xF80#32) else if ww.extractLsb' 0 7 == 1#7 then some (Instr.fcvtToFp (ww.extractLsb' 17 5) (ww.extractLsb' 12 5), 0xF80#32) else none) = _
  simp only [h0, h1, h3]
  rfl

theorem fcvtToFp (d : BitVec 5) (a : BitVec 5) : Statement (.fcvtToFp d a) := by
  intro _ hwf
  refine ⟨_, rfl, ?_⟩
  generalize hw : (55#10 ++ d ++ a ++ 0#5 ++ 1#7 : Word) = ww; change Word at ww
  obtain ⟨hp, h0, h1, h3, hz⟩ := layout13 55#10 (d) (a) (1#7) hw
  refine decode_x hp rfl ?_ hwf hz
  show some (if ww.extractLsb' 0 7 == 0#7 then some (Instr.fcvtToInt (ww.extractLsb' 17 5) (ww.extractLsb' 12 5), 0xF80#32) else if ww.extractLsb' 0 7 == 1#7 then some (Instr.fcvtToFp (ww.extractLsb' 17 5) (ww.extractLsb' 12 5), 0xF80#32) else none) = _
  simp only [h0, h1, h3]
  rfl

theorem pop (d : BitVec 5) (q : BitVec 5) : Statement (.pop d q) := by
  intro _ hwf
  refine ⟨_, rfl, ?_⟩
  generalize hw : (64#10 ++ d ++ q ++ 0#5 ++ 0#7 : Word) = ww; change Word at ww
  obtain ⟨hp, h0, h1, hz⟩ := layout8 64#10 (d) (q) hw
  refine decode_x hp rfl ?_ hwf hz
  show some (some (Instr.pop (ww.extractLsb' 17 5) (ww.extractLsb' 12 5), 0xFFF#32)) = _
  simp only [h0, h1]

theorem push (q : BitVec 5) (a : BitVec 5) : Statement (.push q a) := by
  intro _ hwf
  refine ⟨_, rfl, ?_⟩
  generalize hw : (65#10 ++ q ++ a ++ 0#5 ++ 0#7 : Word) = ww; change Word at ww
  obtain ⟨hp, h0, h1, hz⟩ := layout8 65#10 (q) (a) hw
  refine decode_x hp rfl ?_ hwf hz
  show some (some (Instr.push (ww.extractLsb' 17 5) (ww.extractLsb' 12 5), 0xFFF#32)) = _
  simp only [h0, h1]

theorem qstat (d : BitVec 5) (q : BitVec 5) : Statement (.qstat d q) := by
  intro _ hwf
  refine ⟨_, rfl, ?_⟩
  generalize hw : (66#10 ++ d ++ q ++ 0#5 ++ 0#7 : Word) = ww; change Word at ww
  obtain ⟨hp, h0, h1, hz⟩ := layout8 66#10 (d) (q) hw
  refine decode_x hp rfl ?_ hwf hz
  show some (some (Instr.qstat (ww.extractLsb' 17 5) (ww.extractLsb' 12 5), 0xFFF#32)) = _
  simp only [h0, h1]

theorem evpop (d : BitVec 5) : Statement (.evpop d) := by
  intro _ hwf
  refine ⟨_, rfl, ?_⟩
  generalize hw : (72#10 ++ d ++ 0#17 : Word) = ww; change Word at ww
  obtain ⟨hp, h0, hz⟩ := layout14 72#10 (d) hw
  refine decode_x hp rfl ?_ hwf hz
  show some (some (Instr.evpop (ww.extractLsb' 17 5), 0x1FFFF#32)) = _
  simp only [h0]

theorem evpeek (d : BitVec 5) : Statement (.evpeek d) := by
  intro _ hwf
  refine ⟨_, rfl, ?_⟩
  generalize hw : (73#10 ++ d ++ 0#17 : Word) = ww; change Word at ww
  obtain ⟨hp, h0, hz⟩ := layout14 73#10 (d) hw
  refine decode_x hp rfl ?_ hwf hz
  show some (some (Instr.evpeek (ww.extractLsb' 17 5), 0x1FFFF#32)) = _
  simp only [h0]

theorem evcnt (d : BitVec 5) : Statement (.evcnt d) := by
  intro _ hwf
  refine ⟨_, rfl, ?_⟩
  generalize hw : (74#10 ++ d ++ 0#17 : Word) = ww; change Word at ww
  obtain ⟨hp, h0, hz⟩ := layout14 74#10 (d) hw
  refine decode_x hp rfl ?_ hwf hz
  show some (some (Instr.evcnt (ww.extractLsb' 17 5), 0x1FFFF#32)) = _
  simp only [h0]

theorem launch (d : BitVec 5) (a : BitVec 5) : Statement (.launch d a) := by
  intro _ hwf
  refine ⟨_, rfl, ?_⟩
  generalize hw : (80#10 ++ d ++ a ++ 0#12 : Word) = ww; change Word at ww
  obtain ⟨hp, h0, h1, hz⟩ := layout15 80#10 (d) (a) hw
  refine decode_x hp rfl ?_ hwf hz
  show some (some (Instr.launch (ww.extractLsb' 17 5) (ww.extractLsb' 12 5), 0xFFF#32)) = _
  simp only [h0, h1]

theorem csrr (d : BitVec 5) (c : BitVec 12) : Statement (.csrr d c) := by
  intro _ hwf
  refine ⟨_, rfl, ?_⟩
  generalize hw : (88#10 ++ d ++ 0#5 ++ c : Word) = ww; change Word at ww
  obtain ⟨hp, h0, h1, hz⟩ := layoutCsrr 88#10 (d) (c) hw
  refine decode_x hp rfl ?_ hwf hz
  show some (some (Instr.csrr (ww.extractLsb' 17 5) (ww.extractLsb' 0 12), 0x1F000#32)) = _
  simp only [h0, h1]

theorem csrw (a : BitVec 5) (c : BitVec 12) : Statement (.csrw a c) := by
  intro _ hwf
  refine ⟨_, rfl, ?_⟩
  generalize hw : (89#10 ++ 0#5 ++ a ++ c : Word) = ww; change Word at ww
  obtain ⟨hp, h0, h1, hz⟩ := layoutCsrw 89#10 (a) (c) hw
  refine decode_x hp rfl ?_ hwf hz
  show some (some (Instr.csrw (ww.extractLsb' 12 5) (ww.extractLsb' 0 12), 0x3E0000#32)) = _
  simp only [h0, h1]

theorem csrs (d : BitVec 5) (a : BitVec 5) (c : BitVec 12) : Statement (.csrs d a c) := by
  intro _ hwf
  refine ⟨_, rfl, ?_⟩
  generalize hw : (90#10 ++ d ++ a ++ c : Word) = ww; change Word at ww
  obtain ⟨hp, h0, h1, h2, hz⟩ := layout10 90#10 (d) (a) (c) hw
  refine decode_x hp rfl ?_ hwf hz
  show some (some (Instr.csrs (ww.extractLsb' 17 5) (ww.extractLsb' 12 5) (ww.extractLsb' 0 12), 0x0#32)) = _
  simp only [h0, h1, h2]

theorem csrc (d : BitVec 5) (a : BitVec 5) (c : BitVec 12) : Statement (.csrc d a c) := by
  intro _ hwf
  refine ⟨_, rfl, ?_⟩
  generalize hw : (91#10 ++ d ++ a ++ c : Word) = ww; change Word at ww
  obtain ⟨hp, h0, h1, h2, hz⟩ := layout10 91#10 (d) (a) (c) hw
  refine decode_x hp rfl ?_ hwf hz
  show some (some (Instr.csrc (ww.extractLsb' 17 5) (ww.extractLsb' 12 5) (ww.extractLsb' 0 12), 0x0#32)) = _
  simp only [h0, h1, h2]

theorem trap (c : BitVec 12) : Statement (.trap c) := by
  intro _ hwf
  refine ⟨_, rfl, ?_⟩
  generalize hw : (96#10 ++ 0#10 ++ c : Word) = ww; change Word at ww
  obtain ⟨hp, h1, hz⟩ := layout16 96#10 (c) hw
  refine decode_x hp rfl ?_ hwf hz
  show some (some (Instr.trap (ww.extractLsb' 0 12), 0x3FF000#32)) = _
  simp only [h1]

theorem eret : Statement (.eret) := by
  intro _ hwf
  refine ⟨_, rfl, ?_⟩
  generalize hw : (97#10 ++ 0#22 : Word) = ww; change Word at ww
  obtain ⟨hp, hz⟩ := layout6 97#10 hw
  refine decode_x hp rfl ?_ hwf hz
  rfl

theorem wfe : Statement (.wfe) := by
  intro _ hwf
  refine ⟨_, rfl, ?_⟩
  generalize hw : (98#10 ++ 0#22 : Word) = ww; change Word at ww
  obtain ⟨hp, hz⟩ := layout6 98#10 hw
  refine decode_x hp rfl ?_ hwf hz
  rfl

theorem anop : Statement (.anop) := by
  intro _ hwf
  refine ⟨_, rfl, ?_⟩
  generalize hw : (128#10 ++ 0#22 : Word) = ww; change Word at ww
  obtain ⟨hp, hz⟩ := layout6 128#10 hw
  refine decode_a hp rfl ?_ hwf hz
  rfl

theorem aadd (d : BitVec 5) (a : BitVec 5) (b : BitVec 5) : Statement (.aadd d a b) := by
  intro _ hwf
  refine ⟨_, rfl, ?_⟩
  generalize hw : (129#10 ++ d ++ a ++ b ++ 0#7 : Word) = ww; change Word at ww
  obtain ⟨hp, h0, h1, h2, hz⟩ := layout7 129#10 (d) (a) (b) hw
  refine decode_a hp rfl ?_ hwf hz
  show some (some (Instr.aadd (ww.extractLsb' 17 5) (ww.extractLsb' 12 5) (ww.extractLsb' 7 5), 0x7F#32)) = _
  simp only [h0, h1, h2]

theorem asub (d : BitVec 5) (a : BitVec 5) (b : BitVec 5) : Statement (.asub d a b) := by
  intro _ hwf
  refine ⟨_, rfl, ?_⟩
  generalize hw : (130#10 ++ d ++ a ++ b ++ 0#7 : Word) = ww; change Word at ww
  obtain ⟨hp, h0, h1, h2, hz⟩ := layout7 130#10 (d) (a) (b) hw
  refine decode_a hp rfl ?_ hwf hz
  show some (some (Instr.asub (ww.extractLsb' 17 5) (ww.extractLsb' 12 5) (ww.extractLsb' 7 5), 0x7F#32)) = _
  simp only [h0, h1, h2]

theorem amul (d : BitVec 5) (a : BitVec 5) (b : BitVec 5) : Statement (.amul d a b) := by
  intro _ hwf
  refine ⟨_, rfl, ?_⟩
  generalize hw : (131#10 ++ d ++ a ++ b ++ 0#7 : Word) = ww; change Word at ww
  obtain ⟨hp, h0, h1, h2, hz⟩ := layout7 131#10 (d) (a) (b) hw
  refine decode_a hp rfl ?_ hwf hz
  show some (some (Instr.amul (ww.extractLsb' 17 5) (ww.extractLsb' 12 5) (ww.extractLsb' 7 5), 0x7F#32)) = _
  simp only [h0, h1, h2]

theorem ashl (d : BitVec 5) (a : BitVec 5) (b : BitVec 5) : Statement (.ashl d a b) := by
  intro _ hwf
  refine ⟨_, rfl, ?_⟩
  generalize hw : (132#10 ++ d ++ a ++ b ++ 0#7 : Word) = ww; change Word at ww
  obtain ⟨hp, h0, h1, h2, hz⟩ := layout7 132#10 (d) (a) (b) hw
  refine decode_a hp rfl ?_ hwf hz
  show some (some (Instr.ashl (ww.extractLsb' 17 5) (ww.extractLsb' 12 5) (ww.extractLsb' 7 5), 0x7F#32)) = _
  simp only [h0, h1, h2]

theorem ashr (d : BitVec 5) (a : BitVec 5) (b : BitVec 5) : Statement (.ashr d a b) := by
  intro _ hwf
  refine ⟨_, rfl, ?_⟩
  generalize hw : (133#10 ++ d ++ a ++ b ++ 0#7 : Word) = ww; change Word at ww
  obtain ⟨hp, h0, h1, h2, hz⟩ := layout7 133#10 (d) (a) (b) hw
  refine decode_a hp rfl ?_ hwf hz
  show some (some (Instr.ashr (ww.extractLsb' 17 5) (ww.extractLsb' 12 5) (ww.extractLsb' 7 5), 0x7F#32)) = _
  simp only [h0, h1, h2]

theorem aand (d : BitVec 5) (a : BitVec 5) (b : BitVec 5) : Statement (.aand d a b) := by
  intro _ hwf
  refine ⟨_, rfl, ?_⟩
  generalize hw : (134#10 ++ d ++ a ++ b ++ 0#7 : Word) = ww; change Word at ww
  obtain ⟨hp, h0, h1, h2, hz⟩ := layout7 134#10 (d) (a) (b) hw
  refine decode_a hp rfl ?_ hwf hz
  show some (some (Instr.aand (ww.extractLsb' 17 5) (ww.extractLsb' 12 5) (ww.extractLsb' 7 5), 0x7F#32)) = _
  simp only [h0, h1, h2]

theorem amin (d : BitVec 5) (a : BitVec 5) (b : BitVec 5) : Statement (.amin d a b) := by
  intro _ hwf
  refine ⟨_, rfl, ?_⟩
  generalize hw : (135#10 ++ d ++ a ++ b ++ 0#7 : Word) = ww; change Word at ww
  obtain ⟨hp, h0, h1, h2, hz⟩ := layout7 135#10 (d) (a) (b) hw
  refine decode_a hp rfl ?_ hwf hz
  show some (some (Instr.amin (ww.extractLsb' 17 5) (ww.extractLsb' 12 5) (ww.extractLsb' 7 5), 0x7F#32)) = _
  simp only [h0, h1, h2]

theorem amax (d : BitVec 5) (a : BitVec 5) (b : BitVec 5) : Statement (.amax d a b) := by
  intro _ hwf
  refine ⟨_, rfl, ?_⟩
  generalize hw : (136#10 ++ d ++ a ++ b ++ 0#7 : Word) = ww; change Word at ww
  obtain ⟨hp, h0, h1, h2, hz⟩ := layout7 136#10 (d) (a) (b) hw
  refine decode_a hp rfl ?_ hwf hz
  show some (some (Instr.amax (ww.extractLsb' 17 5) (ww.extractLsb' 12 5) (ww.extractLsb' 7 5), 0x7F#32)) = _
  simp only [h0, h1, h2]

theorem aslt (d : BitVec 5) (a : BitVec 5) (b : BitVec 5) : Statement (.aslt d a b) := by
  intro _ hwf
  refine ⟨_, rfl, ?_⟩
  generalize hw : (137#10 ++ d ++ a ++ b ++ 0#7 : Word) = ww; change Word at ww
  obtain ⟨hp, h0, h1, h2, hz⟩ := layout7 137#10 (d) (a) (b) hw
  refine decode_a hp rfl ?_ hwf hz
  show some (some (Instr.aslt (ww.extractLsb' 17 5) (ww.extractLsb' 12 5) (ww.extractLsb' 7 5), 0x7F#32)) = _
  simp only [h0, h1, h2]

theorem aaddi (d : BitVec 5) (a : BitVec 5) (i : BitVec 12) : Statement (.aaddi d a i) := by
  intro _ hwf
  refine ⟨_, rfl, ?_⟩
  generalize hw : (138#10 ++ d ++ a ++ i : Word) = ww; change Word at ww
  obtain ⟨hp, h0, h1, h2, hz⟩ := layout10 138#10 (d) (a) (i) hw
  refine decode_a hp rfl ?_ hwf hz
  show some (some (Instr.aaddi (ww.extractLsb' 17 5) (ww.extractLsb' 12 5) (ww.extractLsb' 0 12), 0x0#32)) = _
  simp only [h0, h1, h2]

theorem alui (d : BitVec 5) (i : BitVec 17) : Statement (.alui d i) := by
  intro _ hwf
  refine ⟨_, rfl, ?_⟩
  generalize hw : (139#10 ++ d ++ i : Word) = ww; change Word at ww
  obtain ⟨hp, h0, h1, hz⟩ := layout11 139#10 (d) (i) hw
  refine decode_a hp rfl ?_ hwf hz
  show some (some (Instr.alui (ww.extractLsb' 17 5) (ww.extractLsb' 0 17), 0x0#32)) = _
  simp only [h0, h1]

theorem aandi (d : BitVec 5) (a : BitVec 5) (i : BitVec 12) : Statement (.aandi d a i) := by
  intro _ hwf
  refine ⟨_, rfl, ?_⟩
  generalize hw : (140#10 ++ d ++ a ++ i : Word) = ww; change Word at ww
  obtain ⟨hp, h0, h1, h2, hz⟩ := layout10 140#10 (d) (a) (i) hw
  refine decode_a hp rfl ?_ hwf hz
  show some (some (Instr.aandi (ww.extractLsb' 17 5) (ww.extractLsb' 12 5) (ww.extractLsb' 0 12), 0x0#32)) = _
  simp only [h0, h1, h2]

theorem ashli (d : BitVec 5) (a : BitVec 5) (s : BitVec 12) : Statement (.ashli d a s) := by
  intro _ hwf
  refine ⟨_, rfl, ?_⟩
  generalize hw : (141#10 ++ d ++ a ++ s : Word) = ww; change Word at ww
  obtain ⟨hp, h0, h1, h2, hz⟩ := layout10 141#10 (d) (a) (s) hw
  refine decode_a hp rfl ?_ hwf hz
  show some (some (Instr.ashli (ww.extractLsb' 17 5) (ww.extractLsb' 12 5) (ww.extractLsb' 0 12), 0x0#32)) = _
  simp only [h0, h1, h2]

theorem ld (d : BitVec 5) (b : BitVec 5) (z : MSize) (u : Bool) (o : BitVec 9) : Statement (.ld d b z u o) := by
  intro _ hwf
  refine ⟨_, rfl, ?_⟩
  generalize hw : (144#10 ++ d ++ b ++ z.bits ++ BitVec.ofBool u ++ o : Word) = ww; change Word at ww
  obtain ⟨hp, h0, h1, h2, h3, h4, hz⟩ := layout17 144#10 (d) (b) (z.bits) (BitVec.ofBool u) (o) hw
  have v3 := bit1 h3
  refine decode_a hp rfl ?_ hwf hz
  show some (some (Instr.ld (ww.extractLsb' 17 5) (ww.extractLsb' 12 5) (MSize.ofBits (ww.extractLsb' 10 2)) (ww.getLsbD 9) (ww.extractLsb' 0 9), 0x0#32)) = _
  simp only [h0, h1, h2, v3, h4, sizeBits]

theorem ldq (q : BitVec 5) (b : BitVec 5) (z : MSize) (u : Bool) (o : BitVec 9) : Statement (.ldq q b z u o) := by
  intro _ hwf
  refine ⟨_, rfl, ?_⟩
  generalize hw : (145#10 ++ q ++ b ++ z.bits ++ BitVec.ofBool u ++ o : Word) = ww; change Word at ww
  obtain ⟨hp, h0, h1, h2, h3, h4, hz⟩ := layout17 145#10 (q) (b) (z.bits) (BitVec.ofBool u) (o) hw
  have v3 := bit1 h3
  refine decode_a hp rfl ?_ hwf hz
  show some (some (Instr.ldq (ww.extractLsb' 17 5) (ww.extractLsb' 12 5) (MSize.ofBits (ww.extractLsb' 10 2)) (ww.getLsbD 9) (ww.extractLsb' 0 9), 0x0#32)) = _
  simp only [h0, h1, h2, v3, h4, sizeBits]

theorem ldv (q : BitVec 5) (a : BitVec 5) (n : BitVec 7) : Statement (.ldv q a n) := by
  intro _ hwf
  refine ⟨_, rfl, ?_⟩
  generalize hw : (146#10 ++ q ++ a ++ 0#5 ++ n : Word) = ww; change Word at ww
  obtain ⟨hp, h0, h1, h3, hz⟩ := layout13 146#10 (q) (a) (n) hw
  refine decode_a hp rfl ?_ hwf hz
  show some (some (Instr.ldv (ww.extractLsb' 17 5) (ww.extractLsb' 12 5) (ww.extractLsb' 0 7), 0xF80#32)) = _
  simp only [h0, h1, h3]

theorem st (s : BitVec 5) (b : BitVec 5) (z : MSize) (o : BitVec 9) : Statement (.st s b z o) := by
  intro _ hwf
  refine ⟨_, rfl, ?_⟩
  generalize hw : (147#10 ++ s ++ b ++ z.bits ++ 0#1 ++ o : Word) = ww; change Word at ww
  obtain ⟨hp, h0, h1, h2, h4, hz⟩ := layout18 147#10 (s) (b) (z.bits) (o) hw
  refine decode_a hp rfl ?_ hwf hz
  show some (some (Instr.st (ww.extractLsb' 17 5) (ww.extractLsb' 12 5) (MSize.ofBits (ww.extractLsb' 10 2)) (ww.extractLsb' 0 9), 0x200#32)) = _
  simp only [h0, h1, h2, h4, sizeBits]

theorem stq (q : BitVec 5) (b : BitVec 5) (z : MSize) (o : BitVec 9) : Statement (.stq q b z o) := by
  intro _ hwf
  refine ⟨_, rfl, ?_⟩
  generalize hw : (148#10 ++ q ++ b ++ z.bits ++ 0#1 ++ o : Word) = ww; change Word at ww
  obtain ⟨hp, h0, h1, h2, h4, hz⟩ := layout18 148#10 (q) (b) (z.bits) (o) hw
  refine decode_a hp rfl ?_ hwf hz
  show some (some (Instr.stq (ww.extractLsb' 17 5) (ww.extractLsb' 12 5) (MSize.ofBits (ww.extractLsb' 10 2)) (ww.extractLsb' 0 9), 0x200#32)) = _
  simp only [h0, h1, h2, h4, sizeBits]

theorem stv (q : BitVec 5) (a : BitVec 5) (n : BitVec 7) : Statement (.stv q a n) := by
  intro _ hwf
  refine ⟨_, rfl, ?_⟩
  generalize hw : (149#10 ++ q ++ a ++ 0#5 ++ n : Word) = ww; change Word at ww
  obtain ⟨hp, h0, h1, h3, hz⟩ := layout13 149#10 (q) (a) (n) hw
  refine decode_a hp rfl ?_ hwf hz
  show some (some (Instr.stv (ww.extractLsb' 17 5) (ww.extractLsb' 12 5) (ww.extractLsb' 0 7), 0xF80#32)) = _
  simp only [h0, h1, h3]

theorem pref (l : BitVec 5) (b : BitVec 5) (z : MSize) (o : BitVec 9) : Statement (.pref l b z o) := by
  intro _ hwf
  refine ⟨_, rfl, ?_⟩
  generalize hw : (150#10 ++ l ++ b ++ z.bits ++ 0#1 ++ o : Word) = ww; change Word at ww
  obtain ⟨hp, h0, h1, h2, h4, hz⟩ := layout18 150#10 (l) (b) (z.bits) (o) hw
  refine decode_a hp rfl ?_ hwf hz
  show some (some (Instr.pref (ww.extractLsb' 17 5) (ww.extractLsb' 12 5) (MSize.ofBits (ww.extractLsb' 10 2)) (ww.extractLsb' 0 9), 0x200#32)) = _
  simp only [h0, h1, h2, h4, sizeBits]

theorem amoadd (d : BitVec 5) (a : BitVec 5) (b : BitVec 5) (w : Bool) : Statement (.amoadd d a b w) := by
  intro _ hwf
  refine ⟨_, rfl, ?_⟩
  generalize hw : (152#10 ++ d ++ a ++ b ++ BitVec.ofBool w ++ 0#6 : Word) = ww; change Word at ww
  obtain ⟨hp, h0, h1, h2, h3, hz⟩ := layout19 152#10 (d) (a) (b) (BitVec.ofBool w) hw
  have v3 := bit1 h3
  refine decode_a hp rfl ?_ hwf hz
  show some (some (Instr.amoadd (ww.extractLsb' 17 5) (ww.extractLsb' 12 5) (ww.extractLsb' 7 5) (ww.getLsbD 6), 0x3F#32)) = _
  simp only [h0, h1, h2, v3]

theorem amoswap (d : BitVec 5) (a : BitVec 5) (b : BitVec 5) (w : Bool) : Statement (.amoswap d a b w) := by
  intro _ hwf
  refine ⟨_, rfl, ?_⟩
  generalize hw : (153#10 ++ d ++ a ++ b ++ BitVec.ofBool w ++ 0#6 : Word) = ww; change Word at ww
  obtain ⟨hp, h0, h1, h2, h3, hz⟩ := layout19 153#10 (d) (a) (b) (BitVec.ofBool w) hw
  have v3 := bit1 h3
  refine decode_a hp rfl ?_ hwf hz
  show some (some (Instr.amoswap (ww.extractLsb' 17 5) (ww.extractLsb' 12 5) (ww.extractLsb' 7 5) (ww.getLsbD 6), 0x3F#32)) = _
  simp only [h0, h1, h2, v3]

theorem amocas (d : BitVec 5) (a : BitVec 5) (b : BitVec 5) (w : Bool) : Statement (.amocas d a b w) := by
  intro _ hwf
  refine ⟨_, rfl, ?_⟩
  generalize hw : (154#10 ++ d ++ a ++ b ++ BitVec.ofBool w ++ 0#6 : Word) = ww; change Word at ww
  obtain ⟨hp, h0, h1, h2, h3, hz⟩ := layout19 154#10 (d) (a) (b) (BitVec.ofBool w) hw
  have v3 := bit1 h3
  refine decode_a hp rfl ?_ hwf hz
  show some (some (Instr.amocas (ww.extractLsb' 17 5) (ww.extractLsb' 12 5) (ww.extractLsb' 7 5) (ww.getLsbD 6), 0x3F#32)) = _
  simp only [h0, h1, h2, v3]

theorem amologic (d : BitVec 5) (a : BitVec 5) (b : BitVec 5) (w : Bool) (o : BitVec 2) : Statement (.amologic d a b w o) := by
  intro _ hwf
  refine ⟨_, rfl, ?_⟩
  generalize hw : (155#10 ++ d ++ a ++ b ++ BitVec.ofBool w ++ 0#4 ++ o : Word) = ww; change Word at ww
  obtain ⟨hp, h0, h1, h2, h3, h5, hz⟩ := layout20 155#10 (d) (a) (b) (BitVec.ofBool w) (o) hw
  have v3 := bit1 h3
  refine decode_a hp rfl ?_ hwf hz
  show some (some (Instr.amologic (ww.extractLsb' 17 5) (ww.extractLsb' 12 5) (ww.extractLsb' 7 5) (ww.getLsbD 6) (ww.extractLsb' 0 2), 0x3C#32)) = _
  simp only [h0, h1, h2, v3, h5]

theorem amominmax (d : BitVec 5) (a : BitVec 5) (b : BitVec 5) (w : Bool) (o : BitVec 2) : Statement (.amominmax d a b w o) := by
  intro _ hwf
  refine ⟨_, rfl, ?_⟩
  generalize hw : (156#10 ++ d ++ a ++ b ++ BitVec.ofBool w ++ 0#4 ++ o : Word) = ww; change Word at ww
  obtain ⟨hp, h0, h1, h2, h3, h5, hz⟩ := layout20 156#10 (d) (a) (b) (BitVec.ofBool w) (o) hw
  have v3 := bit1 h3
  refine decode_a hp rfl ?_ hwf hz
  show some (some (Instr.amominmax (ww.extractLsb' 17 5) (ww.extractLsb' 12 5) (ww.extractLsb' 7 5) (ww.getLsbD 6) (ww.extractLsb' 0 2), 0x3C#32)) = _
  simp only [h0, h1, h2, v3, h5]

theorem amofadd (d : BitVec 5) (a : BitVec 5) (b : BitVec 5) : Statement (.amofadd d a b) := by
  intro _ hwf
  refine ⟨_, rfl, ?_⟩
  generalize hw : (157#10 ++ d ++ a ++ b ++ 0#1 ++ 0#6 : Word) = ww; change Word at ww
  obtain ⟨hp, h0, h1, h2, h3, hz⟩ := layout19 157#10 (d) (a) (b) (0#1) hw
  refine decode_a hp rfl ?_ hwf hz
  show some (if ww.extractLsb' 6 1 == 0#1 then some (Instr.amofadd (ww.extractLsb' 17 5) (ww.extractLsb' 12 5) (ww.extractLsb' 7 5), 0x3F#32) else none) = _
  simp only [h0, h1, h2, h3]
  rfl

theorem flagwait (a : BitVec 5) (b : BitVec 5) : Statement (.flagwait a b) := by
  intro _ hwf
  refine ⟨_, rfl, ?_⟩
  generalize hw : (160#10 ++ 0#5 ++ a ++ b ++ 0#7 : Word) = ww; change Word at ww
  obtain ⟨hp, h1, h2, hz⟩ := layout21 160#10 (a) (b) hw
  refine decode_a hp rfl ?_ hwf hz
  show some (some (Instr.flagwait (ww.extractLsb' 12 5) (ww.extractLsb' 7 5), 0x3E007F#32)) = _
  simp only [h1, h2]

theorem flaginc (a : BitVec 5) (b : BitVec 5) : Statement (.flaginc a b) := by
  intro _ hwf
  refine ⟨_, rfl, ?_⟩
  generalize hw : (161#10 ++ 0#5 ++ a ++ b ++ 0#7 : Word) = ww; change Word at ww
  obtain ⟨hp, h1, h2, hz⟩ := layout21 161#10 (a) (b) hw
  refine decode_a hp rfl ?_ hwf hz
  show some (some (Instr.flaginc (ww.extractLsb' 12 5) (ww.extractLsb' 7 5), 0x3E007F#32)) = _
  simp only [h1, h2]

theorem flagset (a : BitVec 5) (b : BitVec 5) : Statement (.flagset a b) := by
  intro _ hwf
  refine ⟨_, rfl, ?_⟩
  generalize hw : (162#10 ++ 0#5 ++ a ++ b ++ 0#7 : Word) = ww; change Word at ww
  obtain ⟨hp, h1, h2, hz⟩ := layout21 162#10 (a) (b) hw
  refine decode_a hp rfl ?_ hwf hz
  show some (some (Instr.flagset (ww.extractLsb' 12 5) (ww.extractLsb' 7 5), 0x3E007F#32)) = _
  simp only [h1, h2]

theorem flagread (d : BitVec 5) (a : BitVec 5) : Statement (.flagread d a) := by
  intro _ hwf
  refine ⟨_, rfl, ?_⟩
  generalize hw : (163#10 ++ d ++ a ++ 0#5 ++ 0#7 : Word) = ww; change Word at ww
  obtain ⟨hp, h0, h1, hz⟩ := layout8 163#10 (d) (a) hw
  refine decode_a hp rfl ?_ hwf hz
  show some (some (Instr.flagread (ww.extractLsb' 17 5) (ww.extractLsb' 12 5), 0xFFF#32)) = _
  simp only [h0, h1]

theorem bararm (a : BitVec 5) (b : BitVec 5) : Statement (.bararm a b) := by
  intro _ hwf
  refine ⟨_, rfl, ?_⟩
  generalize hw : (164#10 ++ 0#5 ++ a ++ b ++ 0#7 : Word) = ww; change Word at ww
  obtain ⟨hp, h1, h2, hz⟩ := layout21 164#10 (a) (b) hw
  refine decode_a hp rfl ?_ hwf hz
  show some (some (Instr.bararm (ww.extractLsb' 12 5) (ww.extractLsb' 7 5), 0x3E007F#32)) = _
  simp only [h1, h2]

theorem barwait (a : BitVec 5) : Statement (.barwait a) := by
  intro _ hwf
  refine ⟨_, rfl, ?_⟩
  generalize hw : (165#10 ++ 0#5 ++ a ++ 0#5 ++ 0#7 : Word) = ww; change Word at ww
  obtain ⟨hp, h1, hz⟩ := layout22 165#10 (a) hw
  refine decode_a hp rfl ?_ hwf hz
  show some (some (Instr.barwait (ww.extractLsb' 12 5), 0x3E0FFF#32)) = _
  simp only [h1]

theorem copy (a : BitVec 5) (b : BitVec 5) (k : BitVec 2) (q : BitVec 5) : Statement (.copy a b k q) := by
  intro _ hwf
  refine ⟨_, rfl, ?_⟩
  generalize hw : (168#10 ++ 0#5 ++ a ++ b ++ k ++ q : Word) = ww; change Word at ww
  obtain ⟨hp, h1, h2, h3, h4, hz⟩ := layout23 168#10 (a) (b) (k) (q) hw
  refine decode_a hp rfl ?_ hwf hz
  show some (some (Instr.copy (ww.extractLsb' 12 5) (ww.extractLsb' 7 5) (ww.extractLsb' 5 2) (ww.extractLsb' 0 5), 0x3E0000#32)) = _
  simp only [h1, h2, h3, h4]

theorem copy2d (a : BitVec 5) (b : BitVec 5) (k : BitVec 2) (q : BitVec 5) : Statement (.copy2d a b k q) := by
  intro _ hwf
  refine ⟨_, rfl, ?_⟩
  generalize hw : (169#10 ++ 0#5 ++ a ++ b ++ k ++ q : Word) = ww; change Word at ww
  obtain ⟨hp, h1, h2, h3, h4, hz⟩ := layout23 169#10 (a) (b) (k) (q) hw
  refine decode_a hp rfl ?_ hwf hz
  show some (some (Instr.copy2d (ww.extractLsb' 12 5) (ww.extractLsb' 7 5) (ww.extractLsb' 5 2) (ww.extractLsb' 0 5), 0x3E0000#32)) = _
  simp only [h1, h2, h3, h4]

theorem gather (a : BitVec 5) (b : BitVec 5) (k : BitVec 2) (q : BitVec 5) : Statement (.gather a b k q) := by
  intro _ hwf
  refine ⟨_, rfl, ?_⟩
  generalize hw : (170#10 ++ 0#5 ++ a ++ b ++ k ++ q : Word) = ww; change Word at ww
  obtain ⟨hp, h1, h2, h3, h4, hz⟩ := layout23 170#10 (a) (b) (k) (q) hw
  refine decode_a hp rfl ?_ hwf hz
  show some (some (Instr.gather (ww.extractLsb' 12 5) (ww.extractLsb' 7 5) (ww.extractLsb' 5 2) (ww.extractLsb' 0 5), 0x3E0000#32)) = _
  simp only [h1, h2, h3, h4]

theorem scatter (a : BitVec 5) (b : BitVec 5) (k : BitVec 2) (q : BitVec 5) : Statement (.scatter a b k q) := by
  intro _ hwf
  refine ⟨_, rfl, ?_⟩
  generalize hw : (171#10 ++ 0#5 ++ a ++ b ++ k ++ q : Word) = ww; change Word at ww
  obtain ⟨hp, h1, h2, h3, h4, hz⟩ := layout23 171#10 (a) (b) (k) (q) hw
  refine decode_a hp rfl ?_ hwf hz
  show some (some (Instr.scatter (ww.extractLsb' 12 5) (ww.extractLsb' 7 5) (ww.extractLsb' 5 2) (ww.extractLsb' 0 5), 0x3E0000#32)) = _
  simp only [h1, h2, h3, h4]

theorem xfer (a : BitVec 5) (b : BitVec 5) (k : BitVec 2) (q : BitVec 5) : Statement (.xfer a b k q) := by
  intro _ hwf
  refine ⟨_, rfl, ?_⟩
  generalize hw : (172#10 ++ 0#5 ++ a ++ b ++ k ++ q : Word) = ww; change Word at ww
  obtain ⟨hp, h1, h2, h3, h4, hz⟩ := layout23 172#10 (a) (b) (k) (q) hw
  refine decode_a hp rfl ?_ hwf hz
  show some (some (Instr.xfer (ww.extractLsb' 12 5) (ww.extractLsb' 7 5) (ww.extractLsb' 5 2) (ww.extractLsb' 0 5), 0x3E0000#32)) = _
  simp only [h1, h2, h3, h4]

theorem xferm (a : BitVec 5) (b : BitVec 5) (k : BitVec 2) (q : BitVec 5) : Statement (.xferm a b k q) := by
  intro _ hwf
  refine ⟨_, rfl, ?_⟩
  generalize hw : (173#10 ++ 0#5 ++ a ++ b ++ k ++ q : Word) = ww; change Word at ww
  obtain ⟨hp, h1, h2, h3, h4, hz⟩ := layout23 173#10 (a) (b) (k) (q) hw
  refine decode_a hp rfl ?_ hwf hz
  show some (some (Instr.xferm (ww.extractLsb' 12 5) (ww.extractLsb' 7 5) (ww.extractLsb' 5 2) (ww.extractLsb' 0 5), 0x3E0000#32)) = _
  simp only [h1, h2, h3, h4]

theorem notify (a : BitVec 5) (k : BitVec 2) (q : BitVec 5) : Statement (.notify a k q) := by
  intro _ hwf
  refine ⟨_, rfl, ?_⟩
  generalize hw : (174#10 ++ 0#5 ++ a ++ 0#5 ++ k ++ q : Word) = ww; change Word at ww
  obtain ⟨hp, h1, h3, h4, hz⟩ := layout24 174#10 (a) (k) (q) hw
  refine decode_a hp rfl ?_ hwf hz
  show some (some (Instr.notify (ww.extractLsb' 12 5) (ww.extractLsb' 5 2) (ww.extractLsb' 0 5), 0x3E0F80#32)) = _
  simp only [h1, h3, h4]

theorem mapinst (a : BitVec 5) (b : BitVec 5) : Statement (.mapinst a b) := by
  intro _ hwf
  refine ⟨_, rfl, ?_⟩
  generalize hw : (176#10 ++ 0#5 ++ a ++ b ++ 0#7 : Word) = ww; change Word at ww
  obtain ⟨hp, h1, h2, hz⟩ := layout21 176#10 (a) (b) hw
  refine decode_a hp rfl ?_ hwf hz
  show some (some (Instr.mapinst (ww.extractLsb' 12 5) (ww.extractLsb' 7 5), 0x3E007F#32)) = _
  simp only [h1, h2]

theorem mapswap (a : BitVec 5) (b : BitVec 5) : Statement (.mapswap a b) := by
  intro _ hwf
  refine ⟨_, rfl, ?_⟩
  generalize hw : (177#10 ++ 0#5 ++ a ++ b ++ 0#7 : Word) = ww; change Word at ww
  obtain ⟨hp, h1, h2, hz⟩ := layout21 177#10 (a) (b) hw
  refine decode_a hp rfl ?_ hwf hz
  show some (some (Instr.mapswap (ww.extractLsb' 12 5) (ww.extractLsb' 7 5), 0x3E007F#32)) = _
  simp only [h1, h2]

theorem mapret (b : BitVec 5) : Statement (.mapret b) := by
  intro _ hwf
  refine ⟨_, rfl, ?_⟩
  generalize hw : (178#10 ++ 0#5 ++ 0#5 ++ b ++ 0#7 : Word) = ww; change Word at ww
  obtain ⟨hp, h2, hz⟩ := layout25 178#10 (b) hw
  refine decode_a hp rfl ?_ hwf hz
  show some (some (Instr.mapret (ww.extractLsb' 7 5), 0x3FF07F#32)) = _
  simp only [h2]

theorem mapq (d : BitVec 5) (b : BitVec 5) : Statement (.mapq d b) := by
  intro _ hwf
  refine ⟨_, rfl, ?_⟩
  generalize hw : (179#10 ++ d ++ 0#5 ++ b ++ 0#7 : Word) = ww; change Word at ww
  obtain ⟨hp, h0, h2, hz⟩ := layout26 179#10 (d) (b) hw
  refine decode_a hp rfl ?_ hwf hz
  show some (some (Instr.mapq (ww.extractLsb' 17 5) (ww.extractLsb' 7 5), 0x1F07F#32)) = _
  simp only [h0, h2]

theorem fencex (m : BitVec 6) (n : BitVec 6) : Statement (.fencex m n) := by
  intro _ hwf
  refine ⟨_, rfl, ?_⟩
  generalize hw : (180#10 ++ 0#5 ++ 0#5 ++ m ++ n : Word) = ww; change Word at ww
  obtain ⟨hp, h2, h3, hz⟩ := layout27 180#10 (m) (n) hw
  refine decode_a hp rfl ?_ hwf hz
  show some (some (Instr.fencex (ww.extractLsb' 6 6) (ww.extractLsb' 0 6), 0x3FF000#32)) = _
  simp only [h2, h3]

theorem mark (d : BitVec 5) (m : BitVec 6) : Statement (.mark d m) := by
  intro _ hwf
  refine ⟨_, rfl, ?_⟩
  generalize hw : (181#10 ++ d ++ 0#5 ++ m ++ 0#6 : Word) = ww; change Word at ww
  obtain ⟨hp, h0, h2, hz⟩ := layout28 181#10 (d) (m) hw
  refine decode_a hp rfl ?_ hwf hz
  show some (some (Instr.mark (ww.extractLsb' 17 5) (ww.extractLsb' 6 6), 0x1F03F#32)) = _
  simp only [h0, h2]

theorem join (a : BitVec 5) (n : BitVec 6) : Statement (.join a n) := by
  intro _ hwf
  refine ⟨_, rfl, ?_⟩
  generalize hw : (182#10 ++ 0#5 ++ a ++ 0#6 ++ n : Word) = ww; change Word at ww
  obtain ⟨hp, h1, h3, hz⟩ := layout29 182#10 (a) (n) hw
  refine decode_a hp rfl ?_ hwf hz
  show some (some (Instr.join (ww.extractLsb' 12 5) (ww.extractLsb' 0 6), 0x3E0FC0#32)) = _
  simp only [h1, h3]

theorem rld (a : BitVec 5) (b : BitVec 5) (s : BitVec 4) : Statement (.rld a b s) := by
  intro _ hwf
  refine ⟨_, rfl, ?_⟩
  generalize hw : (184#10 ++ 0#5 ++ a ++ b ++ 0#3 ++ s : Word) = ww; change Word at ww
  obtain ⟨hp, h1, h2, h4, hz⟩ := layout30 184#10 (a) (b) (s) hw
  refine decode_a hp rfl ?_ hwf hz
  show some (some (Instr.rld (ww.extractLsb' 12 5) (ww.extractLsb' 7 5) (ww.extractLsb' 0 4), 0x3E0070#32)) = _
  simp only [h1, h2, h4]

theorem rst (a : BitVec 5) (b : BitVec 5) (f : Bool) (s : BitVec 4) : Statement (.rst a b f s) := by
  intro _ hwf
  refine ⟨_, rfl, ?_⟩
  generalize hw : (185#10 ++ 0#5 ++ a ++ b ++ 0#2 ++ BitVec.ofBool f ++ s : Word) = ww; change Word at ww
  obtain ⟨hp, h1, h2, h4, h5, hz⟩ := layout31 185#10 (a) (b) (BitVec.ofBool f) (s) hw
  have v4 := bit1 h4
  refine decode_a hp rfl ?_ hwf hz
  show some (some (Instr.rst (ww.extractLsb' 12 5) (ww.extractLsb' 7 5) (ww.getLsbD 4) (ww.extractLsb' 0 4), 0x3E0060#32)) = _
  simp only [h1, h2, v4, h5]

theorem rstf (a : BitVec 5) (b : BitVec 5) (o : Bool) (f : Bool) (s : BitVec 4) : Statement (.rstf a b o f s) := by
  intro _ hwf
  refine ⟨_, rfl, ?_⟩
  generalize hw : (186#10 ++ 0#5 ++ a ++ b ++ 0#1 ++ BitVec.ofBool o ++ BitVec.ofBool f ++ s : Word) = ww; change Word at ww
  obtain ⟨hp, h1, h2, h4, h5, h6, hz⟩ := layout32 186#10 (a) (b) (BitVec.ofBool o) (BitVec.ofBool f) (s) hw
  have v4 := bit1 h4
  have v5 := bit1 h5
  refine decode_a hp rfl ?_ hwf hz
  show some (some (Instr.rstf (ww.extractLsb' 12 5) (ww.extractLsb' 7 5) (ww.getLsbD 5) (ww.getLsbD 4) (ww.extractLsb' 0 4), 0x3E0040#32)) = _
  simp only [h1, h2, v4, v5, h6]

theorem ramo (a : BitVec 5) (b : BitVec 5) (f : Bool) (s : BitVec 4) : Statement (.ramo a b f s) := by
  intro _ hwf
  refine ⟨_, rfl, ?_⟩
  generalize hw : (187#10 ++ 0#5 ++ a ++ b ++ 0#2 ++ BitVec.ofBool f ++ s : Word) = ww; change Word at ww
  obtain ⟨hp, h1, h2, h4, h5, hz⟩ := layout31 187#10 (a) (b) (BitVec.ofBool f) (s) hw
  have v4 := bit1 h4
  refine decode_a hp rfl ?_ hwf hz
  show some (some (Instr.ramo (ww.extractLsb' 12 5) (ww.extractLsb' 7 5) (ww.getLsbD 4) (ww.extractLsb' 0 4), 0x3E0060#32)) = _
  simp only [h1, h2, v4, h5]

theorem tidset (a : BitVec 5) (t : BitVec 8) : Statement (.tidset a t) := by
  intro _ hwf
  refine ⟨_, rfl, ?_⟩
  generalize hw : (192#10 ++ 0#5 ++ a ++ t ++ 0#4 : Word) = ww; change Word at ww
  obtain ⟨hp, h1, h2, hz⟩ := layout33 192#10 (a) (t) hw
  refine decode_a hp rfl ?_ hwf hz
  show some (some (Instr.tidset (ww.extractLsb' 12 5) (ww.extractLsb' 4 8), 0x3E000F#32)) = _
  simp only [h1, h2]

theorem tidinv (t : BitVec 8) : Statement (.tidinv t) := by
  intro _ hwf
  refine ⟨_, rfl, ?_⟩
  generalize hw : (193#10 ++ 0#5 ++ 0#5 ++ t ++ 0#4 : Word) = ww; change Word at ww
  obtain ⟨hp, h2, hz⟩ := layout34 193#10 (t) hw
  refine decode_a hp rfl ?_ hwf hz
  show some (some (Instr.tidinv (ww.extractLsb' 4 8), 0x3FF00F#32)) = _
  simp only [h2]

theorem tidget (a : BitVec 5) (t : BitVec 8) : Statement (.tidget a t) := by
  intro _ hwf
  refine ⟨_, rfl, ?_⟩
  generalize hw : (194#10 ++ 0#5 ++ a ++ t ++ 0#4 : Word) = ww; change Word at ww
  obtain ⟨hp, h1, h2, hz⟩ := layout33 194#10 (a) (t) hw
  refine decode_a hp rfl ?_ hwf hz
  show some (some (Instr.tidget (ww.extractLsb' 12 5) (ww.extractLsb' 4 8), 0x3E000F#32)) = _
  simp only [h1, h2]

theorem tlbinv (a : BitVec 5) (s : BitVec 7) : Statement (.tlbinv a s) := by
  intro _ hwf
  refine ⟨_, rfl, ?_⟩
  generalize hw : (200#10 ++ 0#5 ++ a ++ 0#5 ++ s : Word) = ww; change Word at ww
  obtain ⟨hp, h1, h3, hz⟩ := layout35 200#10 (a) (s) hw
  refine decode_a hp rfl ?_ hwf hz
  show some (some (Instr.tlbinv (ww.extractLsb' 12 5) (ww.extractLsb' 0 7), 0x3E0F80#32)) = _
  simp only [h1, h3]

theorem asidset (a : BitVec 5) : Statement (.asidset a) := by
  intro _ hwf
  refine ⟨_, rfl, ?_⟩
  generalize hw : (201#10 ++ 0#5 ++ a ++ 0#12 : Word) = ww; change Word at ww
  obtain ⟨hp, h1, hz⟩ := layout36 201#10 (a) hw
  refine decode_a hp rfl ?_ hwf hz
  show some (some (Instr.asidset (ww.extractLsb' 12 5), 0x3E0FFF#32)) = _
  simp only [h1]

theorem vaddF (d : VOp) (a : VOp) (b : VOp) (m : Bool) : Statement (.vaddF d a b m) := by
  intro _ hwf
  refine ⟨_, rfl, ?_⟩
  generalize hw : (256#10 ++ d.bits ++ a.bits ++ b.bits ++ BitVec.ofBool m : Word) = ww; change Word at ww
  obtain ⟨hp, h0, h1, h2, h3, hz⟩ := layout37 256#10 (d.bits) (a.bits) (b.bits) (BitVec.ofBool m) hw
  have v0 := vopOf 15 h0
  have v1 := vopOf 8 h1
  have v2 := vopOf 1 h2
  have v3 := bit1 h3
  refine decode_v hp rfl ?_ hwf hz
  show some (some (Instr.vaddF (vopAt ww 15) (vopAt ww 8) (vopAt ww 1) (ww.getLsbD 0), 0x0#32)) = _
  simp only [v0, v1, v2, v3]

theorem vsubF (d : VOp) (a : VOp) (b : VOp) (m : Bool) : Statement (.vsubF d a b m) := by
  intro _ hwf
  refine ⟨_, rfl, ?_⟩
  generalize hw : (257#10 ++ d.bits ++ a.bits ++ b.bits ++ BitVec.ofBool m : Word) = ww; change Word at ww
  obtain ⟨hp, h0, h1, h2, h3, hz⟩ := layout37 257#10 (d.bits) (a.bits) (b.bits) (BitVec.ofBool m) hw
  have v0 := vopOf 15 h0
  have v1 := vopOf 8 h1
  have v2 := vopOf 1 h2
  have v3 := bit1 h3
  refine decode_v hp rfl ?_ hwf hz
  show some (some (Instr.vsubF (vopAt ww 15) (vopAt ww 8) (vopAt ww 1) (ww.getLsbD 0), 0x0#32)) = _
  simp only [v0, v1, v2, v3]

theorem vmulF (d : VOp) (a : VOp) (b : VOp) (m : Bool) : Statement (.vmulF d a b m) := by
  intro _ hwf
  refine ⟨_, rfl, ?_⟩
  generalize hw : (258#10 ++ d.bits ++ a.bits ++ b.bits ++ BitVec.ofBool m : Word) = ww; change Word at ww
  obtain ⟨hp, h0, h1, h2, h3, hz⟩ := layout37 258#10 (d.bits) (a.bits) (b.bits) (BitVec.ofBool m) hw
  have v0 := vopOf 15 h0
  have v1 := vopOf 8 h1
  have v2 := vopOf 1 h2
  have v3 := bit1 h3
  refine decode_v hp rfl ?_ hwf hz
  show some (some (Instr.vmulF (vopAt ww 15) (vopAt ww 8) (vopAt ww 1) (ww.getLsbD 0), 0x0#32)) = _
  simp only [v0, v1, v2, v3]

theorem vfmaF (d : VOp) (a : VOp) (b : VOp) (m : Bool) : Statement (.vfmaF d a b m) := by
  intro _ hwf
  refine ⟨_, rfl, ?_⟩
  generalize hw : (259#10 ++ d.bits ++ a.bits ++ b.bits ++ BitVec.ofBool m : Word) = ww; change Word at ww
  obtain ⟨hp, h0, h1, h2, h3, hz⟩ := layout37 259#10 (d.bits) (a.bits) (b.bits) (BitVec.ofBool m) hw
  have v0 := vopOf 15 h0
  have v1 := vopOf 8 h1
  have v2 := vopOf 1 h2
  have v3 := bit1 h3
  refine decode_v hp rfl ?_ hwf hz
  show some (some (Instr.vfmaF (vopAt ww 15) (vopAt ww 8) (vopAt ww 1) (ww.getLsbD 0), 0x0#32)) = _
  simp only [v0, v1, v2, v3]

theorem vfmsF (d : VOp) (a : VOp) (b : VOp) (m : Bool) : Statement (.vfmsF d a b m) := by
  intro _ hwf
  refine ⟨_, rfl, ?_⟩
  generalize hw : (260#10 ++ d.bits ++ a.bits ++ b.bits ++ BitVec.ofBool m : Word) = ww; change Word at ww
  obtain ⟨hp, h0, h1, h2, h3, hz⟩ := layout37 260#10 (d.bits) (a.bits) (b.bits) (BitVec.ofBool m) hw
  have v0 := vopOf 15 h0
  have v1 := vopOf 8 h1
  have v2 := vopOf 1 h2
  have v3 := bit1 h3
  refine decode_v hp rfl ?_ hwf hz
  show some (some (Instr.vfmsF (vopAt ww 15) (vopAt ww 8) (vopAt ww 1) (ww.getLsbD 0), 0x0#32)) = _
  simp only [v0, v1, v2, v3]

theorem vminF (d : VOp) (a : VOp) (b : VOp) (m : Bool) : Statement (.vminF d a b m) := by
  intro _ hwf
  refine ⟨_, rfl, ?_⟩
  generalize hw : (261#10 ++ d.bits ++ a.bits ++ b.bits ++ BitVec.ofBool m : Word) = ww; change Word at ww
  obtain ⟨hp, h0, h1, h2, h3, hz⟩ := layout37 261#10 (d.bits) (a.bits) (b.bits) (BitVec.ofBool m) hw
  have v0 := vopOf 15 h0
  have v1 := vopOf 8 h1
  have v2 := vopOf 1 h2
  have v3 := bit1 h3
  refine decode_v hp rfl ?_ hwf hz
  show some (some (Instr.vminF (vopAt ww 15) (vopAt ww 8) (vopAt ww 1) (ww.getLsbD 0), 0x0#32)) = _
  simp only [v0, v1, v2, v3]

theorem vmaxF (d : VOp) (a : VOp) (b : VOp) (m : Bool) : Statement (.vmaxF d a b m) := by
  intro _ hwf
  refine ⟨_, rfl, ?_⟩
  generalize hw : (262#10 ++ d.bits ++ a.bits ++ b.bits ++ BitVec.ofBool m : Word) = ww; change Word at ww
  obtain ⟨hp, h0, h1, h2, h3, hz⟩ := layout37 262#10 (d.bits) (a.bits) (b.bits) (BitVec.ofBool m) hw
  have v0 := vopOf 15 h0
  have v1 := vopOf 8 h1
  have v2 := vopOf 1 h2
  have v3 := bit1 h3
  refine decode_v hp rfl ?_ hwf hz
  show some (some (Instr.vmaxF (vopAt ww 15) (vopAt ww 8) (vopAt ww 1) (ww.getLsbD 0), 0x0#32)) = _
  simp only [v0, v1, v2, v3]

theorem vabsF (d : VOp) (a : VOp) (m : Bool) : Statement (.vabsF d a m) := by
  intro _ hwf
  refine ⟨_, rfl, ?_⟩
  generalize hw : (263#10 ++ d.bits ++ a.bits ++ 0#7 ++ BitVec.ofBool m : Word) = ww; change Word at ww
  obtain ⟨hp, h0, h1, h3, hz⟩ := layout38 263#10 (d.bits) (a.bits) (BitVec.ofBool m) hw
  have v0 := vopOf 15 h0
  have v1 := vopOf 8 h1
  have v3 := bit1 h3
  refine decode_v hp rfl ?_ hwf hz
  show some (some (Instr.vabsF (vopAt ww 15) (vopAt ww 8) (ww.getLsbD 0), 0xFE#32)) = _
  simp only [v0, v1, v3]

theorem vnegF (d : VOp) (a : VOp) (m : Bool) : Statement (.vnegF d a m) := by
  intro _ hwf
  refine ⟨_, rfl, ?_⟩
  generalize hw : (264#10 ++ d.bits ++ a.bits ++ 0#7 ++ BitVec.ofBool m : Word) = ww; change Word at ww
  obtain ⟨hp, h0, h1, h3, hz⟩ := layout38 264#10 (d.bits) (a.bits) (BitVec.ofBool m) hw
  have v0 := vopOf 15 h0
  have v1 := vopOf 8 h1
  have v3 := bit1 h3
  refine decode_v hp rfl ?_ hwf hz
  show some (some (Instr.vnegF (vopAt ww 15) (vopAt ww 8) (ww.getLsbD 0), 0xFE#32)) = _
  simp only [v0, v1, v3]

theorem vcmpF (r : BitVec 4) (k : BitVec 3) (a : VOp) (b : VOp) (m : Bool) : Statement (.vcmpF r k a b m) := by
  intro _ hwf
  refine ⟨_, rfl, ?_⟩
  generalize hw : (265#10 ++ r ++ k ++ a.bits ++ b.bits ++ BitVec.ofBool m : Word) = ww; change Word at ww
  obtain ⟨hp, h0, h1, h2, h3, h4, hz⟩ := layout39 265#10 (r) (k) (a.bits) (b.bits) (BitVec.ofBool m) hw
  have v2 := vopOf 8 h2
  have v3 := vopOf 1 h3
  have v4 := bit1 h4
  refine decode_v hp rfl ?_ hwf hz
  show some (some (Instr.vcmpF (ww.extractLsb' 18 4) (ww.extractLsb' 15 3) (vopAt ww 8) (vopAt ww 1) (ww.getLsbD 0), 0x0#32)) = _
  simp only [h0, h1, v2, v3, v4]

theorem vaddB (d : VOp) (a : VOp) (b : VOp) (m : Bool) : Statement (.vaddB d a b m) := by
  intro _ hwf
  refine ⟨_, rfl, ?_⟩
  generalize hw : (272#10 ++ d.bits ++ a.bits ++ b.bits ++ BitVec.ofBool m : Word) = ww; change Word at ww
  obtain ⟨hp, h0, h1, h2, h3, hz⟩ := layout37 272#10 (d.bits) (a.bits) (b.bits) (BitVec.ofBool m) hw
  have v0 := vopOf 15 h0
  have v1 := vopOf 8 h1
  have v2 := vopOf 1 h2
  have v3 := bit1 h3
  refine decode_v hp rfl ?_ hwf hz
  show some (some (Instr.vaddB (vopAt ww 15) (vopAt ww 8) (vopAt ww 1) (ww.getLsbD 0), 0x0#32)) = _
  simp only [v0, v1, v2, v3]

theorem vsubB (d : VOp) (a : VOp) (b : VOp) (m : Bool) : Statement (.vsubB d a b m) := by
  intro _ hwf
  refine ⟨_, rfl, ?_⟩
  generalize hw : (273#10 ++ d.bits ++ a.bits ++ b.bits ++ BitVec.ofBool m : Word) = ww; change Word at ww
  obtain ⟨hp, h0, h1, h2, h3, hz⟩ := layout37 273#10 (d.bits) (a.bits) (b.bits) (BitVec.ofBool m) hw
  have v0 := vopOf 15 h0
  have v1 := vopOf 8 h1
  have v2 := vopOf 1 h2
  have v3 := bit1 h3
  refine decode_v hp rfl ?_ hwf hz
  show some (some (Instr.vsubB (vopAt ww 15) (vopAt ww 8) (vopAt ww 1) (ww.getLsbD 0), 0x0#32)) = _
  simp only [v0, v1, v2, v3]

theorem vmulB (d : VOp) (a : VOp) (b : VOp) (m : Bool) : Statement (.vmulB d a b m) := by
  intro _ hwf
  refine ⟨_, rfl, ?_⟩
  generalize hw : (274#10 ++ d.bits ++ a.bits ++ b.bits ++ BitVec.ofBool m : Word) = ww; change Word at ww
  obtain ⟨hp, h0, h1, h2, h3, hz⟩ := layout37 274#10 (d.bits) (a.bits) (b.bits) (BitVec.ofBool m) hw
  have v0 := vopOf 15 h0
  have v1 := vopOf 8 h1
  have v2 := vopOf 1 h2
  have v3 := bit1 h3
  refine decode_v hp rfl ?_ hwf hz
  show some (some (Instr.vmulB (vopAt ww 15) (vopAt ww 8) (vopAt ww 1) (ww.getLsbD 0), 0x0#32)) = _
  simp only [v0, v1, v2, v3]

theorem vfmaB (d : VOp) (a : VOp) (b : VOp) (m : Bool) : Statement (.vfmaB d a b m) := by
  intro _ hwf
  refine ⟨_, rfl, ?_⟩
  generalize hw : (275#10 ++ d.bits ++ a.bits ++ b.bits ++ BitVec.ofBool m : Word) = ww; change Word at ww
  obtain ⟨hp, h0, h1, h2, h3, hz⟩ := layout37 275#10 (d.bits) (a.bits) (b.bits) (BitVec.ofBool m) hw
  have v0 := vopOf 15 h0
  have v1 := vopOf 8 h1
  have v2 := vopOf 1 h2
  have v3 := bit1 h3
  refine decode_v hp rfl ?_ hwf hz
  show some (some (Instr.vfmaB (vopAt ww 15) (vopAt ww 8) (vopAt ww 1) (ww.getLsbD 0), 0x0#32)) = _
  simp only [v0, v1, v2, v3]

theorem vfmsB (d : VOp) (a : VOp) (b : VOp) (m : Bool) : Statement (.vfmsB d a b m) := by
  intro _ hwf
  refine ⟨_, rfl, ?_⟩
  generalize hw : (276#10 ++ d.bits ++ a.bits ++ b.bits ++ BitVec.ofBool m : Word) = ww; change Word at ww
  obtain ⟨hp, h0, h1, h2, h3, hz⟩ := layout37 276#10 (d.bits) (a.bits) (b.bits) (BitVec.ofBool m) hw
  have v0 := vopOf 15 h0
  have v1 := vopOf 8 h1
  have v2 := vopOf 1 h2
  have v3 := bit1 h3
  refine decode_v hp rfl ?_ hwf hz
  show some (some (Instr.vfmsB (vopAt ww 15) (vopAt ww 8) (vopAt ww 1) (ww.getLsbD 0), 0x0#32)) = _
  simp only [v0, v1, v2, v3]

theorem vminB (d : VOp) (a : VOp) (b : VOp) (m : Bool) : Statement (.vminB d a b m) := by
  intro _ hwf
  refine ⟨_, rfl, ?_⟩
  generalize hw : (277#10 ++ d.bits ++ a.bits ++ b.bits ++ BitVec.ofBool m : Word) = ww; change Word at ww
  obtain ⟨hp, h0, h1, h2, h3, hz⟩ := layout37 277#10 (d.bits) (a.bits) (b.bits) (BitVec.ofBool m) hw
  have v0 := vopOf 15 h0
  have v1 := vopOf 8 h1
  have v2 := vopOf 1 h2
  have v3 := bit1 h3
  refine decode_v hp rfl ?_ hwf hz
  show some (some (Instr.vminB (vopAt ww 15) (vopAt ww 8) (vopAt ww 1) (ww.getLsbD 0), 0x0#32)) = _
  simp only [v0, v1, v2, v3]

theorem vmaxB (d : VOp) (a : VOp) (b : VOp) (m : Bool) : Statement (.vmaxB d a b m) := by
  intro _ hwf
  refine ⟨_, rfl, ?_⟩
  generalize hw : (278#10 ++ d.bits ++ a.bits ++ b.bits ++ BitVec.ofBool m : Word) = ww; change Word at ww
  obtain ⟨hp, h0, h1, h2, h3, hz⟩ := layout37 278#10 (d.bits) (a.bits) (b.bits) (BitVec.ofBool m) hw
  have v0 := vopOf 15 h0
  have v1 := vopOf 8 h1
  have v2 := vopOf 1 h2
  have v3 := bit1 h3
  refine decode_v hp rfl ?_ hwf hz
  show some (some (Instr.vmaxB (vopAt ww 15) (vopAt ww 8) (vopAt ww 1) (ww.getLsbD 0), 0x0#32)) = _
  simp only [v0, v1, v2, v3]

theorem vaddI (d : VOp) (a : VOp) (b : VOp) (m : Bool) : Statement (.vaddI d a b m) := by
  intro _ hwf
  refine ⟨_, rfl, ?_⟩
  generalize hw : (288#10 ++ d.bits ++ a.bits ++ b.bits ++ BitVec.ofBool m : Word) = ww; change Word at ww
  obtain ⟨hp, h0, h1, h2, h3, hz⟩ := layout37 288#10 (d.bits) (a.bits) (b.bits) (BitVec.ofBool m) hw
  have v0 := vopOf 15 h0
  have v1 := vopOf 8 h1
  have v2 := vopOf 1 h2
  have v3 := bit1 h3
  refine decode_v hp rfl ?_ hwf hz
  show some (some (Instr.vaddI (vopAt ww 15) (vopAt ww 8) (vopAt ww 1) (ww.getLsbD 0), 0x0#32)) = _
  simp only [v0, v1, v2, v3]

theorem vsubI (d : VOp) (a : VOp) (b : VOp) (m : Bool) : Statement (.vsubI d a b m) := by
  intro _ hwf
  refine ⟨_, rfl, ?_⟩
  generalize hw : (289#10 ++ d.bits ++ a.bits ++ b.bits ++ BitVec.ofBool m : Word) = ww; change Word at ww
  obtain ⟨hp, h0, h1, h2, h3, hz⟩ := layout37 289#10 (d.bits) (a.bits) (b.bits) (BitVec.ofBool m) hw
  have v0 := vopOf 15 h0
  have v1 := vopOf 8 h1
  have v2 := vopOf 1 h2
  have v3 := bit1 h3
  refine decode_v hp rfl ?_ hwf hz
  show some (some (Instr.vsubI (vopAt ww 15) (vopAt ww 8) (vopAt ww 1) (ww.getLsbD 0), 0x0#32)) = _
  simp only [v0, v1, v2, v3]

theorem vmulI (d : VOp) (a : VOp) (b : VOp) (m : Bool) : Statement (.vmulI d a b m) := by
  intro _ hwf
  refine ⟨_, rfl, ?_⟩
  generalize hw : (290#10 ++ d.bits ++ a.bits ++ b.bits ++ BitVec.ofBool m : Word) = ww; change Word at ww
  obtain ⟨hp, h0, h1, h2, h3, hz⟩ := layout37 290#10 (d.bits) (a.bits) (b.bits) (BitVec.ofBool m) hw
  have v0 := vopOf 15 h0
  have v1 := vopOf 8 h1
  have v2 := vopOf 1 h2
  have v3 := bit1 h3
  refine decode_v hp rfl ?_ hwf hz
  show some (some (Instr.vmulI (vopAt ww 15) (vopAt ww 8) (vopAt ww 1) (ww.getLsbD 0), 0x0#32)) = _
  simp only [v0, v1, v2, v3]

theorem vminI (d : VOp) (a : VOp) (b : VOp) (m : Bool) : Statement (.vminI d a b m) := by
  intro _ hwf
  refine ⟨_, rfl, ?_⟩
  generalize hw : (291#10 ++ d.bits ++ a.bits ++ b.bits ++ BitVec.ofBool m : Word) = ww; change Word at ww
  obtain ⟨hp, h0, h1, h2, h3, hz⟩ := layout37 291#10 (d.bits) (a.bits) (b.bits) (BitVec.ofBool m) hw
  have v0 := vopOf 15 h0
  have v1 := vopOf 8 h1
  have v2 := vopOf 1 h2
  have v3 := bit1 h3
  refine decode_v hp rfl ?_ hwf hz
  show some (some (Instr.vminI (vopAt ww 15) (vopAt ww 8) (vopAt ww 1) (ww.getLsbD 0), 0x0#32)) = _
  simp only [v0, v1, v2, v3]

theorem vmaxI (d : VOp) (a : VOp) (b : VOp) (m : Bool) : Statement (.vmaxI d a b m) := by
  intro _ hwf
  refine ⟨_, rfl, ?_⟩
  generalize hw : (292#10 ++ d.bits ++ a.bits ++ b.bits ++ BitVec.ofBool m : Word) = ww; change Word at ww
  obtain ⟨hp, h0, h1, h2, h3, hz⟩ := layout37 292#10 (d.bits) (a.bits) (b.bits) (BitVec.ofBool m) hw
  have v0 := vopOf 15 h0
  have v1 := vopOf 8 h1
  have v2 := vopOf 1 h2
  have v3 := bit1 h3
  refine decode_v hp rfl ?_ hwf hz
  show some (some (Instr.vmaxI (vopAt ww 15) (vopAt ww 8) (vopAt ww 1) (ww.getLsbD 0), 0x0#32)) = _
  simp only [v0, v1, v2, v3]

theorem vand (d : VOp) (a : VOp) (b : VOp) (m : Bool) : Statement (.vand d a b m) := by
  intro _ hwf
  refine ⟨_, rfl, ?_⟩
  generalize hw : (293#10 ++ d.bits ++ a.bits ++ b.bits ++ BitVec.ofBool m : Word) = ww; change Word at ww
  obtain ⟨hp, h0, h1, h2, h3, hz⟩ := layout37 293#10 (d.bits) (a.bits) (b.bits) (BitVec.ofBool m) hw
  have v0 := vopOf 15 h0
  have v1 := vopOf 8 h1
  have v2 := vopOf 1 h2
  have v3 := bit1 h3
  refine decode_v hp rfl ?_ hwf hz
  show some (some (Instr.vand (vopAt ww 15) (vopAt ww 8) (vopAt ww 1) (ww.getLsbD 0), 0x0#32)) = _
  simp only [v0, v1, v2, v3]

theorem vor (d : VOp) (a : VOp) (b : VOp) (m : Bool) : Statement (.vor d a b m) := by
  intro _ hwf
  refine ⟨_, rfl, ?_⟩
  generalize hw : (294#10 ++ d.bits ++ a.bits ++ b.bits ++ BitVec.ofBool m : Word) = ww; change Word at ww
  obtain ⟨hp, h0, h1, h2, h3, hz⟩ := layout37 294#10 (d.bits) (a.bits) (b.bits) (BitVec.ofBool m) hw
  have v0 := vopOf 15 h0
  have v1 := vopOf 8 h1
  have v2 := vopOf 1 h2
  have v3 := bit1 h3
  refine decode_v hp rfl ?_ hwf hz
  show some (some (Instr.vor (vopAt ww 15) (vopAt ww 8) (vopAt ww 1) (ww.getLsbD 0), 0x0#32)) = _
  simp only [v0, v1, v2, v3]

theorem vxor (d : VOp) (a : VOp) (b : VOp) (m : Bool) : Statement (.vxor d a b m) := by
  intro _ hwf
  refine ⟨_, rfl, ?_⟩
  generalize hw : (295#10 ++ d.bits ++ a.bits ++ b.bits ++ BitVec.ofBool m : Word) = ww; change Word at ww
  obtain ⟨hp, h0, h1, h2, h3, hz⟩ := layout37 295#10 (d.bits) (a.bits) (b.bits) (BitVec.ofBool m) hw
  have v0 := vopOf 15 h0
  have v1 := vopOf 8 h1
  have v2 := vopOf 1 h2
  have v3 := bit1 h3
  refine decode_v hp rfl ?_ hwf hz
  show some (some (Instr.vxor (vopAt ww 15) (vopAt ww 8) (vopAt ww 1) (ww.getLsbD 0), 0x0#32)) = _
  simp only [v0, v1, v2, v3]

theorem vshl (d : VOp) (a : VOp) (b : VOp) (m : Bool) : Statement (.vshl d a b m) := by
  intro _ hwf
  refine ⟨_, rfl, ?_⟩
  generalize hw : (296#10 ++ d.bits ++ a.bits ++ b.bits ++ BitVec.ofBool m : Word) = ww; change Word at ww
  obtain ⟨hp, h0, h1, h2, h3, hz⟩ := layout37 296#10 (d.bits) (a.bits) (b.bits) (BitVec.ofBool m) hw
  have v0 := vopOf 15 h0
  have v1 := vopOf 8 h1
  have v2 := vopOf 1 h2
  have v3 := bit1 h3
  refine decode_v hp rfl ?_ hwf hz
  show some (some (Instr.vshl (vopAt ww 15) (vopAt ww 8) (vopAt ww 1) (ww.getLsbD 0), 0x0#32)) = _
  simp only [v0, v1, v2, v3]

theorem vshr (d : VOp) (a : VOp) (b : VOp) (m : Bool) : Statement (.vshr d a b m) := by
  intro _ hwf
  refine ⟨_, rfl, ?_⟩
  generalize hw : (297#10 ++ d.bits ++ a.bits ++ b.bits ++ BitVec.ofBool m : Word) = ww; change Word at ww
  obtain ⟨hp, h0, h1, h2, h3, hz⟩ := layout37 297#10 (d.bits) (a.bits) (b.bits) (BitVec.ofBool m) hw
  have v0 := vopOf 15 h0
  have v1 := vopOf 8 h1
  have v2 := vopOf 1 h2
  have v3 := bit1 h3
  refine decode_v hp rfl ?_ hwf hz
  show some (some (Instr.vshr (vopAt ww 15) (vopAt ww 8) (vopAt ww 1) (ww.getLsbD 0), 0x0#32)) = _
  simp only [v0, v1, v2, v3]

theorem vsar (d : VOp) (a : VOp) (b : VOp) (m : Bool) : Statement (.vsar d a b m) := by
  intro _ hwf
  refine ⟨_, rfl, ?_⟩
  generalize hw : (298#10 ++ d.bits ++ a.bits ++ b.bits ++ BitVec.ofBool m : Word) = ww; change Word at ww
  obtain ⟨hp, h0, h1, h2, h3, hz⟩ := layout37 298#10 (d.bits) (a.bits) (b.bits) (BitVec.ofBool m) hw
  have v0 := vopOf 15 h0
  have v1 := vopOf 8 h1
  have v2 := vopOf 1 h2
  have v3 := bit1 h3
  refine decode_v hp rfl ?_ hwf hz
  show some (some (Instr.vsar (vopAt ww 15) (vopAt ww 8) (vopAt ww 1) (ww.getLsbD 0), 0x0#32)) = _
  simp only [v0, v1, v2, v3]

theorem vcmpI (r : BitVec 4) (k : BitVec 3) (a : VOp) (b : VOp) (m : Bool) : Statement (.vcmpI r k a b m) := by
  intro _ hwf
  refine ⟨_, rfl, ?_⟩
  generalize hw : (299#10 ++ r ++ k ++ a.bits ++ b.bits ++ BitVec.ofBool m : Word) = ww; change Word at ww
  obtain ⟨hp, h0, h1, h2, h3, h4, hz⟩ := layout39 299#10 (r) (k) (a.bits) (b.bits) (BitVec.ofBool m) hw
  have v2 := vopOf 8 h2
  have v3 := vopOf 1 h3
  have v4 := bit1 h4
  refine decode_v hp rfl ?_ hwf hz
  show some (some (Instr.vcmpI (ww.extractLsb' 18 4) (ww.extractLsb' 15 3) (vopAt ww 8) (vopAt ww 1) (ww.getLsbD 0), 0x0#32)) = _
  simp only [h0, h1, v2, v3, v4]

theorem vrcp (d : VOp) (a : VOp) (m : Bool) : Statement (.vrcp d a m) := by
  intro _ hwf
  refine ⟨_, rfl, ?_⟩
  generalize hw : (304#10 ++ d.bits ++ a.bits ++ 0#7 ++ BitVec.ofBool m : Word) = ww; change Word at ww
  obtain ⟨hp, h0, h1, h3, hz⟩ := layout38 304#10 (d.bits) (a.bits) (BitVec.ofBool m) hw
  have v0 := vopOf 15 h0
  have v1 := vopOf 8 h1
  have v3 := bit1 h3
  refine decode_v hp rfl ?_ hwf hz
  show some (some (Instr.vrcp (vopAt ww 15) (vopAt ww 8) (ww.getLsbD 0), 0xFE#32)) = _
  simp only [v0, v1, v3]

theorem vrsqrt (d : VOp) (a : VOp) (m : Bool) : Statement (.vrsqrt d a m) := by
  intro _ hwf
  refine ⟨_, rfl, ?_⟩
  generalize hw : (305#10 ++ d.bits ++ a.bits ++ 0#7 ++ BitVec.ofBool m : Word) = ww; change Word at ww
  obtain ⟨hp, h0, h1, h3, hz⟩ := layout38 305#10 (d.bits) (a.bits) (BitVec.ofBool m) hw
  have v0 := vopOf 15 h0
  have v1 := vopOf 8 h1
  have v3 := bit1 h3
  refine decode_v hp rfl ?_ hwf hz
  show some (some (Instr.vrsqrt (vopAt ww 15) (vopAt ww 8) (ww.getLsbD 0), 0xFE#32)) = _
  simp only [v0, v1, v3]

theorem vexp2 (d : VOp) (a : VOp) (m : Bool) : Statement (.vexp2 d a m) := by
  intro _ hwf
  refine ⟨_, rfl, ?_⟩
  generalize hw : (306#10 ++ d.bits ++ a.bits ++ 0#7 ++ BitVec.ofBool m : Word) = ww; change Word at ww
  obtain ⟨hp, h0, h1, h3, hz⟩ := layout38 306#10 (d.bits) (a.bits) (BitVec.ofBool m) hw
  have v0 := vopOf 15 h0
  have v1 := vopOf 8 h1
  have v3 := bit1 h3
  refine decode_v hp rfl ?_ hwf hz
  show some (some (Instr.vexp2 (vopAt ww 15) (vopAt ww 8) (ww.getLsbD 0), 0xFE#32)) = _
  simp only [v0, v1, v3]

theorem vlog2 (d : VOp) (a : VOp) (m : Bool) : Statement (.vlog2 d a m) := by
  intro _ hwf
  refine ⟨_, rfl, ?_⟩
  generalize hw : (307#10 ++ d.bits ++ a.bits ++ 0#7 ++ BitVec.ofBool m : Word) = ww; change Word at ww
  obtain ⟨hp, h0, h1, h3, hz⟩ := layout38 307#10 (d.bits) (a.bits) (BitVec.ofBool m) hw
  have v0 := vopOf 15 h0
  have v1 := vopOf 8 h1
  have v3 := bit1 h3
  refine decode_v hp rfl ?_ hwf hz
  show some (some (Instr.vlog2 (vopAt ww 15) (vopAt ww 8) (ww.getLsbD 0), 0xFE#32)) = _
  simp only [v0, v1, v3]

theorem vtanh (d : VOp) (a : VOp) (m : Bool) : Statement (.vtanh d a m) := by
  intro _ hwf
  refine ⟨_, rfl, ?_⟩
  generalize hw : (308#10 ++ d.bits ++ a.bits ++ 0#7 ++ BitVec.ofBool m : Word) = ww; change Word at ww
  obtain ⟨hp, h0, h1, h3, hz⟩ := layout38 308#10 (d.bits) (a.bits) (BitVec.ofBool m) hw
  have v0 := vopOf 15 h0
  have v1 := vopOf 8 h1
  have v3 := bit1 h3
  refine decode_v hp rfl ?_ hwf hz
  show some (some (Instr.vtanh (vopAt ww 15) (vopAt ww 8) (ww.getLsbD 0), 0xFE#32)) = _
  simp only [v0, v1, v3]

theorem vredsum (d : VOp) (a : VOp) (t : Bool) (x : Bool) (m : Bool) : Statement (.vredsum d a t x m) := by
  intro _ hwf
  refine ⟨_, rfl, ?_⟩
  generalize hw : (312#10 ++ d.bits ++ a.bits ++ 0#5 ++ BitVec.ofBool t ++ BitVec.ofBool x ++ BitVec.ofBool m : Word) = ww; change Word at ww
  obtain ⟨hp, h0, h1, h3, h4, h5, hz⟩ := layout40 312#10 (d.bits) (a.bits) (BitVec.ofBool t) (BitVec.ofBool x) (BitVec.ofBool m) hw
  have v0 := vopOf 15 h0
  have v1 := vopOf 8 h1
  have v3 := bit1 h3
  have v4 := bit1 h4
  have v5 := bit1 h5
  refine decode_v hp rfl ?_ hwf hz
  show some (some (Instr.vredsum (vopAt ww 15) (vopAt ww 8) (ww.getLsbD 2) (ww.getLsbD 1) (ww.getLsbD 0), 0xF8#32)) = _
  simp only [v0, v1, v3, v4, v5]

theorem vredmax (d : VOp) (a : VOp) (t : Bool) (x : Bool) (m : Bool) : Statement (.vredmax d a t x m) := by
  intro _ hwf
  refine ⟨_, rfl, ?_⟩
  generalize hw : (313#10 ++ d.bits ++ a.bits ++ 0#5 ++ BitVec.ofBool t ++ BitVec.ofBool x ++ BitVec.ofBool m : Word) = ww; change Word at ww
  obtain ⟨hp, h0, h1, h3, h4, h5, hz⟩ := layout40 313#10 (d.bits) (a.bits) (BitVec.ofBool t) (BitVec.ofBool x) (BitVec.ofBool m) hw
  have v0 := vopOf 15 h0
  have v1 := vopOf 8 h1
  have v3 := bit1 h3
  have v4 := bit1 h4
  have v5 := bit1 h5
  refine decode_v hp rfl ?_ hwf hz
  show some (some (Instr.vredmax (vopAt ww 15) (vopAt ww 8) (ww.getLsbD 2) (ww.getLsbD 1) (ww.getLsbD 0), 0xF8#32)) = _
  simp only [v0, v1, v3, v4, v5]

theorem vmov (d : VOp) (a : VOp) (m : Bool) : Statement (.vmov d a m) := by
  intro _ hwf
  refine ⟨_, rfl, ?_⟩
  generalize hw : (320#10 ++ d.bits ++ a.bits ++ 0#7 ++ BitVec.ofBool m : Word) = ww; change Word at ww
  obtain ⟨hp, h0, h1, h3, hz⟩ := layout38 320#10 (d.bits) (a.bits) (BitVec.ofBool m) hw
  have v0 := vopOf 15 h0
  have v1 := vopOf 8 h1
  have v3 := bit1 h3
  refine decode_v hp rfl ?_ hwf hz
  show some (some (Instr.vmov (vopAt ww 15) (vopAt ww 8) (ww.getLsbD 0), 0xFE#32)) = _
  simp only [v0, v1, v3]

theorem vbcast (d : VOp) (q : BitVec 4) : Statement (.vbcast d q) := by
  intro _ hwf
  refine ⟨_, rfl, ?_⟩
  generalize hw : (321#10 ++ d.bits ++ q ++ 0#6 ++ 0#5 : Word) = ww; change Word at ww
  obtain ⟨hp, h0, h1, hz⟩ := layout41 321#10 (d.bits) (q) hw
  have v0 := vopOf 15 h0
  refine decode_v hp rfl ?_ hwf hz
  show some (some (Instr.vbcast (vopAt ww 15) (ww.extractLsb' 11 4), 0x7FF#32)) = _
  simp only [v0, h1]

theorem vtrans (d : VOp) (a : VOp) : Statement (.vtrans d a) := by
  intro _ hwf
  refine ⟨_, rfl, ?_⟩
  generalize hw : (322#10 ++ d.bits ++ a.bits ++ 0#7 ++ 0#1 : Word) = ww; change Word at ww
  obtain ⟨hp, h0, h1, hz⟩ := layout42 322#10 (d.bits) (a.bits) hw
  have v0 := vopOf 15 h0
  have v1 := vopOf 8 h1
  refine decode_v hp rfl ?_ hwf hz
  show some (some (Instr.vtrans (vopAt ww 15) (vopAt ww 8), 0xFF#32)) = _
  simp only [v0, v1]

theorem vsel (d : VOp) (a : VOp) (b : VOp) : Statement (.vsel d a b) := by
  intro _ hwf
  refine ⟨_, rfl, ?_⟩
  generalize hw : (323#10 ++ d.bits ++ a.bits ++ b.bits ++ 1#1 : Word) = ww; change Word at ww
  obtain ⟨hp, h0, h1, h2, h3, hz⟩ := layout37 323#10 (d.bits) (a.bits) (b.bits) (1#1) hw
  have v0 := vopOf 15 h0
  have v1 := vopOf 8 h1
  have v2 := vopOf 1 h2
  refine decode_v hp rfl ?_ hwf hz
  show some (if ww.extractLsb' 0 1 == 1#1 then some (Instr.vsel (vopAt ww 15) (vopAt ww 8) (vopAt ww 1), 0x0#32) else none) = _
  simp only [v0, v1, v2, h3]
  rfl

theorem vshift (d : VOp) (a : VOp) (x : Bool) (f : Bool) (n : BitVec 6) : Statement (.vshift d a x f n) := by
  intro _ hwf
  refine ⟨_, rfl, ?_⟩
  generalize hw : (324#10 ++ d.bits ++ a.bits ++ BitVec.ofBool x ++ BitVec.ofBool f ++ n : Word) = ww; change Word at ww
  obtain ⟨hp, h0, h1, h2, h3, h4, hz⟩ := layout43 324#10 (d.bits) (a.bits) (BitVec.ofBool x) (BitVec.ofBool f) (n) hw
  have v0 := vopOf 15 h0
  have v1 := vopOf 8 h1
  have v2 := bit1 h2
  have v3 := bit1 h3
  refine decode_v hp rfl ?_ hwf hz
  show some (some (Instr.vshift (vopAt ww 15) (vopAt ww 8) (ww.getLsbD 7) (ww.getLsbD 6) (ww.extractLsb' 0 6), 0x0#32)) = _
  simp only [v0, v1, v2, v3, h4]

theorem viota (d : VOp) (i : BitVec 8) : Statement (.viota d i) := by
  intro _ hwf
  refine ⟨_, rfl, ?_⟩
  generalize hw : (325#10 ++ d.bits ++ 0#7 ++ i : Word) = ww; change Word at ww
  obtain ⟨hp, h0, h2, hz⟩ := layout44 325#10 (d.bits) (i) hw
  have v0 := vopOf 15 h0
  refine decode_v hp rfl ?_ hwf hz
  show some (some (Instr.viota (vopAt ww 15) (ww.extractLsb' 0 8), 0x7F00#32)) = _
  simp only [v0, h2]

theorem vpop (d : VOp) (q : BitVec 4) (c : BitVec 6) : Statement (.vpop d q c) := by
  intro _ hwf
  refine ⟨_, rfl, ?_⟩
  generalize hw : (328#10 ++ d.bits ++ q ++ c ++ 0#5 : Word) = ww; change Word at ww
  obtain ⟨hp, h0, h1, h2, hz⟩ := layout45 328#10 (d.bits) (q) (c) hw
  have v0 := vopOf 15 h0
  refine decode_v hp rfl ?_ hwf hz
  show some (some (Instr.vpop (vopAt ww 15) (ww.extractLsb' 11 4) (ww.extractLsb' 5 6), 0x1F#32)) = _
  simp only [v0, h1, h2]

theorem vpush (s : VOp) (q : BitVec 4) (c : BitVec 6) : Statement (.vpush s q c) := by
  intro _ hwf
  refine ⟨_, rfl, ?_⟩
  generalize hw : (329#10 ++ s.bits ++ q ++ c ++ 0#5 : Word) = ww; change Word at ww
  obtain ⟨hp, h0, h1, h2, hz⟩ := layout45 329#10 (s.bits) (q) (c) hw
  have v0 := vopOf 15 h0
  refine decode_v hp rfl ?_ hwf hz
  show some (some (Instr.vpush (vopAt ww 15) (ww.extractLsb' 11 4) (ww.extractLsb' 5 6), 0x1F#32)) = _
  simp only [v0, h1, h2]

theorem vpushx (s : VOp) (q : BitVec 4) : Statement (.vpushx s q) := by
  intro _ hwf
  refine ⟨_, rfl, ?_⟩
  generalize hw : (330#10 ++ s.bits ++ q ++ 0#6 ++ 0#5 : Word) = ww; change Word at ww
  obtain ⟨hp, h0, h1, hz⟩ := layout41 330#10 (s.bits) (q) hw
  have v0 := vopOf 15 h0
  refine decode_v hp rfl ?_ hwf hz
  show some (some (Instr.vpushx (vopAt ww 15) (ww.extractLsb' 11 4), 0x7FF#32)) = _
  simp only [v0, h1]

theorem vunpE4 (d : VOp) (a : VOp) (p : BitVec 3) : Statement (.vunpE4 d a p) := by
  intro _ hwf
  refine ⟨_, rfl, ?_⟩
  generalize hw : (336#10 ++ d.bits ++ a.bits ++ 0#5 ++ p : Word) = ww; change Word at ww
  obtain ⟨hp, h0, h1, h3, hz⟩ := layout46 336#10 (d.bits) (a.bits) (p) hw
  have v0 := vopOf 15 h0
  have v1 := vopOf 8 h1
  refine decode_v hp rfl ?_ hwf hz
  show some (some (Instr.vunpE4 (vopAt ww 15) (vopAt ww 8) (ww.extractLsb' 0 3), 0xF8#32)) = _
  simp only [v0, v1, h3]

theorem vunpE5 (d : VOp) (a : VOp) (p : BitVec 3) : Statement (.vunpE5 d a p) := by
  intro _ hwf
  refine ⟨_, rfl, ?_⟩
  generalize hw : (337#10 ++ d.bits ++ a.bits ++ 0#5 ++ p : Word) = ww; change Word at ww
  obtain ⟨hp, h0, h1, h3, hz⟩ := layout46 337#10 (d.bits) (a.bits) (p) hw
  have v0 := vopOf 15 h0
  have v1 := vopOf 8 h1
  refine decode_v hp rfl ?_ hwf hz
  show some (some (Instr.vunpE5 (vopAt ww 15) (vopAt ww 8) (ww.extractLsb' 0 3), 0xF8#32)) = _
  simp only [v0, v1, h3]

theorem vunpI8 (d : VOp) (a : VOp) (p : BitVec 3) : Statement (.vunpI8 d a p) := by
  intro _ hwf
  refine ⟨_, rfl, ?_⟩
  generalize hw : (338#10 ++ d.bits ++ a.bits ++ 0#5 ++ p : Word) = ww; change Word at ww
  obtain ⟨hp, h0, h1, h3, hz⟩ := layout46 338#10 (d.bits) (a.bits) (p) hw
  have v0 := vopOf 15 h0
  have v1 := vopOf 8 h1
  refine decode_v hp rfl ?_ hwf hz
  show some (some (Instr.vunpI8 (vopAt ww 15) (vopAt ww 8) (ww.extractLsb' 0 3), 0xF8#32)) = _
  simp only [v0, v1, h3]

theorem vunpH (d : VOp) (a : VOp) (p : BitVec 3) : Statement (.vunpH d a p) := by
  intro _ hwf
  refine ⟨_, rfl, ?_⟩
  generalize hw : (339#10 ++ d.bits ++ a.bits ++ 0#5 ++ p : Word) = ww; change Word at ww
  obtain ⟨hp, h0, h1, h3, hz⟩ := layout46 339#10 (d.bits) (a.bits) (p) hw
  have v0 := vopOf 15 h0
  have v1 := vopOf 8 h1
  refine decode_v hp rfl ?_ hwf hz
  show some (some (Instr.vunpH (vopAt ww 15) (vopAt ww 8) (ww.extractLsb' 0 3), 0xF8#32)) = _
  simp only [v0, v1, h3]

theorem vunpQ4 (d : VOp) (a : VOp) (s : BitVec 5) (p : BitVec 3) : Statement (.vunpQ4 d a s p) := by
  intro _ hwf
  refine ⟨_, rfl, ?_⟩
  generalize hw : (340#10 ++ d.bits ++ a.bits ++ s ++ p : Word) = ww; change Word at ww
  obtain ⟨hp, h0, h1, h2, h3, hz⟩ := layout47 340#10 (d.bits) (a.bits) (s) (p) hw
  have v0 := vopOf 15 h0
  have v1 := vopOf 8 h1
  refine decode_v hp rfl ?_ hwf hz
  show some (some (Instr.vunpQ4 (vopAt ww 15) (vopAt ww 8) (ww.extractLsb' 3 5) (ww.extractLsb' 0 3), 0x0#32)) = _
  simp only [v0, v1, h2, h3]

theorem vpackE4 (d : VOp) (a : VOp) (t : Bool) (r : Rnd) (p : BitVec 3) : Statement (.vpackE4 d a t r p) := by
  intro _ hwf
  refine ⟨_, rfl, ?_⟩
  generalize hw : (341#10 ++ d.bits ++ a.bits ++ 0#2 ++ BitVec.ofBool t ++ r.bits ++ p : Word) = ww; change Word at ww
  obtain ⟨hp, h0, h1, h3, h4, h5, hz⟩ := layout48 341#10 (d.bits) (a.bits) (BitVec.ofBool t) (r.bits) (p) hw
  have v0 := vopOf 15 h0
  have v1 := vopOf 8 h1
  have v3 := bit1 h3
  refine decode_v hp rfl ?_ hwf hz
  show some (some (Instr.vpackE4 (vopAt ww 15) (vopAt ww 8) (ww.getLsbD 5) (Rnd.ofBits (ww.extractLsb' 3 2)) (ww.extractLsb' 0 3), 0xC0#32)) = _
  simp only [v0, v1, v3, h4, h5, rndBits]

theorem vpackE5 (d : VOp) (a : VOp) (t : Bool) (r : Rnd) (p : BitVec 3) : Statement (.vpackE5 d a t r p) := by
  intro _ hwf
  refine ⟨_, rfl, ?_⟩
  generalize hw : (342#10 ++ d.bits ++ a.bits ++ 0#2 ++ BitVec.ofBool t ++ r.bits ++ p : Word) = ww; change Word at ww
  obtain ⟨hp, h0, h1, h3, h4, h5, hz⟩ := layout48 342#10 (d.bits) (a.bits) (BitVec.ofBool t) (r.bits) (p) hw
  have v0 := vopOf 15 h0
  have v1 := vopOf 8 h1
  have v3 := bit1 h3
  refine decode_v hp rfl ?_ hwf hz
  show some (some (Instr.vpackE5 (vopAt ww 15) (vopAt ww 8) (ww.getLsbD 5) (Rnd.ofBits (ww.extractLsb' 3 2)) (ww.extractLsb' 0 3), 0xC0#32)) = _
  simp only [v0, v1, v3, h4, h5, rndBits]

theorem vpackI8 (d : VOp) (a : VOp) (t : Bool) (r : Rnd) (p : BitVec 3) : Statement (.vpackI8 d a t r p) := by
  intro _ hwf
  refine ⟨_, rfl, ?_⟩
  generalize hw : (343#10 ++ d.bits ++ a.bits ++ 0#2 ++ BitVec.ofBool t ++ r.bits ++ p : Word) = ww; change Word at ww
  obtain ⟨hp, h0, h1, h3, h4, h5, hz⟩ := layout48 343#10 (d.bits) (a.bits) (BitVec.ofBool t) (r.bits) (p) hw
  have v0 := vopOf 15 h0
  have v1 := vopOf 8 h1
  have v3 := bit1 h3
  refine decode_v hp rfl ?_ hwf hz
  show some (some (Instr.vpackI8 (vopAt ww 15) (vopAt ww 8) (ww.getLsbD 5) (Rnd.ofBits (ww.extractLsb' 3 2)) (ww.extractLsb' 0 3), 0xC0#32)) = _
  simp only [v0, v1, v3, h4, h5, rndBits]

theorem vpackH (d : VOp) (a : VOp) (t : Bool) (r : Rnd) (p : BitVec 3) : Statement (.vpackH d a t r p) := by
  intro _ hwf
  refine ⟨_, rfl, ?_⟩
  generalize hw : (344#10 ++ d.bits ++ a.bits ++ 0#2 ++ BitVec.ofBool t ++ r.bits ++ p : Word) = ww; change Word at ww
  obtain ⟨hp, h0, h1, h3, h4, h5, hz⟩ := layout48 344#10 (d.bits) (a.bits) (BitVec.ofBool t) (r.bits) (p) hw
  have v0 := vopOf 15 h0
  have v1 := vopOf 8 h1
  have v3 := bit1 h3
  refine decode_v hp rfl ?_ hwf hz
  show some (some (Instr.vpackH (vopAt ww 15) (vopAt ww 8) (ww.getLsbD 5) (Rnd.ofBits (ww.extractLsb' 3 2)) (ww.extractLsb' 0 3), 0xC0#32)) = _
  simp only [v0, v1, v3, h4, h5, rndBits]

theorem vpackB (d : VOp) (a : VOp) (t : Bool) (r : Rnd) (p : BitVec 3) : Statement (.vpackB d a t r p) := by
  intro _ hwf
  refine ⟨_, rfl, ?_⟩
  generalize hw : (345#10 ++ d.bits ++ a.bits ++ 0#2 ++ BitVec.ofBool t ++ r.bits ++ p : Word) = ww; change Word at ww
  obtain ⟨hp, h0, h1, h3, h4, h5, hz⟩ := layout48 345#10 (d.bits) (a.bits) (BitVec.ofBool t) (r.bits) (p) hw
  have v0 := vopOf 15 h0
  have v1 := vopOf 8 h1
  have v3 := bit1 h3
  refine decode_v hp rfl ?_ hwf hz
  show some (some (Instr.vpackB (vopAt ww 15) (vopAt ww 8) (ww.getLsbD 5) (Rnd.ofBits (ww.extractLsb' 3 2)) (ww.extractLsb' 0 3), 0xC0#32)) = _
  simp only [v0, v1, v3, h4, h5, rndBits]

theorem vcvtFi (d : VOp) (a : VOp) : Statement (.vcvtFi d a) := by
  intro _ hwf
  refine ⟨_, rfl, ?_⟩
  generalize hw : (346#10 ++ d.bits ++ a.bits ++ 0#8 : Word) = ww; change Word at ww
  obtain ⟨hp, h0, h1, hz⟩ := layout49 346#10 (d.bits) (a.bits) hw
  have v0 := vopOf 15 h0
  have v1 := vopOf 8 h1
  refine decode_v hp rfl ?_ hwf hz
  show some (some (Instr.vcvtFi (vopAt ww 15) (vopAt ww 8), 0xFF#32)) = _
  simp only [v0, v1]

theorem vcvtIf (d : VOp) (a : VOp) : Statement (.vcvtIf d a) := by
  intro _ hwf
  refine ⟨_, rfl, ?_⟩
  generalize hw : (347#10 ++ d.bits ++ a.bits ++ 0#8 : Word) = ww; change Word at ww
  obtain ⟨hp, h0, h1, hz⟩ := layout49 347#10 (d.bits) (a.bits) hw
  have v0 := vopOf 15 h0
  have v1 := vopOf 8 h1
  refine decode_v hp rfl ?_ hwf hz
  show some (some (Instr.vcvtIf (vopAt ww 15) (vopAt ww 8), 0xFF#32)) = _
  simp only [v0, v1]

theorem vshape (r : BitVec 7) (c : BitVec 7) : Statement (.vshape r c) := by
  intro _ hwf
  refine ⟨_, rfl, ?_⟩
  generalize hw : (352#10 ++ r ++ c ++ 0#8 : Word) = ww; change Word at ww
  obtain ⟨hp, h0, h1, hz⟩ := layout49 352#10 (r) (c) hw
  refine decode_v hp rfl ?_ hwf hz
  show some (some (Instr.vshape (ww.extractLsb' 15 7) (ww.extractLsb' 8 7), 0xFF#32)) = _
  simp only [h0, h1]

theorem vcur (r : BitVec 7) (c : BitVec 7) (g : BitVec 8) : Statement (.vcur r c g) := by
  intro _ hwf
  refine ⟨_, rfl, ?_⟩
  generalize hw : (353#10 ++ r ++ c ++ g : Word) = ww; change Word at ww
  obtain ⟨hp, h0, h1, h2, hz⟩ := layout50 353#10 (r) (c) (g) hw
  refine decode_v hp rfl ?_ hwf hz
  show some (some (Instr.vcur (ww.extractLsb' 15 7) (ww.extractLsb' 8 7) (ww.extractLsb' 0 8), 0x0#32)) = _
  simp only [h0, h1, h2]

theorem vrbset (n : BitVec 8) : Statement (.vrbset n) := by
  intro _ hwf
  refine ⟨_, rfl, ?_⟩
  generalize hw : (354#10 ++ 0#14 ++ n : Word) = ww; change Word at ww
  obtain ⟨hp, h1, hz⟩ := layout51 354#10 (n) hw
  refine decode_v hp rfl ?_ hwf hz
  show some (some (Instr.vrbset (ww.extractLsb' 0 8), 0x3FFF00#32)) = _
  simp only [h1]

theorem vpark (s : VOp) : Statement (.vpark s) := by
  intro _ hwf
  refine ⟨_, rfl, ?_⟩
  generalize hw : (360#10 ++ s.bits ++ 0#7 ++ 0#7 ++ 0#1 : Word) = ww; change Word at ww
  obtain ⟨hp, h0, hz⟩ := layout52 360#10 (s.bits) hw
  have v0 := vopOf 15 h0
  refine decode_v hp rfl ?_ hwf hz
  show some (some (Instr.vpark (vopAt ww 15), 0x7FFF#32)) = _
  simp only [v0]

theorem vunpark (d : VOp) : Statement (.vunpark d) := by
  intro _ hwf
  refine ⟨_, rfl, ?_⟩
  generalize hw : (361#10 ++ d.bits ++ 0#7 ++ 0#7 ++ 0#1 : Word) = ww; change Word at ww
  obtain ⟨hp, h0, hz⟩ := layout52 361#10 (d.bits) hw
  have v0 := vopOf 15 h0
  refine decode_v hp rfl ?_ hwf hz
  show some (some (Instr.vunpark (vopAt ww 15), 0x7FFF#32)) = _
  simp only [v0]

theorem kand (d : BitVec 5) (a : BitVec 5) (b : BitVec 5) : Statement (.kand d a b) := by
  intro _ hwf
  refine ⟨_, rfl, ?_⟩
  generalize hw : (368#10 ++ 0#2 ++ d ++ 0#2 ++ a ++ 0#2 ++ b ++ 0#1 : Word) = ww; change Word at ww
  obtain ⟨hp, h1, h3, h5, hz⟩ := layout53 368#10 (d) (a) (b) hw
  refine decode_v hp rfl ?_ hwf hz
  show some (some (Instr.kand (ww.extractLsb' 15 5) (ww.extractLsb' 8 5) (ww.extractLsb' 1 5), 0x3060C1#32)) = _
  simp only [h1, h3, h5]

theorem kor (d : BitVec 5) (a : BitVec 5) (b : BitVec 5) : Statement (.kor d a b) := by
  intro _ hwf
  refine ⟨_, rfl, ?_⟩
  generalize hw : (369#10 ++ 0#2 ++ d ++ 0#2 ++ a ++ 0#2 ++ b ++ 0#1 : Word) = ww; change Word at ww
  obtain ⟨hp, h1, h3, h5, hz⟩ := layout53 369#10 (d) (a) (b) hw
  refine decode_v hp rfl ?_ hwf hz
  show some (some (Instr.kor (ww.extractLsb' 15 5) (ww.extractLsb' 8 5) (ww.extractLsb' 1 5), 0x3060C1#32)) = _
  simp only [h1, h3, h5]

theorem knot (d : BitVec 5) (a : BitVec 5) : Statement (.knot d a) := by
  intro _ hwf
  refine ⟨_, rfl, ?_⟩
  generalize hw : (370#10 ++ 0#2 ++ d ++ 0#2 ++ a ++ 0#7 ++ 0#1 : Word) = ww; change Word at ww
  obtain ⟨hp, h1, h3, hz⟩ := layout54 370#10 (d) (a) hw
  refine decode_v hp rfl ?_ hwf hz
  show some (some (Instr.knot (ww.extractLsb' 15 5) (ww.extractLsb' 8 5), 0x3060FF#32)) = _
  simp only [h1, h3]

theorem kmov (d : BitVec 5) (a : BitVec 5) : Statement (.kmov d a) := by
  intro _ hwf
  refine ⟨_, rfl, ?_⟩
  generalize hw : (371#10 ++ 0#2 ++ d ++ 0#2 ++ a ++ 0#7 ++ 0#1 : Word) = ww; change Word at ww
  obtain ⟨hp, h1, h3, hz⟩ := layout54 371#10 (d) (a) hw
  refine decode_v hp rfl ?_ hwf hz
  show some (some (Instr.kmov (ww.extractLsb' 15 5) (ww.extractLsb' 8 5), 0x3060FF#32)) = _
  simp only [h1, h3]

theorem kcnt (a : BitVec 5) : Statement (.kcnt a) := by
  intro _ hwf
  refine ⟨_, rfl, ?_⟩
  generalize hw : (372#10 ++ 0#7 ++ 0#2 ++ a ++ 0#7 ++ 0#1 : Word) = ww; change Word at ww
  obtain ⟨hp, h2, hz⟩ := layout55 372#10 (a) hw
  refine decode_v hp rfl ?_ hwf hz
  show some (some (Instr.kcnt (ww.extractLsb' 8 5), 0x3FE0FF#32)) = _
  simp only [h2]

theorem lease (n : BitVec 18) : Statement (.lease n) := by
  intro _ hwf
  refine ⟨_, rfl, ?_⟩
  generalize hw : (384#10 ++ 0#4 ++ n : Word) = ww; change Word at ww
  obtain ⟨hp, h1, hz⟩ := layout56 384#10 (n) hw
  refine decode_m hp rfl ?_ hwf hz
  show some (some (Instr.lease (ww.extractLsb' 0 18), 0x3C0000#32)) = _
  simp only [h1]

theorem lrel : Statement (.lrel) := by
  intro _ hwf
  refine ⟨_, rfl, ?_⟩
  generalize hw : (385#10 ++ 0#22 : Word) = ww; change Word at ww
  obtain ⟨hp, hz⟩ := layout6 385#10 hw
  refine decode_m hp rfl ?_ hwf hz
  rfl

theorem mset (c : BitVec 4) (f : BitVec 2) (v : BitVec 16) : Statement (.mset c f v) := by
  intro _ hwf
  refine ⟨_, rfl, ?_⟩
  generalize hw : (388#10 ++ c ++ f ++ v : Word) = ww; change Word at ww
  obtain ⟨hp, h0, h1, h2, hz⟩ := layout57 388#10 (c) (f) (v) hw
  refine decode_m hp rfl ?_ hwf hz
  show some (some (Instr.mset (ww.extractLsb' 18 4) (ww.extractLsb' 16 2) (ww.extractLsb' 0 16), 0x0#32)) = _
  simp only [h0, h1, h2]

theorem maddc (c : BitVec 4) (f : BitVec 2) (v : BitVec 16) : Statement (.maddc c f v) := by
  intro _ hwf
  refine ⟨_, rfl, ?_⟩
  generalize hw : (389#10 ++ c ++ f ++ v : Word) = ww; change Word at ww
  obtain ⟨hp, h0, h1, h2, hz⟩ := layout57 389#10 (c) (f) (v) hw
  refine decode_m hp rfl ?_ hwf hz
  show some (some (Instr.maddc (ww.extractLsb' 18 4) (ww.extractLsb' 16 2) (ww.extractLsb' 0 16), 0x0#32)) = _
  simp only [h0, h1, h2]

theorem mpopc (c : BitVec 4) : Statement (.mpopc c) := by
  intro _ hwf
  refine ⟨_, rfl, ?_⟩
  generalize hw : (390#10 ++ c ++ 0#18 : Word) = ww; change Word at ww
  obtain ⟨hp, h0, hz⟩ := layout58 390#10 (c) hw
  refine decode_m hp rfl ?_ hwf hz
  show some (some (Instr.mpopc (ww.extractLsb' 18 4), 0x3FFFF#32)) = _
  simp only [h0]

theorem mpush (c : BitVec 4) : Statement (.mpush c) := by
  intro _ hwf
  refine ⟨_, rfl, ?_⟩
  generalize hw : (391#10 ++ c ++ 0#18 : Word) = ww; change Word at ww
  obtain ⟨hp, h0, hz⟩ := layout58 391#10 (c) hw
  refine decode_m hp rfl ?_ hwf hz
  show some (some (Instr.mpush (ww.extractLsb' 18 4), 0x3FFFF#32)) = _
  simp only [h0]

theorem mshape (f : BitVec 2) (v : BitVec 16) : Statement (.mshape f v) := by
  intro _ hwf
  refine ⟨_, rfl, ?_⟩
  generalize hw : (392#10 ++ 0#4 ++ f ++ v : Word) = ww; change Word at ww
  obtain ⟨hp, h1, h2, hz⟩ := layout59 392#10 (f) (v) hw
  refine decode_m hp rfl ?_ hwf hz
  show some (some (Instr.mshape (ww.extractLsb' 16 2) (ww.extractLsb' 0 16), 0x3C0000#32)) = _
  simp only [h1, h2]

theorem mma (x : BitVec 8) (y : BitVec 8) (c : BitVec 4) (m : BitVec 2) : Statement (.mma x y c m) := by
  intro _ hwf
  refine ⟨_, rfl, ?_⟩
  generalize hw : (400#10 ++ x ++ y ++ c ++ m : Word) = ww; change Word at ww
  obtain ⟨hp, h0, h1, h2, h3, hz⟩ := layout60 400#10 (x) (y) (c) (m) hw
  refine decode_m hp rfl ?_ hwf hz
  show some (some (Instr.mma (ww.extractLsb' 14 8) (ww.extractLsb' 6 8) (ww.extractLsb' 2 4) (ww.extractLsb' 0 2), 0x0#32)) = _
  simp only [h0, h1, h2, h3]

theorem mmas (x : BitVec 8) (y : BitVec 8) (c : BitVec 4) (m : BitVec 2) : Statement (.mmas x y c m) := by
  intro _ hwf
  refine ⟨_, rfl, ?_⟩
  generalize hw : (401#10 ++ x ++ y ++ c ++ m : Word) = ww; change Word at ww
  obtain ⟨hp, h0, h1, h2, h3, hz⟩ := layout60 401#10 (x) (y) (c) (m) hw
  refine decode_m hp rfl ?_ hwf hz
  show some (some (Instr.mmas (ww.extractLsb' 14 8) (ww.extractLsb' 6 8) (ww.extractLsb' 2 4) (ww.extractLsb' 0 2), 0x0#32)) = _
  simp only [h0, h1, h2, h3]

theorem rclose (c : BitVec 4) : Statement (.rclose c) := by
  intro _ hwf
  refine ⟨_, rfl, ?_⟩
  generalize hw : (408#10 ++ c ++ 0#18 : Word) = ww; change Word at ww
  obtain ⟨hp, h0, hz⟩ := layout58 408#10 (c) hw
  refine decode_m hp rfl ?_ hwf hz
  show some (some (Instr.rclose (ww.extractLsb' 18 4), 0x3FFFF#32)) = _
  simp only [h0]

theorem rdrop : Statement (.rdrop) := by
  intro _ hwf
  refine ⟨_, rfl, ?_⟩
  generalize hw : (409#10 ++ 0#22 : Word) = ww; change Word at ww
  obtain ⟨hp, hz⟩ := layout6 409#10 hw
  refine decode_m hp rfl ?_ hwf hz
  rfl

theorem rwaitFree : Statement (.rwaitFree) := by
  intro _ hwf
  refine ⟨_, rfl, ?_⟩
  generalize hw : (410#10 ++ 0#4 ++ 0#2 ++ 0#16 : Word) = ww; change Word at ww
  obtain ⟨hp, h1, hz⟩ := layout61 410#10 (0#2) hw
  refine decode_m hp rfl ?_ hwf hz
  show some (if ww.extractLsb' 16 2 == 0#2 then some (Instr.rwaitFree, 0x3CFFFF#32) else if ww.extractLsb' 16 2 == 1#2 then some (Instr.rwaitSlot (ww.extractLsb' 0 3), 0x3CFFF8#32) else none) = _
  simp only [h1]
  rfl

theorem rwaitSlot (s : BitVec 3) : Statement (.rwaitSlot s) := by
  intro _ hwf
  refine ⟨_, rfl, ?_⟩
  generalize hw : (410#10 ++ 0#4 ++ 1#2 ++ 0#13 ++ s : Word) = ww; change Word at ww
  obtain ⟨hp, h1, h3, hz⟩ := layout62 410#10 (1#2) (s) hw
  refine decode_m hp rfl ?_ hwf hz
  show some (if ww.extractLsb' 16 2 == 0#2 then some (Instr.rwaitFree, 0x3CFFFF#32) else if ww.extractLsb' 16 2 == 1#2 then some (Instr.rwaitSlot (ww.extractLsb' 0 3), 0x3CFFF8#32) else none) = _
  simp only [h1, h3]
  rfl

theorem cbound (r : BitVec 18) : Statement (.cbound r) := by
  intro _ hwf
  refine ⟨_, rfl, ?_⟩
  generalize hw : (416#10 ++ 0#4 ++ r : Word) = ww; change Word at ww
  obtain ⟨hp, h1, hz⟩ := layout56 416#10 (r) hw
  refine decode_m hp rfl ?_ hwf hz
  show some (some (Instr.cbound (ww.extractLsb' 0 18), 0x3C0000#32)) = _
  simp only [h1]

theorem cord (c : BitVec 4) : Statement (.cord c) := by
  intro _ hwf
  refine ⟨_, rfl, ?_⟩
  generalize hw : (417#10 ++ c ++ 0#18 : Word) = ww; change Word at ww
  obtain ⟨hp, h0, hz⟩ := layout58 417#10 (c) hw
  refine decode_m hp rfl ?_ hwf hz
  show some (some (Instr.cord (ww.extractLsb' 18 4), 0x3FFFF#32)) = _
  simp only [h0]

theorem cstep : Statement (.cstep) := by
  intro _ hwf
  refine ⟨_, rfl, ?_⟩
  generalize hw : (418#10 ++ 0#22 : Word) = ww; change Word at ww
  obtain ⟨hp, hz⟩ := layout6 418#10 hw
  refine decode_m hp rfl ?_ hwf hz
  rfl

theorem chain (n : BitVec 18) : Statement (.chain n) := by
  intro _ hwf
  refine ⟨_, rfl, ?_⟩
  generalize hw : (419#10 ++ 0#4 ++ n : Word) = ww; change Word at ww
  obtain ⟨hp, h1, hz⟩ := layout56 419#10 (n) hw
  refine decode_m hp rfl ?_ hwf hz
  show some (some (Instr.chain (ww.extractLsb' 0 18), 0x3C0000#32)) = _
  simp only [h1]

theorem bdset (k : BitVec 4) (v : BitVec 16) : Statement (.bdset k v) := by
  intro _ hwf
  refine ⟨_, rfl, ?_⟩
  generalize hw : (420#10 ++ k ++ 0#2 ++ v : Word) = ww; change Word at ww
  obtain ⟨hp, h0, h2, hz⟩ := layout63 420#10 (k) (v) hw
  refine decode_m hp rfl ?_ hwf hz
  show some (some (Instr.bdset (ww.extractLsb' 18 4) (ww.extractLsb' 0 16), 0x30000#32)) = _
  simp only [h0, h2]

theorem cinit (x : BitVec 8) (c : BitVec 4) : Statement (.cinit x c) := by
  intro _ hwf
  refine ⟨_, rfl, ?_⟩
  generalize hw : (421#10 ++ x ++ 0#8 ++ c ++ 0#2 : Word) = ww; change Word at ww
  obtain ⟨hp, h0, h2, hz⟩ := layout64 421#10 (x) (c) hw
  refine decode_m hp rfl ?_ hwf hz
  show some (some (Instr.cinit (ww.extractLsb' 14 8) (ww.extractLsb' 2 4), 0x3FC3#32)) = _
  simp only [h0, h2]

theorem cemit : Statement (.cemit) := by
  intro _ hwf
  refine ⟨_, rfl, ?_⟩
  generalize hw : (422#10 ++ 0#22 : Word) = ww; change Word at ww
  obtain ⟨hp, hz⟩ := layout6 422#10 hw
  refine decode_m hp rfl ?_ hwf hz
  rfl

theorem mnotify : Statement (.mnotify) := by
  intro _ hwf
  refine ⟨_, rfl, ?_⟩
  generalize hw : (424#10 ++ 0#22 : Word) = ww; change Word at ww
  obtain ⟨hp, hz⟩ := layout6 424#10 hw
  refine decode_m hp rfl ?_ hwf hz
  rfl

theorem systemCoreInstruction (op : CoreOp) : Statement (.systemCoreInstruction op) := fun h => by cases h
theorem reservedWord (w : Word) (k : BadWord) : Statement (.reservedWord w k) := fun h => by cases h
theorem extWord (imm : BitVec 29) : Statement (.extWord imm) := by
  intro _ _
  refine ⟨_, rfl, ?_⟩
  have hn : (5#3 ++ imm : Word).toNat = 5 * 2 ^ 29 + imm.toNat := cat_toNat (5#3) imm
  have := imm.isLt
  have ht : ((5#3 ++ imm : Word).extractLsb' 29 3).toNat = 5 := by
    rw [BitVec.extractLsb'_toNat, Nat.shiftRight_eq_div_pow, hn]; omega
  have h0 : (5#3 ++ imm : Word).extractLsb' 0 29 = imm := fieldOf (w := (5#3 ++ imm : Word)) 0 (by rw [hn]; omega)
  unfold decode
  rw [if_pos ht, h0]

theorem stageChangeComplete (w : Nat) : Statement (.stageChangeComplete w) := fun h => by cases h
theorem powerDown : Statement (.powerDown) := fun h => by cases h

end RoundTrip

end Sys2Proof.Laws
end

