-- ==== Sys2Proof/Tests/Slice0.lean ====
section
/-! SUPPORT. The model's own tests: ill-formed terms that the checks refuse, words written out from the encodings, single steps, and a
state that meets the hypotheses of every statement. -/

namespace Sys2Proof.Tests

open Sys2Proof Sys2Proof.Machine Sys2Proof.Safety

set_option Elab.async false
set_option maxRecDepth 8000

/-! ### Ill-formed terms -/

/-- Control and X words (R93 to R95): a decider or condition that does not exist, a loop on register 0, a token to its own sender, a shift
of 64, a relation 6, queue 8, a pair at S31, a CSR that is not of the kind the word needs. -/
theorem test_wf_refuses_x :
    [Instr.brc .x 6 1 0, .brc .v 5 1 0, .brc .v 6 8 0, .brc .m 0 16 0, .loop .v 1 0, .loop .x 0 0, .loopr .m 1 0, .loopr .a 0 0,
     .tok .x .x 1, .tok .x .a 0, .brx .v 1, .shli 1 1 64, .shri 1 1 64, .sari 1 1 64, .fcmp 1 1 1 6, .pop 1 8, .push 8 1, .qstat 1 8,
     .evpop 0, .evpop 31, .evpeek 31, .csrr 1 0x006, .csrw 1 0x000, .csrs 1 1 0x014, .csrc 1 1 0x000].all (fun i => !i.wf) = true := by decide

/-- A words (R96 to R98): a sign-free load of 8 bytes, a row count of 0 or 65, a level 2, A31 as a pair, an operation 3, operands beyond
A31, completion target kind 3, a queue of the wrong kind, no path, scope 3. -/
theorem test_wf_refuses_a :
    [Instr.ashli 1 1 64, .ld 1 1 .d true 0, .ldq 8 1 .w false 0, .ldq 1 1 .d true 0, .ldv 1 1 0, .ldv 1 1 65, .ldv 8 1 1, .stq 8 1 .w 0,
     .stv 8 1 1, .stv 1 1 0, .pref 2 1 .b 0, .amocas 1 1 31 false, .amologic 1 1 1 false 3, .copy 1 30 0 0, .copy 1 1 3 0, .copy 1 1 0 4,
     .copy2d 1 27 0 0, .gather 1 29 0 4, .gather 1 1 0 3, .scatter 1 1 0 5, .xfer 1 27 0 5, .xfer 1 1 0 4, .xferm 1 26 0 5, .notify 1 3 0,
     .notify 1 0 6, .notify 1 0 24, .fencex 0 1, .fencex 1 0, .mark 1 0, .join 1 0, .rst 1 31 false 0, .ramo 1 29 false 0,
     .tlbinv 1 3].all (fun i => !i.wf) = true := by decide

/-- V and M words (R99, R100): a relation 6, mask destination K0 or K8, queue 8, a shift by 16 columns, VIOTA 3, 0 or 33 rows, a part that
does not exist, a shape or cursor out of range, a window of 16, a lease of 0 or 65, MSHAPE out of range, CBOUND 7, BD8, C15 in CINIT. -/
theorem test_wf_refuses_vm :
    [Instr.vcmpF 6 1 ⟨.whole, 0⟩ ⟨.whole, 0⟩ false, .vcmpF 0 0 ⟨.whole, 0⟩ ⟨.whole, 0⟩ false, .vcmpI 6 1 ⟨.whole, 0⟩ ⟨.whole, 0⟩ false,
     .vbcast ⟨.whole, 0⟩ 8, .vshift ⟨.whole, 0⟩ ⟨.whole, 0⟩ false false 16, .viota ⟨.whole, 0⟩ 3, .vpop ⟨.whole, 0⟩ 2 0,
     .vpop ⟨.whole, 0⟩ 2 33, .vpush ⟨.whole, 0⟩ 8 1, .vpushx ⟨.whole, 0⟩ 8, .vunpE4 ⟨.whole, 0⟩ ⟨.whole, 0⟩ 4,
     .vunpH ⟨.whole, 0⟩ ⟨.whole, 0⟩ 2, .vpackE4 ⟨.whole, 0⟩ ⟨.whole, 0⟩ false .rne 4, .vpackB ⟨.whole, 0⟩ ⟨.whole, 0⟩ false .rne 2,
     .vshape 0 1, .vshape 33 1, .vshape 1 0, .vshape 1 17, .vcur 32 0 0, .vcur 0 16 0, .vcur 0 0 16, .vrbset 16, .kand 0 1 1, .kor 8 1 1,
     .knot 1 8, .kmov 0 1, .kcnt 8, .lease 0, .lease 65, .mshape 0 0, .mshape 0 257, .mshape 2 513, .mshape 3 1, .cbound 7, .chain 0, .chain 65,
     .bdset 8 1, .cinit 0 15].all (fun i => !i.wf) = true := by decide

/-- Steps of other agents (R3, R239, R275, R372, R376): a BOOTSTAT that bring-up never ends in, a way, an island, a plane or a unit that does
not exist. -/
theorem test_wf_refuses_steps :
    [Instr.powerUp 0, .powerUp 6, .islandClockChange 48 1000, .swayStageSet 16 0, .swayStageClear 16 0, .stageChangeComplete 16, .laneRetry 2 1,
     .laneLossOfLock 2 1, .leaveRequest 2 1, .returnRequest 2 1].all (fun i => !i.wf) = true ∧
    Instr.unitOk 640 .terminate = false ∧ Instr.unitOk 80 .turnGrant = false ∧ Instr.unitOk 160 (.swayStageSet 0 0) = false ∧
    Instr.unitOk 4 .walkerDispatch = false ∧ Instr.unitOk 48 (.networkArrival {} []) = false ∧ Instr.unitOk 1024 .vfTeardown = false ∧
    Instr.unitOk 64 .peerLost = false ∧ Instr.unitOk 640 .nop = false := by decide

/-! ### Words written out bit by bit from the opcode table, one per row -/

/-- Rows of the control map (file 06, opcode table). -/
theorem test_decode_control1 :
    decode 0b10000000_00101100_01011010_10010011 = .ok (.br 2906771) ∧
    decode 0b10000001_01010101_00110010_11000101 = .ok (.brc .a 5 9 4805) ∧
    decode 0b10000010_01110010_10110001_11010100 = .ok (.loop .a 25 45524) ∧
    decode 0b10000011_00110010_10110001_11010100 = .ok (.loopr .x 25 45524) ∧
    decode 0b10000100_00101100_01011010_10010011 = .ok (.call 2906771) ∧
    decode 0b10000101_00000000_00000000_00000000 = .ok .ret ∧
    decode 0b10000110_00000000_00000000_00000000 = .ok .rgn ∧
    decode 0b10000111_00001010_01000000_00000000 = .ok (.tok .x .v 9) ∧
    decode 0b10001000_00000000_00000000_00000000 = .ok .endw ∧
    decode 0b10001001_01110010_00000000_00000000 = .ok (.brx .a 25) := by decide

/-- Rows of the execute map (file 06, opcode table). -/
theorem test_decode_execute1 :
    decode 0b00000000_00000000_00000000_00000000 = .ok .nop ∧
    decode 0b00000000_01100111_10010110_00000000 = .ok (.add 19 25 12) ∧
    decode 0b00000000_10100111_10010110_00000000 = .ok (.sub 19 25 12) ∧
    decode 0b00000000_11100111_10010110_00000000 = .ok (.mul 19 25 12) ∧
    decode 0b00000001_00100111_10010110_00000000 = .ok (.mulh 19 25 12) ∧
    decode 0b00000001_01100111_10010110_00000000 = .ok (.mulhu 19 25 12) ∧
    decode 0b00000001_10100111_10010110_00000000 = .ok (.div 19 25 12) ∧
    decode 0b00000001_11100111_10010110_00000000 = .ok (.divu 19 25 12) ∧
    decode 0b00000010_00100111_10010110_00000000 = .ok (.rem 19 25 12) ∧
    decode 0b00000010_01100111_10010110_00000000 = .ok (.remu 19 25 12) ∧
    decode 0b00000010_10100111_10010110_00000000 = .ok (.and 19 25 12) ∧
    decode 0b00000010_11100111_10010110_00000000 = .ok (.or 19 25 12) ∧
    decode 0b00000011_00100111_10010110_00000000 = .ok (.xor 19 25 12) ∧
    decode 0b00000011_01100111_10010110_00000000 = .ok (.andn 19 25 12) := by decide

/-- Rows of the execute map (file 06, opcode table). -/
theorem test_decode_execute2 :
    decode 0b00000011_10100111_10010110_00000000 = .ok (.shl 19 25 12) ∧
    decode 0b00000011_11100111_10010110_00000000 = .ok (.shr 19 25 12) ∧
    decode 0b00000100_00100111_10010110_00000000 = .ok (.sar 19 25 12) ∧
    decode 0b00000100_01100111_10010110_00000000 = .ok (.rol 19 25 12) ∧
    decode 0b00000100_10100111_10010110_00000000 = .ok (.min 19 25 12) ∧
    decode 0b00000100_11100111_10010110_00000000 = .ok (.max 19 25 12) ∧
    decode 0b00000101_00100111_10010110_00000000 = .ok (.minu 19 25 12) ∧
    decode 0b00000101_01100111_10010110_00000000 = .ok (.maxu 19 25 12) ∧
    decode 0b00000101_10100111_10010110_00000000 = .ok (.slt 19 25 12) ∧
    decode 0b00000101_11100111_10010110_00000000 = .ok (.sltu 19 25 12) ∧
    decode 0b00000110_00100111_10010110_00000000 = .ok (.seq 19 25 12) ∧
    decode 0b00000110_01100111_10010110_00000000 = .ok (.sne 19 25 12) ∧
    decode 0b00000110_10100111_10010000_00000000 = .ok (.clz 19 25) ∧
    decode 0b00000110_11100111_10010000_00000000 = .ok (.ctz 19 25) := by decide

/-- Rows of the execute map (file 06, opcode table). -/
theorem test_decode_execute3 :
    decode 0b00000111_00100111_10010000_00000000 = .ok (.popc 19 25) ∧
    decode 0b00000111_01100111_10010110_01001100 = .ok (.sel 19 25 12 19) ∧
    decode 0b00001000_00100111_10010101_10101100 = .ok (.addi 19 25 1452) ∧
    decode 0b00001000_01100111_10010101_10101100 = .ok (.andi 19 25 1452) ∧
    decode 0b00001000_10100111_10010101_10101100 = .ok (.ori 19 25 1452) ∧
    decode 0b00001000_11100111_10010101_10101100 = .ok (.xori 19 25 1452) ∧
    decode 0b00001001_00100111_10010000_00111111 = .ok (.shli 19 25 63) ∧
    decode 0b00001001_01100111_10010000_00111111 = .ok (.shri 19 25 63) ∧
    decode 0b00001001_10100111_10010000_00111111 = .ok (.sari 19 25 63) ∧
    decode 0b00001001_11100111_10010101_10101100 = .ok (.slti 19 25 1452) ∧
    decode 0b00001010_00100111_10100111_00010101 = .ok (.lui 19 108309) ∧
    decode 0b00001100_00100111_10010110_00000000 = .ok (.fadd 19 25 12) ∧
    decode 0b00001100_01100111_10010110_00000000 = .ok (.fsub 19 25 12) ∧
    decode 0b00001100_10100111_10010110_00000000 = .ok (.fmul 19 25 12) := by decide

/-- Rows of the execute map (file 06, opcode table). -/
theorem test_decode_execute4 :
    decode 0b00001100_11100111_10010110_00000000 = .ok (.ffma 19 25 12) ∧
    decode 0b00001101_00100111_10010110_00000000 = .ok (.fmin 19 25 12) ∧
    decode 0b00001101_01100111_10010110_00000000 = .ok (.fmax 19 25 12) ∧
    decode 0b00001101_10100111_10010110_00000101 = .ok (.fcmp 19 25 12 5) ∧
    decode 0b00001101_11100111_10010000_00000000 = .ok (.fcvtToInt 19 25) ∧
    decode 0b00001101_11100111_10010000_00000001 = .ok (.fcvtToFp 19 25) ∧
    decode 0b00010000_00100110_01010000_00000000 = .ok (.pop 19 5) ∧
    decode 0b00010000_01001101_10010000_00000000 = .ok (.push 6 25) ∧
    decode 0b00010000_10100110_01110000_00000000 = .ok (.qstat 19 7) ∧
    decode 0b00010010_00111100_00000000_00000000 = .ok (.evpop 30) ∧
    decode 0b00010010_01000010_00000000_00000000 = .ok (.evpeek 1) ∧
    decode 0b00010010_10100110_00000000_00000000 = .ok (.evcnt 19) ∧
    decode 0b00010100_00100111_10010000_00000000 = .ok (.launch 19 25) ∧
    decode 0b00010110_00100110_00000000_01011111 = .ok (.csrr 19 95) := by decide

/-- Rows of the execute map (file 06, opcode table). -/
theorem test_decode_execute5 :
    decode 0b00010110_01000001_00110000_00000101 = .ok (.csrw 19 5) ∧
    decode 0b00010110_10100111_10010000_01000000 = .ok (.csrs 19 25 64) ∧
    decode 0b00010110_11100111_10010000_00010100 = .ok (.csrc 19 25 20) ∧
    decode 0b00011000_00000000_00001010_01010011 = .ok (.trap 2643) ∧
    decode 0b00011000_01000000_00000000_00000000 = .ok .eret ∧
    decode 0b00011000_10000000_00000000_00000000 = .ok .wfe := by decide

/-- Rows of the access map (file 06, opcode table). -/
theorem test_decode_access1 :
    decode 0b00100000_00000000_00000000_00000000 = .ok .anop ∧
    decode 0b00100000_01100111_10010110_00000000 = .ok (.aadd 19 25 12) ∧
    decode 0b00100000_10100111_10010110_00000000 = .ok (.asub 19 25 12) ∧
    decode 0b00100000_11100111_10010110_00000000 = .ok (.amul 19 25 12) ∧
    decode 0b00100001_00100111_10010110_00000000 = .ok (.ashl 19 25 12) ∧
    decode 0b00100001_01100111_10010110_00000000 = .ok (.ashr 19 25 12) ∧
    decode 0b00100001_10100111_10010110_00000000 = .ok (.aand 19 25 12) ∧
    decode 0b00100001_11100111_10010110_00000000 = .ok (.amin 19 25 12) ∧
    decode 0b00100010_00100111_10010110_00000000 = .ok (.amax 19 25 12) ∧
    decode 0b00100010_01100111_10010110_00000000 = .ok (.aslt 19 25 12) ∧
    decode 0b00100010_10100111_10010101_10101100 = .ok (.aaddi 19 25 1452) ∧
    decode 0b00100010_11100111_10100111_00010101 = .ok (.alui 19 108309) ∧
    decode 0b00100011_00100111_10010101_10101100 = .ok (.aandi 19 25 1452) ∧
    decode 0b00100011_01100111_10010000_00111111 = .ok (.ashli 19 25 63) := by decide

/-- Rows of the access map (file 06, opcode table). -/
theorem test_decode_access2 :
    decode 0b00100100_00100111_10011011_01001101 = .ok (.ld 19 25 .w true 333) ∧
    decode 0b00100100_01000001_10011011_01001101 = .ok (.ldq 0 25 .w true 333) ∧
    decode 0b00100100_10000101_10010000_01000000 = .ok (.ldv 2 25 64) ∧
    decode 0b00100100_11100111_10010101_01001101 = .ok (.st 19 25 .h 333) ∧
    decode 0b00100101_00000011_10010101_01001101 = .ok (.stq 1 25 .h 333) ∧
    decode 0b00100101_01000111_10010000_00100001 = .ok (.stv 3 25 33) ∧
    decode 0b00100101_10000011_10010101_01001101 = .ok (.pref 1 25 .h 333) ∧
    decode 0b00100110_00100111_10010110_01000000 = .ok (.amoadd 19 25 12 true) ∧
    decode 0b00100110_01100111_10010110_01000000 = .ok (.amoswap 19 25 12 true) ∧
    decode 0b00100110_10100111_10011111_01000000 = .ok (.amocas 19 25 30 true) ∧
    decode 0b00100110_11100111_10010110_01000010 = .ok (.amologic 19 25 12 true 2) ∧
    decode 0b00100111_00100111_10010110_01000010 = .ok (.amominmax 19 25 12 true 2) ∧
    decode 0b00100111_01100111_10010110_00000000 = .ok (.amofadd 19 25 12) ∧
    decode 0b00101000_00000001_00111100_10000000 = .ok (.flagwait 19 25) := by decide

/-- Rows of the access map (file 06, opcode table). -/
theorem test_decode_access3 :
    decode 0b00101000_01000001_00111100_10000000 = .ok (.flaginc 19 25) ∧
    decode 0b00101000_10000001_00111100_10000000 = .ok (.flagset 19 25) ∧
    decode 0b00101000_11100111_10010000_00000000 = .ok (.flagread 19 25) ∧
    decode 0b00101001_00000001_00111100_10000000 = .ok (.bararm 19 25) ∧
    decode 0b00101001_01000001_00110000_00000000 = .ok (.barwait 19) ∧
    decode 0b00101010_00000001_00111110_11000011 = .ok (.copy 19 29 2 3) ∧
    decode 0b00101010_01000001_00111101_00100010 = .ok (.copy2d 19 26 1 2) ∧
    decode 0b00101010_10000001_00111110_01000100 = .ok (.gather 19 28 2 4) ∧
    decode 0b00101010_11000001_00111110_00100100 = .ok (.scatter 19 28 1 4) ∧
    decode 0b00101011_00000001_00111101_01000101 = .ok (.xfer 19 26 2 5) ∧
    decode 0b00101011_01000001_00111100_10100101 = .ok (.xferm 19 25 1 5) ∧
    decode 0b00101011_10000001_00110000_01010111 = .ok (.notify 19 2 23) ∧
    decode 0b00101100_00000001_00111100_10000000 = .ok (.mapinst 19 25) ∧
    decode 0b00101100_01000001_00111100_10000000 = .ok (.mapswap 19 25) := by decide

/-- Rows of the access map (file 06, opcode table). -/
theorem test_decode_access4 :
    decode 0b00101100_10000000_00001001_10000000 = .ok (.mapret 19) ∧
    decode 0b00101100_11100110_00001100_10000000 = .ok (.mapq 19 25) ∧
    decode 0b00101101_00000000_00001001_01110010 = .ok (.fencex 37 50) ∧
    decode 0b00101101_01100110_00001100_10000000 = .ok (.mark 19 50) ∧
    decode 0b00101101_10000001_00110000_00110010 = .ok (.join 19 50) ∧
    decode 0b00101110_00000001_00111100_10000100 = .ok (.rld 19 25 4) ∧
    decode 0b00101110_01000001_00111111_00011011 = .ok (.rst 19 30 true 11) ∧
    decode 0b00101110_10000001_00111100_10111011 = .ok (.rstf 19 25 true true 11) ∧
    decode 0b00101110_11000001_00111110_00011011 = .ok (.ramo 19 28 true 11) ∧
    decode 0b00110000_00000001_00111101_10010000 = .ok (.tidset 19 217) ∧
    decode 0b00110000_01000000_00001011_00110000 = .ok (.tidinv 179) ∧
    decode 0b00110000_10000001_00111101_10010000 = .ok (.tidget 19 217) ∧
    decode 0b00110010_00000001_00110000_00000010 = .ok (.tlbinv 19 2) ∧
    decode 0b00110010_01000001_00110000_00000000 = .ok (.asidset 19) := by decide

/-- Rows of the vector map (file 06, opcode table). -/
theorem test_decode_vector1 :
    decode 0b01000000_00101001_11101001_01011001 = .ok (.vaddF ⟨.col, 19⟩ ⟨.diag, 9⟩ ⟨.row, 12⟩ true) ∧
    decode 0b01000000_01101001_11101001_01011001 = .ok (.vsubF ⟨.col, 19⟩ ⟨.diag, 9⟩ ⟨.row, 12⟩ true) ∧
    decode 0b01000000_10101001_11101001_01011001 = .ok (.vmulF ⟨.col, 19⟩ ⟨.diag, 9⟩ ⟨.row, 12⟩ true) ∧
    decode 0b01000000_11101001_11101001_01011001 = .ok (.vfmaF ⟨.col, 19⟩ ⟨.diag, 9⟩ ⟨.row, 12⟩ true) ∧
    decode 0b01000001_00101001_11101001_01011001 = .ok (.vfmsF ⟨.col, 19⟩ ⟨.diag, 9⟩ ⟨.row, 12⟩ true) ∧
    decode 0b01000001_01101001_11101001_01011001 = .ok (.vminF ⟨.col, 19⟩ ⟨.diag, 9⟩ ⟨.row, 12⟩ true) ∧
    decode 0b01000001_10101001_11101001_01011001 = .ok (.vmaxF ⟨.col, 19⟩ ⟨.diag, 9⟩ ⟨.row, 12⟩ true) ∧
    decode 0b01000001_11101001_11101001_00000001 = .ok (.vabsF ⟨.col, 19⟩ ⟨.diag, 9⟩ true) ∧
    decode 0b01000010_00101001_11101001_00000001 = .ok (.vnegF ⟨.col, 19⟩ ⟨.diag, 9⟩ true) ∧
    decode 0b01000010_01010111_00101100_10100111 = .ok (.vcmpF 5 6 ⟨.row, 12⟩ ⟨.col, 19⟩ true) ∧
    decode 0b01000100_00101001_11101001_01011001 = .ok (.vaddB ⟨.col, 19⟩ ⟨.diag, 9⟩ ⟨.row, 12⟩ true) ∧
    decode 0b01000100_01101001_11101001_01011001 = .ok (.vsubB ⟨.col, 19⟩ ⟨.diag, 9⟩ ⟨.row, 12⟩ true) ∧
    decode 0b01000100_10101001_11101001_01011001 = .ok (.vmulB ⟨.col, 19⟩ ⟨.diag, 9⟩ ⟨.row, 12⟩ true) ∧
    decode 0b01000100_11101001_11101001_01011001 = .ok (.vfmaB ⟨.col, 19⟩ ⟨.diag, 9⟩ ⟨.row, 12⟩ true) := by decide

/-- Rows of the vector map (file 06, opcode table). -/
theorem test_decode_vector2 :
    decode 0b01000101_00101001_11101001_01011001 = .ok (.vfmsB ⟨.col, 19⟩ ⟨.diag, 9⟩ ⟨.row, 12⟩ true) ∧
    decode 0b01000101_01101001_11101001_01011001 = .ok (.vminB ⟨.col, 19⟩ ⟨.diag, 9⟩ ⟨.row, 12⟩ true) ∧
    decode 0b01000101_10101001_11101001_01011001 = .ok (.vmaxB ⟨.col, 19⟩ ⟨.diag, 9⟩ ⟨.row, 12⟩ true) ∧
    decode 0b01001000_00101001_11101001_01011001 = .ok (.vaddI ⟨.col, 19⟩ ⟨.diag, 9⟩ ⟨.row, 12⟩ true) ∧
    decode 0b01001000_01101001_11101001_01011001 = .ok (.vsubI ⟨.col, 19⟩ ⟨.diag, 9⟩ ⟨.row, 12⟩ true) ∧
    decode 0b01001000_10101001_11101001_01011001 = .ok (.vmulI ⟨.col, 19⟩ ⟨.diag, 9⟩ ⟨.row, 12⟩ true) ∧
    decode 0b01001000_11101001_11101001_01011001 = .ok (.vminI ⟨.col, 19⟩ ⟨.diag, 9⟩ ⟨.row, 12⟩ true) ∧
    decode 0b01001001_00101001_11101001_01011001 = .ok (.vmaxI ⟨.col, 19⟩ ⟨.diag, 9⟩ ⟨.row, 12⟩ true) ∧
    decode 0b01001001_01101001_11101001_01011001 = .ok (.vand ⟨.col, 19⟩ ⟨.diag, 9⟩ ⟨.row, 12⟩ true) ∧
    decode 0b01001001_10101001_11101001_01011001 = .ok (.vor ⟨.col, 19⟩ ⟨.diag, 9⟩ ⟨.row, 12⟩ true) ∧
    decode 0b01001001_11101001_11101001_01011001 = .ok (.vxor ⟨.col, 19⟩ ⟨.diag, 9⟩ ⟨.row, 12⟩ true) ∧
    decode 0b01001010_00101001_11101001_01011001 = .ok (.vshl ⟨.col, 19⟩ ⟨.diag, 9⟩ ⟨.row, 12⟩ true) ∧
    decode 0b01001010_01101001_11101001_01011001 = .ok (.vshr ⟨.col, 19⟩ ⟨.diag, 9⟩ ⟨.row, 12⟩ true) ∧
    decode 0b01001010_10101001_11101001_01011001 = .ok (.vsar ⟨.col, 19⟩ ⟨.diag, 9⟩ ⟨.row, 12⟩ true) := by decide

/-- Rows of the vector map (file 06, opcode table). -/
theorem test_decode_vector3 :
    decode 0b01001010_11010010_10101100_10100111 = .ok (.vcmpI 4 5 ⟨.row, 12⟩ ⟨.col, 19⟩ true) ∧
    decode 0b01001100_00101001_11101001_00000001 = .ok (.vrcp ⟨.col, 19⟩ ⟨.diag, 9⟩ true) ∧
    decode 0b01001100_01101001_11101001_00000001 = .ok (.vrsqrt ⟨.col, 19⟩ ⟨.diag, 9⟩ true) ∧
    decode 0b01001100_10101001_11101001_00000001 = .ok (.vexp2 ⟨.col, 19⟩ ⟨.diag, 9⟩ true) ∧
    decode 0b01001100_11101001_11101001_00000001 = .ok (.vlog2 ⟨.col, 19⟩ ⟨.diag, 9⟩ true) ∧
    decode 0b01001101_00101001_11101001_00000001 = .ok (.vtanh ⟨.col, 19⟩ ⟨.diag, 9⟩ true) ∧
    decode 0b01001110_00101001_11101001_00000111 = .ok (.vredsum ⟨.col, 19⟩ ⟨.diag, 9⟩ true true true) ∧
    decode 0b01001110_01101001_11101001_00000111 = .ok (.vredmax ⟨.col, 19⟩ ⟨.diag, 9⟩ true true true) ∧
    decode 0b01010000_00101001_11101001_00000001 = .ok (.vmov ⟨.col, 19⟩ ⟨.diag, 9⟩ true) ∧
    decode 0b01010000_01101001_10100000_00000000 = .ok (.vbcast ⟨.col, 19⟩ 4) ∧
    decode 0b01010000_10101001_11101001_00000000 = .ok (.vtrans ⟨.col, 19⟩ ⟨.diag, 9⟩) ∧
    decode 0b01010000_11101001_11101001_01011001 = .ok (.vsel ⟨.col, 19⟩ ⟨.diag, 9⟩ ⟨.row, 12⟩) ∧
    decode 0b01010001_00101001_11101001_10100001 = .ok (.vshift ⟨.col, 19⟩ ⟨.diag, 9⟩ true false 33) ∧
    decode 0b01010001_01101001_10000000_00000010 = .ok (.viota ⟨.col, 19⟩ 2) := by decide

/-- Rows of the vector map (file 06, opcode table). -/
theorem test_decode_vector4 :
    decode 0b01010010_00101001_10010100_00000000 = .ok (.vpop ⟨.col, 19⟩ 2 32) ∧
    decode 0b01010010_01101001_10011011_11100000 = .ok (.vpush ⟨.col, 19⟩ 3 31) ∧
    decode 0b01010010_10101001_10101000_00000000 = .ok (.vpushx ⟨.col, 19⟩ 5) ∧
    decode 0b01010100_00101001_11101001_00000011 = .ok (.vunpE4 ⟨.col, 19⟩ ⟨.diag, 9⟩ 3) ∧
    decode 0b01010100_01101001_11101001_00000010 = .ok (.vunpE5 ⟨.col, 19⟩ ⟨.diag, 9⟩ 2) ∧
    decode 0b01010100_10101001_11101001_00000001 = .ok (.vunpI8 ⟨.col, 19⟩ ⟨.diag, 9⟩ 1) ∧
    decode 0b01010100_11101001_11101001_00000001 = .ok (.vunpH ⟨.col, 19⟩ ⟨.diag, 9⟩ 1) ∧
    decode 0b01010101_00101001_11101001_01100101 = .ok (.vunpQ4 ⟨.col, 19⟩ ⟨.diag, 9⟩ 12 5) ∧
    decode 0b01010101_01101001_11101001_00110011 = .ok (.vpackE4 ⟨.col, 19⟩ ⟨.diag, 9⟩ true .rdn 3) ∧
    decode 0b01010101_10101001_11101001_00101010 = .ok (.vpackE5 ⟨.col, 19⟩ ⟨.diag, 9⟩ true .rtz 2) ∧
    decode 0b01010101_11101001_11101001_00111001 = .ok (.vpackI8 ⟨.col, 19⟩ ⟨.diag, 9⟩ true .rup 1) ∧
    decode 0b01010110_00101001_11101001_00110001 = .ok (.vpackH ⟨.col, 19⟩ ⟨.diag, 9⟩ true .rdn 1) ∧
    decode 0b01010110_01101001_11101001_00101001 = .ok (.vpackB ⟨.col, 19⟩ ⟨.diag, 9⟩ true .rtz 1) ∧
    decode 0b01010110_10101001_11101001_00000000 = .ok (.vcvtFi ⟨.col, 19⟩ ⟨.diag, 9⟩) := by decide

/-- Rows of the vector map (file 06, opcode table). -/
theorem test_decode_vector5 :
    decode 0b01010110_11101001_11101001_00000000 = .ok (.vcvtIf ⟨.col, 19⟩ ⟨.diag, 9⟩) ∧
    decode 0b01011000_00010000_00010000_00000000 = .ok (.vshape 32 16) ∧
    decode 0b01011000_01001111_10001001_00001110 = .ok (.vcur 31 9 14) ∧
    decode 0b01011000_10000000_00000000_00001101 = .ok (.vrbset 13) ∧
    decode 0b01011010_00101001_10000000_00000000 = .ok (.vpark ⟨.col, 19⟩) ∧
    decode 0b01011010_01101001_10000000_00000000 = .ok (.vunpark ⟨.col, 19⟩) ∧
    decode 0b01011100_00000011_10000011_00001010 = .ok (.kand 7 3 5) ∧
    decode 0b01011100_01000011_00000111_00000010 = .ok (.kor 6 7 1) ∧
    decode 0b01011100_10000010_10000110_00000000 = .ok (.knot 5 6) ∧
    decode 0b01011100_11000000_10000111_00000000 = .ok (.kmov 1 7) ∧
    decode 0b01011101_00000000_00000110_00000000 = .ok (.kcnt 6) := by decide

/-- Rows of the matrix map (file 06, opcode table). -/
theorem test_decode_matrix1 :
    decode 0b01100000_00000000_00000000_01000000 = .ok (.lease 64) ∧
    decode 0b01100000_01000000_00000000_00000000 = .ok .lrel ∧
    decode 0b01100001_00101101_01001100_01100010 = .ok (.mset 11 1 19554) ∧
    decode 0b01100001_01101101_01001100_01100010 = .ok (.maddc 11 1 19554) ∧
    decode 0b01100001_10101100_00000000_00000000 = .ok (.mpopc 11) ∧
    decode 0b01100001_11101100_00000000_00000000 = .ok (.mpush 11) ∧
    decode 0b01100010_00000010_00000010_00000000 = .ok (.mshape 2 512) ∧
    decode 0b01100100_00101100_11110110_01010010 = .ok (.mma 179 217 4 2) ∧
    decode 0b01100100_01101100_11110110_01010010 = .ok (.mmas 179 217 4 2) ∧
    decode 0b01100110_00101100_00000000_00000000 = .ok (.rclose 11) ∧
    decode 0b01100110_01000000_00000000_00000000 = .ok .rdrop ∧
    decode 0b01100110_10000000_00000000_00000000 = .ok .rwaitFree ∧
    decode 0b01100110_10000001_00000000_00000101 = .ok (.rwaitSlot 5) ∧
    decode 0b01101000_00000000_00000000_00000110 = .ok (.cbound 6) := by decide

/-- Rows of the matrix map (file 06, opcode table). -/
theorem test_decode_matrix2 :
    decode 0b01101000_01101100_00000000_00000000 = .ok (.cord 11) ∧
    decode 0b01101000_10000000_00000000_00000000 = .ok .cstep ∧
    decode 0b01101000_11000000_00000000_00100001 = .ok (.chain 33) ∧
    decode 0b01101001_00011100_11011001_11001110 = .ok (.bdset 7 55758) ∧
    decode 0b01101001_01101100_11000000_00111000 = .ok (.cinit 179 14) ∧
    decode 0b01101001_10000000_00000000_00000000 = .ok .cemit ∧
    decode 0b01101010_00000000_00000000_00000000 = .ok .mnotify := by decide

/-- EXT words and words that are none (R58, R60, R101): a reserved TAG, an unassigned opcode, a field value out of range, a bit that
is fixed at 0. -/
theorem test_decode_reserved :
    decode 0b10100000_00000000_00000000_00000011 = .ok (.extWord 3) ∧
    decode 0b11000000_00000000_00000000_00000000 = .error .reservedTag ∧
    decode 0b11111111_11111111_11111111_11111111 = .error .reservedTag ∧
    decode 0b10001010_00000000_00000000_00000000 = .error .unassigned ∧
    decode 0b00000111_10000000_00000000_00000000 = .error .unassigned ∧
    decode 0b00010010_00000000_00000000_00000000 = .error .fieldValue ∧
    decode 0b00000000_00000000_00000000_00000001 = .error .reservedBits := by decide

/-! ### States that meet the hypotheses of the statements: helpers -/

/-- A state in which an engine of tile 0 stands at address 0, with what belongs to the iteration and with a change to the device. -/
def wst (e : Eng) (c : TCore) (f : Dev → Dev) : State :=
  { env := { eng := e }
    dev := f { tiles := ⟨[(0, { running := true, tag := some 0, core := { c with csr := { c.csr with win := 64 } } })]⟩ } }

/-- The same with a handler of X that runs. -/
def whand (c : TCore) : State := wst .x { c with trap := { hand := some { pc := 8 } } } id

/-- Whether an access lands at a place. -/
def lands (r : Res (Loc × BitVec 4)) (loc : Loc) (cls : BitVec 4) : Bool :=
  match r with
  | .ok x _ => decide (x.1 = loc) && decide (x.2 = cls)
  | .wait _ _ => false
  | .trap _ _ _ _ _ => false
  | .sys _ _ => false
  | .roll _ => false

theorem of_lands {r : Res (Loc × BitVec 4)} {loc : Loc} {cls : BitVec 4} (h : lands r loc cls = true) : ∃ d, r = .ok (loc, cls) d := by
  unfold lands at h
  split at h
  · rename_i x d
    simp only [Bool.and_eq_true, decide_eq_true_eq] at h
    exact ⟨d, by rw [← h.1, ← h.2]⟩
  all_goals cases h

/-- Whether a fetch gives a word. -/
def fetches (r : Res Word) (w : Word) : Bool :=
  match r with
  | .ok x _ => decide (x = w)
  | .wait _ _ => false
  | .trap _ _ _ _ _ => false
  | .sys _ _ => false
  | .roll _ => false

theorem of_fetches {r : Res Word} {w : Word} (h : fetches r w = true) : ∃ d, r = .ok w d := by
  unfold fetches at h
  split at h
  · rename_i x d
    exact ⟨d, by rw [of_decide_eq_true h]⟩
  all_goals cases h

theorem of_home {s : State} {t o : Nat} : FromHome s (.spad t o) := by
  refine And.intro (fun _ h => ?_) ?_
  · cases h
  · simp [payToken]

/-- Registers with one value in S, A and C register 1 and another in register 2. -/
def r12 (x y : Dword) : Regs :=
  { s := ((Vector.replicate 32 0).set 1 x).set 2 y, a := ((Vector.replicate 32 0).set 1 x).set 2 y
    c := ((Vector.replicate 16 0).set 1 x).set 2 y }

/-- The base of the tile's own scratchpad window. -/
def own : Dword := 0x7F0000000000

/-- Tile 0 after a word is placed at its text, at its turn. -/
def placed (w : Nat) (e : Eng) (f : TCore → TCore) : State :=
  let s := beginTurn (State.reset.withFetchWord 32 w) 0 e []
  { s with dev := s.dev.onCore 0 f }

/-! ### The words of X -/

theorem test_meets_IntegerWordsOfX :
    Stands (wst .x {} id) .x 0 false ∧ Stands (whand {}) .x 8 true ∧ Claims.intResult (.add 31 1 2) (iter (wst .x {} id)) = some (31, 0) ∧
    Claims.intResult (.sub 0 1 2) (iter (wst .x {} id)) = some (0, 0) := by
  refine ⟨⟨rfl, by decide⟩, ⟨rfl, by decide⟩, by decide, by decide⟩

theorem test_meets_ImmediateWords :
    (∃ w d, Stands (placed 0 .x id) .x 0x10000 false ∧ fetchAt (placed 0 .x id).env (placed 0 .x id).dev 0 .x (0x10000 + 4) = .ok w d ∧
      w.extractLsb' 29 3 ≠ 5) ∧
    (∃ w d, Stands (placed 0 .a id) .a 0x10000 false ∧ fetchAt (placed 0 .a id).env (placed 0 .a id).dev 0 .a (0x10000 + 4) = .ok w d ∧
      w.extractLsb' 29 3 ≠ 5) := by
  obtain ⟨d, h⟩ := of_fetches (r := fetchAt (placed 0 .x id).env (placed 0 .x id).dev 0 .x (0x10000 + 4)) (w := 0) (by decide)
  obtain ⟨g, j⟩ := of_fetches (r := fetchAt (placed 0 .a id).env (placed 0 .a id).dev 0 .a (0x10000 + 4)) (w := 0) (by decide)
  exact ⟨⟨0, d, ⟨rfl, by decide⟩, h, by decide⟩, ⟨0, g, ⟨rfl, by decide⟩, j, by decide⟩⟩

theorem test_meets_ExtendedImmediates :
    (∃ w d, Stands (placed 0 .x id) .x 0x10000 false ∧ fetchAt (placed 0 .x id).env (placed 0 .x id).dev 0 .x (0x10000 + 4) = .ok w d ∧
      w.extractLsb' 29 3 ≠ 5) ∧
    (let s := placed 0 .x fun c => c.onEng .x fun g => { g with prev := .ri .addi 1 2 7 none };
      Stands s .x 0x10000 false ∧ ((iter s).engine .x).prev = .ri .addi 1 2 7 none) ∧
    (let s := placed 0 .x fun c => c.onEng .x fun g => { g with prev := .ri .addi 1 2 7 (some 9) };
      Stands s .x 0x10000 false ∧ ((iter s).engine .x).prev = .ri .addi 1 2 7 (some 9) ∧ (9#29).extractLsb' 23 6 = 0) :=
  ⟨test_meets_ImmediateWords.1, ⟨⟨rfl, by decide⟩, by decide⟩, ⟨⟨rfl, by decide⟩, by decide, by decide⟩⟩

/-- X stands, with an empty and with a full set of queues, with a NaN and an infinity in S1 and S2: what the
statements CountWordsOfX, FloatWordsOfX, FloatCompareAndConvert, QueueWordsOfX, QueueWordsTrapOrWait, EventQueueWords and WaitForEvent ask. -/
theorem test_meets_words_of_x :
    (let s := wst .x { regs := r12 0x7FC00000 0x7F800000 } id;
      Stands s .x 0 false ∧ num32 (((iter s).s 1).setWidth 32) = .nan ∧ num32 (((iter s).s 2).setWidth 32) = .inf false ∧
      ((iter s).s 3).toNat < 2 ^ 24 ∧ (num32 (((iter s).s 3).setWidth 32)).isNan = false ∧ (iter s).ev = [] ∧ (iter s).q.ax = [] ∧ (iter s).q.vx = [] ∧ (iter s).q.mx = [] ∧
      (iter s).q.xa.length < 16 ∧ (iter s).q.xv.length < 16 ∧ (iter s).q.xm.length < 16) ∧
    (let l := List.replicate 16 1;
      let s := wst .x { q := { ax := [7], vx := [8], mx := [9], xa := l, xv := l, xm := l }, ev := [(5, 0)] } id;
      Stands s .x 0 false ∧ (iter s).q.ax = [7] ∧ (iter s).q.vx = [8] ∧ (iter s).q.mx = [9] ∧ (iter s).q.xa.length = 16 ∧
      (iter s).q.xv.length = 16 ∧ (iter s).q.xm.length = 16 ∧ (iter s).ev ≠ []) ∧
    Stands (whand {}) .x 8 true := by
  refine ⟨⟨⟨rfl, by decide⟩, by decide⟩, ⟨⟨rfl, by decide⟩, by decide⟩, ⟨rfl, by decide⟩⟩

/-! ### Floating point -/

/-- The values of one, minus one and zero, from the format of R9 worked out by hand. -/
theorem test_fp32_values : Claims.value32 0x3F800000 = 1 ∧ Claims.value32 0xBF800000 = -1 ∧ Claims.value32 0 = 0 := by
  have h (w : Word) (n : Nat) (b : Bool) (hn : w.toNat = n) (hb : w.getLsbD 31 = b) : Claims.value32 w = (if b then -1 else 1) *
      (if n / 2 ^ 23 % 256 = 0 then ((n % 2 ^ 23 : Nat) : ℚ) / 2 ^ 149
       else ((2 ^ 23 + n % 2 ^ 23 : Nat) : ℚ) * 2 ^ (n / 2 ^ 23 % 256) / 2 ^ 150) := by
    subst hn; subst hb; rfl
  refine ⟨?_, ?_, ?_⟩
  · rw [h 0x3F800000 1065353216 false rfl (by decide)]; norm_num
  · rw [h 0xBF800000 3212836864 true rfl (by decide)]; norm_num
  · rw [h 0 0 false rfl (by decide)]; norm_num

/-- FloatValues: finite operands with a sum, a difference, a product and a fused product that are 0 and that are not, an infinity, a NaN. -/
theorem test_meets_FloatValues :
    Claims.fin32 0x3F800000 ∧ Claims.fin32 0xBF800000 ∧ Claims.fin32 0 ∧ Claims.inf32 0x7F800000 ∧ Claims.nan32 0x7FC00000 ∧
    Claims.value32 0x3F800000 + Claims.value32 0xBF800000 = 0 ∧ Claims.value32 0x3F800000 + Claims.value32 0 ≠ 0 ∧
    Claims.value32 0x3F800000 - Claims.value32 0x3F800000 = 0 ∧ Claims.value32 0x3F800000 - Claims.value32 0xBF800000 ≠ 0 ∧
    Claims.value32 0x3F800000 * Claims.value32 0 = 0 ∧ Claims.value32 0x3F800000 * Claims.value32 0xBF800000 ≠ 0 ∧
    Claims.value32 0x3F800000 * Claims.value32 0xBF800000 + Claims.value32 0x3F800000 = 0 ∧
    Claims.value32 0x3F800000 * Claims.value32 0xBF800000 + Claims.value32 0 ≠ 0 := by
  obtain ⟨h1, h2, h3⟩ := test_fp32_values
  rw [h1, h2, h3]
  refine ⟨by decide, by decide, by decide, by decide, by decide, ?_, ?_, ?_, ?_, ?_, ?_, ?_, ?_⟩ <;> norm_num

theorem test_meets_CsrWords :
    (let s := wst .x { regs := r12 64 65535 } id;
      Stands s .x 0 false ∧ 64 ≤ ((iter s).s 1).toNat ∧ ((iter s).s 2).toNat ≤ 65535 ∧ ((iter s).s 3).toNat < 64) ∧
    (let s := wst .x { regs := r12 65536 0 } id; Stands s .x 0 false ∧ 65535 < ((iter s).s 1).toNat) := by
  refine ⟨⟨⟨rfl, by decide⟩, by decide⟩, ⟨rfl, by decide⟩, by decide⟩

theorem test_meets_NopWord : Stands (wst .x {} id) .x 0 false ∧ Stands (wst .v {} id) .v 0 false ∧ Stands (whand {}) .x 8 true :=
  ⟨⟨rfl, by decide⟩, ⟨rfl, by decide⟩, ⟨rfl, by decide⟩⟩

/-! ### The words of A -/

/-- A stands with the base of its scratchpad in A1, the address below 64 KiB in A2; the memory lists 16 bytes there. -/
def wa (y : Dword) (m : List Byte) (c : TCore) : State :=
  wst .a { c with regs := r12 own y } fun d => { d with mem := Memory.write (spadKey 0 0) m [] }

theorem test_meets_LoadWords :
    (∃ d, Stands (wa 0 [1, 2] {}) .a 0 false ∧ FromHome (wa 0 [1, 2] {}) (.spad 0 8) ∧
      ((iter (wa 0 [1, 2] {})).memAddr 1 .d 1).toNat % msBytes .d = 0 ∧
      Reaches (wa 0 [1, 2] {}) { port := true } ((iter (wa 0 [1, 2] {})).memAddr 1 .d 1) (.spad 0 8) 0 d ∧
      (iter (wa 0 [1, 2] {})).ldq = none ∧ (iter (wa 0 [1, 2] {})).q.ax.length < 16) ∧
    (∃ d, ((iter (wa 0 [1, 2] {})).a 1).toNat % 16 = 0 ∧ Reaches (wa 0 [1, 2] {}) {} ((iter (wa 0 [1, 2] {})).a 1) (.spad 0 0) 0 d) := by
  obtain ⟨d, h⟩ := of_lands (r := locate (wa 0 [1, 2] {}).env (wa 0 [1, 2] {}).dev (who (wa 0 [1, 2] {})) { port := true }
    ((iter (wa 0 [1, 2] {})).memAddr 1 .d 1)) (loc := .spad 0 8) (cls := 0) (by decide)
  obtain ⟨g, j⟩ := of_lands (r := locate (wa 0 [1, 2] {}).env (wa 0 [1, 2] {}).dev (who (wa 0 [1, 2] {})) {}
    ((iter (wa 0 [1, 2] {})).a 1)) (loc := .spad 0 0) (cls := 0) (by decide)
  exact ⟨⟨d, ⟨rfl, by decide⟩, of_home, by decide, h, by decide, by decide⟩, ⟨g, by decide, j⟩⟩

/-- RowLoads and RowStores: 64 rows at the base, one row at the top of the scratchpad. -/
theorem test_meets_RowForms :
    (let s := wst .a { regs := r12 own (own + 0x2FFFC0), moved := 63, q := { va := [5] } } id;
      Stands s .a 0 false ∧ s.env.unit < 640 ∧ (iter s).a 1 = BitVec.ofNat 64 (0x7F0000000000 + 0) ∧
      (unitTile s).tag = some (iter s).csr.vfid ∧ (iter s).moved + 1 = (64#7).toNat ∧ (iter s).q.va = [5]) ∧
    (let s := wst .a { regs := r12 own (own + 0x2FFFC0) } id;
      Stands s .a 0 false ∧ (iter s).a 2 = BitVec.ofNat 64 (0x7F0000000000 + 0x2FFFC0) ∧ (unitTile s).tag = some (iter s).csr.vfid ∧
      (iter s).ldv = none ∧ (iter s).moved = 0 ∧ (iter s).q.av.length + (1#7).toNat ≤ 64 ∧ 0x2FFFC0 + 64 * (1#7).toNat ≤ 0x300000) := by
  refine ⟨⟨⟨rfl, by decide⟩, by decide⟩, ⟨⟨rfl, by decide⟩, by decide⟩⟩

/-- StoreWords, AtomicMinMaxSigned, FlagWords and the table words: an address in the tile's own scratchpad that may be written. -/
theorem test_meets_StoreWords :
    (∃ d, Stands (wa 4 [1, 2] { q := { xa := [7] } }) .a 0 false ∧ payToken (wa 4 [1, 2] { q := { xa := [7] } }).dev 0 (.spad 0 8) ≠ none ∧
      ((iter (wa 4 [1, 2] { q := { xa := [7] } })).memAddr 1 .d 1).toNat % msBytes .d = 0 ∧
      Reaches (wa 4 [1, 2] { q := { xa := [7] } }) { write := true, port := true }
        ((iter (wa 4 [1, 2] { q := { xa := [7] } })).memAddr 1 .d 1) (.spad 0 8) 0 d ∧
      (iter (wa 4 [1, 2] { q := { xa := [7] } })).q.xa = [7]) ∧
    (∃ d, Reaches (wa 4 [1, 2] { tids := (Vector.replicate 256 none).set 255 (some 9) }) { write := true } own (.spad 0 0) 0 d ∧
      (iter (wa 4 [1, 2] { tids := (Vector.replicate 256 none).set 255 (some 9) })).a 1 = own ∧ own.toNat % 64 = 0 ∧
      tidOf (iter (wa 4 [1, 2] { tids := (Vector.replicate 256 none).set 255 (some 9) })).tids 255 = some 9) := by
  obtain ⟨d, h⟩ := of_lands (r := locate (wa 4 [1, 2] { q := { xa := [7] } }).env (wa 4 [1, 2] { q := { xa := [7] } }).dev
    (who (wa 4 [1, 2] { q := { xa := [7] } })) { write := true, port := true }
    ((iter (wa 4 [1, 2] { q := { xa := [7] } })).memAddr 1 .d 1)) (loc := .spad 0 8) (cls := 0) (by decide)
  obtain ⟨g, j⟩ := of_lands (r := locate (wa 4 [1, 2] { tids := (Vector.replicate 256 none).set 255 (some 9) }).env
    (wa 4 [1, 2] { tids := (Vector.replicate 256 none).set 255 (some 9) }).dev
    (who (wa 4 [1, 2] { tids := (Vector.replicate 256 none).set 255 (some 9) })) { write := true } own) (loc := .spad 0 0) (cls := 0)
    (by decide)
  exact ⟨⟨d, ⟨rfl, by decide⟩, by decide, by decide, h, by decide⟩, ⟨g, j, by decide⟩⟩

/-- A2 misaligned for a word, A3 (0) aligned; an address above bit 54. -/
theorem test_meets_AddressFaults :
    Stands (wst .a { regs := r12 1 0x80000000000000 } id) .a 0 false ∧
    ((iter (wst .a { regs := r12 1 0x80000000000000 } id)).memAddr 1 .h 0).toNat % msBytes .h ≠ 0 ∧
    ((iter (wst .a { regs := r12 1 0x80000000000000 } id)).memAddr 2 .d 0).toNat % msBytes .d = 0 ∧
    2 ^ 55 ≤ ((iter (wst .a { regs := r12 1 0x80000000000000 } id)).memAddr 2 .d 0).toNat ∧ encode (.st 1 2 .d 0) ≠ none := by
  refine ⟨⟨rfl, by decide⟩, by decide⟩

/-- Whether a result is a value that passes a test. -/
def okBy {α : Type} (r : Res α) (p : α → Dev → Bool) : Bool :=
  match r with
  | .ok x d => p x d
  | .wait _ _ => false
  | .trap _ _ _ _ _ => false
  | .sys _ _ => false
  | .roll _ => false

theorem of_okBy {α : Type} {r : Res α} {p : α → Dev → Bool} (h : okBy r p = true) : ∃ x d, r = .ok x d ∧ p x d = true := by
  unfold okBy at h
  split at h
  · exact ⟨_, _, rfl, h⟩
  all_goals cases h
/-! ### Prefetch, atomics, flags, barriers, tables -/

/-- A at its text with A1 an address of it: a page of HBM that may be read. -/
def wpref : State := placed 0 .a fun c => { c with regs := r12 0x10040 3 }

theorem test_meets_Prefetch :
    Stands wpref .a 0x10000 false ∧ ((iter wpref).memAddr 2 .h 0).toNat % msBytes .h ≠ 0 ∧
    ((iter wpref).memAddr 1 .b 0).toNat % msBytes .b = 0 ∧
    translate wpref.env wpref.dev (who wpref) {} ((iter wpref).memAddr 1 .b 0) = .ok (.hbm 0x40040) 0 ∧
    payToken wpref.dev 0 (.hbm 0x40040) ≠ none := by
  refine ⟨⟨rfl, by decide⟩, by decide, by decide, by decide, by decide⟩

/-- A stands with a scratchpad address in A1 whose first 16 bytes hold the value 4 and a setter; A2 holds 4. -/
def wflag : State := wa 4 [4, 0, 0, 0, 0, 0, 0, 0, 9] {}

theorem test_meets_AtomicWords :
    (∃ d, Stands wflag .a 0 false ∧ Reaches wflag { write := true } ((iter wflag).a 1) (.spad 0 0) 0 d ∧
      ((iter wflag).a 1).toNat % 8 = 0 ∧ leNat (getBytes wflag.dev (.spad 0 0) 8) = 4 ∧ ((iter wflag).a 2).toNat = 4 ∧
      ((iter wflag).a 1).toNat % 16 = 0 ∧ (iter wflag).a 3 = 0 ∧ (iter wflag).csr.profctl = 0 ∧ wflag.dev.waiters = [] ∧
      ((iter wflag).a 2).toNat ≤ leNat ((getBytes wflag.dev (.spad 0 0) 16).take 8)) := by
  obtain ⟨d, h⟩ := of_lands (r := locate wflag.env wflag.dev (who wflag) { write := true } ((iter wflag).a 1)) (loc := .spad 0 0) (cls := 0)
    (by decide)
  exact ⟨d, ⟨rfl, by decide⟩, h, by decide⟩

/-- A waits at a FLAGWAIT of its text for the flag at the base of its scratchpad, which holds 4. -/
def wwait : State :=
  let s := placed 0x28001100 .a fun c => { c with regs := r12 own 4 }
  { s with dev := { s.dev with waiters := [⟨0, own, 0, 4⟩], mem := Memory.write (spadKey 0 0) [4] s.dev.mem } }

theorem test_meets_FlagWaitSatisfied :
    ∃ d, ready wwait.dev wwait.env.unit .a = .go 0x10000 false ∧
      peekAt wwait.env wwait.dev wwait.env.unit .a 0x10000 = some 0x28001100 ∧ decode 0x28001100 = .ok (.flagwait 1 2) ∧
      (∃ x, wwait.dev.waiters = [x] ∧ x.tile = wwait.env.unit) ∧ ((iter wwait).a 1).toNat % 16 = 0 ∧
      Reaches wwait { write := true } ((iter wwait).a 1) (.spad 0 0) 0 d ∧ (iter wwait).a 2 ≠ 0 ∧ (iter wwait).csr.profctl = 0 ∧
      ((iter wwait).a 2).toNat ≤ leNat ((getBytes wwait.dev (.spad 0 0) 16).take 8) := by
  obtain ⟨d, h⟩ := of_lands (r := locate wwait.env wwait.dev (who wwait) { write := true } ((iter wwait).a 1)) (loc := .spad 0 0) (cls := 0)
    (by decide)
  exact ⟨d, by decide, by decide, by decide, ⟨_, rfl, rfl⟩, by decide, h, by decide, by decide, by decide⟩

/-- Barrier objects in states 0 and 2 at the base of the scratchpad; byte counts 1 and 2^56 - 1. -/
theorem test_meets_BarrierWords :
    (∃ d, Stands (wa 1 [] {}) .a 0 false ∧ (barOf (getBytes (wa 1 [] {}).dev (.spad 0 0) 16)).state = 0 ∧
      Reaches (wa 1 [] {}) { write := true } ((iter (wa 1 [] {})).a 1) (.spad 0 0) 0 d ∧ ((iter (wa 1 [] {})).a 1).toNat % 16 = 0 ∧
      0 < ((iter (wa 1 [] {})).a 2).toNat) ∧
    (∃ d, (barOf (getBytes (wa 0xFFFFFFFFFFFFFF [0, 0, 0, 0, 0, 0, 0, 2] {}).dev (.spad 0 0) 16)).state = 2 ∧
      Reaches (wa 0xFFFFFFFFFFFFFF [0, 0, 0, 0, 0, 0, 0, 2] {}) {}
        ((iter (wa 0xFFFFFFFFFFFFFF [0, 0, 0, 0, 0, 0, 0, 2] {})).a 1) (.spad 0 0) 0 d ∧
      ((iter (wa 0xFFFFFFFFFFFFFF [0, 0, 0, 0, 0, 0, 0, 2] {})).a 2).toNat < 2 ^ 56) := by
  obtain ⟨d, h⟩ := of_lands (r := locate (wa 1 [] {}).env (wa 1 [] {}).dev (who (wa 1 [] {})) { write := true }
    ((iter (wa 1 [] {})).a 1)) (loc := .spad 0 0) (cls := 0) (by decide)
  obtain ⟨g, j⟩ := of_lands (r := locate (wa 0xFFFFFFFFFFFFFF [0, 0, 0, 0, 0, 0, 0, 2] {}).env
    (wa 0xFFFFFFFFFFFFFF [0, 0, 0, 0, 0, 0, 0, 2] {}).dev (who (wa 0xFFFFFFFFFFFFFF [0, 0, 0, 0, 0, 0, 0, 2] {})) {}
    ((iter (wa 0xFFFFFFFFFFFFFF [0, 0, 0, 0, 0, 0, 0, 2] {})).a 1)) (loc := .spad 0 0) (cls := 0) (by decide)
  exact ⟨⟨d, ⟨rfl, by decide⟩, by decide, h, by decide, by decide⟩, ⟨g, by decide, j, by decide⟩⟩

/-- A descriptor of rank 1: four FP32 elements from address 0x10000 on, key 1. -/
def dsc : Row := 0x10000 + 4 * 2 ^ 128 + 1 * 2 ^ 160 + 1 * 2 ^ 192 + 1 * 2 ^ 224 + 4 * 2 ^ 256 + 1 * 2 ^ 416 + 1 * 2 ^ 444

/-- A with that descriptor at the base of its scratchpad. -/
def wtid : State := wa 0xFFFF (rowBytes dsc) {}

theorem test_meets_TableAndPrivilegedWords :
    (∃ d, Stands wtid .a 0 false ∧ ((iter wtid).a 1).toNat % 64 = 0 ∧ Reaches wtid {} ((iter wtid).a 1) (.spad 0 0) 0 d ∧
      FromHome wtid (.spad 0 0) ∧ tidCheck 1 (rowOf (getBytes wtid.dev (.spad 0 0) 64)) = 0) ∧
    (wtid.dev.vf (iter wtid).csr.vfid.toNat).priv = false ∧
    (let s := wst .a { regs := r12 0xFFFF 0 } fun d => { d with vfs := ⟨[(0, { priv := true })]⟩ };
      Stands s .a 0 false ∧ (s.dev.vf (iter s).csr.vfid.toNat).priv = true ∧ ((iter s).a 1).toNat < 2 ^ 16) ∧
    (let s := wst .a { regs := r12 0x10000 0 } fun d => { d with vfs := ⟨[(0, { priv := true })]⟩ };
      Stands s .a 0 false ∧ (s.dev.vf (iter s).csr.vfid.toNat).priv = true ∧ 2 ^ 16 ≤ ((iter s).a 1).toNat) := by
  obtain ⟨d, h⟩ := of_lands (r := locate wtid.env wtid.dev (who wtid) {} ((iter wtid).a 1)) (loc := .spad 0 0) (cls := 0) (by decide)
  exact ⟨⟨d, ⟨rfl, by decide⟩, by decide, h, of_home, by decide⟩, by decide, ⟨⟨rfl, by decide⟩, by decide⟩, ⟨⟨rfl, by decide⟩, by decide⟩⟩

/-! ### C words, launch, traps -/

theorem test_meets_BranchWords :
    (let s := wst .v { eng := (Vector.replicate 4 {}).set 2 { ret := List.replicate 8 4 } } id;
      Stands s .v 0 false ∧ ((iter s).engine .v).ret.length = 8 ∧ ((iter s).engine .v).ret = 4 :: List.replicate 7 4) ∧
    (let s := wst .m {} id; Stands s .m 0 false ∧ ((iter s).engine .m).ret = [] ∧ ((iter s).engine .m).ret.length < 8) ∧
    (let s := whand {}; Stands s .x 8 true ∧ ∃ h, (iter s).trap.hand = some h ∧ h.ret.length < 8 ∧ h.ret = []) ∧
    (let s := wst .x { trap := { hand := some { pc := 8, ret := List.replicate 8 4 } } } id;
      Stands s .x 8 true ∧ ∃ h, (iter s).trap.hand = some h ∧ h.ret.length = 8 ∧ h.ret = 4 :: List.replicate 7 4) := by
  refine ⟨⟨⟨rfl, by decide⟩, by decide⟩, ⟨⟨rfl, by decide⟩, by decide⟩, ⟨⟨rfl, by decide⟩, _, rfl, by decide⟩,
    ⟨⟨rfl, by decide⟩, _, rfl, by decide⟩⟩

/-- Every decider stands with room in the outcome queues (31 held, 0 held); S1 and A1 hold 1, so that LOOP ends, S2 and A2 hold 2. -/
theorem test_meets_DecidedWords :
    (let s := wst .x { regs := r12 1 2, eng := Vector.replicate 4 { outs := List.replicate 31 0 } } id;
      Stands s .x 0 false ∧ (∀ g, g ≠ .x → ((iter s).engine g).outs.length < 32) ∧ (iter s).s 1 - 1 = 0 ∧ (iter s).s 2 - 1 ≠ 0) ∧
    (let s := wst .a { regs := r12 1 2 } id;
      Stands s .a 0 false ∧ (∀ g, g ≠ .a → ((iter s).engine g).outs.length < 32) ∧ (iter s).a 1 - 1 = 0 ∧ (iter s).a 2 - 1 ≠ 0) ∧
    (let s := wst .v {} id; Stands s .v 0 false ∧ ∀ g, g ≠ .v → ((iter s).engine g).outs.length < 32) ∧
    (let s := wst .m {} id; Stands s .m 0 false ∧ ∀ g, g ≠ .m → ((iter s).engine g).outs.length < 32) := by
  refine ⟨⟨⟨rfl, by decide⟩, ?_, by decide⟩, ⟨⟨rfl, by decide⟩, ?_, by decide⟩, ⟨⟨rfl, by decide⟩, ?_⟩, ⟨⟨rfl, by decide⟩, ?_⟩⟩ <;>
    intro g _ <;> cases g <;> decide

theorem test_meets_FollowedWords :
    (let s := wst .v { eng := Vector.replicate 4 { outs := [1] } } id; Stands s .v 0 false ∧ ((iter s).engine .v).outs = [1]) ∧
    (let s := wst .m {} id; Stands s .m 0 false ∧ ((iter s).engine .m).outs = []) := by
  refine ⟨⟨⟨rfl, by decide⟩, by decide⟩, ⟨⟨rfl, by decide⟩, by decide⟩⟩

/-- TOK: the counter of X to V (2) holds 15, that of X to A (1) holds 1. -/
theorem test_meets_TokenWords :
    (let s := wst .x { tok := ((Vector.replicate 16 0).set 2 15).set 1 1 } id;
      Stands s .x 0 false ∧ ((iter s).tok.toList.getD 2 0).toNat + 1 > 15 ∧ ((iter s).tok.toList.getD 1 0).toNat + 14 ≤ 15) ∧
    (let s := wst .v { tok := (Vector.replicate 16 0).set 2 15 } id; Stands s .v 0 false ∧ 15 ≤ ((iter s).tok.toList.getD 2 0).toNat) := by
  refine ⟨⟨⟨rfl, by decide⟩, by decide⟩, ⟨⟨rfl, by decide⟩, by decide⟩⟩

/-- RGN: X is the last to reach the word; the queues are empty, or q.ax is not. -/
theorem test_meets_RegionEntry :
    (let s := wst .x { eng := (Vector.replicate 4 { wait := some { code := 7 } }).set 0 {} } id;
      Stands s .x 0 false ∧ (iter s).sfu = Vector.replicate 8 none ∧ (∀ g, g ≠ .x → ((iter s).engine g).walk = ((iter s).engine .x).walk ∧
        ∃ w, ((iter s).engine g).wait = some w ∧ w.code = 7) ∧
      (iter s).q = {} ∧ (iter s).tok = Vector.replicate 16 0 ∧ ∀ g, ((iter s).engine g).outs = []) ∧
    (let s := wst .x { q := { ax := [1] }, eng := (Vector.replicate 4 { wait := some { code := 7 } }).set 0 {} } id;
      Stands s .x 0 false ∧ (iter s).q.ax ≠ []) := by
  refine ⟨⟨⟨rfl, by decide⟩, by decide, ?_, by decide, by decide, ?_⟩, ⟨⟨rfl, by decide⟩, by decide⟩⟩
  · intro g hg
    refine ⟨?_, ⟨{ code := 7 }, ?_, rfl⟩⟩ <;> cases g <;> first | rfl | exact absurd rfl hg
  · intro g; cases g <;> rfl

theorem test_meets_EndWord :
    Stands (wst .x {} id) .x 0 false ∧ (Stands (wst .v {} id) .v 0 false ∧ (iter (wst .v {} id)).sfu = Vector.replicate 8 none) ∧
    (Stands (wst .m {} id) .m 0 false ∧ (iter (wst .m {} id)).lease.held = false ∧ (iter (wst .m {} id)).closed = false) ∧
    (let s := wst .a { named := [5] } id;
      Stands s .a 0 false ∧ (iter s).named = [5] ∧ (s.dev.queue s.env.unit 5).length < 32) ∧ (iter (wst .a {} id)).named = [] := by
  refine ⟨⟨rfl, by decide⟩, ⟨⟨rfl, by decide⟩, by decide⟩, ⟨⟨rfl, by decide⟩, by decide⟩, ⟨⟨rfl, by decide⟩, by decide⟩, by decide⟩

/-- TrapWord, ReservedWords, UndeliverableTrap and ReturnFromTrap: TVEC is 8, or 0; a handler runs or not. -/
theorem test_meets_traps :
    (let s := wst .x { csr := { tvec := 8 } } id; Stands s .x 0 false ∧ (iter s).csr.tvec ≠ 0 ∧ (iter s).csr.profctl = 0) ∧
    (let s := wst .m { csr := { tvec := 8 } } id; Stands s .m 0 false ∧ (iter s).csr.tvec ≠ 0 ∧ (iter s).csr.profctl = 0 ∧
      (0x7FFFFFFF#32).extractLsb' 29 3 = 3) ∧
    (let s := wst .x {} id; Stands s .x 0 false ∧ (iter s).csr.tvec = 0) ∧
    (let s := wst .x { trap := { hand := some { pc := 8 } }, eng := Vector.replicate 4 { pc := 4 } } id;
      Stands s .x 8 true ∧ ((iter s).engine .x).pc = 0 + 4 ∧ (iter s).csr.profctl = 0 ∧ (iter s).trap.pendRb = none) := by
  refine ⟨⟨⟨rfl, by decide⟩, by decide⟩, ⟨⟨rfl, by decide⟩, by decide⟩, ⟨⟨rfl, by decide⟩, by decide⟩, ⟨⟨rfl, by decide⟩, by decide⟩⟩
/-! ### A context area that can be written -/

/-- A VF has the scratchpad of a tile, and no memory has an uncorrectable error. -/
def Sound (d : Dev) (t : Nat) (vf : BitVec 10) : Prop := (d.tile t).tag = some vf ∧ d.bad = []

theorem sound_putBytes {d : Dev} {u : Nat} {vf : BitVec 10} (loc : Loc) (b : List Byte) (h : Sound d u vf) : Sound (putBytes d loc b) u vf := by
  have ht : (putBytes d loc b).tiles = d.tiles := by
    unfold putBytes markDirty dropResv
    split <;> split <;> (try split) <;> rfl
  have hb : (putBytes d loc b).bad = d.bad := by
    unfold putBytes markDirty dropResv
    split <;> split <;> (try split) <;> rfl
  unfold Sound Dev.tile; rw [ht, hb]; exact h

theorem sound_onTile {d : Dev} {u : Nat} {vf : BitVec 10} (t : Nat) (f : Tile → Tile) (hf : ∀ y, (f y).tag = y.tag) (h : Sound d u vf) :
    Sound (d.onTile t f) u vf := by
  refine ⟨?_, h.2⟩
  by_cases e : u = t
  · subst e; simpa [Dev.onTile, Dev.setTile, Dev.tile, hf] using h.1
  · simp only [Dev.onTile, Dev.setTile, Dev.tile]; rw [NMap.get_set_other _ _ _ e]; exact h.1

theorem sound_storeSpan (env : Env) (vf v : BitVec 10) (cls : BitVec 4) (u t : Nat) : ∀ (f : Nat) (d : Dev) (o : Nat) (b : List Byte),
    Sound d u v → Sound (storeSpan env .none vf cls f d (.spad t o) b) u v
  | 0, _, _, _, h => h
  | f + 1, d, o, b, h => by
    unfold storeSpan
    split
    · exact h
    · refine sound_storeSpan env vf v cls u t f _ _ _ ?_
      unfold storeAt storeMark
      exact sound_putBytes _ _ (sound_onTile (d := d) t (fun y => { y with spTs := _ }) (fun _ => rfl) h)

theorem own_toNat {o : Nat} (ho : o < 0x300000) : (own + dw o).toNat = 0x7F0000000000 + o := by
  have h : own.toNat = 0x7F0000000000 := by decide
  rw [BitVec.toNat_add, h]; simp only [dw, BitVec.toNat_ofNat]; omega

theorem locate_own {env : Env} {d : Dev} {w : Who} {o : Nat} (ht : w.tile < 640) (h : Sound d w.tile w.vf) (ho : o < 0x300000) :
    locate env d w { write := true } (own + dw o) = .ok (.spad w.tile o, 0) d := by
  have hn := own_toNat ho
  have hin : inWindow (own + dw o) = true := by
    unfold inWindow; rw [hn]; simp; omega
  have hv : va55 (own + dw o) = true := by
    unfold va55; rw [hn]; simp; omega
  have htr : Machine.translate env d w { write := true } (own + dw o) = .ok (.spad w.tile o) 0 := by
    unfold Machine.translate; rw [hv, hin]; simp only [Bool.not_true, if_true, windowLoc, hn]
    simp [h.1, h.2, ht]; omega
  unfold locate; rw [htr]; simp only [keepTlb, hin, if_true]

theorem hwWrite_nil (env : Env) (w : Who) : ∀ (f : Nat) (d : Dev) (va : Dword), ∃ d1, hwWrite env w .none f d va [] = .ok () d1
  | 0, d, _ => ⟨d, rfl⟩
  | _ + 1, d, _ => ⟨d, rfl⟩

theorem hwWrite_own {env : Env} {w : Who} (ht : w.tile < 640) : ∀ (f : Nat) (d : Dev) (o : Nat) (b : List Byte),
    Sound d w.tile w.vf → o % 65536 = 0 → o + f * 65536 ≤ 0x300000 →
    ∃ d1, hwWrite env w .none f d (own + dw o) b = .ok () d1
  | 0, d, _, _, _, _, _ => ⟨d, rfl⟩
  | f + 1, d, o, b, h, hm, hl => by
    unfold hwWrite
    split
    · exact ⟨d, rfl⟩
    · rw [locate_own ht h (by omega)]
      have hn : (own + dw o).toNat % 65536 = 0 := by
        rw [own_toNat (by omega)]; omega
      simp only [Res.bind, hn, Nat.sub_zero]
      have ht' : Sound (storeSpan env .none w.vf 0 (min b.length 65536) d (.spad w.tile o) (b.take (min b.length 65536))) w.tile w.vf :=
        sound_storeSpan env w.vf w.vf 0 w.tile w.tile _ d o _ h
      generalize storeSpan env .none w.vf 0 (min b.length 65536) d (.spad w.tile o) (b.take (min b.length 65536)) = d' at ht' ⊢
      by_cases hk : b.length < 65536
      · rw [Nat.min_eq_left (Nat.le_of_lt hk), List.drop_length]
        exact hwWrite_nil env w f _ _
      · rw [Nat.min_eq_right (Nat.le_of_not_lt hk)]
        have e : own + dw o + dw 65536 = own + dw (o + 65536) := by
          rw [BitVec.add_assoc, show dw o + dw 65536 = dw (o + 65536) from (BitVec.ofNat_add o 65536).symm]
        rw [e]
        exact hwWrite_own ht f d' (o + 65536) _ ht' (by omega) (by omega)

/-- Tile 0 with a pre-empted iteration whose context area is its own scratchpad. -/
def wsave : State :=
  { dev := { tiles := ⟨[(0, { running := true, saving := true, tag := some 0, core := { csr := { ctxptr := own } } })]⟩ } }

theorem wsave_written (a : Bool) : ∃ d1, writeContext wsave.env wsave.dev wsave.env.unit a = .ok () d1 := by
  obtain ⟨d1, h⟩ := hwWrite_own (env := wsave.env) (w := { whoTile wsave.dev 0 with unit := .own }) (by decide) 4 wsave.dev 0
    (ctxImage wsave.dev 0 a) ⟨by decide, rfl⟩ (by decide) (by decide)
  have h' : hwWrite wsave.env { whoTile wsave.dev 0 with unit := .own } .none 4 wsave.dev own (ctxImage wsave.dev 0 a) = .ok () d1 := h
  refine ⟨d1, ?_⟩
  have hc : ((wsave.dev.tile 0).core).csr.ctxptr = own := by decide
  have hp : ((wsave.dev.tile 0).core).pending.isEmpty = true := by decide
  show writeContext wsave.env wsave.dev 0 a = .ok () d1
  unfold writeContext
  simp only [hc, hp]
  rw [h']
  rfl
/-! ### Launch, management, iterations -/

/-- A nest record (R38): one iteration, text and argument at 0x10000, VF 0, partition 0, no flag, no successors, DEPCNT 0. -/
def nrec : Nat :=
  0x10000 + 0x10000 * 2 ^ 64 + 2 ^ 384 + 2 ^ 416 + 2 ^ 448 + 2 ^ 480 + 2 ^ 512 + 2 ^ 544 +
  (1 + 2 * 8 + 3 * 64 + 4 * 512 + 5 * 4096) * 2 ^ 615

/-- X with that record at the base of the scratchpad, partition 0 of VF 0 being tile 0. -/
def wlaunch : State :=
  let s := placed 0 .x fun c => { c with regs := r12 own 1 }
  { s with dev := { s.dev with mem := Memory.write (spadKey 0 0) (natLe 128 nrec) s.dev.mem, parts := ⟨[(0, 1)]⟩ } }

theorem own_zero : own = own + dw 0 := by decide

theorem wlaunch_at : locate wlaunch.env wlaunch.dev { whoEng wlaunch.dev 0 .x with unit := .access 0 } { write := true } own =
    .ok (.spad 0 0, 0) wlaunch.dev := by
  rw [own_zero]; exact locate_own (w := { whoEng wlaunch.dev 0 .x with unit := .access 0 }) (by decide) ⟨by decide, rfl⟩ (by decide)

theorem test_meets_LaunchWord :
    (Stands wlaunch .x 0x10000 false ∧ ((iter wlaunch).s 2).toNat % 128 ≠ 0) ∧
    (∃ d1 b d2, ((iter wlaunch).s 1).toNat % 128 = 0 ∧
      locate wlaunch.env wlaunch.dev { whoEng wlaunch.dev 0 .x with unit := .access 0 } { write := true } ((iter wlaunch).s 1) =
        .ok (.spad 0 0, 0) d1 ∧
      readRecord wlaunch.env d1 (.tile 0 0) (iter wlaunch).csr.vfid 0 (some 0) (.spad 0 0) = .ok b d2 ∧
      (let r := putBits (leNat b) 768 64 (leNat (getBytes wlaunch.dev ((Loc.spad 0 0).plus 96) 8));
        decide (recBits r 784 4 = 0) && decide (recCheck wlaunch.env d2 (iter wlaunch).csr.vfid r = 0)) = true) := by
  have e : (iter wlaunch).s 1 = own := by decide
  obtain ⟨b, d2, h, k⟩ := of_okBy (r := readRecord wlaunch.env wlaunch.dev (.tile 0 0) (iter wlaunch).csr.vfid 0 (some 0) (.spad 0 0))
    (p := fun b d2 => let r := putBits (leNat b) 768 64 (leNat (getBytes wlaunch.dev ((Loc.spad 0 0).plus 96) 8));
        decide (recBits r 784 4 = 0) && decide (recCheck wlaunch.env d2 (iter wlaunch).csr.vfid r = 0)) (by decide)
  exact ⟨⟨⟨rfl, by decide⟩, by decide⟩, wlaunch.dev, b, d2, by decide, by rw [e]; exact wlaunch_at, h, k⟩
theorem test_meets_ManagementSteps :
    (State.reset.dev.powered = false ∨ State.reset.dev.mgmt.bootstat = 0) ∧ (1050#16).toNat ≤ (vget State.reset.env.caps.maxF 0 0).toNat ∧
    (let g : Mgmt := { mbState := 1, mbOp := 1, mlogcnt := 4095 }; g.mbState = 1 ∧ g.mbOp = 1 ∧ g.mlogcnt.toNat < 4096) ∧
    (let g : Mgmt := { mbState := 1, mbOp := 1, mlogcnt := 4096 }; g.mbState = 1 ∧ g.mbOp = 1 ∧ 4096 ≤ g.mlogcnt.toNat) ∧
    (let g : Mgmt := { mbState := 1, mbOp := 2 }; g.mbState = 1 ∧ g.mbOp = 2) ∧
    (let g : Mgmt := { mbState := 1, mbOp := 0 }; g.mbState = 1 ∧ g.mbOp = 0) := by decide

/-- The node of that record, ready, with tile 0 idle: the walker of die 0 places its iteration on tile 0. -/
def wnode : State :=
  { dev := { wlaunch.dev with tiles := ⟨[(0, { tag := some 0 })]⟩, nodes := ⟨[(0, { va := own, copy := BitVec.ofNat 768 nrec, ph := .ready })]⟩ } }

theorem test_meets_LaunchSteps :
    (∃ d1, (0x7E0000000000#64).toNat % 128 = 0 ∧
      locate wlaunch.env wlaunch.dev { whoVf wlaunch.dev 0 640 with unit := .core wlaunch.env.unit } { write := true } 0x7E0000000000 =
        .ok (.spad 0 0, 0) d1 ∧
      let ld := loadSpan wlaunch.env (.core 0) 0 0 3 d1 (.spad 0 0) 128;
      let r := putBits (leNat ld.1) 768 64 (leNat (getBytes ld.2 ((Loc.spad 0 0).plus 96) 8));
      recBits r 784 4 = 0 ∧ recCheck wlaunch.env ld.2 0 r = 0) ∧
    (∃ x b, wnode.dev.nodes.entries = [(0, x)] ∧ x.ph = .ready ∧ x.fld 658 2 ≠ 1 ∧ x.next < x.total ∧
      (wnode.dev.vf x.vf.toNat).tearing = false ∧ x.die = wnode.env.unit ∧ resumables wnode.dev 0 = [] ∧
      placeNext wnode.env wnode.dev x.bound.length 0 x = some (0, b)) := by
  refine ⟨⟨wlaunch.dev, by decide, rfl, by decide, by decide⟩, ⟨_, [], rfl, rfl, by decide, by decide, by decide, by decide, by decide, by decide⟩⟩

/-- Whether an attempt waits. -/
def waits {α : Type} (r : Res α) : Bool :=
  match r with
  | .ok _ _ => false
  | .wait _ _ => true
  | .trap _ _ _ _ _ => false
  | .sys _ _ => false
  | .roll _ => false

theorem of_waits {α : Type} {r : Res α} (h : waits r = true) : ∃ w d, r = .wait w d := by
  unfold waits at h
  split at h
  all_goals first | exact ⟨_, _, rfl⟩ | cases h

/-- A node whose iteration has retired, its record in a scratchpad of its VF. -/
def wdone : State :=
  { dev := { nodes := ⟨[(0, { va := 0x7E0000000000, copy := BitVec.ofNat 768 nrec, ph := .running, done := 1 })]⟩
             tiles := ⟨[(0, { tag := some 0 })]⟩ } }

/-- A node whose iteration has retired, its record on the page of `placed`. -/
def wfrozenNode : Node := { va := 0x10000, copy := BitVec.ofNat 768 nrec, ph := .running, done := 1 }

/-- That node, with its record's page frozen. -/
def wfrozen : State :=
  let s := placed 0 .x id
  { s with dev := { s.dev with nodes := ⟨[(0, wfrozenNode)]⟩, mig := { s.dev.mig with freezes := [⟨0, 0x10000, 4, false⟩] } } }

/-- What a release asks of the record that was read, and that its STATE can be written. -/
def released (s : State) (b : List Byte) (d1 : Dev) : Bool :=
  let p := releasedNode d1 0 0x7E0000000000 (leNat b)
  let d := { d1 with nodeNext := if p.1 = d1.nodeNext then p.1 + 1 else d1.nodeNext }
  decide (recBits (leNat b) 784 4 = 6) && decide (p.2.fld 192 55 = 0) && decide (p.2.fld 720 7 = 0) &&
    okBy (writeState s.env d p.2.vf p.2.va p.2.ts 4) fun _ _ => true

theorem test_meets_NodeSteps :
    (let s : State := { dev := { retMsgs := [⟨0, 5, true⟩], nodes := ⟨[(0, { va := 0, copy := 0, ph := .running })]⟩ } };
      ∃ m x, s.dev.retMsgs[s.env.unit]? = some m ∧ s.dev.node m.node = some x ∧ m.term = true ∧ x.ph = .running) ∧
    (let s := wdone;
      ∃ x ts d1, s.dev.node s.env.unit = some x ∧ x.ph = .running ∧ x.done = x.total ∧ nodeBusy s.dev s.env.unit = false ∧
        x.fld 192 55 = 0 ∧ x.fld 720 7 = 0 ∧ x.fin = 0 ∧
        writeState s.env s.dev x.vf x.va (coverTs s.env s.dev x).ts 4 = .ok ts d1) ∧
    (∃ w d1, wfrozen.dev.node 0 = some wfrozenNode ∧ wfrozenNode.ph = .running ∧ wfrozenNode.done = wfrozenNode.total ∧
      nodeBusy wfrozen.dev 0 = false ∧ wfrozenNode.fld 192 55 = 0 ∧ wfrozenNode.fld 720 7 = 0 ∧ wfrozenNode.fin = 0 ∧
      writeState wfrozen.env wfrozen.dev 0 0x10000 (coverTs wfrozen.env wfrozen.dev wfrozenNode).ts 4 = .wait w d1) ∧
    (let s : State := { wlaunch with dev := { wlaunch.dev with mem := Memory.write (spadKey 0 0) (natLe 128 (nrec + 6 * 2 ^ 784)) [] } };
      ∃ b d1, hwRead s.env (whoVf s.dev 0 640) .none 2 s.dev 0x7E0000000000 128 = .ok b d1 ∧ released s b d1 = true) := by
  refine ⟨⟨_, _, rfl, rfl, rfl, rfl⟩, ?_, ?_, of_okBy (r := hwRead _ _ _ _ _ _ _) (p := fun b d1 => released _ b d1) (by decide)⟩
  · obtain ⟨ts, d1, h, -⟩ := of_okBy (r := writeState wdone.env wdone.dev 0 0x7E0000000000 0 4) (p := fun _ _ => true)
      (by decide)
    exact ⟨_, ts, d1, rfl, rfl, by decide, by decide, by decide, by decide, rfl, h⟩
  · obtain ⟨w, d1, h⟩ := of_waits (r := writeState wfrozen.env wfrozen.dev 0 0x10000 (coverTs wfrozen.env wfrozen.dev wfrozenNode).ts 4)
      (by decide)
    exact ⟨w, d1, by decide, rfl, by decide, by decide, by decide, by decide, rfl, h⟩

theorem test_meets_IterationSteps :
    (let s : State := { dev := { tiles := ⟨[(0, { running := true, preReq := true })]⟩ } };
      let y := unitTile s; y.running = true ∧ y.preReq = true ∧ y.saving = false ∧ y.dbg.stopped = false ∧ y.dbg.pending = false ∧ y.dbg.step = none) ∧
    ((unitTile wsave).running = true ∧ (unitTile wsave).saving = true ∧ ∃ d1, writeContext wsave.env wsave.dev wsave.env.unit
      ((wsave.dev.cluster (wsave.env.unit / 8)).holder == some wsave.env.unit ||
        (wsave.dev.cluster (wsave.env.unit / 8)).reqs.contains wsave.env.unit) = .ok () d1) ∧
    (let s : State := { dev := { tiles := ⟨[(0, { running := true, core := { eng := Vector.replicate 4 { stopped := true } } })]⟩ } };
      let y := unitTile s; y.running = true ∧ y.saving = false ∧ y.dbg.stopped = false ∧ y.dbg.pending = false ∧ (iter s).trap.hand = none ∧
      (iter s).trap.undel = false ∧ (iter s).trap.stuck = false ∧ (∀ e, ((iter s).engine e).stopped = true) ∧
      iterBusy s.dev s.env.unit (iter s).iter.serial = false ∧ (iter s).head = none) := by
  refine ⟨by decide, ⟨by decide, by decide, wsave_written _⟩, by decide, by decide, by decide, by decide, by decide, by decide, by decide,
    fun e => by cases e <;> rfl, by decide, by decide⟩

theorem test_meets_TeardownSteps :
    (let s : State := { env := { unit := 1023 } }; s.env.unit = (1023#10).toNat ∧ (s.dev.vf 1023).tearing = false) ∧
    (let s : State := { env := { unit := 1023 }, dev := { vfs := ⟨[(1023, { tearing := true })]⟩ } };
      s.env.unit = (1023#10).toNat ∧ (s.dev.vf 1023).tearing = true) := by decide

/-- The watchdog at exactly 2^20 cycles; a region to go back to, or none; the one pending result while V waits. -/
theorem test_meets_StallAndRollback :
    (let s := wst .x { csr := { tvec := 8 }, stall := 2 ^ 20, eng := Vector.replicate 4 { wait := some { code := 3 } } } id;
      tileLive (unitTile s) = true ∧ (iter s).trap.hand = none ∧ (∀ e, stallCode ((iter s).engine e) ≠ 0) ∧
      (∃ e, ((iter s).engine e).stopped = false) ∧ 2 ^ 20 ≤ (iter s).stall ∧ (iter s).csr.tvec ≠ 0 ∧ (iter s).csr.profctl = 0) ∧
    (let s := wst .x { eng := Vector.replicate 4 { rgnPc := 4 } } id; tileLive (unitTile s) = true ∧ ((iter s).engine .x).rgnPc ≠ 0) ∧
    (let s := wst .x {} id; tileLive (unitTile s) = true ∧ ((iter s).engine .x).rgnPc = 0) ∧
    (let r : Sfu := { walk := 0, rem := 1, func := 0, preg := 1, data := Vector.replicate 512 0, act := 0, flags := 0 };
      let s := wst .v { sfu := (Vector.replicate 8 none).set 7 (some r), eng := Vector.replicate 4 { wait := some { code := 0, tick := true } } } id;
      tileLive (unitTile s) = true ∧ (∃ w, ((iter s).engine .v).wait = some w ∧ w.tick = true ∧ w.detail ≠ 8) ∧
        (iter s).pending = [r]) := by
  refine ⟨⟨by decide, by decide, fun e => by cases e <;> decide, ⟨.x, rfl⟩, by decide, by decide, by decide⟩, by decide, by decide,
    ⟨by decide, ⟨_, rfl, rfl, by decide⟩, rfl⟩⟩
/-! ### Commands, maps, remote words, fences -/

/-- A registers A1 to A7. -/
def r17 (l : List Dword) : Regs := { a := Vector.ofFn fun i => l.getD (i.val - 1) 0 }

/-- A stands with operands in A1 on and the descriptor in entry 1 of its tensor table. -/
def wcmd (l : List Dword) : State :=
  wst .a { regs := { r17 l with a := (r17 l).a.set 0 0 }, tids := (Vector.replicate 256 none).set 1 (some dsc) } id

/-- COPY of 1 and of 2^40 - 1 bytes, COPY2D of one row of 2^32 - 1 bytes, GATHER and SCATTER of the one line, XFER to a tile and XFERM to
64 receivers; the target in A8 (0) is aligned. -/
theorem test_meets_CommandWords :
    (let s := wcmd [16, 32, 1]; let op (j : Nat) := (iter s).a (1 + BitVec.ofNat 5 j);
      Stands s .a 0 false ∧ ((iter s).a 8).toNat % 16 = 0 ∧ (s.dev.queue s.env.unit 5).length < 32 ∧ 0 < (op 2).toNat ∧ (op 2).toNat < 2 ^ 40 ∧
      (iter s).ev.length < 256) ∧
    (let s := wcmd [16, 32, 0xFFFFFFFF, 1]; let op (j : Nat) := (iter s).a (1 + BitVec.ofNat 5 j);
      0 < (op 2).toNat ∧ 0 < (op 3).toNat ∧ (op 2).toNat < 2 ^ 32 ∧ (op 3).toNat < 2 ^ 32 ∧ (op 2).toNat * (op 3).toNat < 2 ^ 40) ∧
    (let s := wcmd [257, 0, 1, 0]; let op (j : Nat) := (iter s).a (1 + BitVec.ofNat 5 j);
      Stands s .a 0 false ∧ tidOf (iter s).tids ((op 0).toNat % 256) = some dsc ∧ tidOf (iter s).tids ((op 0).toNat / 256 % 256) = some dsc ∧
      tWritable dsc = true ∧ (op 0).toNat < 2 ^ 16 ∧ (op 1).toNat % 4 = 0 ∧ (op 2).toNat < 2 ^ 32 ∧ 0 < (op 2).toNat * tLineBytes dsc ∧
      (op 3).toNat + (op 2).toNat ≤ tLines dsc) ∧
    (let s := wcmd [1, 0, 0, 4 + 2 ^ 32, 1 + 2 ^ 32, 0, 64]; let op (j : Nat) := (iter s).a (1 + BitVec.ofNat 5 j);
      let c : Cmd := { kind := .xfer, ops := (List.range 7).map op, src := some dsc };
      Stands s .a 0 false ∧ tidOf (iter s).tids ((op 0).toNat % 256) = some dsc ∧ tKey dsc ≠ 0 ∧ tFmt dsc ≠ 8 ∧ tFmt dsc ≠ 9 ∧
      (op 0).toNat < 2 ^ 8 ∧ (∀ j, j < 4 → 0 < c.ext j ∧ c.org j + c.ext j ≤ tSize dsc j ∧ (tRank dsc ≤ j → c.ext j ≤ 1)) ∧ 0 < c.bytes ∧
      targetOk s.env (op 5) = true ∧ (op 5).toNat % 8 = 0 ∧ 1 ≤ (op 6).toNat ∧ (op 6).toNat ≤ 64) ∧
    (let s := wcmd [16, 32, 0]; (iter s).a (1 + BitVec.ofNat 5 2) = 0) := by
  refine ⟨⟨⟨rfl, by decide⟩, by decide⟩, by decide, ⟨⟨rfl, by decide⟩, by decide⟩, ⟨⟨rfl, by decide⟩, by decide⟩, by decide⟩

theorem test_meets_CommandTraps :
    (let s := wcmd [8, 32, 2 ^ 40]; Stands s .a 0 false ∧ ((iter s).a 1).toNat % 16 ≠ 0 ∧ ((iter s).a 8).toNat % 16 = 0 ∧
      2 ^ 40 ≤ ((iter s).a (1 + 2)).toNat) := by
  refine ⟨⟨rfl, by decide⟩, by decide⟩

/-- A map descriptor of rank 1 with key 1 at the base of the scratchpad; A2 (0) names slot 0 of the tile. -/
def wmap (x : MapSlot) : State :=
  let s := wa 0 (natLe 128 (2 ^ 416 + 2 ^ 444)) {}
  { s with dev := s.dev.onTile 0 fun y => { y with slots := ⟨[(0, x)]⟩ } }

/-- The three states of a slot (MapWords), and a selector that names none (MapTraps). -/
theorem test_meets_MapWords :
    (∀ x ∈ [{}, { act := some {} }, ({ drain := some {} } : MapSlot)],
      Stands (wmap x) .a 0 false ∧ mapSel (wmap x).env (wmap x).dev 0 ((iter (wmap x)).a 2) = some ⟨false, 0, 0⟩ ∧
      mapSlot (wmap x).dev ⟨false, 0, 0⟩ = x ∧ drained (wmap x).dev x.drain = true ∧ ((iter (wmap x)).a 1).toNat % 128 = 0 ∧
      ∃ m d2, readDesc (wmap x).env 0 ((iter (wmap x)).a 1) (wmap x).dev = .ok m d2 ∧
        decide (mapCheck d2 ⟨false, 0, 0⟩ (iter (wmap x)).csr.vfid m = 0) = true) ∧
    mapSel (wmap {}).env (wmap {}).dev 0 ((iter (wmap {})).a 1) = none ∧
    (let s := wmap { act := some {}, drain := some {} };
      let u := { s with dev := s.dev.defer (.land { ag := .none, slice := false, unit := 0, slot := 0, gen := {}, off := 0, bytes := [1] }) };
      Stands u .a 0 false ∧ mapSel u.env u.dev 0 ((iter u).a 2) = some ⟨false, 0, 0⟩ ∧ ((iter u).a 1).toNat % 128 = 0 ∧
      mapSlot u.dev ⟨false, 0, 0⟩ = { act := some {}, drain := some {} } ∧ pendOf u.dev {} ≠ 0) := by
  refine ⟨fun x hx => ?_, by decide, ⟨rfl, by decide⟩, by decide⟩
  simp only [List.mem_cons, List.not_mem_nil, or_false] at hx
  rcases hx with h | h | h <;> subst h <;>
    exact ⟨⟨rfl, by decide⟩, by decide, by decide, by decide, by decide,
      of_okBy (p := fun m d2 => decide (mapCheck d2 ⟨false, 0, 0⟩ _ m = 0)) (by decide)⟩

/-- The conditions of a remote word on the chain of devices that its checks leave. -/
def remOk (s : State) (r : RemReq) (dst : BitVec 6) : Bool :=
  okBy (remDest s.env (whoTile s.dev s.env.unit) (r.kind != .rld) r.va s.dev) fun dest d1 =>
    okBy (remLocal s.env s.env.unit r d1) fun _ d2 =>
      !streamFull (d2.stream s.env.unit r.s) r.kind && !sendWaits s.env d2 (iter s).csr.vfid (pageOf r.va) && decide (dest = dst) &&
      (if dest = s.env.caps.devid then !outstanding d2 (iter s).csr.vfid (pageOf r.va) (fun x => x.via != dest)
       else reachable s.env d2 dest.toNat && !d2.peersLost.getLsbD dest.toNat) &&
      (match pathFor s.env d2 s.env.unit dest with
       | none => false
       | some p => dest == s.env.caps.devid || !mustWait d2 p.toNat dest.toNat
           (.remote s.env.caps.devid (newEntry s.env s.env.unit r dest d2).hdr []) (rkOp r.kind).toNat) && okBy (remBody s.env s.env.unit r d2) fun _ _ => true

/-- A at its text with A1 an address of a page that device 1 owns, which one path reaches; the others in the tile's scratchpad. -/
def waway : State :=
  let s := placed 0 .a fun c => { c with regs := r17 [0x20000, own + 256, own + 512] }
  { s with dev := { s.dev with mem := Memory.write 0x30010 (natLe 8 (0x3D + 2 ^ 56)) s.dev.mem, bridges := ⟨[(0, { peers := 2 })]⟩ } }

/-- RLD, RST, RSTF and RAMO to this device itself, RLD and RST to another, with aligned operands in the tile's scratchpad. -/
theorem test_meets_RemoteWords :
    (let s := wcmd [own, own + 256, own + 512, 0, 0];
      Stands s .a 0 false ∧ ((iter s).a 1).toNat % 128 = 0 ∧ ((iter s).a 2).toNat % 128 = 0 ∧ ((iter s).a 3).toNat % 16 = 0 ∧
      remOk s { kind := .rld, va := (iter s).a 1, s := 15, local_ := (iter s).a 2 } 0 = true ∧
      remOk s { kind := .rst, va := (iter s).a 1, s := 0, local_ := (iter s).a 2, flag := (iter s).a 3 } 0 = true ∧
      remOk s { kind := .rstf, va := (iter s).a 1, s := 1, body := natLe 8 7 } 0 = true) ∧
    (let s := wcmd [own, 25 - 1, 3, 0, own + 8];
      Stands s .a 0 false ∧ ((iter s).a 2).toNat < 32 ∧ ((iter s).a 2).toNat % 16 ≤ 9 ∧ ((iter s).a 2).toNat ≠ 25 ∧
      ((iter s).a (2 + 2)).toNat % 16 = 0 ∧ ((iter s).a (2 + 3)).toNat % 8 = 0 ∧
      remOk s { kind := .ramo, va := (iter s).a 1, s := 2, local_ := (iter s).a (2 + 3), body := natLe 8 3, aw := true, aop := 8 } 0 = true) ∧
    (let s := waway;
      Stands s .a 0x10000 false ∧ remOk s { kind := .rld, va := (iter s).a 1, s := 15, local_ := (iter s).a 2 } 1 = true ∧
      remOk s { kind := .rst, va := (iter s).a 1, s := 0, local_ := (iter s).a 2, flag := (iter s).a 3 } 1 = true) := by
  refine ⟨⟨⟨rfl, by decide⟩, by decide⟩, ⟨⟨rfl, by decide⟩, by decide⟩, ⟨⟨rfl, by decide⟩, by decide⟩⟩

theorem test_meets_NotifyOnStream :
    (let s := wcmd [16]; Stands s .a 0 false ∧ ((iter s).a 1).toNat % 16 = 0 ∧ 8 ≤ (8#5).toNat ∧ (23#5).toNat < 24) := by
  refine ⟨⟨rfl, by decide⟩, by decide⟩

/-- FENCEX and JOIN: no path has work left; or the copy path has a command, at a lower walk count, that A waits for. -/
theorem test_meets_FenceWords :
    (let s := wst .a { regs := r12 (256 + 31) 0, markers := [⟨1, 31, 0⟩], eng := (Vector.replicate 4 {}).set 3 { stopped := true } } id;
      Stands s .a 0 false ∧ (∀ p, p < 6 → (63#6).getLsbD p = true → pathDone s.dev s.env.unit ((iter s).engine .a).walk p = true) ∧
      (iter s).markers.find? (fun j => BitVec.ofNat 64 (j.seq * 256 + j.paths.toNat) == (iter s).a 1) = some ⟨1, 31, 0⟩ ∧
      ∀ p, p < 6 → (31#6).getLsbD p = true → pathDone s.dev s.env.unit 0 p = true) ∧
    (let s := wst .a { eng := Vector.replicate 4 { walk := 5 } } fun d => d.onTile 0 fun y =>
        { y with aq := (Vector.replicate 6 []).set 0 [{ kind := .copy, walk := 4 }] };
      Stands s .a 0 false ∧ pathDone s.dev s.env.unit ((iter s).engine .a).walk 1 = false ∧ (2#6).getLsbD 1 = true ∧ (2#6).getLsbD 4 = false) := by
  refine ⟨⟨⟨rfl, by decide⟩, by decide, by decide, by decide⟩, ⟨⟨rfl, by decide⟩, by decide⟩⟩
/-! ### The words of V -/

/-- V stands with queues of V and a shape; the cursor is at the origin. -/
def wv (q : Queues) (c : Csrs) (p : NMap Park) : State := wst .v { q := q, csr := c, park := p } id

/-- Whole operands, and rows and columns with the cursor at the last row or column of VSHAPE: what the
statements VectorArithmetic, VectorElementWords, VectorCompares, SpecialFunctionWords, Reductions, TransposeAndShift, UnpackWords, PackWords,
ShapeWord and ShapeAndMaskWords ask. -/
theorem test_meets_vector_elements :
    (let s := wv {} { curRow := 31, curCol := 15, curDiag := 15 } {}; let c := issueTick (iter s);
      Stands s .v 0 false ∧ c.dirBad (class2 .whole .whole) .whole [.whole, .whole] = none ∧ c.dirBad (class2 .row .row) .row [.row, .row] = none ∧
      c.dirBad (class2 .col .col) .col [.col, .col] = none ∧ c.dirBad (some (class1 .diag)) .col [.diag] = none ∧
      c.dirBad (some (class1 .whole)) .whole [.whole] = none ∧ c.dirBad (some (class1 .row)) .row [] = none ∧
      c.dirBad (class2 .whole .whole) (cmpDir .whole .whole) [.whole, .whole] = none ∧ ((iter s).sfu.toList.filterMap id).length < 8 ∧
      c.cursorOk .row = true ∧ c.cursorOk .whole = true ∧ c.csr.cols = 16 ∧ c.csr.rows = 32) ∧
    (let r : Sfu := { walk := 0, rem := 1, func := 0, preg := 1, data := Vector.replicate 512 0, act := 0, flags := 0 };
      let s := wst .v { sfu := Vector.replicate 8 (some r) } id;
      Stands s .v 0 false ∧ (iter s).dirBad (some (class1 .whole)) .whole [.whole] = none ∧ ((iter s).sfu.toList.filterMap id).length = 8) := by
  refine ⟨⟨⟨rfl, by decide⟩, by decide⟩, ⟨rfl, by decide⟩, by decide, by decide⟩

/-- A row with a column; the cursor just below VSHAPE's last row and beyond its last column; fifteen columns; no parked copy. -/
theorem test_meets_VectorShapeTraps :
    (let s := wv {} { rows := 16, cols := 15, curRow := 16, curCol := 15 } {}; let c := iter s;
      Stands s .v 0 false ∧ encode (.vaddF ⟨.row, 1⟩ ⟨.row, 2⟩ ⟨.col, 3⟩ false) ≠ none ∧ c.csr.rows.toNat ≤ c.csr.curRow.toNat ∧
      c.csr.cols.toNat ≤ c.csr.curCol.toNat ∧ c.csr.cols ≠ 16 ∧ c.park.find (c.phys 0) = none ∧
      encode (.vtrans ⟨.whole, 1⟩ ⟨.whole, 2⟩) ≠ none ∧ encode (.vunpark ⟨.whole, 1⟩) ≠ none) := by
  refine ⟨⟨rfl, by decide⟩, by decide⟩

/-- Queues with an entry, with 32 rows, with room for 32 rows; and empty or full ones. -/
theorem test_meets_VectorQueueWords :
    (let s := wv { xv := [7], av := List.replicate 32 1, va := List.replicate 32 1 } {} {}; let c := issueTick (iter s);
      Stands s .v 0 false ∧ c.q.xv = [7] ∧ c.cursorOk .row = true ∧ (32#6).toNat ≤ c.q.av.length ∧ c.q.va.length + (32#6).toNat ≤ 64 ∧
      c.q.vx.length < 16 ∧ c.csr.curRow.toNat < c.csr.rows.toNat ∧ c.csr.curCol.toNat < c.csr.cols.toNat) ∧
    (let s := wv { va := List.replicate 64 1, vx := List.replicate 16 1 } {} {}; let c := issueTick (iter s);
      Stands s .v 0 false ∧ c.q.xv = [] ∧ c.q.av.length < (1#6).toNat ∧ 64 < c.q.va.length + (1#6).toNat ∧ c.q.vx.length = 16) := by
  refine ⟨⟨⟨rfl, by decide⟩, by decide⟩, ⟨⟨rfl, by decide⟩, by decide⟩⟩

/-- Parking with all slots free, with none free, and a copy that is held. -/
theorem test_meets_ParkWords :
    (let s := wv {} {} {}; let c := issueTick (iter s);
      Stands s .v 0 false ∧ (parkReg (s.dev.onCore s.env.unit issueTick) s.env.unit (c.phys 1) (c.v 1)).isSome = true) ∧
    (let s := wst .v {} fun d => { d with clusters := ⟨[(0, { slots := Vector.replicate 8 { st := .open_ } })]⟩ }; let c := issueTick (iter s);
      Stands s .v 0 false ∧ (parkReg (s.dev.onCore s.env.unit issueTick) s.env.unit (c.phys 1) (c.v 1)).isNone = true) ∧
    (let s := wv {} {} ⟨[(1, .held 2 (Vector.replicate 512 5) [7, 7])]⟩; let c := issueTick (iter s);
      Stands s .v 0 false ∧ c.park.find (c.phys 1) = some (.held 2 (Vector.replicate 512 5) [7, 7])) := by
  refine ⟨⟨⟨rfl, by decide⟩, by decide⟩, ⟨⟨rfl, by decide⟩, by decide⟩, ⟨⟨rfl, by decide⟩, rfl⟩⟩

/-! ### The words of M -/

/-- A descriptor: base in the scratchpad, format, rank, three sizes, element bytes, CM. -/
def tdesc (off fmt rank s0 s1 s2 eb cm : Nat) : Row :=
  BitVec.ofNat 512 (0x7F0000000000 + off + s0 * 2 ^ 128 + s1 * 2 ^ 160 + s2 * 2 ^ 192 + 2 ^ 224 + eb * 2 ^ 256 +
    (if rank < 2 then 0 else eb * s0 * 2 ^ 296) + (if rank < 3 then 0 else eb * s0 * s1 * 2 ^ 336) + fmt * 2 ^ 440 + rank * 2 ^ 444 + cm * 2 ^ 448)

/-- M stands with an open lease and the turn. Entries: 1 a row of 32 E4M3, 2 its metadata, 3 a core of BF16, 4 a row of FP32, 5 two rows of
FP32. C1 is the base of the scratchpad, C3 the extents 4, 1, 1, 1. -/
def wm (m : List Byte) (g : TCore → TCore) (h : Cluster → Cluster) : State :=
  wst .m (g {
    regs := { c := ((Vector.replicate 16 0).set 1 own).set 3 0x1000100010004 }
    csr := { shM := 1, shN := 1, shK := 32, bcap := 6144, cord := 0x7F0000000000 }
    lease := { held := true, left := 64 }
    tids := (((((Vector.replicate 256 none).set 1 (some (tdesc 0x1000 3 2 32 1 1 1 0))).set 2 (some (tdesc 0x2000 9 2 1 1 1 4 0))).set 3
      (some (tdesc 0x3000 1 3 1 1 1 2 1))).set 4 (some (tdesc 0 0 1 4 1 1 4 0))).set 5 (some (tdesc 0 0 2 4 2 1 4 0)) })
    fun d => { d with mem := Memory.write (spadKey 0 0) m [], clusters := ⟨[(0, h { holder := some 0 })]⟩ }

theorem test_meets_CoordinateWords :
    (let s := wm [] (fun c => { c with q := { xm := [7] } }) id; Stands s .m 0 false ∧ (iter s).q.xm = [7] ∧ (iter s).q.mx.length < 8) := by
  refine ⟨⟨rfl, by decide⟩, by decide⟩

theorem test_meets_LeaseWords :
    (let s := wm [] (fun c => { c with q := { xm := [7] } }) id;
      Stands s .m 0 false ∧ Claims.Turn s ∧ (iter s).lease.held = true ∧ mIdle s.dev s.env.unit = true ∧
      (s.dev.cluster (s.env.unit / 8)).nextFree.isSome = true ∧ ((s.dev.cluster (s.env.unit / 8)).slot 7).st ≠ .closed ∧
      ((s.dev.cluster (s.env.unit / 8)).slot 7).st ≠ .draining ∧ (iter s).head = none ∧ (iter s).q.xm = [7]) ∧
    (let s := wm [] (fun c => { c with lease := {} }) fun k => { k with holder := some 1 };
      Stands s .m 0 false ∧ (iter s).lease.held = false ∧ (iter s).lease.trapped = false ∧
      (s.dev.cluster (s.env.unit / 8)).holder ≠ some s.env.unit ∧ encode .rdrop ≠ none) ∧
    (let s := wm [] (fun c => { c with head := some 0 }) id;
      Stands s .m 0 false ∧ Claims.Turn s ∧ (iter s).head = some 0 ∧ ∀ m ∈ (s.dev.cluster (s.env.unit / 8)).mq, m.tile ≠ s.env.unit) := by
  refine ⟨⟨⟨rfl, by decide⟩, ⟨by decide, by decide, by decide⟩, by decide⟩, ⟨⟨rfl, by decide⟩, by decide⟩,
    ⟨⟨rfl, by decide⟩, ⟨by decide, by decide, by decide⟩, by decide, by decide⟩⟩

/-- The hypotheses of MMA and MMAS that are not about reading: a fresh head, or an open one of the same shape. -/
theorem test_meets_MatrixWords :
    (let s := wm [] id id;
      Stands s .m 0 false ∧ Claims.Turn s ∧ 0 < (iter s).lease.left ∧ (iter s).mfence.toNat ≤ ((iter s).engine .a).walk.toNat ∧
      tidOf (iter s).tids 1 = some (tdesc 0x1000 3 2 32 1 1 1 0) ∧ tidOf (iter s).tids (1 + 1) = some (tdesc 0x2000 9 2 1 1 1 4 0) ∧
      tFmt (tdesc 0x2000 9 2 1 1 1 4 0) = 9 ∧ pairRule 3 3 false true = some (32, 1) ∧ pairRule 3 3 false false = some (32, 1) ∧
      (iter s).head = none ∧ (s.dev.cluster (s.env.unit / 8)).nextFree = some 0) ∧
    (let s := wm [] (fun c => { c with head := some 0 }) fun k => { k with slots := k.slots.set 0 { st := .open_, acc := 1, m := 1, n := 1 } };
      Stands s .m 0 false ∧ Claims.Turn s ∧ (iter s).headLost = false ∧ (iter s).head = some 0 ∧
      ((s.dev.cluster (s.env.unit / 8)).slot 0).acc = 1 ∧ ((s.dev.cluster (s.env.unit / 8)).slot 0).m = (iter s).csr.shM.toNat) := by
  refine ⟨⟨⟨rfl, by decide⟩, ⟨by decide, by decide, by decide⟩, by decide⟩, ⟨⟨rfl, by decide⟩, ⟨by decide, by decide, by decide⟩, by decide⟩⟩

/-- The plan of that product, dense or sparse. -/
def wplan (sparse : Bool) : MmaPlan :=
  { a := tdesc 0x1000 3 2 32 1 1 1 0, b := tdesc 0x1000 3 2 32 1 1 1 0, md := if sparse then some (tdesc 0x2000 9 2 1 1 1 4 0) else none, group := 32
    acc := 1, kb := 0, m0 := 0, n0 := 0, m := 1, n := 1, k := 32 }

theorem test_meets_MatrixReads :
    ∀ sparse : Bool, mmaShapeBad (wplan sparse) = 0 ∧
      let s := wm (List.replicate 0x1000 0) id id;
      ∃ o d2, mmaOperands s.env ⟨s.env.unit, .m, 0, false⟩ (wplan sparse)
        (Claims.turned { s with dev := { s.dev with mem := Memory.write (spadKey 0 0x2000) [0x44, 0x44, 0x44, 0x44] [] } }) = .ok o d2 ∧ true = true := by
  intro sparse
  refine ⟨by cases sparse <;> decide, of_okBy (p := fun _ _ => true) ?_⟩
  cases sparse <;> decide

/-- RCLOSE of a 1 by 1 head to the tensor of entry 1, and of one with scales and receivers. -/
theorem test_meets_CloseWord :
    (let s := wm (rowBytes (2 ^ 8 + 3 * 2 ^ 22)) (fun c => { c with head := some 0 }) fun k =>
        { k with slots := k.slots.set 0 { st := .open_, acc := 1, m := 1, n := 1 } };
      Stands s .m 0 false ∧ Claims.Turn s ∧ (iter s).head = some 0 ∧ ((iter s).c 1).toNat % 2 ^ 55 % 64 = 0 ∧
      (∃ b d2, mRead s.env s.env.unit (Claims.turned s) (((iter s).c 1).toNat % 2 ^ 55) 64 = .ok b d2 ∧
        (!rdBad (rowOf b) && !(rowOf b).getLsbD 16 && decide (rdSbtid (rowOf b) = 0) && decide (rdDtid (rowOf b) = 1) &&
          decide (tFmt (tdesc 0x1000 3 2 32 1 1 1 0) = rdOfmt (rowOf b)) && rdBoxOk (rowOf b) (tdesc 0x1000 3 2 32 1 1 1 0) 1 1) = true) ∧
      tWritable (tdesc 0x1000 3 2 32 1 1 1 0) = true) ∧
    (let s := wm (rowBytes (5 + 2 ^ 16 + 2 ^ 256 + 64 * 2 ^ 288)) (fun c => { c with head := some 0 }) id;
      (∃ b d2, mRead s.env s.env.unit (Claims.turned s) (((iter s).c 1).toNat % 2 ^ 55) 64 = .ok b d2 ∧
        (!rdBad (rowOf b) && (rowOf b).getLsbD 16 && decide (rdSbtid (rowOf b) = 5) && decide (rdSborg (rowOf b) + 1 ≤ 4)) = true) ∧
      tidOf (iter s).tids 5 = some (tdesc 0 0 2 4 2 1 4 0) ∧ tFmt (tdesc 0 0 2 4 2 1 4 0) = 0 ∧ tRank (tdesc 0 0 2 4 2 1 4 0) = 2 ∧
      tSize (tdesc 0 0 2 4 2 1 4 0) 1 = 2) := by
  refine ⟨⟨⟨rfl, by decide⟩, ⟨by decide, by decide, by decide⟩, by decide, by decide, ?_, by decide⟩, ?_, by decide⟩
  · exact of_okBy (p := fun b _ => !rdBad (rowOf b) && !(rowOf b).getLsbD 16 && decide (rdSbtid (rowOf b) = 0) && decide (rdDtid (rowOf b) = 1) &&
          decide (tFmt (tdesc 0x1000 3 2 32 1 1 1 0) = rdOfmt (rowOf b)) && rdBoxOk (rowOf b) (tdesc 0x1000 3 2 32 1 1 1 0) 1 1) (by decide)
  · exact of_okBy (p := fun b _ => !rdBad (rowOf b) && (rowOf b).getLsbD 16 && decide (rdSbtid (rowOf b) = 5) && decide (rdSborg (rowOf b) + 1 ≤ 4))
      (by decide)

/-- The chain words: no command on the boundary, a reservation of 6 slots, a box of four FP32, a record that steps the core of entry 3. -/
theorem test_meets_ChainWords :
    (let s := wm [3] (fun c => c.onCsr fun x => { x with chainE := some 1 }) id; let b := s.dev.cluster (s.env.unit / 8);
      Stands s .m 0 false ∧ Claims.Turn s ∧ chainBusy s.dev (s.env.unit / 8) = false ∧ (∀ j, 8 - (6#18).toNat ≤ j → j < 8 → (b.slot j).st = .free) ∧
      (if b.bnd.empty then 0 else b.bnd.size * 4) ≤ (6#18).toNat * 262144 ∧ 0 < (iter s).lease.left ∧
      tidOf (iter s).tids 4 = some (tdesc 0 0 1 4 1 1 4 0) ∧
      initBad (tdesc 0 0 1 4 1 1 4 0) (fields4 ((iter s).c 2)) (fields4 ((iter s).c (2 + 1))) = false ∧
      (fields4 ((iter s).c (2 + 1))).foldl (· * ·) 1 * 4 ≤ (iter s).csr.bcap.toNat * 256 ∧
      bndLost s.dev s.env.unit = false ∧ (iter s).head = none ∧ b.nextFree = some 0 ∧ emitShape b.bnd.ba b.bnd.bm.toList = (1, 1) ∧
      (∃ e : Dword, (iter s).csr.chainE = some e ∧ e.toNat = (iter s).csr.cstep.toNat + 1) ∧
      okBy (readInit s.env ⟨s.env.unit, .m, 0, false⟩ (tdesc 0 0 1 4 1 1 4 0) (fields4 ((iter s).c 2)) (fields4 ((iter s).c (2 + 1)))
        (Claims.turned s)) (fun _ _ => true) = true ∧
      okBy (stepWord .cstep s.env ⟨s.env.unit, .m, 0, false⟩ (Claims.turned s)) (fun _ _ => true) = true ∧
      okBy (stepWord (.chain 1) s.env ⟨s.env.unit, .m, 0, false⟩ (Claims.turned s)) (fun _ _ => true) = true) := by
  refine ⟨⟨rfl, by decide⟩, ⟨by decide, by decide, by decide⟩, by decide, ?_, by decide, by decide, by decide, by decide, by decide, by decide,
    by decide, by decide, by decide, ⟨1, by decide, by decide⟩, by decide, by decide, by decide⟩
  intro j h1 h2
  have : 2 ≤ j := h1
  interval_cases j <;> decide

/-! ### Queues, landing, turns, the array, the rake, memory -/

/-- Tile 0 with one command at the head of queue 0. -/
def waq (c : Cmd) : State :=
  wst .a {} fun d => { d.setQueue 0 0 [c] with mem := Memory.write (spadKey 0 0) ((⟨9, 1, 0, 0, 0⟩ : BarObj).bytes) [] }

/-- Whether a result is a fault with a system code. -/
def isSys {α : Type} (r : Res α) : Bool :=
  match r with
  | .ok _ _ => false
  | .wait _ _ => false
  | .trap _ _ _ _ _ => false
  | .sys _ _ => true
  | .roll _ => false

/-- A COPY of n bytes within the tile's scratchpad, with a record or a barrier object at the base. -/
def wcopy (n : Nat) (tk : BitVec 2) (tgt : Dword) : Cmd := { kind := .copy, ops := [own + 64, own + 128, dw n], tk := tk, tgt := tgt }

/-- What that COPY has left when its source still reads as it was read. -/
theorem copied_wcopy : Claims.copied (waq (wcopy 8 1 own)) 0 (wcopy 8 1 own) (.spad 0 64) (.spad 0 128) 0 0 (waq (wcopy 8 1 own)).dev =
    (sentMark (waq (wcopy 8 1 own)).env (loadHint (waq (wcopy 8 1 own)).env (waq (wcopy 8 1 own)).dev (.tile 0 1) 0 0 true (.spad 0 64) 8).2
      (.tile 0 1) 0 0 true (.spad 0 128) (List.replicate 8 0)).1 := by
  have hb : Claims.copyBytes (waq (wcopy 8 1 own)) 0 (wcopy 8 1 own) (.spad 0 64) = List.replicate 8 0 := by decide
  unfold Claims.copied putOut
  rw [hb]
  unfold putSent
  dsimp only
  rw [if_neg (by decide)]
  exact congrArg (fun x : List Byte × Dev => (sentMark (waq (wcopy 8 1 own)).env x.2 (.tile 0 1) 0 0 true (.spad 0 128) x.1).1)
    (lateRead_same (by decide))

theorem test_meets_CommandSteps :
    (∀ x ∈ [((2 : BitVec 2), (7 : Dword)), (1, own)], ∃ d1 d2,
      Claims.CopyAt (waq (wcopy 8 x.1 x.2)) 0 (wcopy 8 x.1 x.2) [] (.spad 0 64) (.spad 0 128) 0 0 d1 d2) ∧
    (unitTile (waq (wcopy 8 2 7))).runs (wcopy 8 2 7).serial = true ∧ (iter (waq (wcopy 8 2 7))).ev.length < 256 ∧
    (∃ z d4, locate (waq (wcopy 8 1 own)).env (setHead (Claims.copied (waq (wcopy 8 1 own)) 0 (wcopy 8 1 own) (.spad 0 64) (.spad 0 128) 0 0
      (waq (wcopy 8 1 own)).dev) 0 0 { wcopy 8 1 own with off := 8 }) (cmdWho 0 (wcopy 8 1 own)) { write := true } own = .ok z d4 ∧
      (decide ((barOf (getBytes d4 z.1 16)).state = 1) && decide (8 < (barOf (getBytes d4 z.1 16)).count)) = true) ∧
    (∀ n ∈ [1, 8], let w : OutWr := { loc := .spad 0 128, cls := 0, front := true, bytes := List.replicate 8 1 };
      let c : Cmd := { wcopy 8 2 7 with off := 8, out := [w] };
      Claims.Head (waq c) 0 c [] ∧ c.kind = .copy ∧ c.stall = none ∧ c.off = (c.op 2).toNat ∧ w.done = false ∧ c.tk ≠ 1 ∧
        w.bytes.length ≤ c.off ∧ 0 < n ∧ n ≤ w.bytes.length) ∧
    (let c : Cmd := { kind := .copy, ops := [own, 0x80000000000000, 1] };
      Claims.Head (waq c) 0 c [] ∧ (c.op 2).toNat = 1 ∧
      okBy (locate (waq c).env (waq c).dev (cmdWho 0 c) {} (c.op 0)) (fun _ d => isSys (locate (waq c).env d (cmdWho 0 c) { write := true } (c.op 1)))
        = true) ∧
    (let c : Cmd := { kind := .notify, tk := 2, stall := some 6 };
      Claims.Head (waq c) 0 c [] ∧ c.isNotify = true ∧ (unitTile (waq c)).runs c.serial = true ∧ (iter (waq c)).ev.length < 256) := by
  refine ⟨?_, by decide, by decide, ?_, fun n hn => ⟨rfl, ?_⟩, ⟨rfl, by decide⟩, rfl, by decide⟩
  · intro x hx
    have hl : ∀ n tk tgt, locate (waq (wcopy n tk tgt)).env (waq (wcopy n tk tgt)).dev (cmdWho 0 (wcopy n tk tgt)) { write := true } (own + dw 128) =
        .ok (.spad 0 128, 0) (waq (wcopy n tk tgt)).dev := fun n tk tgt =>
      locate_own (w := cmdWho 0 (wcopy n tk tgt)) (show 0 < 640 by decide) ⟨rfl, rfl⟩ (by decide)
    have hr : ∀ n tk tgt, locate (waq (wcopy n tk tgt)).env (waq (wcopy n tk tgt)).dev (cmdWho 0 (wcopy n tk tgt)) {} (own + dw 64) =
        .ok (.spad 0 64, 0) (waq (wcopy n tk tgt)).dev := fun n tk tgt => rfl
    simp only [List.mem_cons, List.not_mem_nil, or_false] at hx
    rcases hx with h | h <;> subst h <;>
      exact ⟨_, _, rfl, rfl, rfl, rfl, rfl, by decide, hr _ _ _, hl _ _ _, by decide, by decide, by decide⟩
  · rw [copied_wcopy]; exact of_okBy (p := fun (z : Loc × BitVec 4) d4 => decide ((barOf (getBytes d4 z.1 16)).state = 1) && decide (8 < (barOf (getBytes d4 z.1 16)).count)) (by decide)
  · simp only [List.mem_cons, List.not_mem_nil, or_false] at hn
    rcases hn with h | h <;> subst h <;> decide

/-- A stands at MAPRET A2 and waits; the drained generation of slot 0 has no landing in progress. -/
def wret : State :=
  let w := ((encode (.mapret 2)).getD 0).toNat
  let s := placed w .a fun c => c.onEng .a fun g => { g with wait := some { code := 6 } }
  { s with dev := s.dev.onTile 0 fun y => { y with slots := ⟨[(0, { drain := some {} })]⟩ } }

/-- A packet of one BF16 element for tile 0 that a generation of it matches, or of an old VF generation. -/
def wland (gen : BitVec 16) : State :=
  wst .x {} fun d =>
    { d.onTile 0 fun y => { y with slots := ⟨[(3, { act := some { key := 1, hi := [4], lo := [0], stride := [2], fmt := 1, dbase := 64 } })]⟩ } with
      flights := [{ pkt := .xfer 0 { c0 := 4, key := 1, run := 1, fmt := 1, gen := gen } [1, 2], src := 0, path := 0 }] }

theorem test_meets_LandingSteps :
    (ready wret.dev wret.env.unit .a = .go 0x10000 false ∧ ((iter wret).engine .a).wait ≠ none ∧
      peekAt wret.env wret.dev wret.env.unit .a 0x10000 = some ((encode (.mapret 2)).getD 0) ∧
      decodeTotal ((encode (.mapret 2)).getD 0) = .mapret 2 ∧ mapSel wret.env wret.dev wret.env.unit ((iter wret).a 2) = some ⟨false, 0, 0⟩ ∧
      (mapSlot wret.dev ⟨false, 0, 0⟩).drain = some {} ∧ pendOf wret.dev {} = 0) ∧
    (let s := { wret with dev := { wret.dev with later := [.land { ag := .none, slice := false, unit := 0, slot := 0, gen := {}, off := 64, bytes := [1, 2] }] } };
      ready s.dev s.env.unit .a = .go 0x10000 false ∧ ((iter s).engine .a).wait ≠ none ∧
      peekAt s.env s.dev s.env.unit .a 0x10000 = some ((encode (.mapret 2)).getD 0) ∧
      mapSel s.env s.dev s.env.unit ((iter s).a 2) = some ⟨false, 0, 0⟩ ∧ (mapSlot s.dev ⟨false, 0, 0⟩).drain = some {}) ∧
    (let h : XHdr := { c0 := 4, key := 1, run := 1, fmt := 1, gen := 1 }; vfGen (wland 1).dev h.vf ≠ h.gen) ∧
    (let h : XHdr := { c0 := 4, key := 1, run := 1, fmt := 1 };
      let g : MapGen := { key := 1, hi := [4], lo := [0], stride := [2], fmt := 1, dbase := 64 };
      (wland 0).dev.flights[0]? = some { pkt := .xfer 0 h [1, 2], src := 0, path := 0 } ∧ vfGen (wland 0).dev h.vf = h.gen ∧
      ((wland 0).dev.tile h.unit.toNat).tag = some h.vf ∧ activeGens (wland 0).dev false h.unit.toNat = [(3, g)] ∧ g.matches h 0 = true ∧
      g.fmt = h.fmt ∧ g.bar = 0 ∧ [1, 2].length = fmtBytes h.fmt.toNat) := by
  refine ⟨by decide, by decide, by decide, by decide⟩

/-- Cluster 0 with a holder and requests. -/
def wturn (c : TCore) (k : Cluster) : State := wst .m c fun d => { d with clusters := ⟨[(0, k)]⟩ }

theorem test_meets_TurnSteps :
    (let k : Cluster := { reqs := [0, 3] }; (wturn {} k).dev.cluster 0 = k ∧ k.holder = none ∧ k.reqs = 0 :: [3] ∧ k.prevVf = none ∧ ∀ m ∈ k.mq, m.tile = 0) ∧
    (let k : Cluster := { reqs := [0], mq := [{ kind := .drop 0, tile := 3, serial := 0, vf := 0, walk := 0 }] }; ∃ m ∈ k.mq, m.tile ≠ 0) ∧
    (let k : Cluster := { reqs := [0], prevVf := some 5, slots := (Vector.replicate 8 {}).set 2 { st := .open_, vf := 5 } };
      k.prevVf = some 5 ∧ (5 : BitVec 10) ≠ ((wturn {} k).dev.tile 0).core.csr.vfid ∧ drainsFor k 5 = false ∧ k.mq = [] ∧
        okBy (parkTiles (wturn {} k).env 5 ((List.range 8).map (8 * (wturn {} k).env.unit + ·)) (wturn {} k).dev) (fun _ _ => true) = true) ∧
    (let k : Cluster := { holder := some 0, reqs := [3] }; let s := wturn {} k;
      0 / 8 = s.env.unit ∧ mIdle s.dev 0 = true ∧ (s.dev.tile 0).core.lease.left = 0 ∧ k.reqs ≠ [] ∧
      (s.dev.tile 0).dbg.stopped = false ∧ (s.dev.tile 0).dbg.pending = false ∧ atLeased s.env s.dev 0 = false) ∧
    (let k : Cluster := { holder := some 0, mq := [{ kind := .drop 0, tile := 0, serial := 0, vf := 0, walk := 0 }] };
      mIdle (wturn {} k).dev 0 = false) := by
  refine ⟨by decide, by decide, by decide, by decide, by decide⟩

theorem test_meets_ArraySteps :
    (∀ x ∈ [MKind.mma 0 32 {} {}, .step { mode := 1, nn := 1, m := 1, bond := 1, init := none, core := {} },
        .step { mode := 1, nn := 1, m := 1, bond := 1, init := some ([1, 1, 1, 1], {}), core := {} }],
      let m : MCmd := { kind := x, tile := 0, serial := 0, vf := 0, walk := 0 };
      let s := wturn {} { mq := [m] };
      (s.dev.cluster s.env.unit).mq = [m] ∧ (s.dev.cluster s.env.unit).expired = false ∧ (s.dev.tile m.tile).runs m.serial = true ∧
        (s.dev.tile m.tile).savedOf m.serial = none) ∧
    (let n : MNote := { tile := 0, serial := 0, walk := 3, tag := some 9 }; let s := wturn {} { notes := [n] };
      (s.dev.cluster (s.env.unit / 8)).notes = [n] ∧ n.tile = s.env.unit ∧ (s.dev.cluster (s.env.unit / 8)).mq = [] ∧
      jobsLeft s.dev s.env.unit n.serial n.walk = [] ∧ (unitTile s).runs n.serial = true ∧ (iter s).ev.length < 256) := by
  refine ⟨fun x hx => ?_, by decide⟩
  simp only [List.mem_cons, List.not_mem_nil, or_false] at hx
  rcases hx with h | h | h <;> subst h <;> exact ⟨rfl, rfl, by decide, rfl⟩

/-- A closed slot 0 of one FP32 element, whose job writes FP32 to a base; the rake at it when `on`. -/
def wrake (base : Dword) (st : SlotSt) (r : Option Rake) : State :=
  wturn {} { slots := (Vector.replicate 8 {}).set 0 { st := st, acc := 1, m := 1, n := 1, elems := [0x3F800000]
                                                      job := some { dt := some (BitVec.ofNat 512 (base.toNat + 2 ^ 128 + 4 * 2 ^ 256 + 2 ^ 444)) } }
             order := if r = none then [0] else [], rake := r }

theorem test_meets_RakeMoves :
    (let s := wrake own .closed none; let k := s.dev.cluster 0; k.rake = none ∧ k.order = 0 :: [] ∧ (k.slot 0).st = .closed) ∧
    (let s := wrake own .draining (some { slot := 0 });
      let j : RakeJob := { dt := some (BitVec.ofNat 512 (own.toNat + 2 ^ 128 + 4 * 2 ^ 256 + 2 ^ 444)) };
      let y := (s.dev.cluster 0).slot 0;
      y.job = some j ∧ j.xfer = false ∧ j.sb = none ∧ 0 + 1 = y.m * y.n ∧ rdDone j.desc = 0 ∧ j.dest y 0 = own + dw 0 ∧
      ∃ d2, locate s.env s.dev j.who { write := true } (j.dest y 0) = .ok (.spad 0 0, 0) d2 ∧ (d2.share (dieOfTile j.tile)).gate = false) ∧
    (let s := wrake 0x80000000000000 .draining (some { slot := 0 });
      let j : RakeJob := { dt := some (BitVec.ofNat 512 (0x80000000000000 + 2 ^ 128 + 4 * 2 ^ 256 + 2 ^ 444)) };
      let y := (s.dev.cluster 0).slot 0;
      y.job = some j ∧ isSys (locate s.env s.dev j.who { write := true } (j.dest y 0)) = true) ∧
    (let s := wrake own .draining (some { slot := 0, stall := some 6 }); (s.dev.cluster 0).rake = some { slot := 0, stall := some 6 }) := by
  refine ⟨by decide, ⟨rfl, by decide, by decide, by decide, by decide, by decide, _, locate_own (o := 0) (by decide) ⟨rfl, rfl⟩ (by decide), rfl⟩,
    ⟨rfl, by decide⟩, rfl⟩

/-- A frame, a way that stages and changes, one running tile on die 0 with all shares at most 65536; LCAP of 1 and of 64. -/
theorem test_meets_MemorySteps :
    (State.reset.dev.frame 0).owned = false ∧ (State.reset.dev.frame 0).scrub = false ∧
    (∀ x : Frame, (({ State.reset.dev with frames := ⟨[(0, x)]⟩ } : Dev).frame 0) = x) ∧
    (vget (drainSent State.reset.env State.reset.dev |>.slice 0).sway {} 15).stage = false ∧
    (let d : Dev := { slices := ⟨[(0, { sway := (Vector.replicate 16 {}).set 15 { stage := true, change := some false } })]⟩ };
      (vget (d.slice 0).sway {} 15).stage = true ∧ (vget (d.slice 0).sway {} 15).change = some false ∧
      (vget (drainSent {} d |>.slice 0).sway {} 15).stage = true ∧
      (((d.slice 0).sets.entries.flatMap (·.2)).any fun l => l.way == 15 && !l.pins.isEmpty) = false) ∧
    (let d : Dev := { slices := ⟨[(0, { sway := (Vector.replicate 16 {}).set 15 { change := some true },
                                        sets := ⟨[(0, [{ line := 0, way := 15, vf := 0, cls := 0, wts := 0, rts := 0, pins := [0] }])]⟩ })]⟩ };
      (vget (d.slice 0).sway {} 15).change = some true ∧
      (((d.slice 0).sets.entries.flatMap (·.2)).any fun l => l.way == 15 && !l.pins.isEmpty) = true) ∧
    tileOk 639 = true ∧ (State.reset.dev.tile 639).dbg = {} ∧
    (0xC00 : Dword).getLsbD 11 = true ∧ (1 : Dword).toNat = 1 ∧ (64 : Dword).toNat = 64 ∧
    (let s := wst .x {} fun d => { d with shares := ⟨[(0, { share := ⟨[(0, 65536 - 1)]⟩ })]⟩ };
      s.env.caps.tileOn 0 = true ∧ dieOfTile 0 = s.env.unit ∧ (∀ j, j ≠ 0 → (s.dev.tile j).running = false) ∧ (∀ j, (s.dev.tile j).bucket = 0) ∧
      (s.dev.share 0).share.entries.foldl (fun a e => a + e.2.toNat) 0 ≤ 65536) := by
  have ht : ∀ j, j ≠ 0 → ((wst .x {} fun d => { d with shares := ⟨[(0, { share := ⟨[(0, 65536 - 1)]⟩ })]⟩ }).dev.tile j) = {} := by
    intro j hj
    cases j with
    | zero => exact absurd rfl hj
    | succ n => rfl
  refine ⟨by decide, by decide, fun _ => rfl, by decide, by decide, by decide, by decide, by decide, by decide, by decide, by decide, by decide, by decide, ?_, ?_, by decide⟩
  · intro j hj; rw [ht j hj]
  · intro j
    cases j with
    | zero => decide
    | succ n => rw [ht _ (by omega)]

/-! ### The fabric, migration, debug, the system cores -/

/-- Bridge 0 with the state of its first lane from device 1 (the second is active), and peers lost or not. -/
def wlane (st : BitVec 3) (off : List Nat) : State :=
  let d : Dev := ({} : Dev).setLane 0 0 1 { state := st }
  { dev := d.setLink 0 1 { d.link 0 1 with sendOff := off } }

theorem test_meets_LaneSteps :
    (let s := wlane 1 []; (s.dev.lane 0 0 1).state = 1 ∧ (s.dev.lane 0 1 1).state = 1 ∧ (1 : BitVec 6) ≠ s.env.caps.devid ∧
      (s.dev.bridge 0).limit.toNat < 10738 ∧ 10737 ≤ (s.dev.bridge 0).limit.toNat ∧ 0 ∉ (s.dev.link 0 1).sendOff ∧
      sendLanes s.dev 0 1 ≠ [0] ∧ sendLanes s.dev 0 1 ≠ [] ∧
      (let f : Flit := { pkts := [.remote 0 { op := 1 } []] };
        f.lane = 0 ∧ f.seq = (s.dev.link 0 1).expect ∧ f.change = none ∧ f.empty = false ∧ (s.dev.link 0 1).early = [])) ∧
    (let s := wlane 1 [1]; sendLanes s.dev 0 1 = [0]) ∧
    (let s := wlane 3 [0]; (s.dev.lane 0 0 1).state = 3 ∧ 5368 ≤ (s.dev.bridge 0).limit.toNat / 2 ∧ (s.dev.bridge 0).limit.toNat / 2 < 5369 ∧
      (s.dev.lane 0 0 1).tries.toNat < 7 ∧ 0 ∈ (s.dev.link 0 1).sendOff) ∧
    (∀ n : BitVec 8, n ∈ [7#8, 254#8] → let s : State := { dev := ({} : Dev).setLane 0 0 0 { state := 3, tries := n } };
      (s.dev.lane 0 0 0).state = 3 ∧ (0 : BitVec 6) = s.env.caps.devid ∧ 7 ≤ (s.dev.lane 0 0 0).tries.toNat ∧
      (s.dev.lane 0 0 0).tries.toNat < 255) ∧
    ((wlane 2 []).dev.lane 0 0 1).state = 2 ∧ ((wlane 5 []).dev.lane 0 0 1).state = 5 ∧
    (let d : Dev := ((((({} : Dev).setLink 0 1 { sendOff := [0, 1] }).setLink 1 1 { sendOff := [0, 1] }).setLink 2 1 { sendOff := [0, 1] }).setLink 3 1
      { sendOff := [0, 1] });
      d.peersLost.getLsbD 1 = false ∧ ∀ i, i < 4 → pathUp d i 1 = false) := by
  refine ⟨by decide, by decide, by decide, fun n hn => ?_, by decide, by decide, by decide, fun i hi => ?_⟩
  · simp only [List.mem_cons, List.not_mem_nil, or_false] at hn
    rcases hn with h | h <;> subst h <;> decide
  · interval_cases i <;> decide

/-- One arrived packet of a tile of this device for its own tile 0; `f` is what else holds. -/
def wcame (op : BitVec 8) (h : RHdr) (b : List Byte) (f : Dev → Dev) : State :=
  wst .x {} fun d => f { d with flights := [{ pkt := .remote 0 { h with op := op } b, src := 0, path := 0 }] }

/-- The base of tile 0's scratchpad in the window that every tile sees. -/
def wide : BitVec 55 := 0x7E0000000000

theorem test_meets_RemoteServeSteps :
    ∀ x ∈ [(Instr.rldRequest, (0x01 : BitVec 8), 1, 0), (.rstArrival, 0x03, 3, 0), (.rstfArrival, 0x04, 4, 0), (.ramoRequest, 0x05, 5, 0),
      (.relayedRequest, 0x11, 1, 1), (.relayedRequest, 0x13, 3, 1), (.relayedRequest, 0x14, 4, 1), (.relayedRequest, 0x15, 5, 1),
      (.relayedRequest, 0x19, 1, 2), (.relayedRequest, 0x1B, 3, 2), (.relayedRequest, 0x1C, 4, 2), (.relayedRequest, 0x1D, 5, 2)],
      let h : RHdr := { va := wide, ssn := 1, op := x.2.1 };
      let b : List Byte := List.replicate (if x.2.2.1 = 3 then 128 else if x.2.2.1 = 1 then 0 else if x.2.2.1 = 4 then 24 else 8) 1;
      let s := wcame x.2.1 h b id;
      (∃ f, Claims.Came s f h b x.2.1 ∧ heldBack s.dev s.env.unit h f.path false = false) ∧
      fateOf s.env s.dev h x.2.2.1 x.2.2.2 = .serve (.spad 0 0) 0 ∧ h.ddev = s.env.caps.devid ∧
      h.ord = false ∧ h.flag = 0 ∧ Claims.NoHeld s ∧ ((openStream h s.dev).streams.get {} (streamKey h)).done = [] ∧ h.ssn = ((openStream h s.dev).streams.get {} (streamKey h)).p + 1 := by
  intro x hx
  simp only [List.mem_cons, List.not_mem_nil, or_false] at hx
  rcases hx with h | h | h | h | h | h | h | h | h | h | h | h <;> subst h <;>
    exact ⟨⟨_, ⟨rfl, ⟨_, rfl⟩, rfl, rfl⟩, by decide⟩, by decide, rfl, rfl, rfl, fun _ _ h => by (cases h), by decide⟩

/-- Stream 0 of tile 0 holds one access; what arrives answers it. -/
def wans (op : BitVec 8) (e : NEntry) (b : List Byte) : State :=
  wcame op { va := wide, ssn := e.ssn } b fun d => d.onTile 0 fun y => { y with nq := y.nq.set 0 [e] }

/-- What the clauses on answers ask of one that has arrived: nothing ahead of it, no flag held, no relay that it goes back through. -/
def Fresh (s : State) (f : Flight) (h : RHdr) (b : List Byte) (op : BitVec 8) : Prop :=
  Claims.Came s f h b op ∧ Claims.NoHeld s ∧ answerAhead s.dev s.env.unit f h = false ∧ relayPos s.dev f h = none

theorem fresh_wcame {op : BitVec 8} {h : RHdr} {b : List Byte} {f : Dev → Dev} {d : Dev} (hd : (wcame op h b f).dev = d)
    (hf : d.flights = [{ pkt := .remote 0 { h with op := op } b, src := 0, path := 0 }]) (hv : vfGen d h.vf = h.gen) (hs : d.streams = {})
    (hr : d.relays = []) : Fresh (wcame op h b f) { pkt := .remote 0 { h with op := op } b, src := 0, path := 0 } { h with op := op } b op := by
  subst hd
  refine ⟨⟨?_, ⟨_, rfl⟩, rfl, hv⟩, fun k x hx => ?_, ?_, ?_⟩
  · rw [hf]; rfl
  · rw [hs] at hx; cases hx
  · show (List.take 0 _).any _ = false
    simp
  · simp [relayPos, hr]

theorem test_meets_RemoteAnswerSteps :
    (∀ x ∈ [(0x02, RKind.rld, true), ((0x06 : BitVec 8), .ramo, false)],
      let e : NEntry := { kind := x.2.1, va := 0x7E0000000000, local_ := own };
      let s := wans x.1 e []; let h : RHdr := { va := wide, op := x.1 }; let f : Flight := { pkt := .remote 0 h [], src := 0, path := 0 };
      Fresh s f h [] x.1 ∧ entryOf s.dev 0 h x.2.2 = some (0, e) ∧ e.local_ ≠ 0 ∧
      ∃ d2, locate s.env (dropFlight s.env s.env.unit s.dev) { tile := 0, unit := .access 0, asid := 0, vf := 0, priv := false } { write := true }
        e.local_ = .ok (.spad 0 0, 0) d2 ∧ (d2.share (dieOfTile 0)).gate = false) ∧
    (let s := wans 0x07 { kind := .rst, ssn := 1 } []; let h : RHdr := { va := wide, ssn := 1, op := 0x07 };
      Fresh s { pkt := .remote 0 h [], src := 0, path := 0 } h [] 0x07) ∧
    (let s := wans 0x08 { kind := .rst, ssn := 1 } []; let h : RHdr := { va := wide, ssn := 1, op := 0x08 };
      Fresh s { pkt := .remote 0 h [], src := 0, path := 0 } h [] 0x08 ∧
      newer ((openStream h (dropFlight s.env s.env.unit s.dev)).streams.get {} (streamKey h)).p h.ssn = false) ∧
    (let e : NEntry := { kind := .rst, ssn := 1 }; let s := wans 0x09 e [1]; let h : RHdr := { va := wide, ssn := 1, op := 0x09 };
      Fresh s { pkt := .remote 0 h [1], src := 0, path := 0 } h [1] 0x09 ∧ h.ddev = s.env.caps.devid ∧ answered s.dev h = some (0, e) ∧
      e.reissued = false) ∧
    (let e : NEntry := { kind := .rst, ssn := 1 }; let s := wans 0x17 e []; let h : RHdr := { va := wide, ssn := 1, op := 0x17 };
      Fresh s { pkt := .remote 0 h [], src := 0, path := 0 } h [] 0x17 ∧
      reresEntry s.dev { pkt := .remote 0 h [], src := 0, path := 0 } h = some (0, e) ∧ s.dev.peersLost = 0 ∧
      sendWaits s.env s.dev h.vf (pageOf (h.va.setWidth 64)) = false) ∧
    (let h : RHdr := { va := wide, op := 0x17 };
      let l : List NEntry := [{ kind := .rld, va := 0x7E0000000000, reissued := true, tries := 1 }, { kind := .rld, va := 0x7E0000000080 }];
      let s := wcame 0x17 { va := wide } [] fun d => d.onTile 0 fun y => { y with nq := y.nq.set 0 l };
      Fresh s { pkt := .remote 0 h [], src := 0, path := 0 } h [] 0x17 ∧
      (reresEntry s.dev { pkt := .remote 0 h [], src := 0, path := 0 } h).map (·.1) = some 1) ∧
    (∀ x : BitVec 6, reachable ({} : Env) { bridges := ⟨[(0, { peers := -1 })]⟩ } x.toNat = true) ∧
    (let h : RHdr := { ssn := 1, ddev := 1, op := 0x1A }; let s := wcame 0x1A { ssn := 1, ddev := 1 } [] id; let g := { h with sdev := h.ddev, ddev := h.sdev };
      Fresh s { pkt := .remote 0 h [], src := 0, path := 0 } h [] 0x1A ∧ h.ddev ≠ s.env.caps.devid ∧ h.sdev = s.env.caps.devid ∧
      let st := (openStream g (dropFlight s.env s.env.unit s.dev)).streams.get {} (streamKey g)
      st.done = [] ∧ h.ssn = st.p + 1) ∧
    (let s := wcame 0x16 { va := wide } [1] id; let h : RHdr := { va := wide, op := 0x16 };
      Fresh s { pkt := .remote 0 h [1], src := 0, path := 0 } h [1] 0x16) ∧
    (let r : Redirect := ⟨0, wide, 1⟩; let d : Dev := { redirs := [r] };
      d.redirs[0]? = some r ∧ outstanding d r.vf r.page (fun e => e.via != r.owner) = false) := by
  have hw : ∀ (s : State), Sound (dropFlight s.env s.env.unit s.dev) 0 0 →
      locate s.env (dropFlight s.env s.env.unit s.dev) { tile := 0, unit := .access 0, asid := 0, vf := 0, priv := false } { write := true } own =
        .ok (.spad 0 0, 0) (dropFlight s.env s.env.unit s.dev) := by
    intro s hs
    have hl := locate_own (env := s.env) (d := dropFlight s.env s.env.unit s.dev) (w := { tile := 0, unit := .access 0, asid := 0, vf := 0, priv := false })
      (o := 0) (by decide) hs (by decide)
    rw [show own + dw 0 = own by decide] at hl
    exact hl
  refine ⟨fun x hx => ?_, fresh_wcame rfl rfl rfl rfl rfl, ⟨fresh_wcame rfl rfl rfl rfl rfl, by decide⟩,
    ⟨fresh_wcame rfl rfl rfl rfl rfl, by decide⟩, ⟨fresh_wcame rfl rfl rfl rfl rfl, by decide⟩, ⟨fresh_wcame rfl rfl rfl rfl rfl, by decide⟩,
    by decide, ⟨fresh_wcame rfl rfl rfl rfl rfl, by decide⟩, fresh_wcame rfl rfl rfl rfl rfl, by decide⟩
  simp only [List.mem_cons, List.not_mem_nil, or_false] at hx
  rcases hx with h | h <;> subst h <;>
    exact ⟨fresh_wcame rfl rfl rfl rfl rfl, by decide, by decide, _, hw _ ⟨by decide, rfl⟩, by decide⟩

/-- A REDIRECT ahead of a reply on the same path: the reply waits for it. -/
theorem test_meets_AnswersInOrder :
    let h : RHdr := { va := wide, op := 0x02 }; let f : Flight := { pkt := .remote 0 h [], src := 0, path := 0 }
    let s := wst .x {} fun d => { d with flights := [{ pkt := .remote 0 { op := 0x16 } [1], src := 0, path := 0 }, f] }
    let u : State := { s with env := { s.env with unit := 1 } }
    Claims.Came u f h [] 0x02 ∧ Claims.NoHeld u ∧ answerAhead u.dev u.env.unit f h = true :=
  ⟨⟨rfl, ⟨_, rfl⟩, rfl, rfl⟩, fun _ _ h => by (cases h), by decide⟩

/-- A command block of an OP at 0x100, for the page of frame 2, whose leaf is at 0x200, and for device 1 where OP is 2; frames 0 to 2 are VF 0's. -/
def wmig (op : Nat) (f : Mig → Mig) : State :=
  let leaf := if op < 3 then 2 ^ 137 else 0
  let m := Memory.write 0x100 (natLe 64 (op + (if op = 2 then 2 ^ 18 else 0) + leaf)) (Memory.write 0x200 (natLe 8 (1 + 2 * 65536)) [])
  { dev := { mem := m, frames := ⟨(List.range 3).map fun k => (k, { vf := 0, owned := true, scrub := false })⟩, mig := f {}, bridges := ⟨[(0, { peers := 2 })]⟩ } }

theorem test_meets_MigrationSteps :
    (Claims.Block (wmig 1 id) 0x100 1 ∧
      (let b := blockCmd (blockAt (wmig 1 id).env (wmig 1 id).dev 0x100);
        leafFrame (wmig 1 id).env (wmig 1 id).dev b.vf b.leafPa.toNat = some 2)) ∧
    (let s := wmig 3 fun m => { m with ovt := [⟨0, 0, 5, .poisoned⟩] }; Claims.Block s 0x100 3 ∧
      (let b := blockCmd (blockAt s.env s.dev 0x100); ∃ e ∈ s.dev.mig.ovt, e.vf = b.vf ∧ e.page = b.va ∧ e.st ≠ .frozen)) ∧
    (let s := wmig 4 fun m => { m with freezes := [⟨0, 0, 5, true⟩] }; Claims.Block s 0x100 4 ∧
      (let b := blockCmd (blockAt s.env s.dev 0x100); ∃ e ∈ s.dev.mig.freezes, e.vf = b.vf ∧ e.page = b.va ∧ e.thaw = true)) ∧
    (let c : MigCmd := { op := 1, vf := 0, dev := 0, va := 0, leafPa := 0x200, target := 0, tag := 9, frame := 2 };
      let s := wmig 1 fun m => { m with cmds := [c] }; s.dev.mig.cmds[s.env.unit]? = some c ∧ c.op = 1 ∧
        (Config.lineErrors s.env.tick = 0 → readErrors s.env s.dev c.frame (List.range 512) = []) ∧
        recBits (physRead8 s.dev c.leafPa.toNat) 6 1 ≠ 1 ∧ (physCheck s.env s.dev c.leafPa.toNat 8).faults = false ∧
        (physCheck s.env s.dev c.leafPa.toNat 8).waits = false) ∧
    (let s := wmig 1 fun m => { m with freezes := [⟨0, 0x10000, 0, false⟩] };
      (physCheck s.env s.dev 0x200 8).waits = true ∧ (0x200#64).toNat / 65536 = 0) ∧
    (physCheck {} {} 0x200 8).faults = true ∧
    (let d : Dev := { mem := Memory.write 0x200 (natLe 8 (64 + 1)) [], bad := [1024] }; recBits (physRead8 d 0x200) 6 1 = 1 ∧
      readErrors {} d 2 (List.range 512) ≠ []) ∧
    (let s : State := { dev := { mem := Memory.write 0x1000 (natLe 72 (64 + 2 ^ 64 + 3 * 65536 * 2 ^ 512)) []
                                 frames := ⟨[(0, { vf := 0, owned := true, scrub := false })]⟩
                                 mig := { promos := [⟨0, 0, 0, 7, true⟩], pool := 0x1000 } } };
      handleOk s.dev 7 = true ∧ poolWaits s.env s.dev = false ∧ s.dev.mig.promos[s.env.unit]? = some ⟨0, 0, 0, 7, true⟩ ∧ s.dev.mig.ovUse < 2048 ∧ poolLen s.env s.dev ≠ 0 ∧
      (poolFrame s.env (poolLen s.env s.dev) (s.dev.onMig fun m =>
        { m with promos := m.promos.set s.env.unit ⟨0, 0, 0, 7, true⟩, poolDry := false })).1 = some 3) ∧
    (let d : Dev := { cxl := [(0, 5)] }; handleOk d 0x20000005 = false) ∧
    (∀ n, 2048 ≤ ({ ovt := List.replicate (2048 + n) ⟨0, 0, 5, .present⟩, promos := [⟨0, 0, 0, 7, false⟩] } : Mig).ovUse) := by
  refine ⟨⟨⟨by decide, by decide, by decide, by decide, by decide⟩, by decide⟩,
    ⟨⟨by decide, by decide, by decide, by decide, by decide⟩, by decide⟩,
    ⟨⟨by decide, by decide, by decide, by decide, by decide⟩, by decide⟩, ⟨rfl, rfl, fun h => ?_, by decide⟩, by decide, by decide, ⟨by decide, fun h => ?_⟩, by decide, by decide, fun n => ?_⟩
  · change Config.lineErrors 0 = 0 at h
    simp [readErrors, h, wmig]
  · have hm : 0 ∈ readErrors {} { mem := Memory.write 0x200 (natLe 8 (64 + 1)) [], bad := [1024] } 2 (List.range 512) :=
      List.mem_filter.mpr ⟨List.mem_range.mpr (by decide), by simp⟩
    rw [h] at hm; cases hm
  · simp only [Mig.ovUse, List.length_replicate]; omega

theorem test_meets_MoveSteps :
    (let s := wmig 2 id; Claims.Block s 0x100 2 ∧ (let b := blockCmd (blockAt s.env s.dev 0x100);
      ownedFrame s.env s.dev b = some 2 ∧ s.dev.mig.stubUse < 4096 ∧ s.dev.mig.moveOf b.vf b.va = none ∧
      reachable s.env s.dev b.dev.toNat = true ∧ s.dev.peersLost.getLsbD b.dev.toNat = false)) ∧
    (let c : MigCmd := { op := 2, vf := 0, dev := 1, va := 0, leafPa := 0, target := 0, tag := 9, sent := 512, acked := 510 };
      let h : RHdr := { op := 0x12, sdev := 1, ssn := 511 };
      let s := wcame 0x12 { sdev := 1, ssn := 511 } [2] fun d => { d with mig := { cmds := [c] } };
      Claims.Came s { pkt := .remote 0 h [2], src := 0, path := 0 } h [2] 0x12 ∧ leNat ([2].take 1 : List Byte) = 2 ∧
      s.dev.mig.moveOf h.vf h.va = some c ∧ h.sdev = c.dev ∧ max c.acked h.ssn.toNat < c.sent ∧ dirWaits s.env s.dev h.vf h.va = false) ∧
    (let h : RHdr := { op := 0x18, ssn := 511 };
      let s := wcame 0x18 { ssn := 511 } (List.replicate 128 1) fun d => { d with
        frames := ⟨[(2, { vf := 0, owned := true, scrub := false })]⟩, mig := { incoming := [{ src := 1, vf := 0, page := 0, frame := 2 }] } };
      let x := incomingOf s.env s.dev h;
      h.ssn.toNat < 512 ∧ inHbm s.env (x.frame * 65536) 65536 = true ∧ s.dev.owns x.frame h.vf = true) ∧
    (let s := wcame 0x10 {} [0] id; dirWaits s.env s.dev 0 0 = false ∧ BitVec.ofNat 6 (leNat ([0].take 1 : List Byte)) = s.env.caps.devid ∧
      (s.dev.mig.ovt.filter fun e => !(e.vf == 0 && e.page == 0)).length + s.dev.mig.promos.countP (·.taken) < 2048) ∧
    (let z : Stub := ⟨0, 0, 1, 9, false⟩; let d : Dev := { mig := { stubs := [z] } }; d.mig.stubs[0]? = some z ∧ z.closing = false) ∧
    (let h : RHdr := { op := 0x1E }; let s := wcame 0x1E {} [] id; relayedOpen s.dev 0 h = false) ∧
    (let h : RHdr := { op := 0x1E };
      let s := wcame 0x1E {} [] fun d => { d with flights := d.flights ++ [{ pkt := .remote 0 { op := 0x13 } [], src := 0, path := 0 }] };
      relayedOpen s.dev 0 h = true) ∧
    (let h : RHdr := { op := 0x1F }; let s := wcame 0x1F {} [] id;
      Claims.Came s { pkt := .remote 0 h [], src := 0, path := 0 } h [] 0x1F ∧ Claims.Quiet s.dev) ∧
    (let d : Dev := { frames := ⟨[(2, { vf := 0, owned := true, scrub := false })]⟩, mig := { incoming := [{ src := 1, vf := 0, page := 0, frame := 2 }] } };
      ∀ y ∈ d.mig.incoming, d.owns y.frame 0 = true) ∧
    (∀ k : Nat, ({ frames := ⟨[(k, { vf := 0, owned := true, scrub := false })]⟩ } : Dev).owns k 0 = true) := by
  refine ⟨⟨⟨by decide, by decide, by decide, by decide, by decide⟩, by decide⟩, ⟨⟨rfl, ⟨_, rfl⟩, rfl, rfl⟩, by decide⟩, by decide, by decide,
    by decide, by decide, by decide, ⟨⟨rfl, ⟨_, rfl⟩, rfl, rfl⟩, ?_, fun k r h => by (cases h), fun _ h => by (cases h)⟩, by decide, fun k => ?_⟩
  · intro t q c l h
    have h0 : vget ((wcame 0x1F {} [] id).dev.tile t).aq [] q = [] := by
      have ha : ((wcame 0x1F {} [] id).dev.tile t).aq = Vector.replicate 6 [] := by
        cases t <;> rfl
      rw [ha]; unfold vget
      by_cases hq : q < 6 <;> simp [hq]
    rw [h0] at h; cases h
  · simp [Dev.owns, Dev.frame, NMap.get, NMap.find, lookupN]

theorem physCheck_done {env : Env} {d : Dev} {pa n : Nat} (h : okBy (physCheck env d pa n) (fun _ _ => true) = true) :
    physCheck env d pa n = .ok () d := by
  revert h
  unfold physCheck
  dsimp only
  split_ifs <;> simp [okBy]

theorem test_meets_DebugSteps :
    (∀ g ∈ [({} : Dbg), { stopped := true }, { pending := true, img := 0x1000 }, { pending := true, img := 0xFFFFFFFFFFFFF }, { step := some [.x] }],
      let s := wst .x {} fun d => onDbg d 0 fun _ => g; (unitTile s).dbg = g) ∧
    (let s := wst .x { eng := Vector.replicate 4 { halted := true } } fun d => onDbg d 0 fun _ => { step := some [.x] };
      (unitTile s).dbg.step ≠ none ∧ ∀ e, ready s.dev s.env.unit e = .no) ∧
    (let s := wst .x {} fun d => onDbg d 0 fun g => { g with bpctl := Vector.replicate 4 0xA000000000000000 };
      ∃ e, hitsOf s.dev s.env.unit e ≠ 0) ∧
    (physCheck {} { frames := ⟨(List.range 2).map fun k => (k, { vf := 0, owned := true, scrub := false })⟩ } 0x1000 0x18000 = .ok () { frames := ⟨(List.range 2).map fun k => (k, { vf := 0, owned := true, scrub := false })⟩ }) ∧
    (physCheck {} {} 0x1000 0x18000).faults = true ∧ (physCheck {} {} 0xFFFFFFFFFF000 0x18000).faults = true := by
  refine ⟨fun g hg => ?_, ⟨by decide, fun e => by cases e <;> decide⟩, ⟨.x, by decide⟩, physCheck_done (by decide), by decide, by decide⟩
  simp only [List.mem_cons, List.not_mem_nil, or_false] at hg
  rcases hg with h | h | h | h | h <;> subst h <;> rfl

/-- A DMA write of one byte at the text page of `placed`, from root port 0 under ASID 0 and VF 0: every condition of its steps. -/
def wdma : Bool :=
  let s := placed 0 .x id
  let w := portWho 0 {}
  let d0 := { s.dev with ports := s.dev.ports.set 0 {} }
  okBy (locate s.env d0 w { write := true } 0x10000) fun x d1 => decide (x = (.hbm 0x40000, 0)) &&
    okBy (hwCheck s.env w { write := true } 2 d1 0x10000 1) fun _ d2 =>
      okBy (hwWrite s.env w .none 2 d2 0x10000 [5]) (fun _ _ => true) &&
        okBy (locate s.env d2 w { write := true } 0x10000) fun x _ => decide (x = (.hbm 0x40000, 0))

/-- A frame that a VF owns and one that none does; a DMA write that is performed and one that faults; a core that keeps a replay log at
0x1000, whose ring has room, and one that does not. -/
theorem test_meets_CoreSteps :
    (let s : State := { dev := { frames := ⟨[(0, { vf := 7, owned := true, scrub := false }), (1, { vf := 7, owned := true, scrub := true })]⟩ } };
      (s.dev.core 0).level ≠ .user ∧ (s.dev.core 0).posted = [] ∧
      checkFrame s.env s.dev (coreWho s.dev 0 0 (s.dev.frame 0).vf) {} 65528 0 = .ok (.hbm 65528) 0 ∧ 65528 % 65536 + msBytes .d ≤ 65536 ∧
      0x1FFF8 < s.env.caps.hbm ∧ (s.dev.frame 1).scrub = true ∧ (s.dev.frame 2).owned = false) ∧
    (let s : State := { dev := { cores := ⟨[(0, { level := .user })]⟩ } }; (s.dev.core 0).level = .user ∧ 0 < s.env.caps.hbm) ∧
    (let s : State := { dev := { cores := ⟨[(0, { posted := [(0xF080000000008, natLe 8 5)] })]⟩ } };
      (s.dev.core 0).posted = [(0xF080000000008, natLe 8 (5#64).toNat)] ∧ (4#4).getLsbD 2 = true) ∧ wdma = true ∧
    isSys (locate (placed 0 .x id).env (placed 0 .x id).dev (portWho 0 {}) { write := true } 0x80000000000000) = true ∧
    (State.reset.dev.core 0).rplctl = false ∧
    (let s : State := { dev := { cores := ⟨[(0, { rplctl := true, rplbase := 0x1000 })]⟩, mem := Memory.write 0x1000 (natLe 8 64) [], frames := ⟨[(0, { vf := 0, owned := true, scrub := false })]⟩ } };
      (s.dev.core s.env.unit).rplctl = true ∧
      ∀ k ∈ [2, 3], okBy (ringPostPa s.env 0 0x0C01 (s.dev.core s.env.unit).rplbase.toNat
        (natLe 8 k ++ natLe 8 1 ++ natLe 8 2 ++ natLe 8 (s.dev.core s.env.unit).retired.toNat) s.dev) (fun _ _ => true) = true) := by
  refine ⟨by decide, by decide, by decide, by decide, by decide, by decide, by decide, by decide⟩


/-! ### The machine as a whole -/

/-- Tile 0 once what waits has gone on at the turn of an engine that stands at a word at its text. -/
def wturnOf (w : Nat) (e : Eng) : State := (beginTurn (State.reset.withFetchWord 32 w) 0 e []).onDev drive

/-- A word that decodes and one that does not, at the PC of an engine whose turn it is; a step of another agent that happens, and one that
cannot before DEVREADY; a tile that does not exist. -/
theorem test_meets_StepRunsDecodedWord :
    (∀ x ∈ [0xA0000001, 0xFFFFFFFF], nextTurn (State.reset.withFetchWord 32 x) = (.engine 0 .x, []) ∧
      Stands (wturnOf x .x) .x 0x10000 false ∧
      ∃ d, fetchAt (wturnOf x .x).env (wturnOf x .x).dev 0 .x 0x10000 = .ok (BitVec.ofNat 32 x) d) ∧
    decode 0xA0000001 = .ok (.extWord 1) ∧ (∃ k, decode 0xFFFFFFFF = .error k) ∧ tileOk 0 = true ∧ tileOk 640 = false ∧
    nextTurn { State.reset with sched := [.event 5 .peerLost] } = (.event 5 .peerLost, []) ∧ isEvent .peerLost = true ∧
    Instr.unitOk 5 .peerLost = true ∧ Instr.wf .peerLost = true ∧ served .peerLost State.reset.dev = false ∧
    served .peerLost (State.reset.withFetchWord 32 0).dev = true ∧
    nextTurn { State.reset with sched := [.engine 640 .m] } = (.engine 640 .m, []) := by
  refine ⟨fun x hx => ?_, by decide, ⟨_, rfl⟩, by decide⟩
  simp only [List.mem_cons, List.not_mem_nil, or_false] at hx
  rcases hx with h | h <;> subst h <;> exact ⟨by decide, ⟨rfl, by decide⟩, of_fetches (by decide)⟩

/-- The invariant holds when power is applied, and the machine takes a step from there. -/
theorem test_meets_StepKeepsInv :
    Inv {} State.reset ∧ ∃ t, step { State.reset with sched := [.event 0 (.powerUp 1)] } = .next t := by
  exact ⟨⟨by decide, rfl⟩, _, rfl⟩

/-- Well-formed words (EncodeThenDecode; their words decode, DecodeThenEncode): a short and an extended one, a vector word, a control word. -/
theorem test_meets_EncodeThenDecode :
    [Instr.addi 31 31 0xFFF, .nop, .vaddF ⟨.diag, 31⟩ ⟨.diag, 31⟩ ⟨.diag, 31⟩ true, .brc .x 2 31 0x3FF].all (fun i => i.isWord && i.wf) = true := by
  decide

/-- M stands at a FENCEX of A, X at a word of A. -/
theorem test_meets_SkippedWords :
    Stands (wst .m {} id) .m 0 false ∧ encode (.fencex 32 32) ≠ none ∧
    ((encode (.fencex 32 32)).bind tagOwner) = some .a ∧ Stands (whand {}) .x 8 true ∧ (encode (.aadd 1 2 3)).bind tagOwner = some .a := by
  refine ⟨⟨rfl, by decide⟩, by decide, by decide, ⟨rfl, by decide⟩, by decide⟩

/-- The window just reached and just passed: the walk counts differ by WIN - 1 and by WIN; an engine stopped at END. -/
theorem test_meets_SlipWindow :
    (∀ n ∈ [63, 64], let s := wst .x { eng := (Vector.replicate 4 {}).set 0 { walk := n } } id;
      (unitTile s).running = true ∧ (unitTile s).saving = false ∧ (unitTile s).dbg = {} ∧ (iter s).trap = {} ∧ ((iter s).engine .x).halted = false ∧
      ((iter s).engine .x).stopped = false ∧ ready s.dev s.env.unit .x = if n = 63 then .go 0 false else .slip) ∧
    (let s := wst .x { eng := (Vector.replicate 4 {}).set 0 { stopped := true } } id;
      ((iter s).engine .x).stopped = true ∧ (iter s).trap.hand = none) ∧ Instr.isWord .nop = true := by
  refine ⟨fun n hn => ?_, by decide, by decide⟩
  simp only [List.mem_cons, List.not_mem_nil, or_false] at hn
  rcases hn with h | h <;> subst h <;> decide

/-! ### The spec's own examples -/

/-- The words that files 04 to 09 and 15 work out. -/
theorem test_words_worked_out_by_the_spec :
    decode 0x240A9802 = .ok (.ld 5 9 .w false 2) ∧ decode 0x4249048A = .ok (.vcmpF 2 2 ⟨.whole, 4⟩ ⟨.col, 5⟩ false) ∧
    decode 0x64030344 = .ok (.mma 12 13 1 0) ∧ decode 0x8144E005 = .ok (.brc .a 1 7 5) ∧ decode 0x0A09FFFF = .ok (.lui 4 0x1FFFF) ∧
    decode 0x07800000 = .error .unassigned ∧ tagOwner 0x07800000 = some .x ∧
    decode 0x1048B000 = .ok (.push 4 11) ∧ decode 0x50482000 = .ok (.vbcast ⟨.whole, 16⟩ 4) ∧ decode 0x8315FFFD = .ok (.loopr .x 10 0x1FFFD) ∧
    decode 0x87204000 = .ok (.tok .v .x 1) ∧ decode 0x16180012 = .ok (.csrr 12 0x012) ∧ decode 0x08140003 = .ok (.addi 10 0 3) ∧
    decode 0x8215FFFC = .ok (.loop .x 10 0x1FFFC) ∧ decode 0x1640A070 = .ok (.csrw 10 0x070) := by decide

theorem test_words_worked_out_by_the_spec_2 :
    decode 0x40C1A40A = .ok (.vfmaF ⟨.whole, 3⟩ ⟨.row, 4⟩ ⟨.whole, 5⟩ false) ∧
    decode 0x44C34710 = .ok (.vfmaB ⟨.whole, 6⟩ ⟨.col, 7⟩ ⟨.whole, 8⟩ false) ∧ decode 0x52049100 = .ok (.vpop ⟨.whole, 9⟩ 2 8) ∧
    decode 0x55410529 = .ok (.vpackE4 ⟨.whole, 2⟩ ⟨.whole, 5⟩ true .rtz 1) ∧ decode 0x24409C00 = .ok (.ldq 0 9 .d false 0) ∧
    decode 0x24C14C0C = .ok (.st 0 20 .d 12) ∧ decode 0x2D000060 = .ok (.fencex 1 32) ∧ decode 0x2D000042 = .ok (.fencex 1 2) ∧
    decode 0x24DC9C25 = .ok (.st 14 9 .d 37) ∧ decode 0x2A00A820 = .ok (.copy 10 16 1 0) ∧ decode 0x2A013A41 = .ok (.copy 19 20 2 1) ∧
    decode 0x242EAC00 = .ok (.ld 23 10 .d false 0) ∧ decode 0x2900A900 = .ok (.bararm 10 18) ∧ decode 0x4C010100 = .ok (.vrcp ⟨.whole, 2⟩ ⟨.whole, 1⟩ false) ∧
    decode 0x5281A800 = .ok (.vpushx ⟨.whole, 3⟩ 5) ∧ decode 0x101A5000 = .ok (.pop 13 5) := by decide

/-- The worked narrowings of file 01: 0.3 in E4M3 and E5M2, 500 with saturate set and clear, an infinity, -500 and 500 under RDN. -/
theorem test_narrowing_examples :
    (e4m3.conv .rne true (num32 0x3E99999A)).1 = 0x2A ∧ (e5m2.conv .rne true (num32 0x3E99999A)).1 = 0x35 ∧
    e4m3.conv .rne true (num32 0x43FA0000) = (0x7E, fOverflow ||| fInexact) ∧
    e4m3.conv .rne false (num32 0x43FA0000) = (0x7F, fOverflow ||| fInvalid) ∧
    e4m3.conv .rne true (num32 0x7F800000) = (0x7E, fInexact) ∧ e4m3.conv .rne false (num32 0x7F800000) = (0x7F, fInvalid) ∧
    (e4m3.conv .rdn false (num32 0xC3FA0000)).1 = 0xFF ∧ (e4m3.conv .rdn true (num32 0xC3FA0000)).1 = 0xFE ∧
    (e4m3.conv .rdn false (num32 0x43FA0000)).1 = 0x7E := by decide

/-- R89, R95: a field that the map of its instruction writes as 0 is reserved bits: a of CSRR, d of CSRW. -/
theorem test_zero_fields : decode 0x16181012 = .error .reservedBits ∧ decode 0x1642A070 = .error .reservedBits := by decide

/-! ### Single steps -/

/-- The iteration after a step of a word. -/
def got (i : Instr) (s : State) : TCore :=
  match exec i s with
  | .next t => iter t
  | .fault _ => {}
  | .refused _ => {}

/-- R115: the sum wraps; a shift keeps the sign and takes six bits of the count; the high half of a signed product. -/
theorem test_integer_words :
    (got (.add 3 1 2) (wst .x { regs := r12 (-1) 2 } id)).s 3 = 1 ∧ (got (.sar 3 1 2) (wst .x { regs := r12 (-8) 65 } id)).s 3 = (-4) ∧
    (got (.mulh 3 1 2) (wst .x { regs := r12 (-1) 2 } id)).s 3 = (-1) ∧ (got (.mulhu 3 1 2) (wst .x { regs := r12 (-1) 2 } id)).s 3 = 1 ∧
    (got (.add 0 1 2) (wst .x { regs := r12 5 2 } id)).s 0 = 0 := by decide

/-- File 06: lui s4, -1 leaves 0xFFFF_FFFF_FFFF_F000. -/
theorem test_lui : (got (.lui 4 0x1FFFF) (wst .x {} id)).s 4 = 0xFFFFFFFFFFFFF000 := by decide

/-- R137, R138: an atomic floating-point addition of file 08: 1.0 and -1.0 give +0, and the old value stands in A5. -/
theorem test_amofadd :
    (got (.amofadd 5 1 2) (wa 0xBF800000 [0, 0, 0x80, 0x3F] {})).a 5 = 0x3F800000 := by decide

/-- R134, R138: LD of a byte extends the sign; ST at the last byte of the scratchpad is performed there. -/
theorem test_ld_st :
    (got (.ld 5 1 .b false 0) (wa 0 [0x80] {})).a 5 = 0xFFFFFFFFFFFFFF80 ∧ (got (.ld 5 1 .b true 0) (wa 0 [0x80] {})).a 5 = 0x80 ∧
    (match exec (.st 1 2 .b 0) (wst .a { regs := r12 0x5A (own + 0x2FFFFF) } id) with
     | .next t => decide (Memory.get (spadKey 0 0x2FFFFF) t.dev.mem = 0x5A)
     | .fault _ => false
     | .refused _ => false) = true := by decide

/-- R112, R316: TRAP 5 of X enters the handler at TVEC with the cause, the address of the word and its engine; TINFO0 is the code. -/
theorem test_trap :
    let c := got (.trap 5) (wst .x { csr := { tvec := 0x40 } } id);
    c.trap.hand.isSome = true ∧ c.trap.info0 = 5 ∧ c.trap.pc = 0 := by decide

/-- File 09: the reciprocal of 4.0 is 0.25, exact; 0.25 plus 4.0 is 4.25; R181: the reciprocal of -0 is -Inf with divide by zero; a sum of two
infinities of unlike sign is the NaN. -/
theorem test_elements :
    special 0 0x40800000 = (0x3E800000, fNone) ∧ f32Add 0x3E800000 0x40800000 = (0x40880000, fNone) ∧
    special 0 0x80000000 = (0xFF800000, fDivZero) ∧ f32Add 0x7F800000 0xFF800000 = (0x7FC00000, fInvalid) := by decide

/-- R110: LOOPR decided by X that is taken turns VRB back by 1 as V walks it. -/
theorem test_loopr :
    let s := wst .v { eng := (Vector.replicate 4 {}).set 0 { outs := [] }, csr := { vrb := 0 } } fun d =>
      d.onCore 0 fun c => c.onEng .v fun g => { g with outs := [1] };
    (got (.loopr .x 10 0x1FFFD) s).csr.vrb = 15 := by decide

/-- R238: the slice and the set of PA 0x0012_3456_7880, on a whole module and on one with slices 0 to 7 disabled. -/
theorem test_slice_of_a_line :
    sliceOf {} 0x001234567880 = 85 ∧ setOf 0x001234567880 = 776 ∧ sliceOf { clusterEn := BitVec.allOnes 80 <<< 4 } 0x001234567880 = 89 := by decide

/-- File 01, the worked group sum: a group of 16 is summed exactly and rounded once, so the 1 survives 2^30 - 2^30. -/
theorem test_group_sum :
    matMul 1 16 { fmt := 1, elems := [[some 0x4E80, some 0x3F80, some 0xCE80]] } { fmt := 1, elems := [[some 0x3F80, some 0x3F80, some 0x3F80]] } [0] =
      ([0x3F800000], 0) := by decide
/-! ### More clauses and more forms -/

/-- An engine at its text, with what it has walked before it; in a handler of X where `hand`. -/
def wprev (e : Eng) (hand : Bool) (p : Prev) : State :=
  placed 0 e fun c => if hand then { c with trap := { hand := some { pc := 0x10000, prev := p } } } else c.onEng e fun g => { g with prev := p }

/-- ExtendedImmediates: every word that takes an EXT word, on its engine, in a handler of X too, behind none and behind one; an EXT word
behind one of another engine; one behind a word that takes none. -/
theorem test_meets_ExtendedImmediates_all :
    (∀ x ∈ [(RiOp.addi, Eng.x, false), (.andi, .x, false), (.ori, .x, false), (.xori, .x, false), (.slti, .x, false), (.aaddi, .a, false),
        (.aandi, .a, false), (.addi, .x, true), (.slti, .x, true)], ∀ y ∈ [none, some (9 : BitVec 29)],
      let p : Prev := .ri x.1 31 1 0xFFF y; let s := wprev x.2.1 x.2.2 p;
      Stands s x.2.1 0x10000 x.2.2 ∧ (∃ d, fetchAt s.env s.dev s.env.unit x.2.1 (0x10000 + 4) = .ok 0 d) ∧
      (if x.2.2 then ((iter s).trap.hand.map fun h => h.prev).getD .none else ((iter s).engine x.2.1).prev) = p) ∧
    (∀ p ∈ [Prev.none, .c, .other .v, .other .a], Stands (wprev .v false p) .v 0x10000 false ∧ ((iter (wprev .v false p)).engine .v).prev = p) := by
  refine ⟨fun x hx y hy => ?_, fun p hp => ?_⟩
  · simp only [List.mem_cons, List.not_mem_nil, or_false] at hx hy
    rcases hx with h | h | h | h | h | h | h | h | h <;> subst h <;> rcases hy with h | h <;> subst h <;>
      exact ⟨⟨rfl, by decide⟩, of_fetches (by decide), by decide⟩
  · simp only [List.mem_cons, List.not_mem_nil, or_false] at hp
    rcases hp with h | h | h | h <;> subst h <;> exact ⟨⟨rfl, by decide⟩, by decide⟩

/-- StoreWords, RowStores: no packet of the tile is on its way; AddressFaults of every word: a misaligned and a too high address. -/
theorem test_meets_stores_and_faults :
    (let s := wa 4 [1, 2] { q := { xa := [7] } };
      branchDue s.env s.dev s.env.unit (.spad 0 8) = false ∧ branchDue s.env s.dev s.env.unit (.spad s.env.unit 0) = false) ∧
    (let s := wst .a { regs := r12 1 0x80000000000000 } id;
      (iter s).ldq = none ∧ ((iter s).memAddr 2 .d 0).toNat % msBytes .d = 0 ∧ 2 ^ 55 ≤ ((iter s).memAddr 2 .d 0).toNat ∧
      ∀ i ∈ [Instr.ld 1 2 .d false 0, .ldq 0 2 .d false 0, .st 1 2 .d 0, .stq 1 2 .d 0], encode i ≠ none) := by
  decide

/-- Prefetch: an address that faults; a line that L2 holds, and one for which there is a way. -/
theorem test_meets_Prefetch_all :
    ((iter (wst .a { regs := r12 0x80000000000000 0 } id)).memAddr 1 .b 0).toNat % msBytes .b = 0 ∧
    (let s := wst .a { regs := r12 0x80000000000000 0 } id; translate s.env s.dev (who s) {} ((iter s).memAddr 1 .b 0) = .fault cTranslation) ∧
    (let k := sliceOf wpref.env.caps 0x40040; fillWay (wpref.dev.slice k) 0 ((wpref.dev.slice k).sets.get [] (setOf 0x40040)) ≠ none) ∧
    (let d : Dev := { slices := ⟨[(0, { sets := ⟨[(0, [{ line := 0, way := 15, vf := 0, cls := 0, wts := 0, rts := 0 }])]⟩ })]⟩ };
      ∃ y ∈ (d.slice 0).sets.get [] 0, y.line = 0) := by
  refine ⟨by decide, by decide, by decide, _, List.mem_singleton.mpr rfl, rfl⟩

/-- A barrier object of a state and a count at the base of the scratchpad; A2 holds the byte count. -/
def wbar (n : Dword) (state count : Nat) : State := wa n (natLe 16 (count + state * 2 ^ 56)) {}

/-- BarrierWords: every state, with 0 bytes and with as many as spill. -/
theorem test_meets_BarrierWords_all :
    (∀ x ∈ [((0 : Dword), 0, 0), (0, 1, 0), (0, 2, 0), (5, 3, 0), (0xFFFFFFFFFFFFFF, 1, 1), (1, 1, 7)],
      let s := wbar x.1 x.2.1 x.2.2;
      Stands s .a 0 false ∧ ((iter s).a 1).toNat % 16 = 0 ∧ ((iter s).a 2).toNat < 2 ^ 56 ∧ (iter s).ev.length < 256 ∧
      (let o := barOf (getBytes s.dev (.spad 0 0) 16); o.state = x.2.1 ∧ o.count = x.2.2 ∧ o.flag = 0) ∧
      ∃ d, Reaches s { write := true } ((iter s).a 1) (.spad 0 0) 0 d) := by
  intro x hx
  simp only [List.mem_cons, List.not_mem_nil, or_false] at hx
  rcases hx with h | h | h | h | h | h <;> subst h <;>
    exact ⟨⟨rfl, by decide⟩, by decide, by decide, by decide, by decide, of_lands (by decide)⟩

/-! ### Traps, END, fences -/

/-- UndeliverableTrap: TVEC 0 with no handler, a handler that runs, a word of M that does not decode. -/
theorem test_meets_UndeliverableTrap :
    (let s := wst .m {} id; Stands s .m 0 false ∧ (iter s).csr.tvec = 0 ∧ (iter s).trap.hand = none ∧
      ((0x7FFFFFFF#32).extractLsb' 29 3).toNat = Eng.m.idx.val) ∧
    (let s := wst .x { csr := { tvec := 0 } } id; Stands s .x 0 false ∧ (iter s).csr.tvec = 0 ∧ (iter s).trap.hand = none) ∧
    (iter (whand {})).trap.hand = some { pc := 8 } := by
  refine ⟨⟨⟨rfl, by decide⟩, by decide⟩, ⟨⟨rfl, by decide⟩, by decide⟩, by decide⟩

/-- EndWord: V with a result pending; A with two queues and two streams named, with a full queue; M with a lease, idle and not. -/
theorem test_meets_EndWord_all :
    (let r : Sfu := { walk := 0, rem := 2, func := 0, preg := 1, data := Vector.replicate 512 0, act := 0, flags := 0 };
      let s := wst .v { sfu := (Vector.replicate 8 none).set 0 (some r) } id;
      Stands s .v 0 false ∧ (issueTick (iter s)).sfuBusy = true) ∧
    (let s := wst .a { named := [0, 5, 8, 23] } id;
      Stands s .a 0 false ∧ (iter s).named.Nodup ∧ (∀ q ∈ (iter s).named, q.toNat ≤ 5 ∨ (8 ≤ q.toNat ∧ q.toNat < 24)) ∧
      ∀ q ∈ (iter s).named, q.toNat ≤ 5 → (s.dev.queue s.env.unit q.toNat).length < 32) ∧
    (let s := wst .a { named := [0] } fun d => d.setQueue 0 0 (List.replicate 32 { kind := .copy });
      Stands s .a 0 false ∧ ∃ q ∈ (iter s).named, q.toNat ≤ 5 ∧ 32 ≤ (s.dev.queue s.env.unit q.toNat).length) ∧
    (let s := wm [] id id; Stands s .m 0 false ∧ (iter s).lease.held = true ∧ mIdle s.dev s.env.unit = true) ∧
    (let s := wm [] id fun k => { k with mq := [{ kind := .drop 0, tile := 0, serial := 0, vf := 0, walk := 0 }] };
      Stands s .m 0 false ∧ (iter s).lease.held = true ∧ mIdle s.dev s.env.unit = false) := by
  refine ⟨⟨⟨rfl, by decide⟩, by decide⟩, ⟨⟨rfl, by decide⟩, by decide⟩, ⟨⟨rfl, by decide⟩, 0, by decide, by decide, by decide⟩,
    ⟨⟨rfl, by decide⟩, by decide⟩, ⟨⟨rfl, by decide⟩, by decide⟩⟩

/-- A stands, with a copy command at a lower walk count and an access on stream 0, as `cp` and `nt` say; A1 names marker 1 or none. -/
def wfence (cp nt mk : Bool) : State :=
  wst .a { eng := Vector.replicate 4 { walk := 5 }, regs := r12 (256 + 31) 0, markers := if mk then [⟨1, 31, 5⟩] else [] } fun d =>
    d.onTile 0 fun y => { y with
      aq := if cp then (Vector.replicate 6 []).set 0 [{ kind := .copy, walk := 4 }] else y.aq
      nq := if nt then y.nq.set 0 [{ kind := .rst, ssn := 1, walk := 4 }] else y.nq }

/-- FenceWords: every path done; the copy path not, the network path not, each with a marker in A1 and with none. -/
theorem test_meets_FenceWords_all :
    (∀ mk : Bool, let s := wfence false false mk;
      Stands s .a 0 false ∧ ∀ p, p < 6 → pathDone s.dev s.env.unit ((iter s).engine .a).walk p = true) ∧
    (∀ mk : Bool, let s := wfence true false mk; Stands s .a 0 false ∧ pathDone s.dev s.env.unit ((iter s).engine .a).walk 1 = false ∧
      pathDone s.dev s.env.unit ((iter s).engine .a).walk 4 = true) ∧
    (∀ mk : Bool, let s := wfence true true mk; Stands s .a 0 false ∧ pathDone s.dev s.env.unit ((iter s).engine .a).walk 4 = false) ∧
    (∀ mk : Bool, (iter (wfence false false mk)).markers.find? (fun j => BitVec.ofNat 64 (j.seq * 256 + j.paths.toNat) ==
      (iter (wfence false false mk)).a 1) = if mk then some ⟨1, 31, 5⟩ else none) := by
  refine ⟨fun mk => ?_, fun mk => ?_, fun mk => ?_, fun mk => ?_⟩ <;> cases mk <;>
    first | exact ⟨⟨rfl, by decide⟩, by decide⟩ | decide

/-! ### The words of V and the arithmetic of the formats -/

/-- VectorShapeTraps: each reason, with words that have an encoding. -/
theorem test_meets_VectorShapeTraps_all :
    (let s := wv {} { rows := 16, cols := 15, curRow := 16, curCol := 15 } {}; let c := iter s;
      ¬ Claims.Matches .whole [.row, .col] ∧ ¬ Claims.Matches .whole [.row] ∧ Claims.Matches .row [.row, .row] ∧ Claims.Outside c [.row, .row, .row] ∧
      Claims.Matches .diag [.col] ∧ Claims.Outside c [.diag, .col] ∧ ¬ Claims.HasClass [.row, .col] ∧ Claims.HasClass [.row, .row] ∧
      Claims.Outside c [.row] ∧ (∃ y ∈ [Dir.whole, .row], y ≠ .whole) ∧ c.csr.rows.toNat ≤ c.csr.curRow.toNat) ∧
    (let c := iter (wv {} {} {}); ¬ Claims.Outside c [.row] ∧ ¬ Claims.Outside c [.col]) ∧
    (∀ i ∈ [Instr.vaddF ⟨.whole, 1⟩ ⟨.row, 2⟩ ⟨.col, 3⟩ false, .vrcp ⟨.whole, 1⟩ ⟨.row, 2⟩ false, .viota ⟨.row, 1⟩ 0,
        .vcmpF 2 2 ⟨.row, 4⟩ ⟨.col, 5⟩ false, .vcmpI 2 2 ⟨.row, 4⟩ ⟨.row, 5⟩ false, .vshift ⟨.row, 1⟩ ⟨.whole, 2⟩ true false 1,
        .vpop ⟨.row, 1⟩ 2 8, .vpush ⟨.row, 1⟩ 3 8, .vpushx ⟨.row, 3⟩ 5, .vunpQ4 ⟨.row, 1⟩ ⟨.whole, 2⟩ 3 0,
        .vpackE4 ⟨.row, 2⟩ ⟨.whole, 5⟩ true .rtz 1, .vpark ⟨.row, 1⟩, .vunpark ⟨.row, 1⟩, .vtrans ⟨.row, 1⟩ ⟨.whole, 2⟩,
        .vredsum ⟨.row, 1⟩ ⟨.whole, 2⟩ false false false, .vredmax ⟨.row, 1⟩ ⟨.row, 2⟩ true true true, .vbcast ⟨.row, 1⟩ 4,
        .vpushx ⟨.whole, 3⟩ 5], encode i ≠ none) := by
  refine ⟨⟨by simp [Claims.Matches], by simp [Claims.Matches], by simp [Claims.Matches], ?_, by simp [Claims.Matches], ?_, by simp [Claims.HasClass],
    by simp [Claims.HasClass], ?_, by decide, by decide⟩, ⟨?_, ?_⟩, by decide⟩ <;> unfold Claims.Outside <;> decide

/-- VectorQueueWords and SpecialFunctionWords: q.vx full with the cursor inside; no result pending. -/
theorem test_meets_VectorQueueWords_full :
    (let s := wv { vx := List.replicate 16 1 } {} {}; let c := issueTick (iter s);
      Stands s .v 0 false ∧ c.q.vx.length = 16 ∧ c.csr.curRow.toNat < c.csr.rows.toNat ∧ c.csr.curCol.toNat < c.csr.cols.toNat ∧
      (iter s).dirBad (some (class1 .whole)) .whole [.whole] = none ∧ ((iter s).sfu.toList.filterMap id).length < 8) := by
  refine ⟨⟨rfl, by decide⟩, by decide⟩

/-- A finite FP32 encoding by its exponent and its fraction. -/
theorem value32_of {w : Word} (b : Bool) (ex fr : Nat) (hb : w.getLsbD 31 = b) (hx : w.toNat / 2 ^ 23 % 256 = ex) (hf : w.toNat % 2 ^ 23 = fr) :
    Claims.value32 w = (if b then -1 else 1) * (if ex = 0 then (fr : ℚ) / 2 ^ 149 else (((2 ^ 23 + fr : Nat) : ℚ)) * 2 ^ ex / 2 ^ 150) := by
  subst hb; subst hx; subst hf; rfl

/-- The values of 500 and of 0.3's encoding (file 01), and of 2^-15. -/
theorem test_fp32_values_2 : Claims.value32 0x43FA0000 = 500 ∧ Claims.value32 0x3E99999A = 10066330 / 2 ^ 25 ∧
    Claims.value32 0x38000000 = 1 / 2 ^ 15 := by
  refine ⟨?_, ?_, ?_⟩
  · rw [value32_of false 135 7995392 (by decide) (by decide) (by decide)]; norm_num
  · rw [value32_of false 125 1677722 (by decide) (by decide) (by decide)]; norm_num
  · rw [value32_of false 112 0 (by decide) (by decide) (by decide)]; norm_num

/-- The largest finite value of E4M3 (R9): 448. -/
theorem test_e4m3_top : Claims.value e4m3 e4m3.maxB = 448 := by
  have h : Claims.value e4m3 e4m3.maxB = 1 * ((if (15 : Nat) = 0 then 6 * 2 else (8 + 6) * 2 ^ 15 : Nat) : ℚ) / 2 ^ 10 := rfl
  rw [h]; norm_num

/-- ConversionValues: 500 exceeds E4M3 in every direction; 0.3 does not; 2^-15 is below its normal numbers; 1 is exact there. -/
theorem test_meets_ConversionValues :
    Claims.fin32 0x43FA0000 ∧ Claims.fin32 0x3E99999A ∧ Claims.nan32 0x7FC00000 ∧ Claims.inf32 0xFF800000 ∧
    (∀ r : Rnd, Claims.OutOfRange e4m3 r (Claims.value32 0x43FA0000)) ∧ (∀ r : Rnd, ¬ Claims.OutOfRange e4m3 r (Claims.value32 0x3E99999A)) ∧
    (∀ r : Rnd, Claims.Tiny e4m3 r (Claims.value32 0x38000000)) ∧ (∀ r : Rnd, ¬ Claims.Tiny e4m3 r (Claims.value32 0x3E99999A)) ∧
    Claims.Toward .rdn (Claims.value32 0x43FA0000) ∧ ¬ Claims.Toward .rup (Claims.value32 0x43FA0000) := by
  obtain ⟨h1, h2, h3⟩ := test_fp32_values_2
  have hu : ((2 : ℚ) ^ (e4m3.maxB / 2 ^ e4m3.frac) / 2 ^ (e4m3.bias + e4m3.frac)) = 32 := by
    have : (2 : ℚ) ^ (e4m3.maxB / 2 ^ e4m3.frac) / 2 ^ (e4m3.bias + e4m3.frac) = 2 ^ 15 / 2 ^ 10 := rfl
    rw [this]; norm_num
  have hb : (2 : ℚ) / 2 ^ e4m3.bias = 2 / 2 ^ 7 := rfl
  have hv : (1 : ℚ) / 2 ^ (e4m3.bias + e4m3.frac) = 1 / 2 ^ 10 := rfl
  rw [h1, h2, h3]
  refine ⟨by decide, by decide, by decide, by decide, fun r => ?_, fun r => ?_, fun r => ?_, fun r => ?_, ?_, ?_⟩
  · unfold Claims.OutOfRange; dsimp only; rw [test_e4m3_top, hu]; cases r <;> norm_num [Claims.Toward] <;> decide
  · unfold Claims.OutOfRange; dsimp only; rw [test_e4m3_top, hu]; cases r <;> norm_num [Claims.Toward] <;> decide
  · unfold Claims.Tiny; dsimp only; rw [hb, hv]; cases r <;> norm_num [Claims.Toward] <;> decide
  · unfold Claims.Tiny; dsimp only; rw [hb, hv]; cases r <;> norm_num [Claims.Toward] <;> decide
  · norm_num [Claims.Toward]
  · norm_num [Claims.Toward]; decide

/-- BfValues, ElementValues, GroupSums, AccumulatorValues, ProductElements, RakeValues: operands of every kind that their clauses name. -/
theorem test_meets_values :
    (Claims.fin32 0x3F800000 ∧ Claims.fin32 0 ∧ Claims.value32 0x3F800000 - Claims.value32 0 * Claims.value32 0 ≠ 0) ∧
    (Claims.finite fp16 0x7BFF ∧ Claims.finite e5m2 0xFB ∧ Claims.finite fp32 0xFF7FFFFF) ∧
    (let l : List Machine.Num := [.fin false 3 0, .fin true 3 0]; l ≠ [] ∧ l.map Claims.rat = [(3 : ℚ), -3].map some ∧ [(3 : ℚ), -3].sum = 0) ∧
    (let l : List Machine.Num := [.inf true, .fin false 1 0]; .nan ∉ l ∧ .inf true ∈ l ∧ .inf (!true) ∉ l) ∧
    (Claims.rat (.fin true 3 0) = some (((-3 : Int) : ℚ)) ∧ |((-3 : Int) : ℚ)| < 2 ^ 100) ∧
    (let a : Opnd := { fmt := 1, elems := [[some 0x4E80, some 0x3F80, none]] }; 0 < 16 ∧ 0 < a.elems.length) ∧
    (bitsN (BitVec.ofNat 512 (7 * 2 ^ 22)) 0 8 = 0 ∧ bitsN (BitVec.ofNat 512 (7 * 2 ^ 22)) 17 2 = 0 ∧
      bitsN (BitVec.ofNat 512 (7 * 2 ^ 22)) 22 4 = 7) := by
  obtain ⟨h1, -, h3⟩ := test_fp32_values
  refine ⟨⟨by decide, by decide, ?_⟩, ⟨?_, ?_, ?_⟩, ⟨by decide, ?_, ?_⟩, ⟨by decide, by decide, by decide⟩, ⟨?_, ?_⟩, by decide, by decide⟩
  · rw [h1, h3]; norm_num
  · exact ⟨by decide, by decide⟩
  · exact ⟨by decide, by decide⟩
  · exact ⟨by decide, by decide⟩
  · simp [Claims.rat]
  · norm_num
  · simp [Claims.rat]
  · norm_num

/-! ### Chain records, power, debug -/

/-- A chain record that steps the core of entry 3: a first one, with its box from entry 4, a last one, as the flags say. -/
def wrec (first last : Bool) : Nat :=
  3 + (if first then 2 ^ 16 + 4 * 2 ^ 32 + (1 + 2 ^ 16 + 2 ^ 32 + 2 ^ 48) * 2 ^ 64 else 0) + (if last then 2 ^ 17 else 0)

/-- M with that record at CORD. -/
def wstep (first last : Bool) : State := wm (natLe 16 (wrec first last)) id id

/-- Whether the operands of the record can be read. -/
def wstepReads (first last : Bool) : Bool :=
  let s := wstep first last
  let a : At := ⟨s.env.unit, .m, ((iter s).engine .m).pc, false⟩
  okBy (mRead s.env s.env.unit (Claims.turned s) ((iter s).csr.cord.toNat + 16 * (iter s).csr.cstep.toNat) 16) fun b d2 =>
    decide (wrec first last = leNat b) &&
      if first then okBy (readInit s.env a (tdesc 0 0 1 4 1 1 4 0) [0, 0, 0, 0] [1, 1, 1, 1] d2) fun _ d3 =>
          okBy (readCore s.env a (tdesc 0x3000 1 3 1 1 1 2 1) 1 1 1 1 d3) fun _ _ => true
      else okBy (readCore s.env a (tdesc 0x3000 1 3 1 1 1 2 1) 1 1 1 1 d2) fun _ _ => true

theorem wstep_reads (first last : Bool) : wstepReads first last = true := by
  cases first <;> cases last <;> decide +kernel

/-- ChainWords: records that can start as steps, first and not, last and not; M stands with the turn, before the end and at it. -/
theorem test_meets_StepRuns (first last : Bool) :
    ∃ st, Claims.StepRuns (wstep first last) (wrec first last) (tdesc 0x3000 1 3 1 1 1 2 1) st := by
  have h := wstep_reads first last
  unfold wstepReads at h
  dsimp only at h
  obtain ⟨b, d2, hb, h⟩ := of_okBy h
  rw [Bool.and_eq_true, decide_eq_true_eq] at h
  cases first with
  | false =>
    obtain ⟨c, d4, hc, -⟩ := of_okBy h.2
    refine ⟨{ mode := 0, nn := 1, m := 1, bond := 1, core := c, init := none, emit := if last then some 0 else none }, b, d2, d2, d4, ?_⟩
    refine ⟨by cases last <;> decide, hb, h.1, by cases last <;> decide, by cases last <;> decide, by decide, by decide, fun _ => ⟨by cases last <;> decide, rfl, rfl⟩,
      fun x => absurd x (by cases last <;> decide), by cases last <;> rfl, rfl, rfl, by cases last <;> rfl, by cases last <;> rfl,
      by cases last <;> decide, by dsimp only; cases last <;> decide, ?_, ?_, by cases last <;> exact hc⟩
    · cases last
      · exact fun _ => rfl
      · exact fun x => absurd x (by decide)
    · cases last
      · exact fun x => absurd x (by decide)
      · exact fun _ => ⟨by dsimp only; decide, by dsimp only; decide, by decide, 0, by decide, rfl⟩
  | true =>
    obtain ⟨e, d3, he, h3⟩ := of_okBy h.2
    obtain ⟨c, d4, hc, -⟩ := of_okBy h3
    refine ⟨{ mode := 0, nn := 1, m := 1, bond := 1, core := c, init := some ([1, 1, 1, 1], e), emit := if last then some 0 else none },
      b, d2, d3, d4, ?_⟩
    refine ⟨by cases last <;> decide, hb, h.1, by cases last <;> decide, by cases last <;> decide, by decide, by decide, fun x => absurd (by cases last <;> decide) x,
      fun _ => ⟨tdesc 0 0 1 4 1 1 4 0, e, by cases last <;> decide, by cases last <;> decide, by decide, by cases last <;> decide,
        by cases last <;> exact he, by cases last <;> rfl⟩,
      by cases last <;> rfl, rfl, rfl, by cases last <;> rfl, by cases last <;> rfl,
      by cases last <;> decide, by dsimp only; cases last <;> decide, ?_, ?_, by cases last <;> exact hc⟩
    · cases last
      · exact fun _ => rfl
      · exact fun x => absurd x (by decide)
    · cases last
      · exact fun x => absurd x (by decide)
      · exact fun _ => ⟨by dsimp only; decide, by dsimp only; decide, by decide, 0, by decide, rfl⟩

/-- CHAIN: before its end is noted, at its end, before its last record and further from it, with its budget checked or enough; a lease of less
than it asks. -/
theorem test_meets_ChainEnds :
    (let s := wm [] id id; (iter s).csr.chainE = none ∧ (64#18).toNat ≤ (iter s).lease.left ∧ (iter s).lease.left < (65#18).toNat ∧
      encode (.chain 65) ≠ none) ∧
    (∀ e ∈ [(0 : Dword), 1, 2], let s := wm [] (fun c => c.onCsr fun x => { x with chainE := some e }) id;
      (iter s).csr.chainE = some e ∧ e.toNat - (iter s).csr.cstep.toNat ≤ (iter s).lease.left) ∧
    (iter (wm [] (fun c => { c with chainOk := true }) id)).chainOk = true := by
  refine ⟨⟨rfl, by decide, by decide, by decide⟩, fun e he => ?_, rfl⟩
  simp only [List.mem_cons, List.not_mem_nil, or_false] at he
  rcases he with h | h | h <;> subst h <;> exact ⟨rfl, by decide⟩

/-- ManagementSteps: whatever the image in flash, bring-up ends with one BOOTSTAT and not with 0; a page of the measurement log that is
frozen, and one that is not. -/
theorem test_meets_mayEnd (f : Firmware) : mayEnd 0 f = false ∧ ∃ stat, mayEnd stat f = true := by
  have h (a b c : Prop) [Decidable a] [Decidable b] [Decidable c] :
      (if a then (2 : BitVec 8) else if b then 2 else if c then 3 else 1) ∈ [(1 : BitVec 8), 2, 3] := by
    split
    · simp
    · split
      · simp
      · split <;> simp
  have hv : verdict f ∈ [(1 : BitVec 8), 2, 3] := by unfold verdict; exact h _ _ _
  unfold mayEnd
  generalize verdict f = v at hv
  simp only [List.mem_cons, List.not_mem_nil, or_false] at hv
  rcases hv with h | h | h <;> subst h
  · exact ⟨by decide, 1, by decide⟩
  · exact ⟨by decide, 2, by decide⟩
  · exact ⟨by decide, 3, by decide⟩

theorem test_meets_frozen_log :
    frozenAt {} 0x10000 = false ∧ frozenAt { mig := { freezes := [⟨0, 0, 1, false⟩] } } 0x10000 = true := by decide

/-- LandingSteps: an element that waits behind another, matched before it, that writes a byte of it. -/
theorem test_meets_LandingWaits :
    let g : MapGen := { key := 1, hi := [4], lo := [0], stride := [2], fmt := 1, dbase := 64 }
    let e : LandEl := { ag := .none, slice := false, unit := 0, slot := 3, gen := g, off := 64, bytes := [1, 2] }
    let d : Dev := { later := [.land { e with off := 65 }] }
    ∃ x y, x ∈ d.later ∧ x.el = some y ∧ y.done = false ∧ y.meets e = true :=
  ⟨_, _, List.mem_singleton.mpr rfl, rfl, rfl, by decide⟩

theorem bpMask_none {y : Tile} (hv : ∀ k, vget y.dbg.bpctl 0 k = 0) (e : Eng) (pc : Dword) : bpMask y e pc = 0 := by
  have h : ∀ k, bpHits y e pc k = false := fun k => by unfold bpHits; simp only [hv]; simp
  unfold bpMask
  split
  · rfl
  · simp only [h, b2n]; decide

/-- StallAndRollback, DebugSteps: a tile that no STEP runs; a stopped one with no breakpoint; the end of a STEP with the engines idle. -/
theorem test_meets_DebugSteps_all :
    (unitTile (wst .v {} id)).dbg.step = none ∧
    (let s := wst .x {} fun d => onDbg d 0 fun _ => { stopped := true };
      (unitTile s).dbg.stopped = true ∧ ∀ e pc, bpMask (unitTile s) e pc = 0) ∧
    (let s := wst .x { eng := Vector.replicate 4 { halted := true } } fun d => onDbg d 0 fun _ => { step := some [.x] };
      (unitTile s).dbg.step ≠ none ∧ (∀ e, ready s.dev s.env.unit e = .no) ∧ (iter s).stalls = false) := by
  refine ⟨by decide, ⟨by decide, bpMask_none fun k => ?_⟩, by decide, fun e => by cases e <;> decide, by decide⟩
  show vget (Vector.replicate 4 (0 : Dword)) 0 k = 0
  unfold vget
  by_cases hk : k < 4 <;> simp [hk]

/-- SkippedWords: M at a FENCEX and at a JOIN of A. -/
theorem test_meets_SkippedWords_of_m :
    Stands (wst .m {} id) .m 0 false ∧ ∀ i ∈ [Instr.fencex 63 40, .fencex 63 0, .join 1 40, .join 31 0],
      ((encode i).bind tagOwner) = some .a := by
  refine ⟨⟨rfl, by decide⟩, by decide⟩

end Sys2Proof.Tests
end

namespace Sys2Proof.Machine

/-! ### Exact dyadic numbers -/

/-- The exponent of the smallest subnormal of a format. -/
def FFmt.emin (f : FFmt) : ℤ := 1 - f.bias - f.frac

/-- What the formats of R9 have in common: a fraction field below the sign bit, and a largest finite value that is normal. -/
structure FFmt.Ok (f : FFmt) : Prop where
  frac_pos : 0 < f.frac
  frac_dvd : 2 ^ f.frac ∣ f.sign
  max_lt : f.maxB < f.sign
  max_normal : 2 ^ f.frac ≤ f.maxB

theorem fp32_ok : fp32.Ok := ⟨by decide, by decide, by decide, by decide⟩
theorem bf16_ok : bf16.Ok := ⟨by decide, by decide, by decide, by decide⟩
theorem fp16_ok : fp16.Ok := ⟨by decide, by decide, by decide, by decide⟩
theorem e4m3_ok : e4m3.Ok := ⟨by decide, by decide, by decide, by decide⟩
theorem e5m2_ok : e5m2.Ok := ⟨by decide, by decide, by decide, by decide⟩

theorem two_zpow_pos (e : ℤ) : (0 : ℚ) < 2 ^ e := by positivity

theorem two_zpow_add (a b : ℤ) : (2 : ℚ) ^ (a + b) = 2 ^ a * 2 ^ b := zpow_add₀ two_ne_zero a b

/-- A scale of an exponent that is no smaller than another one, as a natural factor. -/
theorem two_zpow_toNat {a b : ℤ} (h : a ≤ b) : (2 : ℚ) ^ b = ((2 ^ (b - a).toNat : ℕ) : ℚ) * 2 ^ a := by
  have : b = ((b - a).toNat : ℤ) + a := by omega
  conv_lhs => rw [this, two_zpow_add, zpow_natCast]
  push_cast; rfl

theorem magGt_iff (m : ℕ) (e : ℤ) (n : ℕ) (f : ℤ) : magGt m e n f = true ↔ (n : ℚ) * 2 ^ f < m * 2 ^ e := by
  unfold magGt
  split
  · next h =>
    rw [two_zpow_toNat h, ← mul_assoc, mul_lt_mul_iff_left₀ (two_zpow_pos f), decide_eq_true_iff]
    exact_mod_cast Iff.rfl
  · next h =>
    rw [two_zpow_toNat (le_of_not_ge h), ← mul_assoc, mul_lt_mul_iff_left₀ (two_zpow_pos e), decide_eq_true_iff]
    exact_mod_cast Iff.rfl

/-- The sign of a number as a factor. -/
def sgn (neg : Bool) : ℚ := if neg then -1 else 1

@[simp] theorem sgn_true : sgn true = -1 := rfl
@[simp] theorem sgn_false : sgn false = 1 := rfl
theorem sgn_mul (a b : Bool) : sgn (a != b) = sgn a * sgn b := by cases a <;> cases b <;> simp
theorem sgn_not (a : Bool) : sgn (!a) = -sgn a := by cases a <;> simp

theorem abs_sgn_mul (neg : Bool) {x : ℚ} (h : 0 ≤ x) : |sgn neg * x| = x := by cases neg <;> simp [abs_of_nonneg h]

theorem sgn_mul_lt_zero (neg : Bool) {x : ℚ} (h : 0 < x) : sgn neg * x < 0 ↔ neg = true := by
  cases neg <;> simp [h, h.le]

theorem sgn_mul_pos (neg : Bool) {x : ℚ} (h : 0 < x) : 0 < sgn neg * x ↔ neg = false := by
  cases neg <;> simp [h, h.le]

theorem rat_fin (neg : Bool) (m : ℕ) (e : ℤ) : Claims.rat (.fin neg m e) = some (sgn neg * (m * 2 ^ e)) := by
  rw [Claims.rat, ← mul_assoc]; rfl

theorem signedAt_mul (neg : Bool) (m : ℕ) {e e0 : ℤ} (h : e0 ≤ e) : (signedAt neg m e e0 : ℚ) * 2 ^ e0 = sgn neg * (m * 2 ^ e) := by
  rw [two_zpow_toNat h]; cases neg <;> simp [signedAt] <;> ring

theorem nbits_bounds {m : ℕ} (h : m ≠ 0) : 1 ≤ nbits m ∧ 2 ^ (nbits m - 1) ≤ m ∧ m < 2 ^ nbits m := by
  simp only [nbits, if_neg h]
  exact ⟨by omega, Nat.log2_self_le h, Nat.lt_log2_self⟩

/-- The exponent at which a number has exactly the bits of a normal significand. -/
def freeExp (f : FFmt) (m : ℕ) (e : ℤ) : ℤ := e + nbits m - 1 - f.frac

theorem freeExp_bounds (f : FFmt) {m : ℕ} (h : m ≠ 0) (e : ℤ) :
    (2 : ℚ) ^ (f.frac + freeExp f m e) ≤ m * 2 ^ e ∧ (m : ℚ) * 2 ^ e < 2 ^ (f.frac + 1 + freeExp f m e) := by
  obtain ⟨h1, h2, h3⟩ := nbits_bounds h
  have e1 : (f.frac + freeExp f m e : ℤ) = ((nbits m - 1 : ℕ) : ℤ) + e := by unfold freeExp; omega
  have e2 : (f.frac + 1 + freeExp f m e : ℤ) = ((nbits m : ℕ) : ℤ) + e := by unfold freeExp; omega
  rw [e1, e2, two_zpow_add, two_zpow_add, zpow_natCast, zpow_natCast]
  constructor
  · exact mul_le_mul_of_nonneg_right (by exact_mod_cast h2) (two_zpow_pos e).le
  · exact mul_lt_mul_of_pos_right (by exact_mod_cast h3) (two_zpow_pos e)

/-! ### Rounding to an integer -/

/-- Whether a rounding of a number with a sign takes its magnitude down (R18). -/
def toward (r : Rnd) (neg : Bool) : Bool :=
  match r with
  | .rne => false
  | .rtz => true
  | .rdn => !neg
  | .rup => neg

/-- A natural number is the rounding of the magnitude x of a number with a sign (R18). -/
def RoundsTo (r : Rnd) (neg : Bool) (x : ℚ) (k : ℕ) : Prop :=
  if r = .rne then |x - k| ≤ 1 / 2 ∧ (|x - k| = 1 / 2 → k % 2 = 0)
  else if toward r neg then (k : ℤ) = ⌊x⌋ else (k : ℤ) = ⌈x⌉

/-- The rounding of the magnitude x is above T. -/
def Exceeds (r : Rnd) (neg : Bool) (x : ℚ) (T : ℕ) : Prop :=
  if r = .rne then T + 1 / 2 < x ∨ (x = T + 1 / 2 ∧ T % 2 = 1) else if toward r neg then (T : ℚ) + 1 ≤ x else (T : ℚ) < x

theorem RoundsTo.nearest {neg : Bool} {x : ℚ} {k : ℕ} (h : RoundsTo .rne neg x k) :
    |x - k| ≤ 1 / 2 ∧ (|x - k| = 1 / 2 → k % 2 = 0) := by simpa [RoundsTo] using h

theorem RoundsTo.lower {r : Rnd} {neg : Bool} {x : ℚ} {k : ℕ} (h : RoundsTo r neg x k) (ht : toward r neg = true) : (k : ℤ) = ⌊x⌋ := by
  cases r <;> simp_all [RoundsTo, toward]

theorem RoundsTo.upper {r : Rnd} {neg : Bool} {x : ℚ} {k : ℕ} (h : RoundsTo r neg x k) (hr : r ≠ .rne) (ht : toward r neg = false) :
    (k : ℤ) = ⌈x⌉ := by
  simpa [RoundsTo, hr, ht] using h

/-- A rounding is one of the two integers about the number. -/
theorem RoundsTo.floor_or_ceil {r : Rnd} {neg : Bool} {x : ℚ} {k : ℕ} (h : RoundsTo r neg x k) : (k : ℤ) = ⌊x⌋ ∨ (k : ℤ) = ⌈x⌉ := by
  by_cases hr : r = .rne
  · subst hr
    obtain ⟨h1, h2⟩ := h.nearest
    obtain ⟨a, b⟩ := abs_le.mp h1
    rcases le_or_gt (k : ℚ) x with hk | hk
    · left; symm; rw [Int.floor_eq_iff]; push_cast; constructor <;> linarith
    · right; symm; rw [Int.ceil_eq_iff]; push_cast; constructor <;> linarith
  · cases ht : toward r neg
    · exact .inr (h.upper hr ht)
    · exact .inl (h.lower ht)

/-- The rounding of an integer is that integer. -/
theorem RoundsTo.eq_of_natCast {r : Rnd} {neg : Bool} {n k : ℕ} (h : RoundsTo r neg n k) : k = n := by
  rcases h.floor_or_ceil with h | h
  · rw [Int.floor_natCast] at h; exact_mod_cast h
  · rw [Int.ceil_natCast] at h; exact_mod_cast h

theorem RoundsTo.natCast (r : Rnd) (neg : Bool) (n : ℕ) : RoundsTo r neg n n := by
  unfold RoundsTo; split
  · simp
  · split <;> simp

/-- A rounding does not pass an integer bound. -/
theorem RoundsTo.le {r : Rnd} {neg : Bool} {x : ℚ} {k n : ℕ} (h : RoundsTo r neg x k) (hx : x ≤ n) : k ≤ n := by
  have hc : ⌈x⌉ ≤ n := Int.ceil_le.mpr (by exact_mod_cast hx)
  have := Int.floor_le_ceil x
  rcases h.floor_or_ceil with h | h <;> omega

theorem RoundsTo.ge {r : Rnd} {neg : Bool} {x : ℚ} {k n : ℕ} (h : RoundsTo r neg x k) (hx : n ≤ x) : n ≤ k := by
  have hc : (n : ℤ) ≤ ⌊x⌋ := Int.le_floor.mpr (by exact_mod_cast hx)
  have := Int.floor_le_ceil x
  rcases h.floor_or_ceil with h | h <;> omega

theorem RoundsTo.lt_iff {r : Rnd} {neg : Bool} {x : ℚ} {k T : ℕ} (h : RoundsTo r neg x k) : T < k ↔ Exceeds r neg x T := by
  by_cases hr : r = .rne
  · subst hr
    obtain ⟨h1, h2⟩ := h.nearest
    obtain ⟨a, b⟩ := abs_le.mp h1
    simp only [Exceeds, if_true]
    constructor
    · intro hk
      have hk' : (T : ℚ) + 1 ≤ k := by exact_mod_cast hk
      rcases lt_or_eq_of_le (show (T : ℚ) + 1 / 2 ≤ x by linarith) with h3 | h3
      · exact .inl h3
      · right
        have h4 : (k : ℚ) = T + 1 := by linarith
        have h5 : |x - k| = 1 / 2 := by rw [h4, ← h3]; norm_num
        have h6 : k = T + 1 := by exact_mod_cast h4
        exact ⟨h3.symm, by have := h2 h5; omega⟩
    · rintro (h3 | ⟨h3, h4⟩)
      · have : (T : ℚ) < k := by linarith
        exact_mod_cast this
      · have h5 : (T : ℚ) ≤ k := by linarith
        have h6 : T ≤ k := by exact_mod_cast h5
        rcases Nat.lt_or_eq_of_le h6 with h7 | h7
        · exact h7
        · subst h7
          have := h2 (by rw [h3]; norm_num)
          omega
  · cases ht : toward r neg
    · rw [show Exceeds r neg x T ↔ (T : ℚ) < x by simp [Exceeds, hr, ht], ← Int.ofNat_lt, h.upper hr ht, Int.lt_ceil]
      simp
    · rw [show Exceeds r neg x T ↔ (T : ℚ) + 1 ≤ x by simp [Exceeds, hr, ht], ← Int.ofNat_lt, h.lower ht, ← Int.add_one_le_iff,
        Int.le_floor]
      simp

/-- A fraction that is no integer lies strictly between two. -/
theorem div_between {m D : ℕ} (hD : 0 < D) : (m : ℚ) / D = (m / D : ℕ) + (m % D : ℕ) / (D : ℚ) := by
  have : (D : ℚ) ≠ 0 := by positivity
  have h : (m : ℚ) = D * (m / D : ℕ) + (m % D : ℕ) := by exact_mod_cast (Nat.div_add_mod m D).symm
  rw [eq_comm, ← sub_eq_zero]
  field_simp
  linarith

theorem floor_div {m D : ℕ} : ⌊(m : ℚ) / D⌋ = (m / D : ℕ) := by
  exact_mod_cast Rat.floor_natCast_div_natCast m D

theorem ceil_div {m D : ℕ} (hD : 0 < D) (h : m % D ≠ 0) : ⌈(m : ℚ) / D⌉ = (m / D : ℕ) + 1 := by
  have hD' : (0 : ℚ) < D := by exact_mod_cast hD
  have h0 : (0 : ℚ) < (m % D : ℕ) / (D : ℚ) := div_pos (by exact_mod_cast Nat.pos_of_ne_zero h) hD'
  have h1 : ((m % D : ℕ) : ℚ) / D < 1 := (div_lt_one hD').mpr (by exact_mod_cast Nat.mod_lt m hD)
  rw [Int.ceil_eq_iff, div_between hD, Int.cast_add, Int.cast_natCast, Int.cast_one]
  constructor <;> linarith

/-- A multiple of the unit is kept. -/
theorem roundShift_exact (r : Rnd) (neg : Bool) {m sh : ℕ} (h : m % 2 ^ sh = 0) : roundShift r neg m sh = (m / 2 ^ sh, false) := by
  cases r <;> simp [roundShift, h]
  intro h0
  exact absurd h0.symm (by positivity)

/-- The nearest integer to a quotient that is none. -/
theorem roundShift_rne (neg : Bool) {m sh : ℕ} (h : m % 2 ^ sh ≠ 0) :
    RoundsTo .rne neg ((m : ℚ) / (2 ^ sh : ℕ)) (roundShift .rne neg m sh).1 := by
  have hD : 0 < 2 ^ sh := by positivity
  simp only [roundShift, RoundsTo, if_true]
  generalize 2 ^ sh = D at hD h
  have hD' : (0 : ℚ) < D := by exact_mod_cast hD
  have hx := div_between (m := m) hD
  have hl : ((m % D : ℕ) : ℚ) / D * D = (m % D : ℕ) := div_mul_cancel₀ _ hD'.ne'
  generalize ((m % D : ℕ) : ℚ) / D = t at hx hl
  have hgt : D < 2 * (m % D) ↔ 1 / 2 < t := by
    rw [← mul_lt_mul_iff_left₀ hD', hl, ← Nat.cast_lt (α := ℚ)]; push_cast; constructor <;> intro <;> linarith
  have heq : 2 * (m % D) = D ↔ t = 1 / 2 := by
    rw [← mul_left_inj' hD'.ne', hl, ← Nat.cast_inj (R := ℚ)]; push_cast; constructor <;> intro <;> linarith
  have h0 : 0 < t := by
    have : (0 : ℚ) < (m % D : ℕ) := by exact_mod_cast Nat.pos_of_ne_zero h
    exact pos_of_mul_pos_left (hl ▸ this) hD'.le
  have h1 : t < 1 := by
    have : ((m % D : ℕ) : ℚ) < D := by exact_mod_cast Nat.mod_lt m hD
    nlinarith
  rw [hx]
  generalize m / D = q
  split
  · next hup =>
    simp only [Bool.or_eq_true, Bool.and_eq_true, decide_eq_true_eq, beq_iff_eq, hgt, heq] at hup
    have hd : |(q : ℚ) + t - ((q + 1 : ℕ) : ℚ)| = 1 - t := by
      push_cast; rw [abs_of_nonpos (by linarith)]; ring
    rw [hd]
    refine ⟨by rcases hup with hup | hup <;> linarith, fun ht => ?_⟩
    rcases hup with hup | ⟨-, hup⟩
    · linarith
    · change (q + 1) % 2 = 0; omega
  · next hup =>
    simp only [Bool.or_eq_true, Bool.and_eq_true, decide_eq_true_eq, beq_iff_eq, hgt, heq, not_or, not_and] at hup
    have hd : |(q : ℚ) + t - (q : ℚ)| = t := by rw [abs_of_nonneg (by linarith)]; ring
    rw [hd]
    exact ⟨by linarith [hup.1], fun ht => by have := hup.2 ht; omega⟩

/-- The rounding of a quotient by a power of two. -/
theorem roundShift_spec (r : Rnd) (neg : Bool) (m sh : ℕ) :
    RoundsTo r neg ((m : ℚ) / (2 ^ sh : ℕ)) (roundShift r neg m sh).1 ∧
      ((roundShift r neg m sh).2 = false ↔ (((roundShift r neg m sh).1 : ℕ) : ℚ) = (m : ℚ) / (2 ^ sh : ℕ)) := by
  by_cases h : m % 2 ^ sh = 0
  · have hx : (m : ℚ) / (2 ^ sh : ℕ) = (m / 2 ^ sh : ℕ) := by rw [div_between (by positivity), h]; simp
    rw [roundShift_exact r neg h, hx]
    exact ⟨.natCast .., by simp⟩
  · have hne (k : ℕ) : (k : ℚ) ≠ (m : ℚ) / (2 ^ sh : ℕ) := by
      intro hk
      have := ceil_div (m := m) (show 0 < 2 ^ sh by positivity) h
      have h2 := floor_div (m := m) (D := 2 ^ sh)
      rw [← hk, Int.ceil_natCast] at this
      rw [← hk, Int.floor_natCast] at h2
      omega
    have hix : (roundShift r neg m sh).2 = true := by simp [roundShift, h]
    refine ⟨?_, by rw [hix]; exact iff_of_false (by simp) (hne _)⟩
    by_cases hr : r = .rne
    · subst hr; exact roundShift_rne neg h
    · have hk : (roundShift r neg m sh).1 = if toward r neg then m / 2 ^ sh else m / 2 ^ sh + 1 := by
        cases r <;> cases neg <;> simp_all [roundShift, toward]
      rw [RoundsTo, if_neg hr, hk, floor_div, ceil_div (by positivity) h]
      split <;> simp

/-- A rounding to multiples of 2^e0: a multiple of it, whether or not the number was one already. -/
theorem roundAt_spec (r : Rnd) (neg : Bool) (m : ℕ) (e e0 : ℤ) :
    ∃ k : ℕ, ((roundAt r neg m e e0).1 : ℚ) * 2 ^ (roundAt r neg m e e0).2.1 = k * 2 ^ e0 ∧
      RoundsTo r neg (m * 2 ^ e / 2 ^ e0) k ∧
      ((roundAt r neg m e e0).2.2 = false ↔ (k : ℚ) * 2 ^ e0 = m * 2 ^ e) ∧
      (e0 ≤ e → roundAt r neg m e e0 = (m, e, false) ∧ k = m * 2 ^ (e - e0).toNat) ∧
      (e < e0 → (roundAt r neg m e e0).1 = k ∧ (roundAt r neg m e e0).2.1 = e0) := by
  have hp := two_zpow_pos e0
  by_cases h : e0 ≤ e
  · have hr : roundAt r neg m e e0 = (m, e, false) := by simp [roundAt, h]
    have hk : ((m * 2 ^ (e - e0).toNat : ℕ) : ℚ) * 2 ^ e0 = m * 2 ^ e := by rw [two_zpow_toNat h]; push_cast; ring
    refine ⟨m * 2 ^ (e - e0).toNat, by rw [hr, hk], ?_, by rw [hr, hk]; simp, fun _ => ⟨hr, rfl⟩, fun h1 => absurd h (not_le.mpr h1)⟩
    rw [← hk, mul_div_cancel_right₀ _ hp.ne']
    exact .natCast ..
  · have h' : e ≤ e0 := (not_le.mp h).le
    have hr : roundAt r neg m e e0 = ((roundShift r neg m (e0 - e).toNat).1, e0, (roundShift r neg m (e0 - e).toNat).2) := by
      simp [roundAt, h]
    have hx : (m : ℚ) * 2 ^ e / 2 ^ e0 = (m : ℚ) / (2 ^ (e0 - e).toNat : ℕ) := by
      rw [two_zpow_toNat h', div_eq_div_iff (by positivity) (by positivity)]; ring
    obtain ⟨h1, h2⟩ := roundShift_spec r neg m (e0 - e).toNat
    refine ⟨(roundShift r neg m (e0 - e).toNat).1, by rw [hr], hx ▸ h1, ?_, fun h3 => absurd h3 h, fun _ => by rw [hr]; exact ⟨rfl, rfl⟩⟩
    rw [hr, h2, ← hx, eq_div_iff hp.ne']

end Sys2Proof.Machine

namespace Sys2Proof.Machine

/-! ### The magnitudes of a format -/

/-- The value of the magnitude with an encoding (R9). -/
def FFmt.mag (f : FFmt) (b : ℕ) : ℚ :=
  ((if b / 2 ^ f.frac = 0 then b % 2 ^ f.frac * 2 else (2 ^ f.frac + b % 2 ^ f.frac) * 2 ^ (b / 2 ^ f.frac) : ℕ) : ℚ) /
    2 ^ (f.bias + f.frac)

theorem two_mul_emin (f : FFmt) : (2 : ℚ) / 2 ^ (f.bias + f.frac) = 2 ^ f.emin := by
  have : f.emin = 1 - ((f.bias + f.frac : ℕ) : ℤ) := by unfold FFmt.emin; push_cast; ring
  rw [this, zpow_sub₀ two_ne_zero, zpow_one, zpow_natCast]

/-- The magnitudes are the multiples of the units of their binades. -/
theorem FFmt.mag_grid (f : FFmt) {j k : ℕ} (hk : k ≤ 2 ^ (f.frac + 1)) (hj : 2 ^ f.frac ≤ k ∨ j = 0) :
    f.mag (j * 2 ^ f.frac + k) = k * 2 ^ (f.emin + j) := by
  have hp : 0 < 2 ^ f.frac := by positivity
  have hu (n i : ℕ) : ((n * 2 ^ (i + 1) : ℕ) : ℚ) / 2 ^ (f.bias + f.frac) = n * 2 ^ (f.emin + i) := by
    rw [two_zpow_add, ← two_mul_emin, zpow_natCast]; push_cast; ring
  rw [pow_succ] at hk
  unfold FFmt.mag
  rcases Nat.lt_or_ge k (2 ^ f.frac) with h | h
  · have hj0 : j = 0 := by omega
    subst hj0
    rw [zero_mul, zero_add, Nat.div_eq_of_lt h, if_pos rfl, Nat.mod_eq_of_lt h]
    simpa using hu k 0
  · rcases Nat.lt_or_eq_of_le hk with h2 | h2
    · have hd : (j * 2 ^ f.frac + k) / 2 ^ f.frac = j + 1 := by
        rw [Nat.div_eq_iff hp]; constructor
        · rw [add_mul]; omega
        · rw [add_mul]; omega
      have hm : (j * 2 ^ f.frac + k) % 2 ^ f.frac = k - 2 ^ f.frac := by
        rw [show j * 2 ^ f.frac + k = k - 2 ^ f.frac + 2 ^ f.frac * (j + 1) by rw [mul_add, mul_comm (2 ^ f.frac) j]; omega,
          Nat.add_mul_mod_self_left, Nat.mod_eq_of_lt (by omega)]
      rw [hd, hm, if_neg (by omega), show 2 ^ f.frac + (k - 2 ^ f.frac) = k by omega]
      exact hu k j
    · have hb : j * 2 ^ f.frac + k = (j + 2) * 2 ^ f.frac := by rw [h2]; ring
      rw [hb, Nat.mul_div_cancel _ hp, Nat.mul_mod_left, if_neg (by omega), Nat.add_zero, ← hu k j, h2]
      congr 2; ring

/-- Every encoding is a multiple of the unit of its binade. -/
theorem FFmt.split_enc (f : FFmt) (b : ℕ) :
    ∃ j k, b = j * 2 ^ f.frac + k ∧ k < 2 ^ (f.frac + 1) ∧ (2 ^ f.frac ≤ k ∨ j = 0) := by
  have hp : 0 < 2 ^ f.frac := by positivity
  have h := Nat.div_add_mod b (2 ^ f.frac)
  have hl := Nat.mod_lt b hp
  rcases Nat.eq_zero_or_pos (b / 2 ^ f.frac) with h0 | h0
  · exact ⟨0, b, by simp, by rw [pow_succ]; rw [h0] at h; omega, .inr rfl⟩
  · refine ⟨b / 2 ^ f.frac - 1, 2 ^ f.frac + b % 2 ^ f.frac, ?_, by rw [pow_succ]; omega, .inl (by omega)⟩
    conv_lhs => rw [← h]
    obtain ⟨i, hi⟩ : ∃ i, b / 2 ^ f.frac = i + 1 := ⟨_, (Nat.succ_pred_eq_of_pos h0).symm⟩
    rw [hi, Nat.add_sub_cancel]; ring

theorem FFmt.mag_strictMono (f : FFmt) : StrictMono f.mag := by
  refine strictMono_nat_of_lt_succ fun b => ?_
  obtain ⟨j, k, rfl, hk, hj⟩ := f.split_enc b
  rw [f.mag_grid hk.le hj, add_assoc, f.mag_grid (k := k + 1) (by omega) (by omega), mul_lt_mul_iff_left₀ (two_zpow_pos _)]
  push_cast; linarith

@[simp] theorem FFmt.mag_zero (f : FFmt) : f.mag 0 = 0 := by simp [FFmt.mag]

theorem FFmt.mag_nonneg (f : FFmt) (b : ℕ) : 0 ≤ f.mag b := f.mag_zero ▸ f.mag_strictMono.monotone (Nat.zero_le b)

theorem FFmt.mag_eq_zero (f : FFmt) {b : ℕ} : f.mag b = 0 ↔ b = 0 := by
  rw [← f.mag_zero, f.mag_strictMono.injective.eq_iff]

/-- A magnitude is a multiple of a unit, or no larger than the least normal magnitude of that unit. -/
theorem FFmt.mag_multiple_or_le (f : FFmt) (b j : ℕ) :
    (∃ n : ℕ, f.mag b = n * 2 ^ (f.emin + j)) ∨ (j ≠ 0 ∧ f.mag b ≤ 2 ^ f.frac * 2 ^ (f.emin + j)) := by
  obtain ⟨i, k, rfl, hk, hi⟩ := f.split_enc b
  rcases Nat.lt_or_ge i j with h | h
  · right
    refine ⟨by omega, ?_⟩
    have := f.mag_grid (j := j) (k := 2 ^ f.frac) (by rw [pow_succ]; omega) (.inl le_rfl)
    push_cast at this
    rw [← this]
    apply f.mag_strictMono.monotone
    obtain ⟨d, rfl⟩ := Nat.exists_eq_add_of_lt h
    rw [pow_succ] at hk
    nlinarith [Nat.zero_le (d * 2 ^ f.frac)]
  · left
    obtain ⟨d, rfl⟩ := Nat.exists_eq_add_of_le h
    refine ⟨k * 2 ^ d, ?_⟩
    rw [f.mag_grid hk.le hi]
    push_cast
    rw [← add_assoc, two_zpow_add _ (d : ℤ), zpow_natCast]; ring

/-- No magnitude lies strictly between a number and the multiples of its unit about it. -/
theorem FFmt.mag_gap (f : FFmt) (b j : ℕ) {x : ℚ} (hx : 2 ^ f.frac ≤ x ∨ j = 0) :
    f.mag b / 2 ^ (f.emin + j) ≤ ⌊x⌋ ∨ (⌈x⌉ : ℚ) ≤ f.mag b / 2 ^ (f.emin + j) := by
  have hp := two_zpow_pos (f.emin + j)
  rcases f.mag_multiple_or_le b j with ⟨n, hn⟩ | ⟨hj, hb⟩
  · rw [hn, mul_div_cancel_right₀ _ hp.ne']
    rcases le_or_gt (n : ℚ) x with h | h
    · left
      have : (n : ℤ) ≤ ⌊x⌋ := Int.le_floor.mpr (by exact_mod_cast h)
      exact_mod_cast this
    · right
      have : ⌈x⌉ ≤ (n : ℤ) := Int.ceil_le.mpr (by exact_mod_cast h.le)
      exact_mod_cast this
  · left
    rw [div_le_iff₀ hp]
    refine hb.trans (mul_le_mul_of_nonneg_right ?_ hp.le)
    have : ((2 ^ f.frac : ℕ) : ℤ) ≤ ⌊x⌋ := Int.le_floor.mpr (by push_cast; exact hx.resolve_right hj)
    exact_mod_cast this

end Sys2Proof.Machine

namespace Sys2Proof.Machine

/-! ### Decoding -/

theorem value_eq (f : FFmt) (hf : f.Ok) (x : ℕ) : Claims.value f x = sgn (decide (x / f.sign % 2 = 1)) * f.mag (x % f.sign) := by
  have h : x % 2 ^ f.frac = x % f.sign % 2 ^ f.frac := (Nat.mod_mod_of_dvd x hf.frac_dvd).symm
  simp only [Claims.value, FFmt.mag, sgn, h, decide_eq_true_eq, mul_div_assoc]

/-- The number of a finite encoding: its sign and its magnitude. -/
theorem FFmt.dec_finite (f : FFmt) {x : ℕ} (h : x % f.sign ≤ f.maxB) :
    ∃ m e, f.dec x = .fin (decide (x / f.sign % 2 = 1)) m e ∧ (m : ℚ) * 2 ^ e = f.mag (x % f.sign) := by
  unfold FFmt.dec
  simp only [not_lt.mpr h, if_false]
  generalize x % f.sign = b
  have hb := Nat.div_add_mod b (2 ^ f.frac)
  have hp : 0 < 2 ^ f.frac := by positivity
  have hl := Nat.mod_lt b hp
  split
  · next h0 =>
    refine ⟨_, _, rfl, ?_⟩
    have := f.mag_grid (j := 0) (k := b) (by rw [pow_succ]; rw [h0] at hb; omega) (.inr rfl)
    rw [zero_mul, zero_add, Nat.cast_zero, add_zero] at this
    rw [this, show b % 2 ^ f.frac = b by rw [h0] at hb; omega]; rfl
  · next h0 =>
    refine ⟨_, _, rfl, ?_⟩
    have := f.mag_grid (j := b / 2 ^ f.frac - 1) (k := 2 ^ f.frac + b % 2 ^ f.frac) (by rw [pow_succ]; omega) (.inl (by omega))
    obtain ⟨i, hi⟩ : ∃ i, b / 2 ^ f.frac = i + 1 := ⟨_, (Nat.succ_pred_eq_of_pos (Nat.pos_of_ne_zero h0)).symm⟩
    rw [hi, Nat.add_sub_cancel] at this
    have hs : 2 ^ f.frac * (i + 1) = i * 2 ^ f.frac + 2 ^ f.frac := by ring
    rw [show i * 2 ^ f.frac + (2 ^ f.frac + b % 2 ^ f.frac) = b by rw [hi, hs] at hb; omega] at this
    rw [this, hi]; unfold FFmt.emin; push_cast; congr 2; ring

/-- The encodings a format delivers, with either sign. -/
theorem FFmt.withSign_mod (f : FFmt) (neg : Bool) {b : ℕ} (h : b < f.sign) : f.withSign neg b % f.sign = b := by
  cases neg <;> simp [FFmt.withSign, Nat.mod_eq_of_lt h]

theorem FFmt.withSign_div (f : FFmt) (neg : Bool) {b : ℕ} (h : b < f.sign) :
    decide (f.withSign neg b / f.sign % 2 = 1) = neg := by
  have : f.sign ≠ 0 := by omega
  cases neg
  · simp [FFmt.withSign, Nat.div_eq_of_lt h]
  · rw [FFmt.withSign, if_pos rfl, Nat.add_div_left _ (by omega), Nat.div_eq_of_lt h]; rfl

theorem FFmt.withSign_lt (f : FFmt) (neg : Bool) {b : ℕ} (h : b < f.sign) : f.withSign neg b < 2 * f.sign := by
  rw [FFmt.withSign]
  split <;> omega

theorem FFmt.Ok.sign_even {f : FFmt} (hf : f.Ok) : f.sign % 2 = 0 := by
  have : 2 ∣ f.sign := (dvd_pow_self 2 hf.frac_pos.ne').trans hf.frac_dvd
  omega

theorem FFmt.withSign_even {f : FFmt} (hf : f.Ok) (neg : Bool) (b : ℕ) : f.withSign neg b % 2 = b % 2 := by
  have := hf.sign_even
  rw [FFmt.withSign]
  split <;> omega

theorem FFmt.finite_withSign {f : FFmt} (hf : f.Ok) (neg : Bool) {b : ℕ} (h : b ≤ f.maxB) : Claims.finite f (f.withSign neg b) := by
  have := hf.max_lt
  exact ⟨f.withSign_lt neg (by omega), by rw [f.withSign_mod neg (by omega)]; exact h⟩

theorem FFmt.value_withSign {f : FFmt} (hf : f.Ok) (neg : Bool) {b : ℕ} (h : b < f.sign) :
    Claims.value f (f.withSign neg b) = sgn neg * f.mag b := by
  rw [value_eq f hf, f.withSign_mod neg h, f.withSign_div neg h]

theorem FFmt.split_sign (f : FFmt) {x : ℕ} (h : x < 2 * f.sign) : x = f.withSign (decide (x / f.sign % 2 = 1)) (x % f.sign) := by
  have h2 := Nat.div_add_mod x f.sign
  have h3 : x / f.sign < 2 := (Nat.div_lt_iff_lt_mul (by omega)).mpr h
  generalize x / f.sign = d at h2 h3
  have h4 : d = 0 ∨ d = 1 := by omega
  rcases h4 with rfl | rfl
  · simpa [FFmt.withSign] using h2.symm
  · simpa [FFmt.withSign] using h2.symm

/-! ### Encoding a rounded magnitude -/

/-- The unit to which a format rounds a number. -/
def FFmt.unitExp (f : FFmt) (m : ℕ) (e : ℤ) : ℤ := max (freeExp f m e) f.emin

theorem FFmt.unitExp_split (f : FFmt) (m : ℕ) (e : ℤ) : f.emin + ((f.unitExp m e - f.emin).toNat : ℕ) = f.unitExp m e := by
  have : f.emin ≤ f.unitExp m e := le_max_right ..
  omega

theorem nbits_zero : nbits 0 = 0 := rfl

theorem nbits_eq {k n : ℕ} (h1 : 2 ^ n ≤ k) (h2 : k < 2 ^ (n + 1)) : nbits k = n + 1 := by
  have h0 : k ≠ 0 := by have : 0 < 2 ^ n := by positivity
                        omega
  rw [nbits, if_neg h0, (Nat.log2_eq_iff h0).mpr ⟨h1, h2⟩]

theorem nbits_le {k n : ℕ} (h : k < 2 ^ n) : nbits k ≤ n := by
  by_cases h0 : k = 0
  · simp [h0, nbits_zero]
  · obtain ⟨h1, h2, -⟩ := nbits_bounds h0
    have := (Nat.pow_lt_pow_iff_right (a := 2) (by omega)).mp (h2.trans_lt h)
    omega

theorem FFmt.encMag_eq (f : FFmt) (m : ℕ) (e : ℤ) : f.encMag m e =
    (f.unitExp m e - f.emin).toNat * 2 ^ f.frac +
      if f.unitExp m e ≤ e then m * 2 ^ (e - f.unitExp m e).toNat else m / 2 ^ (f.unitExp m e - e).toNat := rfl

/-- The encoding of a multiple of a unit (R9). -/
theorem FFmt.encMag_unit (f : FFmt) {k j : ℕ} (hk : k ≤ 2 ^ (f.frac + 1)) (hj : 2 ^ f.frac ≤ k ∨ j = 0) :
    f.encMag k (f.emin + j) = j * 2 ^ f.frac + k := by
  have hp : 0 < 2 ^ f.frac := by positivity
  rw [f.encMag_eq]
  rcases Nat.lt_or_eq_of_le hk with h | h
  · have hu : f.unitExp k (f.emin + j) = f.emin + j := by
      unfold FFmt.unitExp freeExp
      rcases hj with h1 | h1
      · rw [nbits_eq h1 h]; push_cast; omega
      · have := nbits_le h; subst h1; push_cast; omega
    rw [hu]; simp
  · have hu : f.unitExp k (f.emin + j) = f.emin + (j + 1 : ℕ) := by
      unfold FFmt.unitExp freeExp
      rw [nbits_eq h.ge (by rw [h]; exact Nat.pow_lt_pow_right (by omega) (by omega))]; push_cast; omega
    rw [hu, if_neg (by push_cast; omega), show (f.emin + (j + 1 : ℕ) - f.emin).toNat = j + 1 by omega,
      show (f.emin + (j + 1 : ℕ) - (f.emin + j)).toNat = 1 by push_cast; omega, h, pow_succ, pow_one, Nat.mul_div_cancel _ (by omega)]
    ring

end Sys2Proof.Machine

namespace Sys2Proof.Machine

/-! ### Where a rounded magnitude lies -/

theorem toward_iff (r : Rnd) (neg : Bool) {x : ℚ} (hx : 0 < x) : Claims.Toward r (sgn neg * x) ↔ toward r neg = true := by
  cases r <;> simp [Claims.Toward, toward, sgn_mul_pos neg hx, sgn_mul_lt_zero neg hx]

theorem Exceeds.le {r : Rnd} {neg : Bool} {x : ℚ} {T : ℕ} (h : Exceeds r neg x T) : (T : ℚ) < x := by
  unfold Exceeds at h
  split at h
  · rcases h with h | ⟨h, -⟩ <;> linarith
  · split at h <;> linarith

theorem Exceeds.of_ge {r : Rnd} {neg : Bool} {x : ℚ} {T : ℕ} (h : (T : ℚ) + 1 ≤ x) : Exceeds r neg x T := by
  unfold Exceeds
  split
  · left; linarith
  · split <;> linarith

/-- Whether a number, rounded on the grid of its own binade, exceeds a number of another binade. -/
theorem exceeds_grid {r : Rnd} {neg : Bool} {x : ℚ} {k T n : ℕ} {g t : ℤ} (hk : RoundsTo r neg x k) (hx : x < 2 ^ (n + 1))
    (hn : 2 ^ n ≤ x ∨ g ≤ t) (hT : 2 ^ n ≤ T) (hT2 : T < 2 ^ (n + 1)) :
    ((T : ℚ) * 2 ^ t < k * 2 ^ g ↔ Exceeds r neg (x * 2 ^ g / 2 ^ t) T) ∧
      (((T : ℚ) + 1) * 2 ^ t ≤ k * 2 ^ g ↔ Exceeds r neg (x * 2 ^ g / 2 ^ t) T) := by
  have hg := two_zpow_pos g
  have ht := two_zpow_pos t
  have hT' : ((2 ^ n : ℕ) : ℚ) ≤ T := by exact_mod_cast hT
  have hT2' : (T : ℚ) + 1 ≤ (2 ^ (n + 1) : ℕ) := by exact_mod_cast hT2
  rcases lt_trichotomy g t with h | h | h
  · have hs : (2 : ℚ) * 2 ^ g ≤ 2 ^ t := by
      rw [← zpow_one_add₀ two_ne_zero]; exact zpow_le_zpow_right₀ one_le_two (by omega)
    have hk2 : (k : ℚ) ≤ (2 ^ (n + 1) : ℕ) := by exact_mod_cast hk.le (n := 2 ^ (n + 1)) (by exact_mod_cast hx.le)
    have h1 : (k : ℚ) * 2 ^ g ≤ T * 2 ^ t := by
      rw [pow_succ, Nat.cast_mul, Nat.cast_two] at hk2; nlinarith
    have h2 : ¬ Exceeds r neg (x * 2 ^ g / 2 ^ t) T := by
      intro he
      have := (lt_div_iff₀ ht).mp he.le
      rw [pow_succ] at hx; push_cast at hT'; nlinarith
    exact ⟨iff_of_false (not_lt.mpr h1) h2, iff_of_false (by nlinarith) h2⟩
  · subst h
    rw [mul_div_cancel_right₀ _ hg.ne', mul_lt_mul_iff_left₀ hg, mul_le_mul_iff_left₀ hg, ← hk.lt_iff]
    exact ⟨by exact_mod_cast Iff.rfl, by exact_mod_cast Iff.rfl⟩
  · have hs : (2 : ℚ) * 2 ^ t ≤ 2 ^ g := by
      rw [← zpow_one_add₀ two_ne_zero]; exact zpow_le_zpow_right₀ one_le_two (by omega)
    have hx2 : (2 : ℚ) ^ n ≤ x := hn.resolve_right (not_le.mpr h)
    have hk2 : ((2 ^ n : ℕ) : ℚ) ≤ k := by exact_mod_cast hk.ge (n := 2 ^ n) (by exact_mod_cast hx2)
    rw [pow_succ, Nat.cast_mul, Nat.cast_two] at hT2'
    have h1 : ((T : ℚ) + 1) * 2 ^ t ≤ k * 2 ^ g := by nlinarith
    have h2 : Exceeds r neg (x * 2 ^ g / 2 ^ t) T := .of_ge (by
      rw [le_div_iff₀ ht]; push_cast at hT2'; nlinarith)
    exact ⟨iff_of_true (by nlinarith) h2, iff_of_true h1 h2⟩

/-- The significand of the largest finite magnitude of a format. -/
def FFmt.topSig (f : FFmt) : ℕ := f.maxB % 2 ^ f.frac + 2 ^ f.frac

/-- The exponent of the largest finite magnitude of a format. -/
def FFmt.topExp (f : FFmt) : ℤ := (f.maxB / 2 ^ f.frac : ℕ) - f.bias - f.frac

/-- The unit below the least normal magnitude of a format. -/
def FFmt.tinyExp (f : FFmt) : ℤ := -f.bias - f.frac

theorem FFmt.topSig_bounds (f : FFmt) : 2 ^ f.frac ≤ f.topSig ∧ f.topSig < 2 ^ (f.frac + 1) := by
  have := Nat.mod_lt f.maxB (show 0 < 2 ^ f.frac by positivity)
  rw [FFmt.topSig, pow_succ]; omega

theorem FFmt.Ok.topSig_odd {f : FFmt} (hf : f.Ok) : f.topSig % 2 = f.maxB % 2 := by
  have h : 2 ∣ 2 ^ f.frac := dvd_pow_self 2 hf.frac_pos.ne'
  rw [FFmt.topSig, Nat.add_mod, Nat.mod_mod_of_dvd _ h, Nat.mod_eq_zero_of_dvd h]; simp

theorem FFmt.top_unit (f : FFmt) : (2 : ℚ) ^ (f.maxB / 2 ^ f.frac) / 2 ^ (f.bias + f.frac) = 2 ^ f.topExp := by
  have : f.topExp = ((f.maxB / 2 ^ f.frac : ℕ) : ℤ) - ((f.bias + f.frac : ℕ) : ℤ) := by unfold FFmt.topExp; push_cast; ring
  rw [this, zpow_sub₀ two_ne_zero, zpow_natCast, zpow_natCast]

theorem FFmt.mag_max {f : FFmt} (hf : f.Ok) : f.mag f.maxB = f.topSig * 2 ^ f.topExp := by
  have h : f.maxB / 2 ^ f.frac ≠ 0 := (Nat.div_pos hf.max_normal (by positivity)).ne'
  rw [FFmt.mag, if_neg h, ← f.top_unit, FFmt.topSig]; push_cast; ring

theorem FFmt.value_max {f : FFmt} (hf : f.Ok) : Claims.value f f.maxB = f.topSig * 2 ^ f.topExp := by
  have := FFmt.value_withSign hf false hf.max_lt
  rw [← FFmt.mag_max hf]; simpa [FFmt.withSign] using this

theorem outOfRange_iff {f : FFmt} (hf : f.Ok) (r : Rnd) (neg : Bool) {Q : ℚ} (hQ : 0 < Q) :
    Claims.OutOfRange f r (sgn neg * Q) ↔ Exceeds r neg (Q / 2 ^ f.topExp) f.topSig := by
  have hu := two_zpow_pos f.topExp
  have hq : Q = Q / 2 ^ f.topExp * 2 ^ f.topExp := (div_mul_cancel₀ _ hu.ne').symm
  simp only [Claims.OutOfRange, abs_sgn_mul neg hQ.le, toward_iff r neg hQ, FFmt.value_max hf, f.top_unit, Exceeds, hf.topSig_odd]
  generalize Q / 2 ^ f.topExp = y at hq
  subst hq
  generalize (2 : ℚ) ^ f.topExp = u at hu
  have e1 : f.topSig * u + u / 2 = (f.topSig + 1 / 2) * u := by ring
  have e2 : f.topSig * u + u = (f.topSig + 1) * u := by ring
  rw [e1, e2, mul_lt_mul_iff_left₀ hu, mul_left_inj' hu.ne', mul_le_mul_iff_left₀ hu, mul_lt_mul_iff_left₀ hu]
  cases r <;> simp [toward] <;> cases neg <;> simp

theorem tiny_iff {f : FFmt} (r : Rnd) (neg : Bool) {Q : ℚ} (hQ : 0 < Q) :
    Claims.Tiny f r (sgn neg * Q) ↔ ¬ Exceeds r neg (Q / 2 ^ f.tinyExp) (2 ^ (f.frac + 1) - 1) := by
  have hu := two_zpow_pos f.tinyExp
  have hq : Q = Q / 2 ^ f.tinyExp * 2 ^ f.tinyExp := (div_mul_cancel₀ _ hu.ne').symm
  have h1 : (1 : ℚ) / 2 ^ (f.bias + f.frac) = 2 ^ f.tinyExp := by
    have : f.tinyExp = -((f.bias + f.frac : ℕ) : ℤ) := by unfold FFmt.tinyExp; push_cast; ring
    rw [this, zpow_neg, zpow_natCast, one_div]
  have h2 : (2 : ℚ) / 2 ^ f.bias = 2 ^ (f.frac + 1) * 2 ^ f.tinyExp := by
    rw [← h1, pow_add 2 f.bias]; field_simp; ring
  have h3 : ((2 ^ (f.frac + 1) - 1 : ℕ) : ℚ) = 2 ^ (f.frac + 1) - 1 := by
    rw [Nat.cast_sub Nat.one_le_two_pow]; push_cast; rfl
  have h4 : (2 ^ (f.frac + 1) - 1) % 2 = 1 := by
    have : 2 ^ (f.frac + 1) = 2 * 2 ^ f.frac := by ring
    have : 0 < 2 ^ f.frac := by positivity
    omega
  simp only [Claims.Tiny, abs_sgn_mul neg hQ.le, toward_iff r neg hQ, h1, h2, Exceeds, h3, h4, and_true]
  generalize Q / 2 ^ f.tinyExp = y at hq
  subst hq
  generalize (2 : ℚ) ^ f.tinyExp = u at hu
  generalize (2 : ℚ) ^ (f.frac + 1) = P
  have e1 : P * u - u / 2 = (P - 1 / 2) * u := by ring
  have e2 : P * u - u = (P - 1) * u := by ring
  rw [e1, e2, mul_lt_mul_iff_left₀ hu, mul_lt_mul_iff_left₀ hu, mul_le_mul_iff_left₀ hu]
  by_cases hr : r = .rne
  · subst hr
    simp only [toward, true_and, Bool.false_eq_true, false_and, ne_eq, not_true_eq_false, or_false, if_true, not_or, not_lt]
    constructor
    · intro h; exact ⟨by linarith, by linarith⟩
    · rintro ⟨h, h'⟩; exact lt_of_le_of_ne (by linarith) (fun h0 => h' (by linarith))
  · cases ht : toward r neg <;> simp [hr]

end Sys2Proof.Machine

namespace Sys2Proof.Machine

/-! ### Rounding to a format -/

/-- A finite number in the unit to which a format rounds it. -/
def FFmt.scaled (f : FFmt) (m : ℕ) (e : ℤ) : ℚ := (m : ℚ) * 2 ^ e / 2 ^ f.unitExp m e

theorem FFmt.scaled_mul (f : FFmt) (m : ℕ) (e : ℤ) : f.scaled m e * 2 ^ f.unitExp m e = m * 2 ^ e :=
  div_mul_cancel₀ _ (two_zpow_pos _).ne'

theorem FFmt.scaled_pos (f : FFmt) {m : ℕ} (h : m ≠ 0) (e : ℤ) : 0 < f.scaled m e := by unfold FFmt.scaled; positivity

theorem FFmt.scaled_lt (f : FFmt) {m : ℕ} (h : m ≠ 0) (e : ℤ) : f.scaled m e < 2 ^ (f.frac + 1) := by
  rw [FFmt.scaled, div_lt_iff₀ (two_zpow_pos _), ← zpow_natCast, ← two_zpow_add]
  refine (freeExp_bounds f h e).2.trans_le (zpow_le_zpow_right₀ one_le_two ?_)
  have : freeExp f m e ≤ f.unitExp m e := le_max_left ..
  push_cast; omega

theorem FFmt.scaled_ge (f : FFmt) {m : ℕ} (h : m ≠ 0) (e : ℤ) : 2 ^ f.frac ≤ f.scaled m e ∨ f.unitExp m e = f.emin := by
  rcases max_choice (freeExp f m e) f.emin with h1 | h1
  · left
    rw [FFmt.scaled, le_div_iff₀ (two_zpow_pos _), ← zpow_natCast, ← two_zpow_add, FFmt.unitExp, h1]
    exact (freeExp_bounds f h e).1
  · exact .inr h1

/-- The encoding of the multiple of the unit that a number is rounded to. -/
theorem FFmt.encMag_roundAt (f : FFmt) {r : Rnd} {neg : Bool} {m k : ℕ} {e : ℤ} (h : m ≠ 0) (hk : RoundsTo r neg (f.scaled m e) k)
    (h1 : f.unitExp m e ≤ e → roundAt r neg m e (f.unitExp m e) = (m, e, false) ∧ k = m * 2 ^ (e - f.unitExp m e).toNat)
    (h2 : e < f.unitExp m e →
      (roundAt r neg m e (f.unitExp m e)).1 = k ∧ (roundAt r neg m e (f.unitExp m e)).2.1 = f.unitExp m e) :
    f.encMag (roundAt r neg m e (f.unitExp m e)).1 (roundAt r neg m e (f.unitExp m e)).2.1 =
      (f.unitExp m e - f.emin).toNat * 2 ^ f.frac + k := by
  rcases le_or_gt (f.unitExp m e) e with hu | hu
  · obtain ⟨hr, hk⟩ := h1 hu
    rw [hr, f.encMag_eq, if_pos hu, ← hk]
  · obtain ⟨hq, he⟩ := h2 hu
    have hs := f.unitExp_split m e
    rw [hq, he]
    conv_lhs => rw [← hs]
    refine f.encMag_unit (hk.le (by exact_mod_cast (f.scaled_lt h e).le)) ?_
    rcases f.scaled_ge h e with h3 | h3
    · exact .inl (hk.ge (by exact_mod_cast h3))
    · exact .inr (by omega)

theorem FFmt.mag_scaled (f : FFmt) {r : Rnd} {neg : Bool} {m k : ℕ} {e : ℤ} (h : m ≠ 0) (hk : RoundsTo r neg (f.scaled m e) k) :
    f.mag ((f.unitExp m e - f.emin).toNat * 2 ^ f.frac + k) = k * 2 ^ f.unitExp m e := by
  rw [f.mag_grid, f.unitExp_split]
  · exact hk.le (by exact_mod_cast (f.scaled_lt h e).le)
  · rcases f.scaled_ge h e with h3 | h3
    · exact .inl (hk.ge (by exact_mod_cast h3))
    · exact .inr (by omega)

theorem FFmt.round_def (f : FFmt) (r : Rnd) (sat neg : Bool) {m : ℕ} (h : m ≠ 0) (e : ℤ) :
    f.round r sat neg m e =
      if magGt (roundAt r neg m e (f.unitExp m e)).1 (roundAt r neg m e (f.unitExp m e)).2.1 f.topSig f.topExp then f.over r sat neg
      else (f.withSign neg (f.encMag (roundAt r neg m e (f.unitExp m e)).1 (roundAt r neg m e (f.unitExp m e)).2.1),
        rangeFlags (roundAt r neg m e (f.unitExp m e)).2.2
          (magGt 1 (1 - f.bias) (roundAt r neg m e (freeExp f m e)).1 (roundAt r neg m e (freeExp f m e)).2.1)) := by
  rw [FFmt.round, if_neg h]; rfl

/-- What `magGt` tests before a result: whether the number is out of range (R18). -/
theorem FFmt.overflow_iff {f : FFmt} (hf : f.Ok) {r : Rnd} {neg : Bool} {m k : ℕ} {e : ℤ} (h : m ≠ 0)
    (hk : RoundsTo r neg (f.scaled m e) k) :
    (f.topSig : ℚ) * 2 ^ f.topExp < k * 2 ^ f.unitExp m e ↔ Claims.OutOfRange f r (sgn neg * (m * 2 ^ e)) := by
  rw [outOfRange_iff hf r neg (by positivity), ← f.scaled_mul m e]
  refine (exceeds_grid hk (f.scaled_lt h e) ?_ f.topSig_bounds.1 f.topSig_bounds.2).1
  refine (f.scaled_ge h e).imp_right fun h1 => ?_
  have : 0 < f.maxB / 2 ^ f.frac := Nat.div_pos hf.max_normal (by positivity)
  rw [h1]; unfold FFmt.emin FFmt.topExp; omega

/-- What `magGt` tests of the result with an unbounded exponent: whether the number is tiny (R17). -/
theorem FFmt.tiny_test (f : FFmt) (r : Rnd) (neg : Bool) {m : ℕ} (e : ℤ) (h : m ≠ 0) :
    magGt 1 (1 - f.bias) (roundAt r neg m e (freeExp f m e)).1 (roundAt r neg m e (freeExp f m e)).2.1 = true ↔
      Claims.Tiny f r (sgn neg * (m * 2 ^ e)) := by
  obtain ⟨k, hq, hk, -⟩ := roundAt_spec r neg m e (freeExp f m e)
  have hp := two_zpow_pos (freeExp f m e)
  obtain ⟨h1, h2⟩ := freeExp_bounds f h e
  have hx : (m : ℚ) * 2 ^ e / 2 ^ freeExp f m e * 2 ^ freeExp f m e = m * 2 ^ e := div_mul_cancel₀ _ hp.ne'
  have hT : ((2 ^ (f.frac + 1) - 1 : ℕ) : ℚ) + 1 = 2 ^ (f.frac + 1) := by
    rw [Nat.cast_sub Nat.one_le_two_pow]; push_cast; ring
  have hu : (2 : ℚ) ^ (f.frac + 1) * 2 ^ f.tinyExp = 2 ^ (1 - f.bias : ℤ) := by
    rw [← zpow_natCast, ← two_zpow_add]; congr 1; unfold FFmt.tinyExp; push_cast; ring
  rw [magGt_iff, hq, tiny_iff r neg (by positivity), Nat.cast_one, one_mul, ← hx]
  have := (exceeds_grid (T := 2 ^ (f.frac + 1) - 1) (n := f.frac) (g := freeExp f m e) (t := f.tinyExp) hk ?_ (.inl ?_) ?_ ?_).2
  · rw [← this, hT, hu, not_le]
  · rw [div_lt_iff₀ hp, ← zpow_natCast, ← two_zpow_add]; exact_mod_cast h2
  · rw [le_div_iff₀ hp, ← zpow_natCast, ← two_zpow_add]; exact h1
  · have : 0 < 2 ^ f.frac := by positivity
    rw [pow_succ]; omega
  · have : 0 < 2 ^ (f.frac + 1) := by positivity
    omega

/-- A finite number out of range (R18). -/
theorem FFmt.round_over {f : FFmt} (hf : f.Ok) (r : Rnd) (sat neg : Bool) {m : ℕ} (h : m ≠ 0) (e : ℤ)
    (ho : Claims.OutOfRange f r (sgn neg * (m * 2 ^ e))) : f.round r sat neg m e = f.over r sat neg := by
  obtain ⟨k, hq, hk, -⟩ := roundAt_spec r neg m e (f.unitExp m e)
  rw [f.round_def r sat neg h, if_pos]
  rw [magGt_iff, hq, FFmt.overflow_iff hf h hk]; exact ho

/-- A finite number in range: the encoding of the multiple of its unit that it is rounded to, and the flags (R17, R18). -/
theorem FFmt.round_inRange {f : FFmt} (hf : f.Ok) (r : Rnd) (sat neg : Bool) {m : ℕ} (h : m ≠ 0) (e : ℤ)
    (ho : ¬ Claims.OutOfRange f r (sgn neg * (m * 2 ^ e))) :
    ∃ (k b : ℕ) (ix tiny : Bool), f.round r sat neg m e = (f.withSign neg b, rangeFlags ix tiny) ∧ RoundsTo r neg (f.scaled m e) k ∧
      b = (f.unitExp m e - f.emin).toNat * 2 ^ f.frac + k ∧ b ≤ f.maxB ∧ (ix = false ↔ f.mag b = m * 2 ^ e) ∧
      (tiny = true ↔ Claims.Tiny f r (sgn neg * (m * 2 ^ e))) := by
  obtain ⟨k, hq, hk, hix, h1, h2⟩ := roundAt_spec r neg m e (f.unitExp m e)
  have hb := f.encMag_roundAt h hk h1 h2
  have hm := f.mag_scaled h hk
  have hno := (FFmt.overflow_iff hf h hk).not.mpr ho
  refine ⟨k, _, _, _, ?_, hk, hb, ?_, by rw [hix, hb, hm], f.tiny_test r neg e h⟩
  · rw [f.round_def r sat neg h, if_neg]
    rw [magGt_iff, hq]; exact hno
  · rw [hb, ← f.mag_strictMono.le_iff_le, hm, FFmt.mag_max hf]; exact not_lt.mp hno

/-! ### The rounding of a format as the rules state it -/

/-- No value of a format, seen with either sign, lies strictly between a number and the multiples of its unit about it. -/
theorem FFmt.value_gap {f : FFmt} (hf : f.Ok) {m : ℕ} (e : ℤ) (h : m ≠ 0) (s : Bool) (v : ℕ) :
    sgn s * Claims.value f v / 2 ^ f.unitExp m e ≤ ⌊f.scaled m e⌋ ∨
      (⌈f.scaled m e⌉ : ℚ) ≤ sgn s * Claims.value f v / 2 ^ f.unitExp m e := by
  have hp := two_zpow_pos (f.unitExp m e)
  have hm : 0 ≤ f.mag (v % f.sign) := f.mag_nonneg _
  have hgap := f.mag_gap (v % f.sign) (f.unitExp m e - f.emin).toNat (x := f.scaled m e)
    ((f.scaled_ge h e).imp_right fun h1 => by omega)
  rw [f.unitExp_split] at hgap
  rw [value_eq f hf, ← mul_assoc, ← sgn_mul]
  cases s != decide (v / f.sign % 2 = 1)
  · simpa using hgap
  · left
    have h0 : (0 : ℚ) ≤ ⌊f.scaled m e⌋ := by exact_mod_cast Int.floor_nonneg.mpr (f.scaled_pos h e).le
    refine le_trans ?_ h0
    rw [div_le_iff₀ hp]; simp [hm]

end Sys2Proof.Machine

namespace Sys2Proof.Machine

/-- The nearest integer to a number is as near as anything on or beyond the integers about it. -/
theorem RoundsTo.nearest_of_gap {neg : Bool} {x z : ℚ} {k : ℕ} (hk : RoundsTo .rne neg x k) (hz : z ≤ ⌊x⌋ ∨ (⌈x⌉ : ℚ) ≤ z) :
    |(k : ℚ) - x| ≤ |z - x| ∧ (|z - x| = |(k : ℚ) - x| → z ≠ k → k % 2 = 0) := by
  obtain ⟨h1, h2⟩ := hk.nearest
  rw [abs_sub_comm x] at h1 h2
  by_cases hx : (k : ℚ) = x
  · subst hx
    simp only [sub_self, abs_zero, abs_nonneg, true_and]
    exact fun h3 h4 => absurd (sub_eq_zero.mp (abs_eq_zero.mp h3)) h4
  have hstep : (⌊x⌋ : ℚ) + 1 ≤ ⌈x⌉ := by
    have : ⌊x⌋ < ⌈x⌉ := by
      refine lt_of_le_of_ne (Int.floor_le_ceil x) fun h => hx ?_
      have h3 := Int.floor_le x
      have h4 := Int.le_ceil x
      rw [← h] at h4
      have h5 : (⌊x⌋ : ℚ) = x := le_antisymm h3 h4
      rcases hk.floor_or_ceil with h6 | h6
      · rw [← h5, ← h6]; rfl
      · rw [← h, ← Int.cast_inj (α := ℚ), h5] at h6; simpa using h6
    exact_mod_cast this
  have hfl := Int.floor_le x
  have hcl := Int.le_ceil x
  have hz' : |z - x| = x - z ∧ z ≤ ⌊x⌋ ∨ |z - x| = z - x ∧ (⌈x⌉ : ℚ) ≤ z :=
    hz.imp (fun h => ⟨by rw [abs_of_nonpos (by linarith)]; ring, h⟩) fun h => ⟨abs_of_nonneg (by linarith), h⟩
  have hk' : |(k : ℚ) - x| = x - k ∧ (k : ℚ) = ⌊x⌋ ∨ |(k : ℚ) - x| = k - x ∧ (k : ℚ) = ⌈x⌉ := by
    rcases hk.floor_or_ceil with h | h
    · have h' : (k : ℚ) = ⌊x⌋ := by exact_mod_cast h
      exact .inl ⟨by rw [abs_of_nonpos (by linarith)]; ring, h'⟩
    · have h' : (k : ℚ) = ⌈x⌉ := by exact_mod_cast h
      exact .inr ⟨abs_of_nonneg (by linarith), h'⟩
  rcases hz' with ⟨ez, hz⟩ | ⟨ez, hz⟩ <;> rcases hk' with ⟨ek, hk⟩ | ⟨ek, hk⟩ <;> rw [ez, ek] <;> rw [ek] at h1 h2
  · exact ⟨by linarith, fun h3 h4 => absurd (by linarith) h4⟩
  · exact ⟨by linarith, fun h3 _ => h2 (by linarith)⟩
  · exact ⟨by linarith, fun h3 _ => h2 (by linarith)⟩
  · exact ⟨by linarith, fun h3 h4 => absurd (by linarith) h4⟩

theorem RoundsTo.lower_of_gap {r : Rnd} {neg : Bool} {x z : ℚ} {k : ℕ} (hk : RoundsTo r neg x k) (ht : toward r neg = true)
    (hz : z ≤ ⌊x⌋ ∨ (⌈x⌉ : ℚ) ≤ z) : (k : ℚ) ≤ x ∧ (z ≤ x → z ≤ k) := by
  have h : (k : ℚ) = ⌊x⌋ := by exact_mod_cast hk.lower ht
  rw [h]
  refine ⟨Int.floor_le x, fun hzx => hz.elim id fun h3 => ?_⟩
  have h4 : (⌈x⌉ : ℚ) = x := le_antisymm (h3.trans hzx) (Int.le_ceil x)
  rwa [← h4, Int.floor_intCast, h4]

theorem RoundsTo.upper_of_gap {r : Rnd} {neg : Bool} {x z : ℚ} {k : ℕ} (hk : RoundsTo r neg x k) (hr : r ≠ .rne)
    (ht : toward r neg = false) (hz : z ≤ ⌊x⌋ ∨ (⌈x⌉ : ℚ) ≤ z) : x ≤ k ∧ (x ≤ z → k ≤ z) := by
  have h : (k : ℚ) = ⌈x⌉ := by exact_mod_cast hk.upper hr ht
  rw [h]
  refine ⟨Int.le_ceil x, fun hzx => hz.elim (fun h3 => ?_) id⟩
  have h4 : (⌊x⌋ : ℚ) = x := le_antisymm (Int.floor_le x) (hzx.trans h3)
  rwa [← h4, Int.ceil_intCast, h4]

theorem sgn_sq (s : Bool) : sgn s * sgn s = 1 := by cases s <;> simp

theorem abs_sgn (s : Bool) : |sgn s| = 1 := by cases s <;> simp

theorem abs_eq_sgn_mul (y : ℚ) : ∃ s, |y| = sgn s * y := by
  rcases abs_choice y with h | h
  · exact ⟨false, by simpa using h⟩
  · exact ⟨true, by simpa using h⟩

/-- The multiple of its unit that a number is rounded to is its rounding as R18 states it. -/
theorem inRange_of_roundsTo {f : FFmt} (hf : f.Ok) {r : Rnd} {neg : Bool} {m k b : ℕ} {e : ℤ} (h : m ≠ 0)
    (hk : RoundsTo r neg (f.scaled m e) k) (hb : b = (f.unitExp m e - f.emin).toNat * 2 ^ f.frac + k) (hle : b ≤ f.maxB) :
    Claims.InRange f r (sgn neg * (m * 2 ^ e)) (f.withSign neg b) := by
  have hlt : b < f.sign := hle.trans_lt hf.max_lt
  have hp := two_zpow_pos (f.unitExp m e)
  have hX : Claims.value f (f.withSign neg b) = sgn neg * (k * 2 ^ f.unitExp m e) := by
    rw [FFmt.value_withSign hf neg hlt, hb, f.mag_scaled h hk]
  have hQ : (0 : ℚ) < m * 2 ^ e := by positivity
  have hgap (s : Bool) (v : ℕ) := FFmt.value_gap hf e h s v
  have heven : f.withSign neg b % 2 = 0 ↔ k % 2 = 0 := by
    have h2 : 2 ^ f.frac % 2 = 0 := Nat.mod_eq_zero_of_dvd (dvd_pow_self 2 hf.frac_pos.ne')
    rw [FFmt.withSign_even hf, hb, Nat.add_mod, Nat.mul_mod, h2]; simp
  have hs : f.withSign neg b / f.sign % 2 = 1 ↔ neg = true := by
    rw [← f.withSign_div neg hlt, decide_eq_true_iff, f.withSign_div neg hlt]
  refine ⟨FFmt.finite_withSign hf neg hle, by rw [sgn_mul_lt_zero neg hQ, hs], fun v _ => ?_⟩
  rw [hX, ← f.scaled_mul m e]
  have hx := f.scaled_pos h e
  have hz (s : Bool) : ∃ z, Claims.value f v = sgn s * (z * 2 ^ f.unitExp m e) ∧
      (z ≤ ⌊f.scaled m e⌋ ∨ (⌈f.scaled m e⌉ : ℚ) ≤ z) :=
    ⟨_, by rw [div_mul_cancel₀ _ hp.ne', ← mul_assoc, sgn_sq, one_mul], FFmt.value_gap hf e h s v⟩
  generalize Claims.value f v = y at hz
  generalize f.scaled m e = x at hk hz hx
  generalize (2 : ℚ) ^ f.unitExp m e = u at hp hz
  cases r with
  | rne =>
    obtain ⟨z, rfl, hgap⟩ := hz neg
    have hdist (z w : ℚ) : |sgn neg * (z * u) - sgn neg * (w * u)| = |z - w| * u := by
      rw [← mul_sub, ← sub_mul, abs_mul, abs_mul, abs_sgn, one_mul, abs_of_pos hp]
    obtain ⟨h1, h2⟩ := hk.nearest_of_gap hgap
    simp only [hdist, heven]
    exact ⟨mul_le_mul_of_nonneg_right h1 hp.le, fun h3 h4 => h2 (mul_right_cancel₀ hp.ne' h3) fun h5 => h4 (by rw [h5])⟩
  | rtz =>
    obtain ⟨s, hs⟩ := abs_eq_sgn_mul y
    obtain ⟨z, hzy, hgap⟩ := hz s
    obtain ⟨h1, h2⟩ := hk.lower_of_gap rfl hgap
    have hy : |y| = z * u := by rw [hs, hzy, ← mul_assoc, sgn_sq, one_mul]
    simp only [hy, abs_sgn_mul neg (show 0 ≤ (k : ℚ) * u by positivity), abs_sgn_mul neg (show 0 ≤ x * u by positivity),
      mul_le_mul_iff_left₀ hp]
    exact ⟨h1, h2⟩
  | rdn =>
    obtain ⟨z, rfl, hgap⟩ := hz neg
    cases neg
    · simpa [mul_le_mul_iff_left₀ hp] using hk.lower_of_gap rfl hgap
    · simpa [mul_le_mul_iff_left₀ hp] using hk.upper_of_gap (by decide) rfl hgap
  | rup =>
    obtain ⟨z, rfl, hgap⟩ := hz neg
    cases neg
    · simpa [mul_le_mul_iff_left₀ hp] using hk.upper_of_gap (by decide) rfl hgap
    · simpa [mul_le_mul_iff_left₀ hp] using hk.lower_of_gap rfl hgap

/-! ### What a conversion delivers -/

theorem rangeFlags_eq (ix tiny : Bool) :
    rangeFlags ix tiny = if ix = false then 0 else if tiny = true then fInexact ||| fUnderflow else fInexact := by
  cases ix <;> cases tiny <;> rfl

/-- A finite number other than 0 in range, converted to a format (R17, R18). -/
theorem FFmt.round_spec {f : FFmt} (hf : f.Ok) (r : Rnd) (sat neg : Bool) {m : ℕ} (h : m ≠ 0) (e : ℤ)
    (ho : ¬ Claims.OutOfRange f r (sgn neg * (m * 2 ^ e))) :
    ∃ b ≤ f.maxB, (f.round r sat neg m e).1 = f.withSign neg b ∧
      Claims.InRange f r (sgn neg * (m * 2 ^ e)) (f.withSign neg b) ∧
      (Claims.value f (f.withSign neg b) = sgn neg * (m * 2 ^ e) → (f.round r sat neg m e).2 = 0) ∧
      (Claims.value f (f.withSign neg b) ≠ sgn neg * (m * 2 ^ e) →
        (Claims.Tiny f r (sgn neg * (m * 2 ^ e)) → (f.round r sat neg m e).2 = fInexact ||| fUnderflow) ∧
        (¬ Claims.Tiny f r (sgn neg * (m * 2 ^ e)) → (f.round r sat neg m e).2 = fInexact)) := by
  obtain ⟨k, b, ix, tiny, hr, hk, hb, hle, hix, ht⟩ := FFmt.round_inRange hf r sat neg h e ho
  have hv : Claims.value f (f.withSign neg b) = sgn neg * (m * 2 ^ e) ↔ ix = false := by
    rw [FFmt.value_withSign hf neg (hle.trans_lt hf.max_lt), hix, mul_right_inj' (by cases neg <;> simp)]
  refine ⟨b, hle, by rw [hr], inRange_of_roundsTo hf h hk hb hle, fun hx => ?_, fun hx => ⟨fun hy => ?_, fun hy => ?_⟩⟩
  · rw [hr, rangeFlags_eq, if_pos (hv.mp hx)]
  · rw [hr, rangeFlags_eq, if_neg (hv.not.mp hx), if_pos (ht.mpr hy)]
  · rw [hr, rangeFlags_eq, if_neg (hv.not.mp hx), if_neg (ht.not.mpr hy)]

end Sys2Proof.Machine

namespace Sys2Proof.Machine

/-! ### FP32 words as numbers -/

theorem getLsbD31 (w : Word) : w.getLsbD 31 = decide (w.toNat / fp32.sign % 2 = 1) := by
  rw [BitVec.getLsbD, Nat.testBit_eq_decide_div_mod_eq]; rfl

theorem value32_eq (w : Word) : Claims.value32 w = Claims.value fp32 w.toNat := by
  have h1 : w.toNat % 2 ^ 31 / 2 ^ 23 = w.toNat / 2 ^ 23 % 256 := by omega
  simp only [Claims.value32, Claims.value, getLsbD31, decide_eq_true_eq]
  simp only [fp32, h1, mul_div_assoc]
  congr 1
  split
  · push_cast; rw [show (2 : ℚ) ^ (127 + 23) = 2 * 2 ^ 149 by norm_num]; ring
  · push_cast; ring

theorem fin32_iff (w : Word) : Claims.fin32 w = true ↔ Claims.finite fp32 w.toNat := by
  have := w.isLt
  simp only [Claims.fin32, Claims.finite, decide_eq_true_eq, fp32]
  omega

/-- An FP32 word is a NaN, an infinity or a finite number (R9). -/
theorem word32_cases (w : Word) :
    (Claims.nan32 w = true ∧ Claims.inf32 w = false ∧ Claims.fin32 w = false ∧ num32 w = .nan) ∨
    (Claims.nan32 w = false ∧ Claims.inf32 w = true ∧ Claims.fin32 w = false ∧ num32 w = .inf (w.getLsbD 31)) ∨
    (Claims.nan32 w = false ∧ Claims.inf32 w = false ∧ Claims.fin32 w = true ∧
      ∃ m e, num32 w = .fin (w.getLsbD 31) m e ∧ Claims.value32 w = sgn (w.getLsbD 31) * (m * 2 ^ e)) := by
  have h0 : num32 w = fp32.dec w.toNat := rfl
  by_cases hf : Claims.fin32 w = true
  · right; right
    have h := (fin32_iff w).mp hf
    obtain ⟨m, e, h1, h2⟩ := fp32.dec_finite h.2
    have h3 : w.toNat % 2 ^ 31 < 0x7F800000 := by simpa [Claims.fin32] using hf
    refine ⟨?_, ?_, hf, m, e, by rw [h0, h1, getLsbD31], ?_⟩
    · simp only [Claims.nan32, decide_eq_false_iff_not]; omega
    · simp only [Claims.inf32, beq_eq_false_iff_ne]; omega
    · rw [value32_eq, value_eq fp32 fp32_ok, h2, getLsbD31]
  · have h3 : ¬ w.toNat % 2 ^ 31 < 0x7F800000 := by simpa [Claims.fin32] using hf
    have h4 : fp32.maxB < w.toNat % fp32.sign := by simp only [fp32]; omega
    rw [FFmt.dec, if_pos h4, ← getLsbD31] at h0
    by_cases hi : w.toNat % 2 ^ 31 = 0x7F800000
    · right; left
      refine ⟨by simpa [Claims.nan32] using hi.le, by simpa [Claims.inf32] using hi, by simpa using hf, ?_⟩
      rw [h0, if_pos (by simpa [fp32] using hi)]
    · left
      refine ⟨?_, by simpa [Claims.inf32] using hi, by simpa using hf, ?_⟩
      · simp only [Claims.nan32, decide_eq_true_eq]; omega
      · rw [h0, if_neg (by simpa [fp32] using hi)]

theorem num32_nan {w : Word} (h : Claims.nan32 w = true) : num32 w = .nan := by
  rcases word32_cases w with ⟨-, -, -, h1⟩ | ⟨h1, -⟩ | ⟨h1, -⟩
  · exact h1
  · simp [h] at h1
  · simp [h] at h1

theorem num32_inf {w : Word} (h : Claims.inf32 w = true) : num32 w = .inf (w.getLsbD 31) := by
  rcases word32_cases w with ⟨-, h1, -⟩ | ⟨-, -, -, h1⟩ | ⟨-, h1, -⟩
  · simp [h] at h1
  · exact h1
  · simp [h] at h1

theorem num32_fin {w : Word} (h : Claims.fin32 w = true) :
    ∃ m e, num32 w = .fin (w.getLsbD 31) m e ∧ Claims.value32 w = sgn (w.getLsbD 31) * (m * 2 ^ e) := by
  rcases word32_cases w with ⟨-, -, h1, -⟩ | ⟨-, -, h1, -⟩ | ⟨-, -, -, h1⟩
  · simp [h] at h1
  · simp [h] at h1
  · exact h1

theorem num32_isNan (w : Word) : (num32 w).isNan = Claims.nan32 w := by
  rcases word32_cases w with ⟨h1, -, -, h⟩ | ⟨h1, -, -, h⟩ | ⟨h1, -, -, m, e, h, -⟩ <;> rw [h1, h] <;> rfl

theorem rat_num32 {w : Word} (h : Claims.fin32 w = true) : Claims.rat (num32 w) = some (Claims.value32 w) := by
  obtain ⟨m, e, h1, h2⟩ := num32_fin h
  rw [h1, rat_fin, h2]

theorem isNeg_num32 {w : Word} (h : Claims.nan32 w = false) : (num32 w).isNeg = w.getLsbD 31 := by
  rcases word32_cases w with ⟨h1, -⟩ | ⟨-, -, -, h1⟩ | ⟨-, -, -, m, e, h1, -⟩
  · simp [h] at h1
  · rw [h1]; rfl
  · rw [h1]; rfl

theorem sgn_mul_eq_zero (s : Bool) {m : ℕ} {e : ℤ} : sgn s * ((m : ℚ) * 2 ^ e) = 0 ↔ m = 0 := by
  cases s <;> simp [(two_zpow_pos e).ne']

/-! ### Conversions to narrower formats -/

theorem FFmt.round_zero (f : FFmt) (r : Rnd) (sat neg : Bool) (e : ℤ) : f.round r sat neg 0 e = (f.withSign neg 0, 0) := rfl

theorem FFmt.over_eq (f : FFmt) (r : Rnd) (sat neg : Bool) : f.over r sat neg =
    if sat || toward r neg then (f.withSign neg f.maxB, fOverflow ||| fInexact)
    else (f.withSign neg f.infB, fOverflow ||| (if f.hasInf then fInexact else fInvalid)) := by
  cases r <;> cases sat <;> cases neg <;> cases h : f.hasInf <;> simp [FFmt.over, toward, overflowFlags, FFmt.infOf, h]

/-- The conversion of an FP32 value to a narrower format is the one that R17 and R18 state. -/
theorem converted_conv {f : FFmt} (hf : f.Ok) (r : Rnd) (sat : Bool) (x : Word) : Claims.Converted f r sat x (f.conv r sat (num32 x)) := by
  have hsg (b : ℕ) : (if x.getLsbD 31 then f.sign + b else b) = f.withSign (x.getLsbD 31) b := rfl
  simp only [Claims.Converted, hsg]
  rcases word32_cases x with ⟨h1, h2, h3, h⟩ | ⟨h1, h2, h3, h⟩ | ⟨h1, h2, h3, m, e, h, hv⟩
  · simp [h1, h2, h3, h, FFmt.conv]
  · simp only [h1, h2, h3, h, FFmt.conv, FFmt.infOf, Bool.false_eq_true, false_implies, true_implies, true_and, and_true]
    cases sat <;> cases f.hasInf <;> simp [fWhen]
  · simp only [h1, h2, h3, h, FFmt.conv, Bool.false_eq_true, false_implies, true_implies, true_and]
    generalize x.getLsbD 31 = s at hv
    refine ⟨fun hq => ?_, fun hq ho => ?_, fun hq ho => ?_⟩
    · have hm : m = 0 := by rwa [hv, sgn_mul_eq_zero] at hq
      rw [hm, f.round_zero]
    · have hm : m ≠ 0 := by rwa [hv, Ne, sgn_mul_eq_zero] at hq
      have hQ : (0 : ℚ) < m * 2 ^ e := by positivity
      rw [hv] at ho ⊢
      rw [FFmt.round_over hf r sat s hm e ho, toward_iff r s hQ, f.over_eq]
      refine ⟨fun h4 => if_pos (by simpa using h4), fun h4 h5 => if_neg (by simp [h4, h5])⟩
    · have hm : m ≠ 0 := by rwa [hv, Ne, sgn_mul_eq_zero] at hq
      rw [hv] at ho ⊢
      obtain ⟨b, -, hr, h4, h5, h6⟩ := FFmt.round_spec hf r sat s hm e ho
      rw [hr]
      exact ⟨h4, h5, h6⟩

/-! ### FP32 results -/

theorem fp32_topExp : fp32.topExp = 104 := by decide

theorem fp32_topSig : fp32.topSig = 2 ^ 24 - 1 := by decide

theorem outOfRange_fp32 (q : ℚ) : Claims.OutOfRange fp32 .rne q ↔ ¬ |q| < (2 ^ 25 - 1) * 2 ^ 103 := by
  have h1 : Claims.value fp32 fp32.maxB = (2 ^ 24 - 1) * 2 ^ 104 := by
    rw [FFmt.value_max fp32_ok, fp32_topSig, fp32_topExp]; norm_num
  have h2 : (2 : ℚ) ^ (fp32.maxB / 2 ^ fp32.frac) / 2 ^ (fp32.bias + fp32.frac) = 2 ^ 104 := by
    rw [fp32.top_unit, fp32_topExp]; norm_num
  have h3 : fp32.maxB % 2 = 1 := by decide
  simp only [Claims.OutOfRange, h1, h2, h3, Claims.Toward, reduceCtorEq, false_and, or_false, true_and, and_true, ne_eq,
    not_true_eq_false, not_lt]
  rw [le_iff_lt_or_eq]
  norm_num [eq_comm]

theorem tiny_fp32 (q : ℚ) : Claims.Tiny fp32 .rne q ↔ |q| < 1 / 2 ^ 126 - 1 / 2 ^ 151 := by
  simp only [Claims.Tiny, Claims.Toward, reduceCtorEq, false_and, or_false, true_and, ne_eq, not_true_eq_false]
  norm_num [fp32]

theorem toNat_ofNat32 {n : ℕ} (h : n < 2 ^ 32) : (BitVec.ofNat 32 n).toNat = n := by simpa using h

theorem fp32_withSign_lt (neg : Bool) {b : ℕ} (h : b < 2 ^ 31) : fp32.withSign neg b < 2 ^ 32 := fp32.withSign_lt neg h

/-- A signed FP32 encoding as a word. -/
theorem getLsbD31_withSign (neg : Bool) {b : ℕ} (h : b < 2 ^ 31) : (BitVec.ofNat 32 (fp32.withSign neg b)).getLsbD 31 = neg := by
  rw [getLsbD31, toNat_ofNat32 (fp32_withSign_lt neg h)]; exact fp32.withSign_div neg h

/-- An exact result other than 0, delivered in FP32 (R15, R17). -/
theorem rounded32_round (neg : Bool) {m : ℕ} (h : m ≠ 0) (e : ℤ) :
    Claims.Rounded32 (sgn neg * (m * 2 ^ e))
      (BitVec.ofNat 32 (fp32.round .rne false neg m e).1, (fp32.round .rne false neg m e).2) := by
  have hQ : (0 : ℚ) < m * 2 ^ e := by positivity
  unfold Claims.Rounded32
  split
  · next hlt =>
    have ho : ¬ Claims.OutOfRange fp32 .rne (sgn neg * (m * 2 ^ e)) := by rw [outOfRange_fp32]; simpa using hlt
    obtain ⟨b, hb, hr, ⟨hfin, hsign, hnear⟩, hex, hin⟩ := FFmt.round_spec fp32_ok .rne false neg h e ho
    have hb31 : b < 2 ^ 31 := hb.trans_lt (by decide)
    have hn := toNat_ofNat32 (fp32_withSign_lt neg hb31)
    simp only [hr]
    rw [fin32_iff, value32_eq, hn, getLsbD31_withSign neg hb31]
    refine ⟨hfin, fun v hv => ?_, by simp only [sgn_mul_lt_zero neg hQ, Bool.decide_eq_true], ?_⟩
    · obtain ⟨h1, h2⟩ := hnear v.toNat ((fin32_iff v).mp hv)
      rw [value32_eq v]
      refine ⟨h1, fun h3 h4 => ?_⟩
      have := h2 h3 h4
      rw [BitVec.getLsbD, hn, Nat.testBit_zero]; simpa using this
    · split
      · next hv => exact hex hv
      · next hv =>
        split
        · next ht => exact (hin hv).1 ((tiny_fp32 _).mpr ht)
        · next ht => exact (hin hv).2 ((tiny_fp32 _).not.mpr ht)
  · next hge =>
    have ho : Claims.OutOfRange fp32 .rne (sgn neg * (m * 2 ^ e)) := (outOfRange_fp32 _).mpr hge
    rw [FFmt.round_over fp32_ok .rne false neg h e ho, fp32.over_eq]
    simp only [toward, Bool.or_self, Bool.false_eq_true, if_false, sgn_mul_lt_zero neg hQ]
    cases neg <;> rfl

end Sys2Proof.Machine

namespace Sys2Proof.Machine

/-! ### Exact arithmetic -/

/-- The exact sum of two finite numbers, and the sign of a zero (R15). -/
theorem Num.add_fin (a b : Bool) (m n : ℕ) (e f : ℤ) :
    ∃ s k g, (Num.fin a m e).add (.fin b n f) = .fin s k g ∧
      sgn s * ((k : ℚ) * 2 ^ g) = sgn a * (m * 2 ^ e) + sgn b * (n * 2 ^ f) ∧ (k = 0 → s = (m == 0 && n == 0 && a && b)) := by
  have h1 := signedAt_mul a m (min_le_left e f)
  have h2 := signedAt_mul b n (min_le_right e f)
  rw [← h1, ← h2, ← add_mul, ← Int.cast_add]
  simp only [Num.add]
  generalize signedAt a m e (min e f) + signedAt b n f (min e f) = z
  split
  · next hz => exact ⟨_, _, _, rfl, by simp [hz], fun _ => rfl⟩
  · next hz =>
    refine ⟨_, _, _, rfl, ?_, fun h => absurd (Int.natAbs_eq_zero.mp h) hz⟩
    have : (z : ℚ) = sgn (decide (z < 0)) * (z.natAbs : ℚ) := by
      rcases lt_or_ge z 0 with h | h
      · rw [decide_eq_true h, sgn_true, Nat.cast_natAbs, abs_of_neg h]; push_cast; ring
      · rw [decide_eq_false (not_lt.mpr h), sgn_false, Nat.cast_natAbs, abs_of_nonneg h, one_mul]
    rw [this]; ring

theorem Num.mul_fin (a b : Bool) (m n : ℕ) (e f : ℤ) :
    sgn (a != b) * (((m * n : ℕ) : ℚ) * 2 ^ (e + f)) = sgn a * (m * 2 ^ e) * (sgn b * (n * 2 ^ f)) := by
  rw [sgn_mul, two_zpow_add]; push_cast; ring

/-! ### Delivering FP32 results -/

/-- An infinite FP32 result with its sign. -/
def inf32Of (neg : Bool) : Word := if neg then 0xFF800000 else 0x7F800000

/-- A zero FP32 result with its sign. -/
def zero32Of (neg : Bool) : Word := if neg then 0x80000000 else 0

theorem fdeliver_nan (args : List Num) : fdeliver args .nan = (0x7FC00000, fWhen (!args.any (·.isNan)) fInvalid) := by
  simp [fdeliver, FFmt.result, FFmt.conv, Num.isNan, fp32]

theorem fdeliver_inf (args : List Num) (neg : Bool) : fdeliver args (.inf neg) = (inf32Of neg, 0) := by
  cases neg <;> simp [fdeliver, FFmt.result, FFmt.conv, Num.isNan, fp32, FFmt.infOf, FFmt.withSign, fWhen, inf32Of]

theorem fdeliver_zero (args : List Num) (neg : Bool) (e : ℤ) : fdeliver args (.fin neg 0 e) = (zero32Of neg, 0) := by
  cases neg <;> simp [fdeliver, FFmt.result, FFmt.conv, Num.isNan, FFmt.round_zero, fp32, FFmt.withSign, fWhen, zero32Of]

theorem fdeliver_fin (args : List Num) (neg : Bool) (m : ℕ) (e : ℤ) :
    fdeliver args (.fin neg m e) = (BitVec.ofNat 32 (fp32.round .rne false neg m e).1, (fp32.round .rne false neg m e).2) := by
  simp [fdeliver, FFmt.result, FFmt.conv, Num.isNan, fWhen]

/-- A number is finite, with a sign and a value. -/
def Num.Has (x : Num) (neg : Bool) (q : ℚ) : Prop := ∃ m e, x = .fin neg m e ∧ q = sgn neg * ((m : ℚ) * 2 ^ e)

theorem has_num32 {w : Word} (h : Claims.fin32 w = true) : (num32 w).Has (w.getLsbD 31) (Claims.value32 w) := num32_fin h

theorem Num.Has.neg {x : Num} {s : Bool} {q : ℚ} (h : x.Has s q) : x.neg.Has (!s) (-q) := by
  obtain ⟨m, e, rfl, rfl⟩ := h
  exact ⟨m, e, rfl, by rw [sgn_not]; ring⟩

theorem Num.Has.mul {x y : Num} {s t : Bool} {p q : ℚ} (hx : x.Has s p) (hy : y.Has t q) : (x.mul y).Has (s != t) (p * q) := by
  obtain ⟨m, e, rfl, rfl⟩ := hx
  obtain ⟨n, f, rfl, rfl⟩ := hy
  exact ⟨m * n, e + f, rfl, (Num.mul_fin ..).symm⟩

/-- The exact sum, and the sign of a zero (R15). -/
theorem Num.Has.add {x y : Num} {s t : Bool} {p q : ℚ} (hx : x.Has s p) (hy : y.Has t q) :
    ∃ u, (x.add y).Has u (p + q) ∧ (p + q = 0 → u = (decide (p = 0) && s && t)) := by
  obtain ⟨m, e, rfl, rfl⟩ := hx
  obtain ⟨n, f, rfl, rfl⟩ := hy
  obtain ⟨u, k, g, h1, h2, h3⟩ := Num.add_fin s t m n e f
  refine ⟨u, ⟨k, g, h1, h2.symm⟩, fun h => ?_⟩
  have hk : k = 0 := (sgn_mul_eq_zero u).mp (h2.trans h)
  have hmn : m = 0 ↔ n = 0 := by
    rw [← sgn_mul_eq_zero s (e := e), ← sgn_mul_eq_zero t (e := f)]
    constructor <;> intro h4 <;> linarith
  rw [h3 hk]
  by_cases hm : m = 0
  · simp [hm, hmn.mp hm]
  · rw [decide_eq_false (by rwa [sgn_mul_eq_zero]), beq_eq_false_iff_ne.mpr hm]; rfl

/-- A finite result: one rounding of its exact value, or a zero with its sign (R15). -/
theorem fdeliver_has (args : List Num) {x : Num} {s : Bool} {q : ℚ} (h : x.Has s q) :
    (q ≠ 0 → Claims.Rounded32 q (fdeliver args x)) ∧ (q = 0 → fdeliver args x = (zero32Of s, 0)) := by
  obtain ⟨m, e, rfl, rfl⟩ := h
  rw [Ne, sgn_mul_eq_zero]
  refine ⟨fun h => ?_, fun h => by rw [h, fdeliver_zero]⟩
  rw [fdeliver_fin]; exact rounded32_round s h e

/-- A finite sum, delivered in FP32. -/
theorem fdeliver_add (args : List Num) {x y : Num} {s t : Bool} {p q : ℚ} (hx : x.Has s p) (hy : y.Has t q) :
    (p + q ≠ 0 → Claims.Rounded32 (p + q) (fdeliver args (x.add y))) ∧
      (p + q = 0 → fdeliver args (x.add y) = (zero32Of (decide (p = 0) && s && t), 0)) := by
  obtain ⟨u, h1, h2⟩ := hx.add hy
  obtain ⟨h3, h4⟩ := fdeliver_has args h1
  exact ⟨h3, fun h => by rw [h4 h, h2 h]⟩

/-! ### The operations of FP32 -/

section
variable {a b c : Word} (ha : Claims.fin32 a = true) (hb : Claims.fin32 b = true)
include ha hb

theorem f32Add_fin :
    (Claims.value32 a + Claims.value32 b ≠ 0 → Claims.Rounded32 (Claims.value32 a + Claims.value32 b) (f32Add a b)) ∧
      (Claims.value32 a + Claims.value32 b = 0 →
        f32Add a b = (zero32Of (decide (Claims.value32 a = 0) && a.getLsbD 31 && b.getLsbD 31), 0)) :=
  fdeliver_add _ (has_num32 ha) (has_num32 hb)

theorem f32Sub_fin :
    (Claims.value32 a - Claims.value32 b ≠ 0 → Claims.Rounded32 (Claims.value32 a - Claims.value32 b) (f32Sub a b)) ∧
      (Claims.value32 a - Claims.value32 b = 0 →
        f32Sub a b = (zero32Of (decide (Claims.value32 a = 0) && a.getLsbD 31 && !b.getLsbD 31), 0)) := by
  rw [sub_eq_add_neg]
  exact fdeliver_add _ (has_num32 ha) (has_num32 hb).neg

theorem f32Mul_fin :
    (Claims.value32 a * Claims.value32 b ≠ 0 → Claims.Rounded32 (Claims.value32 a * Claims.value32 b) (f32Mul a b)) ∧
      (Claims.value32 a * Claims.value32 b = 0 → f32Mul a b = (zero32Of (a.getLsbD 31 != b.getLsbD 31), 0)) :=
  fdeliver_has _ ((has_num32 ha).mul (has_num32 hb))

theorem f32Fma_fin (hc : Claims.fin32 c = true) :
    (Claims.value32 a * Claims.value32 b + Claims.value32 c ≠ 0 →
      Claims.Rounded32 (Claims.value32 a * Claims.value32 b + Claims.value32 c) (f32Fma a b c)) ∧
      (Claims.value32 a * Claims.value32 b + Claims.value32 c = 0 → f32Fma a b c =
        (zero32Of (decide (Claims.value32 a * Claims.value32 b = 0) && (a.getLsbD 31 != b.getLsbD 31) && c.getLsbD 31), 0)) :=
  fdeliver_add _ ((has_num32 ha).mul (has_num32 hb)) (has_num32 hc)

theorem f32Fms_fin (hc : Claims.fin32 c = true) (h : Claims.value32 c - Claims.value32 a * Claims.value32 b ≠ 0) :
    Claims.Rounded32 (Claims.value32 c - Claims.value32 a * Claims.value32 b) (f32Fms a b c) := by
  rw [sub_eq_add_neg] at h ⊢
  exact (fdeliver_add _ (has_num32 hc) ((has_num32 ha).mul (has_num32 hb)).neg).1 h

end

theorem roundedArithmetic : Claims.RoundedArithmetic := fun _ _ _ ha hb hc =>
  ⟨(f32Add_fin ha hb).1, (f32Sub_fin ha hb).1, (f32Mul_fin ha hb).1, (f32Fma_fin ha hb hc).1⟩

theorem Num.nan_add (x : Num) : Num.nan.add x = .nan := by cases x <;> rfl
theorem Num.add_nan (x : Num) : x.add .nan = .nan := by cases x <;> rfl
theorem Num.nan_mul (x : Num) : Num.nan.mul x = .nan := by cases x <;> rfl
theorem Num.mul_nan (x : Num) : x.mul .nan = .nan := by cases x <;> rfl

theorem inf32_nan32 {w : Word} (h : Claims.inf32 w = true) : Claims.nan32 w = false := by
  rcases word32_cases w with ⟨-, h1, -⟩ | ⟨h1, -⟩ | ⟨h1, -⟩
  · simp [h] at h1
  · exact h1
  · exact h1

theorem fin32_nan32 {w : Word} (h : Claims.fin32 w = true) : Claims.nan32 w = false := by
  rcases word32_cases w with ⟨-, -, h1, -⟩ | ⟨h1, -⟩ | ⟨h1, -⟩
  · simp [h] at h1
  · exact h1
  · exact h1

/-- A NaN operand gives the canonical NaN and no flag (R15, R17). -/
theorem fdeliver_nan_arg {args : List Num} (h : args.any (·.isNan) = true) : fdeliver args .nan = (0x7FC00000, 0) := by
  rw [fdeliver_nan, h]; rfl

/-- A NaN that arises from operands that are none raises invalid (R15, R17). -/
theorem fdeliver_nan_new {args : List Num} (h : args.any (·.isNan) = false) : fdeliver args .nan = (0x7FC00000, fInvalid) := by
  rw [fdeliver_nan, h]; rfl

theorem specialNans {a b c : Word} :
    ((Claims.nan32 a || Claims.nan32 b) = true →
      f32Add a b = (0x7FC00000, 0) ∧ f32Sub a b = (0x7FC00000, 0) ∧ f32Mul a b = (0x7FC00000, 0)) ∧
    ((Claims.nan32 a || Claims.nan32 b || Claims.nan32 c) = true → f32Fma a b c = (0x7FC00000, 0)) := by
  constructor
  · intro h
    have hany : [num32 a, num32 b].any (·.isNan) = true := by simpa [num32_isNan] using h
    rcases Bool.or_eq_true _ _ |>.mp h with h | h <;>
      simp only [f32Add, f32Sub, f32Mul, num32_nan h, Num.nan_add, Num.add_nan, Num.nan_mul, Num.mul_nan, Num.neg] <;>
      rw [num32_nan h] at hany <;> exact ⟨fdeliver_nan_arg hany, fdeliver_nan_arg hany, fdeliver_nan_arg hany⟩
  · intro h
    have hany : [num32 a, num32 b, num32 c].any (·.isNan) = true := by simpa [num32_isNan, or_assoc] using h
    have hr : ((num32 a).mul (num32 b)).add (num32 c) = .nan := by
      simp only [Bool.or_eq_true, or_assoc] at h
      rcases h with h | h | h <;> rw [num32_nan h]
      · rw [Num.nan_mul, Num.nan_add]
      · rw [Num.mul_nan, Num.nan_add]
      · rw [Num.add_nan]
    rw [f32Fma, hr, fdeliver_nan_arg hany]

/-- Two infinities (R15). -/
theorem specialInfs {a b : Word} (ha : Claims.inf32 a = true) (hb : Claims.inf32 b = true) :
    f32Add a b = (if a.getLsbD 31 = b.getLsbD 31 then (inf32Of (a.getLsbD 31), 0) else (0x7FC00000, fInvalid)) ∧
    f32Sub a b = (if a.getLsbD 31 = b.getLsbD 31 then (0x7FC00000, fInvalid) else (inf32Of (a.getLsbD 31), 0)) ∧
    f32Mul a b = (inf32Of (a.getLsbD 31 != b.getLsbD 31), 0) := by
  simp only [f32Add, f32Sub, f32Mul, num32_inf ha, num32_inf hb]
  generalize a.getLsbD 31 = s
  generalize b.getLsbD 31 = t
  refine ⟨?_, ?_, fdeliver_inf ..⟩
  · by_cases h : s = t
    · rw [if_pos h, Num.add, if_pos (by simpa using h), fdeliver_inf]
    · rw [if_neg h, Num.add, if_neg (by simpa using h), fdeliver_nan_new rfl]
  · by_cases h : s = t
    · rw [if_pos h, Num.neg, Num.add, if_neg (by cases s <;> cases t <;> simp_all), fdeliver_nan_new rfl]
    · rw [if_neg h, Num.neg, Num.add, if_pos (by cases s <;> cases t <;> simp_all), fdeliver_inf]

/-- An infinity and a finite number (R15). -/
theorem specialInfFin {a b : Word} (ha : Claims.inf32 a = true) (hb : Claims.fin32 b = true) :
    f32Add a b = (inf32Of (a.getLsbD 31), 0) ∧ f32Add b a = (inf32Of (a.getLsbD 31), 0) ∧
    f32Sub a b = (inf32Of (a.getLsbD 31), 0) ∧ f32Sub b a = (inf32Of (!a.getLsbD 31), 0) ∧
    f32Mul a b = (if Claims.value32 b = 0 then (0x7FC00000, fInvalid) else (inf32Of (a.getLsbD 31 != b.getLsbD 31), 0)) ∧
    f32Mul b a = f32Mul a b := by
  obtain ⟨m, e, hn, hv⟩ := num32_fin hb
  simp only [f32Add, f32Sub, f32Mul, num32_inf ha, hn, Num.add, Num.neg, Num.mul, fdeliver_inf, true_and, hv, sgn_mul_eq_zero]
  by_cases h : m = 0
  · simp only [h, if_true]
    exact ⟨fdeliver_nan_new rfl, (fdeliver_nan_new rfl).trans (fdeliver_nan_new rfl).symm⟩
  · simp only [h, if_false, fdeliver_inf, true_and]
    rw [bne_comm]

theorem specialResults : Claims.SpecialResults := by
  intro a b c
  refine ⟨specialNans (c := c) |>.1, specialNans |>.2, specialInfs, specialInfFin, fun ha hb => ⟨(f32Add_fin ha hb).2,
    (f32Sub_fin ha hb).2, (f32Mul_fin ha hb).2, fun hc => ?_, fun hc h => ?_⟩⟩
  · obtain ⟨m, e, h1, -⟩ := (has_num32 ha).mul (has_num32 hb)
    rw [f32Fma, h1, num32_inf hc]; exact fdeliver_inf ..
  · have h0 : (Claims.value32 a * Claims.value32 b = 0) ↔ Claims.value32 c = 0 := by constructor <;> intro h1 <;> linarith
    rw [(f32Fma_fin ha hb hc).2 h, decide_eq_decide.mpr h0]; rfl

end Sys2Proof.Machine

namespace Sys2Proof.Machine

/-! ### The order of FP32 -/

theorem Num.lt_fin (a b : Bool) (m n : ℕ) (e f : ℤ) :
    (Num.fin a m e).lt (.fin b n f) = decide (sgn a * ((m : ℚ) * 2 ^ e) < sgn b * (n * 2 ^ f)) := by
  refine decide_eq_decide.mpr ?_
  rw [← signedAt_mul a m (min_le_left e f), ← signedAt_mul b n (min_le_right e f), mul_lt_mul_iff_left₀ (two_zpow_pos _), Int.cast_lt]

theorem Num.eqv_fin (a b : Bool) (m n : ℕ) (e f : ℤ) :
    (Num.fin a m e).eqv (.fin b n f) = decide (sgn a * ((m : ℚ) * 2 ^ e) = sgn b * (n * 2 ^ f)) := by
  refine (beq_eq_decide _ _).trans (decide_eq_decide.mpr ?_)
  rw [← signedAt_mul a m (min_le_left e f), ← signedAt_mul b n (min_le_right e f), mul_left_inj' (two_zpow_pos _).ne', Int.cast_inj]

/-- The place of a signed magnitude in the order of R15, in which -0 is below +0. -/
def signedOrder (s : Bool) (p : ℕ) : ℤ := if s then -1 - (p : ℤ) else p

theorem order32_eq_signedOrder (w : Word) : Claims.order32 w = signedOrder (w.getLsbD 31) (w.toNat % 2 ^ 31) := rfl

theorem sgn_mag_lt (f : FFmt) (s t : Bool) (p q : ℕ) : sgn s * f.mag p < sgn t * f.mag q ↔
    signedOrder s p < signedOrder t q ∧ (p ≠ 0 ∨ q ≠ 0) := by
  have hp := f.mag_nonneg p
  have hq := f.mag_nonneg q
  cases s <;> cases t <;> simp only [signedOrder, sgn_true, sgn_false, one_mul, neg_mul, neg_lt_neg_iff, f.mag_strictMono.lt_iff_lt, if_true, if_false,
    Bool.false_eq_true]
  · omega
  · exact iff_of_false (by linarith) (by omega)
  · have : -f.mag p < f.mag q ↔ ¬ (f.mag p = 0 ∧ f.mag q = 0) := by
      constructor
      · rintro h ⟨h1, h2⟩; linarith
      · intro h; by_contra h2; exact h ⟨by linarith, by linarith⟩
    rw [this, f.mag_eq_zero, f.mag_eq_zero]; omega
  · omega

theorem sgn_mag_eq (f : FFmt) (s t : Bool) (p q : ℕ) : sgn s * f.mag p = sgn t * f.mag q ↔
    signedOrder s p = signedOrder t q ∨ (p = 0 ∧ q = 0) := by
  have hp := f.mag_nonneg p
  have hq := f.mag_nonneg q
  have hz : f.mag p = -f.mag q ↔ p = 0 ∧ q = 0 := by
    rw [← f.mag_eq_zero, ← f.mag_eq_zero]
    constructor
    · intro h; exact ⟨by linarith, by linarith⟩
    · rintro ⟨h1, h2⟩; rw [h1, h2]; simp
  have hz' : -f.mag p = f.mag q ↔ p = 0 ∧ q = 0 := by rw [neg_eq_iff_eq_neg, hz]
  cases s <;> cases t <;> simp only [signedOrder, sgn_true, sgn_false, one_mul, neg_mul, f.mag_strictMono.injective.eq_iff, if_true, if_false,
    Bool.false_eq_true, hz, hz', neg_inj]
  · omega
  · omega
  · omega
  · omega

/-- The comparisons of words that are no NaN, by their encodings: the zeros are equal. -/
theorem num32_compare {a b : Word} (ha : Claims.nan32 a = false) (hb : Claims.nan32 b = false) :
    ((num32 a).lt (num32 b) = true ↔ Claims.order32 a < Claims.order32 b ∧ (a.toNat % 2 ^ 31 ≠ 0 ∨ b.toNat % 2 ^ 31 ≠ 0)) ∧
    ((num32 a).eqv (num32 b) = true ↔
      Claims.order32 a = Claims.order32 b ∨ (a.toNat % 2 ^ 31 = 0 ∧ b.toNat % 2 ^ 31 = 0)) := by
  have hval (w : Word) : Claims.value32 w = sgn (w.getLsbD 31) * fp32.mag (w.toNat % 2 ^ 31) := by
    rw [value32_eq, value_eq fp32 fp32_ok, getLsbD31]; rfl
  have hinf {w : Word} (h : Claims.inf32 w = true) : w.toNat % 2 ^ 31 = 0x7F800000 := by simpa [Claims.inf32] using h
  have hfin {w : Word} (h : Claims.fin32 w = true) : w.toNat % 2 ^ 31 < 0x7F800000 := by simpa [Claims.fin32] using h
  simp only [order32_eq_signedOrder]
  rcases word32_cases a with ⟨h1, -⟩ | ⟨-, h1, -, h2⟩ | ⟨-, -, h1, m, e, h2, h3⟩
  · simp [ha] at h1
  · rcases word32_cases b with ⟨g1, -⟩ | ⟨-, g1, -, g2⟩ | ⟨-, -, g1, n, f, g2, g3⟩
    · simp [hb] at g1
    · rw [h2, g2, hinf h1, hinf g1]
      cases a.getLsbD 31 <;> cases b.getLsbD 31 <;> simp [Num.lt, Num.eqv, signedOrder]
    · have := hfin g1
      rw [h2, g2, hinf h1]
      generalize b.toNat % 2 ^ 31 = q at this
      cases a.getLsbD 31 <;> cases b.getLsbD 31 <;> simp [Num.lt, Num.eqv, signedOrder] <;> omega
  · rcases word32_cases b with ⟨g1, -⟩ | ⟨-, g1, -, g2⟩ | ⟨-, -, g1, n, f, g2, g3⟩
    · simp [hb] at g1
    · have := hfin h1
      rw [h2, g2, hinf g1]
      generalize a.toNat % 2 ^ 31 = p at this
      cases a.getLsbD 31 <;> cases b.getLsbD 31 <;> simp [Num.lt, Num.eqv, signedOrder] <;> omega
    · rw [h2, g2, Num.lt_fin, Num.eqv_fin, ← h3, ← g3, hval a, hval b, decide_eq_true_iff, decide_eq_true_iff]
      exact ⟨sgn_mag_lt .., sgn_mag_eq ..⟩

/-- The order of FMIN and FMAX (R15): -0 is below +0. -/
theorem belowOrd_num32 {a b : Word} (ha : Claims.nan32 a = false) (hb : Claims.nan32 b = false) :
    belowOrd (num32 a) (num32 b) = true ↔ Claims.order32 a < Claims.order32 b := by
  obtain ⟨hlt, heq⟩ := num32_compare ha hb
  simp only [belowOrd, Bool.or_eq_true, Bool.and_eq_true, hlt, heq, isNeg_num32 ha, isNeg_num32 hb, Bool.not_eq_true',
    order32_eq_signedOrder]
  generalize a.toNat % 2 ^ 31 = p
  generalize b.toNat % 2 ^ 31 = q
  cases a.getLsbD 31 <;> cases b.getLsbD 31 <;> simp [signedOrder] <;> omega

theorem smallerAndLarger : Claims.SmallerAndLarger := by
  intro a b
  simp only [f32Min, f32Max, num32_isNan, Bool.and_eq_true]
  by_cases ha : Claims.nan32 a = true
  · by_cases hb : Claims.nan32 b = true <;> simp [ha, hb]
  · by_cases hb : Claims.nan32 b = true
    · simp [ha, hb]
    · have ha' : Claims.nan32 a = false := by simpa using ha
      have hb' : Claims.nan32 b = false := by simpa using hb
      simp [ha', hb', belowOrd_num32 ha' hb', belowOrd_num32 hb' ha']

/-- Settles O4: a result of finite operands is the one rounding of its exact value (`rounded32_round`); the special results and
the order of FMIN and FMAX are read off the encodings. -/
theorem floatValues : Obligations.FloatValues := ⟨roundedArithmetic, specialResults, smallerAndLarger⟩

end Sys2Proof.Machine

namespace Sys2Proof.Machine

open Sys2Proof.Safety

/-! ### Vectors -/

theorem vget_eq_getElem {α : Type} {n : ℕ} (v : Vector α n) (d : α) {i : ℕ} (h : i < n) : vget v d i = v[i] := by
  simp [vget, h]

theorem vget_vset {α : Type} {n : ℕ} (v : Vector α n) (d x : α) {i : ℕ} (j : ℕ) (h : i < n) :
    vget (vset v i x) d j = if j = i then x else vget v d j := by
  unfold vget vset
  by_cases hj : j = i
  · subst hj; simp [h]
  · simp [hj, Ne.symm hj]

/-- The flags of a list of results ORed together. -/
theorem getLsbD_foldl_or {α : Type} {w : ℕ} (g : α → BitVec w) (l : List α) (z : BitVec w) (b : ℕ) :
    (l.foldl (fun a x => a ||| g x) z).getLsbD b = true ↔ z.getLsbD b = true ∨ ∃ x ∈ l, (g x).getLsbD b = true := by
  induction l generalizing z with
  | nil => simp
  | cons y l ih => simp [ih, or_assoc]

theorem vector_foldl_eq {α β : Type} {n : ℕ} (v : Vector α n) (g : β → α → β) (z : β) : v.foldl g z = v.toList.foldl g z := by
  obtain ⟨a, rfl⟩ := v
  simp

/-! ### The elements a V word writes -/

theorem phys_lt (c : TCore) (n : BitVec 5) : c.phys n < 32 := by unfold TCore.phys; split <;> omega

theorem vget_vValues (old : VReg) (act : ℕ → Bool) (f : ℕ → Word × FFlags) {p : ℕ} (h : p < 512) :
    vget (vValues (vCompute old act f)) 0 p = if act p then (f p).1 else vget old 0 p := by
  rw [vget_eq_getElem _ _ h, vget_eq_getElem _ _ h]
  simp only [vValues, vCompute, Vector.getElem_map, Vector.getElem_ofFn, apply_ite Prod.fst]; rfl

theorem getLsbD_vFlags (old : VReg) (act : ℕ → Bool) (f : ℕ → Word × FFlags) (b : ℕ) :
    (vFlags (vCompute old act f)).getLsbD b = true ↔ ∃ p, p < 512 ∧ (if act p then (f p).2 else 0).getLsbD b = true := by
  have h0 : (0 : FFlags).getLsbD b = false := by simp
  rw [vFlags, vector_foldl_eq, getLsbD_foldl_or, h0]
  simp only [Bool.false_eq_true, false_or, Vector.mem_toList_iff, Vector.mem_iff_getElem]
  constructor
  · rintro ⟨-, ⟨p, hp, rfl⟩, h⟩
    refine ⟨p, hp, ?_⟩
    simpa only [vCompute, Vector.getElem_ofFn, apply_ite Prod.snd] using h
  · rintro ⟨p, hp, h⟩
    refine ⟨_, ⟨p, hp, rfl⟩, ?_⟩
    simpa only [vCompute, Vector.getElem_ofFn, apply_ite Prod.snd] using h

/-- What an iteration looks like after a word has written elements of register d. -/
theorem vWrite_spec (d : BitVec 5) (act : TCore → ℕ → Bool) (f : TCore → ℕ → Word × FFlags) (c : TCore) :
    (∀ p, p < 512 → vget ((vWrite d act f c).v d) 0 p = if act c p then (f c p).1 else vget (c.v d) 0 p) ∧
    (∀ n, c.phys n ≠ c.phys d → (vWrite d act f c).v n = c.v n) ∧
    (vWrite d act f c).regs = { c.regs with v := (vWrite d act f c).regs.v } ∧ (vWrite d act f c).q = c.q ∧
    (vWrite d act f c).csr = { c.csr with vflags := (vWrite d act f c).csr.vflags } ∧
    ∀ b, (vWrite d act f c).csr.vflags.getLsbD b = true ↔
      c.csr.vflags.getLsbD b = true ∨ ∃ p, p < 512 ∧ (if act c p then (f c p).2 else 0).getLsbD b = true := by
  have hv (n : BitVec 5) : (vWrite d act f c).v n =
      if c.phys n = c.phys d then vValues (vCompute (c.v d) (act c) (f c)) else c.v n := by
    have h1 : (vWrite d act f c).v n = vget (vset c.regs.v (c.phys d) (vValues (vCompute (c.v d) (act c) (f c)))) (Vector.replicate 512 0)
      (c.phys n) := rfl
    rw [h1, vget_vset _ _ _ _ (phys_lt c d)]; rfl
  refine ⟨fun p hp => ?_, fun n hn => by rw [hv, if_neg hn], rfl, rfl, rfl, fun b => ?_⟩
  · rw [hv, if_pos rfl, vget_vValues _ _ _ hp]
  · have h1 : (vWrite d act f c).csr.vflags = c.csr.vflags ||| vFlags (vCompute (c.v d) (act c) (f c)) := rfl
    rw [h1, BitVec.getLsbD_or, Bool.or_eq_true, getLsbD_vFlags]

/-! ### The step of a V word -/

/-- The state after a V word whose effect on its iteration is F. -/
def afterV (s : State) (pc : Dword) (F : TCore → TCore) : State :=
  walked s pc ((s.dev.onCore s.env.unit issueTick).onCore s.env.unit F) .v false (pc + 4) (.other .v)

theorem vWord_ok {s : State} {i : Instr} {f : At → Dev → Res Unit} {pc : Dword} {F : TCore → TCore} (h : Stands s .v pc false)
    (hf : f ⟨s.env.unit, .v, pc, false⟩ (s.dev.onCore s.env.unit issueTick) = .ok () ((s.dev.onCore s.env.unit issueTick).onCore s.env.unit F)) :
    vWord i f s = .next (afterV s pc F) :=
  run_v (f := fun _ => f) h hf

theorem issued_core (s : State) : ((s.dev.onCore s.env.unit issueTick).tile s.env.unit).core = issueTick (iter s) := by
  rw [Dev.tile_onCore, if_pos rfl]; rfl

theorem issueTick_q (c : TCore) : (issueTick c).q = c.q := by
  have hfold (g : TCore → Sfu → TCore) (hg : ∀ x r, (g x r).q = x.q) (l : List Sfu) (x : TCore) : (l.foldl g x).q = x.q := by
    induction l generalizing x with
    | nil => rfl
    | cons r l ih => rw [List.foldl_cons, ih, hg]
  unfold issueTick
  split
  · rfl
  · dsimp only; rw [hfold]; intros; rfl

/-- What the iteration is after a V word. -/
theorem afterV_iter (s : State) (pc : Dword) (F : TCore → TCore) :
    MemSame s (afterV s pc F) ∧ ((iter (afterV s pc F)).engine .v).pc = pc + 4 ∧
      (iter (afterV s pc F)).regs = (F (issueTick (iter s))).regs ∧ (iter (afterV s pc F)).q = (F (issueTick (iter s))).q ∧
      (iter (afterV s pc F)).csr = (F (issueTick (iter s))).csr := by
  have hF : (((s.dev.onCore s.env.unit issueTick).onCore s.env.unit F).tile s.env.unit).core = F (issueTick (iter s)) := by
    rw [Dev.tile_onCore, if_pos rfl, issued_core]
  have hc : iter (afterV s pc F) = _ :=
    walkTo_core ((s.dev.onCore s.env.unit issueTick).onCore s.env.unit F) ⟨s.env.unit, .v, pc, false⟩ (pc + 4) (.other .v) rfl
  rw [hc]
  simp only [hF]
  generalize F (issueTick (iter s)) = c
  exact ⟨fun a => by simp [afterV, walked, withDev], by simp [TCore.engine, TCore.onEng], rfl, rfl, rfl⟩

/-- The register a number names depends on the register file and VRB alone. -/
theorem v_congr {c e : TCore} (h1 : e.regs = c.regs) (h2 : e.csr = c.csr) (n : BitVec 5) : e.v n = c.v n := by
  unfold TCore.v TCore.phys; rw [h1, h2]

/-- The step of a word that writes elements of d and may change the queues (R165, R171, R175). -/
theorem vWrites_afterV {s : State} {pc : Dword} {d : BitVec 5} {act : TCore → ℕ → Bool} {f : TCore → ℕ → Word × FFlags} {F : TCore → TCore}
    {q : Queues} (hF : F (issueTick (iter s)) = vWrite d act f { issueTick (iter s) with q := q }) :
    Claims.VWrites s (afterV s pc F) pc d (act { issueTick (iter s) with q := q })
      (fun p => (f { issueTick (iter s) with q := q } p).1)
      (fun p => if act { issueTick (iter s) with q := q } p then (f { issueTick (iter s) with q := q } p).2 else 0) q := by
  obtain ⟨h1, h2, hr, hq, hc⟩ := afterV_iter s pc F
  obtain ⟨w1, w2, w3, w4, w5, w6⟩ := vWrite_spec d act f { issueTick (iter s) with q := q }
  rw [hF] at hr hq hc
  have hv := v_congr hr hc
  refine ⟨h1, h2, fun p hp => ?_, fun n hn => ?_, ?_, ?_, ?_, ?_, hq.trans w4, ?_, fun b => ?_⟩
  · rw [hv, w1 p hp]; rfl
  · rw [hv, w2 n hn]; rfl
  · rw [hr, w3]
  · rw [hr, w3]
  · rw [hr, w3]
  · rw [hr, w3]
  · rw [hc, w5]
  · rw [hc, w6]

/-- The same for a word that leaves the queues alone. -/
theorem vWrites_afterV_same (s : State) (pc : Dword) (d : BitVec 5) (act : TCore → ℕ → Bool) (f : TCore → ℕ → Word × FFlags) :
    Claims.VWrites s (afterV s pc (vWrite d act f)) pc d (act (issueTick (iter s))) (fun p => (f (issueTick (iter s)) p).1)
      (fun p => if act (issueTick (iter s)) p then (f (issueTick (iter s)) p).2 else 0) (iter s).q := by
  have hc : { issueTick (iter s) with q := (iter s).q } = issueTick (iter s) := by rw [← issueTick_q]
  have := vWrites_afterV (pc := pc) (d := d) (act := act) (f := f) (F := vWrite d act f) (q := (iter s).q) (congrArg _ hc.symm)
  rwa [hc] at this

end Sys2Proof.Machine

namespace Sys2Proof.Machine

open Sys2Proof.Safety

/-! ### The two-source words of V -/

/-- A two-source word whose operands pass the checks (R165 to R167, R171, R179). -/
theorem vBin_writes {s : State} {pc : Dword} (i : Instr) (d a b : VOp) (m : Bool) (g : Word → Word → Word → Word × FFlags)
    (h : Stands s .v pc false) (hd : (issueTick (iter s)).dirBad (class2 a.dir b.dir) d.dir [a.dir, b.dir] = none) :
    let c := issueTick (iter s)
    let act (p : Nat) : Bool := c.active d.dir [a.dir, b.dir] (c.wordMask m) p
    let r (p : Nat) : Word × FFlags := g (c.src a p) (c.src b p) (vget (c.v d.reg) 0 p)
    ∃ t, vBin i d a b m g s = .next t ∧
      Claims.VWrites s t pc d.reg act (fun p => (r p).1) (fun p => if act p then (r p).2 else 0) (iter s).q := by
  intro c act r
  refine ⟨_, vWord_ok h (F := vWrite d.reg (fun c => c.active d.dir [a.dir, b.dir] (c.wordMask m))
    fun c p => g (c.src a p) (c.src b p) (vget (c.v d.reg) 0 p)) ?_, vWrites_afterV_same ..⟩
  simp only [vElem, issued_core, hd]

theorem maxI_eq (x y : Word) : maxI x y = if x.toInt ≤ y.toInt then y else x := by
  unfold maxI
  by_cases h1 : x.toInt ≤ y.toInt
  · by_cases h2 : y.toInt ≤ x.toInt
    · rw [if_pos h2, if_pos h1, BitVec.eq_of_toInt_eq (le_antisymm h1 h2)]
    · rw [if_neg h2, if_pos h1]
  · rw [if_pos (le_of_not_ge h1), if_neg h1]

theorem add_eq_ofInt (x y : Word) : x + y = BitVec.ofInt 32 (x.toInt + y.toInt) := by simp [BitVec.ofInt_add]
theorem sub_eq_ofInt (x y : Word) : x - y = BitVec.ofInt 32 (x.toInt - y.toInt) := by
  rw [Int.sub_eq_add_neg, BitVec.ofInt_add, BitVec.ofInt_neg, BitVec.ofInt_toInt, BitVec.ofInt_toInt, BitVec.sub_eq_add_neg]
theorem mul_eq_ofInt (x y : Word) : x * y = BitVec.ofInt 32 (x.toInt * y.toInt) := by simp [BitVec.ofInt_mul]
theorem shl_eq_ofNat (x : Word) (n : ℕ) : x <<< n = BitVec.ofNat 32 (x.toNat * 2 ^ n) := by
  apply BitVec.eq_of_toNat_eq; simp [Nat.shiftLeft_eq]
theorem shr_eq_ofNat (x : Word) (n : ℕ) : x >>> n = BitVec.ofNat 32 (x.toNat / 2 ^ n) := by
  apply BitVec.eq_of_toNat_eq
  rw [BitVec.toNat_ushiftRight, Nat.shiftRight_eq_div_pow, BitVec.toNat_ofNat,
    Nat.mod_eq_of_lt ((Nat.div_le_self ..).trans_lt x.isLt)]
theorem sar_eq_ofInt (x : Word) (n : ℕ) : x.sshiftRight n = BitVec.ofInt 32 (x.toInt / 2 ^ n) := by
  have h : x.toInt / 2 ^ n = x.toInt >>> n := by rw [Int.shiftRight_eq_div_pow]; push_cast; rfl
  rw [h, ← BitVec.toInt_sshiftRight, BitVec.ofInt_toInt]

theorem vectorTwoSourceWords : Claims.VectorTwoSourceWords := by
  intro i s pc d a b m g hs hmem c hd
  suffices he : exec i s = vBin i d a b m g s by
    rw [he]; exact vBin_writes i d a b m g hs hd
  simp only [List.mem_cons, List.not_mem_nil, or_false, Prod.mk.injEq] at hmem
  rcases hmem with h | h | h | h | h | h | h | h | h | h | h | h | h | h | h | h | h | h | h | h | h | h | h | h | h <;>
    obtain ⟨rfl, rfl⟩ := h
  · rfl
  · rfl
  · rfl
  · rfl
  · rfl
  · rfl
  · rfl
  · rfl
  · rfl
  · rfl
  · rfl
  · rfl
  · rfl
  · rfl
  · simp only [← add_eq_ofInt]; rfl
  · simp only [← sub_eq_ofInt]; rfl
  · simp only [← mul_eq_ofInt]; rfl
  · rfl
  · simp only [← maxI_eq]; rfl
  · rfl
  · rfl
  · rfl
  · simp only [← shl_eq_ofNat]; rfl
  · simp only [← shr_eq_ofNat]; rfl
  · simp only [← sar_eq_ofInt]; rfl

/-! ### BF16 results -/

theorem FFmt.conv_lt {f : FFmt} (hf : f.Ok) (hi : f.infB < f.sign) (hn : f.nanB < f.sign) (r : Rnd) (sat : Bool) (x : Num) :
    (f.conv r sat x).1 < 2 * f.sign := by
  have hz : 0 < f.sign := by omega
  cases x with
  | nan => exact hn.trans_le (by omega)
  | inf neg =>
    simp only [FFmt.conv]
    split
    · exact f.withSign_lt neg hf.max_lt
    · exact f.withSign_lt neg hi
  | fin neg m e =>
    by_cases hm : m = 0
    · subst hm; exact f.withSign_lt neg hz
    · by_cases ho : Claims.OutOfRange f r (sgn neg * (m * 2 ^ e))
      · rw [FFmt.conv, FFmt.round_over hf r sat neg hm e ho, f.over_eq]
        split
        · exact f.withSign_lt neg hf.max_lt
        · exact f.withSign_lt neg hi
      · obtain ⟨b, hb, hr, -⟩ := FFmt.round_spec hf r sat neg hm e ho
        rw [FFmt.conv, hr]; exact f.withSign_lt neg (hb.trans_lt hf.max_lt)

theorem bfArg_toNat (w : Word) : (bfArg w).toNat = w.toNat / 65536 * 65536 := by
  have hmask : ∀ i < 32, (0xFFFF0000 : Word).getLsbD i = decide (16 ≤ i) := by decide
  have h : bfArg w = w >>> 16 <<< 16 := by
    refine BitVec.eq_of_getLsbD_eq fun i hi => ?_
    rw [bfArg, BitVec.getLsbD_and, hmask i hi, BitVec.getLsbD_shiftLeft, BitVec.getLsbD_ushiftRight]
    by_cases h16 : 16 ≤ i
    · simp [h16, hi, show ¬ i < 16 by omega]
    · simp [h16, show i < 16 by omega]
  rw [h, BitVec.toNat_shiftLeft, BitVec.toNat_ushiftRight, Nat.shiftLeft_eq, Nat.shiftRight_eq_div_pow]
  have := w.isLt
  omega

theorem bfValues : Claims.BfValues := by
  intro w a b c f
  refine ⟨⟨_, _, rfl, FFmt.conv_lt bf16_ok (by decide) (by decide) .rne false (num32 w), converted_conv bf16_ok .rne false w⟩,
    bfArg_toNat w, fun ha hb hc h => f32Fms_fin ha hb hc h⟩

/-- Settles O28: every two-source word is `vBin` of its function (`vBin_writes`), and a BF16 result is the FP32 result converted
once more (`converted_conv`). -/
theorem vectorArithmetic : Obligations.VectorArithmetic := ⟨vectorTwoSourceWords, bfValues⟩

end Sys2Proof.Machine

namespace Sys2Proof.Machine

open Sys2Proof.Safety

/-! ### Reductions -/

theorem canon32_eq (x : Word) : canon32 x = if Claims.nan32 x = true then 0x7FC00000 else x := by rw [canon32, num32_isNan]

theorem active_all (c : TCore) (d : Dir) {p : ℕ} (h : p < 512) :
    c.active d [] (BitVec.allOnes 512) p = (c.inShape p && c.inDir d p) := by
  rw [TCore.active, BitVec.getLsbD_allOnes]
  simp [h]

/-- Values that raise nothing leave VFLAGS alone. -/
theorem vWrite_quiet_vflags (d : BitVec 5) (act : TCore → ℕ → Bool) (f : TCore → ℕ → Word) (c : TCore) :
    (vWrite d act (fun c p => quiet (f c p)) c).csr.vflags = c.csr.vflags := by
  obtain ⟨-, -, -, -, -, w⟩ := vWrite_spec d act (fun c p => quiet (f c p)) c
  refine BitVec.eq_of_getLsbD_eq fun b _ => Bool.eq_iff_iff.mpr ?_
  rw [w b]
  simp only [quiet, ite_self]
  simp

/-- How many values a reduction along an axis gives. -/
def redCount (c : TCore) (x : Bool) : ℕ := if x then c.csr.cols.toNat else c.csr.rows.toNat

/-- The reduced value of row or column o. -/
def redAt (c : TCore) (a : VOp) (x m : Bool) (fin : Word → Word) (g : Word → Word → Word × FFlags) (z : Word) (o : ℕ) : Word × FFlags :=
  redFold fin g z (redElems c a x m o)

/-- The reduced values of an iteration, one after the other. -/
def redAll (c : TCore) (a : VOp) (x m : Bool) (fin : Word → Word) (g : Word → Word → Word × FFlags) (z : Word) : List (Word × FFlags) :=
  (List.range (redCount c x)).map (redAt c a x m fin g z)

/-- The iteration after a reduction. -/
def redCore (d a : VOp) (x m : Bool) (fin : Word → Word) (g : Word → Word → Word × FFlags) (z : Word) (c : TCore) : TCore :=
  (vWrite d.reg (fun c => c.active d.dir [] (BitVec.allOnes 512))
    (fun _ p => quiet (((redAll c a x m fin g z)[if x then p % 16 else p / 16]?).getD (0, 0)).1) c).raise
    ((redAll c a x m fin g z).foldl (fun f x => f ||| x.2) 0)

section
variable (d a : VOp) (x m : Bool) (fin : Word → Word) (g : Word → Word → Word × FFlags) (z : Word)

theorem vRed_ok (i : Instr) (at_ : At) (dv : Dev) (ha : a.dir = .whole) (hc : ((dv.tile at_.t).core).cursorOk d.dir = true)
    (hd : redDest x d.dir = true) :
    vRed i d a x m fin g z at_ dv = .ok () (dv.onCore at_.t (redCore d a x m fin g z)) := by
  unfold vRed
  simp only [ha, hc, hd, bne_self_eq_false, Bool.not_true, Bool.false_eq_true, if_false]
  rfl

/-- The value of a row or column goes to every position of it that d names. -/
theorem redAll_get (c : TCore) {o : ℕ} (h : o < redCount c x) : ((redAll c a x m fin g z)[o]?).getD (0, 0) = redAt c a x m fin g z o := by
  simp [redAll, h]

theorem redCount_of_inShape {c : TCore} {p : ℕ} (h : c.inShape p = true) : (if x then p % 16 else p / 16) < redCount c x := by
  simp only [TCore.inShape, Bool.and_eq_true, decide_eq_true_eq] at h
  cases x
  · exact h.1
  · exact h.2

theorem redCore_spec (c : TCore) :
    (∀ p, p < 512 → vget ((redCore d a x m fin g z c).v d.reg) 0 p =
      if c.inShape p && c.inDir d.dir p then (redAt c a x m fin g z (if x then p % 16 else p / 16)).1 else vget (c.v d.reg) 0 p) ∧
    (∀ n, c.phys n ≠ c.phys d.reg → (redCore d a x m fin g z c).v n = c.v n) ∧ (redCore d a x m fin g z c).regs.k = c.regs.k ∧
    ∀ b, (redCore d a x m fin g z c).csr.vflags.getLsbD b = true ↔ c.csr.vflags.getLsbD b = true ∨
      ∃ o, o < redCount c x ∧ (redAt c a x m fin g z o).2.getLsbD b = true := by
  obtain ⟨w1, w2, -, -, -, -⟩ := vWrite_spec d.reg (fun c => c.active d.dir [] (BitVec.allOnes 512))
    (fun _ p => quiet (((redAll c a x m fin g z)[if x then p % 16 else p / 16]?).getD (0, 0)).1) c
  refine ⟨fun p hp => ?_, w2, rfl, fun b => ?_⟩
  · refine (w1 p hp).trans ?_
    rw [active_all c d.dir hp]
    by_cases hs : c.inShape p = true
    · rw [redAll_get a x m fin g z c (redCount_of_inShape x hs)]; rfl
    · simp [hs]
  · simp only [redCore, TCore.raise, vWrite_quiet_vflags]
    rw [BitVec.getLsbD_or, Bool.or_eq_true, getLsbD_foldl_or]
    simp [redAll]

/-- A reduction whose operands pass the checks (R182, R183). -/
theorem vRed_writes {s : State} {pc : Dword} (i : Instr) (h : Stands s .v pc false) (ha : a.dir = .whole)
    (hc : (issueTick (iter s)).cursorOk d.dir = true) (hd : redDest x d.dir = true) :
    let c := issueTick (iter s)
    ∃ u, vWord i (vRed i d a x m fin g z) s = .next u ∧ MemSame s u ∧ ((iter u).engine .v).pc = pc + 4 ∧
      (∀ p, p < 512 → vget ((iter u).v d.reg) 0 p =
        if c.inShape p && c.inDir d.dir p then (redAt c a x m fin g z (if x then p % 16 else p / 16)).1 else vget (c.v d.reg) 0 p) ∧
      (∀ n, c.phys n ≠ c.phys d.reg → (iter u).v n = c.v n) ∧ (iter u).regs.k = c.regs.k ∧
      ∀ b, (iter u).csr.vflags.getLsbD b = true ↔ c.csr.vflags.getLsbD b = true ∨
        ∃ o, o < redCount c x ∧ (redAt c a x m fin g z o).2.getLsbD b = true := by
  intro c
  obtain ⟨h1, h2, h3, -, h4⟩ := afterV_iter s pc (redCore d a x m fin g z)
  obtain ⟨r1, r2, r3, r4⟩ := redCore_spec d a x m fin g z c
  have hv := v_congr h3 h4
  refine ⟨_, vWord_ok h (F := redCore d a x m fin g z) ?_, h1, h2, fun p hp => ?_, fun n hn => ?_, by rw [h3]; exact r3, fun b => ?_⟩
  · exact vRed_ok d a x m fin g z i _ _ ha (by rw [issued_core]; exact hc) hd
  · rw [hv]; exact r1 p hp
  · rw [hv]; exact r2 n hn
  · rw [h4]; exact r4 b

end

/-- The claims' reduced value: the fold of the elements, before a NaN becomes the canonical one. -/
theorem redAt_eq (c : TCore) (a : VOp) (x m : Bool) (fin : Word → Word) (g : Word → Word → Word × FFlags) (z : Word) (hz : fin z = z)
    (o : ℕ) : redAt c a x m fin g z o = (fin (redAt c a x m id g z o).1, (redAt c a x m id g z o).2) := by
  simp only [redAt]
  cases redElems c a x m o with
  | nil => simp [redFold, hz]
  | cons y r => rfl

/-- How a reduction delivers a value: an FP32 one makes a NaN canonical (log entry 80). -/
def redFin (t : Bool) : Word → Word := if t then id else canon32

theorem redFin_eq (t : Bool) (x : Word) : redFin t x = if t = false ∧ Claims.nan32 x = true then 0x7FC00000 else x := by
  cases t
  · simp [redFin, canon32_eq]
  · simp [redFin]

/-- The two reductions are `vRed` of their functions and their values of an empty reduction (R182). -/
theorem exec_reduction {i : Instr} {d a : VOp} {t x m : Bool} {g : Word → Word → Word × FFlags} {z : Word}
    (h : (i, g, z) ∈ [
      (Instr.vredsum d a t x m, fun u v => if t then (BitVec.ofInt 32 (u.toInt + v.toInt), 0) else f32Add u v, 0),
      (.vredmax d a t x m, fun u v => if t then (if u.toInt ≤ v.toInt then v else u, 0) else f32Max u v,
        if t then 0x80000000 else 0xFF800000)]) (s : State) :
    exec i s = vWord i (vRed i d a x m (redFin t) g z) s ∧ redFin t z = z := by
  simp only [List.mem_cons, List.not_mem_nil, or_false, Prod.mk.injEq] at h
  rcases h with ⟨rfl, rfl, rfl⟩ | ⟨rfl, rfl, rfl⟩
  · simp only [← add_eq_ofInt]
    cases t <;> exact ⟨rfl, by decide⟩
  · simp only [← maxI_eq]
    cases t <;> exact ⟨rfl, by decide⟩

theorem reductions : Claims.Reductions := by
  intro i s pc d a t x m g z hs hmem c ha hc hrow hcol elems red value
  have hd : redDest x d.dir = true := by
    cases h : d.dir
    · rfl
    · simpa [redDest] using hrow h
    · simpa [redDest] using hcol (.inl h)
    · simpa [redDest] using hcol (.inr h)
  obtain ⟨he, hz⟩ := exec_reduction hmem s
  have hred (o : ℕ) : redAt c a x m (redFin t) g z o = (value o, (red o).2) := by
    rw [redAt_eq c a x m (redFin t) g z hz o, redFin_eq]; rfl
  rw [he]
  obtain ⟨u, h1, h2, h3, h4, h5, h6, h7⟩ := vRed_writes d a x m (redFin t) g z i hs ha hc hd
  refine ⟨u, h1, h2, h3, fun p hp => ?_, h5, h6, fun b => ?_⟩
  · rw [h4 p hp, hred]
  · rw [h7 b]; exact or_congr_right (exists_congr fun o => by rw [hred]; rfl)

/-! ### Moves -/

/-- A word on whole operands that pass its own check. -/
theorem vWhole_ok (i : Instr) (ops : List VOp) (own : TCore → Option Nat) (f : TCore → TCore) (at_ : At) (dv : Dev)
    (ho : ∀ o ∈ ops, o.dir = .whole) (hc : own (dv.tile at_.t).core = none) :
    vWhole i ops own f at_ dv = .ok () (dv.onCore at_.t f) := by
  have h : ops.any (·.dir != .whole) = false := by
    rw [List.any_eq_false]; intro o h; simp [ho o h]
  simp [vWhole, h, hc]

/-- A word on whole operands that writes elements of d and raises nothing. -/
theorem vWhole_writes {s : State} {pc : Dword} (i : Instr) (d a : VOp) (own : TCore → Option Nat) (act : TCore → ℕ → Bool)
    (f : TCore → ℕ → Word) (h : Stands s .v pc false) (hd : d.dir = .whole) (ha : a.dir = .whole)
    (hc : own (issueTick (iter s)) = none) :
    ∃ t, vWord i (vWhole i [d, a] own (vWrite d.reg act fun c p => quiet (f c p))) s = .next t ∧
      Claims.VWrites s t pc d.reg (act (issueTick (iter s))) (f (issueTick (iter s))) (fun _ => 0) (iter s).q := by
  refine ⟨_, vWord_ok h (vWhole_ok i _ own _ _ _ (by simp [hd, ha]) (by rw [issued_core]; exact hc)), ?_⟩
  have := vWrites_afterV_same s pc d.reg act fun c p => quiet (f c p)
  simpa only [quiet, ite_self] using this

theorem shiftFrom_eq (f : Bool) (k : ℤ) (n x : ℕ) : shiftFrom f k n x =
    if f = true ∨ (0 ≤ (x : ℤ) - k ∧ (x : ℤ) - k < n) then some (((x : ℤ) - k) % n).toNat else none := by
  unfold shiftFrom
  cases f
  · by_cases h : 0 ≤ (x : ℤ) - k ∧ (x : ℤ) - k < n
    · simp only [Bool.false_eq_true, if_false, if_pos h, false_or, Int.emod_eq_of_lt h.1 h.2]
    · simp only [Bool.false_eq_true, if_false, if_neg h, false_or]
  · simp

/-- The element that VSHIFT moves to element p (R185). -/
def shiftedElem (a : VOp) (x f : Bool) (k : ℤ) (c : TCore) (p : ℕ) : Word :=
  if x then (shiftFrom f k c.csr.rows.toNat (p / 16)).elim 0 fun y => vget (c.v a.reg) 0 (16 * y + p % 16)
  else (shiftFrom f k c.csr.cols.toNat (p % 16)).elim 0 fun y => vget (c.v a.reg) 0 (p / 16 * 16 + y)

theorem exec_vshift (d a : VOp) (x f : Bool) (k : BitVec 6) (s : State) : exec (.vshift d a x f k) s =
    vWord (.vshift d a x f k) (vWhole (.vshift d a x f k) [d, a] (fun _ => none)
      (vWrite d.reg (fun c p => c.inShape p) fun c p => quiet (shiftedElem a x f k.toInt c p))) s := by
  refine congrArg (fun g => vWord (.vshift d a x f k) (vWhole (.vshift d a x f k) [d, a] (fun _ => none)
    (vWrite d.reg (fun c p => c.inShape p) g)) s) (funext fun c => funext fun p => congrArg quiet ?_)
  unfold shiftedElem
  cases x
  · cases shiftFrom f k.toInt c.csr.cols.toNat (p % 16) <;> rfl
  · cases shiftFrom f k.toInt c.csr.rows.toNat (p / 16) <;> rfl

theorem exec_vtrans (d a : VOp) (s : State) : exec (.vtrans d a) s =
    vWord (.vtrans d a) (vWhole (.vtrans d a) [d, a]
      (fun c => if c.csr.cols = 16 && (c.csr.rows = 16 || c.csr.rows = 32) then none else some 4)
      (vWrite d.reg (fun c p => decide (p / 16 < c.csr.rows.toNat))
        fun c p => quiet (vget (c.v a.reg) 0 (p / 256 * 256 + p % 16 * 16 + p / 16 % 16)))) s := rfl

theorem transposeAndShift : Claims.TransposeAndShift := by
  intro s pc d a x f k hs hd ha c e
  constructor
  · intro hcols hrows
    rw [exec_vtrans]
    have he (p : ℕ) : e (p / 256 * 16 + p % 16) (p / 16 % 16) = vget (c.v a.reg) 0 (p / 256 * 256 + p % 16 * 16 + p / 16 % 16) := by
      show vget _ 0 _ = _
      congr 1; ring
    simp only [he]
    refine vWhole_writes _ d a _ _ _ hs hd ha (if_pos ?_)
    simpa only [Bool.and_eq_true, Bool.or_eq_true, decide_eq_true_eq] using ⟨hcols, hrows⟩
  · rw [exec_vshift]
    obtain ⟨t, h1, h2⟩ := vWhole_writes (.vshift d a x f k) d a (fun _ => none) (fun c p => c.inShape p)
      (fun c p => shiftedElem a x f k.toInt c p) hs hd ha rfl
    refine ⟨t, h1, ?_⟩
    convert h2 using 2 with p
    cases x
    · simp only [shiftedElem, shiftFrom_eq, Bool.false_eq_true, if_false]
      split
      · show vget _ 0 _ = vget _ 0 _
        congr 1; ring
      · rfl
    · simp only [shiftedElem, shiftFrom_eq, if_true]
      split <;> rfl

/-- Settles O32: a reduction is `vRed` of its function, whose values are folds of the claims' elements (`redCore_spec`); VTRANS and
VSHIFT are words on whole operands (`vWhole_writes`). -/
theorem reductionsAndMoves : Obligations.ReductionsAndMoves := ⟨reductions, transposeAndShift⟩

end Sys2Proof.Machine

namespace Sys2Proof.Machine

open Sys2Proof.Safety

/-! ### Unpacking -/

theorem vField_one (r : VReg) (b n : ℕ) : vField r b 1 n = vByte r (b + n) := by simp [vField]

theorem vField_two (r : VReg) (b n : ℕ) : vField r b 2 n = vByte r (b + 2 * n) + 256 * vByte r (b + 2 * n + 1) := by
  simp [vField, List.range_succ, mul_comm]

/-- A word that is an unpack of a function of the elements writes every element of d (R187). -/
theorem unpack_writes {s : State} {pc : Dword} {i : Instr} {d a : VOp} (f : TCore → ℕ → Word × FFlags) {r : ℕ → Word × FFlags}
    (h : Stands s .v pc false) (hd : d.dir = .whole) (ha : a.dir = .whole) (he : exec i s = vWord i (vUnpack i d a f) s)
    (hr : ∀ j, f (issueTick (iter s)) j = r j) :
    ∃ t, exec i s = .next t ∧ Claims.VWrites s t pc d.reg (fun _ => true) (fun j => (r j).1) (fun j => (r j).2) (iter s).q := by
  obtain rfl : f (issueTick (iter s)) = r := funext hr
  rw [he]
  refine ⟨_, vWord_ok h (vWhole_ok i _ (fun _ => none) (vWrite d.reg (fun _ _ => true) f) _ _ (by simp [hd, ha]) rfl), ?_⟩
  simpa only [if_true] using vWrites_afterV_same s pc d.reg (fun _ _ => true) f

theorem unpackWords : Claims.UnpackWords := by
  intro i s pc d a sc p r hs hd ha c byte hmem
  simp only [List.mem_cons, List.not_mem_nil, or_false, Prod.mk.injEq] at hmem
  rcases hmem with ⟨rfl, rfl⟩ | ⟨rfl, rfl⟩ | ⟨rfl, rfl⟩ | ⟨rfl, rfl⟩ | ⟨rfl, rfl⟩
  · exact unpack_writes (fun c j => quiet (BitVec.ofNat 32 (fp32.result (e4m3.dec (vField (c.v a.reg) (512 * p.toNat) 1 j))).1))
      hs hd ha rfl fun j => by rw [vField_one]; rfl
  · exact unpack_writes (fun c j => quiet (BitVec.ofNat 32 (fp32.result (e5m2.dec (vField (c.v a.reg) (512 * p.toNat) 1 j))).1))
      hs hd ha rfl fun j => by rw [vField_one]; rfl
  · exact unpack_writes (fun c j => quiet ((BitVec.ofNat 8 (vField (c.v a.reg) (512 * p.toNat) 1 j)).signExtend 32))
      hs hd ha rfl fun j => by rw [vField_one]; rfl
  · exact unpack_writes (fun c j => quiet (BitVec.ofNat 32 (fp32.result (fp16.dec (vField (c.v a.reg) (1024 * p.toNat) 2 j))).1))
      hs hd ha rfl fun j => by rw [vField_two]; rfl
  · exact unpack_writes (fun c j =>
      let q := vByte (c.v a.reg) (256 * p.toNat + j / 2) / 16 ^ (j % 2) % 16
      let x := num32 (vget (c.v sc) 0 (j / 64))
      fdeliver [gq4Level q, x] ((gq4Level q).mul x)) hs hd ha rfl fun j => rfl

/-! ### Packing -/

/-- A word of converted fields: k of w bytes each. -/
def packWord (w : ℕ) (v : ℕ → ℕ) (old : ℕ) : ℕ := (List.range (4 / w)).foldl (fun acc k => putBits acc (8 * w * k) (8 * w) (v k)) old

theorem putBits_byte (x v : ℕ) (h : x < 2 ^ 32) :
    putBits x 0 8 v = x / 256 * 256 + v % 256 ∧ putBits x 8 8 v = x / 65536 * 65536 + v % 256 * 256 + x % 256 ∧
      putBits x 16 8 v = x / 16777216 * 16777216 + v % 256 * 65536 + x % 65536 ∧
      putBits x 24 8 v = v % 256 * 16777216 + x % 16777216 := by
  simp only [putBits, Nat.reducePow, Nat.div_one, Nat.mul_one]
  refine ⟨?_, ?_, ?_, ?_⟩ <;> omega

theorem packWord_one (v : ℕ → ℕ) {old : ℕ} (h : old < 2 ^ 32) :
    packWord 1 v old = v 0 % 256 + 256 * (v 1 % 256) + 65536 * (v 2 % 256) + 16777216 * (v 3 % 256) := by
  have hw : packWord 1 v old = putBits (putBits (putBits (putBits old 0 8 (v 0)) 8 8 (v 1)) 16 8 (v 2)) 24 8 (v 3) := by
    rw [packWord, show List.range (4 / 1) = [0, 1, 2, 3] by decide, List.foldl_cons, List.foldl_cons, List.foldl_cons, List.foldl_cons,
      List.foldl_nil]
  rw [hw]
  have h1 := (putBits_byte old (v 0) h).1
  generalize putBits old 0 8 (v 0) = x1 at h1
  have h2 := (putBits_byte x1 (v 1) (by omega)).2.1
  generalize putBits x1 8 8 (v 1) = x2 at h2
  have h3 := (putBits_byte x2 (v 2) (by omega)).2.2.1
  generalize putBits x2 16 8 (v 2) = x3 at h3
  rw [(putBits_byte x3 (v 3) (by omega)).2.2.2]
  omega

theorem packWord_two (v : ℕ → ℕ) {old : ℕ} (h : old < 2 ^ 32) : packWord 2 v old = v 0 % 65536 + 65536 * (v 1 % 65536) := by
  simp only [packWord, Nat.reduceDiv, List.range_succ, List.range_zero, List.nil_append, List.cons_append, List.foldl_cons, List.foldl_nil,
    putBits, Nat.mul_one, Nat.mul_zero, Nat.reduceMul, Nat.reducePow, Nat.div_one]
  omega

/-- Byte n of a word of converted fields: byte n mod w of the field that it lies in. -/
theorem packWord_byte {w : ℕ} (hw : w = 1 ∨ w = 2) (v : ℕ → ℕ) {old n : ℕ} (h : old < 2 ^ 32) (hn : n < 4) :
    packWord w v old < 2 ^ 32 ∧ packWord w v old / 256 ^ n % 256 = v (n / w) / 256 ^ (n % w) % 256 := by
  rcases hw with rfl | rfl
  · rw [packWord_one v h]
    refine ⟨by omega, ?_⟩
    interval_cases n <;> simp only [Nat.reducePow, Nat.reduceMod, Nat.div_one] <;> omega
  · rw [packWord_two v h]
    refine ⟨by omega, ?_⟩
    interval_cases n <;> simp only [Nat.reducePow, Nat.reduceDiv, Nat.reduceMod, Nat.div_one] <;> omega

/-- The elements of a, converted. -/
def packed (conv : Num → ℕ × FFlags) (c : TCore) (a : VOp) : Vector (ℕ × FFlags) 512 := (c.v a.reg).map fun x => conv (num32 x)

theorem packed_get (conv : Num → ℕ × FFlags) (c : TCore) (a : VOp) {j : ℕ} (h : j < 512) :
    vget (packed conv c a) (0, 0) j = conv (num32 (vget (c.v a.reg) 0 j)) := by
  rw [vget_eq_getElem _ _ h, vget_eq_getElem _ _ h, packed, Vector.getElem_map]

/-- The iteration after a pack word (R188). -/
def packCore (d a : VOp) (w base : ℕ) (conv : Num → ℕ × FFlags) (c0 : TCore) : TCore :=
  (vWrite d.reg (fun _ p => decide (base ≤ 4 * p) && decide (4 * p < base + 512 * w))
    (fun c p => quiet (BitVec.ofNat 32
      (packWord w (fun k => (vget (packed conv c0 a) (0, 0) ((4 * p - base) / w + k)).1) (vget (c.v d.reg) 0 p).toNat))) c0).raise
    ((packed conv c0 a).foldl (fun f x => f ||| x.2) 0)

section
variable (d a : VOp) (w base : ℕ) (conv : Num → ℕ × FFlags)

theorem vPack_ok (i : Instr) (at_ : At) (dv : Dev) (hd : d.dir = .whole) (ha : a.dir = .whole) :
    vPack i d a w base conv at_ dv = .ok () (dv.onCore at_.t (packCore d a w base conv)) :=
  vWhole_ok i [d, a] (fun _ => none) _ at_ dv (by simp [hd, ha]) rfl

theorem packCore_vflags (c : TCore) (b : ℕ) : (packCore d a w base conv c).csr.vflags.getLsbD b = true ↔
    c.csr.vflags.getLsbD b = true ∨ ∃ j, j < 512 ∧ (conv (num32 (vget (c.v a.reg) 0 j))).2.getLsbD b = true := by
  have h0 : (0 : FFlags).getLsbD b = false := by simp
  simp only [packCore, TCore.raise, vWrite_quiet_vflags]
  rw [BitVec.getLsbD_or, Bool.or_eq_true, vector_foldl_eq, getLsbD_foldl_or, h0]
  simp only [Bool.false_eq_true, false_or, Vector.mem_toList_iff, Vector.mem_iff_getElem]
  refine or_congr_right ⟨?_, ?_⟩
  · rintro ⟨-, ⟨j, hj, rfl⟩, h⟩
    exact ⟨j, hj, by rwa [← packed_get conv c a hj, vget_eq_getElem _ _ hj]⟩
  · rintro ⟨j, hj, h⟩
    exact ⟨_, ⟨j, hj, rfl⟩, by rwa [← packed_get conv c a hj, vget_eq_getElem _ _ hj] at h⟩

/-- A byte of a register that a pack word has written. -/
theorem packCore_byte (hw : w = 1 ∨ w = 2) (hb : base % 4 = 0) (c : TCore) {n : ℕ} (hn : n < 2048) :
    vByte ((packCore d a w base conv c).v d.reg) n =
      if base ≤ n ∧ n < base + 512 * w then (conv (num32 (vget (c.v a.reg) 0 ((n - base) / w)))).1 / 256 ^ ((n - base) % w) % 256
      else vByte (c.v d.reg) n := by
  have hp : n / 4 < 512 := by omega
  obtain ⟨w1, -⟩ := vWrite_spec d.reg (fun _ p => decide (base ≤ 4 * p) && decide (4 * p < base + 512 * w))
    (fun c' p => quiet (BitVec.ofNat 32
      (packWord w (fun k => (vget (packed conv c a) (0, 0) ((4 * p - base) / w + k)).1) (vget (c'.v d.reg) 0 p).toNat))) c
  have hv := w1 (n / 4) hp
  rw [vByte]
  refine (congrArg (fun x : Word => x.toNat / 256 ^ (n % 4) % 256) hv).trans ?_
  by_cases hin : base ≤ n ∧ n < base + 512 * w
  · have hact : (decide (base ≤ 4 * (n / 4)) && decide (4 * (n / 4) < base + 512 * w)) = true := by
      simp only [Bool.and_eq_true, decide_eq_true_eq]; omega
    obtain ⟨h1, h2⟩ := packWord_byte hw (fun k => (vget (packed conv c a) (0, 0) ((4 * (n / 4) - base) / w + k)).1) (n := n % 4)
      (vget (c.v d.reg) 0 (n / 4)).isLt (by omega)
    rw [if_pos hin, if_pos hact]
    rw [show ∀ x : Word, (quiet x).1 = x from fun _ => rfl, BitVec.toNat_ofNat, Nat.mod_eq_of_lt h1, h2]
    have hi : (4 * (n / 4) - base) / w + n % 4 / w = (n - base) / w ∧ n % 4 % w = (n - base) % w := by
      rcases hw with rfl | rfl <;> omega
    rw [hi.1, hi.2, packed_get]
    rcases hw with rfl | rfl <;> omega
  · have hact : (decide (base ≤ 4 * (n / 4)) && decide (4 * (n / 4) < base + 512 * w)) = false := by
      simp only [Bool.and_eq_false_iff, decide_eq_false_iff_not]; omega
    rw [if_neg hin, if_neg (by simp [hact]), vByte]

theorem packCore_other (c : TCore) {n : BitVec 5} (hn : c.phys n ≠ c.phys d.reg) : (packCore d a w base conv c).v n = c.v n := by
  obtain ⟨-, h, -⟩ := vWrite_spec d.reg (fun _ p => decide (base ≤ 4 * p) && decide (4 * p < base + 512 * w))
    (fun c' p => quiet (BitVec.ofNat 32
      (packWord w (fun k => (vget (packed conv c a) (0, 0) ((4 * p - base) / w + k)).1) (vget (c'.v d.reg) 0 p).toNat))) c
  exact h n hn

theorem vPack_writes {s : State} {pc : Dword} (i : Instr) (h : Stands s .v pc false) (hd : d.dir = .whole) (ha : a.dir = .whole)
    (hw : w = 1 ∨ w = 2) (hb : base % 4 = 0) :
    let c := issueTick (iter s)
    ∃ t, vWord i (vPack i d a w base conv) s = .next t ∧ MemSame s t ∧ ((iter t).engine .v).pc = pc + 4 ∧
      (∀ n, n < 2048 → vByte ((iter t).v d.reg) n =
        if base ≤ n ∧ n < base + 512 * w then (conv (num32 (vget (c.v a.reg) 0 ((n - base) / w)))).1 / 256 ^ ((n - base) % w) % 256
        else vByte (c.v d.reg) n) ∧
      (∀ n, c.phys n ≠ c.phys d.reg → (iter t).v n = c.v n) ∧ (iter t).q = c.q ∧
      ∀ b, (iter t).csr.vflags.getLsbD b = true ↔
        c.csr.vflags.getLsbD b = true ∨ ∃ j, j < 512 ∧ (conv (num32 (vget (c.v a.reg) 0 j))).2.getLsbD b = true := by
  intro c
  obtain ⟨h1, h2, h3, h4, h5⟩ := afterV_iter s pc (packCore d a w base conv)
  have hv := v_congr h3 h5
  refine ⟨_, vWord_ok h (vPack_ok d a w base conv i _ _ hd ha), h1, h2, fun n hn => ?_, fun n hn => ?_, h4, fun b => ?_⟩
  · rw [hv]; exact packCore_byte d a w base conv hw hb c hn
  · rw [hv]; exact packCore_other d a w base conv c hn
  · rw [h5]; exact packCore_vflags d a w base conv c b

end

/-- The pack words are `vPack` of their conversions (R188). -/
theorem exec_pack {i : Instr} {d a : VOp} {sat : Bool} {r : Rnd} {p : BitVec 3} {w : ℕ} {conv : Num → ℕ × FFlags}
    (h : (i, w, conv) ∈ [(Instr.vpackE4 d a sat r p, 1, e4m3.conv r sat), (.vpackE5 d a sat r p, 1, e5m2.conv r sat),
      (.vpackI8 d a sat r p, 1, toInt8 (-128) 127 r sat), (.vpackH d a sat r p, 2, fp16.conv r sat),
      (.vpackB d a sat r p, 2, bf16.conv r sat)]) (s : State) :
    exec i s = vWord i (vPack i d a w (512 * w * p.toNat) conv) s ∧ (w = 1 ∨ w = 2) := by
  simp only [List.mem_cons, List.not_mem_nil, or_false, Prod.mk.injEq] at h
  rcases h with ⟨rfl, rfl, rfl⟩ | ⟨rfl, rfl, rfl⟩ | ⟨rfl, rfl, rfl⟩ | ⟨rfl, rfl, rfl⟩ | ⟨rfl, rfl, rfl⟩
  · exact ⟨rfl, .inl rfl⟩
  · exact ⟨rfl, .inl rfl⟩
  · exact ⟨rfl, .inl rfl⟩
  · exact ⟨rfl, .inr rfl⟩
  · exact ⟨rfl, .inr rfl⟩

theorem packWords : Claims.PackWords := by
  intro i s pc d a sat r p w conv hs hd ha hmem c byte at_
  obtain ⟨he, hw⟩ := exec_pack hmem s
  obtain ⟨t, h1, h2, h3, h4, h5, h6, h7⟩ := vPack_writes d a w (512 * w * p.toNat) conv i hs hd ha hw
    (by rcases hw with rfl | rfl <;> omega)
  refine ⟨t, he.trans h1, h2, h3, fun j k hj hk hn => ?_, fun n hn ho => ?_, h5, h6, h7⟩
  · refine (h4 _ hn).trans ?_
    rw [if_pos (by rcases hw with rfl | rfl <;> omega)]
    have hjk : (512 * w * p.toNat + w * j + k - 512 * w * p.toNat) / w = j ∧ (512 * w * p.toNat + w * j + k - 512 * w * p.toNat) % w = k := by
      rcases hw with rfl | rfl <;> omega
    rw [hjk.1, hjk.2]
  · refine (h4 n hn).trans (if_neg ?_)
    rcases hw with rfl | rfl <;> omega

end Sys2Proof.Machine

namespace Sys2Proof.Machine

/-! ### Rounding to an integer with its sign -/

/-- A number rounded to a signed integer. -/
def roundInt (r : Rnd) (neg : Bool) (m : ℕ) (e : ℤ) : ℤ :=
  signedAt neg (roundAt r neg m e 0).1 (roundAt r neg m e 0).2.1 0

theorem roundInt_spec (r : Rnd) (neg : Bool) (m : ℕ) (e : ℤ) :
    ∃ k : ℕ, roundInt r neg m e = (if neg then -(k : ℤ) else k) ∧ RoundsTo r neg (m * 2 ^ e) k ∧
      ((roundAt r neg m e 0).2.2 = false ↔ (k : ℚ) = m * 2 ^ e) := by
  obtain ⟨k, hq, hk, hix, h1, h2⟩ := roundAt_spec r neg m e 0
  rw [zpow_zero, mul_one] at hq hix
  rw [zpow_zero, div_one] at hk
  refine ⟨k, ?_, hk, hix⟩
  have hle : 0 ≤ (roundAt r neg m e 0).2.1 := by
    rcases le_or_gt 0 e with h | h
    · rw [(h1 h).1]; exact h
    · rw [(h2 h).2]
  have hz := signedAt_mul neg (roundAt r neg m e 0).1 hle
  rw [zpow_zero, mul_one, hq] at hz
  rw [← Int.cast_inj (α := ℚ), roundInt, hz]
  cases neg <;> simp

/-- The rounding of a magnitude, with the sign of the number, is the rounding of the number (R18). -/
theorem intRounded_of_roundsTo {r : Rnd} {neg : Bool} {x : ℚ} {k : ℕ} (hx : 0 ≤ x) (h : RoundsTo r neg x k) :
    Claims.IntRounded r (sgn neg * x) (if neg then -(k : ℤ) else k) := by
  have hpar : (if neg then -(k : ℤ) else k) % 2 = 0 ↔ k % 2 = 0 := by cases neg <;> simp <;> omega
  cases r with
  | rne =>
    have hd : |sgn neg * x - ((if neg then -(k : ℤ) else k : ℤ) : ℚ)| = |x - k| := by
      cases neg
      · simp
      · simp only [sgn_true, if_true, Int.cast_neg, Int.cast_natCast]
        rw [← abs_neg]; congr 1; ring
    simpa only [Claims.IntRounded, hd, hpar] using h.nearest
  | rtz =>
    have hk := h.lower rfl
    cases neg
    · simpa [Claims.IntRounded, hx] using hk
    · simp only [Claims.IntRounded, sgn_true, neg_mul, one_mul, if_true, Left.nonneg_neg_iff]
      split
      · next h0 => rw [le_antisymm h0 hx] at hk ⊢; simpa using hk
      · rw [Int.ceil_neg, hk]
  | rdn =>
    cases neg
    · simpa [Claims.IntRounded] using h.lower rfl
    · simpa [Claims.IntRounded, Int.floor_neg] using h.upper (by decide) rfl
  | rup =>
    cases neg
    · simpa [Claims.IntRounded] using h.upper (by decide) rfl
    · simpa [Claims.IntRounded, Int.ceil_neg] using h.lower rfl

/-- A finite FP32 value rounded to an integer, and whether that is exact (R18). -/
theorem roundInt_rounded (r : Rnd) (neg : Bool) (m : ℕ) (e : ℤ) :
    Claims.IntRounded r (sgn neg * (m * 2 ^ e)) (roundInt r neg m e) ∧
      ((roundAt r neg m e 0).2.2 = false ↔ ((roundInt r neg m e : ℤ) : ℚ) = sgn neg * (m * 2 ^ e)) := by
  obtain ⟨k, hz, hk, hix⟩ := roundInt_spec r neg m e
  refine ⟨hz ▸ intRounded_of_roundsTo (by positivity) hk, ?_⟩
  rw [hix, hz]
  cases neg <;> simp

theorem toInt8_fin (lo hi : ℤ) (r : Rnd) (sat neg : Bool) (m : ℕ) (e : ℤ) : toInt8 lo hi r sat (.fin neg m e) =
    if lo ≤ roundInt r neg m e ∧ roundInt r neg m e ≤ hi then
      ((roundInt r neg m e % 256).toNat, fWhen (roundAt r neg m e 0).2.2 fInexact)
    else (((if sat then (if roundInt r neg m e < lo then lo else hi) else roundInt r neg m e) % 256).toNat, fInvalid) := rfl

/-- The conversion to an 8-bit integer (R18, R216). -/
theorem toInt8_values (lo hi : ℤ) (r : Rnd) (sat : Bool) (x : Word) :
    (Claims.nan32 x → toInt8 lo hi r sat (num32 x) = (0, fInvalid)) ∧
    (Claims.inf32 x → toInt8 lo hi r sat (num32 x) = (((if x.getLsbD 31 then lo else hi) % 256).toNat, fInvalid)) ∧
    (Claims.fin32 x → ∃ n : ℤ, Claims.IntRounded r (Claims.value32 x) n ∧
      if lo ≤ n ∧ n ≤ hi then toInt8 lo hi r sat (num32 x) = ((n % 256).toNat, if (n : ℚ) = Claims.value32 x then 0 else fInexact)
      else toInt8 lo hi r sat (num32 x) = (((if sat then (if n < lo then lo else hi) else n) % 256).toNat, fInvalid)) := by
  refine ⟨fun h => by rw [num32_nan h]; rfl, fun h => by rw [num32_inf h]; rfl, fun h => ?_⟩
  obtain ⟨m, e, hn, hv⟩ := num32_fin h
  obtain ⟨hr, hix⟩ := roundInt_rounded r (x.getLsbD 31) m e
  rw [hn, hv, toInt8_fin]
  refine ⟨_, hr, ?_⟩
  split
  · rw [fWhen]
    refine congrArg _ ?_
    by_cases hx : (roundAt r (x.getLsbD 31) m e 0).2.2 = false
    · rw [hx, if_pos (hix.mp hx)]; rfl
    · rw [if_pos (by simpa using hx), if_neg (hix.not.mp hx)]
  · rfl

theorem conversionValues : Claims.ConversionValues := by
  intro r sat x
  refine ⟨fun f hf => converted_conv ?_ r sat x, fun lo hi _ => toInt8_values lo hi r sat x⟩
  simp only [List.mem_cons, List.not_mem_nil, or_false] at hf
  rcases hf with rfl | rfl | rfl | rfl
  · exact bf16_ok
  · exact fp16_ok
  · exact e4m3_ok
  · exact e5m2_ok

/-- Settles O34: the bytes of a packed part are the fields of its words (`packCore_byte`), and every conversion is the rounding that
R17 and R18 state (`converted_conv`, `toInt8_values`). -/
theorem unpackAndPack : Obligations.UnpackAndPack := ⟨unpackWords, packWords, conversionValues⟩

end Sys2Proof.Machine

namespace Sys2Proof.Machine

/-! ### The INT32 accumulator and a number with a negative exponent

`Claims.rat` takes a number at its exact value, whatever its exponent; `Num.int`, with which the INT32 accumulator reads a group sum,
takes the significand unshifted where the exponent is negative. The two differ at the integer 1, written 2 · 2^(-1). -/

/-- The integer 1, with significand 2 and exponent -1. -/
def oneAsTwoHalves : Num := .fin false 2 (-1)

theorem rat_oneAsTwoHalves : Claims.rat oneAsTwoHalves = some ((1 : ℤ) : ℚ) := by
  rw [oneAsTwoHalves, rat_fin, sgn_false]
  norm_num

/-- Added to 0 in the INT32 accumulator, the number 1 so written gives 2. -/
theorem accInt32_oneAsTwoHalves : accInt32 oneAsTwoHalves 0 = (2, 0) := by decide

/-- Refutes O38: its clause on the INT32 accumulator speaks of every number whose value is an integer, and at `oneAsTwoHalves` with
accumulator 0 it asks for 1, where `accInt32` answers 2 (`accInt32_oneAsTwoHalves`). -/
theorem not_matrixProducts : ¬ Obligations.MatrixProducts := by
  unfold Obligations.MatrixProducts
  rintro ⟨-, -, -, hAcc, -⟩
  obtain ⟨-, -, -, -, -, -, -, hInt⟩ := hAcc oneAsTwoHalves 1 1 none 0
  have h := hInt rat_oneAsTwoHalves
  rw [accInt32_oneAsTwoHalves] at h
  exact absurd h (by decide)

end Sys2Proof.Machine

namespace Sys2Proof.Machine

/-! ### An exact number as FP32 -/

/-- The FP32 word that a number is delivered as. -/
def f32Word (x : Num) : Word := BitVec.ofNat 32 (fp32.result x).1

/-- A number with its sign and value, delivered in FP32, is rounded once (R15). -/
theorem f32Word_rne {x : Num} {s : Bool} {q : ℚ} (h : x.Has s q) : Claims.Rne32 q s (f32Word x) := by
  obtain ⟨m, e, rfl, rfl⟩ := h
  unfold Claims.Rne32
  split
  · next h => rw [(sgn_mul_eq_zero s).mp h]; cases s <;> rfl
  · next h => exact ⟨_, rounded32_round s ((sgn_mul_eq_zero s).not.mp h) e⟩

theorem Num.has_ofInt (z : ℤ) : (Num.ofInt z).Has (decide (z < 0)) z := by
  refine ⟨_, _, rfl, ?_⟩
  rcases lt_or_ge z 0 with h | h
  · have : (z.natAbs : ℤ) = -z := by omega
    rw [decide_eq_true h, sgn_true, ← Int.cast_natCast, this]; simp
  · have : (z.natAbs : ℤ) = z := by omega
    rw [decide_eq_false (not_lt.mpr h), sgn_false, ← Int.cast_natCast, this]; simp

/-- An INT32 accumulator as FP32 is rounded once (R216). -/
theorem i32ToF32_rne (v : Word) : Claims.Rne32 (v.toInt : ℚ) false (i32ToF32 v).1 := by
  have h := f32Word_rne (Num.has_ofInt v.toInt)
  unfold Claims.Rne32 at h ⊢
  split
  · next h0 =>
    have hz : decide (v.toInt < 0) = false := by rw [Int.cast_eq_zero.mp h0]; rfl
    rw [if_pos h0, hz] at h; exact h
  · next h0 => rw [if_neg h0] at h; exact h

/-! ### An FP16 accumulator as FP32 -/

/-- Every FP16 magnitude is an FP32 magnitude. -/
theorem mag_fp16_fp32 {b : ℕ} (hb : b ≤ fp16.maxB) : ∃ c ≤ fp32.maxB, fp32.mag c = fp16.mag b := by
  obtain ⟨j, k, rfl, hk, hj⟩ := fp16.split_enc b
  rw [fp16.mag_grid hk.le hj]
  rcases Nat.eq_zero_or_pos k with rfl | hpos
  · exact ⟨0, by decide, by simp⟩
  obtain ⟨hn1, hlo, hhi⟩ := nbits_bounds hpos.ne'
  have hn : nbits k ≤ 11 := nbits_le hk
  have hj' : j ≤ 31 := by
    change j * 2 ^ 10 + k ≤ 0x7BFF at hb; omega
  have hK : k * 2 ^ (24 - nbits k) < 2 ^ 24 := by
    calc _ < 2 ^ nbits k * 2 ^ (24 - nbits k) := by gcongr
      _ = 2 ^ 24 := by rw [← pow_add]; congr 1; omega
  have hK' : 2 ^ 23 ≤ k * 2 ^ (24 - nbits k) := by
    calc 2 ^ 23 = 2 ^ (nbits k - 1) * 2 ^ (24 - nbits k) := by rw [← pow_add]; congr 1; omega
      _ ≤ _ := by gcongr
  refine ⟨(j + nbits k + 101) * 2 ^ fp32.frac + k * 2 ^ (24 - nbits k), ?_, ?_⟩
  · change (j + nbits k + 101) * 2 ^ 23 + k * 2 ^ (24 - nbits k) ≤ 0x7F7FFFFF
    omega
  · rw [fp32.mag_grid hK.le (Or.inl hK')]
    have he : ((24 - nbits k : ℕ) : ℤ) + (fp32.emin + (j + nbits k + 101 : ℕ)) = fp16.emin + j := by
      change ((24 - nbits k : ℕ) : ℤ) + (-149 + (j + nbits k + 101 : ℕ)) = -24 + j
      omega
    rw [Nat.cast_mul, Nat.cast_pow, Nat.cast_ofNat, mul_assoc, ← zpow_natCast, ← two_zpow_add, he]

/-- A value that some FP32 encoding has is kept by the rounding. -/
theorem exact_of_rounded32 {s : Bool} {c : ℕ} (hc : c ≤ fp32.maxB) {r : Word × FFlags} (h : Claims.Rounded32 (sgn s * fp32.mag c) r) :
    Claims.fin32 r.1 = true ∧ Claims.value32 r.1 = sgn s * fp32.mag c ∧ r.1.getLsbD 31 = decide (sgn s * fp32.mag c < 0) := by
  have hlt : |sgn s * fp32.mag c| < (2 ^ 25 - 1) * 2 ^ 103 := by
    have hle := fp32.mag_strictMono.monotone hc
    rw [FFmt.mag_max fp32_ok, fp32_topSig, fp32_topExp] at hle
    rw [abs_sgn_mul s (fp32.mag_nonneg c)]
    exact hle.trans_lt (by norm_num)
  rw [Claims.Rounded32, if_pos hlt] at h
  obtain ⟨hfin, hnear, hsign, -⟩ := h
  have hc31 : c < 2 ^ 31 := hc.trans_lt (by decide)
  have hn := toNat_ofNat32 (fp32_withSign_lt s hc31)
  have h0 := (hnear (BitVec.ofNat 32 (fp32.withSign s c))
    ((fin32_iff _).mpr (by rw [hn]; exact FFmt.finite_withSign fp32_ok s hc))).1
  rw [value32_eq (BitVec.ofNat 32 _), hn, FFmt.value_withSign fp32_ok s hc31, sub_self, abs_zero] at h0
  exact ⟨hfin, sub_eq_zero.mp (abs_nonpos_iff.mp h0), hsign⟩

theorem getLsbD15 (w : Word) : w.getLsbD 15 = decide (w.toNat / fp16.sign % 2 = 1) := by
  rw [BitVec.getLsbD, Nat.testBit_eq_decide_div_mod_eq]; rfl

/-- An FP16 accumulator as FP32 keeps its value and its sign (R216). -/
theorem toFp32_fp16 {v : Word} (hv : Claims.finite fp16 v.toNat) : Claims.fin32 (toFp32 2 v) = true ∧
    Claims.value32 (toFp32 2 v) = Claims.value fp16 v.toNat ∧ (toFp32 2 v).getLsbD 31 = v.getLsbD 15 := by
  obtain ⟨m, e, hdec, hmag⟩ := fp16.dec_finite hv.2
  obtain ⟨c, hc, hcm⟩ := mag_fp16_fp32 hv.2
  rw [← getLsbD15] at hdec
  have hval : Claims.value fp16 v.toNat = sgn (v.getLsbD 15) * fp32.mag c := by rw [value_eq fp16 fp16_ok, getLsbD15, hcm]
  have hhas : (elemNum 2 v).Has (v.getLsbD 15) (sgn (v.getLsbD 15) * fp32.mag c) := ⟨m, e, hdec, by rw [hmag, hcm]⟩
  have hr : Claims.Rne32 (sgn (v.getLsbD 15) * fp32.mag c) (v.getLsbD 15) (toFp32 2 v) := f32Word_rne hhas
  rw [hval]
  unfold Claims.Rne32 at hr
  split at hr
  · next h0 => rw [h0, hr]; cases v.getLsbD 15 <;> simp [Claims.fin32, Claims.value32]
  · next h0 =>
    obtain ⟨f, hf⟩ := hr
    obtain ⟨h1, h2, h3⟩ := exact_of_rounded32 hc hf
    have hpos : 0 < fp32.mag c := (fp32.mag_nonneg c).lt_of_ne fun h => h0 (by rw [← h, mul_zero])
    exact ⟨h1, h2, by rw [h3]; simp only [sgn_mul_lt_zero _ hpos, Bool.decide_eq_true]⟩

/-! ### The activation and the conversion to INT32 -/

/-- Two words that differ are the two zeros where both magnitudes are 0. -/
theorem zeros32_iff {a b : Word} (h : a ≠ b) :
    (a ||| b = 0x80000000 ∧ a &&& b = 0) ↔ a.toNat % 2 ^ 31 = 0 ∧ b.toNat % 2 ^ 31 = 0 := by
  have hzero (w : Word) (hw : w.toNat % 2 ^ 31 = 0) : w = 0 ∨ w = 0x80000000 := by bv_omega
  constructor
  · rintro ⟨hor, -⟩
    have h0 : (a.toNat ||| b.toNat) % 2 ^ 31 = 0 := by rw [← BitVec.toNat_or, hor]; decide
    rwa [Nat.or_mod_two_pow, Nat.or_eq_zero_iff] at h0
  · rintro ⟨ha, hb⟩
    rcases hzero a ha with rfl | rfl <;> rcases hzero b hb with rfl | rfl <;> simp at h ⊢

/-- FP32 `<` on words is the relation lt of FCMP (R118). -/
theorem num32_lt_eq_rel32 (a b : Word) : (num32 a).lt (num32 b) = Claims.rel32 2 a b := by
  cases ha : Claims.nan32 a with
  | true => simp [num32_nan ha, Num.lt, Claims.rel32, ha]
  | false =>
    cases hb : Claims.nan32 b with
    | true => cases hx : num32 a <;> simp [num32_nan hb, Num.lt, Claims.rel32, hb]
    | false =>
      have hlt := (num32_compare ha hb).1
      rw [Bool.eq_iff_iff, hlt]
      simp only [Claims.rel32, ha, hb]
      by_cases ho : Claims.order32 a < Claims.order32 b
      · have hne : a ≠ b := fun h => by rw [h] at ho; exact absurd ho (lt_irrefl _)
        have he : (a == b || a ||| b == 0x80000000 && a &&& b == 0) = decide (a.toNat % 2 ^ 31 = 0 ∧ b.toNat % 2 ^ 31 = 0) := by
          rw [Bool.eq_iff_iff, decide_eq_true_iff, ← zeros32_iff hne]
          simp only [Bool.or_eq_true, Bool.and_eq_true, beq_iff_eq, hne, false_or]
        rw [he]
        simp [ho]
      · simp [ho]

/-- The conversion to INT32 (R18, R216). -/
theorem toInt32_values (r : Rnd) (x : Word) : (Claims.nan32 x → toInt32 r (num32 x) = 0) ∧
    (Claims.inf32 x → toInt32 r (num32 x) = if x.getLsbD 31 then 2 ^ 31 else 2 ^ 31 - 1) ∧
    (Claims.fin32 x → ∃ n : ℤ, Claims.IntRounded r (Claims.value32 x) n ∧
      toInt32 r (num32 x) = (max (-2 ^ 31) (min (2 ^ 31 - 1) n) % 2 ^ 32).toNat) := by
  refine ⟨fun h => by rw [num32_nan h]; rfl, fun h => by rw [num32_inf h]; rfl, fun h => ?_⟩
  obtain ⟨m, e, hn, hv⟩ := num32_fin h
  rw [hn, hv]
  exact ⟨_, (roundInt_rounded r (x.getLsbD 31) m e).1, rfl⟩

/-! ### The element that the rake writes -/

/-- The activations (R216). -/
theorem rakeAct_values (r : Row) (y : Word) :
    (rdAct r = 0 → rakeAct r y = y) ∧
    (rdAct r = 1 → rakeAct r y = if Claims.nan32 y then 0x7FC00000 else if Claims.rel32 2 0 y then y else 0) ∧
    (2 ≤ rdAct r → rakeAct r y = if Claims.nan32 y then 0x7FC00000 else if Claims.rel32 2 y (BitVec.ofNat 32 (bitsN r 64 32)) then
      BitVec.ofNat 32 (bitsN r 64 32) else if Claims.rel32 2 (BitVec.ofNat 32 (bitsN r 96 32)) y then BitVec.ofNat 32 (bitsN r 96 32) else y) := by
  simp only [rakeAct, num32_isNan, num32_lt_eq_rel32]
  refine ⟨fun h => by rw [h]; rfl, fun h => by rw [h]; rfl, fun h => ?_⟩
  split
  · omega
  · omega
  · rfl

/-- Where an INT32 slot goes out unchanged (R216). -/
theorem rakeElem_unchanged {r : Row} {acc : BitVec 2} (h : acc = 3 ∧ rdSbtid r = 0 ∧ rdAct r = 0 ∧ rdOfmt r = 7) (v : Word)
    (sb : Option (Word × Word)) : rakeElem r acc v sb = v.toNat := by
  obtain ⟨h1, h2, h3, h4⟩ := h
  rw [rakeElem, h1, h2, h3, h4]
  rfl

/-- The accumulator as FP32 (R216). -/
def rakeIn (acc : BitVec 2) (v : Word) : Word := if acc = 3 then (i32ToF32 v).1 else if acc = 2 then toFp32 2 v else v

/-- Scale and bias, where the rake has them (R216). -/
def rakeScaled (x : Word) (sb : Option (Word × Word)) : Word := sb.elim x fun p => (f32Fma x p.1 p.2).1

/-- Every other element is scaled, activated and converted (R216). -/
theorem rakeElem_converted {r : Row} {acc : BitVec 2} (h : ¬ (acc = 3 ∧ rdSbtid r = 0 ∧ rdAct r = 0 ∧ rdOfmt r = 7)) (v : Word)
    (sb : Option (Word × Word)) :
    rakeElem r acc v sb = rakeConv (rdOfmt r) (rndOf (bitsN r 19 2)) (r.getLsbD 21) (rakeAct r (rakeScaled (rakeIn acc v) sb)) := by
  rw [rakeElem, if_neg (by simpa only [Bool.and_eq_true, decide_eq_true_eq, beq_iff_eq, and_assoc] using h)]
  cases sb <;> rfl

/-- The conversion of the rake to a floating-point format (R18, R216). -/
theorem rakeConv_converted {fmt : ℕ} {f : FFmt} (h : (fmt, f) ∈ [(1, bf16), (2, fp16), (3, e4m3), (4, e5m2)]) (r : Rnd) (sat : Bool)
    (z : Word) : ∃ fl, Claims.Converted f r sat z (rakeConv fmt r sat z, fl) := by
  simp only [List.mem_cons, Prod.mk.injEq, List.not_mem_nil, or_false] at h
  rcases h with ⟨rfl, rfl⟩ | ⟨rfl, rfl⟩ | ⟨rfl, rfl⟩ | ⟨rfl, rfl⟩
  · exact ⟨_, converted_conv bf16_ok r sat z⟩
  · exact ⟨_, converted_conv fp16_ok r sat z⟩
  · exact ⟨_, converted_conv e4m3_ok r sat z⟩
  · exact ⟨_, converted_conv e5m2_ok r sat z⟩

theorem rakeValues : Claims.RakeValues := by
  intro r acc v sb
  refine ⟨fun h => rakeElem_unchanged h v sb, fun h => ?_⟩
  obtain ⟨hact0, hact1, hact2⟩ := rakeAct_values r (rakeScaled (rakeIn acc v) sb)
  have hout := rakeElem_converted h v sb
  refine ⟨rakeIn acc v, rakeScaled (rakeIn acc v) sb, rakeAct r (rakeScaled (rakeIn acc v) sb),
    fun h3 => ?_, fun h2 hv => ?_, fun h3 h2 => ?_, fun hs => by rw [hs]; rfl, fun s b hs => by rw [hs]; rfl,
    hact0, hact1, hact2, fun hf => ?_, fun f hf => ?_, fun hf => ?_, fun hf => ?_, fun hf => ?_⟩
  · rw [rakeIn, if_pos h3]; exact i32ToF32_rne v
  · rw [rakeIn, h2]; exact toFp32_fp16 hv
  · rw [rakeIn, if_neg h3, if_neg h2]
  · rw [hout]; exact congrArg (rakeConv · _ _ _) hf
  · rw [hout]; exact rakeConv_converted hf _ _ _
  · rw [hout]; exact congrArg (rakeConv · _ _ _) hf
  · rw [hout]; exact congrArg (rakeConv · _ _ _) hf
  · rw [hout, show rdOfmt r = 7 from hf]; exact toInt32_values _ _

end Sys2Proof.Machine

namespace Sys2Proof.Machine

/-! ### What accesses leave of the clusters and the nodes

No access, no record and no flag changes a cluster or a node: neither the translation, nor the timestamps, nor the bytes. -/

/-- The clusters and the nodes of a device. -/
def Dev.cn (d : Dev) : NMap Cluster × NMap Node := (d.clusters, d.nodes)

theorem Dev.cluster_of_cn {d e : Dev} (h : e.cn = d.cn) (c : ℕ) : e.cluster c = d.cluster c := by
  rw [Dev.cluster, Dev.cluster, show e.clusters = d.clusters from congrArg Prod.fst h]

theorem Dev.node_of_cn {d e : Dev} (h : e.cn = d.cn) (n : ℕ) : e.node n = d.node n := by
  rw [Dev.node, Dev.node, show e.nodes = d.nodes from congrArg Prod.snd h]

/-- An attempt keeps the clusters and the nodes of a device, whether it is done or waits. -/
def Res.KeepsCn {α : Type} (r : Res α) (d : Dev) : Prop := (∀ x e, r = .ok x e → e.cn = d.cn) ∧ ∀ w e, r = .wait w e → e.cn = d.cn

theorem Res.keepsCn_ok {α : Type} {x : α} {d e : Dev} (h : e.cn = d.cn) : (Res.ok x e).KeepsCn d :=
  ⟨fun _ _ hr => by cases hr; exact h, fun _ _ hr => (nomatch hr)⟩

theorem Res.keepsCn_wait {α : Type} {w : Wait} {d e : Dev} (h : e.cn = d.cn) : (Res.wait w e : Res α).KeepsCn d :=
  ⟨fun _ _ hr => (nomatch hr), fun _ _ hr => by cases hr; exact h⟩

theorem Res.keepsCn_sys {α : Type} {c : ℕ} {va : Dword} {d : Dev} : (Res.sys c va : Res α).KeepsCn d :=
  ⟨fun _ _ hr => (nomatch hr), fun _ _ hr => (nomatch hr)⟩

theorem Res.KeepsCn.of_eq {α : Type} {r : Res α} {d e : Dev} (h : r.KeepsCn e) (he : e.cn = d.cn) : r.KeepsCn d :=
  ⟨fun x a hr => (h.1 x a hr).trans he, fun w a hr => (h.2 w a hr).trans he⟩

theorem Res.KeepsCn.bind {α β : Type} {r : Res α} {d : Dev} {f : α → Dev → Res β} (hr : r.KeepsCn d) (hf : ∀ x e, (f x e).KeepsCn e) :
    (r.bind f).KeepsCn d := by
  cases r with
  | ok x e => exact (hf x e).of_eq (hr.1 x e rfl)
  | wait w e => exact Res.keepsCn_wait (hr.2 w e rfl)
  | sys c va => exact Res.keepsCn_sys
  | trap c i0 i1 i2 i3 => exact ⟨fun _ _ h => (nomatch h), fun _ _ h => (nomatch h)⟩
  | roll c => exact ⟨fun _ _ h => (nomatch h), fun _ _ h => (nomatch h)⟩

/-! #### Translation and timestamps -/

@[simp] theorem Dev.onTile_cn (d : Dev) (t : ℕ) (f : Tile → Tile) : (d.onTile t f).cn = d.cn := rfl

@[simp] theorem Dev.fqdrop_cn (d : Dev) (x : BitVec 32) : { d with fqdrop := x }.cn = d.cn := rfl

@[simp] theorem countEv_cn (d : Dev) (t : ℕ) (vf : BitVec 10) (ev n : ℕ) : (countEv d t vf ev n).cn = d.cn := by
  unfold countEv; dsimp only; split <;> rfl

@[simp] theorem keepTlb_cn (env : Env) (d : Dev) (w : Who) (va : Dword) : (keepTlb env d w va).cn = d.cn := by
  unfold keepTlb
  split
  · rfl
  · split <;> rfl

theorem locate_keepsCn (env : Env) (d : Dev) (w : Who) (k : AccKind) (va : Dword) : (locate env d w k va).KeepsCn d := by
  unfold locate
  split
  · exact Res.keepsCn_ok (keepTlb_cn ..)
  · exact Res.keepsCn_sys
  · refine Res.keepsCn_wait ?_
    unfold startPromo; split <;> rfl
  · exact Res.keepsCn_wait rfl
  · exact Res.keepsCn_sys

@[simp] theorem setPts_cn (d : Dev) (ag : Agent) (x : Dword) : (setPts d ag x).cn = d.cn := by cases ag <;> rfl

@[simp] theorem l2Touch_cn (env : Env) (d : Dev) (t pa : ℕ) (vf : BitVec 10) (cls : BitVec 4) (front : Bool) :
    (l2Touch env d t pa vf cls front).2.2.cn = d.cn := by
  unfold l2Touch; dsimp only
  split
  · rfl
  · split
    · rfl
    · rw [countEv_cn]; rfl

@[simp] theorem l2Set_cn (env : Env) (d : Dev) (pa : ℕ) (kept : Bool) (wts rts : Dword) : (l2Set env d pa kept wts rts).cn = d.cn := by
  unfold l2Set; dsimp only; split <;> rfl

@[simp] theorem loadTs_cn (env : Env) (d : Dev) (ag : Agent) (vf : BitVec 10) (cls : BitVec 4) (front : Bool) (loc : Loc) :
    (loadTs env d ag vf cls front loc).1.cn = d.cn := by
  cases loc <;> simp only [loadTs, setPts_cn, l2Set_cn, l2Touch_cn, Dev.onTile_cn]

@[simp] theorem storeTs_cn (env : Env) (d : Dev) (ag : Agent) (vf : BitVec 10) (cls : BitVec 4) (front : Bool) (loc : Loc) :
    (storeTs env d ag vf cls front loc).1.cn = d.cn := by
  cases loc <;> simp only [storeTs, setPts_cn, l2Set_cn, l2Touch_cn, Dev.onTile_cn]

/-! #### Bytes -/

@[simp] theorem putBytes_cn (d : Dev) (loc : Loc) (b : List Byte) : (putBytes d loc b).cn = d.cn := by
  have hdrop (d : Dev) (k n : ℕ) : (dropResv d k n).cn = d.cn := by unfold dropResv; split <;> rfl
  have hdirty (d : Dev) : (markDirty d loc).cn = d.cn := by
    cases loc <;> simp only [markDirty]
    split <;> rfl
  rw [putBytes, hdirty, hdrop]; rfl

@[simp] theorem storeMark_cn (env : Env) (d : Dev) (ag : Agent) (vf : BitVec 10) (cls : BitVec 4) (front : Bool) (loc : Loc)
    (b : List Byte) : (storeMark env d ag vf cls front loc b).1.cn = d.cn := by
  simp only [storeMark, putBytes_cn]
  exact storeTs_cn ..

@[simp] theorem sentMark_cn (env : Env) (d : Dev) (ag : Agent) (vf : BitVec 10) (cls : BitVec 4) (front : Bool) (loc : Loc)
    (b : List Byte) : (sentMark env d ag vf cls front loc b).1.cn = d.cn := by
  cases ag with
  | tile t p =>
    simp only [sentMark]
    generalize (if p = 0 then b else overStore env d t p loc b) = c
    split
    · exact storeMark_cn ..
    · exact storeMark_cn env d (.tile t p) vf cls front loc c
  | core n => exact storeMark_cn ..
  | stream k => exact storeMark_cn ..
  | stamp x => exact storeMark_cn ..
  | none => exact storeMark_cn ..

@[simp] theorem lateRead_cn (env : Env) (d : Dev) (t p : ℕ) (vf : BitVec 10) (cls : BitVec 4) (front : Bool) (loc : Loc) (b : List Byte) :
    (lateRead env d t p vf cls front loc b).2.cn = d.cn := by
  unfold lateRead; dsimp only
  split
  · rfl
  · split
    · rfl
    · exact loadTs_cn ..

/-- A write that has been sent, performed (R244). -/
@[simp] theorem putSent_cn (env : Env) (t p : ℕ) (vf : BitVec 10) (d : Dev) (w : OutWr) : (putSent env t p vf d w).cn = d.cn := by
  unfold putSent; dsimp only
  split
  · rfl
  · rw [sentMark_cn]
    split
    · exact lateRead_cn ..
    · rfl

/-! #### Accesses over pages -/

@[simp] theorem loadSpan_cn (env : Env) (ag : Agent) (vf : BitVec 10) (cls : BitVec 4) (f : ℕ) (d : Dev) (loc : Loc) (n : ℕ) :
    (loadSpan env ag vf cls f d loc n).2.cn = d.cn := by
  induction f generalizing d loc n with
  | zero => rfl
  | succ f ih =>
    unfold loadSpan; dsimp only
    split
    · rfl
    · rw [ih]; exact loadTs_cn ..

@[simp] theorem storeSpan_cn (env : Env) (ag : Agent) (vf : BitVec 10) (cls : BitVec 4) (f : ℕ) (d : Dev) (loc : Loc) (b : List Byte) :
    (storeSpan env ag vf cls f d loc b).cn = d.cn := by
  induction f generalizing d loc b with
  | zero => rfl
  | succ f ih =>
    unfold storeSpan; dsimp only
    split
    · rfl
    · rw [ih]; exact storeMark_cn ..

@[simp] theorem stampSpan_cn (env : Env) (vf : BitVec 10) (cls : BitVec 4) (f : ℕ) (d : Dev) (ts : Dword) (loc : Loc) (b : List Byte) :
    (stampSpan env vf cls f d ts loc b).1.cn = d.cn := by
  induction f generalizing d ts loc b with
  | zero => rfl
  | succ f ih =>
    unfold stampSpan; dsimp only
    split
    · rfl
    · rw [ih]; exact storeMark_cn ..

theorem hwRead_keepsCn (env : Env) (w : Who) (ag : Agent) (f : ℕ) (d : Dev) (va : Dword) (n : ℕ) : (hwRead env w ag f d va n).KeepsCn d := by
  induction f generalizing d va n with
  | zero => exact Res.keepsCn_ok rfl
  | succ f ih =>
    unfold hwRead; dsimp only
    split
    · exact Res.keepsCn_ok rfl
    · exact (locate_keepsCn ..).bind fun x e =>
        ((ih ..).of_eq (loadSpan_cn ..)).bind fun _ _ => Res.keepsCn_ok rfl

theorem hwCheck_keepsCn (env : Env) (w : Who) (k : AccKind) (f : ℕ) (d : Dev) (va : Dword) (n : ℕ) : (hwCheck env w k f d va n).KeepsCn d := by
  induction f generalizing d va n with
  | zero => exact Res.keepsCn_ok rfl
  | succ f ih =>
    unfold hwCheck; dsimp only
    split
    · exact Res.keepsCn_ok rfl
    · exact (locate_keepsCn ..).bind fun _ _ => ih ..

theorem hwWrite_keepsCn (env : Env) (w : Who) (ag : Agent) (f : ℕ) (d : Dev) (va : Dword) (b : List Byte) :
    (hwWrite env w ag f d va b).KeepsCn d := by
  induction f generalizing d va b with
  | zero => exact Res.keepsCn_ok rfl
  | succ f ih =>
    unfold hwWrite; dsimp only
    split
    · exact Res.keepsCn_ok rfl
    · exact (locate_keepsCn ..).bind fun _ _ => (ih ..).of_eq (storeSpan_cn ..)

theorem stampWrite_keepsCn (env : Env) (w : Who) (f : ℕ) (d : Dev) (ts va : Dword) (b : List Byte) :
    (stampWrite env w f d ts va b).KeepsCn d := by
  induction f generalizing d ts va b with
  | zero => exact Res.keepsCn_ok rfl
  | succ f ih =>
    unfold stampWrite; dsimp only
    split
    · exact Res.keepsCn_ok rfl
    · exact (locate_keepsCn ..).bind fun _ _ => (ih ..).of_eq (stampSpan_cn ..)

/-! #### Flags and records -/

theorem flagUpdate_keepsCn (env : Env) (d : Dev) (w : Who) (ag : Agent) (va : Dword) (inc setter : ℕ) :
    (flagUpdate env d w ag va inc setter).KeepsCn d := by
  refine Res.KeepsCn.bind ?_ fun _ _ => Res.keepsCn_ok rfl
  unfold flagMark
  split
  · exact Res.keepsCn_sys
  · exact (locate_keepsCn ..).bind fun _ _ => Res.keepsCn_ok (storeMark_cn ..)

/-- An update that keeps the clusters and the nodes, and that of its fault too. -/
theorem settle_cn {env : Env} {d : Dev} {x : Later} {fault : ℕ → Dword → Dev} {r : Res Unit} (hr : r.KeepsCn d)
    (hf : ∀ c va, (fault c va).cn = d.cn) : (settle env d x fault r).cn = d.cn := by
  cases r with
  | ok u e => exact hr.1 u e rfl
  | wait w e => exact hr.2 w e rfl
  | sys c va =>
    simp only [settle, keepFault]
    split
    · rw [keepTlb_cn, hf]
    · exact hf ..
  | trap c i0 i1 i2 i3 => rfl
  | roll c => rfl

theorem ringPost_keepsCn (env : Env) (d : Dev) (w : Who) (va : Dword) (b : List Byte) : (ringPost env d w va b).KeepsCn d := by
  refine (hwCheck_keepsCn ..).bind fun _ d0 => (hwRead_keepsCn ..).bind fun h d1 => ?_
  dsimp only
  split
  · exact Res.keepsCn_sys
  · split
    · exact hwWrite_keepsCn ..
    · refine (hwCheck_keepsCn ..).bind fun _ d2 => (stampWrite_keepsCn ..).bind fun t1 d3 =>
        (stampWrite_keepsCn ..).bind fun t2 d4 => Res.keepsCn_ok ?_
      split
      · rfl
      · exact settle_cn (flagUpdate_keepsCn ..) fun _ _ => rfl

theorem tryRecord_keepsCn (env : Env) (d : Dev) (vf : BitVec 10) (fq : BitVec 55) (b : List Byte) :
    (tryRecord env d vf fq b).KeepsCn d := by
  have hpost (e : Dev) (q : BitVec 55) (c : Prop) [Decidable c] :
      (if c then (.sys 0 0 : Res Unit) else ringPost env e (whoVf d vf 640) (zx q) b).KeepsCn e := by
    split
    · exact Res.keepsCn_sys
    · exact ringPost_keepsCn ..
  have hkeep (va : Dword) : (if fq = 0 then d else keepTlb env d (whoVf d vf 640) va).cn = d.cn := by split <;> simp
  unfold tryRecord; dsimp only
  split
  · next h => exact Res.keepsCn_ok ((hpost d fq _).1 _ _ h)
  · next h => exact Res.keepsCn_wait ((hpost d fq _).2 _ _ h)
  · exact Res.keepsCn_ok rfl
  · exact Res.keepsCn_ok rfl
  · split
    · next h => exact Res.keepsCn_ok (((hpost _ _ _).1 _ _ h).trans (hkeep _))
    · next h => exact Res.keepsCn_wait (((hpost _ _ _).2 _ _ h).trans (hkeep _))
    · exact Res.keepsCn_ok rfl
    · exact Res.keepsCn_ok rfl
    · refine Res.keepsCn_ok ?_
      rw [Dev.fqdrop_cn]
      split
      · exact hkeep _
      · rw [keepTlb_cn]; exact hkeep _

@[simp] theorem postFault_cn (env : Env) (d : Dev) (fq : BitVec 55) (r : FRec) : (postFault env d fq r).cn = d.cn := by
  have hseq : (takeSeq d r.tile).2.cn = d.cn := by unfold takeSeq; split <;> rfl
  exact (settle_cn (tryRecord_keepsCn ..) fun _ _ => rfl).trans hseq

@[simp] theorem setNodeState_cn (env : Env) (d : Dev) (vf : BitVec 10) (va : Dword) (st : ℕ) : (setNodeState env d vf va st).cn = d.cn := by
  refine settle_cn (Res.KeepsCn.bind ?_ fun _ _ => Res.keepsCn_ok rfl) fun _ _ => rfl
  exact (locate_keepsCn ..).bind fun _ _ => Res.keepsCn_ok (storeMark_cn ..)

end Sys2Proof.Machine

namespace Sys2Proof.Machine

/-! ### What the barrier objects and matched packets leave of the clusters and the nodes -/

@[simp] theorem Dev.defer_cn (d : Dev) (x : Later) : (d.defer x).cn = d.cn := rfl

@[simp] theorem lostUpdate_cn (env : Env) (d : Dev) (fq : BitVec 55) (vf : BitVec 10) (tile eng aq code : ℕ) (va : Dword) :
    (lostUpdate env d fq vf tile eng aq code va).cn = d.cn := postFault_cn ..

@[simp] theorem imageWrite_cn (env : Env) (d : Dev) (t serial : ℕ) (w : Who) (va : Dword) (b : List Byte) :
    (imageWrite env d t serial w va b).cn = d.cn := settle_cn (hwWrite_keepsCn ..) fun _ _ => rfl

@[simp] theorem postImage_cn (env : Env) (d : Dev) (t serial : ℕ) (r : Rec16) (ts : Dword) : (postImage env d t serial r ts).cn = d.cn := by
  unfold postImage; dsimp only
  split
  · rfl
  · rw [imageWrite_cn]
    split
    · rw [imageWrite_cn, Dev.onTile_cn]
    · rfl

@[simp] theorem postBarrier_cn (env : Env) (d : Dev) (t key : ℕ) (r : Rec16) (ts : Dword) : (postBarrier env d t key r ts).cn = d.cn := by
  unfold postBarrier
  split
  · split
    · unfold postIter
      split
      · rfl
      · exact postImage_cn ..
    · split
      · exact postImage_cn ..
      · rfl
  · rfl

@[simp] theorem hwFlag_cn (env : Env) (d : Dev) (w : Who) (va ts : Dword) (inc setter : ℕ) (lost : Option LostRec) :
    (hwFlag env d w va ts inc setter lost).cn = d.cn := by
  refine settle_cn (flagUpdate_keepsCn ..) fun c _ => ?_
  split
  · exact lostUpdate_cn ..
  · rfl

@[simp] theorem barAfter_cn (env : Env) (d : Dev) (ts : Dword) (loc : Loc) (va : Dword) (o : BarObj) (act : BarAct) :
    (barAfter env d ts loc va o act).cn = d.cn := by
  cases act with
  | none => rfl
  | error ex found => exact postBarrier_cn ..
  | zero =>
    unfold barAfter; dsimp only
    rw [postBarrier_cn]
    split
    · rfl
    · exact hwFlag_cn ..

theorem barDecAt_keepsCn (env : Env) (d : Dev) (w : Who) (ag : Agent) (va : Dword) (b : ℕ) : (barDecAt env d w ag va b).KeepsCn d := by
  unfold barDecAt
  split
  · exact Res.keepsCn_sys
  · refine (locate_keepsCn ..).bind fun _ _ => Res.keepsCn_ok ?_
    rw [barAfter_cn]; exact storeMark_cn ..

@[simp] theorem landNow_cn (env : Env) (e : LandEl) (d : Dev) : (landNow env e d).cn = d.cn := by
  have h1 : (if e.done then (d, e.ag) else landWrite env e.ag e.gen.vf e.slice e.unit e.off e.bytes d).1.cn = d.cn := by
    split
    · rfl
    · exact sentMark_cn ..
  unfold landNow; dsimp only
  split
  · exact h1
  · split
    · next h => exact ((barDecAt_keepsCn ..).1 _ _ h).trans h1
    · next h => exact ((barDecAt_keepsCn ..).2 _ _ h).trans h1
    · rw [lostUpdate_cn, keepTlb_cn]; exact h1
    · exact h1
    · exact h1

/-- A fold of steps that keep the clusters and the nodes. -/
theorem foldl_cn {α : Type} {f : Dev → α → Dev} (hf : ∀ d x, (f d x).cn = d.cn) (l : List α) (d : Dev) : (l.foldl f d).cn = d.cn := by
  induction l generalizing d with
  | nil => rfl
  | cons x l ih => rw [List.foldl_cons, ih, hf]

@[simp] theorem landAll_cn (env : Env) (p : LandEl → Bool) (d : Dev) : (landAll env p d).cn = d.cn := by
  refine (foldl_cn (fun d x => ?_) _ _).trans rfl
  split
  · split
    · exact landNow_cn ..
    · rfl
  · rfl

/-! ### The moves of the rake -/

@[simp] theorem rakeFlush_cn (env : Env) (j : RakeJob) (r : Rake) (d : Dev) : (rakeFlush env j r d).cn = d.cn :=
  foldl_cn (fun _ _ => putSent_cn ..) _ _

theorem Cluster.slot_setSlot (k : Cluster) {i : ℕ} (hi : i < 8) (x : RingSlot) (n : ℕ) :
    (k.setSlot i x).slot n = if n = i then x else k.slot n := by
  rw [Cluster.slot, Cluster.setSlot, vget_vset _ _ _ _ hi]; rfl

theorem rakeOf_eq {d : Dev} {c : ℕ} {r : Rake} {j : RakeJob} (hr : (d.cluster c).rake = some r)
    (hj : ((d.cluster c).slot r.slot.toNat).job = some j) : rakeOf d c = some (r, (d.cluster c).slot r.slot.toNat, j) := by
  simp only [rakeOf, hr, hj, Option.map_some]

/-- A freed slot is empty, and the rake has none (R217). -/
theorem rakeFree_cluster (c : ℕ) (r : Rake) (d : Dev) : ((rakeFree c r d).cluster c).rake = none ∧
    ((rakeFree c r d).cluster c).slot r.slot.toNat = {} := by
  rw [rakeFree, Dev.cluster_onCluster, if_pos rfl]
  exact ⟨rfl, (Cluster.slot_setSlot (d.cluster c) r.slot.isLt {} _).trans (if_pos rfl)⟩

theorem rakeKeep_cluster (c : ℕ) (r : Rake) (d : Dev) : ((rakeKeep c r d).cluster c).rake = some r ∧
    ∀ i, ((rakeKeep c r d).cluster c).slot i = (d.cluster c).slot i := by
  rw [rakeKeep, Dev.cluster_onCluster, if_pos rfl]
  exact ⟨rfl, fun _ => rfl⟩

theorem rakeFree_mem (c : ℕ) (r : Rake) (d : Dev) : (rakeFree c r d).mem = d.mem := rfl

theorem rakeKeep_mem (c : ℕ) (r : Rake) (d : Dev) : (rakeKeep c r d).mem = d.mem := rfl

/-! #### A closed slot is taken -/

theorem rakeStarts {s : State} {x : ℕ} {l : List ℕ} (hr : (s.dev.cluster s.env.unit).rake = none)
    (ho : (s.dev.cluster s.env.unit).order = x :: l) (hx : x < 8) (hst : ((s.dev.cluster s.env.unit).slot x).st = .closed) :
    ∃ u, exec .rakeStart s = .next u ∧ u.dev.mem = s.dev.mem ∧
      (u.dev.cluster s.env.unit).rake = some { slot := BitVec.ofNat 3 x } ∧
      (u.dev.cluster s.env.unit).slot x = { (s.dev.cluster s.env.unit).slot x with st := .draining } ∧
      ∀ i, i ≠ x → (u.dev.cluster s.env.unit).slot i = (s.dev.cluster s.env.unit).slot i := by
  refine ⟨_, rfl, ?_⟩
  simp only [State.onDev, hr, ho, hst, beq_self_eq_true, if_true]
  rw [Dev.cluster_setCluster, if_pos rfl]
  exact ⟨rfl, rfl, (Cluster.slot_setSlot _ hx _ _).trans (if_pos rfl), fun i hi => (Cluster.slot_setSlot _ hx _ _).trans (if_neg hi)⟩

/-! #### The last element is written -/

/-- A job without scale and bias reads no memory for an element. -/
theorem rakeBytes_plain {j : RakeJob} (hsb : j.sb = none) (env : Env) (y : RingSlot) (first : Bool) (k : ℕ) (d : Dev) :
    rakeBytes env j y first k d = .ok (natLe (fmtBytes (rdOfmt j.desc)) (rakeElem j.desc y.acc (y.elems.getD k 0) none)) d := by
  rw [rakeBytes, readScaleBias, hsb]; rfl

/-- Where no gate is in force, no token is paid (R269). -/
theorem payFrom_open {d : Dev} {t : ℕ} (h : (d.share (dieOfTile t)).gate = false) (k : ℕ) (loc : Loc) : payFrom d t k loc = some d := by
  cases loc <;> simp [payFrom, payToken, h]

/-- The one element that is left, its place found and its token free. -/
theorem rakeRun_last {env : Env} {j : RakeJob} {y : RingSlot} {r : Rake} {d d2 : Dev} {loc : Loc} {cls : BitVec 4} (hsb : j.sb = none)
    (hloc : locate env d j.who { write := true } (j.dest y r.elem) = .ok (loc, cls) d2) (hg : (d2.share (dieOfTile j.tile)).gate = false) :
    rakeRun env j y 1 r d = ({ r with
      elem := r.elem + 1, paid := some (loc.key / 128)
      out := r.out ++ [{ loc := loc, cls := cls, front := optFront j.dt
                         bytes := natLe (fmtBytes (rdOfmt j.desc)) (rakeElem j.desc y.acc (y.elems.getD r.elem 0) none) }] }, d2, .done) := by
  simp only [rakeRun, rakeWrite, rakeBytes_plain hsb, Res.bind, hloc, payFrom_open hg, ite_self]

/-- The element that is left, its place not found. -/
theorem rakeRun_fault {env : Env} {j : RakeJob} {y : RingSlot} {r : Rake} {d : Dev} {code : ℕ} {va : Dword} (hsb : j.sb = none)
    (hloc : locate env d j.who { write := true } (j.dest y r.elem) = .sys code va) :
    rakeRun env j y 1 r d = (r, d, .fault code va) := by
  simp only [rakeRun, rakeWrite, rakeBytes_plain hsb, Res.bind, hloc]

theorem storeMark_mem (env : Env) (d : Dev) (ag : Agent) (vf : BitVec 10) (cls : BitVec 4) (front : Bool) (loc : Loc) (b : List Byte) :
    (storeMark env d ag vf cls front loc b).1.mem = Memory.write loc.key b d.mem := by
  simp only [storeMark, putBytes_mem]
  exact congrArg _ (storeTs_same ..).1

/-- The bytes that a write of a path of a tile leaves, where the path is not that of A (R132). -/
theorem sentMark_mem (env : Env) (d : Dev) (t : ℕ) {p : ℕ} (hp : p ≠ 0) (vf : BitVec 10) (cls : BitVec 4) (front : Bool) (loc : Loc)
    (b : List Byte) : (sentMark env d (.tile t p) vf cls front loc b).1.mem = Memory.write loc.key (overStore env d t p loc b) d.mem := by
  simp only [sentMark, if_neg hp]
  split <;> exact storeMark_mem ..

/-- A kept translation is nothing to what a write leaves. -/
theorem overStore_keepTlb (env : Env) (d : Dev) (w : Who) (va : Dword) (t p : ℕ) (loc : Loc) (b : List Byte) :
    overStore env (keepTlb env d w va) t p loc b = overStore env d t p loc b := by
  unfold keepTlb
  split
  · rfl
  · split <;> rfl

theorem rakeOutputs {s : State} {r : Rake} {j : RakeJob} {loc : Loc} {cls : BitVec 4} {d2 : Dev}
    (hr : (s.dev.cluster s.env.unit).rake = some r) (hj : ((s.dev.cluster s.env.unit).slot r.slot.toNat).job = some j)
    (hx : j.xfer = false) (hsb : j.sb = none) (hst : r.stall = none)
    (hlast : r.elem + 1 = ((s.dev.cluster s.env.unit).slot r.slot.toNat).m * ((s.dev.cluster s.env.unit).slot r.slot.toNat).n)
    (hout : r.out = [])
    (hloc : locate s.env s.dev j.who { write := true } (j.dest ((s.dev.cluster s.env.unit).slot r.slot.toNat) r.elem) = .ok (loc, cls) d2)
    (hg : (d2.share (dieOfTile j.tile)).gate = false) (hd : rdDone j.desc = 0) :
    ∃ u, exec .rakeOutputPerformed s = .next u ∧ (u.dev.cluster s.env.unit).rake = none ∧
      (u.dev.cluster s.env.unit).slot r.slot.toNat = {} ∧
      u.dev.mem = Memory.write loc.key (overStore s.env s.dev j.tile 5 loc (natLe (fmtBytes (rdOfmt j.desc))
        (rakeElem j.desc ((s.dev.cluster s.env.unit).slot r.slot.toNat).acc
          (((s.dev.cluster s.env.unit).slot r.slot.toNat).elems.getD r.elem 0) none))) s.dev.mem := by
  refine ⟨_, rfl, ?_⟩
  have hrun := rakeRun_last hsb hloc hg
  have hone : ((s.dev.cluster s.env.unit).slot r.slot.toNat).m * ((s.dev.cluster s.env.unit).slot r.slot.toNat).n - r.elem = 1 := by omega
  simp only [State.onDev, rakePerformed, rakeOf_eq hr hj, hst, hx, hone, hrun, rakeDone, if_pos hd, Option.isSome_none, Bool.false_eq_true,
    if_false]
  refine ⟨(rakeFree_cluster ..).1, (rakeFree_cluster ..).2, ?_⟩
  simp only [rakeFree_mem, rakeKeep_mem, rakeFlush, hout, List.nil_append, List.foldl_cons, List.foldl_nil]
  rw [locate_ok hloc]
  refine (sentMark_mem _ _ _ (by decide) ..).trans ?_
  rw [overStore_keepTlb, (keepTlb_same ..).1]

/-! #### A fault stops the rake -/

theorem rakeStop_cluster (env : Env) (c : ℕ) (r : Rake) (j : RakeJob) (code : ℕ) (va : Dword) (d : Dev) :
    ((rakeStop env c r j code va d).cluster c).rake = some { r with out := [], stall := some (BitVec.ofNat 8 code), fva := va } ∧
      ∀ i, ((rakeStop env c r j code va d).cluster c).slot i = (d.cluster c).slot i := by
  obtain ⟨h1, h2⟩ := rakeKeep_cluster c { r with out := [], stall := some (BitVec.ofNat 8 code), fva := va } (rakeFlush env j r d)
  rw [rakeStop, Dev.cluster_of_cn ((postFault_cn ..).trans (keepTlb_cn ..)), h1]
  exact ⟨rfl, fun i => (h2 i).trans (by rw [Dev.cluster_of_cn (rakeFlush_cn ..)])⟩

theorem rakeStalled {s : State} {r : Rake} {j : RakeJob} {code : ℕ} {va : Dword}
    (hr : (s.dev.cluster s.env.unit).rake = some r) (hj : ((s.dev.cluster s.env.unit).slot r.slot.toNat).job = some j)
    (hx : j.xfer = false) (hsb : j.sb = none) (hst : r.stall = none)
    (hlast : r.elem + 1 = ((s.dev.cluster s.env.unit).slot r.slot.toNat).m * ((s.dev.cluster s.env.unit).slot r.slot.toNat).n)
    (hout : r.out = [])
    (hloc : locate s.env s.dev j.who { write := true } (j.dest ((s.dev.cluster s.env.unit).slot r.slot.toNat) r.elem) = .sys code va) :
    ∃ u, exec .rakeStall s = .next u ∧
      (u.dev.cluster s.env.unit).rake = some { r with stall := some (BitVec.ofNat 8 code), fva := va } ∧
      (u.dev.cluster s.env.unit).slot r.slot.toNat = (s.dev.cluster s.env.unit).slot r.slot.toNat := by
  refine ⟨_, rfl, ?_⟩
  have hrun := rakeRun_fault hsb hloc
  have hone : ((s.dev.cluster s.env.unit).slot r.slot.toNat).m * ((s.dev.cluster s.env.unit).slot r.slot.toNat).n - r.elem = 1 := by omega
  simp only [State.onDev, rakeStalls, rakeOf_eq hr hj, hst, hx, hone, hrun, Option.isSome_none, Bool.false_eq_true, if_false]
  obtain ⟨h1, h2⟩ := rakeStop_cluster s.env s.env.unit r j code va s.dev
  exact ⟨by rw [h1, hout], h2 _⟩

/-! #### A stopped rake goes on, or its slot fails -/

/-- A node that runs becomes failed (R48). -/
theorem failNode_running {env : Env} {d : Dev} {n : ℕ} {y : Node} (hy : d.node n = some y) (hp : y.ph = .running) :
    ∃ z, (failNode env d n).node n = some z ∧ z.ph = .failed := by
  refine ⟨{ y with ph := .failed, failed := true }, ?_, rfl⟩
  simp only [failNode, hy, hp, decide_true, Bool.true_or, if_true]
  rw [Dev.node_of_cn (setNodeState_cn ..)]
  exact (NMap.find_set ..).trans (if_pos rfl)

theorem rakeFail_node {env : Env} {c : ℕ} {r : Rake} {j : RakeJob} {code off : ℕ} {va : Dword} {d : Dev} {y : Node}
    (hy : d.node j.node = some y) (hp : y.ph = .running) : ∃ z, (rakeFail env c r j code off va d).node j.node = some z ∧ z.ph = .failed := by
  have hsent : (if j.xfer then landAll env (fun e => e.ag == .tile j.tile 3) d else rakeFlush env j r d).cn = d.cn := by
    split
    · exact landAll_cn ..
    · exact rakeFlush_cn ..
  refine failNode_running (d := postFault env _ _ _) ?_ hp
  rw [Dev.node_of_cn ((postFault_cn ..).trans hsent), hy]

theorem resumeRake_next {s : State} {r : Rake} {j : RakeJob} {e : BitVec 8} (hr : (s.dev.cluster (s.env.unit / 8)).rake = some r)
    (hj : ((s.dev.cluster (s.env.unit / 8)).slot r.slot.toNat).job = some j) (hst : r.stall = some e) :
    exec .resumeRake s = .next (Safety.withDev s (s.dev.setCluster (s.env.unit / 8)
      { s.dev.cluster (s.env.unit / 8) with rake := some { r with stall := none } })) := by
  have h : resumeRake s.env.unit s.dev = s.dev.setCluster (s.env.unit / 8)
      { s.dev.cluster (s.env.unit / 8) with rake := some { r with stall := none } } := by
    simp only [resumeRake, rakeOf_eq hr hj, hst, Option.isSome_some, if_true]; rfl
  rw [← h]; rfl

theorem failRakeSlot_next {s : State} {r : Rake} {j : RakeJob} {e : BitVec 8} (hr : (s.dev.cluster (s.env.unit / 8)).rake = some r)
    (hj : ((s.dev.cluster (s.env.unit / 8)).slot r.slot.toNat).job = some j) (hst : r.stall = some e) :
    ∃ u, exec .failRakeSlot s = .next u ∧ (u.dev.cluster (s.env.unit / 8)).rake = none ∧
      (u.dev.cluster (s.env.unit / 8)).slot r.slot.toNat = {} ∧
      ∀ y, s.dev.node j.node = some y → y.ph = .running → ∃ z, u.dev.node j.node = some z ∧ z.ph = .failed := by
  refine ⟨_, rfl, ?_⟩
  simp only [State.onDev, failRake, rakeOf_eq hr hj, hst]
  exact ⟨(rakeFree_cluster ..).1, (rakeFree_cluster ..).2, fun y hy hp => rakeFail_node hy hp⟩

theorem rakeMoves : Claims.RakeMoves := by
  intro s x l r j loc cls d2 code va e
  refine ⟨rakeStarts, fun hr hj hx hsb hst hlast hout => ⟨fun hloc hg hd => ?_, fun hloc => ?_⟩, fun hr hj hst => ?_⟩
  · exact rakeOutputs hr hj hx hsb hst hlast hout hloc hg hd
  · exact rakeStalled hr hj hx hsb hst hlast hout hloc
  · exact ⟨resumeRake_next hr hj hst, failRakeSlot_next hr hj hst⟩

/-- Settles O47: the moves of the rake by what a step of each leaves of its slot (`rakeFree_cluster`, `rakeStop_cluster`), with the frame
that no access changes a cluster or a node; the values of its elements by the roundings of R15 and R18 (`rakeValues`). -/
theorem rakeSteps : Obligations.RakeSteps := ⟨rakeMoves, rakeValues⟩

end Sys2Proof.Machine

namespace Sys2Proof.Machine

open Sys2Proof.Safety

/-! ### The hand-over of a cluster

The parked copies of the departing VF go to memory, which changes no cluster; then its open heads and its boundary are given up (R203). -/

theorem parkSave_keepsCn (env : Env) (t : ℕ) (vf : BitVec 10) (p : ℕ) (x : VReg) (d : Dev) : (parkSave env t vf p x d).KeepsCn d := by
  unfold parkSave
  split
  · exact Res.keepsCn_ok rfl
  · split
    · next h => exact Res.keepsCn_ok ((hwWrite_keepsCn ..).1 _ _ h)
    · next h => exact Res.keepsCn_wait ((hwWrite_keepsCn ..).2 _ _ h)
    · exact Res.keepsCn_ok rfl
    · exact Res.keepsCn_ok rfl
    · exact Res.keepsCn_ok rfl

theorem parkOut_keepsCn (env : Env) (t : ℕ) (c : TCore) (l : List (ℕ × Park)) (d : Dev) : (parkOut env t c l d).KeepsCn d := by
  induction l generalizing d with
  | nil => exact Res.keepsCn_ok rfl
  | cons e r ih =>
    unfold parkOut
    split
    · exact (parkSave_keepsCn ..).bind fun _ _ => (ih _).bind fun _ _ => Res.keepsCn_ok rfl
    · exact ih d
    · exact ih d

theorem parkSaved_keepsCn (env : Env) (vf : BitVec 10) (t f i : ℕ) (d : Dev) : (parkSaved env vf t f i d).KeepsCn d := by
  induction f generalizing i d with
  | zero => exact Res.keepsCn_ok rfl
  | succ f ih =>
    unfold parkSaved
    split
    · exact Res.keepsCn_ok rfl
    · split
      · exact (parkOut_keepsCn ..).bind fun _ _ => (ih ..).of_eq (Dev.onTile_cn ..)
      · exact ih ..

theorem parkTile_keepsCn (env : Env) (vf : BitVec 10) (t : ℕ) (d : Dev) : (parkTile env vf t d).KeepsCn d := by
  refine Res.KeepsCn.bind ?_ fun _ _ => parkSaved_keepsCn ..
  split
  · exact (parkOut_keepsCn ..).bind fun _ _ => Res.keepsCn_ok rfl
  · exact Res.keepsCn_ok rfl

theorem parkTiles_keepsCn (env : Env) (vf : BitVec 10) (l : List ℕ) (d : Dev) : (parkTiles env vf l d).KeepsCn d := by
  induction l generalizing d with
  | nil => exact Res.keepsCn_ok rfl
  | cons t r ih => exact (parkTile_keepsCn ..).bind fun _ _ => ih _

/-- A slot given back leaves the boundary. -/
theorem settlePark_bnd (d : Dev) (c : ℕ) : ((settlePark d c).cluster c).bnd = (d.cluster c).bnd := by
  refine List.foldlRecOn (motive := fun e : Dev => (e.cluster c).bnd = (d.cluster c).bnd) _ _ rfl fun e he s _ => ?_
  dsimp only
  split
  · rw [Dev.cluster_setCluster, if_pos rfl]; exact he
  · exact he

/-- One slot of a hand-over: an open head of the departing VF is given up (R203). -/
def loseHead (vf : BitVec 10) (c : ℕ) (d : Dev) (s : ℕ) : Dev :=
  let x := (d.cluster c).slot s
  if x.st == .open_ && x.vf == vf then
    let lose (y : TCore) : TCore := if y.head = some (BitVec.ofNat 3 s) then { y with head := none, headLost := true } else y
    (d.setCluster c ((d.cluster c).freeSlot s)).onTile x.tile fun y => { y with core := lose y.core, saved := y.saved.map lose }
  else d

theorem clearFor_eq (vf : BitVec 10) (c : ℕ) (d : Dev) : clearFor vf c d = ((List.range 8).foldl (loseHead vf c) d).onCluster c fun k =>
    if k.bnd.empty then k else { k with bnd := { lost := vf :: k.bnd.lost.filter (· != vf) } } := rfl

/-- A slot of a cluster is no open head of a VF. -/
def Cluster.NotOpenFor (k : Cluster) (vf : BitVec 10) (j : ℕ) : Prop := (k.slot j).st = .open_ → (k.slot j).vf ≠ vf

theorem Cluster.notOpenFor_of_slot_eq {k e : Cluster} {vf : BitVec 10} {j : ℕ} (h : e.slot j = k.slot j) (hk : k.NotOpenFor vf j) :
    e.NotOpenFor vf j := by rwa [NotOpenFor, h]

theorem Cluster.slot_freeSlot (k : Cluster) {i : ℕ} (hi : i < 8) (j : ℕ) : (k.freeSlot i).slot j = if j = i then {} else k.slot j :=
  Cluster.slot_setSlot k hi {} j

/-- A slot that the ring does not have holds nothing. -/
theorem Cluster.slot_of_ge (k : Cluster) {j : ℕ} (hj : 8 ≤ j) : k.slot j = {} := by
  simp [Cluster.slot, vget, Vector.getElem?_eq_none hj]

theorem Cluster.notOpenFor_empty {k : Cluster} {vf : BitVec 10} {j : ℕ} (h : k.slot j = {}) : k.NotOpenFor vf j := by
  rw [NotOpenFor, h]; exact fun h => nomatch h

/-- What one slot of a hand-over leaves: the boundary, that slot no head of the VF, and every slot that was none before. -/
theorem loseHead_cluster (vf : BitVec 10) (c : ℕ) (d : Dev) {s : ℕ} (hs : s < 8) :
    ((loseHead vf c d s).cluster c).bnd = (d.cluster c).bnd ∧ ((loseHead vf c d s).cluster c).NotOpenFor vf s ∧
      ∀ j, (d.cluster c).NotOpenFor vf j → ((loseHead vf c d s).cluster c).NotOpenFor vf j := by
  unfold loseHead; dsimp only
  split
  · rw [Dev.cluster_onTile, Dev.cluster_setCluster, if_pos rfl]
    have hfree (j : ℕ) := Cluster.slot_freeSlot (d.cluster c) hs j
    refine ⟨rfl, Cluster.notOpenFor_empty ((hfree s).trans (if_pos rfl)), fun j hj => ?_⟩
    by_cases h : j = s
    · exact Cluster.notOpenFor_empty ((hfree j).trans (if_pos h))
    · exact Cluster.notOpenFor_of_slot_eq ((hfree j).trans (if_neg h)) hj
  · next h =>
    refine ⟨rfl, fun hst hvf => h ?_, fun _ hj => hj⟩
    rw [hst, hvf]; simp

theorem loseHeads_cluster (vf : BitVec 10) (c : ℕ) (d : Dev) {n : ℕ} (hn : n ≤ 8) :
    (((List.range n).foldl (loseHead vf c) d).cluster c).bnd = (d.cluster c).bnd ∧
      ∀ j < n, (((List.range n).foldl (loseHead vf c) d).cluster c).NotOpenFor vf j := by
  induction n with
  | zero => exact ⟨rfl, fun _ hj => absurd hj (Nat.not_lt_zero _)⟩
  | succ n ih =>
    obtain ⟨hbnd, hslots⟩ := ih (Nat.le_of_succ_le hn)
    rw [List.range_succ, List.foldl_concat]
    obtain ⟨hb, hself, hkeep⟩ := loseHead_cluster vf c ((List.range n).foldl (loseHead vf c) d) (s := n) hn
    refine ⟨hb.trans hbnd, fun j hj => ?_⟩
    rcases Nat.lt_succ_iff_lt_or_eq.mp hj with h | rfl
    · exact hkeep j (hslots j h)
    · exact hself

/-- The cluster that a departing VF leaves (R203): no boundary, which is lost for it if there was one, and no open head of it. -/
theorem clearFor_cluster (vf : BitVec 10) (c : ℕ) (d : Dev) :
    ((clearFor vf c d).cluster c).bnd.empty = true ∧
      ((d.cluster c).bnd.empty = false → vf ∈ ((clearFor vf c d).cluster c).bnd.lost) ∧
      ∀ j, ((clearFor vf c d).cluster c).NotOpenFor vf j := by
  obtain ⟨hbnd, hslots⟩ := loseHeads_cluster vf c d (n := 8) le_rfl
  have hopen (j : ℕ) : (((List.range 8).foldl (loseHead vf c) d).cluster c).NotOpenFor vf j := by
    by_cases hj : j < 8
    · exact hslots j hj
    · exact Cluster.notOpenFor_empty (Cluster.slot_of_ge _ (not_lt.mp hj))
  rw [clearFor_eq, Dev.cluster_onCluster, if_pos rfl, ← hbnd]
  generalize ((List.range 8).foldl (loseHead vf c) d).cluster c = k at hopen
  split
  · next h => exact ⟨h, fun h' => absurd (h.symm.trans h') (by decide), hopen⟩
  · exact ⟨rfl, fun _ => List.mem_cons_self .., fun j => Cluster.notOpenFor_of_slot_eq rfl (hopen j)⟩

/-! ### Turns -/

/-- A step of another agent changes the device alone. -/
theorem run_of_eq {s : State} {f : Env → Dev → Dev} {d : Dev} (h : f s.env s.dev = d) : s.run f = .next (withDev s d) := by
  rw [State.run_eq, h]; rfl

/-- The arbiter takes the oldest request: its tile holds the cluster, for its VF (R197, R203). -/
def grantTurn (c t : ℕ) (r : List ℕ) (vf : BitVec 10) (d : Dev) : Dev :=
  d.onCluster c fun k => { k with holder := some t, reqs := r, expired := false, prevVf := some vf }

section
variable {env : Env} {d : Dev} {t : ℕ} {r : List ℕ} (hh : (d.cluster env.unit).holder = none)
  (hr : (d.cluster env.unit).reqs = t :: r)
include hh hr

/-- Commands of other tiles hold a turn back (R197). -/
theorem turnGrant_behind (hm : ∃ m ∈ (d.cluster env.unit).mq, m.tile ≠ t) : turnGrant env d = d := by
  have : ((d.cluster env.unit).mq.any fun m => m.tile != t) = true := by simpa using hm
  simp only [turnGrant, hh, hr, this, if_true]

/-- A turn within a VF is granted as it stands (R197). -/
theorem turnGrant_within (hm : ∀ m ∈ (d.cluster env.unit).mq, m.tile = t)
    (hp : (d.cluster env.unit).prevVf = none ∨ (d.cluster env.unit).prevVf = some (d.tile t).core.csr.vfid) :
    turnGrant env d = grantTurn env.unit t r (d.tile t).core.csr.vfid d := by
  have : ((d.cluster env.unit).mq.any fun m => m.tile != t) = false := by simpa using hm
  rcases hp with hp | hp <;> simp [turnGrant, hh, hr, this, hp, grantTurn]

/-- Between VFs the cluster is handed over before the turn is granted (R203). -/
theorem turnGrant_between {old : BitVec 10} {d1 : Dev} (hp : (d.cluster env.unit).prevVf = some old)
    (hvf : old ≠ (d.tile t).core.csr.vfid) (hd : drainsFor (d.cluster env.unit) old = false) (hm : (d.cluster env.unit).mq = [])
    (hpark : parkTiles env old ((List.range 8).map (8 * env.unit + ·)) d = .ok () d1) :
    turnGrant env d = grantTurn env.unit t r (d.tile t).core.csr.vfid (clearFor old env.unit (settlePark d1 env.unit)) := by
  simp only [turnGrant, hh, hr, hp, hm, hvf, hd, hpark, grantTurn, List.any_nil, List.isEmpty_nil, Bool.not_true, Bool.or_self,
    Bool.false_eq_true, if_false]
end

theorem turnsHandOver {s : State} {t : ℕ} {r : List ℕ} {old : BitVec 10} {d1 : Dev} (hh : (s.dev.cluster s.env.unit).holder = none)
    (hr : (s.dev.cluster s.env.unit).reqs = t :: r) (hp : (s.dev.cluster s.env.unit).prevVf = some old)
    (hvf : old ≠ (s.dev.tile t).core.csr.vfid) (hd : drainsFor (s.dev.cluster s.env.unit) old = false)
    (hm : (s.dev.cluster s.env.unit).mq = [])
    (hpark : parkTiles s.env old ((List.range 8).map (8 * s.env.unit + ·)) s.dev = .ok () d1) :
    ∃ u, exec .turnGrant s = .next u ∧ (u.dev.cluster s.env.unit).holder = some t ∧
      (u.dev.cluster s.env.unit).prevVf = some (s.dev.tile t).core.csr.vfid ∧ (u.dev.cluster s.env.unit).bnd.empty = true ∧
      ((s.dev.cluster s.env.unit).bnd.empty = false → old ∈ (u.dev.cluster s.env.unit).bnd.lost) ∧
      ∀ j, ((u.dev.cluster s.env.unit).slot j).st = .open_ → ((u.dev.cluster s.env.unit).slot j).vf ≠ old := by
  refine ⟨_, rfl, ?_⟩
  have hbnd : ((settlePark d1 s.env.unit).cluster s.env.unit).bnd = (s.dev.cluster s.env.unit).bnd := by
    rw [settlePark_bnd, Dev.cluster_of_cn ((parkTiles_keepsCn ..).1 _ _ hpark)]
  obtain ⟨hempty, hlost, hopen⟩ := clearFor_cluster old s.env.unit (settlePark d1 s.env.unit)
  rw [hbnd] at hlost
  rw [State.onDev_dev, turnGrant_between hh hr hp hvf hd hm hpark, grantTurn, Dev.cluster_onCluster, if_pos rfl]
  generalize (clearFor old s.env.unit (settlePark d1 s.env.unit)).cluster s.env.unit = k at hempty hlost hopen
  exact ⟨rfl, rfl, hempty, hlost, hopen⟩

/-- The end of the turn of the holder (R201): the cluster has no holder, the reason stands in LEASESTAT, the lease is kept. -/
theorem endTurn_holder {d : Dev} {t : ℕ} (why : BitVec 4) (hh : (d.cluster (t / 8)).holder = some t) :
    (endTurn d t why).mem = d.mem ∧ ((endTurn d t why).cluster (t / 8)).holder = none ∧
      ((endTurn d t why).tile t).core.lease.endc = why ∧ ((endTurn d t why).tile t).core.lease.held = (d.tile t).core.lease.held := by
  simp [endTurn, hh]

/-- An accepted command is a matter of the cluster's queue alone. -/
theorem mIdle_congr {d e : Dev} {t : ℕ} (h : (e.cluster (t / 8)).mq = (d.cluster (t / 8)).mq) : mIdle e t = mIdle d t := by
  rw [mIdle, h]; rfl

/-- The holder's turn is past its limit (R201). -/
def pastLimit (c : ℕ) (d : Dev) : Dev := d.onCluster c fun k => { k with expired := true }

theorem pastLimit_cluster (c : ℕ) (d : Dev) : (pastLimit c d).cluster c = { d.cluster c with expired := true } := by
  rw [pastLimit, Dev.cluster_onCluster, if_pos rfl]

theorem turnTimeLimit_eq {s : State} {t : ℕ} (hh : (s.dev.cluster s.env.unit).holder = some t) (ht : t / 8 = s.env.unit) :
    exec .turnTimeLimit s = .next (withDev s
      (if mIdle s.dev t then endTurn (pastLimit s.env.unit s.dev) t 4 else pastLimit s.env.unit s.dev)) := by
  have hk := pastLimit_cluster s.env.unit s.dev
  have hidle : mIdle (pastLimit s.env.unit s.dev) t = mIdle s.dev t := mIdle_congr (by rw [ht, hk])
  refine run_of_eq (f := fun env d => if (d.cluster env.unit).holder.isSome then expireTurn (pastLimit env.unit d) env.unit else d) ?_
  simp only [hh, Option.isSome_some, expireTurn, hk, hidle, Bool.true_and, if_true]

theorem turnEndBudget_eq {s : State} {t : ℕ} (hh : (s.dev.cluster s.env.unit).holder = some t) (hi : mIdle s.dev t = true)
    (hl : (s.dev.tile t).core.lease.left = 0) (hr : (s.dev.cluster s.env.unit).reqs ≠ []) (ha : atLeased s.env s.dev t = false)
    (hs : (s.dev.tile t).dbg.stopped = false) (hp : (s.dev.tile t).dbg.pending = false) :
    exec .turnEndBudget s = .next (withDev s (endTurn s.dev t 3)) := by
  refine run_of_eq (f := budgetEnd) ?_
  simp [budgetEnd, hh, hi, hl, hr, ha, hs, hp]

theorem turnSteps : Claims.TurnSteps := by
  intro s t r old d1
  refine ⟨fun hh hr => ⟨fun hm => ?_, fun hm hp => ?_, turnsHandOver hh hr⟩, fun hh ht => ⟨fun hi => ?_, fun hi => ?_, ?_⟩⟩
  · exact run_of_eq (f := turnGrant) (turnGrant_behind hh hr hm)
  · exact run_of_eq (f := turnGrant) (turnGrant_within hh hr hm hp)
  · rw [turnTimeLimit_eq hh ht, if_neg (by simp [hi])]; rfl
  · have hpast : ((pastLimit s.env.unit s.dev).cluster s.env.unit).holder = some t := by rw [pastLimit_cluster, hh]
    refine ⟨_, turnTimeLimit_eq hh ht, ?_⟩
    rw [if_pos hi]
    exact ht ▸ endTurn_holder 4 (ht.symm ▸ hpast)
  · intro hi hl hr ha hs hp
    exact ⟨_, turnEndBudget_eq hh hi hl hr ha hs hp, ht ▸ endTurn_holder 3 (ht.symm ▸ hh)⟩

end Sys2Proof.Machine

namespace Sys2Proof.Machine

open Sys2Proof.Safety

/-! ### What the array leaves as it stands

A command of the array reads on the matrix path until it completes. Its reads move timestamps and ways; memory, the clusters and the
iterations of the tiles stay. -/

/-- The iterations of a tile: whether one runs, that one, and those saved. -/
def Tile.work (y : Tile) : Bool × TCore × List TCore := (y.running, y.core, y.saved)

/-- Two devices hold the same memory, the same clusters and nodes, and on every tile the same iterations. -/
structure SameWork (d e : Dev) : Prop where
  mem : e.mem = d.mem
  cn : e.cn = d.cn
  work : ∀ t, (e.tile t).work = (d.tile t).work

namespace SameWork

theorem refl (d : Dev) : SameWork d d := ⟨rfl, rfl, fun _ => rfl⟩

theorem trans {a b c : Dev} (h : SameWork a b) (g : SameWork b c) : SameWork a c :=
  ⟨g.mem.trans h.mem, g.cn.trans h.cn, fun t => (g.work t).trans (h.work t)⟩

theorem of_tiles {d e : Dev} (hm : e.mem = d.mem) (hc : e.cn = d.cn) (ht : e.tiles = d.tiles) : SameWork d e :=
  ⟨hm, hc, fun t => by rw [Dev.tile, Dev.tile, ht]⟩

/-- A change to one tile that keeps its iterations. -/
theorem onTile (d : Dev) (t : ℕ) {f : Tile → Tile} (hf : ∀ y, (f y).work = y.work) : SameWork d (d.onTile t f) := by
  refine ⟨rfl, rfl, fun u => ?_⟩
  rw [Dev.tile_onTile]
  split
  · next h => rw [h]; exact hf _
  · rfl

theorem cluster {d e : Dev} (h : SameWork d e) (c : ℕ) : e.cluster c = d.cluster c := Dev.cluster_of_cn h.cn c

theorem running {d e : Dev} (h : SameWork d e) (t : ℕ) : (e.tile t).running = (d.tile t).running := congrArg (·.1) (h.work t)

theorem core {d e : Dev} (h : SameWork d e) (t : ℕ) : (e.tile t).core = (d.tile t).core := congrArg (·.2.1) (h.work t)

theorem saved {d e : Dev} (h : SameWork d e) (t : ℕ) : (e.tile t).saved = (d.tile t).saved := congrArg (·.2.2) (h.work t)

theorem runs {d e : Dev} (h : SameWork d e) (t serial : ℕ) : (e.tile t).runs serial = (d.tile t).runs serial := by
  rw [Tile.runs, Tile.runs, h.running, h.core]

theorem savedOf {d e : Dev} (h : SameWork d e) (t serial : ℕ) : (e.tile t).savedOf serial = (d.tile t).savedOf serial := by
  rw [Tile.savedOf, Tile.savedOf, h.saved]

/-- The same change to an iteration. -/
theorem onCore {d e : Dev} (h : SameWork d e) (t : ℕ) (f : TCore → TCore) : SameWork (d.onCore t f) (e.onCore t f) := by
  refine ⟨h.mem, h.cn, fun u => ?_⟩
  rw [Dev.tile_onCore, Dev.tile_onCore]
  split
  · exact congrArg (fun w : Bool × TCore × List TCore => (w.1, f w.2.1, w.2.2)) (h.work t)
  · exact h.work u

/-- The same change to a cluster. -/
theorem onCluster {d e : Dev} (h : SameWork d e) (c : ℕ) (f : Cluster → Cluster) : SameWork (d.onCluster c f) (e.onCluster c f) := by
  refine ⟨h.mem, ?_, h.work⟩
  rw [Dev.onCluster, Dev.onCluster, h.cluster]
  exact congrArg (fun x : NMap Cluster × NMap Node => (x.1.set c (f (d.cluster c)), x.2)) h.cn

end SameWork

theorem countEv_sameWork (d : Dev) (t : ℕ) (vf : BitVec 10) (ev n : ℕ) : SameWork d (countEv d t vf ev n) :=
  SameWork.of_tiles (countEv_mem ..) (countEv_cn ..) (countEv_tiles ..)

theorem setPts_sameWork (d : Dev) (t p : ℕ) (x : Dword) : SameWork d (setPts d (.tile t p) x) := by
  rw [setPts]
  exact SameWork.onTile d t fun _ => rfl

theorem l2Touch_sameWork (env : Env) (d : Dev) (t pa : ℕ) (vf : BitVec 10) (cls : BitVec 4) (front : Bool) :
    SameWork d (l2Touch env d t pa vf cls front).2.2 := by
  unfold l2Touch; dsimp only
  split
  · exact SameWork.of_tiles rfl rfl rfl
  · split
    · exact SameWork.refl d
    · refine SameWork.trans ?_ (countEv_sameWork (d.setSlice _ _) ..)
      exact SameWork.of_tiles rfl rfl rfl

theorem l2Set_sameWork (env : Env) (d : Dev) (pa : ℕ) (kept : Bool) (wts rts : Dword) : SameWork d (l2Set env d pa kept wts rts) := by
  unfold l2Set; dsimp only
  split <;> exact SameWork.of_tiles rfl rfl rfl

theorem loadTs_sameWork (env : Env) (d : Dev) (t p : ℕ) (vf : BitVec 10) (cls : BitVec 4) (front : Bool) (loc : Loc) :
    SameWork d (loadTs env d (.tile t p) vf cls front loc).1 := by
  cases loc with
  | hbm pa => exact ((l2Touch_sameWork env d t pa vf cls front).trans (l2Set_sameWork ..)).trans (setPts_sameWork ..)
  | spad u o =>
    refine SameWork.trans (SameWork.onTile d u ?_) (setPts_sameWork ..)
    exact fun _ => rfl
  | staging v o => exact SameWork.refl d
  | port v => exact SameWork.refl d

theorem lateRead_sameWork (env : Env) (d : Dev) (t p : ℕ) (vf : BitVec 10) (cls : BitVec 4) (front : Bool) (loc : Loc) (b : List Byte) :
    SameWork d (lateRead env d t p vf cls front loc b).2 := by
  unfold lateRead; dsimp only
  split
  · exact SameWork.refl d
  · split
    · exact SameWork.refl d
    · exact loadTs_sameWork ..

theorem mapDev_sameWork {α β : Type} {f : α → Dev → β × Dev} (hf : ∀ x d, SameWork d (f x d).2) (l : List α) (d : Dev) :
    SameWork d (mapDev f l d).2 := by
  induction l generalizing d with
  | nil => exact SameWork.refl d
  | cons x r ih => exact (hf x d).trans (ih _)

theorem latePiece_sameWork (env : Env) (t : ℕ) (vf : BitVec 10) (p : Piece) (d : Dev) : SameWork d (latePiece env t vf p d).2 :=
  lateRead_sameWork ..

theorem lateBox_sameWork (env : Env) (t : ℕ) (vf : BitVec 10) (b : ReadBox) (d : Dev) : SameWork d (b.late env t vf d).2 :=
  mapDev_sameWork (mapDev_sameWork (latePiece_sameWork env t vf)) b.spans d

theorem lateOperand_sameWork (env : Env) (t : ℕ) (vf : BitVec 10) (o : OpRead) (d : Dev) : SameWork d (o.late env t vf d).2 := by
  refine (lateBox_sameWork env t vf o.rows d).trans (mapDev_sameWork (mapDev_sameWork fun x e => ?_) o.codes _)
  exact (mapDev_sameWork (latePiece_sameWork env t vf) x.1 e).trans (mapDev_sameWork (latePiece_sameWork env t vf) x.2 _)

theorem unpin_sameWork (env : Env) (d : Dev) (l : List (Loc × BitVec 4)) : SameWork d (unpin env d l) := by
  refine List.foldlRecOn (motive := SameWork d) _ _ (SameWork.refl d) fun e he x _ => he.trans ?_
  split
  · exact SameWork.of_tiles rfl rfl rfl
  · exact SameWork.refl e
  · exact SameWork.refl e
  · exact SameWork.refl e

/-! ### The completion of a command of an iteration that runs -/

/-- No image has the CSR of an iteration that is not saved. -/
theorem imageCsr_unsaved {d : Dev} {t serial : ℕ} (h : (d.tile t).savedOf serial = none) (env : Env) (i : ℕ) (f : TCore → ℕ) :
    imageCsr env t serial i f d = d := by simp only [imageCsr, h]

theorem onIter_running {d : Dev} {t serial : ℕ} (h : (d.tile t).runs serial = true) (f : TCore → TCore) :
    onIter d t serial f = d.onCore t f := if_pos h

theorem savedOf_onCore (d : Dev) (t : ℕ) (f : TCore → TCore) (u serial : ℕ) :
    ((d.onCore t f).tile u).savedOf serial = (d.tile u).savedOf serial := by
  rw [Dev.tile_onCore]; split
  · subst_vars; rfl
  · rfl

/-- The status of a command at its completion (R204, R210). -/
def noteDone (m : MCmd) (fl : MFlags) (c : TCore) : TCore :=
  { c with csr := { c.csr with mstat := c.csr.mstat ||| fl }
           lease := { c.lease with lastW := (m.walk + 1).setWidth 24, lastF := fl } }

/-- The count of the steps of a chain at a completion (R36). -/
def noteStep (c : TCore) : TCore := { c with csr := { c.csr with cstep := c.csr.cstep + 1 } }

theorem noteStep_iter (c : TCore) : (noteStep c).iter = c.iter := rfl

/-- A command's iteration runs on its tile and is not saved. -/
structure MCmd.Runs (m : MCmd) (d : Dev) : Prop where
  runs : (d.tile m.tile).runs m.serial = true
  unsaved : (d.tile m.tile).savedOf m.serial = none

theorem MCmd.Runs.of_sameWork {m : MCmd} {d e : Dev} (h : m.Runs d) (he : SameWork d e) : m.Runs e :=
  ⟨(he.runs ..).trans h.runs, (he.savedOf ..).trans h.unsaved⟩

theorem MCmd.Runs.onCluster {m : MCmd} {d : Dev} (h : m.Runs d) (c : ℕ) (f : Cluster → Cluster) : m.Runs (d.onCluster c f) := ⟨h.1, h.2⟩

theorem cmdDone_running {m : MCmd} {d : Dev} (h : m.Runs d) (env : Env) (fl : MFlags) :
    SameWork (d.onCore m.tile (noteDone m fl)) (cmdDone env m fl d) := by
  have hpins := unpin_sameWork env d m.pins
  have hiter : SameWork (d.onCore m.tile (noteDone m fl))
      (countEv (onIter (unpin env d m.pins) m.tile m.serial (noteDone m fl)) m.tile m.vf 5 1) := by
    rw [onIter_running (h.of_sameWork hpins).runs]
    exact (hpins.onCore ..).trans (countEv_sameWork ..)
  have hdone : cmdDone env m fl d = countEv (onIter (unpin env d m.pins) m.tile m.serial (noteDone m fl)) m.tile m.vf 5 1 :=
    imageCsr_unsaved (((hiter.savedOf ..).trans (savedOf_onCore ..)).trans h.unsaved) ..
  exact hdone ▸ hiter

theorem stepDone_running {m : MCmd} {d : Dev} (h : m.Runs d) (env : Env) : stepDone env m d = d.onCore m.tile noteStep := by
  rw [stepDone, onIter_running h.runs, imageCsr_unsaved ((savedOf_onCore ..).trans h.unsaved)]; rfl

theorem MCmd.Runs.onCore {m : MCmd} {d : Dev} (h : m.Runs d) {f : TCore → TCore} (hf : ∀ c, (f c).iter = c.iter) :
    m.Runs (d.onCore m.tile f) := by
  refine ⟨?_, (savedOf_onCore ..).trans h.unsaved⟩
  have hr := h.runs
  rw [Dev.tile_onCore, if_pos rfl]
  simpa only [Tile.runs, hf] using hr

/-! ### The head of the array's order -/

/-- The product that a command adds to a slot, its operands as they are read by its completion (R210; log entry 106). -/
def slotProduct (env : Env) (m : MCmd) (x : RingSlot) (g : ℕ) (a b : OpRead) (d : Dev) : List Word × MFlags :=
  let a1 := a.late env m.tile m.vf d
  let b1 := b.late env m.tile m.vf a1.2
  matMul x.acc g a1.1.opnd b1.1.opnd x.elems

/-- The boundary that a step leaves: its product with the one before, or with the box of a first step (R34, R222). -/
def stepProduct (env : Env) (m : MCmd) (st : ChainStep) (bnd : Boundary) (d : Dev) : Boundary × MFlags :=
  let y := st.core.late env m.tile m.vf d
  absorb st (st.cols y.1) (match st.init with
    | some (ext, box) => bnd.load m.vf ext (box.late env m.tile m.vf y.2).1.fp32
    | none => bnd)

/-- A product goes to its slot (R210). -/
theorem runHead_mma {m : MCmd} {d : Dev} (h : m.Runs d) (env : Env) (c : ℕ) {z : BitVec 3} {g : ℕ} {a b : OpRead}
    (hk : m.kind = .mma z g a b) :
    let x := (d.cluster c).slot z.toNat
    let p := slotProduct env m x g a b d
    SameWork ((d.onCluster c fun k => k.setSlot z.toNat { x with elems := p.1 }).onCore m.tile (noteDone m p.2)) (runHead env c m d) := by
  intro x p
  have hread := (lateOperand_sameWork env m.tile m.vf a d).trans (lateOperand_sameWork env m.tile m.vf b _)
  have hrun : runHead env c m d = cmdDone env m p.2
      ((b.late env m.tile m.vf (a.late env m.tile m.vf d).2).2.onCluster c fun k => k.setSlot z.toNat { x with elems := p.1 }) := by
    rw [runHead, hk]; rfl
  exact hrun ▸ ((hread.onCluster ..).onCore ..).trans (cmdDone_running ((h.of_sameWork hread).onCluster ..) ..)

/-- A step's product goes to the boundary (R34, R222). -/
theorem runHead_step {m : MCmd} {d : Dev} (h : m.Runs d) (env : Env) (c : ℕ) {st : ChainStep} (hk : m.kind = .step st)
    (he : st.emit = none) :
    let p := stepProduct env m st (d.cluster c).bnd d
    SameWork (((d.onCluster c fun k => { k with bnd := p.1 }).onCore m.tile noteStep).onCore m.tile (noteDone m p.2))
      (runHead env c m d) := by
  intro p
  have hend {e : Dev} (hread : SameWork d e) :
      SameWork (((d.onCluster c fun k => { k with bnd := p.1 }).onCore m.tile noteStep).onCore m.tile (noteDone m p.2))
        (cmdDone env m p.2 (stepDone env m (e.onCluster c fun k => { k with bnd := p.1 }))) := by
    have hruns := (h.of_sameWork hread).onCluster c fun k => { k with bnd := p.1 }
    rw [stepDone_running hruns]
    exact (((hread.onCluster ..).onCore ..).onCore ..).trans (cmdDone_running (hruns.onCore noteStep_iter) ..)
  have hcore : SameWork d (st.core.late env m.tile m.vf d).2 := lateBox_sameWork ..
  cases hi : st.init with
  | none =>
    have hrun : runHead env c m d = cmdDone env m p.2
        (stepDone env m ((st.core.late env m.tile m.vf d).2.onCluster c fun k => { k with bnd := p.1 })) := by
      simp only [p, stepProduct, runHead, hk, he, hi]
    exact hrun ▸ hend hcore
  | some x =>
    have hrun : runHead env c m d = cmdDone env m p.2 (stepDone env m
        ((x.2.late env m.tile m.vf (st.core.late env m.tile m.vf d).2).2.onCluster c fun k => { k with bnd := p.1 })) := by
      simp only [p, stepProduct, runHead, hk, he, hi]
    exact hrun ▸ hend (hcore.trans (lateBox_sameWork ..))

/-- The only command completes, with no turn past its limit (R197, R210): what it does, and no command left. -/
theorem headDone_last {env : Env} {d e : Dev} {m : MCmd} {steps : Bool} (hm : (d.cluster env.unit).mq = [m])
    (hs : m.kind.isStep = steps) (he : SameWork e (runHead env env.unit m d)) (hx : (e.cluster env.unit).expired = false) :
    SameWork (e.onCluster env.unit fun k => { k with mq := [] }) (headDone steps env d) := by
  have hwork := he.onCluster env.unit fun k => { k with mq := [] }
  have hexp : ((runHead env env.unit m d).onCluster env.unit fun k => { k with mq := [] }).cluster env.unit =
      { e.cluster env.unit with mq := [] } := by rw [hwork.cluster, Dev.cluster_onCluster, if_pos rfl]
  have hdone : headDone steps env d = (runHead env env.unit m d).onCluster env.unit fun k => { k with mq := [] } := by
    simp only [headDone, hm, hs, bne_self_eq_false, Bool.false_eq_true, if_false]
    change expireTurn ((runHead env env.unit m d).onCluster env.unit fun k => { k with mq := [] }) env.unit = _
    unfold expireTurn
    rw [hexp]
    simp only [hx, Bool.false_and, Bool.false_eq_true, if_false]
    split <;> rfl
  exact hdone ▸ hwork

section
variable {s : State} {m : MCmd} (hm : (s.dev.cluster s.env.unit).mq = [m]) (hx : (s.dev.cluster s.env.unit).expired = false)
  (h : m.Runs s.dev)
include hm hx h

theorem matrixCommandCompletes {z : BitVec 3} {g : ℕ} {a b : OpRead} (hk : m.kind = .mma z g a b) :
    let x := (s.dev.cluster s.env.unit).slot z.toNat
    let p := slotProduct s.env m x g a b s.dev
    ∃ u, exec .matrixCommandComplete s = .next u ∧ MemSame s u ∧ (u.dev.cluster s.env.unit).mq = [] ∧
      (u.dev.cluster s.env.unit).slot z.toNat = { x with elems := p.1 } ∧
      (u.dev.tile m.tile).core.csr.mstat = (s.dev.tile m.tile).core.csr.mstat ||| p.2 ∧
      (u.dev.tile m.tile).core.lease.lastF = p.2 ∧ (u.dev.tile m.tile).core.regs = (s.dev.tile m.tile).core.regs := by
  intro x p
  have hw := headDone_last (steps := false) hm (by rw [hk]; rfl) (runHead_mma h s.env s.env.unit hk)
    (by rw [Dev.cluster_onCore, Dev.cluster_onCluster, if_pos rfl]; exact hx)
  refine ⟨_, rfl, fun n => congrArg (Memory.get n) hw.mem, ?_⟩
  rw [State.onDev_dev, hw.cluster, hw.core, Dev.cluster_onCluster, if_pos rfl, Dev.cluster_onCore, Dev.cluster_onCluster, if_pos rfl,
    Dev.tile_onCluster, Dev.tile_onCore, if_pos rfl, Dev.tile_onCluster]
  exact ⟨rfl, (Cluster.slot_setSlot _ z.isLt _ _).trans (if_pos rfl), rfl, rfl, rfl⟩

theorem chainRecordCompletes {st : ChainStep} (hk : m.kind = .step st) (he : st.emit = none) :
    let p := stepProduct s.env m st (s.dev.cluster s.env.unit).bnd s.dev
    ∃ u, exec .chainRecordComplete s = .next u ∧ MemSame s u ∧ (u.dev.cluster s.env.unit).mq = [] ∧
      (u.dev.cluster s.env.unit).bnd = p.1 ∧
      (u.dev.tile m.tile).core.csr.cstep = (s.dev.tile m.tile).core.csr.cstep + 1 ∧
      (u.dev.tile m.tile).core.csr.mstat = (s.dev.tile m.tile).core.csr.mstat ||| p.2 ∧
      (u.dev.tile m.tile).core.regs = (s.dev.tile m.tile).core.regs := by
  intro p
  have hw := headDone_last (steps := true) hm (by rw [hk]; rfl) (runHead_step h s.env s.env.unit hk he)
    (by rw [Dev.cluster_onCore, Dev.cluster_onCore, Dev.cluster_onCluster, if_pos rfl]; exact hx)
  refine ⟨_, rfl, fun n => congrArg (Memory.get n) hw.mem, ?_⟩
  rw [State.onDev_dev, hw.cluster, hw.core, Dev.cluster_onCluster, if_pos rfl, Dev.cluster_onCore, Dev.cluster_onCore,
    Dev.cluster_onCluster, if_pos rfl, Dev.tile_onCluster, Dev.tile_onCore, if_pos rfl, Dev.tile_onCore, if_pos rfl, Dev.tile_onCluster]
  exact ⟨rfl, rfl, rfl, rfl, rfl⟩

end

/-! ### The notifies of the matrix path -/

theorem post_ev {c : TCore} (h : c.ev.length < 256) (r : Rec16) (ts : Dword) : (c.post r ts).ev = c.ev ++ [(r, ts)] := by
  rw [TCore.post, if_pos h]

/-- A notify that nothing of its tile stands before posts its record (R113, R219). -/
theorem mnotifyDone_first {env : Env} {d : Dev} {n : MNote} {tag : Dword} (hn : (d.cluster (env.unit / 8)).notes = [n])
    (ht : n.tile = env.unit) (htag : n.tag = some tag) (hm : (d.cluster (env.unit / 8)).mq = [])
    (hj : jobsLeft d env.unit n.serial n.walk = []) (hr : (d.tile env.unit).runs n.serial = true) :
    mnotifyDone env d = (d.setCluster (env.unit / 8) { d.cluster (env.unit / 8) with notes := [] }).onCore env.unit fun c =>
      c.post (cmdRecord tag 0 7 31 0) (dmax (getPts d (.tile env.unit 5)) (getPts d (.tile env.unit 3))) := by
  have hfind : (d.cluster (env.unit / 8)).notes.find? (fun n => n.tile == env.unit) = some n := by simp [hn, ht]
  have herase : (d.cluster (env.unit / 8)).notes.erase n = [] := by simp [hn]
  simp only [mnotifyDone, hfind, hm, hj, htag, herase, List.any_nil, List.isEmpty_nil, Bool.not_true, Bool.or_self, Bool.false_eq_true,
    if_false]
  exact if_pos hr

theorem mnotifyCompletes {s : State} {n : MNote} {tag : Dword} (hn : (s.dev.cluster (s.env.unit / 8)).notes = [n])
    (ht : n.tile = s.env.unit) (htag : n.tag = some tag) (hm : (s.dev.cluster (s.env.unit / 8)).mq = [])
    (hj : jobsLeft s.dev s.env.unit n.serial n.walk = []) (hr : (unitTile s).runs n.serial = true) (hev : (iter s).ev.length < 256) :
    ∃ u, exec .mnotifyComplete s = .next u ∧ MemSame s u ∧ (u.dev.cluster (s.env.unit / 8)).notes = [] ∧
      (iter u).ev = (iter s).ev ++ [(cmdRecord tag 0 7 31 0,
        dmax (getPts s.dev (.tile s.env.unit 5)) (getPts s.dev (.tile s.env.unit 3)))] := by
  refine ⟨_, rfl, ?_⟩
  have h := mnotifyDone_first hn ht htag hm hj hr
  refine ⟨fun a => ?_, ?_, ?_⟩
  · rw [State.onDev_dev, h]; rfl
  · rw [State.onDev_dev, h, Dev.cluster_onCore, Dev.cluster_setCluster, if_pos rfl]
  · rw [iter, unitTile, State.onDev_dev, State.onDev_env, h, Dev.tile_onCore, if_pos rfl]
    exact post_ev hev _ _

theorem arraySteps : Claims.ArraySteps := by
  intro s m z g a b st n tag
  refine ⟨fun hm hx hr hs => ⟨?_, ?_⟩, mnotifyCompletes⟩
  · exact matrixCommandCompletes hm hx ⟨hr, hs⟩
  · exact chainRecordCompletes hm hx ⟨hr, hs⟩

/-- Settles O46: the turns by what a grant, a hand-over (`clearFor_cluster`) and an end of a turn (`endTurn_holder`) leave of the cluster;
the array by what the command at its head does (`runHead_mma`, `runHead_step`), with the frame that its reads change no memory, no
cluster and no iteration (`SameWork`). -/
theorem turnAndArraySteps : Obligations.TurnAndArraySteps := ⟨turnSteps, arraySteps⟩

end Sys2Proof.Machine

namespace Sys2Proof.Machine

/-! ### What no access changes

An access moves timestamps, ways, copies and tokens, keeps translations, starts promotions and writes bytes; a record takes a number, and
an update may wait. A view of the device that shows none of these is the same before and after, whatever the access comes to. -/

/-- What an access leaves of a tile: all but its timestamps, its L1 copies, its share tokens and the number of its next record. -/
def Tile.Touched (y z : Tile) : Prop :=
  z = { y with spTs := z.spTs, l1 := z.l1, pts := z.pts, bucket := z.bucket, frSeq := z.frSeq }

/-- A view of the device that no access changes. -/
structure Quiet {β : Type} (π : Dev → β) : Prop where
  tile : ∀ (d : Dev) (t : ℕ) (f : Tile → Tile), (∀ y : Tile, y.Touched (f y)) → π (d.onTile t f) = π d
  slice : ∀ (d : Dev) (k : ℕ) (x : Slice), π (d.setSlice k x) = π d
  event : ∀ (d : Dev) (t : ℕ) (vf : BitVec 10) (ev n : ℕ), π (countEv d t vf ev n) = π d
  rest : ∀ (d : Dev) (mem : List Host.Cell) (past : List Past) (tlb : List TlbEntry) (later : List Later) (streams : NMap StreamSt)
    (mig : Mig) (cores : NMap SysCore) (fqdrop : Word) (frSeq : BitVec 16),
    π { d with mem := mem, past := past, tlb := tlb, later := later, streams := streams, mig := mig, cores := cores, fqdrop := fqdrop,
               frSeq := frSeq } = π d

/-- A view of one tile that looks at none of what an access touches there. -/
theorem quiet_tile {β : Type} {g : Tile → β} (hg : ∀ y z : Tile, y.Touched z → g z = g y) (t : ℕ) : Quiet fun d => g (d.tile t) where
  tile d u f hf := by
    rw [Dev.tile_onTile]
    split
    · next h => rw [h]; exact hg _ _ (hf _)
    · rfl
  slice _ _ _ := rfl
  event d u vf ev n := by rw [countEv_tile]
  rest _ _ _ _ _ _ _ _ _ _ := rfl

/-- What a tile shows of the iteration it runs: whether one runs, whose scratchpad it is, and that iteration. -/
def Tile.task (y : Tile) : Bool × Option (BitVec 10) × TCore := (y.running, y.tag, y.core)

theorem Tile.Touched.task_eq {y z : Tile} (h : y.Touched z) : z.task = y.task := by rw [Tile.Touched] at h; rw [h]; rfl

theorem quiet_task (t : ℕ) : Quiet fun d => (d.tile t).task := quiet_tile (fun _ _ h => h.task_eq) t

theorem quiet_core (t : ℕ) : Quiet fun d => (d.tile t).core := quiet_tile (fun _ _ h => congrArg (·.2.2) h.task_eq) t

theorem quiet_nodeNext : Quiet Dev.nodeNext where
  tile _ _ _ _ := rfl
  slice _ _ _ := rfl
  event d t vf ev n := by rw [countEv_eq]
  rest _ _ _ _ _ _ _ _ _ _ := rfl

theorem quiet_parts : Quiet Dev.parts where
  tile _ _ _ _ := rfl
  slice _ _ _ := rfl
  event d t vf ev n := by rw [countEv_eq]
  rest _ _ _ _ _ _ _ _ _ _ := rfl

/-- An attempt keeps a view of a device, whether it is done or waits. -/
def Res.Keeps {α β : Type} (π : Dev → β) (d : Dev) : Res α → Prop
  | .ok _ e => π e = π d
  | .wait _ e => π e = π d
  | .trap _ _ _ _ _ => True
  | .sys _ _ => True
  | .roll _ => True

section
variable {α β γ : Type} {π : Dev → β}

theorem Res.Keeps.of_eq {d e : Dev} {r : Res α} (hr : r.Keeps π e) (he : π e = π d) : r.Keeps π d := by
  cases r with
  | ok x a => exact Eq.trans hr he
  | wait w a => exact Eq.trans hr he
  | trap c i0 i1 i2 i3 => trivial
  | sys c va => trivial
  | roll c => trivial

theorem Res.Keeps.ok {d e : Dev} {r : Res α} {x : α} (hr : r.Keeps π d) (h : r = .ok x e) : π e = π d := by rw [h] at hr; exact hr

theorem Res.Keeps.wait {d e : Dev} {r : Res α} {w : Wait} (hr : r.Keeps π d) (h : r = .wait w e) : π e = π d := by rw [h] at hr; exact hr

theorem Res.Keeps.bind {d : Dev} {r : Res α} {f : α → Dev → Res γ} (hr : r.Keeps π d) (hf : ∀ x e, (f x e).Keeps π e) :
    (r.bind f).Keeps π d := by
  cases r with
  | ok x e => exact (hf x e).of_eq hr
  | wait w e => exact hr
  | trap c i0 i1 i2 i3 => trivial
  | sys c va => trivial
  | roll c => trivial

end

/-- A line is loaded by loads within it (R243). -/
theorem tileLine_keeps {β : Type} {π : Dev → β} {env : Env} {t : ℕ} {vf : BitVec 10} {cls : BitVec 4}
    (hload : ∀ d loc n, (tileLoad env d t vf cls loc n).Keeps π d) (d : Dev) (loc : Loc) : (tileLine env d t vf cls loc).Keeps π d := by
  cases loc <;> simp only [tileLine]
  case spad u o => exact (hload ..).bind fun _ _ => (hload ..).bind fun _ _ => Eq.refl _
  case hbm pa => exact hload ..
  case staging s o => exact hload ..
  case port v => exact hload ..

section
variable {β : Type} {π : Dev → β} (hπ : Quiet π)
include hπ

/-! #### Translation and timestamps -/

theorem keepTlb_quiet (env : Env) (d : Dev) (w : Who) (va : Dword) : π (keepTlb env d w va) = π d := by
  unfold keepTlb
  split
  · rfl
  · split
    · rfl
    · rfl
    · exact hπ.rest d ..

theorem startPromo_quiet (d : Dev) (p : Promo) : π (startPromo d p) = π d := by
  unfold startPromo
  split
  · rfl
  · exact hπ.rest d ..

theorem locate_quiet (env : Env) (d : Dev) (w : Who) (k : AccKind) (va : Dword) : (locate env d w k va).Keeps π d := by
  unfold locate
  split
  · exact keepTlb_quiet hπ ..
  · trivial
  · exact startPromo_quiet hπ ..
  · exact rfl
  · trivial

theorem setPts_quiet (d : Dev) (ag : Agent) (x : Dword) : π (setPts d ag x) = π d := by
  cases ag with
  | stamp y => rfl
  | tile t p => rw [setPts]; exact hπ.tile d t _ fun _ => rfl
  | core n => exact hπ.rest d ..
  | stream k => exact hπ.rest d ..
  | none => rfl

theorem l2Touch_quiet (env : Env) (d : Dev) (t pa : ℕ) (vf : BitVec 10) (cls : BitVec 4) (front : Bool) :
    π (l2Touch env d t pa vf cls front).2.2 = π d := by
  unfold l2Touch; dsimp only
  split
  · exact hπ.slice ..
  · split
    · rfl
    · exact (hπ.event ..).trans (hπ.slice ..)

theorem l2Set_quiet (env : Env) (d : Dev) (pa : ℕ) (kept : Bool) (wts rts : Dword) : π (l2Set env d pa kept wts rts) = π d := by
  unfold l2Set; dsimp only
  split <;> exact hπ.slice ..

theorem loadTs_quiet (env : Env) (d : Dev) (ag : Agent) (vf : BitVec 10) (cls : BitVec 4) (front : Bool) (loc : Loc) :
    π (loadTs env d ag vf cls front loc).1 = π d := by
  cases loc with
  | hbm pa => exact (setPts_quiet hπ ..).trans ((l2Set_quiet hπ ..).trans (l2Touch_quiet hπ ..))
  | spad t o => exact (setPts_quiet hπ ..).trans (hπ.tile d t _ fun _ => rfl)
  | staging s o => rfl
  | port v => rfl

theorem storeTs_quiet (env : Env) (d : Dev) (ag : Agent) (vf : BitVec 10) (cls : BitVec 4) (front : Bool) (loc : Loc) :
    π (storeTs env d ag vf cls front loc).1 = π d := by
  cases loc with
  | hbm pa => exact (setPts_quiet hπ ..).trans ((l2Set_quiet hπ ..).trans (l2Touch_quiet hπ ..))
  | spad t o => exact (setPts_quiet hπ ..).trans (hπ.tile d t _ fun _ => rfl)
  | staging s o => rfl
  | port v => rfl

/-! #### Bytes -/

theorem dropResv_quiet (d : Dev) (k n : ℕ) : π (dropResv d k n) = π d := by
  unfold dropResv
  split
  · rfl
  · exact hπ.rest d ..

theorem markDirty_quiet (d : Dev) (loc : Loc) : π (markDirty d loc) = π d := by
  cases loc with
  | hbm pa =>
    simp only [markDirty]
    split
    · rfl
    · exact hπ.rest d ..
  | spad t o => rfl
  | staging s o => rfl
  | port v => rfl

theorem putBytes_quiet (d : Dev) (loc : Loc) (b : List Byte) : π (putBytes d loc b) = π d :=
  (markDirty_quiet hπ ..).trans ((dropResv_quiet hπ ..).trans (hπ.rest d ..))

theorem storeMark_quiet (env : Env) (d : Dev) (ag : Agent) (vf : BitVec 10) (cls : BitVec 4) (front : Bool) (loc : Loc)
    (b : List Byte) : π (storeMark env d ag vf cls front loc b).1 = π d :=
  (putBytes_quiet hπ ..).trans ((hπ.rest (storeTs env d ag vf cls front loc).1 ..).trans (storeTs_quiet hπ ..))

theorem storeAt_quiet (env : Env) (d : Dev) (ag : Agent) (vf : BitVec 10) (cls : BitVec 4) (loc : Loc) (b : List Byte) :
    π (storeAt env d ag vf cls loc b) = π d := storeMark_quiet hπ ..

/-! #### Loads and stores of several units -/

theorem payToken_quiet {d e : Dev} {t : ℕ} {loc : Loc} (h : payToken d t loc = some e) : π e = π d := by
  cases loc with
  | hbm pa =>
    simp only [payToken] at h
    split at h
    · split at h
      · cases h
      · cases h; exact hπ.tile d t _ fun _ => rfl
    · cases h; rfl
  | spad u o => cases h; rfl
  | staging u o => cases h; rfl
  | port v => cases h; rfl

theorem tileLoad_quiet (env : Env) (d : Dev) (t : ℕ) (vf : BitVec 10) (cls : BitVec 4) (loc : Loc) (n : ℕ) :
    (tileLoad env d t vf cls loc n).Keeps π d := by
  cases loc with
  | hbm pa =>
    simp only [tileLoad]
    split
    · exact setPts_quiet hπ ..
    · split
      · exact rfl
      · next d0 hpay =>
        have hcopy (e : Dev) (c : L1Copy) : π (e.onTile t fun y => y.l1Put (Config.l1Victim env.tick) c) = π e :=
          hπ.tile e t _ fun y => by rw [Tile.Touched, l1Put_eq]
        exact (hcopy ..).trans ((loadTs_quiet hπ ..).trans (payToken_quiet hπ hpay))
  | spad u o => exact loadTs_quiet hπ ..
  | staging s o => exact rfl
  | port v => exact rfl

theorem tileLine_quiet (env : Env) (d : Dev) (t : ℕ) (vf : BitVec 10) (cls : BitVec 4) (loc : Loc) :
    (tileLine env d t vf cls loc).Keeps π d := tileLine_keeps (fun _ _ _ => tileLoad_quiet hπ ..) d loc

theorem loadSpan_quiet (env : Env) (ag : Agent) (vf : BitVec 10) (cls : BitVec 4) (f : ℕ) (d : Dev) (loc : Loc) (n : ℕ) :
    π (loadSpan env ag vf cls f d loc n).2 = π d := by
  induction f generalizing d loc n with
  | zero => rfl
  | succ f ih =>
    unfold loadSpan; dsimp only
    split
    · rfl
    · exact (ih ..).trans (loadTs_quiet hπ ..)

theorem storeSpan_quiet (env : Env) (ag : Agent) (vf : BitVec 10) (cls : BitVec 4) (f : ℕ) (d : Dev) (loc : Loc) (b : List Byte) :
    π (storeSpan env ag vf cls f d loc b) = π d := by
  induction f generalizing d loc b with
  | zero => rfl
  | succ f ih =>
    unfold storeSpan; dsimp only
    split
    · rfl
    · exact (ih ..).trans (storeAt_quiet hπ ..)

theorem stampSpan_quiet (env : Env) (vf : BitVec 10) (cls : BitVec 4) (f : ℕ) (d : Dev) (ts : Dword) (loc : Loc) (b : List Byte) :
    π (stampSpan env vf cls f d ts loc b).1 = π d := by
  induction f generalizing d ts loc b with
  | zero => rfl
  | succ f ih =>
    unfold stampSpan; dsimp only
    split
    · rfl
    · exact (ih ..).trans (storeMark_quiet hπ ..)

theorem hwRead_quiet (env : Env) (w : Who) (ag : Agent) (f : ℕ) (d : Dev) (va : Dword) (n : ℕ) :
    (hwRead env w ag f d va n).Keeps π d := by
  induction f generalizing d va n with
  | zero => exact rfl
  | succ f ih =>
    unfold hwRead; dsimp only
    split
    · exact rfl
    · exact (locate_quiet hπ ..).bind fun _ _ => ((ih ..).of_eq (loadSpan_quiet hπ ..)).bind fun _ _ => rfl

theorem hwCheck_quiet (env : Env) (w : Who) (k : AccKind) (f : ℕ) (d : Dev) (va : Dword) (n : ℕ) :
    (hwCheck env w k f d va n).Keeps π d := by
  induction f generalizing d va n with
  | zero => exact rfl
  | succ f ih =>
    unfold hwCheck; dsimp only
    split
    · exact rfl
    · exact (locate_quiet hπ ..).bind fun _ _ => ih ..

theorem hwWrite_quiet (env : Env) (w : Who) (ag : Agent) (f : ℕ) (d : Dev) (va : Dword) (b : List Byte) :
    (hwWrite env w ag f d va b).Keeps π d := by
  induction f generalizing d va b with
  | zero => exact rfl
  | succ f ih =>
    unfold hwWrite; dsimp only
    split
    · exact rfl
    · exact (locate_quiet hπ ..).bind fun _ _ => (ih ..).of_eq (storeSpan_quiet hπ ..)

theorem stampWrite_quiet (env : Env) (w : Who) (f : ℕ) (d : Dev) (ts va : Dword) (b : List Byte) :
    (stampWrite env w f d ts va b).Keeps π d := by
  induction f generalizing d ts va b with
  | zero => exact rfl
  | succ f ih =>
    unfold stampWrite; dsimp only
    split
    · exact rfl
    · exact (locate_quiet hπ ..).bind fun _ _ => (ih ..).of_eq (stampSpan_quiet hπ ..)

/-! #### Flags, records, STATE -/

theorem flagUpdate_quiet (env : Env) (d : Dev) (w : Who) (ag : Agent) (va : Dword) (inc setter : ℕ) :
    (flagUpdate env d w ag va inc setter).Keeps π d := by
  refine Res.Keeps.bind ?_ fun _ _ => rfl
  unfold flagMark
  split
  · trivial
  · exact (locate_quiet hπ ..).bind fun _ _ => storeMark_quiet hπ ..

/-- An update of hardware's own keeps a view that no access and none of its faults changes. -/
theorem settle_quiet {env : Env} {d : Dev} {x : Later} {fault : ℕ → Dword → Dev} {r : Res Unit} (hr : r.Keeps π d)
    (hf : ∀ c va, π (fault c va) = π d) : π (settle env d x fault r) = π d := by
  cases r with
  | ok u e => exact hr
  | wait w e => exact (hπ.rest e ..).trans hr
  | sys c va =>
    simp only [settle, keepFault]
    split
    · exact (keepTlb_quiet hπ ..).trans (hf ..)
    · exact hf ..
  | trap c i0 i1 i2 i3 => rfl
  | roll c => rfl

theorem ringPost_quiet (env : Env) (d : Dev) (w : Who) (va : Dword) (b : List Byte) : (ringPost env d w va b).Keeps π d := by
  refine (hwCheck_quiet hπ ..).bind fun _ d0 => (hwRead_quiet hπ ..).bind fun _ d1 => ?_
  dsimp only
  split
  · trivial
  · split
    · exact hwWrite_quiet hπ ..
    · refine (hwCheck_quiet hπ ..).bind fun _ _ => (stampWrite_quiet hπ ..).bind fun _ _ => (stampWrite_quiet hπ ..).bind fun _ d4 => ?_
      change π _ = π d4
      split
      · rfl
      · exact settle_quiet hπ (flagUpdate_quiet hπ ..) fun _ _ => rfl

theorem tryRecord_quiet (env : Env) (d : Dev) (vf : BitVec 10) (fq : BitVec 55) (b : List Byte) : (tryRecord env d vf fq b).Keeps π d := by
  have hpost (e : Dev) (q : BitVec 55) : (if q = 0 then (.sys 0 0 : Res Unit) else ringPost env e (whoVf d vf 640) (zx q) b).Keeps π e := by
    split
    · trivial
    · exact ringPost_quiet hπ ..
  have hkeep (va : Dword) : π (if fq = 0 then d else keepTlb env d (whoVf d vf 640) va) = π d := by
    split
    · rfl
    · exact keepTlb_quiet hπ ..
  unfold tryRecord; dsimp only
  split
  · next h => exact (hpost d fq).ok h
  · next h => exact (hpost d fq).wait h
  · exact rfl
  · exact rfl
  · split
    · next h => exact ((hpost _ _).ok h).trans (hkeep _)
    · next h => exact ((hpost _ _).wait h).trans (hkeep _)
    · exact rfl
    · exact rfl
    · refine Eq.trans (hπ.rest (if _ then _ else _) ..) ?_
      split
      · exact hkeep _
      · exact (keepTlb_quiet hπ ..).trans (hkeep _)

theorem postFault_quiet (env : Env) (d : Dev) (fq : BitVec 55) (r : FRec) : π (postFault env d fq r) = π d := by
  have hseq : π (takeSeq d r.tile).2 = π d := by
    unfold takeSeq
    split
    · exact hπ.tile d r.tile (fun y => { y with frSeq := y.frSeq + 1 }) fun _ => rfl
    · exact hπ.rest d ..
  exact (settle_quiet hπ (tryRecord_quiet hπ ..) fun _ _ => rfl).trans hseq

theorem writeState_quiet (env : Env) (d : Dev) (vf : BitVec 10) (va ts : Dword) (st : ℕ) : (writeState env d vf va ts st).Keeps π d :=
  (locate_quiet hπ ..).bind fun _ _ => storeMark_quiet hπ ..

theorem setNodeState_quiet (env : Env) (d : Dev) (vf : BitVec 10) (va : Dword) (st : ℕ) : π (setNodeState env d vf va st) = π d :=
  settle_quiet hπ ((writeState_quiet hπ ..).bind fun _ _ => rfl) fun _ _ => rfl

end

end Sys2Proof.Machine

namespace Sys2Proof.Machine

open Sys2Proof.Safety

/-! ### Submissions

A record that passes the checks is accepted: its live dword takes the STATE that its DEPCNT calls for, and a node stands for it (R41, R42). -/

/-- The STATE that an accepted record takes (R42, R43). -/
def acceptedState (r : ℕ) : ℕ := if recBits r 768 16 = 0 then 2 else 1

/-- The device with the live dword of an accepted record written. -/
def acceptedLive (env : Env) (d : Dev) (ag : Agent) (vf : BitVec 10) (cls : BitVec 4) (loc : Loc) (r : ℕ) : Dev :=
  storeAt env d ag vf cls (loc.plus 96) (natLe 8 (putBits (putBits (recBits r 768 64) 20 8 0) 16 4 (acceptedState r)))

/-- The node of a record accepted on a device. -/
def acceptedNode (env : Env) (d : Dev) (ag : Agent) (vf : BitVec 10) (va : Dword) (r : ℕ) : Node :=
  { va := va, copy := BitVec.ofNat 768 r, ph := if acceptedState r = 2 then .ready else .waiting, ready := d.readyNo
    die := ((availTiles env d vf (recBits r 654 4)).head?.map dieOfTile).getD 0, ts := getPts d ag }

/-- The device with a new node, in the place of an ended one of the same record. -/
def addNode (d : Dev) (n : Node) (vf : BitVec 10) : Dev :=
  { d with nodes := (d.nodes.keep fun _ x => !(x.ph == .ended && x.va == n.va && x.vf == vf)).set d.nodeNext n
           nodeNext := d.nodeNext + 1, readyNo := d.readyNo + 1 }

/-- The record of a submission: what was read, with the live dword as its home holds it (R42). -/
def submittedRec (d : Dev) (loc : Loc) (b : List Byte) : ℕ := putBits (leNat b) 768 64 (leNat (getBytes d (loc.plus 96) 8))

/-- A misaligned record is refused with code 1 (R41). -/
theorem submit_misaligned {va : Dword} (h : va.toNat % 128 ≠ 0) (env : Env) (d : Dev) (ag : Agent) (w : Who) (tile : ℕ)
    (byTile : Option ℕ) : submit env d ag w tile byTile va = .ok (1, 0xFF) (nodeReport env d 0 w.vf tile 1 1 0 va 0) := by
  have ha : aligned va 128 = false := by simpa [aligned] using h
  simp [submit, ha]

/-- A record that is read and passes the checks is accepted (R41, R42). -/
theorem submit_accepts {env : Env} {d d1 d2 d3 : Dev} {ag : Agent} {w : Who} {vf : BitVec 10} {tile : ℕ} {byTile : Option ℕ} {va : Dword}
    {loc : Loc} {cls : BitVec 4} {b : List Byte} (hvf : w.vf = vf) (ha : va.toNat % 128 = 0)
    (hloc : locate env d w { write := true } va = .ok (loc, cls) d1) (hrec : readRecord env d1 ag vf cls byTile loc = .ok b d2)
    (hst : recBits (submittedRec d2 loc b) 784 4 = 0) (hchk : recCheck env d2 vf (submittedRec d2 loc b) = 0)
    (hlive : acceptedLive env d2 ag vf cls loc (submittedRec d2 loc b) = d3) :
    submit env d ag w tile byTile va =
      .ok (0, acceptedState (submittedRec d2 loc b)) (addNode d3 (acceptedNode env d3 ag vf va (submittedRec d2 loc b)) vf) := by
  have hal : aligned va 128 = true := by simpa [aligned] using ha
  subst hvf hlive
  unfold submittedRec at hst hchk ⊢
  simp only [submit, hal, hloc, hrec, Res.bind, Bool.not_true, Bool.false_eq_true, if_false]
  generalize putBits (leNat b) 768 64 (leNat (getBytes d2 (loc.plus 96) 8)) = r at hst hchk ⊢
  have h02 : (0 : ℕ) ≠ 2 := by decide
  simp only [hst, hchk, bne_self_eq_false, Bool.false_eq_true, if_false, if_neg h02]
  rfl

theorem addNode_nodeNext (d : Dev) (n : Node) (vf : BitVec 10) : (addNode d n vf).nodeNext = d.nodeNext + 1 := rfl

theorem addNode_find (d : Dev) (n : Node) (vf : BitVec 10) : (addNode d n vf).nodes.find d.nodeNext = some n := by
  rw [addNode, NMap.find_set, if_pos rfl]

theorem acceptedNode_ph (env : Env) (d : Dev) (ag : Agent) (vf : BitVec 10) (va : Dword) (r : ℕ) :
    (acceptedNode env d ag vf va r).ph = if recBits r 768 16 = 0 then .ready else .waiting := by
  simp only [acceptedNode, acceptedState]
  split <;> rfl

/-- Writing the live dword changes no view that no access changes. -/
theorem acceptedLive_quiet {β : Type} {π : Dev → β} (hπ : Quiet π) (env : Env) (d : Dev) (ag : Agent) (vf : BitVec 10) (cls : BitVec 4)
    (loc : Loc) (r : ℕ) : π (acceptedLive env d ag vf cls loc r) = π d := storeAt_quiet hπ ..

/-- A load of a tile changes no byte. -/
theorem tileLoad_mem (env : Env) (d : Dev) (t : ℕ) (vf : BitVec 10) (cls : BitVec 4) (loc : Loc) (n : ℕ) :
    (tileLoad env d t vf cls loc n).Keeps Dev.mem d := by
  cases loc with
  | hbm pa =>
    simp only [tileLoad]
    split
    · exact (setPts_same ..).1
    · split
      · exact rfl
      · next d0 hpay => exact ((payToken_same hpay).trans (loadTs_same ..)).1
  | spad u o => exact (loadTs_same ..).1
  | staging s o => exact rfl
  | port v => exact rfl

theorem tileLine_mem (env : Env) (d : Dev) (t : ℕ) (vf : BitVec 10) (cls : BitVec 4) (loc : Loc) :
    (tileLine env d t vf cls loc).Keeps Dev.mem d := tileLine_keeps (fun _ _ _ => tileLoad_mem ..) d loc

/-! ### LAUNCH -/

theorem walkTo_nodes (d : Dev) (a : At) (next : Dword) (p : Prev) : (walkTo d a next p).nodes = d.nodes := by rw [walkTo_eq]

theorem walkTo_nodeNext (d : Dev) (a : At) (next : Dword) (p : Prev) : (walkTo d a next p).nodeNext = d.nodeNext := by rw [walkTo_eq]

/-- Walking a word changes no register. -/
theorem walkTo_regs (d : Dev) (a : At) (next : Dword) (p : Prev) : ((walkTo d a next p).tile a.t).core.regs = (d.tile a.t).core.regs := by
  cases h : a.hand with
  | false => rw [walkTo_core _ _ _ _ h]; rfl
  | true => rw [walkTo_core_hand _ _ _ _ h]

/-- On whose behalf LAUNCH makes its accesses. -/
def whoLaunch (d : Dev) (t : ℕ) : Who := { whoEng d t .x with unit := .access t }

/-- LAUNCH with a submission that is done (R125): S[d] receives the REJ code and the STATE left. -/
theorem launch_next {s : State} {pc : Dword} {hand : Bool} (d a : BitVec 5) {rej st : ℕ} {e : Dev} (h : Stands s .x pc hand)
    (hsub : submit s.env s.dev (.tile s.env.unit 0) (whoLaunch s.dev s.env.unit) s.env.unit (some s.env.unit) ((iter s).s a) =
      .ok (rej, st) e) (hcore : (e.tile s.env.unit).core = iter s) :
    ∃ t, exec (.launch d a) s = .next t ∧ (iter t).regs = ((iter s).setS d (dw (rej + 256 * st))).regs ∧
      t.dev.nodes = e.nodes ∧ t.dev.nodeNext = e.nodeNext := by
  have hword : launchWord d a s.env ⟨s.env.unit, .x, pc, hand⟩ s.dev =
      .ok () (e.onCore s.env.unit fun c => c.setS d (dw (rej + 256 * st))) := by
    unfold launchWord
    exact congrArg (fun r : Res (ℕ × ℕ) => r.bind _) hsub
  refine ⟨_, run_own (f := launchWord d a) h (by decide) hword, ?_, walkTo_nodes .., walkTo_nodeNext ..⟩
  refine (walkTo_regs ..).trans ?_
  rw [Dev.tile_onCore, if_pos rfl]
  exact congrArg (fun c : TCore => (c.setS d _).regs) hcore

/-- LAUNCH refuses a misaligned record (R41, R125). -/
theorem launch_misaligned {s : State} {pc : Dword} {hand : Bool} (d : BitVec 5) {a : BitVec 5} (h : Stands s .x pc hand)
    (ha : ((iter s).s a).toNat % 128 ≠ 0) : ∃ t, exec (.launch d a) s = .next t ∧ (iter t).regs = ((iter s).setS d 0xFF01).regs := by
  obtain ⟨t, ht, hregs, -⟩ := launch_next d a h (submit_misaligned ha ..) (postFault_quiet (quiet_core s.env.unit) ..)
  exact ⟨t, ht, hregs⟩

/-- LAUNCH of a record that the tile reads and that passes the checks (R41, R42, R125). -/
theorem launch_accepts {s : State} {pc : Dword} {hand : Bool} (d : BitVec 5) {a : BitVec 5} {loc : Loc} {cls : BitVec 4} {b : List Byte}
    {d1 d2 : Dev} (h : Stands s .x pc hand) (ha : ((iter s).s a).toNat % 128 = 0)
    (hloc : locate s.env s.dev (whoLaunch s.dev s.env.unit) { write := true } ((iter s).s a) = .ok (loc, cls) d1)
    (hrec : readRecord s.env d1 (.tile s.env.unit 0) (iter s).csr.vfid cls (some s.env.unit) loc = .ok b d2)
    (hst : recBits (submittedRec s.dev loc b) 784 4 = 0) (hchk : recCheck s.env d2 (iter s).csr.vfid (submittedRec s.dev loc b) = 0) :
    ∃ t, exec (.launch d a) s = .next t ∧
      (iter t).regs = ((iter s).setS d (BitVec.ofNat 64 (256 * acceptedState (submittedRec s.dev loc b)))).regs ∧
      t.dev.nodeNext = s.dev.nodeNext + 1 ∧
      ∃ x, t.dev.nodes.find s.dev.nodeNext = some x ∧ x.va = (iter s).s a ∧ x.next = 0 ∧ x.done = 0 ∧
        x.ph = (if recBits (submittedRec s.dev loc b) 768 16 = 0 then .ready else .waiting) ∧
        x.copy = BitVec.ofNat 768 (submittedRec s.dev loc b) := by
  have hread {β : Type} {π : Dev → β} (hπ : Quiet π) : π d2 = π s.dev :=
    ((tileLine_quiet hπ ..).ok hrec).trans ((locate_quiet hπ ..).ok hloc)
  have hrecord : submittedRec d2 loc b = submittedRec s.dev loc b := by
    rw [submittedRec, getBytes_congr (((tileLine_mem ..).ok hrec).trans (locate_same hloc).1)]; rfl
  rw [← hrecord] at hst hchk ⊢
  obtain ⟨d3, hd3⟩ : ∃ d3, acceptedLive s.env d2 (.tile s.env.unit 0) (iter s).csr.vfid cls loc (submittedRec d2 loc b) = d3 :=
    ⟨_, rfl⟩
  have hlive {β : Type} {π : Dev → β} (hπ : Quiet π) : π d3 = π s.dev := hd3 ▸ (acceptedLive_quiet hπ ..).trans (hread hπ)
  have hsub := submit_accepts (tile := s.env.unit) rfl ha hloc hrec hst hchk hd3
  obtain ⟨t, ht, hregs, hnodes, hnext⟩ := launch_next d a h hsub (hlive (quiet_core s.env.unit))
  refine ⟨t, ht, by rw [hregs, Nat.zero_add]; rfl, ?_, ?_⟩
  · rw [hnext, addNode_nodeNext, hlive quiet_nodeNext]
  · rw [hnodes, ← hlive quiet_nodeNext]
    exact ⟨_, addNode_find .., rfl, rfl, rfl, acceptedNode_ph .., rfl⟩

end Sys2Proof.Machine

namespace Sys2Proof

open Machine

/-- Settles O20: a misaligned record is refused before anything is read (`submit_misaligned`); one that is read and passes the checks becomes
a node (`submit_accepts`), with the frame that no access changes an iteration or the numbers of the nodes (`Quiet`). -/
theorem launchWord : Obligations.LaunchWord := by
  intro s pc hand d a loc cls b d1 d2 h
  refine ⟨launch_misaligned d h, ?_⟩
  intro ha hloc hrec r hst hchk
  exact launch_accepts d h ha hloc hrec hst hchk

end Sys2Proof

namespace Sys2Proof.Machine

open Sys2Proof.Safety

/-! ### The launch port -/

/-- Writing bits from `lo` on leaves the bits below. -/
theorem ofNat_putBits (x lo n v : ℕ) : BitVec.ofNat lo (putBits x lo n v) = BitVec.ofNat lo x := by
  have hle : 2 ^ lo * (x / 2 ^ lo % 2 ^ n) ≤ x :=
    (Nat.mul_le_mul_left _ (Nat.mod_le ..)).trans (Nat.mul_div_le ..)
  refine BitVec.eq_of_toNat_eq ?_
  rw [BitVec.toNat_ofNat, BitVec.toNat_ofNat, putBits, Nat.add_mul_mod_self_right, Nat.mul_comm (x / 2 ^ lo % 2 ^ n),
    Nat.sub_mul_mod hle]

/-- A check of R41 that a record does not fail hands it on to the next. -/
theorem eq_zero_of_check {c : Prop} [Decidable c] {code rest : ℕ} (hcode : code ≠ 0) (h : (if c then code else rest) = 0) :
    ¬c ∧ rest = 0 := by
  split at h
  · exact absurd h hcode
  · next hc => exact ⟨hc, h⟩

/-- A record that passes the checks names a partition with an enabled tile (R41 code 10). -/
theorem availTiles_of_recCheck {env : Env} {d : Dev} {vf : BitVec 10} {r : ℕ} (h : recCheck env d vf r = 0) :
    availTiles env d vf (recBits r 654 4) ≠ [] := by
  unfold recCheck at h; dsimp only at h
  iterate 7 replace h := (eq_zero_of_check (by decide) h).2
  have hten := (eq_zero_of_check (by decide) h).1
  simpa using hten

theorem availTiles_congr {d e : Dev} (h : e.parts = d.parts) (env : Env) (vf : BitVec 10) (part : ℕ) :
    availTiles env e vf part = availTiles env d vf part := by rw [availTiles, h]; rfl

/-- A store to a launch port page of a record that passes the checks (R40 to R42). -/
theorem launchPort_accepts {s : State} {vf : BitVec 10} {va : Dword} {loc : Loc} {cls : BitVec 4} {d1 : Dev} (ha : va.toNat % 128 = 0)
    (hloc : locate s.env s.dev { whoVf s.dev vf 640 with unit := .core s.env.unit } { write := true } va = .ok (loc, cls) d1)
    {ld : List Byte × Dev} (hld : loadSpan s.env (.core s.env.unit) vf cls 3 d1 loc 128 = ld)
    (hst : recBits (submittedRec ld.2 loc ld.1) 784 4 = 0) (hchk : recCheck s.env ld.2 vf (submittedRec ld.2 loc ld.1) = 0) :
    ∃ t, exec (.launchPortStore vf va) s = .next t ∧ t.dev.nodeNext = s.dev.nodeNext + 1 ∧
      ∃ y, t.dev.nodes.find s.dev.nodeNext = some y ∧ y.va = va ∧ y.next = 0 ∧ y.done = 0 ∧
        y.copy = BitVec.ofNat 768 (leNat ld.1) ∧
        y.ph = (if recBits (submittedRec ld.2 loc ld.1) 768 16 = 0 then .ready else .waiting) ∧
        (availTiles s.env ld.2 vf (recBits (submittedRec ld.2 loc ld.1) 654 4)).head?.map dieOfTile = some y.die := by
  have hread {β : Type} {π : Dev → β} (hπ : Quiet π) : π ld.2 = π s.dev :=
    hld ▸ (loadSpan_quiet hπ ..).trans ((locate_quiet hπ ..).ok hloc)
  have hrec : readRecord s.env d1 (.core s.env.unit) vf cls none loc = .ok ld.1 ld.2 := by rw [← hld]; rfl
  obtain ⟨d3, hd3⟩ : ∃ d3, acceptedLive s.env ld.2 (.core s.env.unit) vf cls loc (submittedRec ld.2 loc ld.1) = d3 :=
    ⟨_, rfl⟩
  have hlive {β : Type} {π : Dev → β} (hπ : Quiet π) : π d3 = π ld.2 := hd3 ▸ acceptedLive_quiet hπ ..
  have hsub := submit_accepts (tile := 0x3FF) rfl ha hloc hrec hst hchk hd3
  generalize hr : submittedRec ld.2 loc ld.1 = r at hst hchk hsub ⊢
  have hrun : exec (.launchPortStore vf va) s = .next (withDev s (addNode d3 (acceptedNode s.env d3 (.core s.env.unit) vf va r) vf)) :=
    run_of_eq (f := fun env d => attempt d (portTry env.unit vf va env d)) (by rw [portTry, hsub]; rfl)
  have hnext : d3.nodeNext = s.dev.nodeNext := (hlive quiet_nodeNext).trans (hread quiet_nodeNext)
  refine ⟨_, hrun, congrArg (· + 1) hnext, _, hnext ▸ addNode_find .., rfl, rfl, rfl, ?_, acceptedNode_ph .., ?_⟩
  · exact (congrArg _ hr.symm).trans (ofNat_putBits ..)
  · obtain ⟨t, l, htiles⟩ := List.exists_cons_of_ne_nil (availTiles_of_recCheck hchk)
    simp only [acceptedNode, availTiles_congr (hlive quiet_parts), htiles, List.head?_cons, Option.map_some, Option.getD_some]

end Sys2Proof.Machine

namespace Sys2Proof.Machine

open Sys2Proof.Safety

/-! ### The end of nodes -/

/-- A node with an iteration more retired. -/
def Node.retired (x : Node) : Node := { x with done := x.done + 1 }

/-- A retirement message counts its iteration, and fails the node where it reports a termination (R334). -/
theorem retirementMessage_eq {k : ℕ} {env : Env} {d : Dev} {m : RetMsg} {x : Node} (hm : d.retMsgs[k]? = some m)
    (hx : d.node m.node = some x) :
    let d2 := { d with retMsgs := d.retMsgs.eraseIdx k, nodes := d.nodes.set m.node x.retired }
    retirementMessage k env d = if m.term then failNode env d2 m.node else d2 := by
  have hx' : Dev.node { d with retMsgs := d.retMsgs.eraseIdx k } m.node = some x := hx
  simp only [retirementMessage, hm, hx', Node.retired]

/-- A failure reported against a node that runs (R48). -/
theorem failNode_eq {env : Env} {d : Dev} {n : ℕ} {x : Node} (hx : d.node n = some x) (hp : x.ph = .running) :
    failNode env d n =
      setNodeState env { d with nodes := d.nodes.set n { x with ph := .failed, failed := true } } x.vf x.va 5 := by
  simp only [failNode, hx, hp, decide_true, Bool.true_or, if_true]

theorem retirementMessage_counts {s : State} {m : RetMsg} {x : Node} (hm : s.dev.retMsgs[s.env.unit]? = some m)
    (hx : s.dev.node m.node = some x) (ht : m.term = false) :
    exec .retirementMessage s = .next (withDev s
      { s.dev with retMsgs := s.dev.retMsgs.eraseIdx s.env.unit, nodes := s.dev.nodes.set m.node x.retired }) :=
  run_of_eq (f := fun env d => retirementMessage env.unit env d) (by
    dsimp only
    rw [retirementMessage_eq hm hx, ht]; rfl)

theorem retirementMessage_fails {s : State} {m : RetMsg} {x : Node} (hm : s.dev.retMsgs[s.env.unit]? = some m)
    (hx : s.dev.node m.node = some x) (ht : m.term = true) (hp : x.ph = .running) :
    exec .retirementMessage s = .next (withDev s (setNodeState s.env
      { s.dev with retMsgs := s.dev.retMsgs.eraseIdx s.env.unit
                   nodes := s.dev.nodes.set m.node { x.retired with ph := .failed, failed := true } } x.vf x.va 5)) :=
  run_of_eq (f := fun env d => retirementMessage env.unit env d) (by
    have hset : Dev.node { s.dev with retMsgs := s.dev.retMsgs.eraseIdx s.env.unit, nodes := s.dev.nodes.set m.node x.retired } m.node =
        some x.retired := (NMap.find_set ..).trans (if_pos rfl)
    dsimp only
    rw [retirementMessage_eq hm hx, ht, if_pos rfl, failNode_eq hset hp]
    dsimp only
    rw [NMap.set_set]; rfl)

theorem dmax_self (a : Dword) : dmax a a = a := ite_self a

/-- The first step of a completion, where there is no flag to raise (R47). -/
theorem finStep_noFlag {env : Env} {x : Node} {d : Dev} (hf : x.fin = 0) (hd : x.fld 192 55 = 0) : finStep env x d = .ok x.ts d := by
  rw [finStep, hf]; exact if_pos hd

/-- The second step of a completion: STATE 4 is written (R47). -/
theorem finStep_state {env : Env} {x : Node} {d d1 : Dev} {ts : Dword} (hf : x.fin = 1)
    (hw : writeState env d x.vf x.va x.ts 4 = .ok ts d1) : finStep env x d = .ok ts d1 := by
  rw [finStep, hf]; simp only [hw]

theorem finStep_stateWaits {env : Env} {x : Node} {d d1 : Dev} {w : Wait} (hf : x.fin = 1)
    (hw : writeState env d x.vf x.va x.ts 4 = .wait w d1) : finStep env x d = .wait w d1 := by
  rw [finStep, hf]; simp only [hw]

/-- The node whose flag step is done. -/
def Node.flagDone (x : Node) : Node := { x with fin := 1 }

/-- A completion with no flag and no successors comes down to its STATE (R47). -/
theorem finishNode_eq {env : Env} {n : ℕ} {x : Node} {d : Dev} (hf : x.fin = 0) (hd : x.fld 192 55 = 0) (hs : x.fld 720 7 = 0) :
    finishNode env n x d = finSteps env n 1 x.flagDone d := by
  rw [finishNode, hs, hf, finSteps, finStep_noFlag hf hd]
  simp only [dmax_self, hf]; rfl

theorem finishNode_done {env : Env} {n : ℕ} {x : Node} {d d1 : Dev} {ts : Dword} (hf : x.fin = 0) (hd : x.fld 192 55 = 0)
    (hs : x.fld 720 7 = 0) (hw : writeState env d x.vf x.va x.ts 4 = .ok ts d1) :
    finishNode env n x d = { d1 with nodes := d1.nodes.set n { x with ph := .ended, fin := 2, ts := dmax x.ts ts } } := by
  rw [finishNode_eq hf hd hs, finSteps, finStep_state (x := x.flagDone) rfl hw]; rfl

theorem finishNode_waits {env : Env} {n : ℕ} {x : Node} {d d1 : Dev} {w : Wait} (hf : x.fin = 0) (hd : x.fld 192 55 = 0)
    (hs : x.fld 720 7 = 0) (hw : writeState env d x.vf x.va x.ts 4 = .wait w d1) :
    finishNode env n x d = { d1 with nodes := d1.nodes.set n { x with ph := .finishing, fin := 1 } } := by
  rw [finishNode_eq hf hd hs, finSteps, finStep_stateWaits (x := x.flagDone) rfl hw]; rfl

/-- What covers the work of a node's commands changes its timestamp alone (R309). -/
theorem coverTs_eq (env : Env) (d : Dev) (x : Node) : coverTs env d x = { x with ts := (coverTs env d x).ts } := by
  unfold coverTs; split <;> rfl

theorem coverTs_fld (env : Env) (d : Dev) (x : Node) (lo w : ℕ) : (coverTs env d x).fld lo w = x.fld lo w := by rw [coverTs_eq]; rfl

theorem coverTs_fin (env : Env) (d : Dev) (x : Node) : (coverTs env d x).fin = x.fin := by rw [coverTs_eq]

/-- A node that runs, all of whose work has ended, completes (R47). -/
theorem nodeCompletion_running {n : ℕ} {env : Env} {d : Dev} {x : Node} (hx : d.node n = some x) (hp : x.ph = .running)
    (hdone : x.done = x.total) (hb : nodeBusy d n = false) : nodeCompletion n env d = finishNode env n (coverTs env d x) d := by
  simp only [nodeCompletion, hx, hp, hdone, hb, decide_true, Bool.not_false, Bool.and_self, if_true]

/-- A write to RELEASE that names a node in state 6 performs its steps 2 to 4 (R48). -/
theorem releaseNode_failed {v : ℕ} {va : Dword} {env : Env} {d d1 : Dev} {b : List Byte} {p : ℕ × Node}
    (hread : hwRead env (whoVf d (BitVec.ofNat 10 v) 640) .none 2 d (zx (va.setWidth 55)) 128 = .ok b d1)
    (ha : (zx (va.setWidth 55)).toNat % 128 = 0) (hst : recBits (leNat b) 784 4 = 6)
    (hp : releasedNode d1 (BitVec.ofNat 10 v) (zx (va.setWidth 55)) (leNat b) = p) :
    releaseNode v va env d = finishNode env p.1 { p.2 with fin := 0 }
      { d1 with nodeNext := if p.1 = d1.nodeNext then p.1 + 1 else d1.nodeNext } := by
  have hal : aligned (zx (va.setWidth 55)) 128 = true := by simpa [aligned] using ha
  simp only [releaseNode, hread, hst, hal, hp, decide_true, Bool.and_self, if_true]

theorem nodeSteps : Claims.NodeSteps := by
  intro s x m va b d1
  refine ⟨fun hm hx => ⟨retirementMessage_counts hm hx, retirementMessage_fails hm hx⟩, ?_, ?_⟩
  · intro hx hp hdone hb hflag hsucc hfin z
    have hrun (d : Dev) (h : finishNode s.env s.env.unit z s.dev = d) : exec .nodeCompletion s = .next (withDev s d) :=
      run_of_eq (f := fun env d => nodeCompletion env.unit env d) ((nodeCompletion_running hx hp hdone hb).trans h)
    have hvf : z.vf = x.vf := congrArg (BitVec.ofNat 10) (coverTs_fld s.env s.dev x 640 10)
    have hva : z.va = x.va := by rw [show z = _ from coverTs_eq s.env s.dev x]
    rw [← hvf, ← hva]
    have hzfin := (coverTs_fin s.env s.dev x).trans hfin
    have hzflag := (coverTs_fld s.env s.dev x 192 55).trans hflag
    have hzsucc := (coverTs_fld s.env s.dev x 720 7).trans hsucc
    exact ⟨fun ts hw => hrun _ (finishNode_done hzfin hzflag hzsucc hw), fun w hw => hrun _ (finishNode_waits hzfin hzflag hzsucc hw)⟩
  · intro vf w hread ha hst p d hflag hsucc ts d2 hw
    refine run_of_eq (f := fun env d => releaseNode env.unit va env d) ?_
    dsimp only
    rw [releaseNode_failed hread ha hst rfl]
    exact finishNode_done rfl hflag hsucc hw

end Sys2Proof.Machine

namespace Sys2Proof.Machine

open Sys2Proof.Safety

/-! ### What an iteration finds at its start (R52) -/

/-- The S and A registers that an iteration finds: 0, WID, the six field values, ARGS, the base of its scratchpad range. -/
def startFile (x : Node) (off : ℕ) : List Dword :=
  let r := x.copy.toNat
  [0, dw (recWid r (recVals r x.next))] ++ (recVals r x.next).map dw ++ [dw (recBits r 64 55), dw (0x7F0000000000 + off * 1024)]

theorem recVals_length (r k : ℕ) : (recVals r k).length = 6 := by simp [recVals]

theorem startFile_length (x : Node) (off : ℕ) : (startFile x off).length = 10 := by simp [startFile, recVals_length]

theorem startFile_wid (x : Node) (off : ℕ) :
    (startFile x off).getD 1 0 = dw (recWid x.copy.toNat (recVals x.copy.toNat x.next)) := rfl

theorem startFile_val (x : Node) (off : ℕ) {i : ℕ} (hi : i < 6) :
    (startFile x off).getD (2 + i) 0 = dw ((recVals x.copy.toNat x.next).getD i 0) := by
  have hlen := recVals_length x.copy.toNat x.next
  generalize hv : recVals x.copy.toNat x.next = v at hlen
  rw [startFile, hv, Nat.add_comm 2 i]
  simp [hlen, hi, List.getElem?_append_left]

theorem startFile_args (x : Node) (off : ℕ) : (startFile x off).getD 8 0 = dw (recBits x.copy.toNat 64 55) := by
  simp [startFile, recVals_length]

theorem startFile_rest (x : Node) (off : ℕ) {i : ℕ} (hi : 10 ≤ i) : (startFile x off).getD i 0 = 0 :=
  List.getD_eq_default _ _ (by rw [startFile_length]; exact hi)

section
variable (d : Dev) (n : ℕ) (x : Node) (t serial epoch off : ℕ)

theorem startCore_s (r : BitVec 5) : (startCore d n x t serial epoch off).s r = (startFile x off).getD r.toNat 0 := by
  unfold TCore.s
  split
  · next h => rw [h]; rfl
  · exact Vector.getElem_ofFn ..

theorem startCore_a (r : BitVec 5) : (startCore d n x t serial epoch off).a r = (startCore d n x t serial epoch off).s r := rfl

theorem startCore_engine (e : Eng) :
    (startCore d n x t serial epoch off).engine e = { pc := BitVec.ofNat 64 (recBits x.copy.toNat 0 55) } := by
  cases e <;> rfl

theorem startCore_win : (startCore d n x t serial epoch off).csr.win =
    if recBits x.copy.toNat 672 16 = 0 then 4096 else BitVec.ofNat 16 (recBits x.copy.toNat 672 16) :=
  apply_ite (BitVec.ofNat 16) ..

end

/-- What an iteration of a node holds at its start, under the ASID of its VF: the registers, control registers, engines and queues of R52. -/
structure Started (x : Node) (a : BitVec 16) (c : TCore) : Prop where
  engine : ∀ e, c.engine e = { pc := BitVec.ofNat 64 (recBits x.copy.toNat 0 55) }
  queues : c.q = {}
  tok : c.tok = Vector.replicate 16 0
  events : c.ev = []
  wid : c.s 1 = BitVec.ofNat 64 (recWid x.copy.toNat (recVals x.copy.toNat x.next))
  vals : ∀ i, i < 6 → c.s (BitVec.ofNat 5 (2 + i)) = BitVec.ofNat 64 ((recVals x.copy.toNat x.next).getD i 0)
  args : c.s 8 = BitVec.ofNat 64 (recBits x.copy.toNat 64 55)
  rest : ∀ i, 10 ≤ i → i < 32 → c.s (BitVec.ofNat 5 i) = 0
  same : ∀ i, c.a i = c.s i
  vfid : c.csr.vfid = x.vf
  asid : c.csr.asid = a
  tvec : c.csr.tvec = 0
  win : c.csr.win = if recBits x.copy.toNat 672 16 = 0 then 4096 else BitVec.ofNat 16 (recBits x.copy.toNat 672 16)
  iterWid : c.iter.wid = c.s 1

theorem startCore_started (d : Dev) (n : ℕ) (x : Node) (t serial epoch off : ℕ) :
    Started x (d.vf x.vf.toNat).asid (startCore d n x t serial epoch off) where
  engine e := startCore_engine ..
  queues := rfl
  tok := rfl
  events := rfl
  wid := (startCore_s ..).trans (startFile_wid ..)
  vals i hi := by
    rw [startCore_s, BitVec.toNat_ofNat, Nat.mod_eq_of_lt (by omega)]
    exact startFile_val x off hi
  args := (startCore_s ..).trans (startFile_args ..)
  rest i hi hi' := by
    rw [startCore_s, BitVec.toNat_ofNat, Nat.mod_eq_of_lt (by omega)]
    exact startFile_rest x off hi
  same i := startCore_a ..
  vfid := rfl
  asid := rfl
  tvec := rfl
  win := startCore_win ..
  iterWid := ((startCore_s ..).trans (startFile_wid ..)).symm

/-! ### A dispatch -/

/-- A scratchpad that is given to a VF takes its tag (R228). -/
theorem retag_tag (env : Env) (d : Dev) (t : ℕ) (vf : BitVec 10) : ((retag env d t vf).tile t).tag = some vf := by
  unfold retag
  split
  · assumption
  · rw [Dev.tile_onTile, if_pos rfl]

/-- A dispatched iteration runs on its tile with the state of R52, and its node goes on behind it (R43). -/
theorem startIter_starts (env : Env) (d : Dev) (n : ℕ) (x : Node) (t : ℕ) (b : List (ℕ × ℕ)) :
    (∃ c, ((startIter env d n x t b).tile t).task = (true, some x.vf, c) ∧ Started x (d.vf x.vf.toNat).asid c) ∧
      (startIter env d n x t b).node n = some { x with ph := .running, next := x.next + 1, bound := b } := by
  let d1 := retag env { d with serial := d.serial + 1 } t x.vf
  have htag : (d1.tile t).tag = some x.vf := retag_tag ..
  have hstate (e : Dev) : ((if x.ph = .ready then setNodeState env e x.vf x.va 3 else e).tile t).task = (e.tile t).task := by
    split
    · exact setNodeState_quiet (quiet_task t) ..
    · rfl
  refine ⟨⟨startCore d n x t d1.serial ((d1.tile t).epoch + 1) ((spPlace (d1.tile t) (x.fld 688 12)).getD 0), ?_, startCore_started ..⟩,
    (NMap.find_set ..).trans (if_pos rfl)⟩
  refine (hstate _).trans ?_
  rw [Dev.tile_setTile, if_pos rfl, Tile.task, htag]

section
variable {env : Env} {d : Dev} {n k : ℕ} {x : Node} {b : List (ℕ × ℕ)}

/-- What the walker can do for a node with nothing to resume whose next iteration can be placed: that dispatch (R51). -/
theorem tryNode_places {held : ℕ} (hr : resumables d n = []) (hp : x.ph = .ready) (hn : x.next < x.total) (hk : x.fld 658 2 ≠ 1)
    (hplace : placeNext env d held n x = some (k, b)) :
    tryNode env d held (n, x) = some { counts := true, dev := startIter env d n x k b } := by
  simp [tryNode, hr, hp, Nat.not_le.mpr hn, hk, hplace]

/-- The node that a walker enumerates, where there is one alone. -/
theorem walkerNodes_single (he : d.nodes.entries = [(n, x)]) (hp : x.ph = .ready) (ht : (d.vf x.vf.toNat).tearing = false) :
    walkerNodes d x.die = [(n, x)] := by simp [walkerNodes, he, hp, ht]

theorem heldBy_single (he : d.nodes.entries = [(n, x)]) : heldBy d x.die = x.bound.length := by simp [heldBy, he]

/-- The turn of the VFs does not matter where one node alone can be served (R53): its dispatch is made. -/
theorem dispatchOne_single (he : d.nodes.entries = [(n, x)]) (hr : resumables d n = []) (hp : x.ph = .ready)
    (hn : x.next < x.total) (hk : x.fld 658 2 ≠ 1) (ht : (d.vf x.vf.toNat).tearing = false)
    (hplace : placeNext env d x.bound.length n x = some (k, b)) :
    ∃ w, dispatchOne env d x.die = some ((startIter env d n x k b).setWalker x.die w) := by
  have htry : tryVf env d x.bound.length [(n, x)] x.vf.toNat = some { counts := true, dev := startIter env d n x k b } := by
    simp [tryVf, insertNode, tryNode_places hr hp hn hk hplace]
  have hother (v : ℕ) (hv : x.vf.toNat ≠ v) : tryVf env d x.bound.length [(n, x)] v = none := by simp [tryVf, hv]
  have horder (cur : ℕ) : vfOrder [(n, x)] cur = [x.vf.toNat] := by simp [vfOrder]
  simp only [dispatchOne, walkerNodes_single he hp ht, heldBy_single he, horder, List.findSome?_cons, htry, Option.map_some, if_true]
  split
  · next d1 hstay =>
    split at hstay
    · next c hcur =>
      split at hstay
      · by_cases hc : x.vf.toNat = c.toNat
        · rw [← hc, htry] at hstay
          cases hstay
          exact ⟨_, rfl⟩
        · rw [hother _ hc] at hstay; cases hstay
      · cases hstay
    · cases hstay
  · exact ⟨_, rfl⟩

end

/-- The choice of a pre-emption asks a tile to save its iteration, and changes none (R55). -/
theorem choosePreempt_keeps (env : Env) (d : Dev) (die : ℕ) :
    (choosePreempt env d die).nodes = d.nodes ∧ ∀ t, ((choosePreempt env d die).tile t).task = (d.tile t).task := by
  unfold choosePreempt; dsimp only
  split
  · exact ⟨rfl, fun _ => rfl⟩
  · split
    · refine ⟨rfl, fun t => ?_⟩
      rw [Dev.tile_onTile]
      split
      · next h => rw [h]; rfl
      · rfl
    · exact ⟨rfl, fun _ => rfl⟩

theorem walkerDispatch_of_dispatch {env : Env} {d e : Dev} (h : dispatchOne env d env.unit = some e) :
    walkerDispatch env d = choosePreempt env e env.unit := by rw [walkerDispatch, h]; rfl

/-- A walker with one node that it can serve dispatches that node's next iteration (R51 to R53). -/
theorem walkerDispatch_starts {s : State} {n k : ℕ} {x : Node} {b : List (ℕ × ℕ)} (he : s.dev.nodes.entries = [(n, x)])
    (hp : x.ph = .ready) (hk : x.fld 658 2 ≠ 1) (hn : x.next < x.total) (ht : (s.dev.vf x.vf.toNat).tearing = false)
    (hd : x.die = s.env.unit) (hr : resumables s.dev n = []) (hplace : placeNext s.env s.dev x.bound.length n x = some (k, b)) :
    ∃ t c, exec .walkerDispatch s = .next t ∧ (t.dev.tile k).task = (true, some x.vf, c) ∧ Started x (s.dev.vf x.vf.toNat).asid c ∧
      t.dev.node n = some { x with ph := .running, next := x.next + 1, bound := b } := by
  obtain ⟨w, hone⟩ := dispatchOne_single (env := s.env) he hr hp hn hk ht hplace
  rw [hd] at hone
  obtain ⟨⟨c, htask, hstart⟩, hnode⟩ := startIter_starts s.env s.dev n x k b
  obtain ⟨hnodes, htasks⟩ := choosePreempt_keeps s.env ((startIter s.env s.dev n x k b).setWalker s.env.unit w) s.env.unit
  exact ⟨_, c, run_of_eq (f := walkerDispatch) (walkerDispatch_of_dispatch hone), (htasks k).trans htask, hstart,
    (congrArg (NMap.find · n) hnodes).trans hnode⟩

theorem launchSteps : Claims.LaunchSteps := by
  intro s vf va loc cls d1 n k x b
  refine ⟨?_, ?_⟩
  · intro ha hloc ld r hst hchk
    exact launchPort_accepts ha hloc rfl hst hchk
  · intro he hp hk hn ht hd hr hplace r v
    obtain ⟨t, c, hexec, htask, hc, hnode⟩ := walkerDispatch_starts he hp hk hn ht hd hr hplace
    obtain ⟨hrun, htag, hcore⟩ : (t.dev.tile k).running = true ∧ (t.dev.tile k).tag = some x.vf ∧ (t.dev.tile k).core = c := by
      simpa [Tile.task] using htask
    refine ⟨t, hexec, hrun, htag, hnode, ?_⟩
    rw [hcore]
    exact ⟨hc.engine, hc.queues, hc.tok, hc.events, hc.wid, hc.vals, hc.args, hc.rest, hc.same, hc.vfid,
      hc.asid, hc.tvec, hc.win, hc.iterWid⟩

/-- Settles O42: the launch port by the acceptance of a record (`submit_accepts`); the walker by the dispatch that its only node gets
(`dispatchOne_single`) and the state that an iteration starts with (`startCore_started`); the end of nodes by the steps of a completion
(`finishNode_done`, `finishNode_waits`) and of a retirement message (`retirementMessage_eq`). -/
theorem launchAndNodeSteps : Obligations.LaunchAndNodeSteps := ⟨launchSteps, nodeSteps⟩

end Sys2Proof.Machine

namespace Sys2Proof.Laws

/-! ### The fields of a word put together again

A row of a map reads fields off a word; the encoding of what it reads concatenates the same fields, the opcode and the zeros that the mask
of the row fixes, and so is the word. -/

/-- The field of a word from bit lo on is x. -/
def Part (w : Word) (lo : ℕ) {n : ℕ} (x : BitVec n) : Prop := w.extractLsb' lo n = x

theorem part_append {w : Word} {lo m n : ℕ} {x : BitVec m} {y : BitVec n} (hx : Part w (lo + n) x) (hy : Part w lo y) :
    Part w lo (x ++ y) := by
  unfold Part at *
  rw [← hx, ← hy, BitVec.extractLsb'_append_extractLsb'_eq_extractLsb' rfl]

theorem part_extract (w : Word) (lo n : ℕ) : Part w lo (w.extractLsb' lo n) := rfl

theorem eq_of_part {w x : Word} (h : Part w 0 x) : x = w := by
  rw [Part] at h; rw [← h]; exact whole w

theorem part_bit (w : Word) (lo : ℕ) : Part w lo (BitVec.ofBool (w.getLsbD lo)) := by
  rw [Part]
  apply BitVec.eq_of_getLsbD_eq
  intro i hi
  obtain rfl : i = 0 := by omega
  simp

theorem part_eng (w : Word) (lo : ℕ) : Part w lo (Eng.ofBits (w.extractLsb' lo 2)).bits := by
  rw [Part]
  generalize w.extractLsb' lo 2 = b; revert b; decide

theorem part_size (w : Word) (lo : ℕ) : Part w lo (MSize.ofBits (w.extractLsb' lo 2)).bits := by
  rw [Part]
  generalize w.extractLsb' lo 2 = b; revert b; decide

theorem part_rnd (w : Word) (lo : ℕ) : Part w lo (Rnd.ofBits (w.extractLsb' lo 2)).bits := by
  rw [Part]
  generalize w.extractLsb' lo 2 = b; revert b; decide

theorem part_dir (w : Word) (lo : ℕ) : Part w lo (Dir.ofBits (w.extractLsb' lo 2)).bits := by
  rw [Part]
  generalize w.extractLsb' lo 2 = b; revert b; decide

theorem part_vop (w : Word) (lo : ℕ) : Part w lo (vopAt w lo).bits := part_append (part_dir ..) (part_extract ..)

/-- A field that a mask covers and that has no bit set there. -/
theorem part_zero {w z : Word} {lo n : ℕ} (hz : w &&& z = 0#32) (hm : z.extractLsb' lo n = BitVec.allOnes n) : Part w lo (0#n) := by
  have h := congrArg (BitVec.extractLsb' lo n) hz
  rwa [BitVec.extractLsb'_and, hm, BitVec.and_allOnes, BitVec.extractLsb'_zero] at h

/-! ### What the rows of the maps read -/

/-- An instruction is a word of program text whose encoding is w. -/
def Encodes (i : Instr) (w : Word) : Prop := encode i = some w ∧ i.isWord = true

/-- A reader gives, for a word that meets p, an instruction that the word encodes, where the bits that its mask fixes are zero. -/
def Reads (p : Word → Prop) (f : Word → Option (Instr × Word)) : Prop :=
  ∀ w i z, p w → f w = some (i, z) → w &&& z = 0#32 → Encodes i w

theorem reads_some {p : Word → Prop} {g : Word → Instr} {z : Word} (h : ∀ w, p w → w &&& z = 0#32 → Encodes (g w) w) :
    Reads p fun w => some (g w, z) := by
  intro w i z hp hx hz
  cases hx; exact h w hp hz

/-- A reader that a field of the word selects. -/
theorem reads_if {p : Word → Prop} {lo n : ℕ} {x : BitVec n} {g : Word → Instr} {z : Word} {f : Word → Option (Instr × Word)}
    (h : ∀ w, p w → Part w lo x → w &&& z = 0#32 → Encodes (g w) w) (hf : Reads p f) :
    Reads p fun w => if w.extractLsb' lo n == x then some (g w, z) else f w := by
  intro w i y hp hx hz
  dsimp only at hx
  split at hx
  · next ht => cases hx; exact h w hp (eq_of_beq ht) hz
  · exact hf w i y hp hx hz

theorem reads_none (p : Word → Prop) : Reads p fun _ => none := fun _ _ _ _ h => nomatch h

/-- A row of a map whose opcodes stand in the n bits of the word from lo on, above a base, reads the words with its opcode. -/
def RowReads (lo n base : ℕ) (r : Row32) : Prop := Reads (fun w => Part w lo (BitVec.ofNat n (base + r.1))) r.2

/-- The row that a map has for an opcode reads the word, where all the rows of the map do. -/
theorem encodes_of_rowFor {m : List Row32} {lo n base op : ℕ} (hm : m.Forall (RowReads lo n base)) {w : Word}
    (hp : Part w lo (BitVec.ofNat n (base + op))) {i : Instr} {z : Word} (hr : rowFor m op w = some (some (i, z)))
    (hz : w &&& z = 0#32) : Encodes i w := by
  unfold rowFor at hr
  split at hr
  · next f hl =>
    obtain ⟨l1, l2, rfl, -⟩ := List.lookup_eq_some_iff.mp hl
    have hrow : RowReads lo n base (op, f) := List.forall_iff_forall_mem.mp hm _ (by simp)
    exact hrow w i z hp (Option.some.inj hr) hz
  · cases hr


theorem executeMap_read : executeMap.Forall (RowReads 22 10 0) := by
  simp only [executeMap, executeRows1, executeRows2, executeRows3, executeRows4, List.forall_append]
  and_intros
  all_goals apply_rules [reads_if, reads_none, reads_some]
  all_goals
    intros
    refine ⟨congrArg some (eq_of_part ?_), rfl⟩
    apply_rules [part_append, part_extract, part_zero]

theorem accessMap_read : accessMap.Forall (RowReads 22 10 128) := by
  simp only [accessMap, accessRows1, accessRows2, accessRows3, List.forall_append]
  and_intros
  all_goals apply_rules [reads_if, reads_none, reads_some]
  all_goals
    intros
    refine ⟨congrArg some (eq_of_part ?_), rfl⟩
    apply_rules [part_size, part_bit, part_append, part_extract, part_zero]

theorem vectorRows1_read : vectorRows1.Forall (RowReads 22 10 256) := by
  unfold vectorRows1
  and_intros
  all_goals apply_rules [reads_some, reads_if, reads_none]
  all_goals
    intros
    refine ⟨congrArg some (eq_of_part ?_), rfl⟩
    apply_rules [part_vop, part_bit, part_append, part_extract, part_zero]

theorem vectorRows2_read : vectorRows2.Forall (RowReads 22 10 256) := by
  unfold vectorRows2
  and_intros
  all_goals apply_rules [reads_some, reads_if, reads_none]
  all_goals
    intros
    refine ⟨congrArg some (eq_of_part ?_), rfl⟩
    apply_rules [part_vop, part_bit, part_append, part_extract, part_zero]

theorem vectorRows3_read : vectorRows3.Forall (RowReads 22 10 256) := by
  unfold vectorRows3
  and_intros
  all_goals apply_rules [reads_some, reads_if, reads_none]
  all_goals
    intros
    refine ⟨congrArg some (eq_of_part ?_), rfl⟩
    apply_rules [part_vop, part_rnd, part_bit, part_append, part_extract, part_zero]

theorem vectorRows4_read : vectorRows4.Forall (RowReads 22 10 256) := by
  unfold vectorRows4
  and_intros
  all_goals apply_rules [reads_some, reads_if, reads_none]
  all_goals
    intros
    refine ⟨congrArg some (eq_of_part ?_), rfl⟩
    apply_rules [part_vop, part_append, part_extract, part_zero]

theorem vectorMap_read : vectorMap.Forall (RowReads 22 10 256) := by
  simp only [vectorMap, List.forall_append]
  exact ⟨⟨⟨vectorRows1_read, vectorRows2_read⟩, vectorRows3_read⟩, vectorRows4_read⟩

theorem matrixMap_read : matrixMap.Forall (RowReads 22 10 384) := by
  simp only [matrixMap, matrixRows1]
  and_intros
  all_goals apply_rules [reads_if, reads_none, reads_some]
  all_goals
    intros
    refine ⟨congrArg some (eq_of_part ?_), rfl⟩
    apply_rules [part_append, part_extract, part_zero]

theorem controlMap_read : controlMap.Forall (RowReads 24 8 128) := by
  simp only [controlMap, controlRows1]
  and_intros
  all_goals apply_rules [reads_if, reads_none, reads_some]
  all_goals
    intros
    refine ⟨congrArg some (eq_of_part ?_), rfl⟩
    apply_rules [part_eng, part_append, part_extract, part_zero]

/-- The ten highest bits of a word, by its TAG and its opcode. -/
theorem part_tag_op (w : Word) : Part w 22 (BitVec.ofNat 10 (128 * (w.extractLsb' 29 3).toNat + (w.extractLsb' 22 7).toNat)) := by
  apply BitVec.eq_of_toNat_eq
  simp only [BitVec.extractLsb'_toNat, BitVec.toNat_ofNat, Nat.shiftRight_eq_div_pow]
  omega

/-- The eight highest bits of a C word, by its opcode. -/
theorem part_tag_op_c {w : Word} (ht : (w.extractLsb' 29 3).toNat = 4) : Part w 24 (BitVec.ofNat 8 (128 + (w.extractLsb' 24 5).toNat)) := by
  apply BitVec.eq_of_toNat_eq
  simp only [BitVec.extractLsb'_toNat, BitVec.toNat_ofNat, Nat.shiftRight_eq_div_pow] at ht ⊢
  omega

/-- What the map of a word's TAG reads off it is encoded by the word, where the bits that the map fixes are zero. -/
theorem encodes_of_mapRow {w : Word} (ht : (w.extractLsb' 29 3).toNat < 5) {i : Instr} {z : Word} (hr : mapRow w = some (some (i, z)))
    (hz : w &&& z = 0#32) : Encodes i w := by
  have hp := part_tag_op w
  unfold mapRow at hr
  split at hr
  · next h => rw [h] at hp; exact encodes_of_rowFor executeMap_read hp hr hz
  · next h => rw [h] at hp; exact encodes_of_rowFor accessMap_read hp hr hz
  · next h => rw [h] at hp; exact encodes_of_rowFor vectorMap_read hp hr hz
  · next h => rw [h] at hp; exact encodes_of_rowFor matrixMap_read hp hr hz
  · next h0 h1 h2 h3 =>
    have h4 : (w.extractLsb' 29 3).toNat = 4 := by simp only [imp_false] at h0 h1 h2 h3; omega
    exact encodes_of_rowFor controlMap_read (part_tag_op_c h4) hr hz

theorem extWord_encodes {w : Word} (ht : (w.extractLsb' 29 3).toNat = 5) : Encodes (.extWord (w.extractLsb' 0 29)) w :=
  ⟨congrArg some (eq_of_part (part_append (BitVec.eq_of_toNat_eq ht) (part_extract ..))), rfl⟩

/-- Settles O58: every row of every map reads only words that its instruction encodes (`encodes_of_mapRow`), since its fields, its opcode
and the zeros of its mask make up the word. -/
theorem decodeThenEncode : Obligations.DecodeThenEncode := by
  intro w i h
  unfold decode at h
  split at h
  · next ht =>
    cases h
    obtain ⟨he, hw⟩ := extWord_encodes ht
    exact ⟨he, hw, rfl⟩
  · split at h
    · cases h
    · next h5 h6 =>
      split at h
      · cases h
      · cases h
      · next j z hr =>
        split at h
        · cases h
        · next hwf =>
          split at h
          · cases h
          · next hz =>
            cases h
            obtain ⟨he, hw⟩ := encodes_of_mapRow (by omega) hr (by simpa using hz)
            exact ⟨he, hw, by simpa using hwf⟩

end Sys2Proof.Laws

namespace Sys2Proof.Machine

open Sys2Proof.Safety

/-! ### The steps of the machine -/

/-- Whatever the instruction, its meaning is a change of the device. -/
theorem exec_next (i : Instr) (s : State) : ∃ d, exec i s = .next (withDev s d) := by
  cases i <;> exact ⟨_, rfl⟩

/-- What an engine does at its turn is a change of the device. -/
theorem engineTurn_next (s : State) (t : ℕ) (e : Eng) : ∃ d, engineTurn s t e = .next (withDev s d) := by
  unfold engineTurn
  split
  · unfold runFetched
    split
    · exact exec_next ..
    all_goals exact ⟨_, rfl⟩
  all_goals exact ⟨_, rfl⟩

theorem passTime_env (t : ℕ) (s : State) : (passTime t s).env = s.env := by
  unfold passTime
  dsimp only
  split
  · rfl
  · split
    · split <;> rfl
    · rfl

/-- What the end of a turn leaves of the fused capabilities and of the index of free values. -/
theorem afterTurn_next (t : ℕ) (s : State) : ∃ u, afterTurn t (.next s) = .next u ∧ u.env = s.env :=
  ⟨_, rfl, passTime_env ..⟩

theorem step_next (s : State) :
    (∃ t, step s = .next t ∧ t.env.caps = s.env.caps ∧ t.env.tick = s.env.tick + 1) ∨ step s = .fault .noSuchUnit := by
  unfold step
  split
  · next t e rest _ =>
    split
    · obtain ⟨d, hd⟩ := engineTurn_next ((beginTurn s t e rest).onDev drive) t e
      obtain ⟨u, hu, henv⟩ := afterTurn_next t (withDev ((beginTurn s t e rest).onDev drive) d)
      rw [hd]
      exact .inl ⟨u, hu, by rw [henv]; rfl, by rw [henv]; rfl⟩
    · exact .inr rfl
  · next u i rest _ =>
    split
    · split
      · obtain ⟨d, hd⟩ := exec_next i ((beginTurn s u s.env.eng rest).onDev drive)
        exact .inl ⟨_, hd, rfl, rfl⟩
      · exact .inl ⟨_, rfl, rfl, rfl⟩
    · exact .inr rfl

/-- A turn of an engine that may walk its word and whose fetch gives a word. -/
theorem step_engine {s : State} {t : ℕ} {e : Eng} {rest : List Turn} {pc : Dword} {hand : Bool} {w : Word} {d : Dev}
    (hn : nextTurn s = (.engine t e, rest)) (ht : tileOk t = true) (hs : Stands ((beginTurn s t e rest).onDev drive) e pc hand)
    (hf : fetchAt ((beginTurn s t e rest).onDev drive).env ((beginTurn s t e rest).onDev drive).dev t e pc = .ok w d) :
    step s = afterTurn t (exec (decodeTotal w) (withDev ((beginTurn s t e rest).onDev drive) d)) := by
  obtain ⟨-, hr⟩ := hs
  have hr' : ready ((beginTurn s t e rest).onDev drive).dev t e = .go pc hand := hr
  rw [step, hn]
  simp only [ht, if_true]
  rw [engineTurn, hr']
  simp only [runFetched, hf]
  rfl

theorem stepRunsDecodedWord : Claims.StepRunsDecodedWord := by
  intro s t u e rest i
  refine ⟨?_, ?_, ?_⟩
  · intro pc hand w d hn ht s1 hs hf
    rw [step_engine hn ht hs hf]
    exact ⟨fun hd => by rw [decodeTotal, hd], fun k hd => by rw [decodeTotal, hd]⟩
  · intro hn he hu hw
    exact ⟨fun hv => by simp [step, hn, he, hu, hw, hv], fun hv => by simp [step, hn, he, hu, hw, hv]⟩
  · intro hn ht
    simp [step, hn, ht]

/-- Settles O53: a turn runs what it fetches (`step_engine`); every meaning is a change of the device (`exec_next`), so every step goes on
(`step_next`). -/
theorem stepOfTheMachine : Obligations.StepOfTheMachine := ⟨stepRunsDecodedWord, step_next, exec_next⟩

end Sys2Proof.Machine

namespace Sys2Proof.Machine

open Sys2Proof.Safety

/-! ### The steps of C words, and of words that wait or trap -/

/-- An engine finds what it stands at, but for V's issue cycle. -/
theorem issued_eq_found (s : State) (e : Eng) (pc : Dword) (hand : Bool) : issued s.dev ⟨s.env.unit, e, pc, hand⟩ = Claims.found s e hand := rfl

theorem found_of {s : State} {e : Eng} (hv : e ≠ .v) (hand : Bool) : Claims.found s e hand = s.dev := by
  simp [Claims.found, hv]

theorem found_hand (s : State) (e : Eng) : Claims.found s e true = s.dev := by
  simp [Claims.found]

theorem found_tile_core (s : State) (e : Eng) (hand : Bool) :
    ((Claims.found s e hand).tile s.env.unit).core = if e = .v && !hand then issueTick (iter s) else iter s := by
  unfold Claims.found
  split
  · rw [Dev.tile_onCore, if_pos rfl]; rfl
  · rfl

/-- What a wait leaves of the issue cycle of the word: nothing where its cycle is none (R175). -/
theorem wait_found (s : State) (e : Eng) (hand : Bool) {w : Wait} (hw : w.tick = false) :
    (if e = .v && !w.tick then { s.dev with mig := (Claims.found s e hand).mig, tlb := (Claims.found s e hand).tlb }
      else Claims.found s e hand) = s.dev := by
  by_cases he : e = .v
  · subst he; rw [hw]; cases hand <;> rfl
  · simp [he, found_of he]

section
variable {s : State} {e : Eng} {pc : Dword} {hand : Bool} (h : Stands s e pc hand)
include h

/-- The step of a C word whose effect is done. -/
theorem run_control {i : Instr} {f : At → Dev → Res Dword} {next : Dword} {d : Dev}
    (hf : f ⟨s.env.unit, e, pc, hand⟩ (Claims.found s e hand) = .ok next d) :
    s.run (controlWord i f) = .next (walked s pc d e hand next .c) := by
  obtain ⟨rfl, hr⟩ := h
  rw [State.run_eq, controlWord_go hr hf]; rfl

/-- The step of a C word that raises a user trap (R315). -/
theorem run_control_trap {i : Instr} {f : At → Dev → Res Dword} {c : ℕ} {i0 i1 i2 i3 : Dword}
    (hf : f ⟨s.env.unit, e, pc, hand⟩ (Claims.found s e hand) = .trap c i0 i1 i2 i3) :
    s.run (controlWord i f) = .next (withDev s (enterTrap s.env s.dev s.env.unit e pc c i0 i1 i2 i3)) := by
  obtain ⟨rfl, hr⟩ := h
  rw [← issued_eq_found s s.env.eng pc] at hf
  simp only [State.run_eq, controlWord, hr, hf, Res.bind, finish, withDev]

/-- The step of a C word that waits, in a cycle that is no issue cycle. -/
theorem run_control_wait {i : Instr} {f : At → Dev → Res Dword} {w : Wait} (hw : w.tick = false)
    (hf : f ⟨s.env.unit, e, pc, hand⟩ (Claims.found s e hand) = .wait w (Claims.found s e hand)) :
    s.run (controlWord i f) = .next (withDev s (setWait s.dev ⟨s.env.unit, e, pc, hand⟩ w)) := by
  obtain ⟨rfl, hr⟩ := h
  rw [← issued_eq_found s s.env.eng pc] at hf
  simp only [State.run_eq, controlWord, hr, hf, Res.bind, finish, withDev]
  rw [issued_eq_found, wait_found s s.env.eng hand hw]

/-- The step of a C word that waits, in an issue cycle of V (R177). -/
theorem run_control_wait_tick {i : Instr} {f : At → Dev → Res Dword} {w : Wait} (hw : w.tick = true)
    (hf : f ⟨s.env.unit, e, pc, hand⟩ (Claims.found s e hand) = .wait w (Claims.found s e hand)) :
    s.run (controlWord i f) = .next (withDev s (setWait (Claims.found s e hand) ⟨s.env.unit, e, pc, hand⟩ w)) := by
  obtain ⟨rfl, hr⟩ := h
  rw [← issued_eq_found s s.env.eng pc] at hf
  simp only [State.run_eq, controlWord, hr, hf, Res.bind, finish, withDev, hw, Bool.not_true, Bool.and_false, Bool.false_eq_true, if_false]
  rfl

/-- The step of a word of one engine that raises a user trap (R315). -/
theorem run_own_trap {i : Instr} {f : Env → At → Dev → Res Unit} {skip : Eng → TCore → TCore} {c : ℕ} {i0 i1 i2 i3 : Dword}
    (hf : f s.env ⟨s.env.unit, e, pc, hand⟩ (Claims.found s e hand) = .trap c i0 i1 i2 i3) :
    s.run (fun env d => engineWord e i (f env) skip env d) =
      .next (withDev s (enterTrap s.env s.dev s.env.unit e pc c i0 i1 i2 i3)) := by
  obtain ⟨rfl, hr⟩ := h
  rw [State.run_eq, engineWord_trap rfl hr (by rw [issued_eq_found]; exact hf)]; rfl

/-- The step of a word of one engine that waits, in a cycle that is no issue cycle. -/
theorem run_own_wait {i : Instr} {f : Env → At → Dev → Res Unit} {skip : Eng → TCore → TCore} {w : Wait} (hw : w.tick = false)
    (hf : f s.env ⟨s.env.unit, e, pc, hand⟩ (Claims.found s e hand) = .wait w (Claims.found s e hand)) :
    s.run (fun env d => engineWord e i (f env) skip env d) = .next (withDev s (setWait s.dev ⟨s.env.unit, e, pc, hand⟩ w)) := by
  obtain ⟨rfl, hr⟩ := h
  rw [State.run_eq, engineWord_wait rfl hr (by rw [issued_eq_found]; exact hf), wait_found s s.env.eng hand hw]; rfl

end

/-! ### What an issue cycle leaves as it stands -/

/-- A pending result that lands writes a vector register and raises its flags; nothing else of the iteration changes (R176). -/
theorem issueTick_eq (c : TCore) : issueTick c = { c with
    regs := { c.regs with v := (issueTick c).regs.v }, csr := { c.csr with vflags := (issueTick c).csr.vflags }, sfu := (issueTick c).sfu } := by
  have hfold (g : TCore → Sfu → TCore)
      (hg : ∀ x r, g x r = { x with regs := { x.regs with v := (g x r).regs.v }, csr := { x.csr with vflags := (g x r).csr.vflags } })
      (l : List Sfu) (x : TCore) : l.foldl g x =
        { x with regs := { x.regs with v := (l.foldl g x).regs.v }, csr := { x.csr with vflags := (l.foldl g x).csr.vflags } } := by
    induction l generalizing x with
    | nil => rfl
    | cons r l ih => rw [List.foldl_cons, ih, hg]
  unfold issueTick
  split
  · rfl
  · dsimp only
    rw [hfold]
    intros; rfl

@[simp] theorem issueTick_eng (c : TCore) : (issueTick c).eng = c.eng := by rw [issueTick_eq]
@[simp] theorem issueTick_engine (c : TCore) (e : Eng) : (issueTick c).engine e = c.engine e := by rw [issueTick_eq]; rfl
@[simp] theorem issueTick_trap (c : TCore) : (issueTick c).trap = c.trap := by rw [issueTick_eq]
@[simp] theorem issueTick_tok (c : TCore) : (issueTick c).tok = c.tok := by rw [issueTick_eq]
@[simp] theorem issueTick_queues (c : TCore) : (issueTick c).q = c.q := by rw [issueTick_eq]
@[simp] theorem issueTick_regs_s (c : TCore) : (issueTick c).regs.s = c.regs.s := by rw [issueTick_eq]
@[simp] theorem issueTick_regs_a (c : TCore) : (issueTick c).regs.a = c.regs.a := by rw [issueTick_eq]
@[simp] theorem issueTick_regs_c (c : TCore) : (issueTick c).regs.c = c.regs.c := by rw [issueTick_eq]
@[simp] theorem issueTick_regs_k (c : TCore) : (issueTick c).regs.k = c.regs.k := by rw [issueTick_eq]
@[simp] theorem issueTick_vrb (c : TCore) : (issueTick c).csr.vrb = c.csr.vrb := by rw [issueTick_eq]
@[simp] theorem issueTick_rows (c : TCore) : (issueTick c).csr.rows = c.csr.rows := by rw [issueTick_eq]
@[simp] theorem issueTick_cols (c : TCore) : (issueTick c).csr.cols = c.csr.cols := by rw [issueTick_eq]


/-- Of the engines, the trap state and the token counters an engine finds what stood there. -/
theorem found_engine (s : State) (e : Eng) (hand : Bool) (g : Eng) :
    ((Claims.found s e hand).tile s.env.unit).core.engine g = (iter s).engine g := by
  rw [found_tile_core]; split <;> simp

theorem found_trap (s : State) (e : Eng) (hand : Bool) : ((Claims.found s e hand).tile s.env.unit).core.trap = (iter s).trap := by
  rw [found_tile_core]; split <;> simp

theorem found_tok (s : State) (e : Eng) (hand : Bool) : ((Claims.found s e hand).tile s.env.unit).core.tok = (iter s).tok := by
  rw [found_tile_core]; split <;> simp

/-- A change to an iteration is what it makes of the one that is there. -/
theorem onCore_congr {d : Dev} {t : ℕ} {f g : TCore → TCore} (h : f (d.tile t).core = g (d.tile t).core) : d.onCore t f = d.onCore t g := by
  simp only [Dev.onCore, Dev.onTile, h]

theorem onEng_congr {c : TCore} {e : Eng} {f g : Engine → Engine} (h : f (c.engine e) = g (c.engine e)) : c.onEng e f = c.onEng e g := by
  rw [TCore.onEng, TCore.onEng, show f c.eng[e.idx.val] = g c.eng[e.idx.val] from h]

/-! ### BR, CALL and RET -/

theorem branchTo_eq {w : ℕ} (pc : Dword) (o : BitVec w) : branchTo pc o = pc + BitVec.ofInt 64 (4 * o.toInt) := rfl

/-- The return stack that a word of an engine, or of the handler, works on (R67, R114). -/
theorem retStack_found (s : State) (e : Eng) (pc : Dword) (hand : Bool) : retStack (Claims.found s e hand) ⟨s.env.unit, e, pc, hand⟩ =
    if hand then ((iter s).trap.hand.map (·.ret)).getD [] else ((iter s).engine e).ret := by
  simp only [retStack, found_engine, found_trap]

theorem setRetStack_engine (d : Dev) (t : ℕ) (e : Eng) (pc : Dword) (l : List Dword) :
    setRetStack d ⟨t, e, pc, false⟩ l = d.onCore t fun c => c.onEng e fun g => { g with ret := l } := rfl

section
variable {s : State} {e : Eng} {pc : Dword} {hand : Bool} (h : Stands s e pc hand)
include h

theorem exec_call_ok {o : BitVec 22} {l : List Dword} (hl : retStack (Claims.found s e hand) ⟨s.env.unit, e, pc, hand⟩ = l) (h8 : l.length < 8) :
    exec (.call o) s = .next (walked s pc (setRetStack (Claims.found s e hand) ⟨s.env.unit, e, pc, hand⟩ ((pc + 4) :: l)) e hand
      (pc + BitVec.ofInt 64 (4 * o.toInt)) .c) :=
  run_control (f := callWord o) h (by rw [callWord, hl, if_neg (by omega), branchTo_eq])

theorem exec_call_full {o : BitVec 22} {l : List Dword} (hl : retStack (Claims.found s e hand) ⟨s.env.unit, e, pc, hand⟩ = l) (h8 : l.length = 8) :
    exec (.call o) s = .next (withDev s (enterTrap s.env s.dev s.env.unit e pc 0x08 0 0 0 0)) :=
  run_control_trap (f := callWord o) h (by rw [callWord, hl, if_pos (by omega)])

theorem exec_ret_ok {x : Dword} {l : List Dword} (hl : retStack (Claims.found s e hand) ⟨s.env.unit, e, pc, hand⟩ = x :: l) :
    exec .ret s = .next (walked s pc (setRetStack (Claims.found s e hand) ⟨s.env.unit, e, pc, hand⟩ l) e hand x .c) :=
  run_control (f := retWord) h (by rw [retWord, hl])

theorem exec_ret_empty (hl : retStack (Claims.found s e hand) ⟨s.env.unit, e, pc, hand⟩ = []) :
    exec .ret s = .next (withDev s (enterTrap s.env s.dev s.env.unit e pc 0x08 0 0 0 0)) :=
  run_control_trap (f := retWord) h (by rw [retWord, hl])

end

/-- Settles O16: BR branches; CALL and RET by the return stack that the word works on (`retStack_found`). -/
theorem branchWords : Obligations.BranchWords := by
  intro s e pc x o l
  refine ⟨fun hand h => ?_, fun h => ?_, fun g h hg => ?_⟩
  · exact run_control (f := fun a d => .ok (branchTo a.pc o) d) h rfl
  · have hl := retStack_found s e pc false
    rw [if_neg (by decide)] at hl
    have hpush : setRetStack (Claims.found s e false) ⟨s.env.unit, e, pc, false⟩ ((pc + 4) :: ((iter s).engine e).ret) =
        (Claims.found s e false).onCore s.env.unit fun c => c.onEng e fun g => { g with ret := (pc + 4) :: g.ret } :=
      (setRetStack_engine ..).trans (onCore_congr (onEng_congr (by rw [found_engine])))
    exact ⟨fun h8 => hpush ▸ exec_call_ok h hl h8, exec_call_full h hl, fun hx => exec_ret_ok h (hl.trans hx),
      fun hx => exec_ret_empty h (hl.trans hx)⟩
  · have hl := retStack_found s .x pc true
    rw [if_pos rfl, hg] at hl
    exact ⟨exec_call_ok h hl, exec_call_full h hl, fun hx => exec_ret_ok h (hl.trans hx), fun hx => exec_ret_empty h (hl.trans hx)⟩


/-! ### TOK -/

/-- The place of the counter from engine f to engine t (R68). -/
def tokIdx (f t : Eng) : ℕ := 4 * f.idx.val + t.idx.val

/-- A token counter, as a number. -/
def TCore.tokens (c : TCore) (f t : Eng) : ℕ := (vget c.tok 0 (tokIdx f t)).toNat

/-- A token counter set to a number. -/
def TCore.setTokens (c : TCore) (f t : Eng) (n : ℕ) : TCore := { c with tok := vset c.tok (tokIdx f t) (BitVec.ofNat 4 n) }

theorem found_tokens (s : State) (e f t : Eng) (hand : Bool) :
    ((Claims.found s e hand).tile s.env.unit).core.tokens f t = ((iter s).tok.toList.getD (tokIdx f t) 0).toNat := by
  rw [TCore.tokens, found_tok, vget, List.getD_eq_getElem?_getD, Vector.getElem?_toList]

theorem add_eq_ofNat (x n : BitVec 4) : x + n = BitVec.ofNat 4 (x.toNat + n.toNat) := by
  apply BitVec.eq_of_toNat_eq; simp

theorem sub_eq_ofNat {x n : BitVec 4} (h : n.toNat ≤ x.toNat) : x - n = BitVec.ofNat 4 (x.toNat - n.toNat) := by
  apply BitVec.eq_of_toNat_eq
  rw [BitVec.toNat_sub_of_le (BitVec.le_def.mpr h), BitVec.toNat_ofNat, Nat.mod_eq_of_lt (by omega)]

section
variable {f t : Eng} {n : BitVec 4} {a : At} {d : Dev} (ha : a.hand = false)
include ha

/-- The sender adds n to its counter, up to 15 (R68). -/
theorem tokWord_send (he : a.e = f) (hn : (d.tile a.t).core.tokens f t + n.toNat ≤ 15) :
    tokWord f t n a d = .ok (a.pc + 4) (d.onCore a.t fun c => c.setTokens f t ((d.tile a.t).core.tokens f t + n.toNat)) := by
  rw [TCore.tokens, tokIdx] at *
  simp only [tokWord, ha, he, hn, TCore.setTokens, tokIdx, add_eq_ofNat, Bool.false_eq_true, if_false, if_true]

/-- The receiver takes n from its counter (R68). -/
theorem tokWord_receive (hft : f ≠ t) (he : a.e = t) (hn : n.toNat ≤ (d.tile a.t).core.tokens f t) :
    tokWord f t n a d = .ok (a.pc + 4) (d.onCore a.t fun c => c.setTokens f t ((d.tile a.t).core.tokens f t - n.toNat)) := by
  rw [TCore.tokens, tokIdx] at *
  simp only [tokWord, ha, he, if_neg hft.symm, hn, TCore.setTokens, tokIdx, sub_eq_ofNat hn, Bool.false_eq_true, if_false, if_true]

/-- The other two engines step over it (R68). -/
theorem tokWord_skip (hf : a.e ≠ f) (ht : a.e ≠ t) : tokWord f t n a d = .ok (a.pc + 4) d := by
  simp only [tokWord, ha, if_neg hf, if_neg ht, Bool.false_eq_true, if_false]

/-- Sender and receiver wait with code 3 (R68, R75). -/
theorem tokWord_wait (hft : f ≠ t) (hw : (a.e = f ∧ 15 < (d.tile a.t).core.tokens f t + n.toNat) ∨
    (a.e = t ∧ (d.tile a.t).core.tokens f t < n.toNat)) :
    tokWord f t n a d = .wait { code := 3, detail := BitVec.ofNat 8 (tokIdx f t) } d := by
  rw [TCore.tokens, tokIdx] at *
  rcases hw with ⟨he, hn⟩ | ⟨he, hn⟩
  · simp only [tokWord, ha, he, if_neg (not_le.mpr hn), Bool.false_eq_true, if_false, if_true]
  · simp only [tokWord, ha, he, if_neg hft.symm, if_neg (not_le.mpr hn), Bool.false_eq_true, if_false, if_true]

end

/-- Settles O18: the four outcomes of TOK (`tokWord_send`, `tokWord_receive`, `tokWord_skip`, `tokWord_wait`), by the engine that walks it
and the counter it finds (`found_tokens`). -/
theorem tokenWords : Obligations.TokenWords := by
  intro s e f t pc n h hft k x
  have hx : ((Claims.found s e false).tile s.env.unit).core.tokens f t = x := found_tokens ..
  refine ⟨fun he hn => ?_, fun he hn => ?_, fun hf ht => ?_, fun hw => ?_⟩
  · exact run_control h ((tokWord_send rfl he (by rw [hx]; exact hn)).trans (by rw [hx]; rfl))
  · exact run_control h ((tokWord_receive rfl hft he (by rw [hx]; exact hn)).trans (by rw [hx]; rfl))
  · exact run_control h (tokWord_skip rfl hf ht)
  · exact run_control_wait h rfl (tokWord_wait rfl hft (by rw [hx]; exact hw))


/-! ### What a walked word leaves of the iteration -/

section
variable {s : State} {pc next : Dword} {d : Dev} {e : Eng} {p : Prev}

/-- An engine that has walked a word outside a handler goes on at the next PC; the other three stand as the word's effect left them. -/
theorem iter_walked : iter (walked s pc d e false next p) =
    { ({ (d.tile s.env.unit).core with stall := 0, skip := (d.tile s.env.unit).core.skip.filter fun x => x.1 != e } : TCore).onEng e
        fun x => { x with pc := next, walk := x.walk + 1, wait := none, prev := p } with
      trap := if e = .m then { (d.tile s.env.unit).core.trap with mHold := false } else (d.tile s.env.unit).core.trap } :=
  walkTo_core d ⟨s.env.unit, e, pc, false⟩ next p rfl

/-- Walking changes of the iteration the engines, the trap state, the stall count and the breakpoints that hold off. -/
theorem iter_walked_eq (hand : Bool) : iter (walked s pc d e hand next p) = { (d.tile s.env.unit).core with
    eng := (iter (walked s pc d e hand next p)).eng, trap := (iter (walked s pc d e hand next p)).trap, stall := 0
    skip := (iter (walked s pc d e hand next p)).skip } := by
  cases hand
  · rw [iter_walked]; rfl
  · have h : iter (walked s pc d e true next p) = _ := walkTo_core_hand d ⟨s.env.unit, e, pc, true⟩ next p rfl
    rw [h]

section
variable {hand : Bool}
@[simp] theorem walked_regs : (iter (walked s pc d e hand next p)).regs = (d.tile s.env.unit).core.regs := by rw [iter_walked_eq]
@[simp] theorem walked_q : (iter (walked s pc d e hand next p)).q = (d.tile s.env.unit).core.q := by rw [iter_walked_eq]
@[simp] theorem walked_csr : (iter (walked s pc d e hand next p)).csr = (d.tile s.env.unit).core.csr := by rw [iter_walked_eq]
@[simp] theorem walked_lease : (iter (walked s pc d e hand next p)).lease = (d.tile s.env.unit).core.lease := by rw [iter_walked_eq]
end

theorem walked_engine (g : Eng) : (iter (walked s pc d e false next p)).engine g =
    if g = e then { (d.tile s.env.unit).core.engine e with
      pc := next, walk := ((d.tile s.env.unit).core.engine e).walk + 1, wait := none, prev := p }
    else (d.tile s.env.unit).core.engine g := by
  have h : (iter (walked s pc d e false next p)).engine g = ((d.tile s.env.unit).core.onEng e fun x =>
      { x with pc := next, walk := x.walk + 1, wait := none, prev := p }).engine g := by rw [iter_walked]; rfl
  rw [h, engine_onEng]

theorem walked_memSame {hand : Bool} (hd : d.mem = s.dev.mem) : MemSame s (walked s pc d e hand next p) := fun a => by
  rw [walked, withDev, walkTo_mem, hd]

@[simp] theorem walked_cluster {hand : Bool} (c : ℕ) : (walked s pc d e hand next p).dev.cluster c = d.cluster c := walkTo_cluster ..

end

theorem found_mem (s : State) (e : Eng) (hand : Bool) : (Claims.found s e hand).mem = s.dev.mem := by
  unfold Claims.found; split <;> rfl

/-! ### Decided words -/

/-- An outcome goes to the queues of the other three engines (R65). -/
theorem pushOutcome_engine (e : Eng) (x : Dword) (c : TCore) (g : Eng) :
    (pushOutcome e x c).engine g = if g = e then c.engine e else { c.engine g with outs := (c.engine g).outs ++ [x] } := by
  cases e <;> cases g <;> simp [pushOutcome, others, Eng.all]

theorem pushOutcome_eq (e : Eng) (x : Dword) (c : TCore) : pushOutcome e x c = { c with eng := (pushOutcome e x c).eng } := by
  cases e <;> rfl

section
variable {i : Instr} {e : Eng} {eval : TCore → Dword × TCore} {app : At → Dword → TCore → Dword × TCore} {a : At} {d : Dev}
  (ha : a.hand = false)
include ha

/-- The decider evaluates the word and hands its outcome on, while the other three queues have room (R65). -/
theorem decided_decides (he : e = a.e) (hroom : ∀ g, g ≠ e → ((d.tile a.t).core.engine g).outs.length < 32) {x : Dword} {c : TCore}
    (hev : eval (d.tile a.t).core = (x, c)) :
    decided i e eval app a d = .ok (app a x (pushOutcome e x c)).1 (d.onCore a.t fun _ => (app a x (pushOutcome e x c)).2) := by
  have hall : ((others e).all fun g => decide (((d.tile a.t).core.engine g).outs.length < 32)) = true := by
    rw [List.all_eq_true]
    intro g hg
    exact decide_eq_true (hroom g (by simpa [Eng.all] using (List.mem_filter.mp hg).2))
  simp only [decided, ha, if_pos he, hall, hev, Bool.false_eq_true, if_false, if_true]

/-- An engine that follows takes the head of its outcome queue (R65). -/
theorem decided_follows (he : e ≠ a.e) {x : Dword} {l : List Dword} (ho : ((d.tile a.t).core.engine a.e).outs = x :: l) {n : Dword} {c : TCore}
    (happ : app a x ((d.tile a.t).core.onEng a.e fun g => { g with outs := l }) = (n, c)) :
    decided i e eval app a d = .ok n (d.onCore a.t fun _ => c) := by
  simp only [decided, ha, if_neg he, ho, happ, Bool.false_eq_true, if_false]

/-- It waits while that queue is empty (R65, R75). -/
theorem decided_waits (he : e ≠ a.e) (ho : ((d.tile a.t).core.engine a.e).outs = []) :
    decided i e eval app a d = .wait { code := 5 } d := by
  simp only [decided, ha, if_neg he, ho, Bool.false_eq_true, if_false]

end


/-- A decider whose word comes to an outcome x, with a change f of its registers, and that goes on at `next`. -/
theorem decides_of {s : State} {e : Eng} {pc next x : Dword} {i : Instr} {d : Dev} {c : TCore} {f : TCore → TCore}
    (hstep : exec i s = .next (walked s pc d e false next .c)) (hmem : d.mem = s.dev.mem)
    (hcore : (d.tile s.env.unit).core = pushOutcome e x c) (heng : c.eng = (iter s).eng) (hs : c.regs.s = (f (iter s)).regs.s)
    (ha : c.regs.a = (f (iter s)).regs.a) (hc : c.regs.c = (iter s).regs.c) (hq : c.q = (iter s).q) :
    Claims.Decides i s e next x f := by
  have hengine (g : Eng) : c.engine g = (iter s).engine g := by rw [TCore.engine, heng]; rfl
  refine ⟨_, hstep, walked_memSame hmem, ?_, ?_, ?_, ?_, ?_, ?_, fun g hg => ?_⟩
  · rw [walked_engine, if_pos rfl]
  · rw [walked_engine, if_pos rfl, hcore]
    simp only [pushOutcome_engine, if_true, hengine]
  · rw [walked_regs, hcore, pushOutcome_eq]; exact hs
  · rw [walked_regs, hcore, pushOutcome_eq]; exact ha
  · rw [walked_regs, hcore, pushOutcome_eq]; exact hc
  · rw [walked_q, hcore, pushOutcome_eq]; exact hq
  · rw [walked_engine, if_neg hg, hcore, pushOutcome_engine, if_neg hg, hengine]

/-- A decided word that changes nothing but what its evaluation does to the decider's registers. -/
theorem exec_decides {s : State} {e : Eng} {pc : Dword} {i : Instr} {eval : TCore → Dword × TCore}
    {app : At → Dword → TCore → Dword × TCore} (hstep : exec i s = s.run (controlWord i (decided i e eval app))) (h : Stands s e pc false)
    (hroom : ∀ g, g ≠ e → ((iter s).engine g).outs.length < 32) {x next : Dword} {f : TCore → TCore} {c : TCore}
    (hev : eval ((Claims.found s e false).tile s.env.unit).core = (x, c)) (happ : ∀ y, app ⟨s.env.unit, e, pc, false⟩ x y = (next, y))
    (heng : c.eng = (iter s).eng) (hs : c.regs.s = (f (iter s)).regs.s)
    (ha : c.regs.a = (f (iter s)).regs.a) (hc : c.regs.c = (iter s).regs.c) (hq : c.q = (iter s).q) : Claims.Decides i s e next x f := by
  have hd := decided_decides (i := i) (app := app) (a := ⟨s.env.unit, e, pc, false⟩) rfl rfl
    (fun g hg => by rw [found_engine]; exact hroom g hg) hev
  rw [happ] at hd
  exact decides_of (hstep.trans (run_control h hd)) (found_mem ..) (by rw [Dev.tile_onCore, if_pos rfl]) heng hs ha hc hq

theorem condHolds_iff {cond : BitVec 4} (h : cond.toNat ≤ 5) (v : Dword) : condHolds cond v = true ↔
    (cond = 0 ∧ v = 0) ∨ (cond = 1 ∧ v ≠ 0) ∨ (cond = 2 ∧ v.toInt < 0) ∨ (cond = 3 ∧ 0 ≤ v.toInt) ∨
      (cond = 4 ∧ 0 < v.toInt) ∨ (cond = 5 ∧ v.toInt ≤ 0) := by
  have hcases : ∀ c : BitVec 4, c.toNat ≤ 5 → c = 0 ∨ c = 1 ∨ c = 2 ∨ c = 3 ∨ c = 4 ∨ c = 5 := by decide
  rcases hcases cond h with rfl | rfl | rfl | rfl | rfl | rfl <;> simp [condHolds]

theorem anySet_iff (c : TCore) (m : Mask) : c.anySet m = true ↔ ∃ p, p < 512 ∧ c.inShape p = true ∧ m.getLsbD p = true := by
  simp [TCore.anySet]

/-- The condition of BRC is the decider's test (R94). -/
theorem brcTest_iff {e : Eng} {cond : BitVec 4} {r : BitVec 5} {c : TCore} (hc : if e = .v then cond = 6 ∨ cond = 7 else cond.toNat ≤ 5) :
    brcTest e cond r c = true ↔ Claims.brcTaken e cond r c := by
  cases e with
  | x => simp [brcTest, Claims.brcTaken, condHolds_iff hc]
  | a => simp [brcTest, Claims.brcTaken, condHolds_iff hc]
  | m => simp [brcTest, Claims.brcTaken, condHolds_iff hc]
  | v =>
    rcases hc with rfl | rfl
    · simp [brcTest, Claims.brcTaken, anySet_iff]
    · simp [brcTest, Claims.brcTaken, ← anySet_iff]

theorem brcTaken_found (s : State) (e : Eng) (hand : Bool) (cond : BitVec 4) (r : BitVec 5) :
    Claims.brcTaken e cond r ((Claims.found s e hand).tile s.env.unit).core ↔ Claims.brcTaken e cond r (iter s) := by
  rw [found_tile_core]
  split
  · next he =>
    obtain ⟨rfl, -⟩ : e = .v ∧ hand = false := by simpa using he
    simp [Claims.brcTaken, TCore.inShape, TCore.k]
  · rfl

theorem found_regs_s (s : State) (e : Eng) (hand : Bool) : ((Claims.found s e hand).tile s.env.unit).core.regs.s = (iter s).regs.s := by
  rw [found_tile_core]; split <;> simp

theorem found_regs_a (s : State) (e : Eng) (hand : Bool) : ((Claims.found s e hand).tile s.env.unit).core.regs.a = (iter s).regs.a := by
  rw [found_tile_core]; split <;> simp

theorem found_regs_c (s : State) (e : Eng) (hand : Bool) : ((Claims.found s e hand).tile s.env.unit).core.regs.c = (iter s).regs.c := by
  rw [found_tile_core]; split <;> simp

theorem found_q (s : State) (e : Eng) (hand : Bool) : ((Claims.found s e hand).tile s.env.unit).core.q = (iter s).q := by
  rw [found_tile_core]; split <;> simp

theorem found_eng (s : State) (e : Eng) (hand : Bool) : ((Claims.found s e hand).tile s.env.unit).core.eng = (iter s).eng := by
  rw [found_tile_core]; split <;> simp

section
variable {s : State} {e : Eng} {pc : Dword} (h : Stands s e pc false) (hroom : ∀ g, g ≠ e → ((iter s).engine g).outs.length < 32)
include h hroom

/-- BRC at its decider (R94, R108). -/
theorem brc_decides {cond : BitVec 4} {r : BitVec 5} {o : BitVec 13} {b : Bool} (hb : brcTest e cond r ((Claims.found s e false).tile s.env.unit).core = b) :
    Claims.Decides (.brc e cond r o) s e (if b then pc + BitVec.ofInt 64 (4 * o.toInt) else pc + 4) (b2d b) fun c => c :=
  exec_decides (eval := fun x => (b2d (brcTest e cond r x), x)) (app := takenTo o) rfl h hroom (by rw [hb])
    (fun y => by cases b <;> rfl) (found_eng ..) (found_regs_s ..) (found_regs_a ..) (found_regs_c ..) (found_q ..)

end

theorem setS_eq (c : TCore) (r : BitVec 5) (x : Dword) : c.setS r x = { c with regs := { c.regs with s := (c.setS r x).regs.s } } := by
  unfold TCore.setS; split <;> rfl

theorem setA_eq (c : TCore) (r : BitVec 5) (x : Dword) : c.setA r x = { c with regs := { c.regs with a := (c.setA r x).regs.a } } := by
  unfold TCore.setA; split <;> rfl

section
variable {s : State} {e : Eng} {pc : Dword} (h : Stands s e pc false) (hroom : ∀ g, g ≠ e → ((iter s).engine g).outs.length < 32)
  (hv : e ≠ .v)
include h hroom hv

/-- LOOP and LOOPR at their decider (R109, R110). -/
theorem loop_decides {r : BitVec 5} {o : BitVec 17} {i : Instr} (hi : i ∈ [Instr.loop e r o, .loopr e r o]) {b : Bool} {f : TCore → TCore}
    (hcount : loopCount e r (iter s) = (b2d b, f (iter s))) (heng : (f (iter s)).eng = (iter s).eng)
    (hc : (f (iter s)).regs.c = (iter s).regs.c) (hq : (f (iter s)).q = (iter s).q) :
    Claims.Decides i s e (if b then pc + BitVec.ofInt 64 (4 * o.toInt) else pc + 4) (b2d b) f := by
  have hev : loopCount e r ((Claims.found s e false).tile s.env.unit).core = (b2d b, f (iter s)) := by rw [found_of hv]; exact hcount
  simp only [List.mem_cons, List.not_mem_nil, or_false] at hi
  rcases hi with rfl | rfl
  · exact exec_decides (app := takenTo o) rfl h hroom hev (fun y => by cases b <;> rfl) heng rfl rfl hc hq
  · refine exec_decides (app := looprTo o) rfl h hroom hev (fun y => ?_) heng rfl rfl hc hq
    cases b
    · rfl
    · simp [looprTo, b2d, hv, branchTo_eq]

/-- BRX at its decider (R111). -/
theorem brx_decides {r : BitVec 5} {x : Dword} (hx : brxTarget e r (iter s) = (x, iter s)) :
    Claims.Decides (.brx e r) s e x x fun c => c := by
  have hev : brxTarget e r ((Claims.found s e false).tile s.env.unit).core = (x, iter s) := by rw [found_of hv]; exact hx
  exact exec_decides rfl h hroom hev (fun y => rfl) rfl rfl rfl rfl rfl

end

theorem decidedWords : Claims.DecidedWords := by
  intro s e pc cond r o13 o17 h hroom
  refine ⟨fun hcond => ?_, ?_, ?_, ?_, ?_⟩
  · have hiff := (brcTest_iff (r := r) (c := ((Claims.found s e false).tile s.env.unit).core) hcond).trans (brcTaken_found ..)
    exact ⟨fun ht => brc_decides h hroom (hiff.mpr ht), fun ht => brc_decides h hroom (Bool.eq_false_iff.mpr (mt hiff.mp ht))⟩
  · rintro rfl i hi
    have hd (b : Bool) (hb : ((iter s).s r - 1 != 0) = b) := loop_decides h hroom (by decide) hi
      (f := fun c => c.setS r (c.s r - 1)) (b := b) (hb ▸ rfl) (by rw [setS_eq]) (by rw [setS_eq]) (by rw [setS_eq])
    exact ⟨fun hne => hd true (bne_iff_ne.mpr hne), fun he => hd false (bne_eq_false_iff_eq.mpr he)⟩
  · rintro rfl i hi
    have hd (b : Bool) (hb : ((iter s).a r - 1 != 0) = b) := loop_decides h hroom (by decide) hi
      (f := fun c => c.setA r (c.a r - 1)) (b := b) (hb ▸ rfl) (by rw [setA_eq]) (by rw [setA_eq]) (by rw [setA_eq])
    exact ⟨fun hne => hd true (bne_iff_ne.mpr hne), fun he => hd false (bne_eq_false_iff_eq.mpr he)⟩
  · rintro rfl
    exact brx_decides h hroom (by decide) rfl
  · rintro rfl
    exact brx_decides h hroom (by decide) rfl

/-- A decided word at an engine that follows (R65, R110, R111). -/
theorem exec_follows {s : State} {g e : Eng} {pc : Dword} {i : Instr} {eval : TCore → Dword × TCore}
    {app : At → Dword → TCore → Dword × TCore} (hstep : exec i s = s.run (controlWord i (decided i e eval app))) (h : Stands s g pc false)
    (hge : g ≠ e) {x next : Dword} {l : List Dword} {vrb : BitVec 4} (ho : ((iter s).engine g).outs = x :: l)
    (happ : ∀ c, c.csr.vrb = (iter s).csr.vrb → app ⟨s.env.unit, g, pc, false⟩ x c = (next, { c with csr := { c.csr with vrb := vrb } })) :
    exec i s = .next (walked s pc ((Claims.found s g false).onCore s.env.unit fun c =>
      { (c.onEng g fun y => { y with outs := l }) with csr := { c.csr with vrb := vrb } }) g false next .c) := by
  have ho' : (((Claims.found s g false).tile s.env.unit).core.engine g).outs = x :: l := by rw [found_engine]; exact ho
  have hvrb : ((Claims.found s g false).tile s.env.unit).core.csr.vrb = (iter s).csr.vrb := by rw [found_tile_core]; split <;> simp
  have hd := decided_follows (i := i) (eval := eval) (app := app) (a := ⟨s.env.unit, g, pc, false⟩) rfl hge.symm ho' (happ _ hvrb)
  rw [hstep, run_control h hd]
  rfl

theorem takenTo_eq {w : ℕ} (o : BitVec w) (a : At) (x : Dword) (c : TCore) :
    takenTo o a x c = (if x = 0 then a.pc + 4 else a.pc + BitVec.ofInt 64 (4 * o.toInt), c) := by
  by_cases hx : x = 0 <;> simp [takenTo, hx, branchTo_eq]

theorem looprTo_eq (o : BitVec 17) (a : At) (x : Dword) (c : TCore) :
    looprTo o a x c = (if x = 0 then a.pc + 4 else a.pc + BitVec.ofInt 64 (4 * o.toInt),
      { c with csr := { c.csr with vrb := if a.e = .v ∧ x ≠ 0 then c.csr.vrb - 1 else c.csr.vrb } }) := by
  rw [looprTo]
  by_cases hx : x = 0
  · rw [if_neg (by simp [hx]), if_pos hx, if_neg fun h => h.2 hx]
  · rw [if_pos (bne_iff_ne.mpr hx), if_neg hx]
    by_cases he : a.e = .v
    · rw [if_pos he, if_pos ⟨he, hx⟩, branchTo_eq]
    · rw [if_neg he, if_neg fun h => he h.1, branchTo_eq]

theorem followedWords : Claims.FollowedWords := by
  intro s g e pc x l cond r o13 o17 h hge
  constructor
  · intro ho i hi
    have ho' : (((Claims.found s g false).tile s.env.unit).core.engine g).outs = [] := by rw [found_engine]; exact ho
    simp only [List.mem_cons, List.not_mem_nil, or_false] at hi
    rcases hi with rfl | rfl | rfl | rfl <;> exact run_control_wait h rfl (decided_waits rfl hge.symm ho')
  · intro ho i next vrb hi
    simp only [List.mem_cons, List.not_mem_nil, or_false, Prod.mk.injEq] at hi
    rcases hi with ⟨rfl, rfl, rfl⟩ | ⟨rfl, rfl, rfl⟩ | ⟨rfl, rfl, rfl⟩ | ⟨rfl, rfl, rfl⟩
    · exact exec_follows (app := takenTo o13) rfl h hge ho fun c hc => by rw [takenTo_eq, ← hc]
    · exact exec_follows (app := takenTo o17) rfl h hge ho fun c hc => by rw [takenTo_eq, ← hc]
    · exact exec_follows (app := looprTo o17) rfl h hge ho fun c hc => by rw [looprTo_eq, ← hc]
    · exact exec_follows rfl h hge ho fun c hc => by rw [← hc]

/-- Settles O17: the decider by what it evaluates (`exec_decides`), the others by the head of their outcome queue (`exec_follows`). -/
theorem decidedForms : Obligations.DecidedForms := ⟨decidedWords, followedWords⟩

end Sys2Proof.Machine

namespace Sys2Proof.Machine

open Sys2Proof.Safety

/-! ### POP, PUSH and QSTAT -/

/-- A word of X that may wait or trap, by what its effect is on what X finds. -/
theorem xTry_core {s : State} {i : Instr} {f : Env → At → Dev → Res Unit} {pc : Dword} {hand : Bool} {g : TCore → TCore}
    (h : Stands s .x pc hand) (hf : f s.env ⟨s.env.unit, .x, pc, hand⟩ s.dev = .ok () (s.dev.onCore s.env.unit g)) :
    xTry i f s = .next (after s .x pc hand g) := run_own h (by decide) hf

theorem xTry_trap {s : State} {i : Instr} {f : Env → At → Dev → Res Unit} {pc : Dword} {hand : Bool} {c : ℕ} {i0 i1 i2 i3 : Dword}
    (h : Stands s .x pc hand) (hf : f s.env ⟨s.env.unit, .x, pc, hand⟩ s.dev = .trap c i0 i1 i2 i3) :
    xTry i f s = .next (withDev s (enterTrap s.env s.dev s.env.unit .x pc c i0 i1 i2 i3)) :=
  run_own_trap h (by rw [found_of (by decide)]; exact hf)

theorem xTry_wait {s : State} {i : Instr} {f : Env → At → Dev → Res Unit} {pc : Dword} {hand : Bool} {w : Wait}
    (h : Stands s .x pc hand) (hw : w.tick = false) (hf : f s.env ⟨s.env.unit, .x, pc, hand⟩ s.dev = .wait w s.dev) :
    xTry i f s = .next (withDev s (setWait s.dev ⟨s.env.unit, .x, pc, hand⟩ w)) :=
  run_own_wait h hw (by rw [found_of (by decide)]; exact hf)

section
variable {s : State} {pc : Dword} {hand : Bool} (h : Stands s .x pc hand)
include h

/-- POP of a queue that X consumes takes its head (R119). -/
theorem exec_pop_head {d q : BitVec 5} (hq : q = 0 ∨ q = 5 ∨ q = 7) {x : Dword} {g : TCore → TCore}
    (hp : popX q.toNat (iter s) = some (x, g (iter s))) :
    exec (.pop d q) s = .next (after s .x pc hand fun c => (g c).setS d x) := by
  have hread : (q.toNat != 0 && q.toNat != 5 && q.toNat != 7) = false := by rcases hq with rfl | rfl | rfl <;> rfl
  refine xTry_core (f := fun _ => popWord d q) h ?_
  have hp' : popX q.toNat (s.dev.tile s.env.unit).core = some (x, g (iter s)) := hp
  simp only [popWord, hread, hp', Bool.false_eq_true, if_false]
  rfl

/-- It waits while the queue is empty (R75). -/
theorem exec_pop_empty {d q : BitVec 5} (hq : q = 0 ∨ q = 5 ∨ q = 7) (hp : popX q.toNat (iter s) = none) :
    exec (.pop d q) s = .next (withDev s (setWait s.dev ⟨s.env.unit, .x, pc, hand⟩ { code := 1, detail := q.setWidth 8 })) := by
  have hread : (q.toNat != 0 && q.toNat != 5 && q.toNat != 7) = false := by rcases hq with rfl | rfl | rfl <;> rfl
  refine xTry_wait (f := fun _ => popWord d q) h rfl ?_
  have hp' : popX q.toNat (s.dev.tile s.env.unit).core = none := hp
  simp only [popWord, hread, hp', waitEmpty, BitVec.ofNat_toNat, Bool.false_eq_true, if_false]

/-- PUSH to a queue that X produces, while there is room (R119). -/
theorem exec_push_room {q a : BitVec 5} (hq : q = 1 ∨ q = 4 ∨ q = 6) (hl : (iter s).qlen q.toNat < 16) :
    exec (.push q a) s = .next (after s .x pc hand fun c => pushX q.toNat (c.s a) c) := by
  have hwrite : (q.toNat != 1 && q.toNat != 4 && q.toNat != 6) = false := by rcases hq with rfl | rfl | rfl <;> rfl
  have hdepth : qdepth q.toNat = 16 := by rcases hq with rfl | rfl | rfl <;> rfl
  refine xTry_core (f := fun _ => pushWord q a) h ?_
  have hl' : ¬ 16 ≤ (s.dev.tile s.env.unit).core.qlen q.toNat := not_le.mpr hl
  simp only [pushWord, hwrite, hdepth, hl', Bool.false_eq_true, if_false]

/-- It waits while the queue is full (R75). -/
theorem exec_push_full {q a : BitVec 5} (hq : q = 1 ∨ q = 4 ∨ q = 6) (hl : (iter s).qlen q.toNat = 16) :
    exec (.push q a) s = .next (withDev s (setWait s.dev ⟨s.env.unit, .x, pc, hand⟩ { code := 2, detail := q.setWidth 8 })) := by
  have hwrite : (q.toNat != 1 && q.toNat != 4 && q.toNat != 6) = false := by rcases hq with rfl | rfl | rfl <;> rfl
  have hdepth : qdepth q.toNat = 16 := by rcases hq with rfl | rfl | rfl <;> rfl
  refine xTry_wait (f := fun _ => pushWord q a) h rfl ?_
  have hl' : 16 ≤ (s.dev.tile s.env.unit).core.qlen q.toNat := hl.ge
  simp only [pushWord, hwrite, hdepth, hl', waitFull, BitVec.ofNat_toNat, Bool.false_eq_true, if_false, if_true]

end

theorem qdepth_eq (q : BitVec 5) : qdepth q.toNat = if q = 2 ∨ q = 3 then 64 else if q = 7 then 8 else 16 := by
  revert q; decide

theorem queueWordsOfX : Claims.QueueWordsOfX := by
  intro s pc hand d a q x r h
  refine ⟨fun hq => ?_, fun hq => ?_, fun hq => ?_, fun hl => ?_, fun hl => ?_, fun hl => ?_, ?_⟩
  · exact exec_pop_head h (.inl rfl) (g := fun c => { c with q := { c.q with ax := r } }) (by simp [popX, hq])
  · exact exec_pop_head h (.inr (.inl rfl)) (g := fun c => { c with q := { c.q with vx := r } }) (by simp [popX, hq])
  · exact exec_pop_head h (.inr (.inr rfl)) (g := fun c => { c with q := { c.q with mx := r } }) (by simp [popX, hq])
  · exact exec_push_room h (.inl rfl) hl
  · exact exec_push_room h (.inr (.inl rfl)) hl
  · exact exec_push_room h (.inr (.inr rfl)) hl
  · rw [← qdepth_eq]; exact run_core h (by decide)

theorem queueWordsTrapOrWait : Claims.QueueWordsTrapOrWait := by
  intro s pc hand d a q h
  refine ⟨fun h0 h5 h7 => ?_, fun h1 h4 h6 => ?_, fun k l hk hl => ?_, fun k l hk hl => ?_⟩
  · exact xTry_trap (f := fun _ => popWord d q) h (by simp [popWord, h0, h5, h7, queueProtocol, dw])
  · exact xTry_trap (f := fun _ => pushWord q a) h (by simp [pushWord, h1, h4, h6, queueProtocol, dw])
  · simp only [List.mem_cons, List.not_mem_nil, or_false, Prod.mk.injEq] at hk
    rcases hk with ⟨rfl, rfl⟩ | ⟨rfl, rfl⟩ | ⟨rfl, rfl⟩
    · exact exec_pop_empty h (.inl rfl) (by simp [popX, hl])
    · exact exec_pop_empty h (.inr (.inl rfl)) (by simp [popX, hl])
    · exact exec_pop_empty h (.inr (.inr rfl)) (by simp [popX, hl])
  · simp only [List.mem_cons, List.not_mem_nil, or_false, Prod.mk.injEq] at hk
    rcases hk with ⟨rfl, rfl⟩ | ⟨rfl, rfl⟩ | ⟨rfl, rfl⟩
    · exact exec_push_full h (.inl rfl) hl
    · exact exec_push_full h (.inr (.inl rfl)) hl
    · exact exec_push_full h (.inr (.inr rfl)) hl

/-- Settles O5: POP by what `popX` takes (`exec_pop_head`, `exec_pop_empty`), PUSH by the room it finds (`exec_push_room`,
`exec_push_full`). -/
theorem queueForms : Obligations.QueueForms := ⟨queueWordsOfX, queueWordsTrapOrWait⟩


/-! ### The CSR words and WFE -/

theorem s_setS_self (c : TCore) (r : BitVec 5) (x : Dword) : (c.setS r x).s r = if r = 0 then 0 else x := by
  unfold TCore.s TCore.setS
  by_cases h : r = 0
  · rw [if_pos h, if_pos h]
  · rw [if_neg h, if_neg h, if_neg h]; exact Vector.getElem_set_self ..

/-- An event is counted by what stands at its tile (R367). -/
theorem countEv_setTile_same (d : Dev) (t : ℕ) (vf : BitVec 10) (ev n : ℕ) :
    countEv (d.setTile t (d.tile t)) t vf ev n = (countEv d t vf ev n).setTile t (d.tile t) := by
  unfold countEv
  rw [Dev.tile_setTile, if_pos rfl, show (d.setTile t (d.tile t)).vf vf.toNat = d.vf vf.toNat from rfl]
  dsimp only
  split <;> rfl

/-- A word whose effect is a change that changes nothing is walked like one with no effect. -/
theorem walkTo_onCore_id (d : Dev) (a : At) (next : Dword) (p : Prev) : walkTo (d.onCore a.t fun c => c) a next p = walkTo d a next p := by
  show walkTo (d.setTile a.t (d.tile a.t)) a next p = _
  unfold walkTo Dev.onTile
  rw [Dev.tile_setTile, if_pos rfl, countEv_setTile_same, Dev.setTile_setTile, Dev.tile_setTile, if_pos rfl, countEv_tile]

theorem setS_csr (c : TCore) (r : BitVec 5) (x : Dword) : (c.setS r x).csr = c.csr := by rw [setS_eq]

/-- An S register depends on the registers alone. -/
theorem s_congr {c e : TCore} (h : c.regs = e.regs) (r : BitVec 5) : c.s r = e.s r := by rw [TCore.s, TCore.s, h]

section
variable {s : State} {pc : Dword} {hand : Bool} {d a : BitVec 5} (h : Stands s .x pc hand)
include h

/-- CSRW of a value that the CSR takes (R126). -/
theorem exec_csrw {c : BitVec 12} (hr : csrRefuses s.dev s.env.unit c.toNat ((iter s).s a) = false) :
    exec (.csrw a c) s = .next (after s .x pc hand (csrPut c.toNat ((iter s).s a))) := by
  refine xTry_core (f := fun _ p dv => csrWrite p.t c.toNat ((dv.tile p.t).core.s a) dv) h ?_
  have hr' : csrRefuses s.dev s.env.unit c.toNat ((s.dev.tile s.env.unit).core.s a) = false := hr
  simp only [csrWrite, hr', Bool.false_eq_true, if_false]
  rfl

/-- CSRW of a value that the CSR refuses (R63). -/
theorem exec_csrw_refused {c : BitVec 12} (hr : csrRefuses s.dev s.env.unit c.toNat ((iter s).s a) = true) :
    exec (.csrw a c) s = .next (withDev s (enterTrap s.env s.dev s.env.unit .x pc 0x02 0 0 0 0)) := by
  refine xTry_trap (f := fun _ p dv => csrWrite p.t c.toNat ((dv.tile p.t).core.s a) dv) h ?_
  have hr' : csrRefuses s.dev s.env.unit c.toNat ((s.dev.tile s.env.unit).core.s a) = true := hr
  simp only [csrWrite, hr', if_true]

/-- CSRS gives the old value and writes it with the bits set (R126). -/
theorem exec_csrs {c : BitVec 12} {old : Dword} (ho : csrValue s.dev s.env.unit c.toNat = old)
    (hr : csrRefuses s.dev s.env.unit c.toNat (old ||| (iter s).s a) = false) :
    exec (.csrs d a c) s = .next (after s .x pc hand fun x => (csrPut c.toNat (old ||| (iter s).s a) x).setS d old) := by
  subst ho
  refine xTry_core h ?_
  have hr' : csrRefuses s.dev s.env.unit c.toNat (csrValue s.dev s.env.unit c.toNat ||| (s.dev.tile s.env.unit).core.s a) = false := hr
  simp only [csrWrite, hr', Res.bind, Bool.false_eq_true, if_false, Dev.onCore_onCore]
  rfl

/-- CSRC of a CSR marked read, clear gives the old value and clears the bits (R126). -/
theorem exec_csrc_clear {c : BitVec 12} {g : TCore → TCore} (hc : csrReadClear.contains c.toNat = true)
    (hg : ∀ y : Tile, csrClear c.toNat ((iter s).s a) y = { y with core := g y.core }) :
    exec (.csrc d a c) s = .next (after s .x pc hand fun x => (g x).setS d (csrValue s.dev s.env.unit c.toNat)) := by
  refine xTry_core (f := fun _ => csrcWord d a c.toNat) h ?_
  have ht : s.dev.onTile s.env.unit (csrClear c.toNat ((s.dev.tile s.env.unit).core.s a)) = s.dev.onCore s.env.unit g :=
    congrArg (s.dev.setTile s.env.unit) (hg _)
  simp only [csrcWord, hc, ht, Res.bind, if_true, Dev.onCore_onCore]

end

theorem iter_after_regs (s : State) (pc : Dword) (hand : Bool) (f : TCore → TCore) :
    (iter (after s .x pc hand f)).regs = (f (iter s)).regs := by
  rw [after, walked_regs, Dev.tile_onCore, if_pos rfl]; rfl

theorem iter_after_csr (s : State) (pc : Dword) (hand : Bool) (f : TCore → TCore) :
    (iter (after s .x pc hand f)).csr = (f (iter s)).csr := by
  rw [after, walked_csr, Dev.tile_onCore, if_pos rfl]; rfl

theorem csrWords : Claims.CsrWords := by
  intro s pc hand d a c h
  refine ⟨xTry_core h rfl, fun hlo hhi => ?_, fun hv => ?_, ?_, ?_⟩
  · refine ⟨_, exec_csrw h ?_, ?_, ?_⟩
    · simp [csrRefuses, hlo, hhi]
    · rw [iter_after_csr]
      show (((iter s).s a).setWidth 16).toNat = _
      rw [BitVec.toNat_setWidth, Nat.mod_eq_of_lt (by omega)]
    · rw [iter_after_regs]; rfl
  · exact exec_csrw_refused h (by simpa [csrRefuses] using hv)
  · refine ⟨_, exec_csrs h (old := (iter s).csr.tvec) rfl rfl, ?_, ?_⟩
    · rw [s_congr (iter_after_regs ..), s_setS_self]
    · rw [iter_after_csr, setS_csr]; rfl
  · refine ⟨_, exec_csrc_clear h (g := fun x => x.onCsr fun y => { y with vflags := y.vflags &&& ~~~ ((iter s).s a).setWidth 5 }) rfl
      fun y => rfl, ?_, ?_⟩
    · rw [s_congr (iter_after_regs ..), s_setS_self]; rfl
    · rw [iter_after_csr, setS_csr]; rfl

theorem waitForEvent : Claims.WaitForEvent := by
  intro s pc hand h
  refine ⟨fun hev => ?_, fun hev => ?_⟩
  · have hev' : (s.dev.tile s.env.unit).core.ev.isEmpty = false := List.isEmpty_eq_false_iff.mpr hev
    refine (run_own (d := s.dev) h (by decide) ?_).trans ?_
    · dsimp only; rw [hev']; rfl
    · rw [after, walked, walked, ← walkTo_onCore_id s.dev]
  · have hev' : (s.dev.tile s.env.unit).core.ev.isEmpty = true := List.isEmpty_iff.mpr hev
    refine xTry_wait h rfl ?_
    dsimp only; rw [hev', if_pos rfl]

/-- Settles O8: the CSR words by what a CSR takes and refuses (`exec_csrw`, `exec_csrs`, `exec_csrc_clear`), WFE by the event queue. -/
theorem eventAndCsrWords : Obligations.EventAndCsrWords := ⟨csrWords, waitForEvent⟩

end Sys2Proof.Machine

namespace Sys2Proof.Machine

open Sys2Proof.Safety

/-! ### Extended immediates -/

/-- The word behind an engine's, once it has been fetched and is no EXT word (R59). -/
theorem extFollows_no {env : Env} {d d1 : Dev} {a : At} {w : Word} (hf : fetchAt env d a.t a.e (a.pc + 4) = .ok w d1)
    (hw : w.extractLsb' 29 3 ≠ 5) : extFollows env d a = .ok false d1 := by
  have hext : isExt w = false := by
    rw [isExt, beq_eq_false_iff_ne]
    exact fun h => hw (BitVec.eq_of_toNat_eq h)
  rw [extFollows, hf, Res.bind, hext]

section
variable {s : State} {e : Eng} {pc : Dword} {hand : Bool} (h : Stands s e pc hand)
include h

/-- The step of an RI word with no EXT word behind it (R59, R91). -/
theorem run_ri {i : Instr} {op : RiOp} {d a : BitVec 5} {n : BitVec 12} {w : Word} {d1 : Dev}
    (hf : fetchAt s.env s.dev s.env.unit e (pc + 4) = .ok w d1) (hw : w.extractLsb' 29 3 ≠ 5) :
    s.run (riWord e i op d a n) = .next (walked s pc (d1.onCore s.env.unit (riApply op d a (imm0 n))) e hand (pc + 4) (.other e)) := by
  obtain ⟨rfl, hr⟩ := h
  have hx := extFollows_no (a := ⟨s.env.unit, s.env.eng, pc, hand⟩) hf hw
  simp only [State.run_eq, riWord, hr, hx, Res.bind, finish, if_true, Bool.false_eq_true, if_false]
  rfl

/-- The step of an EXT word whose effect is done. -/
theorem run_ext {x : BitVec 29} {next : Dword} {p : Prev} {d : Dev}
    (hf : extWord s.env x ⟨s.env.unit, e, pc, hand⟩ (Claims.found s e hand) = .ok (next, p) d) :
    exec (.extWord x) s = .next (walked s pc d e hand next p) := by
  obtain ⟨rfl, hr⟩ := h
  show s.run (extStep x) = _
  rw [← issued_eq_found s s.env.eng pc] at hf
  simp only [State.run_eq, extStep, hr, hf, finish]
  rfl

/-- The step of an EXT word that raises a user trap (R101). -/
theorem run_ext_trap {x : BitVec 29} {c : ℕ} {i0 i1 i2 i3 : Dword}
    (hf : extWord s.env x ⟨s.env.unit, e, pc, hand⟩ (Claims.found s e hand) = .trap c i0 i1 i2 i3) :
    exec (.extWord x) s = .next (withDev s (enterTrap s.env s.dev s.env.unit e pc c i0 i1 i2 i3)) := by
  obtain ⟨rfl, hr⟩ := h
  show s.run (extStep x) = _
  rw [← issued_eq_found s s.env.eng pc] at hf
  simp only [State.run_eq, extStep, hr, hf, finish]
  rfl

end

/-- SLTI compares with the immediate as it stands in the word (R116). -/
theorem riApply_slti (d a : BitVec 5) (n : BitVec 12) :
    riApply .slti d a (imm0 n) = fun c => c.setS d (if (c.s a).toInt < n.toInt then 1 else 0) := by
  funext c
  simp only [riApply, imm0, sx, BitVec.toInt_signExtend_of_le (show 12 ≤ 64 by decide), b2d, decide_eq_true_eq]

theorem immediateWords : Claims.ImmediateWords := by
  intro s pc hand d a n w d1
  constructor
  · intro i r hi h hf hw
    simp only [List.mem_cons, List.not_mem_nil, or_false, Prod.mk.injEq] at hi
    rcases hi with ⟨rfl, rfl⟩ | ⟨rfl, rfl⟩ | ⟨rfl, rfl⟩ | ⟨rfl, rfl⟩ | ⟨rfl, rfl⟩
    case inr.inr.inr.inr =>
      rw [← riApply_slti]; exact run_ri h hf hw
    all_goals exact run_ri h hf hw
  · intro i r hi h hf hw
    simp only [List.mem_cons, List.not_mem_nil, or_false, Prod.mk.injEq] at hi
    rcases hi with ⟨rfl, rfl⟩ | ⟨rfl, rfl⟩ <;> exact run_ri h hf hw

theorem ofInt_toInt_add (x y : Dword) : BitVec.ofInt 64 (x.toInt + y.toInt) = x + y := by
  rw [BitVec.ofInt_add, BitVec.ofInt_toInt, BitVec.ofInt_toInt]

/-- What an RI word does to the registers of its engine (R116, R133). -/
theorem riApply_eq {op : RiOp} {e : Eng} (he : e = if op = .aaddi ∨ op = .aandi then .a else .x) (d a : BitVec 5) (imm : Dword) :
    riApply op d a imm = fun c =>
      if e = .x then c.setS d (Claims.immResult op (c.s a) imm) else c.setA d (Claims.immResult op (c.a a) imm) := by
  subst he
  funext c
  cases op <;> simp [riApply, Claims.immResult, ofInt_toInt_add, b2d]

/-- The word an engine, or the handler, walked before, as the word of an engine finds it. -/
theorem prevOf_found (s : State) (e : Eng) (pc : Dword) (hand : Bool) : prevOf (Claims.found s e hand) ⟨s.env.unit, e, pc, hand⟩ =
    if hand then ((iter s).trap.hand.map fun h => h.prev).getD .none else ((iter s).engine e).prev := by
  simp only [prevOf, found_engine, found_trap]

theorem extendedImmediates : Claims.ExtendedImmediates := by
  intro s e own pc hand op d a n e1 e2 w d1 h prev set
  have hprev : prevOf (Claims.found s e hand) ⟨s.env.unit, e, pc, hand⟩ = prev := prevOf_found ..
  refine ⟨fun he hf hw => ?_, fun hp ho => ?_, fun hp => ?_⟩
  · have hx : extFollows s.env (Claims.found s e hand) ⟨s.env.unit, e, pc, hand⟩ = .ok false d1 := by
      rw [found_of (by rw [he]; split <;> decide)]; exact extFollows_no hf hw
    constructor
    · intro hp
      refine run_ext h ?_
      simp only [extWord, hprev, hp, hx, Res.bind, riApply_eq he, Bool.false_eq_true, if_false]
      rfl
    · intro hp h0
      have hmark : e1 ≠ BitVec.allOnes 29 := by rintro rfl; exact absurd h0 (by decide)
      refine run_ext h ?_
      simp only [extWord, hprev, hp, if_neg hmark, hx, Res.bind, riApply_eq he, Bool.false_eq_true, if_false]
      rfl
  · exact run_ext h (by simp only [extWord, hprev, hp, if_neg ho])
  · refine run_ext_trap h ?_
    rcases hp with hp | hp | hp
    · simp only [extWord, hprev, hp]; rfl
    · simp only [extWord, hprev, hp]; rfl
    · simp only [extWord, hprev, hp, if_true]; rfl

/-- Settles O2: the words with no EXT word behind them by `run_ri`, the EXT words by the word that the engine walked before them
(`prevOf_found`) and what the instruction computes (`riApply_eq`). -/
theorem immediateForms : Obligations.ImmediateForms := ⟨immediateWords, extendedImmediates⟩

end Sys2Proof.Machine

namespace Sys2Proof.Machine

open Sys2Proof.Safety

/-! ### An engine that may not walk its word -/

/-- What an attempt at a word is at an engine that may not walk: a wait with code 4 outside the slip window, and nothing at an engine
that is frozen, halted or stopped (R62). -/
def Idles (F : Env → Dev → Dev) : Prop :=
  ∀ env d, (ready d env.unit env.eng = .slip → F env d = setWait d ⟨env.unit, env.eng, 0, false⟩ { code := 4 }) ∧
    (ready d env.unit env.eng = .no → F env d = d)

theorem idles_engineWord {own : Eng} {i : Instr} {f : Env → At → Dev → Res Unit} {skip : Eng → TCore → TCore} :
    Idles fun env d => engineWord own i (f env) skip env d :=
  fun env d => ⟨fun h => by simp only [engineWord, h], fun h => by simp only [engineWord, h]⟩

theorem idles_controlWord {i : Instr} {f : At → Dev → Res Dword} : Idles (controlWord i f) :=
  fun env d => ⟨fun h => by simp only [controlWord, h], fun h => by simp only [controlWord, h]⟩

/-- A word that is one of these at an engine that may not walk is so too. -/
theorem Idles.of_eq {F G : Env → Dev → Dev} (hG : Idles G) (hslip : ∀ env d, ready d env.unit env.eng = .slip → F env d = G env d)
    (hno : ∀ env d, ready d env.unit env.eng = .no → F env d = d) : Idles F :=
  fun env d => ⟨fun h => (hslip env d h).trans ((hG env d).1 h), hno env d⟩

theorem idles_riWord {own : Eng} {i : Instr} {op : RiOp} {d a : BitVec 5} {n : BitVec 12} : Idles (riWord own i op d a n) :=
  idles_engineWord.of_eq (fun env d h => by simp only [riWord, h]; rfl) fun env d h => by simp only [riWord, h]

theorem idles_extStep {x : BitVec 29} : Idles (extStep x) :=
  idles_controlWord.of_eq (fun env d h => by simp only [extStep, h]; rfl) fun env d h => by simp only [extStep, h]

theorem idles_rgnStep : Idles rgnStep :=
  idles_controlWord.of_eq (fun env d h => by simp only [rgnStep, h]; rfl) fun env d h => by simp only [rgnStep, h]

theorem idles_trapStep {c : BitVec 12} : Idles (trapStep c) :=
  idles_engineWord.of_eq (fun env d h => by simp only [trapStep, h]; rfl) fun env d h => by simp only [trapStep, h]

theorem idles_reservedStep {w : Word} {k : BadWord} : Idles (reservedStep w k) := by
  unfold reservedStep
  cases tagOwner w with
  | none => exact idles_controlWord
  | some own => exact idles_engineWord

/-- The step of a special-function word (R181). -/
def sfuStep (i : Instr) (func : ℕ) (d a : VOp) (m : Bool) (env : Env) (dv : Dev) : Dev :=
  match ready dv env.unit env.eng with
  | .go pc hand =>
    if env.eng = .v && !hand && (dv.tile env.unit).core.sfuFull &&
        ((dv.tile env.unit).core.dirBad (some (class1 a.dir)) d.dir [a.dir]).isNone then
      setWait (issued dv ⟨env.unit, .v, pc, hand⟩) ⟨env.unit, .v, pc, hand⟩ { code := 0, detail := 8, tick := true }
    else engineWord .v i (sfuWord i func d a m) (fun _ c => c) env dv
  | .slip => engineWord .v i (sfuWord i func d a m) (fun _ c => c) env dv
  | .hold => engineWord .v i (sfuWord i func d a m) (fun _ c => c) env dv
  | .no => dv

theorem sfuTry_eq (i : Instr) (func : ℕ) (d a : VOp) (m : Bool) (s : State) : sfuTry i func d a m s = s.run (sfuStep i func d a m) := rfl

theorem idles_sfuStep {i : Instr} {func : ℕ} {d a : VOp} {m : Bool} : Idles (sfuStep i func d a m) :=
  idles_engineWord.of_eq (fun env d h => by simp only [sfuStep, h]; rfl) fun env d h => by simp only [sfuStep, h]

/-- Every word of program text is an attempt of that kind, whatever the state. -/
theorem exec_idles (i : Instr) (hi : i.isWord = true) : ∃ F, Idles F ∧ ∀ s, exec i s = s.run F := by
  cases i with
  | br | brc | loop | loopr | call | ret | tok | endw | brx => exact ⟨_, idles_controlWord, fun _ => rfl⟩
  | addi | andi | ori | xori | slti | aaddi | aandi => exact ⟨_, idles_riWord, fun _ => rfl⟩
  | vrcp | vrsqrt | vexp2 | vlog2 | vtanh => exact ⟨_, idles_sfuStep, fun _ => rfl⟩
  | rgn => exact ⟨_, idles_rgnStep, fun _ => rfl⟩
  | trap => exact ⟨_, idles_trapStep, fun _ => rfl⟩
  | extWord => exact ⟨_, idles_extStep, fun _ => rfl⟩
  | reservedWord => exact ⟨_, idles_reservedStep, fun _ => rfl⟩
  | nop | sel | lui | fcvtToInt | fcvtToFp | qstat | evpeek | evcnt | add | sub | mul | mulh | mulhu | div | divu | rem | remu | and
    | or | xor | andn | shl | shr | sar | rol | min | max | minu | maxu | slt | sltu | seq | sne | clz | ctz | popc | shli | shri
    | sari | fadd | fsub | fmul | ffma | fmin | fmax | fcmp | pop | push | evpop | launch | csrr | csrw | csrs | csrc | eret | wfe
    | anop | alui | ashli | mark | aadd | asub | amul | ashl | ashr | aand | amin | amax | aslt | ld | ldq | ldv | st | stq | stv
    | pref | amoadd | amoswap | amocas | amologic | amominmax | amofadd | flagwait | flaginc | flagset | flagread | bararm | barwait
    | copy | copy2d | gather | scatter | xfer | xferm | notify | mapinst | mapswap | mapret | mapq | rld | rst | rstf | ramo | tidset
    | tidinv | tidget | tlbinv | fencex | join | asidset | vunpark | vaddF | vsubF | vmulF | vfmaF | vfmsF | vminF | vmaxF | vaddB
    | vsubB | vmulB | vfmaB | vfmsB | vminB | vmaxB | vaddI | vsubI | vmulI | vminI | vmaxI | vand | vor | vxor | vshl | vshr | vsar
    | vabsF | vnegF | vmov | vcvtFi | vcvtIf | vcmpF | vcmpI | vredsum | vredmax | vbcast | vtrans | vsel | vshift | viota | vpop
    | vpush | vpushx | vunpE4 | vunpE5 | vunpI8 | vunpH | vunpQ4 | vpackE4 | vpackE5 | vpackI8 | vpackH | vpackB | vpark | kcnt
    | vshape | vcur | vrbset | kand | kor | knot | kmov | lease | lrel | mset | maddc | mpopc | mpush | mshape | rdrop | rwaitFree
    | rwaitSlot | cbound | cord | bdset | mnotify | mma | mmas | rclose | cstep | chain | cinit | cemit => exact ⟨_, idles_engineWord, fun _ => rfl⟩
  | _ => cases hi

/-! ### The slip window -/

/-- An engine is outside the slip window as against the trailing engine exactly where it is so as against some engine (R62). -/
theorem trailing_lt_iff (c : TCore) (w n : ℕ) : w + c.trailing < n ↔ ∃ g, w + (c.engine g).walk.toNat < n := by
  have hmin : c.trailing = min (min (min (min (c.engine .x).walk.toNat (c.engine .x).walk.toNat) (c.engine .a).walk.toNat)
      (c.engine .v).walk.toNat) (c.engine .m).walk.toNat := rfl
  constructor
  · intro h
    by_contra hno
    have hx := not_exists.mp hno .x
    have ha := not_exists.mp hno .a
    have hv := not_exists.mp hno .v
    have hm := not_exists.mp hno .m
    omega
  · rintro ⟨g, hg⟩
    cases g <;> omega

/-- No breakpoint is set where no debug register has been written (R363). -/
theorem bpMask_of_empty {y : Tile} (h : y.dbg = {}) (e : Eng) (pc : Dword) : bpMask y e pc = 0 := by
  have hits (k : ℕ) : bpHits y e pc k = false := by
    have hclear : (vget y.dbg.bpctl 0 k).getLsbD 63 = false := by
      rw [h, vget, Vector.getElem?_replicate]
      split <;> rfl
    simp only [bpHits, hclear, Bool.false_and]
  unfold bpMask
  split
  · rfl
  · simp [hits, b2n]

/-- Where neither a trap, a debug stop nor END holds an engine, the slip window alone decides whether it may walk (R62). -/
theorem ready_of_running {d : Dev} {t : ℕ} {e : Eng} (hrun : (d.tile t).running = true) (hsave : (d.tile t).saving = false)
    (hdbg : (d.tile t).dbg = {}) (htrap : (d.tile t).core.trap = {}) (hhalt : ((d.tile t).core.engine e).halted = false)
    (hstop : ((d.tile t).core.engine e).stopped = false) :
    ready d t e = if (d.tile t).core.csr.win.toNat + (d.tile t).core.trailing < ((d.tile t).core.engine e).walk.toNat + 1 then .slip
      else .go ((d.tile t).core.engine e).pc false := by
  have hholds : (d.tile t).dbg.holds e = false := by rw [hdbg]; rfl
  simp only [ready, hrun, hsave, htrap, hholds, hhalt, hstop, bpMask_of_empty hdbg, Bool.not_true, Bool.or_false, Bool.and_false,
    Bool.false_and, Bool.false_eq_true, if_false, bne_self_eq_false]

/-- An engine stopped at END may not walk (R113). -/
theorem ready_of_stopped {d : Dev} {t : ℕ} {e : Eng} (hstop : ((d.tile t).core.engine e).stopped = true)
    (hhand : (d.tile t).core.trap.hand = none) : ready d t e = .no := by
  simp only [ready, hhand, hstop, if_true, ite_self]

/-- Settles O60: the window by what `ready` comes to where nothing else holds an engine (`ready_of_running`), with the trailing engine
any of the four (`trailing_lt_iff`); the waits of every word by `exec_idles`. -/
theorem slipWindow : Obligations.SlipWindow := by
  intro s e i he hi
  subst he
  obtain ⟨F, hidle, hexec⟩ := exec_idles i hi
  obtain ⟨hslip, hno⟩ := hidle s.env s.dev
  refine ⟨fun hrun hsave hdbg htrap hhalt hstop => ?_, fun h => ?_, fun h => ?_, ready_of_stopped⟩
  · have hr := ready_of_running hrun hsave hdbg htrap hhalt hstop
    have hlt := trailing_lt_iff (iter s) (iter s).csr.win.toNat (((iter s).engine s.env.eng).walk.toNat + 1)
    rw [show ready s.dev s.env.unit s.env.eng = if (iter s).csr.win.toNat + (iter s).trailing < ((iter s).engine s.env.eng).walk.toNat + 1
      then .slip else .go ((iter s).engine s.env.eng).pc false from hr]
    by_cases hw : (iter s).csr.win.toNat + (iter s).trailing < ((iter s).engine s.env.eng).walk.toNat + 1
    · rw [if_pos hw]
      obtain ⟨g, hg⟩ := hlt.mp hw
      exact ⟨⟨nofun, fun hall => absurd (hall g) (not_le.mpr hg)⟩, ⟨fun _ => ⟨g, hg⟩, fun _ => rfl⟩⟩
    · rw [if_neg hw]
      exact ⟨⟨fun _ g => not_lt.mp fun hg => hw (hlt.mpr ⟨g, hg⟩), fun _ => rfl⟩, ⟨nofun, fun h => absurd (hlt.mpr h) hw⟩⟩
  · rw [hexec, State.run_eq, hslip h]; rfl
  · rw [hexec, State.run_eq, hno h]

end Sys2Proof.Machine

namespace Sys2Proof.Machine

open Sys2Proof.Safety

/-! ### Stepping over the words of another engine -/

/-- The step of a word of another engine, with what the tile notes of it (R58). -/
theorem run_other {s : State} {e own : Eng} {i : Instr} {f : Env → At → Dev → Res Unit} {skip : Eng → TCore → TCore} {pc : Dword}
    {hand : Bool} (h : Stands s e pc hand) (he : e ≠ own) : s.run (fun env d => engineWord own i (f env) skip env d) =
      .next (walked s pc ((Claims.found s e hand).onCore s.env.unit (skip e)) e hand (pc + 4) (.other own)) := by
  obtain ⟨rfl, hr⟩ := h
  rw [State.run_eq, engineWord_other he hr]; rfl

theorem walked_asidDue {s : State} {pc next : Dword} {d : Dev} {e : Eng} {p : Prev} {hand : Bool} :
    (iter (walked s pc d e hand next p)).asidDue = (d.tile s.env.unit).core.asidDue := by rw [iter_walked_eq]

/-- A tile whose iteration has just begun: every engine stands at address 0, and X walks. -/
def freshX : State :=
  { env := { eng := .x }
    dev := { tiles := ⟨[(0, { running := true, core := { csr := { win := 64 } } })]⟩ } }

theorem stands_freshX : Stands freshX .x 0 false := ⟨rfl, by decide⟩

/-- Refutes O59: an engine that steps over an ASIDSET that A has not executed yet does note it, in `asidDue`, so that it fetches nothing
under an ASID that is not known (R163); so it is of X at the first word of an iteration. -/
theorem not_skippedWords : ¬ Obligations.SkippedWords := by
  intro hall
  have hclaim := (hall freshX (.asidset 0) 0x32400000 .x .a 0 false stands_freshX (by decide) (by decide) (by decide)).1 (.inl (by decide))
  have hmodel : exec (.asidset 0) freshX = _ := run_other stands_freshX (by decide)
  have hnoted := congrArg (fun s => (iter s).asidDue) (Host.Outcome.next.inj (hmodel.symm.trans hclaim))
  simp only [walked_asidDue] at hnoted
  exact absurd hnoted (by decide)

end Sys2Proof.Machine

namespace Sys2Proof.Machine

open Sys2Proof.Safety

/-! ### Taking a user trap -/

/-- What the trap registers and the trap state become (R315, R316): within a handler they keep the first trap; else they hold this one, and
X goes on at TVEC unless that is 0. -/
def TCore.trapTo (c : TCore) (e : Eng) (pc : Dword) (code : ℕ) (i0 i1 i2 i3 : Dword) : TrapSt :=
  let held : TrapSt := { c.trap with cause := dw code, pc := pc, eng := dw e.idx.val, info0 := i0, info1 := i1, info2 := i2, info3 := i3 }
  if c.trap.hand.isSome then { c.trap with undel := true }
  else if c.csr.tvec = 0 then { held with undel := true } else { held with hand := some { pc := c.csr.tvec } }

/-- A trace record leaves every iteration as it is (R364). -/
theorem trace_core (env : Env) (d : Dev) (t kind : ℕ) (e : Eng) (pc : Dword) (cause u : ℕ) :
    ((trace env d t kind e pc cause).tile u).core = (d.tile u).core := by
  unfold trace; dsimp only
  split
  · exact settle_quiet (quiet_core u) (ringPost_quiet (quiet_core u) ..) fun _ _ => rfl
  · rfl

theorem trace_off {env : Env} {d : Dev} {t kind : ℕ} {e : Eng} {pc : Dword} {cause : ℕ} (h : (d.tile t).core.csr.profctl = 0) :
    trace env d t kind e pc cause = d := by
  have hoff : (d.tile t).core.csr.profctl.getLsbD 2 = false := by rw [h]; rfl
  simp only [trace, hoff, Bool.false_and, Bool.false_eq_true, if_false]

/-- The end of a turn changes of the iteration LEASESTAT.ENDC alone (R201). -/
theorem endTurn_core (d : Dev) (t : ℕ) (why : BitVec 4) :
    ((endTurn d t why).tile t).core = { (d.tile t).core with lease := ((endTurn d t why).tile t).core.lease } := by
  unfold endTurn; dsimp only
  split
  · rw [Dev.tile_onCore, if_pos rfl]; rfl
  · rfl

theorem endTurn_mem (d : Dev) (t : ℕ) (why : BitVec 4) : (endTurn d t why).mem = d.mem := by
  unfold endTurn; dsimp only
  split <;> rfl

section
variable (env : Env) (d : Dev) (t : ℕ) (e : Eng) (pc : Dword) (code : ℕ) (i0 i1 i2 i3 : Dword)

/-- What a user trap leaves of the iteration: no engine waits any more, the trap state is that of R315 and R316, and the lease may have
ended. -/
theorem enterTrap_core : ((enterTrap env d t e pc code i0 i1 i2 i3).tile t).core = { (d.tile t).core.abandon with
    lease := ((enterTrap env d t e pc code i0 i1 i2 i3).tile t).core.lease, trap := (d.tile t).core.trapTo e pc code i0 i1 i2 i3 } := by
  have hturn := endTurn_core (dropWaiter d t) t 5
  rw [show (dropWaiter d t).tile t = d.tile t from rfl] at hturn
  have hpost (x : Dev) (fq : BitVec 55) (r : FRec) : ((postFault env x fq r).tile t).core = (x.tile t).core :=
    postFault_quiet (quiet_core t) env x fq r
  unfold enterTrap TCore.trapTo; dsimp only
  split
  · rw [hpost]; simp only [Dev.tile_onCore, Dev.tile_onTile, if_true]; rw [hturn]; rfl
  · split
    · rw [hpost, trace_core]; simp only [Dev.tile_onCore, Dev.tile_onTile, if_true]; rw [hturn]; rfl
    · rw [trace_core]; simp only [Dev.tile_onCore, Dev.tile_onTile, if_true]; rw [hturn]; rfl

/-- A user trap with a handler writes no memory, but for a trace record (R315, R364). -/
theorem enterTrap_mem (hhand : (d.tile t).core.trap.hand = none) (htvec : (d.tile t).core.csr.tvec ≠ 0)
    (hprof : (d.tile t).core.csr.profctl = 0) : (enterTrap env d t e pc code i0 i1 i2 i3).mem = d.mem := by
  have hturn := endTurn_core (dropWaiter d t) t 5
  rw [show (dropWaiter d t).tile t = d.tile t from rfl] at hturn
  have hnone : ¬ (d.tile t).core.trap.hand.isSome = true := by rw [hhand]; decide
  unfold enterTrap; dsimp only
  rw [if_neg hnone, if_neg htvec, trace_off]
  · exact endTurn_mem ..
  · simp only [Dev.tile_onCore, Dev.tile_onTile, if_true]; rw [hturn]; exact hprof

end

/-- A tile with an undeliverable trap stays frozen (R316). -/
theorem ready_of_undel {d : Dev} {t : ℕ} (h : (d.tile t).core.trap.undel = true) (g : Eng) : ready d t g = .no := by
  simp only [ready, h, Bool.or_true, Bool.true_or, if_true]

/-- An engine that walks outside a handler walks while none runs (R114). -/
theorem hand_none_of_ready {d : Dev} {t : ℕ} {e : Eng} {pc : Dword} (h : ready d t e = .go pc false) : (d.tile t).core.trap.hand = none := by
  unfold ready at h; dsimp only at h
  split at h
  · cases h
  · split at h
    · split at h
      · split at h <;> cases h
      · cases h
    · assumption

theorem abandon_engine (c : TCore) (g : Eng) : c.abandon.engine g = { c.engine g with wait := none } := by
  rw [TCore.abandon, TCore.engine, TCore.engine, Vector.getElem_map]

/-- Where TVEC is not 0 and no handler runs, a user trap is delivered (R315). -/
theorem enterTrap_delivered {env : Env} {d : Dev} {t : ℕ} {e : Eng} {pc : Dword} {code : ℕ} {i0 i1 : Dword}
    (hhand : (d.tile t).core.trap.hand = none) (htvec : (d.tile t).core.csr.tvec ≠ 0) :
    Claims.Trapped (d.tile t).core ((enterTrap env d t e pc code i0 i1 0 0).tile t).core e pc code i0 ∧
      ((enterTrap env d t e pc code i0 i1 0 0).tile t).core.trap.info1 = i1 := by
  have hnone : ¬ (d.tile t).core.trap.hand.isSome = true := by rw [hhand]; decide
  have htrap : (d.tile t).core.trapTo e pc code i0 i1 0 0 = { (d.tile t).core.trap with
      cause := dw code, pc := pc, eng := dw e.idx.val, info0 := i0, info1 := i1, info2 := 0, info3 := 0
      hand := some { pc := (d.tile t).core.csr.tvec } } := by
    rw [TCore.trapTo, if_neg hnone, if_neg htvec]
  rw [enterTrap_core, htrap]
  exact ⟨⟨rfl, rfl, rfl, rfl, rfl, rfl, rfl, rfl, rfl, rfl, rfl, rfl, fun g => abandon_engine _ g⟩, rfl⟩

/-- An undeliverable trap with TVEC 0 leaves the trap registers with it (R316). -/
theorem trapTo_tvec0 {c : TCore} (htvec : c.csr.tvec = 0) (hhand : c.trap.hand = none) (e : Eng) (pc : Dword) (code : ℕ) (i0 i1 i2 i3 : Dword) :
    c.trapTo e pc code i0 i1 i2 i3 = { c.trap with
      cause := dw code, pc := pc, eng := dw e.idx.val, info0 := i0, info1 := i1, info2 := i2, info3 := i3, undel := true } := by
  have hnone : ¬ c.trap.hand.isSome = true := by rw [hhand]; decide
  rw [TCore.trapTo, if_neg hnone, if_pos htvec]

/-- The trap state after a user trap (R315, R316). -/
theorem enterTrap_trap (env : Env) (d : Dev) (t : ℕ) (e : Eng) (pc : Dword) (code : ℕ) (i0 i1 i2 i3 : Dword) :
    ((enterTrap env d t e pc code i0 i1 i2 i3).tile t).core.trap = (d.tile t).core.trapTo e pc code i0 i1 i2 i3 := by rw [enterTrap_core]

/-- A reserved word raises ILLEGAL_WORD on the engine that reaches it, when its TAG names that engine or none (R60, R101). -/
theorem exec_reservedWord {s : State} {e : Eng} {pc : Dword} {hand : Bool} {w : Word} (k : BadWord) (h : Stands s e pc hand)
    (hown : tagOwner w = none ∨ tagOwner w = some e) : exec (.reservedWord w k) s =
      .next (withDev s (enterTrap s.env s.dev s.env.unit e pc 0x01 (w.setWidth 64) (BitVec.ofNat 64 (badCode k)) 0 0)) := by
  show s.run (reservedStep w k) = _
  rcases hown with hown | hown
  · rw [show reservedStep w k = controlWord (.reservedWord w k) fun _ _ => illegal w (badCode k) by
      funext env d; rw [reservedStep, hown]]
    exact run_control_trap h rfl
  · rw [show reservedStep w k = fun env d => engineWord e (.reservedWord w k) (fun _ _ => illegal w (badCode k)) (fun _ c => c) env d by
      funext env d; rw [reservedStep, hown]]
    exact run_own_trap (f := fun _ _ _ => illegal w (badCode k)) h rfl

/-- The words whose TAG names no engine, or an engine (R58). -/
theorem tagOwner_of {w : Word} {e : Eng} (h : w.extractLsb' 29 3 = 6 ∨ w.extractLsb' 29 3 = 7 ∨ w.extractLsb' 29 3 = 4 ∨
    (w.extractLsb' 29 3).toNat = e.idx.val) : tagOwner w = none ∨ tagOwner w = some e := by
  unfold tagOwner
  rcases h with h | h | h | h
  · rw [h]; exact .inl rfl
  · rw [h]; exact .inl rfl
  · rw [h]; exact .inl rfl
  · rw [h]; right; cases e <;> rfl

/-- The TRAP word at X: it is walked, then SOFTWARE is taken at its address (R128). -/
theorem exec_trapWord {s : State} {pc : Dword} {hand : Bool} {n : BitVec 12} (h : Stands s .x pc hand) : exec (.trap n) s =
    .next (withDev s (enterTrap s.env (walked s pc s.dev .x hand (pc + 4) (.other .x)).dev s.env.unit .x pc 0x0C (n.setWidth 64) 0 0 0)) := by
  obtain ⟨he, hr⟩ := h
  rw [← he] at hr
  show s.run (trapStep n) = _
  rw [State.run_eq, trapStep, hr]
  dsimp only
  rw [if_pos he, he, issued_of (show Eng.x ≠ .v by decide)]
  rfl

theorem reservedWords : Claims.ReservedWords := by
  intro s e pc w k h htvec hprof htag
  have hhand := hand_none_of_ready h.2
  obtain ⟨htrapped, hinfo⟩ := enterTrap_delivered (env := s.env) (e := e) (pc := pc) (code := 0x01) (i0 := w.setWidth 64)
    (i1 := BitVec.ofNat 64 (badCode k)) hhand htvec
  refine ⟨_, exec_reservedWord k h (tagOwner_of htag), fun a => ?_, htrapped, hinfo.trans (by cases k <;> rfl)⟩
  rw [withDev, enterTrap_mem _ _ _ _ _ _ _ _ _ _ hhand htvec hprof]

theorem undeliverableTrap : Claims.UndeliverableTrap := by
  intro s e pc code i0 i1 i2 i3 n w k hd frozen holds t
  have hfrozen (d : Dev) (c : ℕ) (e : Eng) (j0 j1 j2 j3 : Dword)
      (hu : ((d.tile s.env.unit).core.trapTo e pc c j0 j1 j2 j3).undel = true) :
      frozen (withDev s (enterTrap s.env d s.env.unit e pc c j0 j1 j2 j3)) := by
    have hundel : ((enterTrap s.env d s.env.unit e pc c j0 j1 j2 j3).tile s.env.unit).core.trap.undel = true := by
      rw [enterTrap_trap]; exact hu
    exact ⟨hundel, ready_of_undel hundel⟩
  have hholds (d : Dev) (c : ℕ) (e : Eng) (j0 j1 j2 j3 : Dword) (htvec : (d.tile s.env.unit).core.csr.tvec = 0)
      (hhand : (d.tile s.env.unit).core.trap.hand = none) :
      holds (withDev s (enterTrap s.env d s.env.unit e pc c j0 j1 j2 j3)) e c j0 := by
    have htrap := (enterTrap_trap s.env d s.env.unit e pc c j0 j1 j2 j3).trans (trapTo_tvec0 htvec hhand ..)
    refine ⟨hfrozen _ _ _ _ _ _ _ (by rw [trapTo_tvec0 htvec hhand]), ?_, ?_, ?_, ?_, ?_⟩
    · exact (congrArg TrapSt.hand htrap).trans hhand
    · exact congrArg TrapSt.cause htrap
    · exact congrArg TrapSt.pc htrap
    · exact congrArg TrapSt.eng htrap
    · exact congrArg TrapSt.info0 htrap
  refine ⟨fun htvec hhand => ⟨hholds _ _ _ _ _ _ _ htvec hhand, ?_⟩, fun hhand => ?_, fun htvec h => ?_, fun htvec h htag => ?_⟩
  · have htrap := (enterTrap_trap s.env s.dev s.env.unit e pc code i0 i1 i2 i3).trans (trapTo_tvec0 htvec hhand ..)
    exact ⟨congrArg TrapSt.info1 htrap, congrArg TrapSt.info2 htrap, congrArg TrapSt.info3 htrap⟩
  · have htrapTo : (iter s).trapTo e pc code i0 i1 i2 i3 = { (iter s).trap with undel := true } := by
      rw [TCore.trapTo, if_pos (by rw [hhand]; rfl)]
    exact ⟨hfrozen _ _ _ _ _ _ _ (congrArg TrapSt.undel htrapTo), (enterTrap_trap ..).trans htrapTo⟩
  · have hcsr : (iter (walked s pc s.dev .x false (pc + 4) (.other .x))).csr = (iter s).csr := walked_csr
    have htrap : (iter (walked s pc s.dev .x false (pc + 4) (.other .x))).trap = (iter s).trap := by rw [iter_walked]; rfl
    exact ⟨_, exec_trapWord h, hholds _ _ _ _ _ _ _ ((congrArg Csrs.tvec hcsr).trans htvec)
      ((congrArg TrapSt.hand htrap).trans (hand_none_of_ready h.2))⟩
  · exact ⟨_, exec_reservedWord k h (tagOwner_of htag), hholds _ _ _ _ _ _ _ htvec (hand_none_of_ready h.2)⟩

/-- Settles O22: a word that does not decode traps (`exec_reservedWord`), and a user trap is delivered (`enterTrap_delivered`) or leaves the
tile frozen, by what it makes of the trap state (`enterTrap_trap`). -/
theorem trapsOfReservedWords : Obligations.TrapsOfReservedWords := ⟨reservedWords, undeliverableTrap⟩

end Sys2Proof.Machine

namespace Sys2Proof.Machine

open Sys2Proof.Safety

/-! ### RGN -/

/-- A tile with no special-function result pending finds nothing changed by an issue cycle (R176). -/
theorem issueTick_idle {c : TCore} (h : c.sfu = Vector.replicate 8 none) : issueTick c = c := by
  rw [issueTick, h, if_pos (by decide)]

theorem found_core_idle {s : State} (h : (iter s).sfu = Vector.replicate 8 none) (e : Eng) (hand : Bool) :
    ((Claims.found s e hand).tile s.env.unit).core = iter s := by
  rw [found_tile_core, issueTick_idle h, ite_self]

theorem found_dbg (s : State) (e : Eng) (hand : Bool) : ((Claims.found s e hand).tile s.env.unit).dbg = (unitTile s).dbg := by
  unfold Claims.found
  split
  · rw [Dev.tile_onCore, if_pos rfl]; rfl
  · rfl

/-- An engine that may walk is held by no debug stop (R360). -/
theorem not_holds_of_ready {d : Dev} {t : ℕ} {e : Eng} {pc : Dword} {hand : Bool} (h : ready d t e = .go pc hand) :
    (d.tile t).dbg.holds e = false := by
  rw [← Bool.not_eq_true]
  intro hholds
  simp only [ready, hholds, Bool.or_true, Bool.true_or, if_true] at h
  cases h

/-- What an engine is behind a word that it walked at `next` (R57). -/
def Engine.walkedTo (next : Dword) (p : Prev) (g : Engine) : Engine := { g with pc := next, walk := g.walk + 1, wait := none, prev := p }

section
variable (t : ℕ) (pc next : Dword) (p : Prev)

/-- Engines of a tile that walk a word together. -/
def walkEach (gs : List Eng) (d : Dev) : Dev := gs.foldl (fun d g => walkTo d ⟨t, g, pc, false⟩ next p) d

theorem walkEach_mem (gs : List Eng) (d : Dev) : (walkEach t pc next p gs d).mem = d.mem := by
  induction gs generalizing d with
  | nil => rfl
  | cons g gs ih => exact (ih _).trans (walkTo_mem ..)

theorem walkEach_regs (gs : List Eng) (d : Dev) : ((walkEach t pc next p gs d).tile t).core.regs = (d.tile t).core.regs := by
  induction gs generalizing d with
  | nil => rfl
  | cons g gs ih => exact (ih _).trans (walkTo_regs d ⟨t, g, pc, false⟩ next p)

theorem walkTo_engine (d : Dev) (e g : Eng) : ((walkTo d ⟨t, e, pc, false⟩ next p).tile t).core.engine g =
    if g = e then ((d.tile t).core.engine g).walkedTo next p else (d.tile t).core.engine g := by
  have hwalk : ((walkTo d ⟨t, e, pc, false⟩ next p).tile t).core.engine g =
      ((d.tile t).core.onEng e (Engine.walkedTo next p)).engine g := by
    rw [show ((walkTo d ⟨t, e, pc, false⟩ next p).tile t).core = _ from walkTo_core d ⟨t, e, pc, false⟩ next p rfl]; rfl
  rw [hwalk, engine_onEng]
  split
  · next h => rw [h]
  · rfl

/-- Each of them has walked it once; the others stand as before. -/
theorem walkEach_engine {gs : List Eng} (hgs : gs.Nodup) (d : Dev) (g : Eng) : ((walkEach t pc next p gs d).tile t).core.engine g =
    if g ∈ gs then ((d.tile t).core.engine g).walkedTo next p else (d.tile t).core.engine g := by
  induction gs generalizing d with
  | nil => rfl
  | cons h gs ih =>
    obtain ⟨hh, hgs⟩ := List.nodup_cons.mp hgs
    refine (ih hgs _).trans ?_
    rw [walkTo_engine]
    by_cases hg : g = h
    · subst hg; simp [hh]
    · simp [hg]

end

theorem mem_others {e g : Eng} : g ∈ others e ↔ g ≠ e := by
  cases g <;> cases e <;> decide

/-- All four engines wait at the region entry, with no result pending (R72). -/
theorem allAtRgn {c : TCore} {e : Eng} (hg : ∀ g, g ≠ e → (c.engine g).walk = (c.engine e).walk ∧ ∃ w, (c.engine g).wait = some w ∧ w.code = 7) :
    (others e).all (atRgn c (c.engine e).walk) = true := by
  rw [List.all_eq_true]
  intro g h
  obtain ⟨hwalk, w, hw, hcode⟩ := hg g (mem_others.mp h)
  simp only [atRgn, hwalk, hw, hcode, beq_self_eq_true, Bool.and_self]

theorem sfuBusy_idle {c : TCore} (h : c.sfu = Vector.replicate 8 none) : c.sfuBusy = false := by
  rw [TCore.sfuBusy, h]; decide

theorem recordRgn_engine (pc : Dword) (c : TCore) (g : Eng) : (recordRgn pc c).engine g =
    { c.engine g with rgnPc := pc, rgnWalk := (c.engine g).walk, rgnRet := (c.engine g).ret } := by
  rw [recordRgn, TCore.engine, TCore.engine, Vector.getElem_map]

/-- Nothing stands in the way of a region entry where every queue is empty and every counter 0 (R72). -/
theorem rgnBad_none {c : TCore} (hq : c.q = {}) (htok : c.tok = Vector.replicate 16 0) (houts : ∀ g, (c.engine g).outs = []) : rgnBad c = none := by
  have hqueue : ((List.range 8).find? fun q => c.qlen q != 0) = none := by
    rw [List.find?_eq_none]
    intro q hlt
    have hlen : c.qlen q = 0 := by unfold TCore.qlen; rw [hq]; split <;> rfl
    simp [hlen]
  have hcount : ((List.range 16).find? fun k => vget c.tok 0 k != 0) = none := by rw [htok]; decide
  have hout : (Eng.all.any fun e => !(c.engine e).outs.isEmpty) = false := by
    rw [List.any_eq_false]
    intro g _
    simp [houts g]
  simp only [rgnBad, hqueue, hcount, hout, Bool.false_eq_true, if_false]

/-- The lowest-numbered queue is q.ax (R69, R73). -/
theorem rgnBad_ax {c : TCore} (h : c.q.ax ≠ []) : rgnBad c = some (.x, 0) := by
  have hlen : (c.qlen 0 != 0) = true := bne_iff_ne.mpr fun h0 => h (List.length_eq_zero_iff.mp h0)
  have hfind : ((List.range 8).find? fun q => c.qlen q != 0) = some 0 := List.find?_cons_of_pos hlen
  rw [rgnBad, hfind]; rfl

section
variable {s : State} {e : Eng} {pc : Dword} (h : Stands s e pc false) (hsfu : (iter s).sfu = Vector.replicate 8 none)
  (hg : ∀ g, g ≠ e → ((iter s).engine g).walk = ((iter s).engine e).walk ∧ ∃ w, ((iter s).engine g).wait = some w ∧ w.code = 7)
include h hsfu hg

/-- RGN at the last engine to reach it does what its check says (R72). -/
theorem rgnWord_last : rgnWord s.env ⟨s.env.unit, e, pc, false⟩ (Claims.found s e false) = match rgnBad (iter s) with
    | some b => .ok (.inr b) (Claims.found s e false)
    | none => .ok (.inl (pc + 4)) (walkEach s.env.unit pc (pc + 4) .c (others e) ((Claims.found s e false).onCore s.env.unit (recordRgn pc))) := by
  have hall := allAtRgn hg
  have hholds : (unitTile s).dbg.holds e = false := not_holds_of_ready h.2
  unfold rgnWord
  simp only [found_core_idle hsfu, found_dbg, hall, sfuBusy_idle hsfu, hholds, Bool.not_false, Bool.and_self, Bool.false_eq_true, if_false, if_true]
  rfl

/-- All four engines go on at the next word, with their region entries recorded (R72). -/
theorem exec_rgn_enters (hbad : rgnBad (iter s) = none) : exec .rgn s = .next (walked s pc
    (walkEach s.env.unit pc (pc + 4) .c (others e) ((Claims.found s e false).onCore s.env.unit (recordRgn pc))) e false (pc + 4) .c) := by
  have hword := rgnWord_last h hsfu hg
  rw [hbad] at hword
  obtain ⟨rfl, hr⟩ := h
  rw [← issued_eq_found s s.env.eng pc] at hword
  show s.run rgnStep = _
  simp only [State.run_eq, rgnStep, hr, hword, finish]
  rfl

/-- The tile traps QUEUE_PROTOCOL at the engine that R73 names. -/
theorem exec_rgn_traps {g : Eng} {n : ℕ} (hbad : rgnBad (iter s) = some (g, n)) :
    exec .rgn s = .next (withDev s (enterTrap s.env s.dev s.env.unit g pc 0x07 (dw n) 0 0 0)) := by
  have hword := rgnWord_last h hsfu hg
  rw [hbad] at hword
  obtain ⟨rfl, hr⟩ := h
  rw [← issued_eq_found s s.env.eng pc] at hword
  show s.run rgnStep = _
  simp only [State.run_eq, rgnStep, hr, hword]
  rfl

end

theorem others_nodup (e : Eng) : (others e).Nodup := by cases e <;> decide

theorem regionEntry : Claims.RegionEntry := by
  intro s e pc h hsfu hg
  refine ⟨fun hq htok houts => ?_, fun hax => exec_rgn_traps h hsfu hg (rgnBad_ax hax)⟩
  refine ⟨_, exec_rgn_enters h hsfu hg (rgnBad_none hq htok houts), walked_memSame ?_, ?_, fun g => ?_⟩
  · exact (walkEach_mem ..).trans (found_mem ..)
  · rw [walked_regs, walkEach_regs, Dev.tile_onCore, if_pos rfl, found_core_idle hsfu]; rfl
  · have heng (g : Eng) : (iter (walked s pc (walkEach s.env.unit pc (pc + 4) .c (others e) ((Claims.found s e false).onCore s.env.unit (recordRgn pc)))
        e false (pc + 4) .c)).engine g = ((recordRgn pc (iter s)).engine g).walkedTo (pc + 4) .c := by
      refine (walkTo_engine ..).trans ?_
      rw [walkEach_engine _ _ _ _ (others_nodup e), Dev.tile_onCore, if_pos rfl, found_core_idle hsfu]
      by_cases hge : g = e
      · rw [if_pos hge, if_neg fun hm => mem_others.mp hm hge]
      · rw [if_neg hge, if_pos (mem_others.mpr hge)]
    rw [heng, recordRgn_engine]
    exact ⟨rfl, rfl, rfl, rfl, rfl⟩

end Sys2Proof.Machine

namespace Sys2Proof.Machine

open Sys2Proof.Safety

/-! ### END -/

/-- An engine has stopped at an END word: it has walked it and stands at it, and the other three stand as they did (R113). -/
def EndStops (s : State) (e : Eng) (pc : Dword) (t : State) : Prop :=
  MemSame s t ∧ (iter t).regs = (iter s).regs ∧ (iter t).q = (iter s).q ∧ ((iter t).engine e).stopped = true ∧
  ((iter t).engine e).pc = pc ∧ ((iter t).engine e).walk = ((iter s).engine e).walk + 1 ∧
  ∀ g, g ≠ e → (iter t).engine g = (iter s).engine g

/-- The state in which an engine has stopped at END, with what it leaves behind it. -/
def stoppedAt (s : State) (e : Eng) (pc : Dword) (d : Dev) : State :=
  walked s pc (onEngine d ⟨s.env.unit, e, pc, false⟩ fun g => { g with stopped := true }) e false pc .c

section
variable {s : State} {e : Eng} {pc : Dword} {d : Dev}

theorem onEngine_core {a : At} {f : Engine → Engine} : ((onEngine d a f).tile a.t).core = (d.tile a.t).core.onEng a.e f := by
  rw [onEngine, Dev.tile_onCore, if_pos rfl]

/-- What an engine leaves behind at END touches neither memory nor registers, queues or engines. -/
theorem endStops_stoppedAt (hmem : d.mem = s.dev.mem) (hregs : (d.tile s.env.unit).core.regs = (iter s).regs)
    (hq : (d.tile s.env.unit).core.q = (iter s).q) (heng : (d.tile s.env.unit).core.eng = (iter s).eng) :
    EndStops s e pc (stoppedAt s e pc d) := by
  have hcore : ((onEngine d ⟨s.env.unit, e, pc, false⟩ fun g => { g with stopped := true }).tile s.env.unit).core = _ := onEngine_core
  have hengine (g : Eng) : (d.tile s.env.unit).core.engine g = (iter s).engine g := by rw [TCore.engine, heng]; rfl
  refine ⟨walked_memSame hmem, ?_, ?_, ?_, ?_, ?_, fun g hg => ?_⟩
  · rw [stoppedAt, walked_regs, hcore]; exact hregs
  · rw [stoppedAt, walked_q, hcore]; exact hq
  · rw [stoppedAt, walked_engine, if_pos rfl, hcore, engine_onEng, if_pos rfl]
  · rw [stoppedAt, walked_engine, if_pos rfl]
  · rw [stoppedAt, walked_engine, if_pos rfl, hcore, engine_onEng, if_pos rfl, hengine]
  · rw [stoppedAt, walked_engine, if_neg hg, hcore, engine_onEng, if_neg hg, hengine]

/-- Of its tile, the engine that has stopped changes the iteration and the debug registers alone. -/
theorem stoppedAt_tile : (stoppedAt s e pc d).dev.tile s.env.unit = { d.tile s.env.unit with
    core := iter (stoppedAt s e pc d), dbg := ((stoppedAt s e pc d).dev.tile s.env.unit).dbg } := by
  have htile : (stoppedAt s e pc d).dev.tile s.env.unit = _ := walkTo_tile _ ⟨s.env.unit, e, pc, false⟩ pc .c
  rw [htile, onEngine, Dev.tile_onCore, if_pos rfl]
  rfl

theorem stoppedAt_lease : (iter (stoppedAt s e pc d)).lease = (d.tile s.env.unit).core.lease := by
  rw [stoppedAt, walked_lease, onEngine, Dev.tile_onCore, if_pos rfl]; rfl

theorem stoppedAt_cluster (c : ℕ) : (stoppedAt s e pc d).dev.cluster c = d.cluster c := walked_cluster ..

variable (h : Stands s e pc false)
include h

theorem exec_endw_stops (hf : endWord ⟨s.env.unit, e, pc, false⟩ (Claims.found s e false) =
    .ok pc (onEngine d ⟨s.env.unit, e, pc, false⟩ fun g => { g with stopped := true })) : exec .endw s = .next (stoppedAt s e pc d) :=
  run_control h hf

end

section
variable {s : State} {pc : Dword}

/-- X stops at once (R113). -/
theorem endw_x (h : Stands s .x pc false) : ∃ t, exec .endw s = .next t ∧ EndStops s .x pc t :=
  ⟨_, exec_endw_stops h (by rw [found_of (by decide)]; rfl), endStops_stoppedAt (d := s.dev) rfl rfl rfl rfl⟩

/-- V stops with no result pending (R113). -/
theorem endw_v (h : Stands s .v pc false) (hsfu : (iter s).sfu = Vector.replicate 8 none) :
    ∃ t, exec .endw s = .next t ∧ EndStops s .v pc t := by
  have hcore := found_core_idle hsfu .v false
  refine ⟨_, exec_endw_stops (d := Claims.found s .v false) h ?_, endStops_stoppedAt (found_mem ..) ?_ ?_ ?_⟩
  · simp only [endWord, hcore, sfuBusy_idle hsfu, Bool.false_eq_true, if_false]
  · rw [hcore]
  · rw [hcore]
  · rw [hcore]

/-- It waits, in an issue cycle, while one is (R113, R177). -/
theorem endw_v_waits (h : Stands s .v pc false) (hbusy : (issueTick (iter s)).sfuBusy = true) :
    exec .endw s = .next (withDev s (setWait (Claims.found s .v false) ⟨s.env.unit, .v, pc, false⟩ { code := 0, tick := true })) := by
  have hcore := found_tile_core s .v false
  rw [if_pos (by decide)] at hcore
  exact run_control_wait_tick h rfl (by simp only [endWord, hcore, hbusy, Bool.false_eq_true, if_false, if_true])

end

/-! #### The implicit notifies of A -/

/-- An implicit notify for an iteration at the end of a queue or of a network queue (R113). -/
def placeImplicit (c : TCore) (q : BitVec 5) (y : Tile) : Tile :=
  if q.toNat ≤ 5 then
    { y with aq := vset y.aq q.toNat (vget y.aq [] q.toNat ++
        [{ kind := .implicit, serial := c.iter.serial, node := c.iter.node, walk := (c.engine .a).walk, vf := c.csr.vfid }]) }
  else
    { y with nq := vset y.nq (q.toNat - 8) (vget y.nq [] (q.toNat - 8) ++
        [{ isNotify := true, isImplicit := true, serial := c.iter.serial, node := c.iter.node, walk := (c.engine .a).walk }]) }

/-- One for each queue named. -/
def placeImplicits (c : TCore) (l : List (BitVec 5)) (y : Tile) : Tile := l.foldl (fun y q => placeImplicit c q y) y

theorem foldl_onTile {α : Type} (t : ℕ) (f : α → Tile → Tile) (l : List α) (d : Dev) :
    (l.foldl (fun d x => d.onTile t (f x)) d).tile t = l.foldl (fun y x => f x y) (d.tile t) ∧
      (l.foldl (fun d x => d.onTile t (f x)) d).mem = d.mem := by
  induction l generalizing d with
  | nil => exact ⟨rfl, rfl⟩
  | cons x l ih =>
    obtain ⟨htile, hmem⟩ := ih (d.onTile t (f x))
    rw [Dev.tile_onTile, if_pos rfl] at htile
    exact ⟨htile, hmem⟩

theorem implicitNotifies_tile (t : ℕ) (d : Dev) : (implicitNotifies t d).tile t = placeImplicits (d.tile t).core (d.tile t).core.named (d.tile t) :=
  (foldl_onTile t (placeImplicit (d.tile t).core) (d.tile t).core.named d).1

theorem implicitNotifies_mem (t : ℕ) (d : Dev) : (implicitNotifies t d).mem = d.mem :=
  (foldl_onTile t (placeImplicit (d.tile t).core) (d.tile t).core.named d).2

section
variable (c : TCore)

theorem placeImplicit_core (q : BitVec 5) (y : Tile) : (placeImplicit c q y).core = y.core := by
  unfold placeImplicit; split <;> rfl

theorem placeImplicits_core (l : List (BitVec 5)) (y : Tile) : (placeImplicits c l y).core = y.core := by
  induction l generalizing y with
  | nil => rfl
  | cons p l ih => exact (ih _).trans (placeImplicit_core ..)

theorem placeImplicit_aq (p q : BitVec 5) (y : Tile) (hq : q.toNat ≤ 5) : vget (placeImplicit c p y).aq [] q.toNat = vget y.aq [] q.toNat ++
    (if q = p then [{ kind := .implicit, serial := c.iter.serial, node := c.iter.node, walk := (c.engine .a).walk, vf := c.csr.vfid }] else []) := by
  unfold placeImplicit
  by_cases hqp : q = p
  · subst hqp
    rw [if_pos hq, if_pos rfl, vget_vset _ _ _ _ (by omega), if_pos rfl]
  · rw [if_neg hqp, List.append_nil]
    split
    · next hp => rw [vget_vset _ _ _ _ (by omega), if_neg fun he => hqp (BitVec.eq_of_toNat_eq he)]
    · rfl

/-- Each queue named once has one behind everything in it (R113). -/
theorem placeImplicits_aq {l : List (BitVec 5)} (hl : l.Nodup) (q : BitVec 5) (y : Tile) (hq : q.toNat ≤ 5) :
    vget (placeImplicits c l y).aq [] q.toNat = vget y.aq [] q.toNat ++
      (if q ∈ l then [{ kind := .implicit, serial := c.iter.serial, node := c.iter.node, walk := (c.engine .a).walk, vf := c.csr.vfid }] else []) := by
  induction l generalizing y with
  | nil => simp [placeImplicits]
  | cons p l ih =>
    obtain ⟨hp, hl⟩ := List.nodup_cons.mp hl
    refine (ih hl _).trans ?_
    rw [placeImplicit_aq c p q y hq]
    by_cases hqp : q = p
    · subst hqp; simp [hp]
    · simp [hqp]

theorem placeImplicit_nq (p q : BitVec 5) (y : Tile) (hp : p.toNat ≤ 5 ∨ (8 ≤ p.toNat ∧ p.toNat < 24)) (hq : 8 ≤ q.toNat) :
    vget (placeImplicit c p y).nq [] (q.toNat - 8) = vget y.nq [] (q.toNat - 8) ++
      (if q = p then [{ isNotify := true, isImplicit := true, serial := c.iter.serial, node := c.iter.node, walk := (c.engine .a).walk }] else []) := by
  unfold placeImplicit
  by_cases hqp : q = p
  · subst hqp
    rw [if_neg (by omega), if_pos rfl, vget_vset _ _ _ _ (by omega), if_pos rfl]
  · have hne : q.toNat ≠ p.toNat := fun he => hqp (BitVec.eq_of_toNat_eq he)
    rw [if_neg hqp, List.append_nil]
    split
    · rfl
    · rw [vget_vset _ _ _ _ (by omega), if_neg (by omega)]

/-- Each network queue named once has one behind everything in it (R113). -/
theorem placeImplicits_nq {l : List (BitVec 5)} (hl : l.Nodup) (hin : ∀ p ∈ l, p.toNat ≤ 5 ∨ (8 ≤ p.toNat ∧ p.toNat < 24)) (q : BitVec 5)
    (y : Tile) (hq : 8 ≤ q.toNat) : vget (placeImplicits c l y).nq [] (q.toNat - 8) = vget y.nq [] (q.toNat - 8) ++
      (if q ∈ l then [{ isNotify := true, isImplicit := true, serial := c.iter.serial, node := c.iter.node, walk := (c.engine .a).walk }] else []) := by
  induction l generalizing y with
  | nil => simp [placeImplicits]
  | cons p l ih =>
    obtain ⟨hp, hl⟩ := List.nodup_cons.mp hl
    refine (ih hl (fun x hx => hin x (List.mem_cons_of_mem _ hx)) _).trans ?_
    rw [placeImplicit_nq c p q y (hin p List.mem_cons_self) hq]
    by_cases hqp : q = p
    · subst hqp; simp [hp]
    · simp [hqp]

end

section
variable {s : State} {pc : Dword} (h : Stands s .a pc false)
include h

/-- A stops behind its implicit notifies while the queues it named have room (R113). -/
theorem endw_a (hroom : ∀ q ∈ (iter s).named, q.toNat ≤ 5 → (s.dev.queue s.env.unit q.toNat).length < 32) :
    exec .endw s = .next (stoppedAt s .a pc (implicitNotifies s.env.unit s.dev)) := by
  have hfull : namedFull (s.dev.tile s.env.unit) = false := by
    rw [namedFull, List.any_eq_false]
    intro q hq
    rw [Bool.and_eq_true, decide_eq_true_eq, decide_eq_true_eq, not_and, not_le]
    exact hroom q hq
  refine exec_endw_stops h ?_
  simp only [found_of (show Eng.a ≠ .v by decide), endWord, hfull, Bool.false_eq_true, if_false]

/-- A full queue holds it (log entry 27). -/
theorem endw_a_waits (hfull : ∃ q ∈ (iter s).named, q.toNat ≤ 5 ∧ 32 ≤ (s.dev.queue s.env.unit q.toNat).length) :
    exec .endw s = .next (withDev s (setWait (Claims.found s .a false) ⟨s.env.unit, .a, pc, false⟩ Wait.idle)) := by
  obtain ⟨q, hq, hle, hlen⟩ := hfull
  have hfull : namedFull (s.dev.tile s.env.unit) = true :=
    List.any_eq_true.mpr ⟨q, hq, Bool.and_eq_true_iff.mpr ⟨decide_eq_true hle, decide_eq_true hlen⟩⟩
  rw [found_of (by decide)]
  refine run_control_wait h rfl ?_
  simp only [found_of (show Eng.a ≠ .v by decide), endWord, hfull, Bool.false_eq_true, if_false, if_true]

end

theorem stoppedAt_queue {s : State} {e : Eng} {pc : Dword} {d : Dev} (q : ℕ) : (stoppedAt s e pc d).dev.queue s.env.unit q = d.queue s.env.unit q := by
  rw [Dev.queue, stoppedAt_tile]; rfl

theorem stoppedAt_stream {s : State} {e : Eng} {pc : Dword} {d : Dev} (q : ℕ) : (stoppedAt s e pc d).dev.stream s.env.unit q = d.stream s.env.unit q := by
  rw [Dev.stream, stoppedAt_tile]; rfl

/-! #### M at the end of the iteration -/

/-- What M leaves at END: its lease released, and its implicit notify on the matrix path (R113, R198). -/
def endOfM (d : Dev) (t : ℕ) : Dev :=
  let d1 := if (d.tile t).core.lease.held then endLease d t 2 else d
  if (d.tile t).core.closed then
    d1.onCluster (t / 8) fun k => { k with notes := k.notes ++ [⟨t, (d.tile t).core.iter.serial, ((d.tile t).core.engine .m).walk, none⟩] }
  else d1

/-- The end of a lease changes of the iteration LEASESTAT alone (R198). -/
theorem endLease_core (d : Dev) (t : ℕ) (why : BitVec 4) :
    ((endLease d t why).tile t).core = { (d.tile t).core with lease := ((endLease d t why).tile t).core.lease } ∧
      ((endLease d t why).tile t).core.lease.held = false ∧ ((endLease d t why).tile t).core.lease.left = 0 := by
  have hcore : ((endLease d t why).tile t).core = { ((endTurn d t why).tile t).core with
      lease := { ((endTurn d t why).tile t).core.lease with held := false, left := 0, trapped := false } } := by
    rw [endLease, Dev.tile_onCore, if_pos rfl]
  rw [hcore]
  exact ⟨by rw [endTurn_core], rfl, rfl⟩

/-- The tile's turn is over, and it asks for none (R201). -/
theorem endTurn_cluster (d : Dev) (t : ℕ) (why : BitVec 4) : (endTurn d t why).cluster (t / 8) = { d.cluster (t / 8) with
    holder := if (d.cluster (t / 8)).holder = some t then none else (d.cluster (t / 8)).holder
    expired := if (d.cluster (t / 8)).holder = some t then false else (d.cluster (t / 8)).expired
    reqs := (d.cluster (t / 8)).reqs.filter fun x => x != t } := by
  have hset (x : Cluster) : (d.setCluster (t / 8) x).cluster (t / 8) = x := by rw [Dev.cluster_setCluster, if_pos rfl]
  unfold endTurn; dsimp only
  split <;> exact hset _

theorem endTurn_holder_ne (d : Dev) (t : ℕ) (why : BitVec 4) : ((endTurn d t why).cluster (t / 8)).holder ≠ some t := by
  rw [endTurn_cluster]
  dsimp only
  split
  · nofun
  · assumption

theorem endTurn_reqs (d : Dev) (t : ℕ) (why : BitVec 4) : t ∉ ((endTurn d t why).cluster (t / 8)).reqs := by
  rw [endTurn_cluster]
  simp

section
variable {s : State} {pc : Dword}

theorem endOfM_tile (d : Dev) (t : ℕ) : (endOfM d t).tile t = (if (d.tile t).core.lease.held then endLease d t 2 else d).tile t := by
  unfold endOfM; dsimp only
  split <;> rfl

theorem endOfM_core (d : Dev) (t : ℕ) : ((endOfM d t).tile t).core = { (d.tile t).core with lease := ((endOfM d t).tile t).core.lease } ∧
    ((endOfM d t).tile t).core.lease.held = false ∧ ((d.tile t).core.lease.held = true → ((endOfM d t).tile t).core.lease.left = 0) := by
  rw [endOfM_tile]
  split
  · obtain ⟨hcore, hheld, hleft⟩ := endLease_core d t 2
    exact ⟨hcore, hheld, fun _ => hleft⟩
  · next hheld => exact ⟨rfl, Bool.eq_false_iff.mpr hheld, fun hh => absurd hh hheld⟩

theorem endOfM_mem (d : Dev) (t : ℕ) : (endOfM d t).mem = d.mem := by
  have hlease : (if (d.tile t).core.lease.held then endLease d t 2 else d).mem = d.mem := by
    split
    · exact endTurn_mem ..
    · rfl
  unfold endOfM; dsimp only
  split <;> exact hlease

/-- Its notify stands behind those before it where the iteration closed a slot (R113); a lease that it held has taken the turn with it. -/
theorem endOfM_cluster (d : Dev) (t : ℕ) : ((endOfM d t).cluster (t / 8)).notes = (d.cluster (t / 8)).notes ++
      (if (d.tile t).core.closed then [⟨t, (d.tile t).core.iter.serial, ((d.tile t).core.engine .m).walk, none⟩] else []) ∧
    ((d.tile t).core.lease.held = true → ((endOfM d t).cluster (t / 8)).holder ≠ some t ∧ t ∉ ((endOfM d t).cluster (t / 8)).reqs) := by
  have hnotes : ((if (d.tile t).core.lease.held then endLease d t 2 else d).cluster (t / 8)).notes = (d.cluster (t / 8)).notes := by
    split
    · show ((endTurn d t 2).cluster (t / 8)).notes = _
      rw [endTurn_cluster]
    · rfl
  have hturn (hh : (d.tile t).core.lease.held = true) :
      ((if (d.tile t).core.lease.held then endLease d t 2 else d).cluster (t / 8)).holder ≠ some t ∧
        t ∉ ((if (d.tile t).core.lease.held then endLease d t 2 else d).cluster (t / 8)).reqs := by
    rw [if_pos hh]
    exact ⟨endTurn_holder_ne d t 2, endTurn_reqs d t 2⟩
  unfold endOfM; dsimp only
  split
  · rw [Dev.cluster_onCluster, if_pos rfl]
    exact ⟨congrArg (· ++ _) hnotes, hturn⟩
  · rw [List.append_nil]
    exact ⟨hnotes, hturn⟩

variable (h : Stands s .m pc false)
include h

/-- M stops once its lease can be released (R113, R198). -/
theorem endw_m (hfree : (iter s).lease.held = false ∨ mIdle s.dev s.env.unit = true) :
    exec .endw s = .next (stoppedAt s .m pc (endOfM s.dev s.env.unit)) := by
  have hgo : ((s.dev.tile s.env.unit).core.lease.held && !mIdle s.dev s.env.unit) = false := by
    rcases hfree with hf | hf
    · rw [show (s.dev.tile s.env.unit).core.lease.held = false from hf, Bool.false_and]
    · rw [hf, Bool.not_true, Bool.and_false]
  refine exec_endw_stops h ?_
  simp only [found_of (show Eng.m ≠ .v by decide), endWord, hgo, Bool.false_eq_true, if_false]
  rfl

/-- It waits while commands of the lease run (R113). -/
theorem endw_m_waits (hheld : (iter s).lease.held = true) (hbusy : mIdle s.dev s.env.unit = false) :
    exec .endw s = .next (withDev s (setWait (Claims.found s .m false) ⟨s.env.unit, .m, pc, false⟩ Wait.idle)) := by
  have hwait : ((s.dev.tile s.env.unit).core.lease.held && !mIdle s.dev s.env.unit) = true := by
    rw [show (s.dev.tile s.env.unit).core.lease.held = true from hheld, hbusy]; rfl
  rw [found_of (by decide)]
  refine run_control_wait h rfl ?_
  simp only [found_of (show Eng.m ≠ .v by decide), endWord, hwait, Bool.false_eq_true, if_false, if_true]

end

theorem endWord_holds : Claims.EndWord := by
  intro s e pc h stops waits
  refine ⟨?_, ?_, ?_, ?_⟩
  · rintro rfl
    exact endw_x h
  · rintro rfl
    exact ⟨endw_v h, endw_v_waits h⟩
  · rintro rfl hnodup hin
    refine ⟨fun hroom => ⟨_, endw_a h hroom, ?_, fun q hq => ?_, fun q hlo hhi => ?_⟩, endw_a_waits h⟩
    · have hcore : ((implicitNotifies s.env.unit s.dev).tile s.env.unit).core = iter s := by
        rw [implicitNotifies_tile, placeImplicits_core]; rfl
      exact endStops_stoppedAt (implicitNotifies_mem ..) (by rw [hcore]) (by rw [hcore]) (by rw [hcore])
    · have hplaced := placeImplicits_aq (iter s) hnodup q (unitTile s) hq
      refine ⟨_, Eq.trans (by rw [stoppedAt_queue, Dev.queue, implicitNotifies_tile]; rfl) hplaced, ?_, ?_⟩
      · split <;> rfl
      · intro c hc
        split at hc
        · rw [List.mem_singleton.mp hc]; exact ⟨rfl, rfl⟩
        · cases hc
    · have hplaced := placeImplicits_nq (iter s) hnodup hin q (unitTile s) hlo
      refine ⟨_, Eq.trans (by rw [stoppedAt_stream, Dev.stream, implicitNotifies_tile]; rfl) hplaced, ?_, ?_⟩
      · split <;> rfl
      · intro x hx
        split at hx
        · rw [List.mem_singleton.mp hx]; exact ⟨rfl, rfl, rfl⟩
        · cases hx
  · rintro rfl k
    refine ⟨endw_m_waits h, fun hfree => ⟨_, endw_m h hfree, ?_, ?_, fun hheld => ?_, ?_⟩⟩
    · obtain ⟨hcore, -, -⟩ := endOfM_core s.dev s.env.unit
      exact endStops_stoppedAt (endOfM_mem ..) (by rw [hcore]; rfl) (by rw [hcore]; rfl) (by rw [hcore]; rfl)
    · rw [stoppedAt_lease]; exact (endOfM_core ..).2.1
    · obtain ⟨hholder, hreqs⟩ := (endOfM_cluster s.dev s.env.unit).2 hheld
      rw [stoppedAt_lease, stoppedAt_cluster]
      exact ⟨(endOfM_core ..).2.2 hheld, hholder, hreqs⟩
    · rw [stoppedAt_cluster]; exact (endOfM_cluster ..).1

/-- Settles O19: RGN by the check at the last engine to reach it (`rgnWord_last`), END by what each engine leaves behind it
(`endw_x`, `endw_v`, `endw_a`, `endw_m`). -/
theorem regionAndEnd : Obligations.RegionAndEnd := ⟨regionEntry, endWord_holds⟩

end Sys2Proof.Machine

namespace Sys2Proof.Machine

open Sys2Proof.Safety

/-! ### The elements of a queue row -/

theorem sum_digits_lt {b : ℕ} {f : ℕ → ℕ} (hf : ∀ j, f j < b) (n : ℕ) : (List.range n).foldl (fun a j => a + f j * b ^ j) 0 < b ^ n := by
  induction n with
  | zero => simp
  | succ n ih =>
    rw [List.range_succ, List.foldl_append, List.foldl_cons, List.foldl_nil, pow_succ]
    have := Nat.mul_le_mul_right (b ^ n) (Nat.succ_le_of_lt (hf n))
    rw [Nat.succ_mul] at this
    rw [Nat.mul_comm (b ^ n) b]
    omega

/-- A digit of a number is what was put there. -/
theorem digit_sum_digits {b : ℕ} {f : ℕ → ℕ} (hf : ∀ j, f j < b) {n k : ℕ} (hk : k < n) :
    (List.range n).foldl (fun a j => a + f j * b ^ j) 0 / b ^ k % b = f k := by
  have hb : 0 < b := Nat.zero_lt_of_lt (hf 0)
  induction n with
  | zero => omega
  | succ n ih =>
    rw [List.range_succ, List.foldl_append, List.foldl_cons, List.foldl_nil]
    have hlt := sum_digits_lt hf n
    rcases Nat.lt_succ_iff_lt_or_eq.mp hk with hlt' | rfl
    · obtain ⟨m, rfl⟩ := Nat.exists_eq_add_of_lt hlt'
      rw [show f (k + m + 1) * b ^ (k + m + 1) = b ^ k * (b * (b ^ m * f (k + m + 1))) by ring,
        Nat.add_mul_div_left _ _ (Nat.pow_pos hb), Nat.add_mul_mod_self_left]
      exact ih hlt'
    · rw [Nat.mul_comm, Nat.add_mul_div_left _ _ (Nat.pow_pos hb), Nat.div_eq_of_lt hlt, Nat.zero_add, Nat.mod_eq_of_lt (hf k)]

/-- Element j of row i of a register, in the row that a queue receives (R164, R186). -/
theorem extract_vRow (r : VReg) (i : ℕ) {j : ℕ} (hj : j < 16) : (vRow r i).extractLsb' (32 * j) 32 = vget r 0 (16 * i + j) := by
  have hf (j : ℕ) : (vget r 0 (16 * i + j)).toNat < 2 ^ 32 := (vget r 0 (16 * i + j)).isLt
  have hsum : (vRow r i).toNat = (List.range 16).foldl (fun a j => a + (vget r 0 (16 * i + j)).toNat * (2 ^ 32) ^ j) 0 := by
    have hrow : vRow r i = BitVec.ofNat 512 ((List.range 16).foldl (fun a j => a + (vget r 0 (16 * i + j)).toNat * (2 ^ 32) ^ j) 0) := by
      simp only [vRow, ← pow_mul]
    rw [hrow, BitVec.toNat_ofNat, Nat.mod_eq_of_lt]
    exact (sum_digits_lt hf 16).trans_eq (by rw [← pow_mul])
  apply BitVec.eq_of_toNat_eq
  rw [BitVec.extractLsb'_toNat, Nat.shiftRight_eq_div_pow, hsum, pow_mul]
  exact digit_sum_digits hf hj

/-! ### VBCAST, VPOP, VPUSH, VPUSHX and KCNT -/

/-- What a word writes is a matter of the elements it writes. -/
theorem vWrites_congr {s t : State} {pc : Dword} {d : BitVec 5} {act : ℕ → Bool} {f g : ℕ → Word} {ex : ℕ → FFlags} {q : Queues}
    (h : ∀ p, act p = true → f p = g p) (hw : Claims.VWrites s t pc d act f ex q) : Claims.VWrites s t pc d act g ex q := by
  obtain ⟨hmem, hpc, hval, hrest⟩ := hw
  refine ⟨hmem, hpc, fun p hp => ?_, hrest⟩
  rw [hval p hp]
  split
  · next ha => exact h p ha
  · rfl

/-- The step of a word that writes values that raise nothing, and may change the queues (R165, R186). -/
theorem vWrites_quiet {s : State} {pc : Dword} {d : BitVec 5} {act : ℕ → Bool} {f : ℕ → Word} {F : TCore → TCore} {q : Queues}
    (hF : F (issueTick (iter s)) = vWrite d (fun _ => act) (fun _ p => quiet (f p)) { issueTick (iter s) with q := q }) :
    Claims.VWrites s (afterV s pc F) pc d act f (fun _ => 0) q := by
  have hw := vWrites_afterV (pc := pc) hF
  simpa only [quiet, ite_self] using hw

section
variable {s : State} {pc : Dword} (h : Stands s .v pc false)
include h

/-- A word of V that waits, in a cycle that is no issue cycle (R175). -/
theorem vWord_wait {i : Instr} {f : At → Dev → Res Unit} {w : Wait} (hw : w.tick = false)
    (hf : f ⟨s.env.unit, .v, pc, false⟩ (s.dev.onCore s.env.unit issueTick) = .wait w (s.dev.onCore s.env.unit issueTick)) :
    vWord i f s = .next (withDev s (setWait s.dev ⟨s.env.unit, .v, pc, false⟩ w)) :=
  run_own_wait (f := fun _ => f) h hw hf

/-- VBCAST takes the head of q.xv to the active elements (R186). -/
theorem vbcast_head {d : VOp} {y : Dword} {l : List Dword} (hq : (issueTick (iter s)).q.xv = y :: l)
    (hc : (issueTick (iter s)).cursorOk d.dir = true) : ∃ t, exec (.vbcast d 4) s = .next t ∧
      Claims.VWrites s t pc d.reg (fun p => (issueTick (iter s)).active d.dir [] (BitVec.allOnes 512) p) (fun _ => y.setWidth 32) (fun _ => 0)
        { (issueTick (iter s)).q with xv := l } := by
  refine ⟨_, vWord_ok h (F := fun c => vWrite d.reg (fun c => c.active d.dir [] (BitVec.allOnes 512)) (fun _ _ => quiet (y.setWidth 32))
    { c with q := { c.q with xv := l } }) ?_, vWrites_quiet rfl⟩
  simp only [issued_core, hc, hq]; rfl

theorem vbcast_empty {d : VOp} (hq : (issueTick (iter s)).q.xv = []) (hc : (issueTick (iter s)).cursorOk d.dir = true) :
    exec (.vbcast d 4) s = .next (withDev s (setWait s.dev ⟨s.env.unit, .v, pc, false⟩ { code := 1, detail := 4 })) :=
  vWord_wait h (w := { code := 1, detail := 4 }) rfl (by simp only [issued_core, hc, hq]; rfl)

variable {d : VOp} (hd : d.dir = .whole)
include hd

/-- VPOP takes whole rows of q.av, the first to the first 16 elements (R186). -/
theorem vpop_rows {n : BitVec 6} (hn : n.toNat ≤ (issueTick (iter s)).q.av.length) : ∃ t, exec (.vpop d 2 n) s = .next t ∧
    Claims.VWrites s t pc d.reg (fun p => decide (p / 16 < n.toNat))
      (fun p => (((issueTick (iter s)).q.av[p / 16]?).getD 0).extractLsb' (32 * (p % 16)) 32) (fun _ => 0)
      { (issueTick (iter s)).q with av := (issueTick (iter s)).q.av.drop n.toNat } := by
  have hlen : ¬ (issueTick (iter s)).q.av.length < n.toNat := not_lt.mpr hn
  refine ⟨_, vWord_ok h (F := fun c => vWrite d.reg (fun _ p => decide (p / 16 < n.toNat))
    (fun _ p => quiet (rowElem (((c.q.av.take n.toNat)[p / 16]?).getD 0) (p % 16))) { c with q := { c.q with av := c.q.av.drop n.toNat } }) ?_,
    vWrites_congr (fun p hp => ?_) (vWrites_quiet rfl)⟩
  · simp only [issued_core, hd, if_neg hlen]; rfl
  · rw [List.getElem?_take_of_lt (of_decide_eq_true hp), rowElem]

theorem vpop_short {n : BitVec 6} (hn : (issueTick (iter s)).q.av.length < n.toNat) :
    exec (.vpop d 2 n) s = .next (withDev s (setWait s.dev ⟨s.env.unit, .v, pc, false⟩ { code := 1, detail := 2 })) :=
  vWord_wait h (w := { code := 1, detail := 2 }) rfl (by simp only [issued_core, hd, if_pos hn]; rfl)

/-- VPUSH appends rows of a register to q.va (R186). -/
theorem vpush_rows {n : BitVec 6} (hn : (issueTick (iter s)).q.va.length + n.toNat ≤ 64) : exec (.vpush d 3 n) s = .next (afterV s pc fun c =>
    { c with q := { c.q with va := c.q.va ++ (List.range n.toNat).map (vRow (c.v d.reg)) } }) := by
  have hlen : ¬ 64 < (issueTick (iter s)).q.va.length + n.toNat := not_lt.mpr hn
  refine vWord_ok h ?_
  simp only [issued_core, hd, if_neg hlen]; rfl

theorem vpush_full {n : BitVec 6} (hn : 64 < (issueTick (iter s)).q.va.length + n.toNat) :
    exec (.vpush d 3 n) s = .next (withDev s (setWait s.dev ⟨s.env.unit, .v, pc, false⟩ { code := 2, detail := 3 })) :=
  vWord_wait h (w := { code := 2, detail := 3 }) rfl (by simp only [issued_core, hd, if_pos hn]; rfl)

end

/-- A word that appends a value to q.vx, while that has room (R70). -/
theorem pushVx_room {f : TCore → Dword} {a : At} {d : Dev} (hl : (d.tile a.t).core.q.vx.length < 16) :
    pushVx f a d = .ok () (d.onCore a.t fun c => { c with q := { c.q with vx := c.q.vx ++ [f c] } }) := by
  rw [pushVx, if_neg (not_le.mpr hl)]

theorem pushVx_full {f : TCore → Dword} {a : At} {d : Dev} (hl : (d.tile a.t).core.q.vx.length = 16) :
    pushVx f a d = .wait { code := 2, detail := 5 } d := by
  rw [pushVx, if_pos hl.ge]; rfl

/-- The cursor is a position within VSHAPE where its row and its column are (R173). -/
theorem inShape_cursor {c : TCore} (hr : c.csr.curRow.toNat < c.csr.rows.toNat) (hc : c.csr.curCol.toNat < c.csr.cols.toNat) :
    c.inShape (16 * c.csr.curRow.toNat + c.csr.curCol.toNat) = true := by
  have hlt := c.csr.curCol.isLt
  simp only [TCore.inShape, Bool.and_eq_true, decide_eq_true_eq]
  constructor <;> omega

section
variable {s : State} {pc : Dword} (h : Stands s .v pc false)
include h

/-- What a word that appends to q.vx leaves (R70). -/
theorem pushes_vx {i : Instr} {f : At → Dev → Res Unit} {g : TCore → Dword}
    (hf : f ⟨s.env.unit, .v, pc, false⟩ (s.dev.onCore s.env.unit issueTick) = pushVx g ⟨s.env.unit, .v, pc, false⟩ (s.dev.onCore s.env.unit issueTick))
    (hl : (issueTick (iter s)).q.vx.length < 16) : ∃ t, vWord i f s = .next t ∧ MemSame s t ∧ (iter t).regs = (issueTick (iter s)).regs ∧
      (iter t).q = { (issueTick (iter s)).q with vx := (issueTick (iter s)).q.vx ++ [g (issueTick (iter s))] } := by
  obtain ⟨hmem, -, hregs, hq, -⟩ := afterV_iter s pc fun c => { c with q := { c.q with vx := c.q.vx ++ [g c] } }
  exact ⟨_, vWord_ok h (hf.trans (pushVx_room (by rw [issued_core]; exact hl))), hmem, hregs, hq⟩

theorem waits_vx {i : Instr} {f : At → Dev → Res Unit} {g : TCore → Dword}
    (hf : f ⟨s.env.unit, .v, pc, false⟩ (s.dev.onCore s.env.unit issueTick) = pushVx g ⟨s.env.unit, .v, pc, false⟩ (s.dev.onCore s.env.unit issueTick))
    (hl : (issueTick (iter s)).q.vx.length = 16) :
    vWord i f s = .next (withDev s (setWait s.dev ⟨s.env.unit, .v, pc, false⟩ { code := 2, detail := 5 })) :=
  vWord_wait h rfl (hf.trans (pushVx_full (by rw [issued_core]; exact hl)))

end

/-- What KCNT counts: the elements of a mask register within VSHAPE (R194). -/
def kCount (k : BitVec 5) (c : TCore) : Dword := dw (((List.range 512).filter fun p => c.inShape p && (c.k k.toNat).getLsbD p).length)

theorem kCount_eq (k : BitVec 5) (c : TCore) :
    kCount k c = BitVec.ofNat 64 (((List.range 512).filter fun p => c.inShape p && (c.k k.toNat).getLsbD p).length) := rfl

theorem exec_kcnt (k : BitVec 5) (s : State) : exec (.kcnt k) s = vWord (.kcnt k) (pushVx (kCount k)) s := rfl

section
variable {s : State} {pc : Dword} {k : BitVec 5} (h : Stands s .v pc false)
include h

/-- KCNT appends its count to q.vx (R194). -/
theorem kcnt_room (hl : (issueTick (iter s)).q.vx.length < 16) : ∃ t, exec (.kcnt k) s = .next t ∧ MemSame s t ∧
    (iter t).regs = (issueTick (iter s)).regs ∧ (iter t).q = { (issueTick (iter s)).q with vx := (issueTick (iter s)).q.vx ++
      [BitVec.ofNat 64 (((List.range 512).filter fun p => (issueTick (iter s)).inShape p && ((issueTick (iter s)).k k.toNat).getLsbD p).length)] } := by
  rw [exec_kcnt, ← kCount_eq]
  exact pushes_vx (g := kCount k) h rfl hl

theorem kcnt_full (hl : (issueTick (iter s)).q.vx.length = 16) :
    exec (.kcnt k) s = .next (withDev s (setWait s.dev ⟨s.env.unit, .v, pc, false⟩ { code := 2, detail := 5 })) := by
  rw [exec_kcnt]
  exact waits_vx (g := kCount k) h rfl hl

end

/-- Settles O33: each word by what it moves (`vbcast_head`, `vpop_rows`, `vpush_rows`, `pushes_vx`) and by where it waits; a row that q.va
receives holds the elements of the register's row (`extract_vRow`). -/
theorem vectorQueueWords : Obligations.VectorQueueWords := by
  intro s pc y l d n k h c waits
  refine ⟨vbcast_head h, vbcast_empty h, fun hd => ⟨vpop_rows h hd, vpop_short h hd, fun hn => ?_, vpush_full h hd, fun hl hr hc => ?_,
    fun hl hr hc => ?_⟩, kcnt_room h, kcnt_full h⟩
  · obtain ⟨hmem, -, hregs, hq, hcsr⟩ := afterV_iter s pc fun c =>
      { c with q := { c.q with va := c.q.va ++ (List.range n.toNat).map (vRow (c.v d.reg)) } }
    refine ⟨_, vpush_rows h hd hn, hmem, hregs, hcsr, _, hq, by simp, fun i j r hi hj => ?_⟩
    rw [List.getElem?_map, Option.map_eq_some_iff] at hi
    obtain ⟨i', hi', rfl⟩ := hi
    obtain ⟨hlt, rfl⟩ := List.getElem?_eq_some_iff.mp hi'
    rw [List.getElem_range]
    exact extract_vRow _ _ hj
  · refine pushes_vx (g := fun x => (vget (x.v d.reg) 0 (16 * c.csr.curRow.toNat + c.csr.curCol.toNat)).setWidth 64) h ?_ hl
    have hin : (issueTick (iter s)).inShape (16 * (issueTick (iter s)).csr.curRow.toNat + (issueTick (iter s)).csr.curCol.toNat) = true :=
      inShape_cursor hr hc
    simp only [issued_core, hd, hin]; rfl
  · refine waits_vx (g := fun x => (vget (x.v d.reg) 0 (16 * c.csr.curRow.toNat + c.csr.curCol.toNat)).setWidth 64) h ?_ hl
    have hin : (issueTick (iter s)).inShape (16 * (issueTick (iter s)).csr.curRow.toNat + (issueTick (iter s)).csr.curCol.toNat) = true :=
      inShape_cursor hr hc
    simp only [issued_core, hd, hin]; rfl

end Sys2Proof.Machine

namespace Sys2Proof.Machine

open Sys2Proof.Safety

/-! ### The stall watchdog -/

/-- The four engines of an iteration, in their order. -/
theorem eng_toList (c : TCore) : c.eng.toList = Eng.all.map c.engine := by
  apply List.ext_getElem
  · rw [Vector.length_toList]; rfl
  · intro i hi _
    have hlt : i < 4 := by rwa [Vector.length_toList] at hi
    rw [List.getElem_map, Vector.getElem_toList]
    interval_cases i <;> rfl

theorem all_engines {c : TCore} {p : Engine → Bool} : c.eng.toList.all p = true ↔ ∀ e, p (c.engine e) = true := by
  rw [eng_toList, List.all_map, List.all_eq_true]
  exact ⟨fun h e => h e (by cases e <;> decide), fun h e _ => h e⟩

/-- One byte of each engine, the first engine's lowest (R76). -/
theorem foldr_engines (c : TCore) (f : Engine → ℕ) : c.eng.toList.foldr (fun g a => f g + 256 * a) 0 =
    f (c.engine .x) + 2 ^ 8 * f (c.engine .a) + 2 ^ 16 * f (c.engine .v) + 2 ^ 24 * f (c.engine .m) := by
  rw [eng_toList]
  simp only [Eng.all, List.map_cons, List.map_nil, List.foldr_cons, List.foldr_nil]
  ring

/-- The watchdog raises ENGINE_STALL on X once the count has reached 2^20 while no engine moves (R75, R76). -/
theorem exec_watchdog {s : State} (hlive : tileLive (unitTile s) = true) (hhand : (iter s).trap.hand = none)
    (hcode : ∀ e, stallCode ((iter s).engine e) ≠ 0) (hrun : ∃ e, ((iter s).engine e).stopped = false) (hstall : 2 ^ 20 ≤ (iter s).stall) :
    exec .engineStallWatchdog s = .next (withDev s (enterTrap s.env s.dev s.env.unit .x ((iter s).engine .x).pc 0x0E
      (dw ((iter s).eng.toList.foldr (fun g a => stallCode g + 256 * a) 0))
      (dw ((iter s).eng.toList.foldr (fun g a => stallDetail g + 256 * a) 0)) 0 0)) := by
  have hall : (iter s).eng.toList.all (fun g => stallCode g != 0) = true := all_engines.mpr fun e => bne_iff_ne.mpr (hcode e)
  have hsome : (!(iter s).eng.toList.all (·.stopped)) = true := by
    rw [Bool.not_eq_true', Bool.eq_false_iff]
    intro hstop
    obtain ⟨e, he⟩ := hrun
    exact absurd (all_engines.mp hstop e) (by rw [he]; decide)
  have hdue : (tileLive (unitTile s) && (iter s).trap.hand.isNone && (iter s).eng.toList.all (fun g => stallCode g != 0) &&
      !(iter s).eng.toList.all (·.stopped) && decide (2 ^ 20 ≤ (iter s).stall)) = true := by
    rw [hlive, hhand, hall, hsome, decide_eq_true hstall]; rfl
  show s.run watchdog = _
  rw [State.run_eq]
  exact congrArg (fun d => Host.Outcome.next (withDev s d)) (if_pos hdue)

/-! ### Region rollback -/

/-- A tile whose rollback is impossible stays frozen (R323). -/
theorem ready_of_stuck {d : Dev} {t : ℕ} (h : (d.tile t).core.trap.stuck = true) (g : Eng) : ready d t g = .no := by
  simp only [ready, h, Bool.or_true, Bool.true_or, if_true]

/-- A fence raises timestamps; no iteration changes (R245). -/
theorem fencePts_core (t : ℕ) (m1 m0 : BitVec 6) (d : Dev) (u : ℕ) : ((fencePts t m1 m0 d).tile u).core = (d.tile u).core := by
  have hfold (g : Dev → ℕ → Dword) (l : List ℕ) (d : Dev) :
      ((l.foldl (fun d p => setPts d (.tile t p) (g d p)) d).tile u).core = (d.tile u).core := by
    induction l generalizing d with
    | nil => rfl
    | cons p l ih => exact (ih _).trans (setPts_quiet (quiet_core u) ..)
  have hpast : ((fencePast d t m1 m0).tile u).core = (d.tile u).core := by
    unfold fencePast
    simp only [Dev.tile, Dev.onTile, Dev.setTile, NMap.get_set]
    split
    · next h => rw [h]
    · rfl
  exact (hfold (fun d p => dmax (getPts d (.tile t p)) _) ..).trans hpast

/-- M is let go by a change of the trap state alone (R335). -/
theorem freeM_core (t : ℕ) (d : Dev) : ((freeM t d).tile t).core = { (d.tile t).core with trap := ((freeM t d).tile t).core.trap } := by
  unfold freeM; dsimp only
  split
  · rw [Dev.tile_onCore, if_pos rfl, fencePts_core]
  · rfl

/-- An iteration back at its region entry: every engine where it was recorded, every queue and counter empty (R74, R323). -/
def TCore.rolled (c : TCore) : TCore :=
  { c.abandon with
    eng := c.eng.map fun e => { e with pc := e.rgnPc, walk := e.rgnWalk, ret := e.rgnRet, outs := [], wait := none, halted := false, stopped := false, prev := .none }
    q := {}
    tok := Vector.replicate 16 0
    sfu := Vector.replicate 8 none
    moved := 0
    headLost := false
    mfence := 0
    xfence := 0
    fwSince := none
    asids := []
    asidDue := []
    csr := { c.csr with chainE := none } }

section
variable {env : Env} {d : Dev} {t : ℕ} (e : Eng) (cause : Rollback) (hhand : (d.tile t).core.trap.hand = none)
include hhand

/-- A rollback outside a handler, after the first RGN (R323). -/
theorem rollback_core (hrgn : ((d.tile t).core.engine .x).rgnPc ≠ 0) : ((rollback env d t e cause).tile t).core =
    { (d.tile t).core.rolled with trap := ((rollback env d t e cause).tile t).core.trap } := by
  have hnone : ¬ (d.tile t).core.trap.hand.isSome = true := by rw [hhand]; decide
  have hpost (x : Dev) (fq : BitVec 55) (r : FRec) : ((postFault env x fq r).tile t).core = (x.tile t).core :=
    postFault_quiet (quiet_core t) env x fq r
  unfold rollback; dsimp only
  rw [if_neg hnone, if_neg hrgn, hpost, freeM_core]
  simp only [Dev.tile_onCore, Dev.tile_onTile, if_true]
  rfl

/-- Before the first RGN the tile freezes (R323). -/
theorem rollback_core_stuck (hrgn : ((d.tile t).core.engine .x).rgnPc = 0) : ((rollback env d t e cause).tile t).core =
    { (d.tile t).core.abandon with trap := { (d.tile t).core.trap with stuck := true } } := by
  have hnone : ¬ (d.tile t).core.trap.hand.isSome = true := by rw [hhand]; decide
  have hpost (x : Dev) (fq : BitVec 55) (r : FRec) : ((postFault env x fq r).tile t).core = (x.tile t).core :=
    postFault_quiet (quiet_core t) env x fq r
  unfold rollback; dsimp only
  rw [if_neg hnone, if_pos hrgn, hpost, Dev.tile_onCore, if_pos rfl]
  rfl

end

theorem rolled_engine (c : TCore) (g : Eng) : c.rolled.engine g = { c.engine g with
    pc := (c.engine g).rgnPc, walk := (c.engine g).rgnWalk, ret := (c.engine g).rgnRet, outs := [], wait := none, halted := false
    stopped := false, prev := .none } := by
  rw [TCore.rolled, TCore.engine, TCore.engine, Vector.getElem_map]

/-- An uncorrectable error rolls the tile back in the name of V (R74). -/
theorem exec_rollback {s : State} (hlive : tileLive (unitTile s) = true) :
    exec (.regionRollback .uncorrectable) s = .next (withDev s (rollback s.env s.dev s.env.unit .v .uncorrectable)) := by
  have hgo : (tileLive (unitTile s) && true) = true := by rw [hlive]; rfl
  show s.run (rollbackEvent .uncorrectable) = _
  rw [State.run_eq]
  exact congrArg (fun d => Host.Outcome.next (withDev s d)) (if_pos hgo)

/-! ### The landing of a pending result -/

/-- A pending result written: its active elements at its register, and its flags (R176). -/
def TCore.landed (c : TCore) (r : Sfu) : TCore :=
  let old := vget c.regs.v (Vector.replicate 512 0) r.preg.toNat
  { c with
    regs := { c.regs with v := vset c.regs.v r.preg.toNat (Vector.ofFn fun i => if r.act.getLsbD i.val then r.data[i] else old[i]) }
    csr := { c.csr with vflags := c.csr.vflags ||| r.flags }
    sfu := Vector.replicate 8 none }

/-- A result that is pending alone. -/
def TCore.pendingOne (c : TCore) (r : Sfu) : TCore := { c with sfu := Vector.ofFn fun i => [r][i.val]? }

theorem pendingOne_pending (c : TCore) (r : Sfu) : (c.pendingOne r).pending = [r] := rfl

section
variable {c : TCore} {r : Sfu} (h : c.pending = [r])
include h

theorem not_idle_of_pending : ¬ c.sfu.toList.all (·.isNone) = true := by
  intro hall
  have hr : r ∈ c.sfu.toList.filterMap id := by rw [show c.sfu.toList.filterMap id = [r] from h]; exact List.mem_singleton.mpr rfl
  obtain ⟨x, hx, hxr⟩ := List.mem_filterMap.mp hr
  have hnone := List.all_eq_true.mp hall x hx
  rw [show x = some r from hxr] at hnone
  cases hnone

/-- An issue cycle brings the one pending result nearer, or lands it (R176). -/
theorem issueTick_one : issueTick c = if r.rem - 1 = 0 then c.landed r else c.pendingOne { r with rem := r.rem - 1 } := by
  have hlive : c.sfu.toList.filterMap id = [r] := h
  rw [issueTick, if_neg (not_idle_of_pending h)]
  simp only [hlive, List.map_cons, List.map_nil, List.filter_cons, List.filter_nil]
  by_cases hrem : r.rem - 1 = 0
  · simp only [hrem, beq_self_eq_true, bne_self_eq_false, if_true, Bool.false_eq_true, if_false, List.foldl_cons, List.foldl_nil]
    rfl
  · simp only [beq_eq_false_iff_ne.mpr hrem, bne_iff_ne.mpr hrem, if_true, Bool.false_eq_true, if_false, List.foldl_nil, if_neg hrem]
    rfl

end

/-- The one pending result lands after as many issue cycles as it has left (R176). -/
theorem issueTick_iterate {c : TCore} {r : Sfu} (h : c.pending = [r]) : issueTick^[max 1 r.rem] c = c.landed r := by
  obtain ⟨n, hn⟩ : ∃ n, max 1 r.rem = n + 1 := ⟨max 1 r.rem - 1, by omega⟩
  rw [hn]
  induction n generalizing c r with
  | zero => rw [Function.iterate_one, issueTick_one h, if_pos (by omega)]
  | succ n ih =>
    have hrem : r.rem - 1 ≠ 0 := by omega
    rw [Function.iterate_succ_apply, issueTick_one h, if_neg hrem,
      ih (pendingOne_pending c _) (by show max 1 (r.rem - 1) = n + 1; omega)]
    rfl

/-- V counts issue cycles until the one pending result has landed (R175, R176). -/
theorem exec_sfuLand {s : State} {r : Sfu} {w : Wait} (hlive : tileLive (unitTile s) = true) (hhand : (iter s).trap.hand = none)
    (hstep : (unitTile s).dbg.step = none) (hwait : ((iter s).engine .v).wait = some w) (htick : w.tick = true) (hdetail : w.detail ≠ 8)
    (hpending : (iter s).pending = [r]) : exec .sfuResultLand s = .next (withDev s (s.dev.onCore s.env.unit fun c => c.landed r)) := by
  have htw : tickWait (iter s) = true := by
    simp only [tickWait, hwait, htick, bne_iff_ne.mpr hdetail, Bool.true_or, Bool.and_self]
  have hgo : (tileLive (unitTile s) && (unitTile s).dbg.step.isNone && (iter s).trap.hand.isNone && tickWait (iter s)) = true := by
    rw [hlive, hstep, hhand, htw]; rfl
  have hland : sfuLand s.env s.dev = s.dev.onCore s.env.unit fun y => (List.range (max 1 r.rem)).foldl (fun z _ => issueTick z) y := by
    have hp : (s.dev.tile s.env.unit).core.pending = [r] := hpending
    unfold sfuLand; dsimp only
    rw [hp]
    exact if_pos hgo
  have hcore : (List.range (max 1 r.rem)).foldl (fun z _ => issueTick z) (iter s) = (iter s).landed r := by
    rw [List.foldl_const, List.length_range, issueTick_iterate hpending]
  show s.run sfuLand = _
  rw [State.run_eq, hland, onCore_congr (g := fun c => c.landed r) hcore]
  rfl

/-- Settles O44: the watchdog by the trap that it takes (`exec_watchdog`, `enterTrap_delivered`), a rollback by what it leaves of the
iteration (`rollback_core`, `rollback_core_stuck`), the landing by the issue cycles of the one pending result (`issueTick_iterate`). -/
theorem stallAndRollback : Obligations.StallAndRollback := by
  intro s r w hlive c pack
  refine ⟨fun hhand hcode hrun hstall htvec hprof => ?_, fun hhand hrgn => ?_, fun hhand hrgn => ?_, fun hhand hstep hwait htick hdetail hp => ?_⟩
  · have hpack (f : Engine → ℕ) : dw (c.eng.toList.foldr (fun g a => f g + 256 * a) 0) = pack f := by rw [foldr_engines]; rfl
    have hexec := exec_watchdog hlive hhand hcode hrun hstall
    rw [hpack, hpack] at hexec
    obtain ⟨htrapped, hinfo⟩ := enterTrap_delivered (env := s.env) (e := .x) (pc := (c.engine .x).pc) (code := 0x0E) (i0 := pack stallCode)
      (i1 := pack stallDetail) hhand htvec
    refine ⟨_, hexec, fun a => ?_, htrapped, hinfo⟩
    rw [withDev, enterTrap_mem _ _ _ _ _ _ _ _ _ _ hhand htvec hprof]
  · have hcore := rollback_core (env := s.env) .v .uncorrectable hhand hrgn
    refine ⟨_, exec_rollback hlive, (congrArg TCore.regs hcore).trans rfl, congrArg TCore.q hcore, congrArg TCore.tok hcore,
      congrArg TCore.sfu hcore, (congrArg TCore.csr hcore).trans rfl, fun e => ?_⟩
    have heng : (iter (withDev s (rollback s.env s.dev s.env.unit .v .uncorrectable))).engine e = _ :=
      (congrArg (fun c => TCore.engine c e) hcore).trans (rolled_engine c e)
    rw [heng]
    exact ⟨rfl, rfl, rfl, rfl, rfl⟩
  · have hcore : iter (withDev s (rollback s.env s.dev s.env.unit .v .uncorrectable)) =
        { c.abandon with trap := { c.trap with stuck := true } } := rollback_core_stuck .v .uncorrectable hhand hrgn
    have hstuck := congrArg (fun c => c.trap.stuck) hcore
    refine ⟨_, exec_rollback hlive, hstuck, ?_, ready_of_stuck hstuck⟩
    rw [hcore]
    exact ⟨rfl, rfl, rfl, rfl, rfl, abandon_engine c⟩
  · have hcore : iter (withDev s (s.dev.onCore s.env.unit fun c => c.landed r)) = c.landed r :=
      congrArg Tile.core ((Dev.tile_onCore ..).trans (if_pos rfl))
    refine ⟨_, exec_sfuLand hlive hhand hstep hwait htick hdetail hp, fun a => rfl, ?_, ?_, ?_⟩
    · rw [hcore]; rfl
    · rw [hcore]; rfl
    · rw [hcore]; rfl

end Sys2Proof.Machine

namespace Sys2Proof.Laws

/-! ### The words of program text, decoded again -/

namespace RoundTrip

/-- The round trip holds of every instruction, by the lemma of its constructor, in the order in which they are declared. A step that has
no word meets the statement with nothing to show. -/
theorem statement_holds : ∀ i : Instr, Statement i :=
  @Instr.rec Statement
    -- Steps of the other agents.
    powerUp islandClockChange launchPortStore releaseWrite regionRollback barrierDecrement commandCompletion commandStall notifyComplete
    transferPacket ptsTick resumeEngine resumeQueue failQueueCommand lcapWrite swayStageSet swayStageClear frameassign flitReceive
    laneWindowEnd leaveRequest returnRequest laneTrialWindow laneLossOfLock laneRetry demote move retire thaw dbgResume dbgStep
    psessWrite networkArrival storageCompletion interruptTaken registerWrite
    -- Control words.
    br brc loop loopr call tok brx
    -- Words of X.
    add sub mul mulh mulhu div divu rem remu and or xor andn shl shr sar rol min max minu maxu slt sltu seq sne clz ctz popc sel addi
    andi ori xori shli shri sari slti lui fadd fsub fmul ffma fmin fmax fcmp fcvtToInt fcvtToFp pop push qstat evpop evpeek evcnt launch
    csrr csrw csrs csrc trap
    -- Words of A.
    aadd asub amul ashl ashr aand amin amax aslt aaddi alui aandi ashli ld ldq ldv st stq stv pref amoadd amoswap amocas amologic
    amominmax amofadd flagwait flaginc flagset flagread bararm barwait copy copy2d gather scatter xfer xferm notify mapinst mapswap
    mapret mapq fencex mark join rld rst rstf ramo tidset tidinv tidget tlbinv asidset
    -- Words of V.
    vaddF vsubF vmulF vfmaF vfmsF vminF vmaxF vabsF vnegF vcmpF vaddB vsubB vmulB vfmaB vfmsB vminB vmaxB vaddI vsubI vmulI vminI vmaxI
    vand vor vxor vshl vshr vsar vcmpI vrcp vrsqrt vexp2 vlog2 vtanh vredsum vredmax vmov vbcast vtrans vsel vshift viota vpop vpush
    vpushx vunpE4 vunpE5 vunpI8 vunpH vunpQ4 vpackE4 vpackE5 vpackI8 vpackH vpackB vcvtFi vcvtIf vshape vcur vrbset vpark vunpark kand
    kor knot kmov kcnt
    -- Words of M.
    lease mset maddc mpopc mpush mshape mma mmas rclose rwaitSlot cbound cord chain bdset cinit
    -- System cores and the reserved word, which no encoding names; the EXT word; a step of staging.
    systemCoreInstruction reservedWord extWord stageChangeComplete
    -- Steps of the other agents, without operands.
    walkerDispatch preemptRequest contextSaveDone iterationRetirement retirementMessage nodeCompletion engineStallWatchdog sfuResultLand
    flagwaitSatisfied mapDrainComplete shareRefill turnGrant turnTimeLimit turnEndBudget matrixCommandComplete rakeStart
    rakeOutputPerformed rakeStall mnotifyComplete chainRecordComplete terminate resumeRake failRakeSlot vfTeardown teardownTimeout
    framerelease scrubComplete peerLost rldRequest rldReply rstArrival rstfArrival ramoRequest ramoReply sack flush fail relayedRequest
    ownerset migack redirect redirectApply reresolve pagedata performed close abort stubLifetimeExpiry demoteComplete promotionComplete
    dbgStop debugStepEnd breakpointHit debugImageWritten extend attest mailboxCommandDone
    -- Words without operands: control, X, A, M.
    ret rgn endw nop eret wfe anop lrel rdrop rwaitFree cstep cemit mnotify
    -- Power goes.
    powerDown

end RoundTrip

/-- The word that encodes a well-formed word of program text decodes to it. -/
theorem decode_of_encode {i : Instr} {w : Word} (he : encode i = some w) (hw : i.isWord = true) (hwf : i.wf = true) : decode w = .ok i := by
  obtain ⟨x, hx, hdec⟩ := RoundTrip.statement_holds i hw hwf
  obtain rfl : x = w := Option.some.inj (hx.symm.trans he)
  exact hdec

/-- Settles O57, by the round trip of each constructor (`RoundTrip.statement_holds`): a field that the encoding writes is read back from
the same bits, the opcode selects the row of the map, and the zeros of the encoding are those that the row's mask asks for. -/
theorem encodeThenDecode : Obligations.EncodeThenDecode := RoundTrip.statement_holds

/-- Settles O56: each of the words is the encoding of its instruction, and so decodes to it (`decode_of_encode`). -/
theorem writtenWordsDecode : Obligations.WrittenWordsDecode := by
  unfold Obligations.WrittenWordsDecode
  and_intros
  all_goals exact decode_of_encode rfl rfl rfl

end Sys2Proof.Laws

namespace Sys2Proof.Machine

open Sys2Proof.Safety

/-! ### The words of X on registers alone -/

/-- Words whose changes to the iteration agree on the one that is there end alike. -/
theorem after_congr {s : State} {e : Eng} {pc : Dword} {hand : Bool} {f g : TCore → TCore} (h : f (iter s) = g (iter s)) :
    after s e pc hand f = after s e pc hand g := by
  rw [after, after, onCore_congr h]

section
variable {s : State} {pc : Dword} {hand : Bool} (h : Stands s .x pc hand)
include h

/-- The step of a word of X on registers alone, by what it makes of the iteration that it finds. -/
theorem xWord_gives {i : Instr} {f g : TCore → TCore} (hf : f (iter s) = g (iter s)) :
    xWord i f s = .next (after s .x pc hand g) := by
  rw [← after_congr hf]; exact run_core h (by decide)

theorem xBin_gives {i : Instr} {d a b : BitVec 5} {op : Dword → Dword → Dword} {v : Dword}
    (hv : op ((iter s).s a) ((iter s).s b) = v) : xBin i d a b op s = .next (after s .x pc hand fun c => c.setS d v) :=
  xWord_gives h (by rw [hv])

theorem xUn_gives {i : Instr} {d a : BitVec 5} {op : Dword → Dword} {v : Dword} (hv : op ((iter s).s a) = v) :
    xUn i d a op s = .next (after s .x pc hand fun c => c.setS d v) :=
  xWord_gives h (by rw [hv])

end

/-! ### The results of R115 in integer arithmetic -/

section
variable {w : ℕ} (x y : BitVec w) (n : ℕ)

theorem sub_eq_ofInt_toInt : x - y = BitVec.ofInt w (x.toInt - y.toInt) := by
  rw [Int.sub_eq_add_neg, BitVec.ofInt_add, BitVec.ofInt_neg, BitVec.ofInt_toInt, BitVec.ofInt_toInt, BitVec.sub_eq_add_neg]

theorem mul_eq_ofInt_toInt : x * y = BitVec.ofInt w (x.toInt * y.toInt) := by
  rw [BitVec.ofInt_mul, BitVec.ofInt_toInt, BitVec.ofInt_toInt]

theorem shiftLeft_eq_ofNat : x <<< n = BitVec.ofNat w (x.toNat * 2 ^ n) := by
  apply BitVec.eq_of_toNat_eq
  rw [BitVec.toNat_shiftLeft, BitVec.toNat_ofNat, Nat.shiftLeft_eq]

theorem ushiftRight_eq_ofNat : x >>> n = BitVec.ofNat w (x.toNat / 2 ^ n) := by
  apply BitVec.eq_of_toNat_eq
  rw [BitVec.toNat_ushiftRight, Nat.shiftRight_eq_div_pow, BitVec.toNat_ofNat, Nat.mod_eq_of_lt ((Nat.div_le_self ..).trans_lt x.isLt)]

theorem sshiftRight_eq_ofInt : x.sshiftRight n = BitVec.ofInt w (x.toInt / 2 ^ n) := by
  rw [show x.toInt / 2 ^ n = x.toInt >>> n by rw [Int.shiftRight_eq_div_pow]; push_cast; rfl, ← BitVec.toInt_sshiftRight,
    BitVec.ofInt_toInt]

end

/-- The larger of two by a key, chosen by which is the smaller (R115). -/
theorem larger_eq {α : Type} [LinearOrder α] {k : Dword → α} (hk : Function.Injective k) (x y : Dword) :
    (if k y ≤ k x then x else y) = if k x ≤ k y then y else x := by
  rcases lt_trichotomy (k x) (k y) with hlt | heq | hgt
  · rw [if_neg (not_le.mpr hlt), if_pos hlt.le]
  · rw [if_pos heq.ge, if_pos heq.le, hk heq]
  · rw [if_pos hgt.le, if_neg (not_le.mpr hgt)]

theorem b2d_decide (p : Prop) [Decidable p] : b2d (decide p) = if p then 1 else 0 := by
  by_cases hp : p <;> simp [b2d, hp]

theorem allOnes_eq_ofInt : BitVec.allOnes 64 = BitVec.ofInt 64 (-1) := by decide

theorem sx_shiftLeft_eq (n : BitVec 17) : sx n <<< 12 = BitVec.ofInt 64 (n.toInt * 4096) := by
  have htoInt : (sx n).toInt = n.toInt := BitVec.toInt_signExtend_of_le (by decide)
  rw [← BitVec.mul_twoPow_eq_shiftLeft, mul_eq_ofInt_toInt, htoInt]
  rfl

/-- The step of an integer word of X writes its result of R115 to S[d]. -/
theorem exec_intResult {i : Instr} {s : State} {pc : Dword} {hand : Bool} {d : BitVec 5} {v : Dword} (h : Stands s .x pc hand)
    (hv : Claims.intResult i (iter s) = some (d, v)) : exec i s = .next (after s .x pc hand fun c => c.setS d v) := by
  unfold Claims.intResult at hv
  split at hv <;> cases hv
  · show execNop s = _; exact xWord_gives h rfl
  · show execAdd _ _ _ s = _; exact xBin_gives h (ofInt_toInt_add ..).symm
  · show execSub _ _ _ s = _; exact xBin_gives h (sub_eq_ofInt_toInt ..)
  · show execMul _ _ _ s = _; exact xBin_gives h (mul_eq_ofInt_toInt ..)
  · show execMulh _ _ _ s = _; exact xBin_gives h rfl
  · show execMulhu _ _ _ s = _; exact xBin_gives h rfl
  · show execDiv _ _ _ s = _; exact xBin_gives h (by rw [sdiv, allOnes_eq_ofInt]; rfl)
  · show execDivu _ _ _ s = _; exact xBin_gives h (by rw [udivX, allOnes_eq_ofInt]; rfl)
  · show execRem _ _ _ s = _; exact xBin_gives h rfl
  · show execRemu _ _ _ s = _; exact xBin_gives h rfl
  · show execAnd _ _ _ s = _; exact xBin_gives h rfl
  · show execOr _ _ _ s = _; exact xBin_gives h rfl
  · show execXor _ _ _ s = _; exact xBin_gives h rfl
  · show execAndn _ _ _ s = _; exact xBin_gives h rfl
  · show execShl _ _ _ s = _; exact xBin_gives h (shiftLeft_eq_ofNat ..)
  · show execShr _ _ _ s = _; exact xBin_gives h (ushiftRight_eq_ofNat ..)
  · show execSar _ _ _ s = _; exact xBin_gives h (sshiftRight_eq_ofInt ..)
  · show execRol _ _ _ s = _; exact xBin_gives h rfl
  · show execMin _ _ _ s = _; exact xBin_gives h rfl
  · show execMax _ _ _ s = _; exact xBin_gives h (larger_eq (fun _ _ => BitVec.eq_of_toInt_eq) ..)
  · show execMinu _ _ _ s = _; exact xBin_gives h rfl
  · show execMaxu _ _ _ s = _; exact xBin_gives h (larger_eq (fun _ _ => BitVec.eq_of_toNat_eq) ..)
  · show execSlt _ _ _ s = _; exact xBin_gives h (b2d_decide _)
  · show execSltu _ _ _ s = _; exact xBin_gives h (b2d_decide _)
  · show execSeq _ _ _ s = _; exact xBin_gives h (by simp [b2d])
  · show execSne _ _ _ s = _; exact xBin_gives h (by simp [b2d])
  · show execSel _ _ _ _ s = _; exact xWord_gives h (by simp)
  · show execShli _ _ _ s = _; exact xUn_gives h (shiftLeft_eq_ofNat ..)
  · show execShri _ _ _ s = _; exact xUn_gives h (ushiftRight_eq_ofNat ..)
  · show execSari _ _ _ s = _; exact xUn_gives h (sshiftRight_eq_ofInt ..)
  · show execLui _ _ s = _; exact xWord_gives h (by rw [sx_shiftLeft_eq])

theorem integerWordsOfX : Claims.IntegerWordsOfX := fun _ _ _ _ _ _ h hv => exec_intResult h hv

/-! ### CLZ, CTZ and POPC -/

/-- The leading zero bits (R115): the number is below 2^(64 - n), and no smaller than 2^(63 - n) unless it is 0. -/
theorem clz_spec (x : Dword) : clz x ≤ 64 ∧ x.toNat < 2 ^ (64 - clz x) ∧ (clz x < 64 → 2 ^ (63 - clz x) ≤ x.toNat) := by
  unfold clz
  cases hfind : (List.range 64).find? fun i => x.getLsbD (63 - i) with
  | none =>
    have hzero : ∀ i < 64, x.getLsbD (63 - i) = false := by simpa using hfind
    have hx : x = 0 := BitVec.eq_of_getLsbD_eq fun i hi => by
      have := hzero (63 - i) (by omega)
      rw [show 63 - (63 - i) = i by omega] at this
      simpa using this
    simp [hx]
  | some n =>
    obtain ⟨hset, hn, hclear⟩ := List.find?_range_eq_some.mp hfind
    have hn : n < 64 := List.mem_range.mp hn
    refine ⟨hn.le, Nat.lt_pow_two_of_testBit _ fun i hi => ?_, fun _ => Nat.ge_two_pow_of_testBit hset⟩
    rcases Nat.lt_or_ge i 64 with hi64 | hi64
    · have := hclear (63 - i) (by rw [Option.getD_some] at hi; omega)
      rw [show 63 - (63 - i) = i by omega] at this
      exact Bool.not_eq_true' _ ▸ this
    · exact BitVec.getLsbD_of_ge x i hi64

/-- The trailing zero bits (R115): 2^n divides the number, and 2^(n + 1) does not unless it is 0. -/
theorem ctz_spec (x : Dword) : ctz x ≤ 64 ∧ 2 ^ ctz x ∣ x.toNat ∧ (ctz x < 64 → ¬ 2 ^ (ctz x + 1) ∣ x.toNat) := by
  unfold ctz
  cases hfind : (List.range 64).find? fun i => x.getLsbD i with
  | none =>
    have hzero : ∀ i < 64, x.getLsbD i = false := by simpa using hfind
    have hx : x = 0 := BitVec.eq_of_getLsbD_eq fun i hi => by simpa using hzero i hi
    simp [hx]
  | some n =>
    obtain ⟨hset, hn, hclear⟩ := List.find?_range_eq_some.mp hfind
    have hn : n < 64 := List.mem_range.mp hn
    refine ⟨hn.le, Nat.dvd_of_mod_eq_zero (Nat.eq_of_testBit_eq fun i => ?_), fun _ hdvd => ?_⟩
    · rw [Option.getD_some, Nat.testBit_mod_two_pow, Nat.zero_testBit, Bool.and_eq_false_iff]
      exact (Nat.lt_or_ge i n).symm.imp (by simp) fun hi => by exact Bool.not_eq_true' _ ▸ hclear i hi
    · obtain ⟨k, hk⟩ := hdvd
      have hset' : x.toNat.testBit n = true := hset
      rw [hk, Option.getD_some, Nat.testBit_two_pow_mul] at hset'
      simp at hset'

/-- The set bits below n, counted (R115). -/
theorem ones_eq_length {w : ℕ} (m : BitVec w) (n : ℕ) : ones m n = ((List.range n).filter fun k => m.getLsbD k).length := by
  induction n with
  | zero => rfl
  | succ n ih =>
    rw [ones, ih, List.range_succ, List.filter_append, List.length_append]
    cases h : m.getLsbD n <;> simp [b2n, h]

theorem countWordsOfX : Claims.CountWordsOfX := by
  intro s pc hand d a h
  refine ⟨⟨_, ?_, clz_spec _⟩, ⟨_, ?_, ctz_spec _⟩, ⟨_, ?_, ones_eq_length _ 64⟩⟩
  · show execClz d a s = _; exact xUn_gives h rfl
  · show execCtz d a s = _; exact xUn_gives h rfl
  · show execPopc d a s = _; exact xUn_gives h rfl

/-- Settles O1: each word writes its result to S[d] (`exec_intResult`), by what the model's operations are in integer arithmetic; the
counts by the first set bit from either end (`clz_spec`, `ctz_spec`) and by the bits counted (`ones_eq_length`). -/
theorem integerWords : Obligations.IntegerWords := ⟨integerWordsOfX, countWordsOfX⟩

end Sys2Proof.Machine

namespace Sys2Proof.Machine

open Sys2Proof.Safety

/-! ### NOP -/

/-- Settles O7: X walks it like a word with no effect (`run_own`), the others step over it (`run_other`). -/
theorem nopWord : Obligations.NopWord := by
  refine ⟨Laws.decode_of_encode (i := .nop) rfl rfl rfl, fun s e pc hand h => ?_⟩
  by_cases he : e = .x
  · subst he
    rw [found_of (by decide)]
    show execNop s = _
    exact run_core h (by decide)
  · show execNop s = _
    exact run_other h he

/-! ### ERET -/

/-- What the return from a trap leaves of the iteration: the handler has ended, and M may be held (R129, R335). -/
theorem leaveTrap_eq {env : Env} {d : Dev} {t : ℕ} (hprof : (d.tile t).core.csr.profctl = 0) (hroll : (d.tile t).core.trap.pendRb = none) :
    leaveTrap env t d = d.onCore t fun y => { y with trap := { y.trap with
      hand := none, pendRb := none, mHold := (d.tile t).core.trap.mHold || (d.tile t).core.trap.eng == 3 } } := by
  unfold leaveTrap; dsimp only
  rw [hroll, trace_off hprof]

/-- ERET in a handler (R129). -/
theorem exec_eret {s : State} {pc : Dword} (h : Stands s .x pc true) (hprof : (iter s).csr.profctl = 0)
    (hroll : (iter s).trap.pendRb = none) : exec .eret s = .next (after s .x pc true fun y => { y with trap := { y.trap with
      hand := none, pendRb := none, mHold := (iter s).trap.mHold || (iter s).trap.eng == 3 } }) := by
  show execEret s = _
  exact xTry_core h (congrArg (Res.ok ()) (leaveTrap_eq hprof hroll))

/-- What a word walked in a handler leaves of the iteration: the engines stand as its effect left them (R114). -/
theorem iter_walked_hand {s : State} {pc next : Dword} {d : Dev} {e : Eng} {p : Prev} : iter (walked s pc d e true next p) =
    { (d.tile s.env.unit).core with
      stall := 0
      skip := (d.tile s.env.unit).core.skip.filter fun x => x.1 != e || x.2 != pc
      trap := { (d.tile s.env.unit).core.trap with
        hand := (d.tile s.env.unit).core.trap.hand.map fun h => { h with pc := next, prev := p, wait := none } } } :=
  walkTo_core_hand d ⟨s.env.unit, e, pc, true⟩ next p rfl

/-- ERET ends the handler, and every engine stands where it was frozen (R129). -/
theorem eret_ends {s : State} {pc : Dword} (h : Stands s .x pc true) (hprof : (iter s).csr.profctl = 0)
    (hroll : (iter s).trap.pendRb = none) : ∃ t, exec .eret s = .next t ∧ MemSame s t ∧ (iter t).trap.hand = none ∧
      (iter t).eng = (iter s).eng ∧ (iter t).regs = (iter s).regs ∧ (iter t).q = (iter s).q ∧ (iter t).csr = (iter s).csr := by
  refine ⟨_, exec_eret h hprof hroll, walked_memSame rfl, ?_⟩
  rw [after, iter_walked_hand, Dev.tile_onCore, if_pos rfl]
  exact ⟨rfl, rfl, rfl, rfl, rfl⟩

/-- Settles O23: in a handler by what the return leaves of the iteration (`exec_eret`), outside one by the trap of the word. -/
theorem returnFromTrap : Obligations.ReturnFromTrap := by
  refine fun s pc => ⟨eret_ends, fun h => ?_⟩
  show execEret s = _
  exact xTry_trap h rfl

/-! ### TRAP -/

theorem encode_trap (code : BitVec 12) : encode (.trap code) = some (0x18000000 ||| code.setWidth 32) := by
  refine congrArg some ?_
  rw [BitVec.append_def, BitVec.setWidth'_eq]
  rfl

/-- Another engine than M keeps the trap state when it walks a word outside a handler (R335). -/
theorem walked_trap {s : State} {pc next : Dword} {d : Dev} {e : Eng} {p : Prev} (he : e ≠ .m) :
    (iter (walked s pc d e false next p)).trap = (d.tile s.env.unit).core.trap := by
  rw [iter_walked]; exact if_neg he

/-- What a trap takes over of the iteration before it: registers, queues, CSRs, tokens and engines (R315). -/
theorem trapped_congr {b c t : TCore} {e : Eng} {pc : Dword} {code : ℕ} {i0 : Dword} (h : Claims.Trapped c t e pc code i0)
    (hundel : b.trap.undel = c.trap.undel) (hregs : b.regs = c.regs) (hq : b.q = c.q) (hcsr : b.csr = c.csr) (htok : b.tok = c.tok)
    (heng : ∀ g, ({ b.engine g with wait := none } : Engine) = { c.engine g with wait := none }) : Claims.Trapped b t e pc code i0 := by
  unfold Claims.Trapped at *
  simp only [hundel, hregs, hq, hcsr, htok, heng]; exact h

/-- TRAP goes on behind itself: a trap that finds X there, its walk counted, is one that finds it at the word (R128). -/
theorem trapped_behind {s : State} {pc i0 : Dword} {t : TCore} {code : ℕ}
    (h : Claims.Trapped (iter (walked s pc s.dev .x false (pc + 4) (.other .x))) t .x pc code i0) :
    Claims.Trapped ((iter s).onEng .x fun g => { g with pc := pc + 4, walk := g.walk + 1, prev := .other .x }) t .x pc code i0 := by
  refine trapped_congr h ?_ walked_regs.symm walked_q.symm walked_csr.symm ?_ fun g => ?_
  · rw [walked_trap (by decide)]; rfl
  · rw [iter_walked_eq]; rfl
  · rw [walked_engine, engine_onEng]; split <;> rfl

/-- TRAP with a handler to run (R128): SOFTWARE is taken with X behind the word. -/
theorem trap_taken {s : State} {pc : Dword} {code : BitVec 12} (h : Stands s .x pc false) (htvec : (iter s).csr.tvec ≠ 0)
    (hprof : (iter s).csr.profctl = 0) : ∃ t, exec (.trap code) s = .next t ∧ MemSame s t ∧
      Claims.Trapped ((iter s).onEng .x fun g => { g with pc := pc + 4, walk := g.walk + 1, prev := .other .x }) (iter t) .x pc 0x0C
        (code.setWidth 64) ∧ (iter t).trap.info1 = 0 := by
  have hcsr : (iter (walked s pc s.dev .x false (pc + 4) (.other .x))).csr = (iter s).csr := walked_csr
  have htrap : (iter (walked s pc s.dev .x false (pc + 4) (.other .x))).trap = (iter s).trap := walked_trap (by decide)
  rw [← hcsr] at htvec hprof
  have hhand := (congrArg TrapSt.hand htrap).trans (hand_none_of_ready h.2)
  obtain ⟨htrapped, hinfo⟩ := enterTrap_delivered (env := s.env) (e := .x) (pc := pc) (code := 0x0C) (i0 := code.setWidth 64) (i1 := 0)
    hhand htvec
  refine ⟨_, exec_trapWord h, fun a => ?_, trapped_behind htrapped, hinfo⟩
  exact congrArg (Memory.get a) ((enterTrap_mem _ _ _ _ _ _ _ _ _ _ hhand htvec hprof).trans (walkTo_mem ..))

/-- Settles O21: SOFTWARE is taken behind the word (`trap_taken`), and ERET leaves X there (`eret_ends`). -/
theorem trapWord : Obligations.TrapWord := by
  refine fun s pc code h htvec hprof => ⟨encode_trap code, trap_taken h htvec hprof, fun u hp hu hpc hprof hroll => ?_⟩
  obtain ⟨t, ht, -, hhand, heng, -⟩ := eret_ends hu hprof hroll
  exact ⟨t, ht, hhand, by rw [TCore.engine, heng]; exact hpc⟩

/-! ### The event queue -/

theorem setS_a (c : TCore) (r q : BitVec 5) (x : Dword) : (c.setS r x).a q = c.a q := by rw [setS_eq]; rfl

theorem s_setS_other (c : TCore) {r q : BitVec 5} (x : Dword) (h : q ≠ r) : (c.setS r x).s q = c.s q := by
  unfold TCore.s TCore.setS
  split
  · rfl
  · split
    · rfl
    · exact Vector.getElem_set_ne r.isLt q.isLt fun hrq => h (BitVec.eq_of_toNat_eq hrq.symm)

theorem encode_eventWords (d : BitVec 5) : encode (.evpop d) = some (0x12000000 + d.setWidth 32 * 0x20000) ∧
    encode (.evpeek d) = some (0x12400000 + d.setWidth 32 * 0x20000) ∧ encode (.evcnt d) = some (0x12800000 + d.setWidth 32 * 0x20000) := by
  revert d; decide

/-- The engine that has walked a word goes on behind it, the others stand (R57, R114), where the word's effect moved none. -/
theorem advanced_walked {s : State} {pc next : Dword} {d : Dev} {e : Eng} {p : Prev} {hand : Bool} (h : Stands s e pc hand)
    (heng : (d.tile s.env.unit).core.eng = (iter s).eng) (htrap : (d.tile s.env.unit).core.trap = (iter s).trap) :
    Advanced s (walked s pc d e hand next p) e hand next := by
  have hengine (g : Eng) : (d.tile s.env.unit).core.engine g = (iter s).engine g := by rw [TCore.engine, heng]; rfl
  cases hand with
  | false =>
    refine ⟨?_, ?_, ?_, fun g hg => ?_⟩ <;> rw [walked_engine]
    · rw [if_pos rfl]
    · rw [if_pos rfl, hengine]
    · rw [if_pos rfl]
    · rw [if_neg hg, hengine]
  | true =>
    obtain ⟨g, hg⟩ := Option.isSome_iff_exists.mp (ready_hand h.2).symm
    have hg' : (d.tile s.env.unit).core.trap.hand = some g := htrap ▸ hg
    rw [Advanced, if_pos rfl, iter_walked_hand, hg']
    exact ⟨heng, g, hg, _, rfl, rfl, rfl⟩

/-- The iteration with the two halves of a record in S[d] and S[d + 1]. -/
def TCore.setRec (c : TCore) (d : BitVec 5) (r : Rec16) : TCore := (c.setS d (r.extractLsb' 0 64)).setS (d + 1) (r.extractLsb' 64 64)

theorem readRec_eq (d : BitVec 5) (c : TCore) : readRec d c = c.setRec d ((c.ev.map Prod.fst).headD 0) := by
  rw [readRec, List.headD_eq_head?_getD, List.head?_map]; rfl

theorem setRec_eq (c : TCore) (d : BitVec 5) (r : Rec16) : c.setRec d r = { c with regs := (c.setRec d r).regs } := by
  rw [TCore.setRec, setS_eq, setS_eq]

theorem setRec_ev (c : TCore) (d : BitVec 5) (r : Rec16) : (c.setRec d r).ev = c.ev := by rw [setRec_eq]

/-- The registers after a record is read, with a register pair that is not reserved (R123). -/
theorem setRec_regs (c : TCore) {d : BitVec 5} (r : Rec16) (h1 : 1 ≤ d.toNat) (h30 : d.toNat ≤ 30) :
    (c.setRec d r).s d = r.extractLsb' 0 64 ∧ (c.setRec d r).s (d + 1) = r.extractLsb' 64 64 ∧
      (∀ q, q ≠ d → q ≠ d + 1 → (c.setRec d r).s q = c.s q) ∧ ∀ q, (c.setRec d r).a q = c.a q := by
  have hd : d ≠ 0 := by bv_omega
  have hd1 : d + 1 ≠ 0 := by bv_omega
  have hne : d ≠ d + 1 := by bv_omega
  unfold TCore.setRec
  refine ⟨?_, ?_, fun q hq hq1 => ?_, fun q => ?_⟩
  · rw [s_setS_other _ _ hne, s_setS_self, if_neg hd]
  · rw [s_setS_self, if_neg hd1]
  · rw [s_setS_other _ _ hq1, s_setS_other _ _ hq]
  · rw [setS_a, setS_a]

/-- An A register depends on the registers alone. -/
theorem a_congr {c e : TCore} (h : c.regs = e.regs) (r : BitVec 5) : c.a r = e.a r := by rw [TCore.a, TCore.a, h]

/-- The head record, 0 where none is held (R123). -/
def headRec (s : State) : Rec16 := ((iter s).ev.map Prod.fst).headD 0

/-- What EVPOP leaves of the device: the record in the registers and gone from the queue, and the pts of path 0 at its timestamp if that is
later (R123, R309). -/
def popped (s : State) (d : BitVec 5) : Dev :=
  setPts (s.dev.onCore s.env.unit fun c => { c.setRec d (headRec s) with ev := c.ev.tail }) (.tile s.env.unit 0)
    (dmax (getPts s.dev (.tile s.env.unit 0)) (((iter s).ev.map Prod.snd).headD 0))

theorem popped_core (s : State) (d : BitVec 5) :
    ((popped s d).tile s.env.unit).core = { (iter s).setRec d (headRec s) with ev := (iter s).ev.tail } := by
  rw [popped, (setPts_same ..).2, Dev.tile_onCore, if_pos rfl]; rfl

section
variable {s : State} {pc : Dword} {hand : Bool} {d : BitVec 5} (h : Stands s .x pc hand)
include h

/-- EVPOP (R123). -/
theorem exec_evpop : exec (.evpop d) s = .next (walked s pc (popped s d) .x hand (pc + 4) (.other .x)) := by
  have hcore : (s.dev.onCore s.env.unit fun c => { readRec d c with ev := c.ev.tail }) =
      s.dev.onCore s.env.unit fun c => { c.setRec d (headRec s) with ev := c.ev.tail } :=
    onCore_congr (by rw [readRec_eq]; rfl)
  have hts : (((s.dev.tile s.env.unit).core.ev.head?).map (·.2)).getD 0 = ((iter s).ev.map Prod.snd).headD 0 := by
    rw [List.headD_eq_head?_getD, List.head?_map]; rfl
  show execEvpop d s = _
  refine run_own h (by decide) (congrArg (Res.ok ()) ?_)
  dsimp only
  rw [hcore, hts, popped, getPts, Dev.tile_onCore, if_pos rfl]
  rfl

/-- EVPEEK (R123). -/
theorem exec_evpeek : exec (.evpeek d) s = .next (after s .x pc hand fun c => c.setRec d (headRec s)) := by
  show execEvpeek d s = _
  exact xWord_gives h (readRec_eq d _)

/-- EVCNT (R123). -/
theorem exec_evcnt : exec (.evcnt d) s = .next (after s .x pc hand fun c => c.setS d (BitVec.ofNat 64 c.ev.length)) := by
  show execEvcnt d s = _
  exact xWord_gives h rfl

/-- What a word that reads the head record leaves, by what it leaves of the iteration: the queue as it stands, the record in the registers,
all else as it was but for X behind the word (R123). -/
theorem reads_head {D : Dev} {ev : List (Rec16 × Dword)} (hmem : D.mem = s.dev.mem)
    (hcore : (D.tile s.env.unit).core = { (iter s).setRec d (headRec s) with ev := ev }) (h1 : 1 ≤ d.toNat) (h30 : d.toNat ≤ 30) :
    let t := walked s pc D .x hand (pc + 4) (.other .x)
    (iter t).ev = ev ∧ (iter t).s d = (headRec s).extractLsb' 0 64 ∧ (iter t).s (d + 1) = (headRec s).extractLsb' 64 64 ∧
      (∀ r, r ≠ d → r ≠ d + 1 → (iter t).s r = (iter s).s r) ∧ (∀ r, (iter t).a r = (iter s).a r) ∧ MemSame s t ∧
      (iter t).q = (iter s).q ∧ (iter t).csr = (iter s).csr ∧ Advanced s t .x hand (pc + 4) := by
  intro t
  obtain ⟨hlow, hhigh, hs, ha⟩ := setRec_regs (iter s) (headRec s) h1 h30
  have hregs : (iter t).regs = ((iter s).setRec d (headRec s)).regs := by rw [walked_regs, hcore]
  rw [setRec_eq] at hcore
  refine ⟨?_, (s_congr hregs d).trans hlow, (s_congr hregs (d + 1)).trans hhigh, fun r hd hd1 => (s_congr hregs r).trans (hs r hd hd1),
    fun r => (a_congr hregs r).trans (ha r), walked_memSame hmem, ?_, ?_, advanced_walked h ?_ ?_⟩
  · rw [iter_walked_eq, hcore]
  · rw [walked_q, hcore]
  · rw [walked_csr, hcore]
  · rw [hcore]
  · rw [hcore]

end

/-- Settles O6: EVPOP and EVPEEK by what they leave of the iteration (`popped_core`, `setRec_eq`), from which the rest follows
(`reads_head`). -/
theorem eventQueueWords : Obligations.EventQueueWords := by
  intro s pc hand d h
  obtain ⟨hpop, hpeek, hcnt⟩ := encode_eventWords d
  refine ⟨fun h1 h30 => ⟨⟨_, exec_evpop h, ?_, rfl⟩, _, exec_evpeek h, ?_, rfl⟩, exec_evcnt h, hpop, hpeek, hcnt, ?_⟩
  · exact reads_head h (setPts_same ..).1 (popped_core s d) h1 h30
  · refine reads_head h (D := s.dev.onCore s.env.unit fun c => c.setRec d (headRec s)) rfl ?_ h1 h30
    rw [Dev.tile_onCore, if_pos rfl, ← setRec_ev (iter s) d (headRec s)]; rfl
  · rintro (rfl | rfl) <;> decide

end Sys2Proof.Machine

namespace Sys2Proof.Machine

open Sys2Proof.Safety

/-! ### The words of X that raise flags -/

/-- S[d] written and exceptions raised (R118). -/
def TCore.setRaise (c : TCore) (d : BitVec 5) (v : Dword) (f : FFlags) : TCore :=
  { c.setS d v with csr := { c.csr with vflags := c.csr.vflags ||| f } }

theorem raise_setS (c : TCore) (d : BitVec 5) (v : Dword) (f : FFlags) : (c.setS d v).raise f = c.setRaise d v f := by
  rw [TCore.raise, setS_csr]; rfl

/-- The step of a scalar FP32 word (R118): the result in bits [31:0], zero above, the exceptions in VFLAGS. -/
theorem fWord_gives {s : State} {pc : Dword} {hand : Bool} (h : Stands s .x pc hand) {i : Instr} {d : BitVec 5}
    {f : TCore → Word × FFlags} : fWord i d f s = .next (after s .x pc hand fun c => c.setRaise d ((f c).1.setWidth 64) (f c).2) :=
  xWord_gives h (raise_setS ..)

theorem floatWordsOfX : Claims.FloatWordsOfX := by
  intro s pc hand d a b i r h hmem
  simp only [List.mem_cons, List.not_mem_nil, or_false, Prod.mk.injEq] at hmem
  rcases hmem with ⟨rfl, rfl⟩ | ⟨rfl, rfl⟩ | ⟨rfl, rfl⟩ | ⟨rfl, rfl⟩ | ⟨rfl, rfl⟩ | ⟨rfl, rfl⟩
  · show execFadd d a b s = _; exact fWord_gives h
  · show execFsub d a b s = _; exact fWord_gives h
  · show execFmul d a b s = _; exact fWord_gives h
  · show execFfma d a b s = _; exact fWord_gives h
  · show execFmin d a b s = _; exact fWord_gives h
  · show execFmax d a b s = _; exact fWord_gives h

/-! ### FCMP -/

/-- Whether two words that are no NaN are equal, as R118 gives it: the same encoding, or the two zeros. -/
def equal32 (a b : Word) : Bool := a == b || a ||| b == 0x80000000 && a &&& b == 0

theorem eq_of_sign_mag {a b : Word} (hs : a.getLsbD 31 = b.getLsbD 31) (hm : a.toNat % 2 ^ 31 = b.toNat % 2 ^ 31) : a = b := by
  have ha := a.isLt
  have hb := b.isLt
  rw [getLsbD31, getLsbD31, decide_eq_decide] at hs
  simp only [fp32] at hs
  exact BitVec.eq_of_toNat_eq (by omega)

theorem order32_inj {a b : Word} : Claims.order32 a = Claims.order32 b ↔ a = b := by
  refine ⟨fun h => ?_, fun h => h ▸ rfl⟩
  rw [order32_eq_signedOrder, order32_eq_signedOrder] at h
  have hsign : a.getLsbD 31 = b.getLsbD 31 := by
    revert h; cases a.getLsbD 31 <;> cases b.getLsbD 31 <;> simp [signedOrder] <;> omega
  refine eq_of_sign_mag hsign ?_
  rw [hsign] at h
  cases hb : b.getLsbD 31 <;> simp only [hb, signedOrder, if_true, if_false, Bool.false_eq_true] at h <;> omega

/-- A word with magnitude 0 is one of the two zeros. -/
theorem zero_of_mag {a : Word} (h : a.toNat % 2 ^ 31 = 0) : a = 0 ∨ a = 0x80000000 := by
  have := a.isLt
  rcases (show a.toNat = 0 ∨ a.toNat = 2 ^ 31 by omega) with h | h
  · exact .inl (BitVec.eq_of_toNat_eq h)
  · exact .inr (BitVec.eq_of_toNat_eq h)

theorem equal32_iff (a b : Word) : equal32 a b = true ↔
    Claims.order32 a = Claims.order32 b ∨ (a.toNat % 2 ^ 31 = 0 ∧ b.toNat % 2 ^ 31 = 0) := by
  rw [order32_inj]
  simp only [equal32, Bool.or_eq_true, Bool.and_eq_true, beq_iff_eq]
  constructor
  · rintro (h | ⟨hor, -⟩)
    · exact .inl h
    · right
      have := congrArg (fun w : Word => w.toNat % 2 ^ 31) hor
      simp only [BitVec.toNat_or, Nat.or_mod_two_pow] at this
      exact Nat.or_eq_zero_iff.mp this
  · rintro (h | ⟨ha, hb⟩)
    · exact .inl h
    · rcases zero_of_mag ha with rfl | rfl <;> rcases zero_of_mag hb with rfl | rfl <;> decide

/-- The comparisons of two words that are no NaN (R118). -/
theorem eqv_num32 {a b : Word} (ha : Claims.nan32 a = false) (hb : Claims.nan32 b = false) :
    (num32 a).eqv (num32 b) = equal32 a b := by
  rw [Bool.eq_iff_iff, (num32_compare ha hb).2, equal32_iff]

theorem lt_num32 {a b : Word} (ha : Claims.nan32 a = false) (hb : Claims.nan32 b = false) :
    (num32 a).lt (num32 b) = (!equal32 a b && decide (Claims.order32 a < Claims.order32 b)) := by
  rw [Bool.eq_iff_iff, (num32_compare ha hb).1, Bool.and_eq_true, decide_eq_true_iff, Bool.not_eq_true', ← Bool.not_eq_true, equal32_iff]
  omega

theorem equal32_comm (a b : Word) : equal32 a b = equal32 b a := by
  rw [Bool.eq_iff_iff, equal32_iff, equal32_iff, eq_comm, and_comm]

/-- A NaN is unordered (R118). -/
theorem num32_unordered {a b : Word} (h : (Claims.nan32 a || Claims.nan32 b) = true) :
    (num32 a).eqv (num32 b) = false ∧ (num32 a).lt (num32 b) = false ∧ (num32 b).lt (num32 a) = false := by
  rcases (Bool.or_eq_true _ _).mp h with h | h <;> rw [num32_nan h]
  · cases num32 b <;> exact ⟨rfl, rfl, rfl⟩
  · cases num32 a <;> exact ⟨rfl, rfl, rfl⟩

/-- The relations of FCMP (R118). -/
theorem relNum_num32 (rel : BitVec 3) (a b : Word) : relNum rel.toNat (num32 a) (num32 b) = Claims.rel32 rel a b := by
  unfold relNum Claims.rel32
  rw [← equal32]
  by_cases hun : (Claims.nan32 a || Claims.nan32 b) = true
  · obtain ⟨heq, hlt, hgt⟩ := num32_unordered hun
    rw [hun, heq, hlt, hgt]
    generalize rel.toNat = k
    rcases k with _ | _ | _ | _ | _ | k <;> rfl
  · rw [Bool.not_eq_true] at hun
    obtain ⟨ha, hb⟩ := Bool.or_eq_false_iff.mp hun
    rw [hun, eqv_num32 ha hb, lt_num32 ha hb, lt_num32 hb ha, equal32_comm b a]
    generalize rel.toNat = k
    rcases k with _ | _ | _ | _ | _ | k <;> simp

theorem relFlags_num32 (k : ℕ) (a b : Word) : relFlags k (num32 a) (num32 b) =
    if 2 ≤ k ∧ (Claims.nan32 a ∨ Claims.nan32 b) then fInvalid else 0 := by
  simp only [relFlags, fWhen, num32_isNan, Bool.and_eq_true, decide_eq_true_eq, Bool.or_eq_true]

/-! ### FCVT -/

/-- The rounding of a finite number to an integer, with its sign (R118): the nearest, ties to even; exact where it says so. -/
theorem roundAt_zero (s : Bool) (m : ℕ) (e : ℤ) {q : ℕ} {g : ℤ} {ix : Bool} (hr : roundAt .rne s m e 0 = (q, g, ix)) :
    ∃ k : ℕ, (signedAt s q g 0 : ℚ) = sgn s * k ∧ RoundsTo .rne s (m * 2 ^ e) k ∧ (ix = false ↔ (k : ℚ) = m * 2 ^ e) := by
  obtain ⟨k, hq, hk, hix, h1, h2⟩ := roundAt_spec .rne s m e 0
  rw [hr] at hq hix h1 h2
  have hg : 0 ≤ g := by
    rcases le_or_gt 0 e with he | he
    · obtain ⟨h3, -⟩ := h1 he
      rw [Prod.mk.injEq, Prod.mk.injEq] at h3
      omega
    · exact (h2 he).2.ge
  have hz := signedAt_mul s q hg
  rw [zpow_zero, mul_one] at hz hq hix
  rw [zpow_zero, div_one] at hk
  exact ⟨k, by rw [hz, hq], hk, hix⟩

/-- A number with a sign, rounded to an integer: as near as its magnitude. -/
theorem RoundsTo.signed {s : Bool} {x : ℚ} {k : ℕ} {n : ℤ} (h : RoundsTo .rne s x k) (hn : (n : ℚ) = sgn s * k) :
    |sgn s * x - n| ≤ 1 / 2 ∧ (|sgn s * x - n| = 1 / 2 → n % 2 = 0) := by
  have hdist : |sgn s * x - n| = |x - k| := by rw [hn, ← mul_sub, abs_mul, abs_sgn, one_mul]
  have hk : n = k ∨ n = -(k : ℤ) := by
    cases s
    · left; rw [sgn_false, one_mul] at hn; exact_mod_cast hn
    · right; rw [sgn_true, neg_one_mul] at hn; exact_mod_cast hn
  obtain ⟨hnear, heven⟩ := h.nearest
  rw [hdist]
  exact ⟨hnear, fun ht => by have := heven ht; omega⟩

/-- The saturation of a finite number, by its rounding (R118). -/
theorem toIntSat_fin {s : Bool} {m : ℕ} {e : ℤ} {q : ℕ} {g : ℤ} {ix : Bool} (hr : roundAt .rne s m e 0 = (q, g, ix)) :
    toIntSat 64 (.fin s m e) = if signedAt s q g 0 < -2 ^ 63 then (-2 ^ 63, fInvalid)
      else if 2 ^ 63 ≤ signedAt s q g 0 then (2 ^ 63 - 1, fInvalid) else (signedAt s q g 0, fWhen ix fInexact) := by
  simp only [toIntSat, hr]
  norm_num

/-- FCVT to=int (R118). -/
theorem toIntSat_spec (x : Word) :
    (Claims.nan32 x → (toIntSat 64 (num32 x)).1 = 0 ∧ (toIntSat 64 (num32 x)).2 = fInvalid) ∧
    (Claims.inf32 x → (toIntSat 64 (num32 x)).1 = (if x.getLsbD 31 then -2 ^ 63 else 2 ^ 63 - 1) ∧ (toIntSat 64 (num32 x)).2 = fInvalid) ∧
    (Claims.fin32 x → ∃ n : Int, |Claims.value32 x - n| ≤ 1 / 2 ∧ (|Claims.value32 x - n| = 1 / 2 → n % 2 = 0) ∧
      if -2 ^ 63 ≤ n ∧ n < 2 ^ 63 then (toIntSat 64 (num32 x)).1 = n ∧
        (toIntSat 64 (num32 x)).2 = (if (n : ℚ) = Claims.value32 x then 0 else fInexact)
      else (toIntSat 64 (num32 x)).1 = (if x.getLsbD 31 then -2 ^ 63 else 2 ^ 63 - 1) ∧ (toIntSat 64 (num32 x)).2 = fInvalid) := by
  refine ⟨fun h => by rw [num32_nan h]; exact ⟨rfl, rfl⟩, fun h => ?_, fun h => ?_⟩
  · rw [num32_inf h]
    cases x.getLsbD 31 <;> exact ⟨by decide, rfl⟩
  · obtain ⟨m, e, hx, hv⟩ := num32_fin h
    rw [hx, hv]
    generalize x.getLsbD 31 = s
    rcases hr : roundAt .rne s m e 0 with ⟨q, g, ix⟩
    obtain ⟨k, hn, hk, hix⟩ := roundAt_zero s m e hr
    obtain ⟨hnear, heven⟩ := hk.signed hn
    have hexact : ((signedAt s q g 0 : ℤ) : ℚ) = sgn s * (m * 2 ^ e) ↔ ix = false := by
      rw [hn, hix, mul_right_inj' (by cases s <;> simp)]
    have hsign : (signedAt s q g 0 < 0 → s = true) ∧ (0 < signedAt s q g 0 → s = false) := by
      cases s <;> simp [signedAt]
    refine ⟨signedAt s q g 0, hnear, heven, ?_⟩
    rw [toIntSat_fin hr]
    simp only [hexact]
    generalize signedAt s q g 0 = n at hsign
    split
    · next hin =>
      rw [if_neg (by omega), if_neg (by omega)]
      cases ix <;> exact ⟨rfl, rfl⟩
    · next hout =>
      rcases (show n < -2 ^ 63 ∨ 2 ^ 63 ≤ n by omega) with hlow | hhigh
      · rw [if_pos hlow, hsign.1 (by omega)]; exact ⟨rfl, rfl⟩
      · rw [if_neg (by omega), if_pos hhigh, hsign.2 (by omega)]; exact ⟨rfl, rfl⟩

theorem eq_sgn_natAbs (z : ℤ) : (z : ℚ) = sgn (decide (z < 0)) * ((z.natAbs : ℚ) * 2 ^ (0 : ℤ)) := by
  rw [zpow_zero, mul_one]
  rcases lt_or_ge z 0 with h | h
  · rw [decide_eq_true h, sgn_true, Nat.cast_natAbs, abs_of_neg h]; push_cast; ring
  · rw [decide_eq_false (not_lt.mpr h), sgn_false, Nat.cast_natAbs, abs_of_nonneg h, one_mul]

/-- FCVT to=fp (R118): the number rounded once, and zero for 0. -/
theorem result_ofInt (z : ℤ) :
    (z = 0 → fp32.result (.ofInt z) = (0, 0)) ∧
    (z ≠ 0 → Claims.Rounded32 z (BitVec.ofNat 32 (fp32.result (.ofInt z)).1, (fp32.result (.ofInt z)).2)) := by
  refine ⟨fun h => by rw [h]; rfl, fun h => ?_⟩
  have hr := rounded32_round (decide (z < 0)) (Int.natAbs_ne_zero.mpr h) 0
  rwa [← eq_sgn_natAbs] at hr

theorem result_lt (z : ℤ) : (fp32.result (.ofInt z)).1 < 2 ^ 32 := FFmt.conv_lt fp32_ok (by decide) (by decide) .rne false (.ofInt z)

theorem dw_eq_setWidth {n : ℕ} (h : n < 2 ^ 32) : dw n = (BitVec.ofNat 32 n).setWidth 64 := by
  apply BitVec.eq_of_toNat_eq
  rw [dw, BitVec.toNat_setWidth, toNat_ofNat32 h, BitVec.toNat_ofNat]

theorem floatCompareAndConvert : Claims.FloatCompareAndConvert := by
  intro s pc hand d a b rel h x y gives
  refine ⟨?_, ⟨(toIntSat 64 (num32 x)).1, (toIntSat 64 (num32 x)).2, ?_, toIntSat_spec x⟩, ⟨(BitVec.ofNat 32
    (fp32.result (.ofInt ((iter s).s a).toInt)).1, (fp32.result (.ofInt ((iter s).s a).toInt)).2), ?_, fun ha => ?_, fun ha => ?_⟩⟩
  · show execFcmp d a b rel s = _
    have hval : zx (if relNum rel.toNat (num32 x) (num32 y) then 1 else 0 : Word) = if Claims.rel32 rel x y then 1 else 0 := by
      rw [relNum_num32]; split <;> rfl
    exact xWord_gives h ((raise_setS ..).trans (congrArg₂ ((iter s).setRaise d) hval (relFlags_num32 rel.toNat x y)))
  · show execFcvtToInt d a s = _
    exact xWord_gives h (raise_setS ..)
  · show execFcvtToFp d a s = _
    exact xWord_gives h ((raise_setS ..).trans (congrArg ((iter s).setRaise d · _) (dw_eq_setWidth (result_lt _))))
  · rw [(result_ofInt _).1 (by rw [ha]; rfl)]; rfl
  · exact (result_ofInt _).2 fun hz => ha (BitVec.eq_of_toInt_eq hz)

/-- Settles O3: the words end with S[d] written and the exceptions raised (`xWord_gives`, `raise_setS`); FCMP by the order of the encodings
(`relNum_num32`), FCVT by the rounding to an integer (`toIntSat_spec`) and the one rounding of R15 (`rounded32_round`). -/
theorem floatWords : Obligations.FloatWords := ⟨floatWordsOfX, floatCompareAndConvert⟩

end Sys2Proof.Machine

namespace Sys2Proof.Machine

open Sys2Proof.Safety

/-! ### How a word of A ends -/

/-- A word of one engine that meets a system fault (R318). -/
theorem engineWord_sys {own : Eng} {i : Instr} {f : At → Dev → Res Unit} {skip : Eng → TCore → TCore} {env : Env} {d : Dev}
    {pc : Dword} {hand : Bool} {c : ℕ} {va : Dword} (he : env.eng = own) (hr : ready d env.unit env.eng = .go pc hand)
    (hf : f ⟨env.unit, own, pc, hand⟩ (issued d ⟨env.unit, own, pc, hand⟩) = .sys c va) :
    engineWord own i f skip env d = haltEngine env d (whoHalt d env.unit own) env.unit own pc ((encode i).getD 0) c va := by
  unfold engineWord
  subst he
  simp only [hr, if_true, hf, Res.bind, finish]

section
variable {s : State} {pc : Dword} {hand : Bool} {i : Instr} {f : Env → At → Dev → Res Unit} (h : Stands s .a pc hand)
include h

/-- A word of A whose effect is done. -/
theorem aTry_ok {d : Dev} (hf : f s.env ⟨s.env.unit, .a, pc, hand⟩ s.dev = .ok () d) :
    aTry i f s = .next (walked s pc d .a hand (pc + 4) (.other .a)) := run_own h (by decide) hf

/-- A word of A that raises a user trap (R315). -/
theorem aTry_trap {c : ℕ} {i0 i1 i2 i3 : Dword} (hf : f s.env ⟨s.env.unit, .a, pc, hand⟩ s.dev = .trap c i0 i1 i2 i3) :
    aTry i f s = .next (withDev s (enterTrap s.env s.dev s.env.unit .a pc c i0 i1 i2 i3)) :=
  run_own_trap h (by rw [found_of (by decide)]; exact hf)

/-- A word of A that waits keeps the device that its effect names. -/
theorem aTry_wait {w : Wait} {d : Dev} (hf : f s.env ⟨s.env.unit, .a, pc, hand⟩ s.dev = .wait w d) :
    aTry i f s = .next (withDev s (setWait d ⟨s.env.unit, .a, pc, hand⟩ w)) := by
  obtain ⟨he, hr⟩ := h
  rw [aTry, State.run_eq, engineWord_wait he (by rw [he]; exact hr) (by exact hf)]
  rfl

/-- A word of A that meets a system fault (R318). -/
theorem aTry_sys {c : ℕ} {va : Dword} (hf : f s.env ⟨s.env.unit, .a, pc, hand⟩ s.dev = .sys c va) :
    aTry i f s = .next (withDev s (haltEngine s.env s.dev (who s) s.env.unit .a pc ((encode i).getD 0) c va)) := by
  obtain ⟨he, hr⟩ := h
  rw [aTry, State.run_eq, engineWord_sys he (by rw [he]; exact hr) (by exact hf)]
  rfl

/-- A word of A on registers alone, by what it makes of the iteration that it finds. -/
theorem aWord_gives {f g : TCore → TCore} (hf : f (iter s) = g (iter s)) : aWord i f s = .next (after s .a pc hand g) := by
  rw [← after_congr hf]; exact run_core h (by decide)

theorem aBin_gives {d a b : BitVec 5} {op : Dword → Dword → Dword} {r : TCore → Dword}
    (hr : op ((iter s).a a) ((iter s).a b) = r (iter s)) : aBin i d a b op s = .next (after s .a pc hand fun c => c.setA d (r c)) :=
  aWord_gives h (by rw [hr])

end

/-! ### Address arithmetic (R133) -/

/-- Settles O9: every word writes its result to A[d] (`aBin_gives`), by what the model's operations are in integer arithmetic. -/
theorem addressWords : Obligations.AddressWords := by
  intro i s pc hand d a b n u r h hi
  refine ⟨?_, aWord_gives h rfl⟩
  simp only [List.mem_cons, List.not_mem_nil, or_false, Prod.mk.injEq] at hi
  rcases hi with ⟨rfl, rfl⟩ | ⟨rfl, rfl⟩ | ⟨rfl, rfl⟩ | ⟨rfl, rfl⟩ | ⟨rfl, rfl⟩ | ⟨rfl, rfl⟩ | ⟨rfl, rfl⟩ | ⟨rfl, rfl⟩ |
    ⟨rfl, rfl⟩ | ⟨rfl, rfl⟩ | ⟨rfl, rfl⟩
  · show execAadd d a b s = _; exact aBin_gives h (ofInt_toInt_add ..).symm
  · show execAsub d a b s = _; exact aBin_gives h (sub_eq_ofInt_toInt ..)
  · show execAmul d a b s = _; exact aBin_gives h (mul_eq_ofInt_toInt ..)
  · show execAshl d a b s = _; exact aBin_gives h (shiftLeft_eq_ofNat ..)
  · show execAshr d a b s = _; exact aBin_gives h (sshiftRight_eq_ofInt ..)
  · show execAand d a b s = _; exact aBin_gives h rfl
  · show execAmin d a b s = _; exact aBin_gives h rfl
  · show execAmax d a b s = _; exact aBin_gives h (larger_eq (fun _ _ => BitVec.eq_of_toInt_eq) ..)
  · show execAslt d a b s = _; exact aBin_gives h (b2d_decide _)
  · show execAshli d a n s = _; exact aWord_gives h (by rw [shiftLeft_eq_ofNat]; rfl)
  · show execAlui d u s = _; exact aWord_gives h (by rw [sx_shiftLeft_eq]; rfl)

end Sys2Proof.Machine

namespace Sys2Proof.Machine

open Sys2Proof.Safety

/-! ### Addresses and bytes -/

@[simp] theorem length_natLe (n x : ℕ) : (natLe n x).length = n := by
  induction n generalizing x with
  | zero => rfl
  | succ n ih => simp [natLe, ih]

theorem aligned_iff {va : Dword} {n : ℕ} : aligned va n = true ↔ va.toNat % n = 0 := by simp [aligned]

@[simp] theorem withDev_dev (s : State) (d : Dev) : (withDev s d).dev = d := rfl

@[simp] theorem walked_mem (s : State) (pc next : Dword) (d : Dev) (e : Eng) (hand : Bool) (p : Prev) :
    (walked s pc d e hand next p).dev.mem = d.mem := walkTo_mem ..

/-- The engine that has walked a word outside a handler goes on at the next address. -/
theorem walked_pc (s : State) (pc next : Dword) (d : Dev) (e : Eng) (p : Prev) :
    ((iter (walked s pc d e false next p)).engine e).pc = next := by rw [walked_engine, if_pos rfl]

/-- An address above bit 54 halts whoever asks for it (R130, R131). -/
theorem locate_above {env : Env} {d : Dev} {w : Who} {k : AccKind} {va : Dword} (h : 2 ^ 55 ≤ va.toNat) :
    locate env d w k va = .sys 0x20 va := by
  have h55 : va55 va = false := decide_eq_false (by omega)
  simp only [locate, translate, h55, Bool.not_false, if_true]

section
variable {env : Env} {d : Dev} {t n : ℕ} {k : AccKind} {va : Dword}

theorem aLoad_misaligned (h : va.toNat % n ≠ 0) : aLoad env t k va n d = misaligned va n := by simp [aLoad, aligned, h]

theorem aStore_misaligned {b : List Byte} (h : va.toNat % b.length ≠ 0) : aStore env t k va b d = misaligned va b.length := by
  simp [aStore, aligned, h]

theorem aLoad_aligned (h : va.toNat % n = 0) : aLoad env t k va n d =
    (locate env d (whoTile d t) k va).bind fun x d1 => tileLoad env d1 t (d1.tile t).core.csr.vfid x.2 x.1 n := by
  simp [aLoad, aligned, h]

theorem aLoad_above (h : va.toNat % n = 0) (ha : 2 ^ 55 ≤ va.toNat) : aLoad env t k va n d = .sys 0x20 va := by
  rw [aLoad_aligned h, locate_above ha]; rfl

theorem aStore_above {b : List Byte} (h : va.toNat % b.length = 0) (ha : 2 ^ 55 ≤ va.toNat) : aStore env t k va b d = .sys 0x20 va := by
  simp [aStore, aligned, h, locate_above ha, Res.bind]

end

/-! ### Addresses that no load or store can use (R130, R131) -/

section
variable {env : Env} {a : At} {d : Dev} {r b : BitVec 5} {z : MSize} {u : Bool} {o : BitVec 9}

section
variable (h : ((d.tile a.t).core.memAddr b z o).toNat % msBytes z ≠ 0)
include h

theorem ldWord_misaligned : ldWord r b z u o env a d = misaligned ((d.tile a.t).core.memAddr b z o) (msBytes z) := by
  rw [ldWord, aLoad_misaligned h]; rfl

theorem ldqWord_misaligned (hq : (d.tile a.t).core.ldq = none) :
    ldqWord 0 b z u o env a d = misaligned ((d.tile a.t).core.memAddr b z o) (msBytes z) := by
  simp only [ldqWord, hq, aLoad_misaligned h]; rfl

theorem stWord_misaligned : stWord r b z o env a d = misaligned ((d.tile a.t).core.memAddr b z o) (msBytes z) := by
  simp only [stWord]
  rw [aStore_misaligned (by rwa [length_natLe]), length_natLe]

theorem stqWord_misaligned : stqWord 1 b z o env a d = misaligned ((d.tile a.t).core.memAddr b z o) (msBytes z) := by
  simp [stqWord, aligned, h]

end

section
variable (h : ((d.tile a.t).core.memAddr b z o).toNat % msBytes z = 0) (ha : 2 ^ 55 ≤ ((d.tile a.t).core.memAddr b z o).toNat)
include h ha

theorem ldWord_above : ldWord r b z u o env a d = .sys 0x20 ((d.tile a.t).core.memAddr b z o) := by
  rw [ldWord, aLoad_above h ha]; rfl

theorem ldqWord_above (hq : (d.tile a.t).core.ldq = none) : ldqWord 0 b z u o env a d = .sys 0x20 ((d.tile a.t).core.memAddr b z o) := by
  simp only [ldqWord, hq, aLoad_above h ha]; rfl

theorem stWord_above : stWord r b z o env a d = .sys 0x20 ((d.tile a.t).core.memAddr b z o) := by
  simp only [stWord]
  rw [aStore_above (by rwa [length_natLe]) ha]

/-- STQ takes its fault whether or not q.xa holds an entry (R134). -/
theorem stqWord_above : stqWord 1 b z o env a d = .sys 0x20 ((d.tile a.t).core.memAddr b z o) := by
  simp only [stqWord, aligned_iff.mpr h, Bool.not_true, bne_self_eq_false, Bool.false_eq_true, if_false]
  split
  · rw [locate_above ha]; rfl
  · rw [aStore_above (by rwa [length_natLe]) ha]; rfl

end
end

/-- Settles O11: each of the four words checks the alignment first (`aLoad_misaligned`, `aStore_misaligned`), then asks for a translation that no
address above bit 54 has (`locate_above`). -/
theorem addressFaults : Obligations.AddressFaults := by
  intro s pc d b z u o h hq va i hi
  simp only [List.mem_cons, List.not_mem_nil, or_false] at hi
  refine ⟨fun hm => ?_, fun hm ha w hw => ?_⟩
  · rcases hi with rfl | rfl | rfl | rfl
    · exact aTry_trap h (ldWord_misaligned hm)
    · exact aTry_trap h (ldqWord_misaligned hm hq)
    · exact aTry_trap h (stWord_misaligned hm)
    · exact aTry_trap h (stqWord_misaligned hm)
  · have hg : (encode i).getD 0 = w := by rw [hw]; rfl
    rw [← hg]
    rcases hi with rfl | rfl | rfl | rfl
    · exact aTry_sys h (ldWord_above hm ha)
    · exact aTry_sys h (ldqWord_above hm ha hq)
    · exact aTry_sys h (stWord_above hm ha)
    · exact aTry_sys h (stqWord_above hm ha)

end Sys2Proof.Machine

namespace Sys2Proof.Machine

open Sys2Proof.Safety

/-! ### Loads and stores of the access engine -/

/-- What follows a done attempt. -/
theorem Res.bind_of_ok {α β : Type} {r : Res α} {f : α → Dev → Res β} {x : α} {d : Dev} (h : r = .ok x d) : r.bind f = f x d := by
  rw [h]; rfl

/-- Keeping a translation changes the translations kept and nothing else (R236). -/
theorem keepTlb_eq (env : Env) (d : Dev) (w : Who) (va : Dword) : keepTlb env d w va = { d with tlb := (keepTlb env d w va).tlb } := by
  unfold keepTlb
  split
  · rfl
  · split <;> rfl

/-- A translation that succeeds changes the translations kept and nothing else (R236). -/
theorem locate_tlb {env : Env} {d d1 : Dev} {w : Who} {k : AccKind} {va : Dword} {x : Loc × BitVec 4}
    (h : locate env d w k va = .ok x d1) : d1 = { d with tlb := d1.tlb } := by
  rw [locate_ok h]; exact keepTlb_eq ..

/-- A line of HBM waits for a token where gating is in force and the tile's bucket is empty (R269). -/
theorem payToken_eq_none {d : Dev} {t : ℕ} {loc : Loc} :
    payToken d t loc = none ↔ (∃ pa, loc = .hbm pa) ∧ (d.share (dieOfTile t)).gate = true ∧ (d.tile t).bucket = 0 := by
  cases loc with
  | hbm pa => by_cases hg : (d.share (dieOfTile t)).gate = true <;> by_cases hb : (d.tile t).bucket = 0 <;> simp [payToken, hg, hb]
  | spad u o => simp [payToken]
  | staging u o => simp [payToken]
  | port v => simp [payToken]

theorem payToken_located {env : Env} {d d1 : Dev} {w : Who} {k : AccKind} {va : Dword} {x : Loc × BitVec 4} {t : ℕ} {loc : Loc}
    (h : locate env d w k va = .ok x d1) (hp : payToken d t loc ≠ none) : payToken d1 t loc ≠ none := by
  rw [Ne, payToken_eq_none] at hp ⊢
  rw [locate_tlb h]
  exact hp

theorem branchDue_located {env : Env} {d d1 : Dev} {w : Who} {k : AccKind} {va : Dword} {x : Loc × BitVec 4}
    (h : locate env d w k va = .ok x d1) (t : ℕ) (loc : Loc) : branchDue env d1 t loc = branchDue env d t loc := by
  rw [locate_tlb h]; rfl

section
variable {env : Env} {d d1 : Dev} {t : ℕ} {k : AccKind} {va : Dword} {loc : Loc} {cls : BitVec 4}

/-- A load whose address translates, and that no L1 copy serves, gives the bytes at the home and changes no memory and no iteration
(R134, R237). -/
theorem aLoad_home {n : ℕ} (hal : va.toNat % n = 0) (hl : locate env d (whoTile d t) k va = .ok (loc, cls) d1)
    (h1 : ∀ pa, loc = .hbm pa → (d.tile t).l1Find (pa / 128) = none) (hp : payToken d t loc ≠ none) :
    ∃ d2, aLoad env t k va n d = .ok (getBytes d loc n) d2 ∧ SameCore d d2 := by
  obtain ⟨d0, h0⟩ := Option.ne_none_iff_exists'.mp (payToken_located hl hp)
  have hfind : ∀ pa, loc = .hbm pa → (d1.tile t).l1Find (pa / 128) = none := by
    rw [locate_tlb hl]; exact h1
  obtain ⟨d2, h2, hs⟩ := tileLoad_home (env := env) (vf := (d1.tile t).core.csr.vfid) (cls := cls) (n := n) hfind h0
  refine ⟨d2, ?_, (locate_same hl).trans hs⟩
  rw [aLoad_aligned hal, hl, Res.bind, h2, getBytes_congr (locate_same hl).1]

/-- A store to memory behind no packet of the tile and with its token paid is performed (R136, R268, R269). -/
theorem tileStore_done {vf : BitVec 10} {b : List Byte} (hb : branchDue env d t loc = false) (hp : payToken d t loc ≠ none) :
    ∃ d2, tileStore env d t vf cls loc b = .ok () d2 := by
  obtain ⟨d0, h0⟩ := Option.ne_none_iff_exists'.mp hp
  unfold tileStore
  rw [hb, h0]
  exact ⟨_, rfl⟩

/-- A store at an address of memory is the store at its place. -/
theorem aStore_aligned {b : List Byte} (hal : va.toNat % b.length = 0)
    (hl : locate env d (whoTile d t) { k with write := true } va = .ok (loc, cls) d1) (hport : ∀ v, loc ≠ .port v) :
    aStore env t k va b d = tileStore env d1 t (d1.tile t).core.csr.vfid cls loc b := by
  rw [aStore, aligned_iff.mpr hal, hl]
  cases loc with
  | hbm pa => rfl
  | spad u o => rfl
  | staging u o => rfl
  | port v => exact absurd rfl (hport v)

/-- A store whose address translates writes its bytes and no other byte, and changes no iteration (R134, R136). -/
theorem aStore_done {b : List Byte} (hal : va.toNat % b.length = 0)
    (hl : locate env d (whoTile d t) { k with write := true } va = .ok (loc, cls) d1) (hport : ∀ v, loc ≠ .port v)
    (hb : branchDue env d t loc = false) (hp : payToken d t loc ≠ none) :
    ∃ d2, aStore env t k va b d = .ok () d2 ∧ d2.mem = Memory.write loc.key b d.mem ∧ ∀ u, (d2.tile u).core = (d.tile u).core := by
  obtain ⟨d2, h2⟩ := tileStore_done (env := env) (d := d1) (vf := (d1.tile t).core.csr.vfid) (cls := cls) (b := b)
    (by rw [branchDue_located hl]; exact hb) (payToken_located hl hp)
  obtain ⟨hm, hc⟩ := tileStore_ok h2
  exact ⟨d2, (aStore_aligned hal hl hport).trans h2, by rw [hm, (locate_same hl).1], fun u => (hc u).trans ((locate_same hl).2 u)⟩

end

/-! ### The words that store -/

/-- A walked word that has written bytes to memory leaves the others as they were. -/
theorem outsideSame_of_write {s t : State} {k n : ℕ} {b : List Byte} (h : t.dev.mem = Memory.write k b s.dev.mem) (hn : b.length = n)
    (hw : Memory.wf s.dev.mem = true) : OutsideSame s t k n := fun a ha => by
  rw [h, Memory.get_write_outside hw (by rw [hn]; exact ha)]

section
variable {s : State} {pc : Dword} {r b : BitVec 5} {z : MSize} {o : BitVec 9} {loc : Loc} {cls : BitVec 4} {d1 : Dev}
  (h : Stands s .a pc false) (hp : payToken s.dev s.env.unit loc ≠ none) (hport : ∀ v, loc ≠ .port v)
  (hb : branchDue s.env s.dev s.env.unit loc = false)
include h hp hport hb

theorem exec_st (hal : ((iter s).memAddr b z o).toNat % msBytes z = 0)
    (hr : Reaches s { write := true, port := true } ((iter s).memAddr b z o) loc cls d1) :
    ∃ t, exec (.st r b z o) s = .next t ∧ (iter t).regs = (iter s).regs ∧ (iter t).csr = (iter s).csr ∧
      t.dev.mem = Memory.write loc.key (natLe (msBytes z) ((iter s).a r).toNat) s.dev.mem := by
  obtain ⟨d2, h2, hm, hc⟩ := aStore_done (k := { port := true }) (b := natLe (msBytes z) ((iter s).a r).toNat)
    (by rwa [length_natLe]) hr hport hb hp
  refine ⟨_, aTry_ok (f := stWord r b z o) h h2, ?_, ?_, ?_⟩
  · rw [walked_regs, hc]; rfl
  · rw [walked_csr, hc]; rfl
  · rw [walked_mem, hm]

theorem exec_stq {x : Dword} {l : List Dword} (hq : (iter s).q.xa = x :: l)
    (hal : ((iter s).memAddr b z o).toNat % msBytes z = 0)
    (hr : Reaches s { write := true, port := true } ((iter s).memAddr b z o) loc cls d1) :
    ∃ t, exec (.stq 1 b z o) s = .next t ∧ (iter t).regs = (iter s).regs ∧ (iter t).q = { (iter s).q with xa := l } ∧
      t.dev.mem = Memory.write loc.key (natLe (msBytes z) x.toNat) s.dev.mem := by
  obtain ⟨d2, h2, hm, hc⟩ := aStore_done (k := { port := true }) (b := natLe (msBytes z) x.toNat) (by rwa [length_natLe]) hr hport hb hp
  have hdone : stqWord 1 b z o s.env ⟨s.env.unit, .a, pc, false⟩ s.dev =
      .ok () (d2.onCore s.env.unit fun c => { c with q := { c.q with xa := l } }) := by
    have hq' : (s.dev.tile s.env.unit).core.q.xa = x :: l := hq
    have hal' : aligned ((s.dev.tile s.env.unit).core.memAddr b z o) (msBytes z) = true := aligned_iff.mpr hal
    simp only [stqWord, hal', hq', Bool.not_true, bne_self_eq_false, Bool.false_eq_true, if_false]
    exact Res.bind_of_ok h2
  refine ⟨_, aTry_ok (f := stqWord 1 b z o) h hdone, ?_, ?_, ?_⟩
  · rw [walked_regs, Dev.tile_onCore, if_pos rfl, hc]; rfl
  · rw [walked_q, Dev.tile_onCore, if_pos rfl, hc]; rfl
  · rw [walked_mem]; exact hm

theorem exec_tidget (hal : ((iter s).a b).toNat % 64 = 0) (hr : Reaches s { write := true } ((iter s).a b) loc cls d1) {tid : ℕ} {row : Row}
    (hrow : tidOf (iter s).tids tid = some row) (htid : tid < 256) :
    ∃ t, exec (.tidget b (BitVec.ofNat 8 tid)) s = .next t ∧ (iter t).regs = (iter s).regs ∧
      t.dev.mem = Memory.write loc.key (rowBytes row) s.dev.mem := by
  obtain ⟨d2, h2, hm, hc⟩ := aStore_done (k := {}) (b := rowBytes row) (by rwa [rowBytes, length_natLe]) hr hport hb hp
  have hdone : tidgetWord b (BitVec.ofNat 8 tid) s.env ⟨s.env.unit, .a, pc, false⟩ s.dev = .ok () d2 := by
    have hrow' : tidOf (s.dev.tile s.env.unit).core.tids (BitVec.ofNat 8 tid).toNat = some row := by
      rw [BitVec.toNat_ofNat, Nat.mod_eq_of_lt htid]; exact hrow
    have hal' : aligned ((s.dev.tile s.env.unit).core.a b) 64 = true := aligned_iff.mpr hal
    simp only [tidgetWord, hal', hrow', Bool.not_true, Bool.false_eq_true, if_false]
    exact h2
  refine ⟨_, aTry_ok (f := tidgetWord b (BitVec.ofNat 8 tid)) h hdone, ?_, ?_⟩
  · rw [walked_regs, hc]; rfl
  · rw [walked_mem, hm]

end

theorem storeWords : Claims.StoreWords := by
  intro s pc r b z o loc cls d1 h hp hport hb
  refine ⟨fun hal hr => ⟨?_, fun x l hq => ?_⟩, fun hal hr tid row hrow htid => exec_tidget h hp hport hb hal hr hrow htid⟩
  · obtain ⟨t, ht, hregs, hcsr, hm⟩ := exec_st (r := r) h hp hport hb hal hr
    exact ⟨t, ht, hregs, hcsr, hm, outsideSame_of_write hm (length_natLe ..)⟩
  · obtain ⟨t, ht, hregs, hqs, hm⟩ := exec_stq h hp hport hb hq hal hr
    exact ⟨t, ht, hregs, hqs, hm, outsideSame_of_write hm (length_natLe ..)⟩

/-! ### The tile's own scratchpad (R135, R228) -/

/-- An address of the tile's own scratchpad. -/
def ownVa (o : ℕ) : Dword := BitVec.ofNat 64 (0x7F0000000000 + o)

theorem ownVa_toNat {o : ℕ} (ho : o < 0x300000) : (ownVa o).toNat = 0x7F0000000000 + o := by
  rw [ownVa, BitVec.toNat_ofNat, Nat.mod_eq_of_lt (by omega)]

theorem ownVa_add (o n : ℕ) : ownVa o + dw n = ownVa (o + n) := by
  rw [ownVa, ownVa, dw, ← BitVec.ofNat_add, Nat.add_assoc]

/-- A tile may use a byte of its own scratchpad: the scratchpad is its VF's, and the byte's line has no uncorrectable error. -/
def OwnsByte (d : Dev) (w : Who) (o : ℕ) : Prop :=
  (d.tile w.tile).tag = some w.vf ∧ d.bad.contains (spadKey w.tile o / 128) = false

theorem locate_ownVa {env : Env} {d : Dev} {w : Who} {k : AccKind} {o : ℕ} (ht : w.tile < 640) (hk : k.fetch = false) (ho : o < 0x300000)
    (h : OwnsByte d w o) : locate env d w k (ownVa o) = .ok (.spad w.tile o, 0) d := by
  obtain ⟨htag, hbad⟩ := h
  have hn := ownVa_toNat ho
  have hin : inWindow (ownVa o) = true := by simp only [inWindow, hn, Bool.and_eq_true, decide_eq_true_eq]; omega
  have hv : va55 (ownVa o) = true := by simp only [va55, hn, decide_eq_true_eq]; omega
  have htr : translate env d w k (ownVa o) = .ok (.spad w.tile o) 0 := by
    have hlow : decide (0x7F0000000000 + o < 0x7F0000000000 + 0x300000) = true := decide_eq_true (by omega)
    have hsub : 0x7F0000000000 + o - 0x7F0000000000 = o := by omega
    simp only [translate, hv, hin, Bool.not_true, Bool.false_eq_true, if_false, if_true, windowLoc, hn, hlow, decide_eq_true ht,
      Bool.and_self, hk, hsub, htag, hbad, ne_eq, not_true_eq_false, Nat.le_add_right]
  simp only [locate, htr, keepTlb, hin, if_true]

end Sys2Proof.Machine

namespace Sys2Proof.Machine

open Sys2Proof.Safety

/-! ### Rows of the tile's own scratchpad (R135) -/

theorem quiet_bad : Quiet Dev.bad where
  tile _ _ _ _ := rfl
  slice _ _ _ := rfl
  event d t vf ev n := by rw [countEv_eq]
  rest _ _ _ _ _ _ _ _ _ _ := rfl

theorem aLoad_quiet {β : Type} {π : Dev → β} (hπ : Quiet π) (env : Env) (t : ℕ) (k : AccKind) (va : Dword) (n : ℕ) (d : Dev) :
    (aLoad env t k va n d).Keeps π d := by
  unfold aLoad
  split
  · trivial
  · exact (locate_quiet hπ ..).bind fun _ _ => tileLoad_quiet hπ ..

/-- Rows of 64 bytes, from an offset on, that a tile may use of its own scratchpad for a VF. -/
def OwnsRows (d : Dev) (w : Who) (off n : ℕ) : Prop :=
  (d.tile w.tile).tag = some w.vf ∧ ∀ i, i < n → d.bad.contains (spadKey w.tile (off + 64 * i) / 128) = false

theorem OwnsRows.byte {d : Dev} {w : Who} {off n i : ℕ} (h : OwnsRows d w off n) (hi : i < n) : OwnsByte d w (off + 64 * i) :=
  ⟨h.1, h.2 i hi⟩

theorem OwnsRows.drop {d : Dev} {w : Who} {off n : ℕ} (j : ℕ) (h : OwnsRows d w off n) : OwnsRows d w (off + 64 * j) (n - j) :=
  ⟨h.1, fun i hi => by rw [show off + 64 * j + 64 * i = off + 64 * (j + i) by omega]; exact h.2 _ (by omega)⟩

/-- Every line of such rows may be reached (R135). -/
theorem linesCheck_own {env : Env} {d : Dev} {w : Who} {k : AccKind} (ht : w.tile < 640) (hk : k.fetch = false) (f : ℕ) :
    ∀ {off n : ℕ}, off % 64 = 0 → off + 64 * n ≤ 0x300000 → OwnsRows d w off n →
      linesCheck env w k f d (ownVa off) (64 * n) = .ok () d := by
  induction f with
  | zero => intros; rfl
  | succ f ih =>
    intro off n hoff hend h
    by_cases hn : n = 0
    · simp [linesCheck, hn]
    · have hm : ∃ j, min (64 * n) (128 - (ownVa off).toNat % 128) = 64 * j ∧ 1 ≤ j ∧ j ≤ n := by
        rw [ownVa_toNat (by omega)]
        by_cases hj : off % 128 = 0 ∧ 2 ≤ n
        · exact ⟨2, by omega, by omega, by omega⟩
        · exact ⟨1, by omega, by omega, by omega⟩
      obtain ⟨j, hm, hj, hjn⟩ := hm
      have hloc : locate env d w k (ownVa off) = .ok (.spad w.tile off, 0) d :=
        locate_ownVa ht hk (by omega) (h.byte (i := 0) (by omega))
      simp only [linesCheck, if_neg (show ¬ 64 * n = 0 by omega), hm, hloc, Res.bind]
      rw [ownVa_add, show 64 * n - 64 * j = 64 * (n - j) by omega]
      exact ih (by omega) (by omega) (h.drop j)

theorem ownVa_aligned {off n : ℕ} (ho : off < 0x300000) (hn : 0x7F0000000000 % n = 0) (h : off % n = 0) : (ownVa off).toNat % n = 0 := by
  rw [ownVa_toNat ho, Nat.add_mod, hn, h, Nat.zero_add, Nat.zero_mod]

section
variable {env : Env} {d : Dev} {t off n : ℕ} (ht : t < 640) (hoff : off % 64 = 0) (hend : off + 64 * n ≤ 0x300000)
  (h : OwnsRows d (whoTile d t) off n)
include ht hoff hend h

theorem rowsCheck_own (wr : Bool) (hn : 1 ≤ n) : rowsCheck env t wr (ownVa off) n d = .ok () d := by
  rw [rowsCheck, aligned_iff.mpr (ownVa_aligned (by omega) (by decide) hoff)]
  exact linesCheck_own (w := whoTile d t) ht rfl 34 hoff hend h

/-- A row that an LDV reads. -/
theorem aLoad_ownRow {i : ℕ} (hi : i < n) : ∃ d2, aLoad env t {} (ownVa off + dw (64 * i)) 64 d =
    .ok (getBytes d (.spad t (off + 64 * i)) 64) d2 ∧ SameCore d d2 := by
  rw [ownVa_add]
  exact aLoad_home (ownVa_aligned (by omega) (by decide) (by omega)) (locate_ownVa (w := whoTile d t) ht rfl (by omega) (h.byte hi))
    nofun nofun

end

/-- The rows that an LDV has read and not yet pushed. -/
def TCore.gotRows (c : TCore) : List Row := c.ldv.getD []

/-- Row i of a tile's scratchpad from an offset on. -/
def ownRow (d : Dev) (t off i : ℕ) : Row := rowOf (Memory.read d.mem (spadKey t (off + 64 * i)) 64)

/-- What reading rows leaves of the device: memory, and of the iteration everything but the rows read (R135). -/
structure RowsRead (d e : Dev) (t : ℕ) (l : List Row) : Prop where
  mem : e.mem = d.mem
  core : (e.tile t).core = { (d.tile t).core with ldv := (e.tile t).core.ldv }
  rows : (e.tile t).core.gotRows = (d.tile t).core.gotRows ++ l

/-- LDV reads its rows in the order of their addresses. -/
theorem readRows_own {env : Env} {t off n : ℕ} (ht : t < 640) (hoff : off % 64 = 0) (hend : off + 64 * n ≤ 0x300000) :
    ∀ (m i : ℕ) (d : Dev), i + m ≤ n → OwnsRows d (whoTile d t) off n →
      ∃ e, readRows env t (ownVa off) m i d = .ok () e ∧ RowsRead d e t ((List.range' i m).map (ownRow d t off)) := by
  intro m
  induction m with
  | zero => exact fun i d _ _ => ⟨d, rfl, rfl, rfl, by simp⟩
  | succ m ih =>
    intro i d him h
    obtain ⟨d2, h2, hs⟩ := aLoad_ownRow (env := env) ht hoff hend h (i := i) (by omega)
    have htask : (d2.tile t).task = (d.tile t).task := (aLoad_quiet (quiet_task t) ..).ok h2
    have hbad : d2.bad = d.bad := (aLoad_quiet quiet_bad ..).ok h2
    have hcore : (d2.tile t).core = (d.tile t).core := hs.2 t
    have htag : (d2.tile t).tag = (d.tile t).tag := congrArg (·.2.1) htask
    let d3 := d2.onCore t fun c => { c with ldv := some (c.gotRows ++ [ownRow d t off i]) }
    have hc3 : (d3.tile t).core = { (d.tile t).core with ldv := some ((d.tile t).core.gotRows ++ [ownRow d t off i]) } := by
      rw [Dev.tile_onCore, if_pos rfl, hcore]
    have htag3 : (d3.tile t).tag = (d.tile t).tag := by
      rw [Dev.tile_onCore, if_pos rfl]; exact htag
    have howns : OwnsRows d3 (whoTile d3 t) off n := by
      refine ⟨?_, fun j hj => ?_⟩
      · show (d3.tile t).tag = some (d3.tile t).core.csr.vfid
        rw [htag3, hc3]; exact h.1
      · show d2.bad.contains _ = false
        rw [hbad]; exact h.2 j hj
    obtain ⟨e, he, hr⟩ := ih (i + 1) d3 (by omega) howns
    refine ⟨e, ?_, hr.mem.trans hs.1, ?_, ?_⟩
    · rw [readRows, h2]; exact he
    · rw [hr.core, hc3]
    · have hrow : ownRow d3 t off = ownRow d t off := by
        funext j; simp only [ownRow]; rw [show d3.mem = d.mem from hs.1]
      rw [hr.rows, hc3, hrow, List.range'_succ]
      simp [TCore.gotRows]

@[simp] theorem walked_moved (s : State) (pc next : Dword) (d : Dev) (e : Eng) (hand : Bool) (p : Prev) :
    (iter (walked s pc d e hand next p)).moved = (d.tile s.env.unit).core.moved := by rw [iter_walked_eq]

/-- The iteration with rows pushed to q.av at the end of an LDV. -/
def TCore.pushedRows (c : TCore) (l : List Row) : TCore := { c with q := { c.q with av := c.q.av ++ l }, ldv := none, moved := 0 }

theorem exec_ldv {s : State} {pc : Dword} {r : BitVec 5} {n : BitVec 7} {off : ℕ} (h : Stands s .a pc false) (ht : s.env.unit < 640)
    (h1 : 1 ≤ n.toNat) (hoff : off % 64 = 0) (hend : off + 64 * n.toNat ≤ 0x300000) (hva : (iter s).a r = ownVa off)
    (hown : OwnsRows s.dev (who s) off n.toNat) (hldv : (iter s).ldv = none) (hmoved : (iter s).moved = 0)
    (hroom : (iter s).q.av.length + n.toNat ≤ 64) :
    ∃ d, exec (.ldv 2 r n) s = .next (walked s pc d .a false (pc + 4) (.other .a)) ∧ d.mem = s.dev.mem ∧
      (d.tile s.env.unit).core = (iter s).pushedRows ((List.range n.toNat).map (ownRow s.dev s.env.unit off)) := by
  obtain ⟨d2, h2, hr⟩ := readRows_own (env := s.env) (t := s.env.unit) ht hoff hend n.toNat 0 s.dev (by omega) hown
  have hldv' : (s.dev.tile s.env.unit).core.ldv = none := hldv
  have hgot : (s.dev.tile s.env.unit).core.gotRows = [] := by rw [TCore.gotRows, hldv']; rfl
  have hrows : (d2.tile s.env.unit).core.gotRows = (List.range n.toNat).map (ownRow s.dev s.env.unit off) := by
    rw [hr.rows, hgot, List.nil_append, List.range_eq_range']
  have hlen : (d2.tile s.env.unit).core.gotRows.length = n.toNat := by rw [hrows, List.length_map, List.length_range]
  have hq : (d2.tile s.env.unit).core.q = (iter s).q := by rw [hr.core]; rfl
  have hm0 : (d2.tile s.env.unit).core.moved = 0 := by rw [hr.core]; exact hmoved
  have hall : min n.toNat (qdepth 2 - (d2.tile s.env.unit).core.qlen 2) = n.toNat := by
    have : (d2.tile s.env.unit).core.qlen 2 = (iter s).q.av.length := by rw [TCore.qlen, hq]
    rw [this]; show min n.toNat (64 - _) = _; omega
  have hpush : ((pushRows s.env.unit d2).tile s.env.unit).core = { (d2.tile s.env.unit).core with
      q := { (iter s).q with av := (iter s).q.av ++ (List.range n.toNat).map (ownRow s.dev s.env.unit off) }
      ldv := some [], moved := n.toNat } := by
    have hl : ((d2.tile s.env.unit).core.ldv.getD []).length = n.toNat := hlen
    have hd : (d2.tile s.env.unit).core.ldv.getD [] = (List.range n.toNat).map (ownRow s.dev s.env.unit off) := hrows
    rw [pushRows, Dev.tile_onCore, if_pos rfl]
    simp only [hl, hall, hq, hm0, Nat.zero_add]
    rw [List.take_of_length_le (by rw [hl]), List.drop_of_length_le (by rw [hl]), hd]
  have hdone : ldvWord 2 r n s.env ⟨s.env.unit, .a, pc, false⟩ s.dev =
      .ok () ((pushRows s.env.unit d2).onCore s.env.unit fun c => { c with ldv := none, moved := 0 }) := by
    have hva' : (s.dev.tile s.env.unit).core.a r = ownVa off := hva
    have hmv : (s.dev.tile s.env.unit).core.moved = 0 := hmoved
    simp only [ldvWord, bne_self_eq_false, Bool.false_eq_true, if_false, hva', hldv', hmv, Option.isNone_none, if_true,
      rowsCheck_own ht hoff hend hown false h1, Res.bind, Option.getD_none, List.length_nil, Nat.sub_zero, Nat.add_zero, h2, hpush]
  refine ⟨_, aTry_ok (f := ldvWord 2 r n) h hdone, hr.mem, ?_⟩
  rw [Dev.tile_onCore, if_pos rfl]
  show { ((pushRows s.env.unit d2).tile s.env.unit).core with ldv := none, moved := 0 } = _
  rw [hpush, hr.core]
  rfl

theorem rowLoads : Claims.RowLoads := by
  intro s pc r n off h ht h1 _ hoff hend hva htag hbad hldv hmoved hroom
  obtain ⟨d, hd, hm, hc⟩ := exec_ldv h ht h1 hoff hend hva ⟨htag, hbad⟩ hldv hmoved hroom
  refine ⟨_, hd, walked_memSame hm, ?_, ?_⟩
  · rw [walked_regs, hc]; rfl
  · rw [walked_q, hc]; rfl

theorem rowStores : Claims.RowStores := by
  intro s pc r n off x l h ht h1 _ hoff hend hva htag hbad hmoved hq hb
  have hown : OwnsRows s.dev (who s) off n.toNat := ⟨htag, hbad⟩
  have hva' : (s.dev.tile s.env.unit).core.a r = ownVa off := hva
  have hq' : (s.dev.tile s.env.unit).core.q.va = x :: l := hq
  have hmv : (s.dev.tile s.env.unit).core.moved + 1 = n.toNat := hmoved
  have hloc : locate s.env s.dev (who s) { write := true } (ownVa (off + 64 * (iter s).moved)) =
      .ok (.spad s.env.unit (off + 64 * (iter s).moved), 0) s.dev := locate_ownVa ht rfl (by omega) (hown.byte (by omega))
  obtain ⟨d2, h2, hm, hc⟩ := aStore_done (k := {}) (b := rowBytes x) (by
    rw [rowBytes, length_natLe]; exact ownVa_aligned (by omega) (by decide) (by omega)) hloc nofun hb nofun
  have hdone : stvWord 3 r n s.env ⟨s.env.unit, .a, pc, false⟩ s.dev = .ok () ((d2.onCore s.env.unit fun c =>
      { c with q := { c.q with va := l }, moved := c.moved + 1 }).onCore s.env.unit fun c => { c with moved := 0 }) := by
    simp only [stvWord, bne_self_eq_false, Bool.false_eq_true, if_false, hva', rowsCheck_own ht hoff hend hown true h1, Res.bind, hq',
      ownVa_add]
    rw [show aStore s.env s.env.unit {} (ownVa (off + 64 * (s.dev.tile s.env.unit).core.moved)) (rowBytes x) s.dev = _ from h2]
    simp only [hmv, Nat.lt_irrefl, if_false]
  refine ⟨_, aTry_ok (f := stvWord 3 r n) h hdone, ?_, ?_, ?_, ?_⟩
  · rw [walked_regs, Dev.tile_onCore, if_pos rfl, Dev.tile_onCore, if_pos rfl, hc]; rfl
  · rw [walked_q, Dev.tile_onCore, if_pos rfl, Dev.tile_onCore, if_pos rfl]
  · rw [walked_moved, Dev.tile_onCore, if_pos rfl]
  · rw [walked_mem]; exact hm

/-- Settles O10: a store whose address translates writes its bytes and no other (`aStore_done`); STV's last row by the check of its rows
(`rowsCheck_own`) and the store of that row. -/
theorem storeForms : Obligations.StoreForms := ⟨storeWords, rowStores⟩

end Sys2Proof.Machine

namespace Sys2Proof.Machine

open Sys2Proof.Safety

/-! ### LD, LDQ and FLAGREAD (R134, R141) -/

/-- Writing an A register changes the registers alone, by what they hold. -/
theorem setA_regs_congr {c e : TCore} (h : c.regs = e.regs) (r : BitVec 5) (x : Dword) : (c.setA r x).regs = (e.setA r x).regs := by
  unfold TCore.setA; split <;> simp [h]

section
variable {s : State} {pc : Dword} {d b : BitVec 5} {z : MSize} {u : Bool} {o : BitVec 9} {loc : Loc} {cls : BitVec 4} {d1 : Dev}
  (h : Stands s .a pc false) (hh : FromHome s loc)
include h hh

theorem exec_ld (hal : ((iter s).memAddr b z o).toNat % msBytes z = 0)
    (hr : Reaches s { port := true } ((iter s).memAddr b z o) loc cls d1) :
    ∃ t, exec (.ld d b z u o) s = .next t ∧ MemSame s t ∧
      (iter t).regs = ((iter s).setA d (extend (msBytes z) u (leNat (getBytes s.dev loc (msBytes z))))).regs ∧
      ((iter t).engine .a).pc = pc + 4 := by
  obtain ⟨h1, hp⟩ := hh
  obtain ⟨d2, h2, hs⟩ := aLoad_home hal hr h1 hp
  have hdone : ldWord d b z u o s.env ⟨s.env.unit, .a, pc, false⟩ s.dev = .ok ()
      (d2.onCore s.env.unit fun c => c.setA d (extend (msBytes z) u (leNat (getBytes s.dev loc (msBytes z))))) :=
    Res.bind_of_ok h2
  refine ⟨_, aTry_ok (f := ldWord d b z u o) h hdone, walked_memSame hs.1, ?_, walked_pc ..⟩
  rw [walked_regs, Dev.tile_onCore, if_pos rfl]
  exact congrArg (fun c : TCore => (c.setA d _).regs) (hs.2 s.env.unit)

theorem exec_ldq (hal : ((iter s).memAddr b z o).toNat % msBytes z = 0)
    (hr : Reaches s { port := true } ((iter s).memAddr b z o) loc cls d1) (hq : (iter s).ldq = none) (hroom : (iter s).q.ax.length < 16) :
    ∃ t, exec (.ldq 0 b z u o) s = .next t ∧ MemSame s t ∧ (iter t).regs = (iter s).regs ∧
      (iter t).q.ax = (iter s).q.ax ++ [extend (msBytes z) u (leNat (getBytes s.dev loc (msBytes z)))] ∧
      ((iter t).engine .a).pc = pc + 4 := by
  obtain ⟨h1, hp⟩ := hh
  obtain ⟨d2, h2, hs⟩ := aLoad_home hal hr h1 hp
  have hcore : (d2.tile s.env.unit).core = iter s := hs.2 s.env.unit
  have hdone : ldqWord 0 b z u o s.env ⟨s.env.unit, .a, pc, false⟩ s.dev = .ok () (d2.onCore s.env.unit fun c =>
      { c with q := { c.q with ax := c.q.ax ++ [extend (msBytes z) u (leNat (getBytes s.dev loc (msBytes z)))] }, ldq := none }) := by
    have hq' : (s.dev.tile s.env.unit).core.ldq = none := hq
    have hqlen : (d2.tile s.env.unit).core.qlen 0 < qdepth 0 := by rw [hcore]; exact hroom
    simp only [ldqWord, hq', bne_self_eq_false, Bool.false_eq_true, if_false]
    refine (Res.bind_of_ok h2).trans ?_
    simp only [pushAx, hqlen, if_true]
  refine ⟨_, aTry_ok (f := ldqWord 0 b z u o) h hdone, walked_memSame hs.1, ?_, ?_, walked_pc ..⟩
  · rw [walked_regs, Dev.tile_onCore, if_pos rfl, hcore]
  · rw [walked_q, Dev.tile_onCore, if_pos rfl, hcore]

theorem exec_flagread (hal : ((iter s).a b).toNat % 16 = 0) (hr : Reaches s { write := true } ((iter s).a b) loc cls d1) :
    ∃ t, exec (.flagread d b) s = .next t ∧ MemSame s t ∧
      (iter t).regs = ((iter s).setA d (BitVec.ofNat 64 (leNat (getBytes s.dev loc 8)))).regs := by
  obtain ⟨h1, hp⟩ := hh
  obtain ⟨d2, h2, hs⟩ := aLoad_home (n := 8) (by omega) hr h1 hp
  have hdone : flagreadWord d b s.env ⟨s.env.unit, .a, pc, false⟩ s.dev = .ok ()
      (d2.onCore s.env.unit fun c => c.setA d (dw (leNat (getBytes s.dev loc 8)))) := by
    have hal' : aligned ((s.dev.tile s.env.unit).core.a b) 16 = true := aligned_iff.mpr hal
    simp only [flagreadWord, hal', Bool.not_true, Bool.false_eq_true, if_false]
    exact Res.bind_of_ok h2
  refine ⟨_, aTry_ok (f := flagreadWord d b) h hdone, walked_memSame hs.1, ?_⟩
  rw [walked_regs, Dev.tile_onCore, if_pos rfl]
  exact congrArg (fun c : TCore => (c.setA d _).regs) (hs.2 s.env.unit)

end

theorem loadWords : Claims.LoadWords := by
  intro s pc d b z u o loc cls d1 h hh
  exact ⟨fun hal hr => ⟨exec_ld h hh hal hr, fun hq hroom => exec_ldq h hh hal hr hq hroom⟩, fun hal hr => exec_flagread h hh hal hr⟩

/-! ### PREF (R134) -/

/-- The lines of the set of an address in its home slice. -/
def Dev.setLines (env : Env) (d : Dev) (pa : ℕ) : List L2Line := (d.slice (sliceOf env.caps pa)).sets.get [] (setOf pa)

/-- The line of an address is in its home slice (R238). -/
def Dev.holdsLine (env : Env) (d : Dev) (pa : ℕ) : Prop := ∃ y ∈ d.setLines env pa, y.line = pa / 128

theorem setLines_congr {d e : Dev} (h : e.slices = d.slices) (env : Env) (pa : ℕ) : e.setLines env pa = d.setLines env pa := by
  rw [Dev.setLines, Dev.setLines, Dev.slice, Dev.slice, h]

theorem holdsLine_congr {d e : Dev} {env : Env} {pa : ℕ} (h : e.slices = d.slices) (hd : d.holdsLine env pa) : e.holdsLine env pa := by
  rw [Dev.holdsLine, setLines_congr h]; exact hd

theorem Dev.setLines_setSlice (env : Env) (d : Dev) (pa : ℕ) (y : Slice) :
    (d.setSlice (sliceOf env.caps pa) y).setLines env pa = y.sets.get [] (setOf pa) := by
  simp only [Dev.setLines, Dev.slice, Dev.setSlice, NMap.get_set_same]

/-- A line that is touched stands in its slice, where it stood there or a way could be taken for it (R238, R240). -/
theorem holdsLine_l2Touch {env : Env} {d : Dev} (t : ℕ) {pa : ℕ} (vf : BitVec 10) {cls : BitVec 4}
    (h : d.holdsLine env pa ∨ fillWay (d.slice (sliceOf env.caps pa)) cls (d.setLines env pa) ≠ none) :
    (l2Touch env d t pa vf cls true).2.2.holdsLine env pa := by
  unfold l2Touch
  dsimp only
  split
  · next l hl =>
    refine ⟨l, ?_, by simpa using List.find?_some hl⟩
    rw [Dev.setLines_setSlice, NMap.get_set_same]
    exact List.mem_cons_self
  · next hl =>
    have hnot : ¬ d.holdsLine env pa := fun ⟨y, hy, hline⟩ => by
      have := List.find?_eq_none.mp hl y hy
      simp [hline] at this
    obtain ⟨w, hw⟩ := Option.ne_none_iff_exists'.mp (h.resolve_left hnot)
    rw [show fillWay (d.slice (sliceOf env.caps pa)) cls ((d.slice (sliceOf env.caps pa)).sets.get [] (setOf pa)) = some w from hw]
    dsimp only
    refine holdsLine_congr (d := d.setSlice (sliceOf env.caps pa) _) (by rw [countEv_eq]) ?_
    rw [Dev.holdsLine, Dev.setLines_setSlice, NMap.get_set_same, if_pos rfl]
    exact ⟨_, List.mem_cons_self, rfl⟩

/-- New timestamps of a line move no line. -/
theorem holdsLine_l2Set {env : Env} {d : Dev} {pa : ℕ} (kept : Bool) (wts rts : Dword) (h : d.holdsLine env pa) :
    (l2Set env d pa kept wts rts).holdsLine env pa := by
  obtain ⟨y, hy, hline⟩ := h
  unfold l2Set
  dsimp only
  split
  · refine ⟨{ y with wts := wts, rts := rts }, ?_, hline⟩
    rw [Dev.setLines_setSlice, NMap.get_set_same]
    exact List.mem_map.mpr ⟨y, hy, by simp [hline]⟩
  · exact ⟨y, by rw [Dev.setLines_setSlice]; exact hy, hline⟩

theorem setPts_stamp (d : Dev) (x y : Dword) : setPts d (.stamp x) y = d := rfl

theorem holdsLine_loadTs_stamp {env : Env} {d : Dev} {x : Dword} {pa : ℕ} {vf : BitVec 10} {cls : BitVec 4}
    (h : d.holdsLine env pa ∨ fillWay (d.slice (sliceOf env.caps pa)) cls (d.setLines env pa) ≠ none) :
    (loadTs env d (.stamp x) vf cls true (.hbm pa)).1.holdsLine env pa :=
  holdsLine_l2Set _ _ _ (holdsLine_l2Touch _ vf h)

/-- A copy that is put in L1 is found there (R237). -/
theorem l1Find_l1Put (y : Tile) (k : ℕ) (c : L1Copy) : (y.l1Put k c).l1Find c.line = some c := by
  have hcons : ∃ r, (y.l1Put k c).l1 = c :: r := by
    unfold Tile.l1Put
    dsimp only
    split
    · exact ⟨_, rfl⟩
    · split <;> exact ⟨_, rfl⟩
  obtain ⟨r, hr⟩ := hcons
  simp [Tile.l1Find, hr]

/-- What a tile has copied does not depend on a word that it walks. -/
theorem walked_l1Find (s : State) (pc next : Dword) (d : Dev) (e : Eng) (hand : Bool) (p : Prev) (line : ℕ) :
    (unitTile (walked s pc d e hand next p)).l1Find line = (d.tile s.env.unit).l1Find line := by
  have h : unitTile (walked s pc d e hand next p) = { d.tile s.env.unit with
      core := iter (walked s pc d e hand next p), dbg := (unitTile (walked s pc d e hand next p)).dbg } :=
    walkTo_tile d ⟨s.env.unit, e, pc, hand⟩ next p
  rw [h]; rfl

theorem walkTo_slices (d : Dev) (a : At) (next : Dword) (p : Prev) : (walkTo d a next p).slices = d.slices := by rw [walkTo_eq]

section
variable {env : Env} {a : At} {d : Dev} {l b : BitVec 5} {z : MSize} {o : BitVec 9}

theorem prefWord_misaligned (h : ((d.tile a.t).core.memAddr b z o).toNat % msBytes z ≠ 0) : prefWord l b z o env a d = .ok () d := by
  simp [prefWord, aligned, h]

theorem prefWord_fault {c : ℕ} (h : translate env d (whoTile d a.t) {} ((d.tile a.t).core.memAddr b z o) = .fault c) :
    prefWord l b z o env a d = .ok () d := by
  simp only [prefWord, h]
  split <;> rfl

theorem prefWord_hbm {pa : ℕ} {cls : BitVec 4} (hal : ((d.tile a.t).core.memAddr b z o).toNat % msBytes z = 0)
    (h : translate env d (whoTile d a.t) {} ((d.tile a.t).core.memAddr b z o) = .ok (.hbm pa) cls) :
    prefWord l b z o env a d =
      prefLine env a.t (l == 0) cls pa (keepTlb env d (whoTile d a.t) ((d.tile a.t).core.memAddr b z o)) := by
  simp only [prefWord, h, aligned_iff.mpr hal, Bool.not_true, Bool.false_eq_true, if_false]

end

/-- What a tile's PREF of a line leaves: memory and every iteration; the line in its home slice, where it stood there or a way could be taken
for it; and a copy in L1 where the word asks for one. -/
theorem prefLine_done {env : Env} {d d0 : Dev} {t pa : ℕ} (l1 : Bool) {cls : BitVec 4} (hp : payToken d t (.hbm pa) = some d0) :
    ∃ e, prefLine env t l1 cls pa d = .ok () e ∧ SameCore d e ∧
      (l1 = true → ((e.tile t).l1Find (pa / 128)).map (·.val) = some (BitVec.ofNat 1024 (leNat (Memory.read d.mem (pa / 128 * 128) 128)))) ∧
      (d0.holdsLine env pa ∨ fillWay (d0.slice (sliceOf env.caps pa)) cls (d0.setLines env pa) ≠ none → e.holdsLine env pa) := by
  have hs := payToken_same hp
  rw [prefLine, hp]
  cases l1 with
  | true =>
    have h1 := hs.trans (loadTs_same env d0 (.stamp (getPts d0 (.tile t 0))) (d0.tile t).core.csr.vfid cls true (.hbm pa))
    refine ⟨_, rfl, h1.trans (SameCore.onTile _ t _ fun _ => l1Put_core ..), fun _ => ?_, fun h => ?_⟩
    · rw [Dev.tile_onTile, if_pos rfl, l1Find_l1Put, ← h1.1]
      rfl
    · exact holdsLine_congr rfl (holdsLine_loadTs_stamp h)
  | false => exact ⟨_, rfl, hs.trans (l2Touch_same ..), nofun, holdsLine_l2Touch t _⟩

theorem payToken_slices {d e : Dev} {t : ℕ} {loc : Loc} (h : payToken d t loc = some e) : e.slices = d.slices := by
  cases loc with
  | hbm pa =>
    simp only [payToken] at h
    split at h
    · split at h
      · cases h
      · cases h; rfl
    · cases h; rfl
  | spad u o => cases h; rfl
  | staging u o => cases h; rfl
  | port v => cases h; rfl

theorem after_id (s : State) (e : Eng) (pc : Dword) (hand : Bool) :
    (after s e pc hand fun c => c) = walked s pc s.dev e hand (pc + 4) (.other e) :=
  congrArg (withDev s) (walkTo_onCore_id s.dev ⟨s.env.unit, e, pc, hand⟩ (pc + 4) (.other e))

theorem prefetch : Claims.Prefetch := by
  intro s pc l b z o h va
  refine ⟨fun hf => ?_, fun pa cls hal htr hp => ?_⟩
  · have hdone : prefWord l b z o s.env ⟨s.env.unit, .a, pc, false⟩ s.dev = .ok () s.dev := by
      rcases hf with hm | ⟨c, hc⟩
      · exact prefWord_misaligned (d := s.dev) hm
      · exact prefWord_fault (d := s.dev) hc
    rw [after_id]
    exact aTry_ok (f := prefWord l b z o) h hdone
  · have hloc : locate s.env s.dev (who s) {} va = .ok (.hbm pa, cls) (keepTlb s.env s.dev (who s) va) := by rw [locate, htr]
    obtain ⟨d0, h0⟩ := Option.ne_none_iff_exists'.mp (payToken_located hloc hp)
    obtain ⟨e, he, hs, hl1, hhold⟩ := prefLine_done (env := s.env) (l == 0) (cls := cls) h0
    have hs := (locate_same hloc).trans hs
    have hsl : d0.slices = s.dev.slices := by rw [payToken_slices h0, keepTlb_eq]
    have hdone : prefWord l b z o s.env ⟨s.env.unit, .a, pc, false⟩ s.dev = .ok () e := by
      rw [prefWord_hbm (a := ⟨s.env.unit, .a, pc, false⟩) (d := s.dev) hal htr]; exact he
    refine ⟨_, aTry_ok (f := prefWord l b z o) h hdone, walked_memSame hs.1, ?_, fun hl => ?_, fun hk => ?_⟩
    · rw [walked_regs, hs.2]; rfl
    · rw [walked_l1Find, hl1 (by rw [hl]; rfl), (locate_same hloc).1]
    · refine holdsLine_congr (walkTo_slices ..) (hhold ?_)
      rw [Dev.holdsLine, setLines_congr hsl, Dev.slice, hsl]
      exact hk

/-- Settles O12: a load gives the bytes at the home of its place (`aLoad_home`); LDV reads its rows in order (`readRows_own`) and pushes them;
PREF brings its line (`prefLine_done`). -/
theorem loadForms : Obligations.LoadForms := ⟨loadWords, rowLoads, prefetch⟩

end Sys2Proof.Machine

namespace Sys2Proof.Machine

open Sys2Proof.Safety

/-! ### Atomics (R137, R138) -/

@[simp] theorem length_getBytes (d : Dev) (loc : Loc) (n : ℕ) : (getBytes d loc n).length = n := by
  cases loc <;> simp [getBytes]

/-- Bytes, as a number. -/
theorem leNat_lt (l : List Byte) : leNat l < 256 ^ l.length := by
  induction l with
  | nil => simp [leNat]
  | cons b r ih =>
    have hb := b.isLt
    rw [leNat, List.length_cons, pow_succ]
    omega

theorem leNat_getBytes_lt (d : Dev) (loc : Loc) (n : ℕ) : leNat (getBytes d loc n) < 256 ^ n := by
  simpa using leNat_lt (getBytes d loc n)

/-- Bytes of an atomic's value. -/
def amoBytes (wide : Bool) : ℕ := if wide then 8 else 4

/-- What memory holds after an atomic's step. -/
def amoMem (m : List Host.Cell) (loc : Loc) (n : ℕ) : Option ℕ → List Host.Cell
  | some x => Memory.write loc.key (natLe n x) m
  | none => m

/-- An atomic word: the old value to the register, what it makes of it to memory. -/
theorem exec_amo {s : State} {pc : Dword} {i : Instr} {d a : BitVec 5} {w : Bool} {g : TCore → ℕ → Option ℕ} {loc : Loc} {cls : BitVec 4}
    {d1 : Dev} (h : Stands s .a pc false) (hal : ((iter s).a a).toNat % amoBytes w = 0)
    (hr : Reaches s { write := true } ((iter s).a a) loc cls d1) :
    ∃ t, aTry i (amoWord d a w g) s = .next t ∧
      (iter t).regs = ((iter s).setA d (extend (amoBytes w) false (leNat (getBytes s.dev loc (amoBytes w))))).regs ∧
      t.dev.mem = amoMem s.dev.mem loc (amoBytes w) (g (iter s) (leNat (getBytes s.dev loc (amoBytes w)))) := by
  obtain ⟨d2, h2, hm, hc⟩ := tileAtomic_eq s.env d1 s.env.unit (iter s).csr.vfid cls loc (amoBytes w)
    fun b => (g (iter s) (leNat b)).map (natLe (amoBytes w))
  have hmem : d2.mem = amoMem s.dev.mem loc (amoBytes w) (g (iter s) (leNat (getBytes s.dev loc (amoBytes w)))) := by
    rw [hm, getBytes_congr (locate_same hr).1, (locate_same hr).1]
    cases g (iter s) (leNat (getBytes s.dev loc (amoBytes w))) <;> rfl
  rw [getBytes_congr (locate_same hr).1] at h2
  have hcore : (d2.tile s.env.unit).core = iter s := (hc _).trans ((locate_same hr).2 _)
  have hdone : amoWord d a w g s.env ⟨s.env.unit, .a, pc, false⟩ s.dev = .ok ()
      (d2.onCore s.env.unit fun c => c.setA d (extend (amoBytes w) false (leNat (getBytes s.dev loc (amoBytes w))))) := by
    have hal' : aligned ((s.dev.tile s.env.unit).core.a a) (if w then 8 else 4) = true := aligned_iff.mpr hal
    simp only [amoWord, hal', Bool.not_true, Bool.false_eq_true, if_false]
    exact (Res.bind_of_ok hr).trans (Res.bind_of_ok h2)
  refine ⟨_, aTry_ok (f := amoWord d a w g) h hdone, ?_, ?_⟩
  · rw [walked_regs, Dev.tile_onCore, if_pos rfl, hcore]
  · rw [walked_mem]; exact hmem

theorem cutTo_eq (w : Bool) (x : Dword) : cutTo w x = x.toNat % 2 ^ (8 * amoBytes w) := by
  cases w
  · rfl
  · exact (Nat.mod_eq_of_lt x.isLt).symm

theorem amoAdd_eq (w : Bool) (x y : ℕ) : amoAdd w x y = (x + y) % 2 ^ (8 * amoBytes w) := by cases w <;> rfl

theorem signedOf_eq (w : Bool) (x : ℕ) : signedOf w x = (BitVec.ofNat (8 * amoBytes w) x).toInt := by cases w <;> rfl

/-- A value of a width is known by its signed reading. -/
theorem signedOf_inj {w : Bool} {x y : ℕ} (hx : x < 2 ^ (8 * amoBytes w)) (hy : y < 2 ^ (8 * amoBytes w)) (h : signedOf w x = signedOf w y) :
    x = y := by
  rw [signedOf_eq, signedOf_eq] at h
  have := congrArg BitVec.toNat (BitVec.eq_of_toInt_eq h)
  rwa [BitVec.toNat_ofNat, BitVec.toNat_ofNat, Nat.mod_eq_of_lt hx, Nat.mod_eq_of_lt hy] at this

/-- The larger of two values as signed numbers, whichever is compared first. -/
theorem amoMinMax_one {w : Bool} {x y : ℕ} (hx : x < 2 ^ (8 * amoBytes w)) (hy : y < 2 ^ (8 * amoBytes w)) :
    amoMinMax w 1 x y = if signedOf w x ≤ signedOf w y then y else x := by
  show (if signedOf w y ≤ signedOf w x then x else y) = _
  split
  · next h =>
    split
    · next h' => exact signedOf_inj hx hy (le_antisymm h' h)
    · rfl
  · next h => rw [if_pos (by omega)]

theorem old_lt {d : Dev} {loc : Loc} {w : Bool} : leNat (getBytes d loc (amoBytes w)) < 2 ^ (8 * amoBytes w) := by
  have := leNat_getBytes_lt d loc (amoBytes w)
  rwa [show 256 = 2 ^ 8 from rfl, ← pow_mul] at this

section
variable {s : State} {pc : Dword} {i : Instr} {d a : BitVec 5} {w : Bool} {g : TCore → ℕ → Option ℕ} {loc : Loc} {cls : BitVec 4} {d1 : Dev}
  (h : Stands s .a pc false) (hr : Reaches s { write := true } ((iter s).a a) loc cls d1)
include h hr

/-- An atomic word as the statement puts it: by what it makes of the old value. -/
theorem aTry_amo {n old : ℕ} {r : Option ℕ} (hn : n = amoBytes w) (hal : ((iter s).a a).toNat % n = 0) (hold : old = leNat (getBytes s.dev loc n))
    (hg : g (iter s) old = r) :
    ∃ t, aTry i (amoWord d a w g) s = .next t ∧ (iter t).regs = ((iter s).setA d (extend n false old)).regs ∧
      (∀ x, r = some x → t.dev.mem = Memory.write loc.key (natLe n x) s.dev.mem ∧
        (Memory.wf s.dev.mem = true → OutsideSame s t loc.key n)) ∧ (r = none → t.dev.mem = s.dev.mem) := by
  subst hn hold hg
  obtain ⟨t, ht, hregs, hm⟩ := exec_amo (i := i) (d := d) (g := g) h hal hr
  refine ⟨t, ht, hregs, fun x hx => ?_, fun hx => ?_⟩
  · rw [hx] at hm
    exact ⟨hm, outsideSame_of_write hm (length_natLe ..)⟩
  · rw [hm, hx]; rfl

end

theorem atomicWords : Claims.AtomicWords := by
  intro i s pc d a b loc cls d1 g n old w h hr hal hold k y sg hi
  have hy (r : BitVec 5) : cutTo w ((iter s).a r) = y r := cutTo_eq ..
  have hsg (x : ℕ) : signedOf w x = sg x := signedOf_eq ..
  have hyb : y b < 2 ^ (8 * amoBytes w) := Nat.mod_lt _ (Nat.two_pow_pos _)
  simp only [List.mem_cons, List.not_mem_nil, or_false, Prod.mk.injEq] at hi
  rcases hi with ⟨rfl, rfl, hn⟩ | ⟨rfl, rfl, hn⟩ | ⟨rfl, rfl, hn⟩ | ⟨rfl, rfl, hn⟩ | ⟨rfl, rfl, hn⟩ | ⟨rfl, rfl, hn⟩ | ⟨rfl, rfl, hn⟩ |
    ⟨rfl, rfl, hn⟩ | ⟨rfl, rfl, hn⟩ | ⟨rfl, rfl, hn⟩ | ⟨rfl, rfl, hn⟩
  · show ∃ t, execAmoadd d a b w s = _ ∧ _
    exact aTry_amo h hr hn hal hold (by rw [amoAdd_eq, hy]; rfl)
  · show ∃ t, execAmoswap d a b w s = _ ∧ _
    exact aTry_amo h hr hn hal hold (by rw [hy])
  · show ∃ t, execAmocas d a b w s = _ ∧ _
    exact aTry_amo h hr hn hal hold (by rw [hy, hy])
  · show ∃ t, execAmologic d a b w 0 s = _ ∧ _
    exact aTry_amo h hr hn hal hold (by rw [hy]; rfl)
  · show ∃ t, execAmologic d a b w 1 s = _ ∧ _
    exact aTry_amo h hr hn hal hold (by rw [hy]; rfl)
  · show ∃ t, execAmologic d a b w 2 s = _ ∧ _
    exact aTry_amo h hr hn hal hold (by rw [hy]; rfl)
  · show ∃ t, execAmominmax d a b w 0 s = _ ∧ _
    refine aTry_amo h hr hn hal hold ?_
    show some (amoMinMax w 0 old (cutTo w ((iter s).a b))) = some (if sg old ≤ sg (y b) then old else y b)
    rw [hy, ← hsg, ← hsg]
    rfl
  · show ∃ t, execAmominmax d a b w 1 s = _ ∧ _
    have ho : old < 2 ^ (8 * amoBytes w) := by rw [hold, hn]; exact old_lt
    refine aTry_amo h hr hn hal hold ?_
    show some (amoMinMax w 1 old (cutTo w ((iter s).a b))) = some (if sg old ≤ sg (y b) then y b else old)
    rw [hy, amoMinMax_one ho hyb, hsg, hsg]
  · show ∃ t, execAmominmax d a b w 2 s = _ ∧ _
    exact aTry_amo h hr hn hal hold (by rw [hy]; rfl)
  · show ∃ t, execAmominmax d a b w 3 s = _ ∧ _
    exact aTry_amo h hr hn hal hold (by rw [hy]; rfl)
  · show ∃ t, execAmofadd d a b s = _ ∧ _
    refine aTry_amo h hr hn hal hold ?_
    show some (f32Add _ (BitVec.ofNat 32 (((iter s).a b).toNat % 2 ^ 32))).1.toNat = _
    rw [show BitVec.ofNat 32 (((iter s).a b).toNat % 2 ^ 32) = ((iter s).a b).setWidth 32 from BitVec.eq_of_toNat_eq (by simp)]

theorem atomicMinMaxSigned : Claims.AtomicMinMaxSigned := by
  intro s pc d a b loc cls d1 old h hr hal hold
  have hy : cutTo false ((iter s).a b) = (((iter s).a b).setWidth 32).toNat := by simp [cutTo]
  have hsg (x : BitVec 32) : signedOf false x.toNat = x.toInt := by simp [signedOf]
  have hmin (x y : BitVec 32) : amoMinMax false 0 x.toNat y.toNat = (if x.toInt ≤ y.toInt then x else y).toNat := by
    show (if signedOf false x.toNat ≤ signedOf false y.toNat then x.toNat else y.toNat) = _
    rw [hsg, hsg, apply_ite BitVec.toNat]
  have hmax (x y : BitVec 32) : amoMinMax false 1 x.toNat y.toNat = (if x.toInt ≤ y.toInt then y else x).toNat := by
    rw [amoMinMax_one (w := false) x.isLt y.isLt, hsg, hsg, apply_ite BitVec.toNat]
  refine ⟨?_, ?_⟩
  · obtain ⟨t, ht, _, hm⟩ := exec_amo (i := .amominmax d a b false 0) (d := d) (w := false)
      (g := fun c x => some (amoMinMax false 0 x (cutTo false (c.a b)))) h hal hr
    refine ⟨t, ht, hm.trans ?_⟩
    rw [hy]
    rw [show leNat (getBytes s.dev loc (amoBytes false)) = old.toNat from hold.symm, hmin]
    rfl
  · obtain ⟨t, ht, _, hm⟩ := exec_amo (i := .amominmax d a b false 1) (d := d) (w := false)
      (g := fun c x => some (amoMinMax false 1 x (cutTo false (c.a b)))) h hal hr
    refine ⟨t, ht, hm.trans ?_⟩
    rw [hy]
    rw [show leNat (getBytes s.dev loc (amoBytes false)) = old.toNat from hold.symm, hmax]
    rfl

/-- Settles O13: every atomic is one step at the home (`exec_amo`), by what the model's new value is in numbers (`amoAdd_eq`, `amoMinMax_one`,
`cutTo_eq`). -/
theorem atomicForms : Obligations.AtomicForms := ⟨atomicWords, atomicMinMaxSigned⟩

end Sys2Proof.Machine

namespace Sys2Proof.Machine

open Sys2Proof.Safety

/-! ### The tensor table and the privileged words (R162, R163) -/

@[simp] theorem walked_tids (s : State) (pc next : Dword) (d : Dev) (e : Eng) (hand : Bool) (p : Prev) :
    (iter (walked s pc d e hand next p)).tids = (d.tile s.env.unit).core.tids := by rw [iter_walked_eq]

theorem walkTo_tlb (d : Dev) (a : At) (next : Dword) (p : Prev) : (walkTo d a next p).tlb = d.tlb := by rw [walkTo_eq]

@[simp] theorem walked_tlb (s : State) (pc next : Dword) (d : Dev) (e : Eng) (hand : Bool) (p : Prev) :
    (walked s pc d e hand next p).dev.tlb = d.tlb := walkTo_tlb ..

/-- An entry of the tensor table that has been written. -/
theorem vset_getElem? (v : Vector (Option Row) 256) (tid : BitVec 8) (x : Option Row) : (vset v tid.toNat x)[tid.toNat]? = some x := by
  rw [vset, Vector.getElem?_setIfInBounds_self, if_pos tid.isLt]

section
variable {s : State} {pc : Dword} {a : BitVec 5} {tid : BitVec 8} (h : Stands s .a pc false)
include h

theorem exec_tidset {loc : Loc} {cls : BitVec 4} {d1 : Dev} (htid : tid ≠ 0) (hal : ((iter s).a a).toNat % 64 = 0)
    (hr : Reaches s {} ((iter s).a a) loc cls d1) (hh : FromHome s loc) (hc : tidCheck tid (rowOf (getBytes s.dev loc 64)) = 0) :
    ∃ t, exec (.tidset a tid) s = .next t ∧ MemSame s t ∧ (iter t).tids[tid.toNat]? = some (some (rowOf (getBytes s.dev loc 64))) := by
  obtain ⟨h1, hp⟩ := hh
  obtain ⟨d2, h2, hs⟩ := aLoad_home hal hr h1 hp
  have hdone : tidsetWord a tid s.env ⟨s.env.unit, .a, pc, false⟩ s.dev = .ok () (d2.onCore s.env.unit fun c =>
      { c with tids := vset c.tids tid.toNat (some (rowOf (getBytes s.dev loc 64))) }) := by
    have hal' : aligned ((s.dev.tile s.env.unit).core.a a) 64 = true := aligned_iff.mpr hal
    simp only [tidsetWord, hal', htid, Bool.not_true, Bool.false_eq_true, if_false]
    refine (Res.bind_of_ok h2).trans ?_
    simp only [hc, bne_self_eq_false, Bool.false_eq_true, if_false]
  refine ⟨_, aTry_ok (f := tidsetWord a tid) h hdone, walked_memSame hs.1, ?_⟩
  rw [walked_tids, Dev.tile_onCore, if_pos rfl]
  exact vset_getElem? ..

theorem exec_tidinv (htid : tid ≠ 0) :
    ∃ t, exec (.tidinv tid) s = .next t ∧ MemSame s t ∧ (iter t).tids[tid.toNat]? = some none := by
  have hdone : tidinvWord tid s.env ⟨s.env.unit, .a, pc, false⟩ s.dev =
      .ok () (s.dev.onCore s.env.unit fun c => { c with tids := vset c.tids tid.toNat none }) := if_neg htid
  refine ⟨_, aTry_ok (f := tidinvWord tid) h hdone, walked_memSame rfl, ?_⟩
  rw [walked_tids, Dev.tile_onCore, if_pos rfl]
  exact vset_getElem? ..

/-- With privilege TLBINV takes the translations of its scope out of every structure (R163). -/
theorem exec_tlbinv (hp : privileged s.dev s.env.unit = true) (sc : BitVec 7) : ∃ t, exec (.tlbinv a sc) s = .next t ∧
    t.dev.tlb = s.dev.tlb.filter fun e => !(if sc = 0 then e.covers (iter s).csr.asid ((iter s).a a)
      else if sc = 1 then e.asid == (iter s).csr.asid else true) := by
  have hdone : tlbinvWord a sc s.env ⟨s.env.unit, .a, pc, false⟩ s.dev = .ok () { s.dev with tlb := s.dev.tlb.filter fun e =>
      !(if sc = 0 then e.covers (iter s).csr.asid ((iter s).a a) else if sc = 1 then e.asid == (iter s).csr.asid else true) } := by
    simp only [tlbinvWord, hp, Bool.not_true, Bool.false_eq_true, if_false]
    rfl
  exact ⟨_, aTry_ok (f := tlbinvWord a sc) h hdone, walked_tlb ..⟩

theorem exec_tlbinv_refused (hp : privileged s.dev s.env.unit = false) (sc : BitVec 7) :
    exec (.tlbinv a sc) s = .next (withDev s (enterTrap s.env s.dev s.env.unit .a pc 0x0D 0 0 0 0)) :=
  aTry_trap (f := tlbinvWord a sc) h (by simp only [tlbinvWord, hp, Bool.not_false, if_true])

/-- The iteration whose words beyond the present walk count have another ASID (R163). -/
def TCore.withAsid (c : TCore) (x : Dword) : TCore :=
  { c with csr := { c.csr with asid := x.setWidth 16 }, asids := ((c.engine .a).walk, c.csr.asid) :: c.asids
           asidDue := c.asidDue.filter (· != (c.engine .a).walk) }

theorem exec_asidset (hp : privileged s.dev s.env.unit = true) (hlt : ((iter s).a a).toNat < 2 ^ 16) :
    exec (.asidset a) s = .next (after s .a pc false fun c => c.withAsid (c.a a)) := by
  have hdone : asidsetWord a s.env ⟨s.env.unit, .a, pc, false⟩ s.dev = .ok () (s.dev.onCore s.env.unit fun c => c.withAsid (c.a a)) := by
    have hle : ¬ 2 ^ 16 ≤ ((s.dev.tile s.env.unit).core.a a).toNat := not_le.mpr hlt
    simp only [asidsetWord, hp, hle, Bool.not_true, Bool.false_eq_true, if_false]
    rfl
  exact run_own (f := asidsetWord a) h (by decide) hdone

theorem exec_asidset_wide (hp : privileged s.dev s.env.unit = true) (hle : 2 ^ 16 ≤ ((iter s).a a).toNat) :
    exec (.asidset a) s = .next (withDev s (enterTrap s.env s.dev s.env.unit .a pc 0x02 0 0 0 0)) := by
  refine run_own_trap (f := asidsetWord a) h ?_
  rw [found_of (by decide)]
  have hle' : 2 ^ 16 ≤ ((s.dev.tile s.env.unit).core.a a).toNat := hle
  simp only [asidsetWord, hp, hle', Bool.not_true, Bool.false_eq_true, if_false, if_true]

theorem exec_asidset_refused (hp : privileged s.dev s.env.unit = false) :
    exec (.asidset a) s = .next (withDev s (enterTrap s.env s.dev s.env.unit .a pc 0x0D 0 0 0 0)) := by
  refine run_own_trap (f := asidsetWord a) h ?_
  rw [found_of (by decide)]
  simp only [asidsetWord, hp, Bool.not_false, if_true]

end

/-- Settles O15: TIDSET by its load (`aLoad_home`), the privileged words by the privilege of the tile's VF. -/
theorem tableAndPrivilegedWords : Obligations.TableAndPrivilegedWords := by
  intro s pc a tid loc cls d1 h
  refine ⟨exec_tidset h, exec_tidinv h, fun hp => ⟨?_, exec_tlbinv h hp 0, exec_tlbinv h hp 1, fun hlt => ?_, exec_asidset_wide h hp⟩,
    fun hp => ⟨exec_tlbinv_refused h hp 2, exec_asidset_refused h hp⟩⟩
  · obtain ⟨t, ht, htlb⟩ := exec_tlbinv h hp 2
    exact ⟨t, ht, htlb.trans (List.filter_eq_nil_iff.mpr fun _ _ => Bool.false_ne_true)⟩
  · refine ⟨_, exec_asidset h hp hlt, ?_, ?_⟩
    · rw [after, walked_csr, Dev.tile_onCore, if_pos rfl]
      show (((iter s).a a).setWidth 16).toNat = _
      rw [BitVec.toNat_setWidth, Nat.mod_eq_of_lt hlt]
    · rw [after, walked_regs, Dev.tile_onCore, if_pos rfl]
      rfl

end Sys2Proof.Machine

namespace Sys2Proof.Machine

open Sys2Proof.Safety

/-! ### Flags (R140, R141) -/

theorem quiet_waiters : Quiet Dev.waiters where
  tile _ _ _ _ := rfl
  slice _ _ _ := rfl
  event d t vf ev n := by rw [countEv_eq]
  rest _ _ _ _ _ _ _ _ _ _ := rfl

theorem l1Update_quiet {β : Type} {π : Dev → β} (hπ : Quiet π) (env : Env) (d : Dev) (t : ℕ) (ts : Dword) (loc : Loc) :
    π (l1Update env d t ts loc) = π d := by
  cases loc with
  | hbm pa =>
    unfold l1Update
    dsimp only
    split
    · exact hπ.tile d t _ fun y => by rw [Tile.Touched, l1Put_eq]
    · rfl
  | spad u o => rfl
  | staging u o => rfl
  | port v => rfl

theorem notePast_quiet {β : Type} {π : Dev → β} (hπ : Quiet π) (d : Dev) (ag : Agent) (loc : Loc) (ts : Dword) (n : ℕ) :
    π (notePast d ag loc ts n) = π d := hπ.rest d ..

theorem tileAtomic_quiet {β : Type} {π : Dev → β} (hπ : Quiet π) (env : Env) (d : Dev) (t : ℕ) (vf : BitVec 10) (cls : BitVec 4) (loc : Loc)
    (n : ℕ) (f : List Byte → Option (List Byte)) : (tileAtomic env d t vf cls loc n f).Keeps π d := by
  unfold tileAtomic
  dsimp only
  split
  · exact (l1Update_quiet hπ ..).trans ((putBytes_quiet hπ ..).trans ((notePast_quiet hπ ..).trans (storeTs_quiet hπ ..)))
  · exact (l1Update_quiet hπ ..).trans (storeTs_quiet hπ ..)

/-- An atomic step that writes: the old bytes are given, the new ones written, and no iteration changes. -/
theorem tileAtomic_writes (env : Env) (d : Dev) (t : ℕ) (vf : BitVec 10) (cls : BitVec 4) (loc : Loc) (n : ℕ)
    (f : List Byte → List Byte) : ∃ e, tileAtomic env d t vf cls loc n (fun b => some (f b)) = .ok (getBytes d loc n) e ∧
      e.mem = Memory.write loc.key (f (getBytes d loc n)) d.mem ∧ ∀ u, (e.tile u).core = (d.tile u).core :=
  tileAtomic_eq env d t vf cls loc n fun b => some (f b)

section
variable {s : State} {pc : Dword} {a b : BitVec 5} {loc : Loc} {cls : BitVec 4} {d1 : Dev} (h : Stands s .a pc false)
  (hal : ((iter s).a a).toNat % 16 = 0) (hr : Reaches s { write := true } ((iter s).a a) loc cls d1)
include h hal hr

/-- A word that writes a flag with this tile's access engine as its setter. -/
theorem exec_flagWrite (i : Instr) (g : TCore → ℕ → ℕ) : ∃ t, aTry i (flagWrite a g) s = .next t ∧ (iter t).regs = (iter s).regs ∧
    t.dev.mem = Memory.write loc.key (natLe 8 (g (iter s) (leNat ((getBytes s.dev loc 16).take 8)) % 2 ^ 64) ++
      natLe 8 (setterId s.env (iter s).csr.vfid s.env.unit)) s.dev.mem := by
  obtain ⟨d2, h2, hm, hc⟩ := tileAtomic_writes s.env d1 s.env.unit (iter s).csr.vfid cls loc 16 fun b =>
    natLe 8 (g (iter s) (leNat (b.take 8)) % 2 ^ 64) ++ natLe 8 (setterId s.env (iter s).csr.vfid s.env.unit)
  have hdone : flagWrite a g s.env ⟨s.env.unit, .a, pc, false⟩ s.dev = .ok () d2 := by
    have hal' : aligned ((s.dev.tile s.env.unit).core.a a) 16 = true := aligned_iff.mpr hal
    simp only [flagWrite, hal', Bool.not_true, Bool.false_eq_true, if_false]
    exact (Res.bind_of_ok hr).trans (Res.bind_of_ok h2)
  refine ⟨_, aTry_ok (f := flagWrite a g) h hdone, ?_, ?_⟩
  · rw [walked_regs, hc, (locate_same hr).2]; rfl
  · rw [walked_mem, hm, getBytes_congr (locate_same hr).1, (locate_same hr).1]

/-- A FLAGWAIT that needs nothing completes at once (R141). -/
theorem exec_flagwait_zero (hb : (iter s).a b = 0) : ∃ t, exec (.flagwait a b) s = .next t ∧ MemSame s t ∧ (iter t).regs = (iter s).regs := by
  have hdone : flagwaitWord a b s.env ⟨s.env.unit, .a, pc, false⟩ s.dev = .ok () d1 := by
    have hal' : aligned ((s.dev.tile s.env.unit).core.a a) 16 = true := aligned_iff.mpr hal
    have hb' : (s.dev.tile s.env.unit).core.a b = 0 := hb
    simp only [flagwaitWord, hal', hb', Bool.not_true, Bool.false_eq_true, if_false, if_true]
    exact Res.bind_of_ok hr
  refine ⟨_, aTry_ok (f := flagwaitWord a b) h hdone, walked_memSame (locate_same hr).1, ?_⟩
  rw [walked_regs, (locate_same hr).2]; rfl

end

/-- Without PROFCTL no FLAGWAIT is replayed and none is logged (R142, R370). -/
theorem replayFor_off {env : Env} {d : Dev} {t : ℕ} (h : (d.tile t).core.csr.profctl = 0) : replayFor env d t = .ok none d := by
  simp [replayFor, h]

theorem fwLog_off {env : Env} {d : Dev} {t : ℕ} (va : Dword) (setter : ℕ) (h : (d.tile t).core.csr.profctl = 0) :
    fwLog env d t va setter = d := by
  simp [fwLog, h]

/-- A FLAGWAIT whose VALUE suffices, with no waiter of another tile before it, takes what it needs and waits no more (R141). -/
theorem flagEval_done {env : Env} {d d1 : Dev} {t : ℕ} {va need : Dword} {loc : Loc} {cls : BitVec 4}
    (hl : locate env d (whoTile d t) { write := true } va = .ok (loc, cls) d1) (hprof : (d.tile t).core.csr.profctl = 0)
    (hfirst : d.waiters.takeWhile (fun w => w.tile != t) = []) (hv : need.toNat ≤ leNat ((getBytes d loc 16).take 8)) :
    ∃ e, flagEval env t va need d = .ok () e ∧
      e.mem = Memory.write loc.key (natLe 8 (leNat ((getBytes d loc 16).take 8) - need.toNat)) d.mem ∧
      (e.tile t).core = { (d.tile t).core with fwSince := none } ∧ e.waiters = d.waiters.filter fun w => w.tile != t := by
  obtain ⟨hm1, hc1⟩ := locate_same hl
  have hw1 : d1.waiters = d.waiters := (locate_quiet quiet_waiters ..).ok hl
  have hprof1 : (d1.tile t).core.csr.profctl = 0 := by rw [hc1]; exact hprof
  obtain ⟨d3, h3, hm3, hc3⟩ := tileAtomic_writes env d1 t (d1.tile t).core.csr.vfid cls loc 8 fun _ =>
    natLe 8 (leNat ((getBytes d1 loc 16).take 8) - need.toNat)
  have hw3 : d3.waiters = d1.waiters := (tileAtomic_quiet quiet_waiters ..).ok h3
  have hprof3 : (d3.tile t).core.csr.profctl = 0 := by rw [hc3]; exact hprof1
  refine ⟨(dropWaiter d3 t).onCore t fun c => { c with fwSince := none }, ?_, ?_, ?_, ?_⟩
  · have hv1 : decide (need.toNat ≤ leNat ((getBytes d1 loc 16).take 8)) = true := by
      rw [getBytes_congr hm1]; exact decide_eq_true hv
    unfold flagEval
    refine (Res.bind_of_ok hl).trans ((Res.bind_of_ok (replayFor_off hprof1)).trans ?_)
    simp only [hw1, hfirst, hv1, List.filter_nil, List.any_nil, Bool.not_false, Bool.and_self, if_true]
    refine (Res.bind_of_ok (x := ()) (d := d1) rfl).trans ((Res.bind_of_ok h3).trans ?_)
    rw [fwLog_off _ _ hprof3]
  · show d3.mem = _
    rw [hm3, hm1, getBytes_congr hm1]
  · rw [Dev.tile_onCore, if_pos rfl]
    show { (d3.tile t).core with fwSince := none } = _
    rw [hc3, hc1]
  · show d3.waiters.filter _ = _
    rw [hw3, hw1]

/-- FLAGWAIT evaluates its wait at the flag's home, where it needs something. -/
theorem flagwaitWord_eq {a b : BitVec 5} {env : Env} {at_ : At} {d : Dev} (hal : ((d.tile at_.t).core.a a).toNat % 16 = 0)
    (hb : (d.tile at_.t).core.a b ≠ 0) :
    flagwaitWord a b env at_ d = flagEval env at_.t ((d.tile at_.t).core.a a) ((d.tile at_.t).core.a b) d := by
  simp only [flagwaitWord, aligned_iff.mpr hal, hb, Bool.not_true, Bool.false_eq_true, if_false]

theorem flagWords : Claims.FlagWords := by
  intro s pc a b loc cls d1 h hal hr
  refine ⟨exec_flagWrite h hal hr _ _, ?_, exec_flagwait_zero h hal hr, fun hb hprof hw hv => ?_⟩
  · obtain ⟨t, ht, hregs, hm⟩ := exec_flagWrite h hal hr (.flagset a b) fun c _ => (c.a b).toNat
    exact ⟨t, ht, hregs, by rw [hm, Nat.mod_eq_of_lt ((iter s).a b).isLt]; rfl⟩
  · obtain ⟨d2, h2, hm, hc, -⟩ := flagEval_done hr hprof (by rw [hw]; rfl) hv
    have hdone : flagwaitWord a b s.env ⟨s.env.unit, .a, pc, false⟩ s.dev = .ok () d2 := (flagwaitWord_eq (at_ := ⟨s.env.unit, .a, pc, false⟩) (d := s.dev) hal hb).trans h2
    refine ⟨_, aTry_ok (f := flagwaitWord a b) h hdone, ?_, ?_⟩
    · rw [walked_regs, hc]; rfl
    · rw [walked_mem, hm]

/-! ### FLAGWAIT_SATISFIED (R141) -/

/-- The engine that a state names has no part in a translation. -/
theorem locate_eng (env : Env) (e : Eng) (d : Dev) (w : Who) (k : AccKind) (va : Dword) :
    locate { env with eng := e } d w k va = locate env d w k va := rfl

/-- The word at A's PC is evaluated again as if A walked it. -/
theorem flagSatisfied_eq {env : Env} {d : Dev} {pc : Dword} {w : Word} {a b : BitVec 5} (hw : d.waiters.any (fun w => w.tile == env.unit) = true)
    (hr : ready d env.unit .a = .go pc false) (hp : peekAt env d env.unit .a pc = some w) (hd : decode w = .ok (.flagwait a b)) :
    flagSatisfied env d = engineWord .a (.flagwait a b) (flagwaitWord a b { env with eng := .a }) (fun _ c => c) { env with eng := .a } d := by
  have hdec : decodeTotal w = .flagwait a b := by rw [decodeTotal, hd]
  simp only [flagSatisfied, hw, if_true, hr, hp, Option.map_some, hdec]

theorem walkTo_waiters (d : Dev) (a : At) (next : Dword) (p : Prev) : (walkTo d a next p).waiters = d.waiters := by rw [walkTo_eq]

theorem flagWaitSatisfied : Claims.FlagWaitSatisfied := by
  intro s pc w a b loc cls d1 x hgo hp hd hw hx hal hr hb hprof hv
  have hloc : locate { s.env with eng := .a } s.dev (whoTile s.dev s.env.unit) { write := true } ((iter s).a a) = .ok (loc, cls) d1 :=
    (locate_eng ..).trans hr
  obtain ⟨d2, h2, hm, -, hw2⟩ := flagEval_done hloc hprof (by simp [hw, hx]) hv
  have hdone : flagwaitWord a b { s.env with eng := .a } ⟨s.env.unit, .a, pc, false⟩ s.dev = .ok () d2 :=
    (flagwaitWord_eq (at_ := ⟨s.env.unit, .a, pc, false⟩) (d := s.dev) hal hb).trans h2
  have hstep : flagSatisfied s.env s.dev = walkTo d2 ⟨s.env.unit, .a, pc, false⟩ (pc + 4) (.other .a) := by
    rw [flagSatisfied_eq (by simp [hw, hx]) hgo hp hd]
    exact engineWord_own rfl hgo hdone
  refine ⟨walked s pc d2 .a false (pc + 4) (.other .a), run_of_eq hstep, ?_, walked_pc .., ?_⟩
  · rw [walked, withDev_dev, walkTo_waiters, hw2, hw]
    simp [hx]
  · rw [walked_mem, hm]

end Sys2Proof.Machine

namespace Sys2Proof.Machine

open Sys2Proof.Safety

/-! ### An engine that may walk -/

/-- An engine may walk only where an iteration runs. -/
theorem running_of_ready {d : Dev} {t : ℕ} {e : Eng} {pc : Dword} {hand : Bool} (h : ready d t e = .go pc hand) :
    (d.tile t).running = true := by
  by_contra hr
  rw [Bool.not_eq_true] at hr
  simp [ready, hr] at h

/-- Outside a handler an engine walks the word at its PC. -/
theorem pc_of_ready {d : Dev} {t : ℕ} {e : Eng} {pc : Dword} (h : ready d t e = .go pc false) :
    ((d.tile t).core.engine e).pc = pc := by
  have hnone : (d.tile t).core.trap.hand = none := by simpa using (ready_hand h).symm
  unfold ready at h
  dsimp only at h
  rw [hnone] at h
  split at h
  · cases h
  · dsimp only at h
    split at h
    · cases h
    · split at h
      · cases h
      · split at h
        · cases h
        · split at h
          · cases h
          · cases h; rfl

/-- The iteration after an engine has waited at its word. -/
theorem setWait_core (d : Dev) (t : ℕ) (e : Eng) (pc : Dword) (w : Wait) :
    ((setWait d ⟨t, e, pc, false⟩ w).tile t).core = (d.tile t).core.onEng e fun x => { x with wait := some w } := by
  rw [setWait, Dev.tile_onTile, if_pos rfl]; rfl

/-! ### Barrier objects (R143 to R146) -/

/-- BARARM's step as R144 puts it: COUNT and STATE by the STATE found and the sum; ARMT in every state. -/
theorem barArm_bytes (t n : ℕ) (o : BarObj) (idle spill zero : Prop) [Decidable idle] [Decidable spill] [Decidable zero]
    (hidle : idle ↔ o.state = 0 ∨ o.state = 2) (hspill : spill ↔ o.state = 1 ∧ 2 ^ 56 ≤ o.count + n)
    (hzero : zero ↔ (idle ∧ n = 0) ∨ (o.state = 1 ∧ o.count + n = 0)) :
    (barArm t n o).1 = { o with
      count := if idle then n else if spill then 0 else if o.state = 1 then o.count + n else o.count
      state := if zero then 2 else if idle then 1 else if spill then 3 else o.state, armt := t } ∧
    (barArm t n o).2 = if zero then .zero else if spill then .error (o.count + n - (2 ^ 56 - 1)) 1 else .none := by
  by_cases hi : o.state = 0 ∨ o.state = 2
  · have hs : ¬ spill := by rw [hspill]; omega
    by_cases hn : n = 0 <;> rcases hi with hi | hi <;> simp [barArm, hidle, hzero, hs, hi, hn]
  · by_cases h1 : o.state = 1
    · by_cases hb : 72057594037927936 ≤ o.count + n
      · have hz : ¬ zero := by rw [hzero, hidle]; omega
        have hs : spill := hspill.mpr ⟨h1, by omega⟩
        have hni : ¬ idle := by rw [hidle]; omega
        simp [barArm, h1, hb, hz, hs, hni]
      · have hs : ¬ spill := by rw [hspill]; omega
        have hni : ¬ idle := by rw [hidle]; omega
        by_cases hz : o.count + n = 0
        · have hz' : zero := hzero.mpr (Or.inr ⟨h1, hz⟩)
          have h0 : o.count = 0 ∧ n = 0 := by omega
          simp [barArm, h1, h0, hs, hni, hz']
        · have hz' : ¬ zero := by rw [hzero, hidle]; omega
          have h0 : ¬ (o.count = 0 ∧ n = 0) := by omega
          simp [barArm, h1, hb, h0, hs, hni, hz']
    · have hs : ¬ spill := by rw [hspill]; omega
      have hni : ¬ idle := by rw [hidle]; omega
      have hz : ¬ zero := by rw [hzero, hidle]; omega
      simp [barArm, h1, hi, hs, hni, hz]


theorem quiet_arms : Quiet Dev.arms where
  tile _ _ _ _ := rfl
  slice _ _ _ := rfl
  event d t vf ev n := by rw [countEv_eq]
  rest _ _ _ _ _ _ _ _ _ _ := rfl

/-- A record of a barrier object that the running iteration of its tile has armed goes to that iteration's queue (R145). -/
theorem postBarrier_own {env : Env} {d : Dev} {t key : ℕ} (r : Rec16) (ts : Dword) (harm : d.arms.find key = some (d.tile t).core.iter.serial)
    (hrun : (d.tile t).running = true) (hroom : (d.tile t).core.ev.length < 256) :
    postBarrier env d t key r ts = d.onCore t fun c => { c with ev := c.ev ++ [(r, ts)] } := by
  have hruns : (d.tile t).runs (d.tile t).core.iter.serial = true := by simp [Tile.runs, hrun]
  simp only [postBarrier, harm, hrun, if_true, postIter, hruns]
  exact onCore_congr (by rw [TCore.post, if_pos hroom])

/-- The records that a BARARM posts: none, or one at a zero or an excess (R144, R145). -/
def barRecords (va : Dword) (o : BarObj) : BarAct → List Rec16
  | .none => []
  | .zero => [rec16 (va.toNat % 2 ^ 55 * 256 + 5) (o.flag * 16)]
  | .error ex found => [rec16 (va.toNat % 2 ^ 55 * 256 + 6) (ex % 2 ^ 56 + found * 2 ^ 56)]

/-- What follows BARARM's step, where no flag is to be incremented: its record in the tile's event queue. -/
theorem barAfter_own {env : Env} {d : Dev} {loc : Loc} {va : Dword} {o : BarObj} {act : BarAct} (ts : Dword)
    (harm : d.arms.find loc.key = some (d.tile o.armt).core.iter.serial) (hrun : (d.tile o.armt).running = true)
    (hflag : act = .zero → o.flag = 0) (hroom : act ≠ .none → (d.tile o.armt).core.ev.length < 256) :
    (barAfter env d ts loc va o act).mem = d.mem ∧ ((barAfter env d ts loc va o act).tile o.armt).core =
      { (d.tile o.armt).core with ev := (d.tile o.armt).core.ev ++ (barRecords va o act).map (·, ts) } := by
  cases act with
  | none => exact ⟨rfl, by simp [barAfter, barRecords]⟩
  | zero =>
    have h : barAfter env d ts loc va o .zero = postBarrier env d o.armt loc.key (rec16 (va.toNat % 2 ^ 55 * 256 + 5) (o.flag * 16)) ts := by
      simp only [barAfter, hflag rfl, if_true]
    rw [h, postBarrier_own _ _ harm hrun (hroom nofun), Dev.tile_onCore, if_pos rfl]
    exact ⟨rfl, rfl⟩
  | error ex found =>
    rw [barAfter, postBarrier_own _ _ harm hrun (hroom nofun), Dev.tile_onCore, if_pos rfl]
    exact ⟨rfl, rfl⟩

@[simp] theorem walked_ev (s : State) (pc next : Dword) (d : Dev) (e : Eng) (hand : Bool) (p : Prev) :
    (iter (walked s pc d e hand next p)).ev = (d.tile s.env.unit).core.ev := by rw [iter_walked_eq]

/-- An address that translates has bits [63:55] zero (R130). -/
theorem locate_va55 {env : Env} {d d1 : Dev} {w : Who} {k : AccKind} {va : Dword} {x : Loc × BitVec 4} (h : locate env d w k va = .ok x d1) :
    va.toNat < 2 ^ 55 := by
  by_contra hv
  rw [locate_above (not_lt.mp hv)] at h
  cases h

section
variable {s : State} {pc : Dword} {a b : BitVec 5} {loc : Loc} {cls : BitVec 4} {d1 : Dev} (h : Stands s .a pc false)
  (hal : ((iter s).a a).toNat % 16 = 0) (hr : Reaches s { write := true } ((iter s).a a) loc cls d1)
include h hal hr

/-- BARARM: the object's bytes after the step, and the record of it (R144). -/
theorem exec_bararm {o : BarObj} {act : BarAct} (hn : ((iter s).a b).toNat < 2 ^ 56)
    (ho : barArm s.env.unit ((iter s).a b).toNat (barOf (getBytes s.dev loc 16)) = (o, act)) (harmt : o.armt = s.env.unit)
    (hflag : act = .zero → o.flag = 0) (hroom : act ≠ .none → (iter s).ev.length < 256) :
    ∃ t ts, exec (.bararm a b) s = .next t ∧ (iter t).regs = (iter s).regs ∧ t.dev.mem = Memory.write loc.key o.bytes s.dev.mem ∧
      (iter t).ev = (iter s).ev ++ (barRecords ((iter s).a a) o act).map (·, ts) := by
  obtain ⟨d2, h2, hm, hc⟩ := tileAtomic_writes s.env d1 s.env.unit (iter s).csr.vfid cls loc 16 fun x =>
    (barArm s.env.unit ((iter s).a b).toNat (barOf x)).1.bytes
  have hx : getBytes d1 loc 16 = getBytes s.dev loc 16 := getBytes_congr (locate_same hr).1 ..
  have hcore : (d2.tile s.env.unit).core = iter s := (hc _).trans ((locate_same hr).2 _)
  have hrun : (d2.tile s.env.unit).running = true := by
    have h21 := (tileAtomic_quiet (quiet_task s.env.unit) ..).ok h2
    have h10 := (locate_quiet (quiet_task s.env.unit) ..).ok hr
    exact (congrArg (·.1) (h21.trans h10)).trans (running_of_ready h.2)
  let d3 : Dev := { d2 with arms := d2.arms.set loc.key (iter s).iter.serial }
  let ts := getPts d3 (.tile s.env.unit 0)
  have hafter := barAfter_own (env := s.env) (d := d3) (loc := loc) (va := (iter s).a a) (o := o) (act := act) ts
    (by rw [harmt]; exact (NMap.find_set ..).trans (by rw [if_pos rfl]; exact congrArg (some ·.iter.serial) hcore.symm))
    (by rw [harmt]; exact hrun) hflag (by rw [harmt]; exact fun ha => by rw [show (d3.tile s.env.unit).core = iter s from hcore]; exact hroom ha)
  rw [harmt, show (d3.tile s.env.unit).core = iter s from hcore] at hafter
  have hdone : bararmWord a b s.env ⟨s.env.unit, .a, pc, false⟩ s.dev = .ok () (barAfter s.env d3 ts loc ((iter s).a a) o act) := by
    have hal' : aligned ((s.dev.tile s.env.unit).core.a a) 16 = true := aligned_iff.mpr hal
    have hn' : ¬ 2 ^ 56 ≤ ((s.dev.tile s.env.unit).core.a b).toNat := not_le.mpr hn
    simp only [bararmWord, hal', hn', Bool.not_true, Bool.false_eq_true, if_false]
    refine (Res.bind_of_ok hr).trans ((Res.bind_of_ok h2).trans ?_)
    rw [hx, show barArm s.env.unit ((s.dev.tile s.env.unit).core.a b).toNat (barOf (getBytes s.dev loc 16)) = (o, act) from ho]
    rfl
  refine ⟨_, ts, aTry_ok (f := bararmWord a b) h hdone, ?_, ?_, ?_⟩
  · rw [walked_regs, hafter.2]
  · rw [walked_mem, hafter.1]
    show d2.mem = _
    rw [hm, hx, ho, (locate_same hr).1]
  · rw [walked_ev, hafter.2]

omit h in
/-- BARWAIT reads the object at its home (R146). -/
theorem barwait_reads : ∃ d2, SameCore s.dev d2 ∧ barwaitWord a s.env ⟨s.env.unit, .a, pc, false⟩ s.dev =
    if (barOf (getBytes s.dev loc 16)).state = 1 then .wait { code := 9 } d2 else .ok () d2 := by
  have hs := (locate_same hr).trans (loadTs_same s.env d1 (.tile s.env.unit 0) (iter s).csr.vfid cls true loc)
  refine ⟨_, hs, ?_⟩
  have hal' : aligned ((s.dev.tile s.env.unit).core.a a) 16 = true := aligned_iff.mpr hal
  simp only [barwaitWord, hal', Bool.not_true, Bool.false_eq_true, if_false]
  refine (Res.bind_of_ok hr).trans ?_
  rw [← getBytes_congr (locate_same hr).1 loc 16]
  rfl

theorem exec_barwait_done (ho : (barOf (getBytes s.dev loc 16)).state ≠ 1) :
    ∃ t, exec (.barwait a) s = .next t ∧ MemSame s t ∧ (iter t).regs = (iter s).regs ∧ ((iter t).engine .a).pc = pc + 4 := by
  obtain ⟨d2, hs, hdone⟩ := barwait_reads (pc := pc) hal hr
  rw [if_neg ho] at hdone
  refine ⟨_, aTry_ok (f := barwaitWord a) h hdone, walked_memSame hs.1, ?_, walked_pc ..⟩
  rw [walked_regs, hs.2]; rfl

theorem exec_barwait_waits (ho : (barOf (getBytes s.dev loc 16)).state = 1) :
    ∃ t, exec (.barwait a) s = .next t ∧ MemSame s t ∧ (iter t).regs = (iter s).regs ∧ ((iter t).engine .a).pc = pc ∧
      ((iter t).engine .a).wait = some { code := 9 } := by
  obtain ⟨d2, hs, hwait⟩ := barwait_reads (pc := pc) hal hr
  rw [if_pos ho] at hwait
  have hcore : iter (withDev s (setWait d2 ⟨s.env.unit, .a, pc, false⟩ { code := 9 })) =
      (iter s).onEng .a fun x => { x with wait := some { code := 9 } } :=
    (setWait_core ..).trans (by rw [hs.2]; rfl)
  refine ⟨_, aTry_wait (f := barwaitWord a) h hwait, fun k => congrArg (Memory.get k) hs.1, ?_, ?_, ?_⟩
  · rw [hcore]; rfl
  · rw [hcore, engine_onEng, if_pos rfl]; exact pc_of_ready h.2
  · rw [hcore, engine_onEng, if_pos rfl]

end

theorem barrierWords : Claims.BarrierWords := by
  intro s pc a b loc cls d1 o h hal ho hr
  refine ⟨fun hn => ?_, fun hs => exec_barwait_done h hal hr (ho ▸ hs), fun hs => exec_barwait_waits h hal hr (ho ▸ hs)⟩
  intro n idle spill zero count state va hflag hroom
  obtain ⟨hobj, hact⟩ := barArm_bytes s.env.unit n o idle spill zero Iff.rfl Iff.rfl Iff.rfl
  have hva : ((iter s).a a).toNat % 2 ^ 55 = va := Nat.mod_eq_of_lt (locate_va55 hr)
  have hzf : (barArm s.env.unit n o).2 = .zero → (barArm s.env.unit n o).1.flag = 0 := fun hz => by
    rw [hobj]
    refine hflag ?_
    by_contra hzero
    rw [hact, if_neg hzero] at hz
    split at hz <;> cases hz
  have hev : (barArm s.env.unit n o).2 ≠ .none → (iter s).ev.length < 256 := fun hne => by
    refine hroom ?_
    by_contra hno
    rw [not_or] at hno
    exact hne (by rw [hact, if_neg hno.1, if_neg hno.2])
  obtain ⟨t, ts, ht, hregs, hm, hevs⟩ := exec_bararm (b := b) h hal hr hn (by rw [← ho]) (by rw [hobj]) hzf hev
  refine ⟨t, ts, ht, hregs, by rw [hm, hobj]; rfl, hevs.trans (congrArg _ ?_)⟩
  rw [hact]
  by_cases hz : zero
  · rw [if_pos hz, if_pos hz, hobj, barRecords, hva, hflag hz]; rfl
  · rw [if_neg hz, if_neg hz]
    by_cases hsp : spill
    · have hcount : o.count < 2 ^ 56 := by rw [ho]; exact Nat.mod_lt _ (Nat.two_pow_pos _)
      have hex : (o.count + n - (2 ^ 56 - 1)) % 2 ^ 56 = o.count + n - (2 ^ 56 - 1) := Nat.mod_eq_of_lt (by omega)
      rw [if_pos hsp, if_pos hsp, barRecords, hva, hex]
      rfl
    · rw [if_neg hsp, if_neg hsp]; rfl

/-- Settles O14: a flag word is one atomic step (`exec_flagWrite`, `flagEval_done`); BARARM's step by the STATE found (`barArm_bytes`), its record
by what follows the step (`barAfter_own`); BARWAIT by its read of the object (`barwait_reads`). -/
theorem flagForms : Obligations.FlagForms := ⟨flagWords, flagWaitSatisfied, barrierWords⟩

end Sys2Proof.Machine

namespace Sys2Proof.Machine

open Sys2Proof.Safety

/-! ### What a completed fence does to the timestamps (R245) -/

theorem dmax_toNat (a b : Dword) : (dmax a b).toNat = max a.toNat b.toNat := by
  unfold dmax; split <;> omega

theorem getPts_setPts_tile (d : Dev) (t p : ℕ) {q : ℕ} (x : Dword) (hq : q < 6) :
    getPts (setPts d (.tile t q) x) (.tile t p) = if p = q then x else getPts d (.tile t p) := by
  simp only [getPts, setPts]
  rw [Dev.tile_onTile, if_pos rfl, vget_vset _ _ _ _ hq]

/-- The timestamps of some paths of a tile raised to at least a value. -/
def raisePts (t : ℕ) (top : Dword) (l : List ℕ) (d : Dev) : Dev :=
  l.foldl (fun d p => setPts d (.tile t p) (dmax (getPts d (.tile t p)) top)) d

/-- A raised timestamp is the larger of what it was and the value; the others stand. -/
theorem getPts_raisePts (t : ℕ) (top : Dword) (p : ℕ) (l : List ℕ) (hl : ∀ q ∈ l, q < 6) (d : Dev) :
    (getPts (raisePts t top l d) (.tile t p)).toNat =
      if p ∈ l then max (getPts d (.tile t p)).toNat top.toNat else (getPts d (.tile t p)).toNat := by
  induction l generalizing d with
  | nil => rfl
  | cons q l ih =>
    have hq := hl q List.mem_cons_self
    rw [raisePts, List.foldl_cons]
    refine (ih (fun x hx => hl x (List.mem_cons_of_mem _ hx)) _).trans ?_
    rw [getPts_setPts_tile _ _ _ _ hq]
    by_cases hp : p = q
    · subst hp
      rw [if_pos rfl, dmax_toNat, if_pos List.mem_cons_self]
      split <;> omega
    · rw [if_neg hp]
      simp only [List.mem_cons, hp, false_or]

theorem mem_pathsOf {m : BitVec 6} {p : ℕ} : p ∈ pathsOf m ↔ p < 6 ∧ m.getLsbD p = true := by
  simp [pathsOf]

/-- The latest timestamp of some paths of a tile. -/
def topPts (t : ℕ) (d : Dev) (m : BitVec 6) : Dword := (pathsOf m).foldl (fun x p => dmax x (getPts d (.tile t p))) 0

theorem le_foldl_dmax (f : ℕ → Dword) (l : List ℕ) (x : Dword) :
    x.toNat ≤ (l.foldl (fun x p => dmax x (f p)) x).toNat ∧ ∀ p ∈ l, (f p).toNat ≤ (l.foldl (fun x p => dmax x (f p)) x).toNat := by
  induction l generalizing x with
  | nil => exact ⟨le_rfl, nofun⟩
  | cons q l ih =>
    obtain ⟨h1, h2⟩ := ih (dmax x (f q))
    rw [dmax_toNat] at h1
    refine ⟨by rw [List.foldl_cons]; omega, fun p hp => ?_⟩
    rw [List.foldl_cons]
    rcases List.mem_cons.mp hp with rfl | hp
    · omega
    · exact h2 p hp

theorem le_topPts {t : ℕ} {d : Dev} {m : BitVec 6} {q : ℕ} (hq : q < 6) (h : m.getLsbD q = true) :
    (getPts d (.tile t q)).toNat ≤ (topPts t d m).toNat :=
  (le_foldl_dmax (fun p => getPts d (.tile t p)) (pathsOf m) 0).2 q (mem_pathsOf.mpr ⟨hq, h⟩)

theorem fencePast_pts (d : Dev) (t p : ℕ) (m1 m0 : BitVec 6) : getPts (fencePast d t m1 m0) (.tile t p) = getPts d (.tile t p) := by
  simp only [getPts, fencePast, Dev.tile, Dev.onTile, Dev.setTile, NMap.get_set_same]

/-- A completed fence orders the paths it waited on before those it holds (R245). -/
theorem fencePts_orders {t : ℕ} {d : Dev} {m1 m0 : BitVec 6} {p q : ℕ} (hp : p < 6) (hq : q < 6) (h0 : m0.getLsbD p = true)
    (h1 : m1.getLsbD q = true) :
    (getPts (fencePts t m1 m0 d) (.tile t q)).toNat ≤ (getPts (fencePts t m1 m0 d) (.tile t p)).toNat := by
  have hl : ∀ x ∈ pathsOf m0, x < 6 := fun x hx => (mem_pathsOf.mp hx).1
  have heq : fencePts t m1 m0 d = raisePts t (topPts t d m1) (pathsOf m0) (fencePast d t m1 m0) := rfl
  have htop := le_topPts (t := t) (d := d) hq h1
  rw [heq, getPts_raisePts _ _ _ _ hl, getPts_raisePts _ _ _ _ hl, fencePast_pts, fencePast_pts, if_pos (mem_pathsOf.mpr ⟨hp, h0⟩)]
  split <;> omega

theorem fencePts_mem (t : ℕ) (m1 m0 : BitVec 6) (d : Dev) : (fencePts t m1 m0 d).mem = d.mem := by
  have hfold (g : Dev → ℕ → Dword) (l : List ℕ) (d : Dev) : (l.foldl (fun d p => setPts d (.tile t p) (g d p)) d).mem = d.mem := by
    induction l generalizing d with
    | nil => rfl
    | cons p l ih => exact (ih _).trans (setPts_same ..).1
  exact hfold (fun d p => dmax (getPts d (.tile t p)) _) ..

/-! ### What a fence that waits sends (R158) -/

/-- Nothing has changed but what has been sent: memory stands, and of the iteration of a tile all but its account of the network. -/
structure OnlySent (d e : Dev) (t : ℕ) : Prop where
  mem : e.mem = d.mem
  core : (e.tile t).core = { (d.tile t).core with net := (e.tile t).core.net }

theorem OnlySent.refl (d : Dev) (t : ℕ) : OnlySent d d t := ⟨rfl, rfl⟩

theorem OnlySent.trans {a b c : Dev} {t : ℕ} (h : OnlySent a b t) (g : OnlySent b c t) : OnlySent a c t :=
  ⟨g.mem.trans h.mem, by rw [g.core, h.core]⟩

theorem OnlySent.foldl {α : Type} {t : ℕ} {f : Dev → α → Dev} (hf : ∀ d x, OnlySent d (f d x) t) (l : List α) (d : Dev) :
    OnlySent d (l.foldl f d) t := by
  induction l generalizing d with
  | nil => exact OnlySent.refl d t
  | cons x l ih => exact (hf d x).trans (ih _)

/-- Sending a packet changes neither memory nor a tile. -/
theorem sendTo_mem_tiles (env : Env) (d : Dev) (dest : BitVec 6) (path : BitVec 2) (p : Packet) (op : ℕ) :
    (sendTo env d dest path p op).mem = d.mem ∧ (sendTo env d dest path p op).tiles = d.tiles := by
  unfold sendTo; split <;> exact ⟨rfl, rfl⟩

theorem sendRemote_onlySent (env : Env) (d : Dev) (dest : BitVec 6) (path : BitVec 2) (h : RHdr) (b : List Byte) (t : ℕ) :
    OnlySent d (sendRemote env d dest path h b) t := by
  obtain ⟨hm, ht⟩ := sendTo_mem_tiles env d dest path (.remote env.caps.devid { h with path := path } b) h.op.toNat
  have htile : (sendRemote env d dest path h b).tile t = d.tile t := congrArg (·.get {} t) ht
  exact ⟨hm, by rw [htile]⟩

theorem OnlySent.onNet (d : Dev) (t : ℕ) (f : TCore → NetNums) : OnlySent d (d.onCore t fun c => { c with net := f c }) t :=
  ⟨rfl, by rw [Dev.tile_onCore, if_pos rfl]⟩

theorem flushOne_onlySent (env : Env) (t s : ℕ) (dest : BitVec 6) (d : Dev) : OnlySent d (flushOne env t s dest d) t := by
  unfold flushOne
  dsimp only
  split
  · exact OnlySent.refl d t
  · split
    · exact OnlySent.refl d t
    · split
      · exact OnlySent.refl d t
      · exact (OnlySent.onNet d t _).trans (sendRemote_onlySent ..)

theorem flushStreams_onlySent (env : Env) (t : ℕ) (d : Dev) : OnlySent d (flushStreams env t d) t :=
  OnlySent.foldl (fun _ _ => OnlySent.foldl (fun _ _ => flushOne_onlySent ..) ..) ..

/-! ### FENCEX, JOIN and MARK -/

/-- The paths that a word waits on are done. -/
def PathsDone (d : Dev) (t : ℕ) (w : Dword) (m : BitVec 6) : Prop := ∀ p, p < 6 → m.getLsbD p = true → pathDone d t w p = true

theorem all_pathDone {d : Dev} {t : ℕ} {w : Dword} {m : BitVec 6} : (pathsOf m).all (pathDone d t w) = true ↔ PathsDone d t w m := by
  simp only [List.all_eq_true, mem_pathsOf, and_imp, PathsDone]

theorem walked_getPts (s : State) (pc next : Dword) (d : Dev) (e : Eng) (hand : Bool) (pr : Prev) (p : ℕ) :
    getPts (walked s pc d e hand next pr).dev (.tile s.env.unit p) = getPts d (.tile s.env.unit p) := by
  have h : (walked s pc d e hand next pr).dev.tile s.env.unit = _ := walkTo_tile d ⟨s.env.unit, e, pc, hand⟩ next pr
  simp only [getPts, h]

section
variable {s : State} {pc : Dword} {i : Instr} {skip : Eng → TCore → TCore} {f : Env → At → Dev → Res Unit} {m1 n : BitVec 6} {w : Dword}
  (h : Stands s .a pc false) (hi : exec i s = s.run fun env d => engineWord .a i (f env) skip env d)
  (hf : f s.env ⟨s.env.unit, .a, pc, false⟩ s.dev = fenceTry m1 n w s.env ⟨s.env.unit, .a, pc, false⟩ s.dev)
include h hi hf

/-- A fence or join whose paths are done goes on, with the paths it holds behind those it waited on (R158, R245). -/
theorem fence_done (hd : PathsDone s.dev s.env.unit w m1) : ∃ t, exec i s = .next t ∧ MemSame s t ∧ (iter t).regs = (iter s).regs ∧
    ((iter t).engine .a).pc = pc + 4 ∧ ∀ p q, p < 6 → q < 6 → n.getLsbD p = true → m1.getLsbD q = true →
      (getPts t.dev (.tile s.env.unit q)).toNat ≤ (getPts t.dev (.tile s.env.unit p)).toNat := by
  have hdone : f s.env ⟨s.env.unit, .a, pc, false⟩ s.dev = .ok () (fencePts s.env.unit m1 n s.dev) := by
    rw [hf, fenceTry, if_pos (all_pathDone.mpr hd)]
  refine ⟨_, hi.trans (run_own h (by decide) hdone), walked_memSame (fencePts_mem ..), ?_, walked_pc .., fun p q hp hq h0 h1 => ?_⟩
  · rw [walked_regs, fencePts_core]; rfl
  · rw [walked_getPts, walked_getPts]
    exact fencePts_orders hp hq h0 h1

/-- What a fence or join that waits has sent. -/
def fenceSent (s : State) (m1 : BitVec 6) (w : Dword) : Dev :=
  if m1.getLsbD 4 && !pathDone s.dev s.env.unit w 4 then flushStreams s.env s.env.unit s.dev else s.dev

theorem fence_wait {q : ℕ} (hq : q < 6) (h1 : m1.getLsbD q = true) (hw : pathDone s.dev s.env.unit w q = false) :
    exec i s = .next (withDev s (setWait (fenceSent s m1 w) ⟨s.env.unit, .a, pc, false⟩ Wait.idle)) := by
  have hnot : ¬ (pathsOf m1).all (pathDone s.dev s.env.unit w) = true := fun ha => by
    rw [all_pathDone.mp ha q hq h1] at hw; cases hw
  refine hi.trans (run_of_eq ?_)
  rw [engineWord_wait h.1 (by rw [h.1]; exact h.2) (d2 := fenceSent s m1 w) (w := Wait.idle)]
  · rfl
  · refine Eq.trans (b := f s.env ⟨s.env.unit, .a, pc, false⟩ s.dev) rfl ?_
    rw [hf, fenceTry, if_neg hnot]; rfl

end

theorem fenceSent_onlySent (s : State) (m1 : BitVec 6) (w : Dword) : OnlySent s.dev (fenceSent s m1 w) s.env.unit := by
  unfold fenceSent; split
  · exact flushStreams_onlySent ..
  · exact OnlySent.refl ..

/-- A fence word as the statement puts it. -/
theorem fence_acts {s : State} {pc : Dword} {i : Instr} {skip : Eng → TCore → TCore} {f : Env → At → Dev → Res Unit} {m1 n : BitVec 6}
    {w : Dword} (h : Stands s .a pc false) (hi : exec i s = s.run fun env d => engineWord .a i (f env) skip env d)
    (hf : f s.env ⟨s.env.unit, .a, pc, false⟩ s.dev = fenceTry m1 n w s.env ⟨s.env.unit, .a, pc, false⟩ s.dev) :
    (PathsDone s.dev s.env.unit w m1 → ∃ t, exec i s = .next t ∧ MemSame s t ∧ (iter t).regs = (iter s).regs ∧
      ((iter t).engine .a).pc = pc + 4 ∧ ∀ p q, p < 6 → q < 6 → n.getLsbD p = true → m1.getLsbD q = true →
        (getPts t.dev (.tile s.env.unit q)).toNat ≤ (getPts t.dev (.tile s.env.unit p)).toNat) ∧
    (∀ q, q < 6 → m1.getLsbD q = true → pathDone s.dev s.env.unit w q = false →
      (∃ t, exec i s = .next t ∧ MemSame s t ∧ (iter t).regs = (iter s).regs ∧ ((iter t).engine .a).pc = pc ∧
        ((iter t).engine .a).walk = ((iter s).engine .a).walk ∧ ((iter t).engine .a).wait = some Wait.idle) ∧
      (m1.getLsbD 4 = false ∨ pathDone s.dev s.env.unit w 4 = true →
        exec i s = .next (withDev s (setWait s.dev ⟨s.env.unit, .a, pc, false⟩ Wait.idle)))) := by
  refine ⟨fence_done h hi hf, fun q hq h1 hw => ?_⟩
  have hwait := fence_wait h hi hf hq h1 hw
  obtain ⟨hm, hc⟩ := fenceSent_onlySent s m1 w
  have hcore : iter (withDev s (setWait (fenceSent s m1 w) ⟨s.env.unit, .a, pc, false⟩ Wait.idle)) =
      ((fenceSent s m1 w).tile s.env.unit).core.onEng .a fun x => { x with wait := some Wait.idle } := setWait_core ..
  have heng : ((fenceSent s m1 w).tile s.env.unit).core.engine .a = (iter s).engine .a := by rw [hc]; rfl
  refine ⟨⟨_, hwait, fun k => congrArg (Memory.get k) hm, ?_, ?_, ?_, ?_⟩, fun hno => ?_⟩
  · rw [hcore, hc]; rfl
  · rw [hcore, engine_onEng, if_pos rfl, heng]; exact pc_of_ready h.2
  · rw [hcore, engine_onEng, if_pos rfl, heng]
  · rw [hcore, engine_onEng, if_pos rfl]
  · rw [hwait, fenceSent, if_neg]
    rcases hno with hno | hno
    · rw [hno]; exact Bool.false_ne_true
    · rw [hno, Bool.not_true, Bool.and_false]; exact Bool.false_ne_true

/-- What JOIN's register names (R158). -/
theorem exec_join_eq {s : State} {a : BitVec 5} {n : BitVec 6} : exec (.join a n) s = s.run fun env d => engineWord .a (.join a n)
    (fun p dv => fenceTry (markerOf (dv.tile p.t).core ((dv.tile p.t).core.a a)).1 n
      (markerOf (dv.tile p.t).core ((dv.tile p.t).core.a a)).2 env p dv) (fenceSkip n) env d := rfl

/-- Settles O27: a fence or join by whether the paths it waits on are done (`fence_acts`), and by what a completed one does to the timestamps
(`fencePts_orders`). -/
theorem fenceWords : Obligations.FenceWords := by
  intro s pc d a m n h at_ walk acts marker
  have hjoin {m1 : BitVec 6} {w : Dword} (hk : markerOf (iter s) ((iter s).a a) = (m1, w)) : acts (.join a n) m1 w :=
    fence_acts (f := fun env p dv => fenceTry (markerOf (dv.tile p.t).core ((dv.tile p.t).core.a a)).1 n
      (markerOf (dv.tile p.t).core ((dv.tile p.t).core.a a)).2 env p dv) h exec_join_eq
      (by rw [show markerOf (s.dev.tile s.env.unit).core ((s.dev.tile s.env.unit).core.a a) = (m1, w) from hk])
  refine ⟨fence_acts (f := fun env p dv => fenceTry m n ((dv.tile p.t).core.engine .a).walk env p dv) h rfl rfl, fun k hk => hjoin ?_,
    fun hk => hjoin ?_, ?_⟩
  · rw [markerOf, show (iter s).markers.find? (fun k => dw (k.seq * 256 + k.paths.toNat) == (iter s).a a) = some k from hk]
  · rw [markerOf, show (iter s).markers.find? (fun k => dw (k.seq * 256 + k.paths.toNat) == (iter s).a a) = none from hk]
  · refine ⟨_, run_core h (by decide), walked_memSame rfl, ?_, walked_pc ..⟩
    rw [after, walked_regs, Dev.tile_onCore, if_pos rfl]
    rfl

end Sys2Proof.Machine

namespace Sys2Proof.Machine

open Sys2Proof.Safety

/-! ### What no access changes of the maps

An access moves lines and timestamps in the slices; a map slot, the ways' owners and what waits it leaves as they were. -/

/-- The map slots and the ways of a slice. -/
def Slice.maps (y : Slice) : NMap MapSlot × Vector SWay 16 := (y.slots, y.sway)

/-- Every map slot is as before, every way of a slice, and what waits. -/
structure SameSlots (d e : Dev) : Prop where
  slice : ∀ k, (e.slice k).maps = (d.slice k).maps
  tile : ∀ t, (e.tile t).slots = (d.tile t).slots
  later : e.later = d.later

theorem SameSlots.refl (d : Dev) : SameSlots d d := ⟨fun _ => rfl, fun _ => rfl, rfl⟩

theorem SameSlots.trans {a b c : Dev} (h : SameSlots a b) (g : SameSlots b c) : SameSlots a c :=
  ⟨fun k => (g.slice k).trans (h.slice k), fun t => (g.tile t).trans (h.tile t), g.later.trans h.later⟩

theorem SameSlots.of_fields {d e : Dev} (hs : e.slices = d.slices) (ht : e.tiles = d.tiles) (hl : e.later = d.later) : SameSlots d e :=
  ⟨fun k => by rw [Dev.slice, Dev.slice, hs], fun t => by rw [Dev.tile, Dev.tile, ht], hl⟩

theorem SameSlots.setSlice (d : Dev) {k : ℕ} {y : Slice} (h : y.maps = (d.slice k).maps) : SameSlots d (d.setSlice k y) := by
  refine ⟨fun j => ?_, fun _ => rfl, rfl⟩
  simp only [Dev.slice, Dev.setSlice, NMap.get_set]
  split
  · next hj => rw [h, hj]; rfl
  · rfl

theorem SameSlots.onTile (d : Dev) (t : ℕ) {f : Tile → Tile} (h : ∀ y, (f y).slots = y.slots) : SameSlots d (d.onTile t f) := by
  refine ⟨fun _ => rfl, fun u => ?_, rfl⟩
  rw [Dev.tile_onTile]
  split
  · next hu => rw [h, hu]
  · rfl

theorem SameSlots.mapSlot {d e : Dev} (h : SameSlots d e) (sel : MapSel) : mapSlot e sel = mapSlot d sel := by
  unfold Machine.mapSlot
  split
  · rw [show (e.slice sel.unit).slots = (d.slice sel.unit).slots from congrArg Prod.fst (h.slice _)]
  · rw [h.tile]

theorem countEv_sameSlots (d : Dev) (t : ℕ) (vf : BitVec 10) (ev n : ℕ) : SameSlots d (countEv d t vf ev n) :=
  SameSlots.of_fields (by rw [countEv_eq]) (by rw [countEv_eq]) (by rw [countEv_eq])

theorem setPts_sameSlots (d : Dev) (ag : Agent) (x : Dword) : SameSlots d (setPts d ag x) := by
  cases ag with
  | tile t p =>
    unfold setPts
    exact SameSlots.onTile d t fun _ => rfl
  | core n => exact SameSlots.of_fields rfl rfl rfl
  | stream k => exact SameSlots.of_fields rfl rfl rfl
  | stamp y => exact SameSlots.refl d
  | none => exact SameSlots.refl d

theorem l2Touch_sameSlots (env : Env) (d : Dev) (t pa : ℕ) (vf : BitVec 10) (cls : BitVec 4) (front : Bool) :
    SameSlots d (l2Touch env d t pa vf cls front).2.2 := by
  unfold l2Touch
  dsimp only
  split
  · exact SameSlots.setSlice d rfl
  · split
    · exact SameSlots.refl d
    · refine SameSlots.trans (SameSlots.setSlice d ?_) (countEv_sameSlots ..)
      rfl

theorem l2Set_sameSlots (env : Env) (d : Dev) (pa : ℕ) (kept : Bool) (wts rts : Dword) : SameSlots d (l2Set env d pa kept wts rts) := by
  unfold l2Set
  dsimp only
  split <;> exact SameSlots.setSlice d rfl

theorem loadTs_sameSlots (env : Env) (d : Dev) (ag : Agent) (vf : BitVec 10) (cls : BitVec 4) (front : Bool) (loc : Loc) :
    SameSlots d (loadTs env d ag vf cls front loc).1 := by
  cases loc with
  | hbm pa => exact ((l2Touch_sameSlots ..).trans (l2Set_sameSlots ..)).trans (setPts_sameSlots ..)
  | spad t o =>
    refine SameSlots.trans (SameSlots.onTile d t ?_) (setPts_sameSlots ..)
    exact fun _ => rfl
  | staging s o => exact SameSlots.refl d
  | port v => exact SameSlots.refl d

theorem payToken_later {d e : Dev} {t : ℕ} {loc : Loc} (h : payToken d t loc = some e) : e.later = d.later := by
  cases loc with
  | hbm pa =>
    simp only [payToken] at h
    split at h
    · split at h <;> cases h
      rfl
    · cases h; rfl
  | spad u o => cases h; rfl
  | staging u o => cases h; rfl
  | port v => cases h; rfl

theorem payToken_sameSlots {d e : Dev} {t : ℕ} {loc : Loc} (h : payToken d t loc = some e) : SameSlots d e := by
  refine ⟨fun k => by rw [Dev.slice, Dev.slice, payToken_slices h], fun u => ?_, payToken_later h⟩
  exact payToken_quiet (quiet_tile (g := (·.slots)) (fun y z hz => by rw [Tile.Touched] at hz; rw [hz]) u) h

/-- A done attempt that leaves every map slot as it was. -/
structure Res.KeepsSlots {α : Type} (d : Dev) (r : Res α) : Prop where
  ok : ∀ {x e}, r = .ok x e → SameSlots d e

theorem tileLoad_keepsSlots (env : Env) (d : Dev) (t : ℕ) (vf : BitVec 10) (cls : BitVec 4) (loc : Loc) (n : ℕ) :
    (tileLoad env d t vf cls loc n).KeepsSlots d := by
  refine ⟨fun {x e} h => ?_⟩
  cases loc with
  | hbm pa =>
    simp only [tileLoad] at h
    split at h
    · cases h; exact setPts_sameSlots ..
    · split at h
      · cases h
      · next d0 hp =>
        cases h
        refine ((payToken_sameSlots hp).trans (loadTs_sameSlots ..)).trans (SameSlots.onTile _ t fun y => ?_)
        rw [l1Put_eq]
  | spad u o => cases h; exact loadTs_sameSlots ..
  | staging s o => cases h; exact SameSlots.refl d
  | port v => cases h; exact SameSlots.refl d

theorem Res.KeepsSlots.bind {α β : Type} {d : Dev} {r : Res α} {f : α → Dev → Res β} (hr : r.KeepsSlots d) (hf : ∀ x e, (f x e).KeepsSlots e) :
    (r.bind f).KeepsSlots d := by
  refine ⟨fun {y e} h => ?_⟩
  cases r with
  | ok x d1 => exact (hr.ok rfl).trans ((hf x d1).ok h)
  | wait w d1 => cases h
  | trap c i0 i1 i2 i3 => cases h
  | sys c va => cases h
  | roll c => cases h

theorem Res.keepsSlots_ok {α : Type} (x : α) (d : Dev) : (Res.ok x d).KeepsSlots d :=
  ⟨fun h => by cases h; exact SameSlots.refl d⟩

theorem tileLine_keepsSlots (env : Env) (d : Dev) (t : ℕ) (vf : BitVec 10) (cls : BitVec 4) (loc : Loc) :
    (tileLine env d t vf cls loc).KeepsSlots d := by
  cases loc <;> simp only [tileLine]
  case spad u o =>
    exact (tileLoad_keepsSlots ..).bind fun _ _ => (tileLoad_keepsSlots ..).bind fun _ _ => Res.keepsSlots_ok ..
  case hbm pa => exact tileLoad_keepsSlots ..
  case staging s o => exact tileLoad_keepsSlots ..
  case port v => exact tileLoad_keepsSlots ..

theorem locate_keepsSlots (env : Env) (d : Dev) (w : Who) (k : AccKind) (va : Dword) : (locate env d w k va).KeepsSlots d :=
  ⟨fun h => by rw [locate_tlb h]; exact SameSlots.of_fields rfl rfl rfl⟩

/-! ### Reading a map descriptor (R250) -/

theorem quiet_genNo : Quiet Dev.genNo where
  tile _ _ _ _ := rfl
  slice _ _ _ := rfl
  event d t vf ev n := by rw [countEv_eq]
  rest _ _ _ _ _ _ _ _ _ _ := rfl

theorem readDesc_quiet {β : Type} {π : Dev → β} (hπ : Quiet π) (env : Env) (t : ℕ) (va : Dword) (d : Dev) :
    (readDesc env t va d).Keeps π d :=
  (locate_quiet hπ ..).bind fun _ _ => (tileLine_quiet hπ ..).bind fun _ _ => Eq.refl _

theorem readDesc_keepsSlots (env : Env) (t : ℕ) (va : Dword) (d : Dev) : (readDesc env t va d).KeepsSlots d :=
  (locate_keepsSlots ..).bind fun _ _ => (tileLine_keepsSlots ..).bind fun _ _ => Res.keepsSlots_ok ..

/-- A translation changes no byte, whatever it comes to. -/
theorem locate_mem (env : Env) (d : Dev) (w : Who) (k : AccKind) (va : Dword) : (locate env d w k va).Keeps Dev.mem d := by
  cases h : locate env d w k va with
  | ok x e => exact (locate_same h).1
  | wait c e =>
    unfold locate at h
    split at h <;> cases h
    · unfold startPromo; split <;> exact Eq.refl _
    · exact Eq.refl _
  | trap c i0 i1 i2 i3 => trivial
  | sys c va => trivial
  | roll c => trivial

theorem readDesc_mem (env : Env) (t : ℕ) (va : Dword) (d : Dev) : (readDesc env t va d).Keeps Dev.mem d :=
  (locate_mem ..).bind fun _ _ => (tileLine_mem ..).bind fun _ _ => Eq.refl _

/-! ### Map slots -/

theorem mapSlot_setMapSlot (d : Dev) (sel : MapSel) (x : MapSlot) : mapSlot (setMapSlot d sel x) sel = x := by
  by_cases h : sel.mem = true
  · simp [mapSlot, setMapSlot, h, Dev.slice, Dev.setSlice]
  · simp [mapSlot, setMapSlot, h]

theorem setMapSlot_mem (d : Dev) (sel : MapSel) (x : MapSlot) : (setMapSlot d sel x).mem = d.mem := by
  unfold setMapSlot; split <;> rfl

theorem setMapSlot_later (d : Dev) (sel : MapSel) (x : MapSlot) : (setMapSlot d sel x).later = d.later := by
  unfold setMapSlot; split <;> rfl

theorem setMapSlot_core (d : Dev) (sel : MapSel) (x : MapSlot) (t : ℕ) : ((setMapSlot d sel x).tile t).core = (d.tile t).core := by
  unfold setMapSlot
  split
  · rfl
  · rw [Dev.tile_onTile]; split
    · next h => rw [h]
    · rfl

theorem postRunning_sameSlots (d : Dev) (t : ℕ) (r : Rec16) (ts : Dword) : SameSlots d (postRunning d t r ts) := by
  unfold postRunning Dev.onCore
  exact SameSlots.onTile d t fun _ => rfl

theorem post_regs (c : TCore) (r : Rec16) (ts : Dword) : (c.post r ts).regs = c.regs := by unfold TCore.post; split <;> rfl

theorem postRunning_regs (d : Dev) (t : ℕ) (r : Rec16) (ts : Dword) :
    ((postRunning d t r ts).tile t).core.regs = (d.tile t).core.regs := by
  rw [postRunning, Dev.tile_onCore, if_pos rfl]
  split
  · exact post_regs ..
  · rfl

/-- The generation that a map word retires is reported in the tile's event queue (R258). -/
def reportRetired (t : ℕ) (sel : MapSel) (old : Option MapGen) (d : Dev) : Dev :=
  match old with
  | none => d
  | some g => postRunning d t (retiredRec sel g) (getPts d (.tile t 0))

theorem reportRetired_sameSlots (t : ℕ) (sel : MapSel) (old : Option MapGen) (d : Dev) : SameSlots d (reportRetired t sel old d) := by
  cases old with
  | none => exact SameSlots.refl d
  | some g => exact postRunning_sameSlots ..

theorem reportRetired_mem (t : ℕ) (sel : MapSel) (old : Option MapGen) (d : Dev) : (reportRetired t sel old d).mem = d.mem := by
  cases old <;> rfl

theorem reportRetired_regs (t : ℕ) (sel : MapSel) (old : Option MapGen) (d : Dev) :
    ((reportRetired t sel old d).tile t).core.regs = (d.tile t).core.regs := by
  cases old with
  | none => rfl
  | some g => exact postRunning_regs ..

theorem walked_sameSlots (s : State) (pc next : Dword) (d : Dev) (e : Eng) (hand : Bool) (p : Prev) :
    SameSlots d (walked s pc d e hand next p).dev := by
  refine ⟨fun k => by rw [Dev.slice, Dev.slice]; exact congrArg (fun m => (NMap.get m {} k).maps) (walkTo_slices ..), fun t => ?_,
    by show (walkTo d _ next p).later = d.later; rw [walkTo_eq]⟩
  by_cases ht : t = s.env.unit
  · subst ht
    have h : (walked s pc d e hand next p).dev.tile s.env.unit = _ := walkTo_tile d ⟨s.env.unit, e, pc, hand⟩ next p
    rw [h]
  · exact congrArg Tile.slots (walkTo_tile_other d ⟨s.env.unit, e, pc, hand⟩ next p ht)

section
variable {env : Env} {d : Dev} {t : ℕ} {v : Dword} {bad : MapSlot → ℕ}

theorem mapSlotCheck_none (h : mapSel env d t v = none) : mapSlotCheck env t v bad d = mapTrap 16 := by rw [mapSlotCheck, h]

theorem mapSlotCheck_bad {sel : MapSel} {n : ℕ} (h : mapSel env d t v = some sel) (hb : bad (mapSlot d sel) = n) (hn : n ≠ 0) :
    mapSlotCheck env t v bad d = mapTrap n := by
  simp only [mapSlotCheck, h, hb, bne_iff_ne, ne_eq, hn, not_false_eq_true, if_true]

theorem mapSlotCheck_ok {sel : MapSel} (h : mapSel env d t v = some sel) (hb : bad (mapSlot d sel) = 0) :
    mapSlotCheck env t v bad d = .ok sel d := by
  simp only [mapSlotCheck, h, hb, bne_self_eq_false, Bool.false_eq_true, if_false]

end

section
variable {s : State} {pc : Dword} {a b : BitVec 5} {i : Instr} {bad : MapSlot → ℕ} {put : MapSlot → MapGen → MapSlot × Option MapGen} {sel : MapSel}
  (h : Stands s .a pc false)
include h

/-- The map words that install a generation report what is wrong with their selector (R157). -/
theorem aTry_mapWord_trap {n : ℕ} (hal : ((iter s).a a).toNat % 128 = 0)
    (hc : mapSlotCheck s.env s.env.unit ((iter s).a b) bad s.dev = mapTrap n) :
    aTry i (mapWord a b bad put) s = .next (withDev s (enterTrap s.env s.dev s.env.unit .a pc 0x0A (dw n) 0 0 0)) := by
  refine aTry_trap (f := mapWord a b bad put) h ?_
  have hal' : aligned ((s.dev.tile s.env.unit).core.a a) 128 = true := aligned_iff.mpr hal
  simp only [mapWord, hal', Bool.not_true, Bool.false_eq_true, if_false]
  rw [show mapSlotCheck s.env s.env.unit ((s.dev.tile s.env.unit).core.a b) bad s.dev = _ from hc]
  rfl

/-- They wait for the unperformed writes of a generation that drains (R156). -/
theorem aTry_mapWord_wait (hal : ((iter s).a a).toNat % 128 = 0) (hsel : mapSel s.env s.dev s.env.unit ((iter s).a b) = some sel)
    (hb : bad (mapSlot s.dev sel) = 0) (hdr : drained s.dev (mapSlot s.dev sel).drain = false) :
    aTry i (mapWord a b bad put) s = .next (withDev s (setWait s.dev ⟨s.env.unit, .a, pc, false⟩ Wait.idle)) := by
  refine aTry_wait (f := mapWord a b bad put) h ?_
  have hal' : aligned ((s.dev.tile s.env.unit).core.a a) 128 = true := aligned_iff.mpr hal
  simp only [mapWord, hal', Bool.not_true, Bool.false_eq_true, if_false]
  refine (Res.bind_of_ok (mapSlotCheck_ok hsel hb)).trans ?_
  simp only [hdr, Bool.not_false, if_true]

/-- With a descriptor that passes its checks the slot takes what the word puts there (R156). -/
theorem aTry_mapWord_done {m : ℕ} {d2 : Dev} (hal : ((iter s).a a).toNat % 128 = 0)
    (hsel : mapSel s.env s.dev s.env.unit ((iter s).a b) = some sel) (hb : bad (mapSlot s.dev sel) = 0)
    (hdr : drained s.dev (mapSlot s.dev sel).drain = true) (hr : readDesc s.env s.env.unit ((iter s).a a) s.dev = .ok m d2)
    (hm : mapCheck d2 sel (iter s).csr.vfid m = 0) :
    ∃ t, aTry i (mapWord a b bad put) s = .next t ∧ MemSame s t ∧ (iter t).regs = (iter s).regs ∧
      mapSlot t.dev sel = (put (mapSlot s.dev sel) (mapGen s.dev.genNo ((iter s).a a) (iter s).csr.vfid s.env.unit m)).1 := by
  have hgen : d2.genNo = s.dev.genNo := (readDesc_quiet quiet_genNo ..).ok hr
  have hcore : (d2.tile s.env.unit).core = iter s := (readDesc_quiet (quiet_core _) ..).ok hr
  have hmem : d2.mem = s.dev.mem := (readDesc_mem ..).ok hr
  have hslot : mapSlot d2 sel = mapSlot s.dev sel := ((readDesc_keepsSlots ..).ok hr).mapSlot sel
  let p := put (mapSlot s.dev sel) (mapGen s.dev.genNo ((iter s).a a) (iter s).csr.vfid s.env.unit m)
  let d3 : Dev := { setMapSlot d2 sel p.1 with genNo := s.dev.genNo + 1 }
  have hdone : mapWord a b bad put s.env ⟨s.env.unit, .a, pc, false⟩ s.dev = .ok () (reportRetired s.env.unit sel p.2 d3) := by
    have hal' : aligned ((s.dev.tile s.env.unit).core.a a) 128 = true := aligned_iff.mpr hal
    simp only [mapWord, hal', Bool.not_true, Bool.false_eq_true, if_false]
    refine (Res.bind_of_ok (mapSlotCheck_ok hsel hb)).trans ?_
    simp only [hdr, Bool.not_true, Bool.false_eq_true, if_false]
    refine (Res.bind_of_ok hr).trans ?_
    have hm' : mapCheck d2 sel (s.dev.tile s.env.unit).core.csr.vfid m = 0 := hm
    simp only [hm', bne_self_eq_false, Bool.false_eq_true, if_false, hslot, hgen]
    show (match p.2 with
      | none => Res.ok () d3
      | some g => Res.ok () (postRunning d3 s.env.unit (retiredRec sel g) (getPts d3 (.tile s.env.unit 0)))) = _
    cases p.2 <;> rfl
  refine ⟨_, aTry_ok (f := mapWord a b bad put) h hdone, walked_memSame ?_, ?_, ?_⟩
  · rw [reportRetired_mem]; exact (setMapSlot_mem ..).trans hmem
  · rw [walked_regs, reportRetired_regs]; exact congrArg TCore.regs ((setMapSlot_core ..).trans hcore)
  · rw [(walked_sameSlots ..).mapSlot, (reportRetired_sameSlots ..).mapSlot]; exact mapSlot_setMapSlot d2 sel p.1

end

end Sys2Proof.Machine

namespace Sys2Proof.Machine

open Sys2Proof.Safety

/-! ### MAPINST, MAPSWAP, MAPRET and MAPQ (R156, R157) -/

theorem instBad_free {x : MapSlot} (ha : x.act = none) (hd : x.drain = none) : instBad x = 0 := by simp [instBad, ha, hd]

theorem instBad_used {x : MapSlot} (h : x.act ≠ none ∨ x.drain ≠ none) : instBad x = 17 := by
  rcases h with h | h <;> simp [instBad, Option.isSome_iff_ne_none.mpr h]

theorem swapBad_active {x : MapSlot} (h : x.act ≠ none) : swapBad x = 0 := by
  simp [swapBad, h]

theorem swapBad_none {x : MapSlot} (h : x.act = none) : swapBad x = 18 := by simp [swapBad, h]

theorem retBad_used {x : MapSlot} (h : x.act ≠ none ∨ x.drain ≠ none) : retBad x = 0 := by
  rcases h with h | h <;> simp [retBad, h]

theorem retBad_free {x : MapSlot} (ha : x.act = none) (hd : x.drain = none) : retBad x = 19 := by simp [retBad, ha, hd]

section
variable {s : State} {pc : Dword} {a b d : BitVec 5} {sel : MapSel} (h : Stands s .a pc false)
include h

theorem exec_mapret_trap {n : ℕ} (hc : mapSlotCheck s.env s.env.unit ((iter s).a b) retBad s.dev = mapTrap n) :
    exec (.mapret b) s = .next (withDev s (enterTrap s.env s.dev s.env.unit .a pc 0x0A (dw n) 0 0 0)) :=
  aTry_trap (f := mapretWord b) h (by
    rw [mapretWord, show mapSlotCheck s.env s.env.unit ((s.dev.tile s.env.unit).core.a b) retBad s.dev = _ from hc]; rfl)

theorem exec_mapq_trap (hsel : mapSel s.env s.dev s.env.unit ((iter s).a b) = none) :
    exec (.mapq d b) s = .next (withDev s (enterTrap s.env s.dev s.env.unit .a pc 0x0A 16 0 0 0)) :=
  aTry_trap (f := mapqWord d b) h (by
    rw [mapqWord, mapSlotCheck_none (v := (s.dev.tile s.env.unit).core.a b) hsel]; rfl)

variable (hsel : mapSel s.env s.dev s.env.unit ((iter s).a b) = some sel)
include hsel

/-- MAPRET retires the draining generation once its writes are performed (R156). -/
theorem exec_mapret_retires {g : MapGen} (hg : (mapSlot s.dev sel).drain = some g) (hp : pendOf s.dev g = 0) :
    ∃ t, exec (.mapret b) s = .next t ∧ t.dev.mem = s.dev.mem ∧ (iter t).regs = (iter s).regs ∧ ((iter t).engine .a).pc = pc + 4 ∧
      mapSlot t.dev sel = { act := (mapSlot s.dev sel).act, drain := none } ∧ t.dev.later = s.dev.later := by
  let d2 := setMapSlot s.dev sel { mapSlot s.dev sel with drain := none }
  have hdone : mapretWord b s.env ⟨s.env.unit, .a, pc, false⟩ s.dev = .ok () (reportRetired s.env.unit sel (some g) d2) := by
    refine (Res.bind_of_ok (mapSlotCheck_ok hsel (retBad_used (Or.inr (by rw [hg]; exact Option.some_ne_none g))))).trans ?_
    simp only [hg, drained, hp, beq_self_eq_true, Bool.not_true, Bool.false_eq_true, if_false]
    rfl
  refine ⟨_, aTry_ok (f := mapretWord b) h hdone, ?_, ?_, walked_pc .., ?_, ?_⟩
  · rw [walked_mem, reportRetired_mem]; exact setMapSlot_mem ..
  · rw [walked_regs, reportRetired_regs]; exact congrArg TCore.regs (setMapSlot_core ..)
  · rw [(walked_sameSlots ..).mapSlot, (reportRetired_sameSlots ..).mapSlot]; exact mapSlot_setMapSlot ..
  · rw [(walked_sameSlots ..).later, (reportRetired_sameSlots ..).later]; exact setMapSlot_later ..

/-- MAPRET with nothing draining makes the active generation drain, and waits (R156). -/
theorem exec_mapret_drains (ha : (mapSlot s.dev sel).act ≠ none) (hg : (mapSlot s.dev sel).drain = none) :
    exec (.mapret b) s = .next (withDev s (setWait
      (setMapSlot s.dev sel { act := none, drain := (mapSlot s.dev sel).act }) ⟨s.env.unit, .a, pc, false⟩ Wait.idle)) := by
  refine aTry_wait (f := mapretWord b) h ?_
  refine (Res.bind_of_ok (mapSlotCheck_ok hsel (retBad_used (Or.inl ha)))).trans ?_
  simp only [hg]

/-- MAPRET waits for the writes of a generation that drains (R156). -/
theorem exec_mapret_waits {g : MapGen} (hg : (mapSlot s.dev sel).drain = some g) (hp : pendOf s.dev g ≠ 0) :
    exec (.mapret b) s = .next (withDev s (setWait s.dev ⟨s.env.unit, .a, pc, false⟩ Wait.idle)) := by
  refine aTry_wait (f := mapretWord b) h ?_
  refine (Res.bind_of_ok (mapSlotCheck_ok hsel (retBad_used (Or.inr (by rw [hg]; exact Option.some_ne_none g))))).trans ?_
  have hd : drained s.dev (some g) = false := beq_false_of_ne hp
  simp only [hg, hd, Bool.not_false, if_true]

theorem exec_mapq : ∃ t, exec (.mapq d b) s = .next t ∧ MemSame s t ∧ mapSlot t.dev sel = mapSlot s.dev sel ∧
    (iter t).regs = ((iter s).setA d (dw (mapStatus s.dev (mapSlot s.dev sel)))).regs := by
  have hdone : mapqWord d b s.env ⟨s.env.unit, .a, pc, false⟩ s.dev =
      .ok () (s.dev.onCore s.env.unit fun c => c.setA d (dw (mapStatus s.dev (mapSlot s.dev sel)))) :=
    Res.bind_of_ok (mapSlotCheck_ok hsel rfl)
  refine ⟨_, aTry_ok (f := mapqWord d b) h hdone, walked_memSame rfl, ?_, ?_⟩
  · rw [(walked_sameSlots ..).mapSlot]
    exact (SameSlots.onTile s.dev s.env.unit (f := fun y => { y with core := y.core.setA d _ }) fun _ => rfl).mapSlot sel
  · rw [walked_regs, Dev.tile_onCore, if_pos rfl]; rfl

end

/-- What MAPQ returns, by the generations of the slot (R157). -/
theorem mapStatus_eq (d : Dev) (x : MapSlot) : mapStatus d x =
    (x.act.elim 0 fun g => g.key.toNat * 2 ^ 40 + g.prio.toNat * 2 ^ 36 + 1) +
      x.drain.elim 0 fun g => min (pendOf d g) (2 ^ 24 - 1) * 256 + 2 := by
  unfold mapStatus
  cases x.act with
  | none => cases x.drain with
    | none => rfl
    | some k => simp [b2n]
  | some g => cases x.drain with
    | none => simp [b2n]
    | some k => simp only [b2n, Option.isSome_some, Option.elim_some, if_true]; omega

theorem mapWords : Claims.MapWords := by
  intro s pc a b d sel m d2 h hsel
  refine ⟨fun hal hr hm => ⟨fun ha hd => ?_, fun g0 ha hd => ?_⟩, fun g0 hg hp => ?_,
    exec_mapret_drains h hsel, fun g0 hg hp => ⟨exec_mapret_waits h hsel hg hp, fun ha hal => ?_⟩, ?_⟩
  · exact aTry_mapWord_done (put := fun _ g => ({ act := some g }, none)) h hal hsel (instBad_free ha hd) (by rw [hd]; rfl) hr hm
  · obtain ⟨t, ht, hmem, hregs, hslot⟩ := aTry_mapWord_done (i := .mapswap a b) (put := swapPut) h hal hsel
      (swapBad_active (by rw [ha]; exact Option.some_ne_none g0)) hd hr hm
    exact ⟨t, ht, hmem, hregs, by rw [hslot, swapPut, ha]⟩
  · obtain ⟨t, ht, hmem, hregs, -, hslot, -⟩ := exec_mapret_retires h hsel hg hp
    exact ⟨t, ht, fun k => congrArg (Memory.get k) hmem, hregs, hslot⟩
  · exact aTry_mapWord_wait h hal hsel (swapBad_active ha) (by rw [hg]; exact beq_false_of_ne hp)
  · obtain ⟨t, ht, hmem, hslot, hregs⟩ := exec_mapq (d := d) h hsel
    refine ⟨t, ht, hmem, hslot, hregs.trans ?_⟩
    rw [mapStatus_eq]
    cases (mapSlot s.dev sel).act <;> cases (mapSlot s.dev sel).drain <;> rfl

theorem mapTraps : Claims.MapTraps := by
  intro s pc a b d h trapped
  refine ⟨fun hsel => ⟨exec_mapret_trap h (mapSlotCheck_none hsel), exec_mapq_trap h hsel, fun hal => ⟨?_, ?_⟩⟩,
    fun sel hsel => ⟨fun hal => ⟨fun hu => ?_, fun ha => ?_⟩, fun ha hd => ?_⟩⟩
  · exact aTry_mapWord_trap h hal (mapSlotCheck_none hsel)
  · exact aTry_mapWord_trap h hal (mapSlotCheck_none hsel)
  · exact aTry_mapWord_trap h hal (mapSlotCheck_bad hsel (instBad_used hu) (by decide))
  · exact aTry_mapWord_trap h hal (mapSlotCheck_bad hsel (swapBad_none ha) (by decide))
  · exact exec_mapret_trap h (mapSlotCheck_bad hsel (retBad_free ha hd) (by decide))

/-- Settles O25: a map word by the state of the slot that its selector names (`mapSlotCheck_ok`, `mapSlotCheck_bad`), with the frame that reading
a descriptor moves no slot (`readDesc_keepsSlots`). -/
theorem mapForms : Obligations.MapForms := ⟨mapWords, mapTraps⟩

end Sys2Proof.Machine

namespace Sys2Proof.Machine

open Sys2Proof.Safety

/-! ### Placing a command in its queue (R147) -/

theorem queue_setQueue (d : Dev) (t p : ℕ) {q : ℕ} (l : List Cmd) (hq : q < 6) :
    (d.setQueue t q l).queue t p = if p = q then l else d.queue t p := by
  simp only [Dev.queue, Dev.setQueue]
  rw [Dev.tile_onTile, if_pos rfl, vget_vset _ _ _ _ hq]

theorem queue_onCore (d : Dev) (t u p : ℕ) (f : TCore → TCore) : (d.onCore t f).queue u p = d.queue u p := by
  simp only [Dev.queue, Dev.tile_onCore]
  split
  · next h => rw [h]
  · rfl

theorem setQueue_core (d : Dev) (t q : ℕ) (l : List Cmd) (u : ℕ) : ((d.setQueue t q l).tile u).core = (d.tile u).core := by
  rw [Dev.setQueue, Dev.tile_onTile]
  split
  · next h => rw [h]
  · rfl

theorem walked_queue (s : State) (pc next : Dword) (d : Dev) (e : Eng) (hand : Bool) (p : Prev) (q : ℕ) :
    (walked s pc d e hand next p).dev.queue s.env.unit q = d.queue s.env.unit q := by
  have h : (walked s pc d e hand next p).dev.tile s.env.unit = _ := walkTo_tile d ⟨s.env.unit, e, pc, hand⟩ next p
  simp only [Dev.queue, h]

theorem nameQueue_regs (q : BitVec 5) (c : TCore) : (nameQueue q c).regs = c.regs := by unfold nameQueue; split <;> rfl

theorem nameQueue_eq (q : BitVec 5) (c : TCore) : nameQueue q c = { c with named := (nameQueue q c).named } := by
  unfold nameQueue; split <;> rfl

/-- The device with a command at the tail of its queue, which the iteration has named (R113, R147). -/
def enqueued (t : ℕ) (q : BitVec 5) (c : Cmd) (d : Dev) : Dev :=
  (d.onCore t (nameQueue q)).setQueue t q.toNat (d.queue t q.toNat ++ [c])

section
variable {env : Env} {t : ℕ} {q : BitVec 5} {c : Cmd} {d : Dev} (hroom : (d.queue t q.toNat).length < 32)
include hroom

theorem appendCmd_places (hc : c.bytes ≠ 0 ∨ c.isNotify = true) : appendCmd env t q c d = .ok () (enqueued t q c d) := by
  have hno : (decide (c.bytes = 0) && !c.isNotify) = false := by
    rcases hc with hc | hc <;> simp [hc]
  simp only [appendCmd, not_le.mpr hroom, hno, if_false, Bool.false_eq_true, queue_onCore]
  rfl

/-- A command of no bytes completes at once (R150). -/
theorem appendCmd_empty (hc : c.bytes = 0) (hn : c.isNotify = false) :
    appendCmd env t q c d = signalCmd env t q.toNat c 0 0 (d.onCore t (nameQueue q)) := by
  simp only [appendCmd, not_le.mpr hroom, hc, hn, if_false, decide_true, Bool.not_false, Bool.and_self, if_true]

end

/-- The target of a command is a multiple of 16, where the command has one that is an address (R147). -/
def TargetAligned (s : State) (a : BitVec 5) (k : BitVec 2) : Prop := k.toNat < 2 → ((iter s).a a).toNat % 16 = 0

theorem target_aligned {s : State} {a : BitVec 5} {k : BitVec 2} (h : TargetAligned s a k) :
    (decide (k.toNat < 2) && !aligned ((iter s).a a) 16) = false := by
  by_cases hk : k.toNat < 2
  · rw [aligned_iff.mpr (h hk)]; simp
  · simp [hk]

theorem target_misaligned {s : State} {a : BitVec 5} {k : BitVec 2} (hk : k.toNat < 2) (h : ((iter s).a a).toNat % 16 ≠ 0) :
    (decide (k.toNat < 2) && !aligned ((iter s).a a) 16) = true := by
  simp [hk, aligned, h]

/-- What the checks of a command add to it: the descriptors that its operands name, and a transfer's receiver. -/
def Cmd.Resolved (c c1 : Cmd) : Prop := c1 = { c with src := c1.src, dst := c1.dst, recv := c1.recv, sent := c1.sent }

/-- The command that a word of A makes. -/
def cmdOf (s : State) (kind : CmdKind) (n : ℕ) (a b : BitVec 5) (k : BitVec 2) : Cmd := newCmd s.dev s.env.unit kind n a b k

section
variable {s : State} {pc : Dword} {i : Instr} {kind : CmdKind} {n : ℕ} {a b : BitVec 5} {k : BitVec 2} {q : BitVec 5}
  (h : Stands s .a pc false)
include h

/-- A word whose effect is a command at the tail of its queue. -/
theorem places_of_enqueued {f : Env → At → Dev → Res Unit} {c1 : Cmd} (hi : exec i s = aTry i f s) (hq : q.toNat ≤ 5)
    (hc1 : (cmdOf s kind n a b k).Resolved c1)
    (hf : f s.env ⟨s.env.unit, .a, pc, false⟩ s.dev = .ok () (enqueued s.env.unit q c1 s.dev)) :
    Claims.Places i s pc kind n a b k q.toNat := by
  have hqs (p : ℕ) : (enqueued s.env.unit q c1 s.dev).queue s.env.unit p =
      if p = q.toNat then s.dev.queue s.env.unit q.toNat ++ [c1] else s.dev.queue s.env.unit p := by
    rw [enqueued, queue_setQueue _ _ _ _ (by omega), queue_onCore]
  refine ⟨_, c1, hi.trans (aTry_ok h hf), walked_memSame rfl, ?_, walked_pc .., ?_, fun p _ hp => ?_, ?_⟩
  · rw [walked_regs, enqueued, setQueue_core, Dev.tile_onCore, if_pos rfl, nameQueue_regs]; rfl
  · rw [walked_queue, hqs, if_pos rfl]
  · rw [walked_queue, hqs, if_neg hp]
  · rw [hc1]
    exact ⟨rfl, rfl, rfl, rfl, rfl, rfl, rfl, rfl⟩

variable {check : Env → TCore → Cmd → Dev → Res Cmd}

/-- An ENG word that passes its checks places its command (R147). -/
theorem engTry_places {c1 : Cmd} (hi : exec i s = aTry i (fun env => engTry kind n a b k q (check env) env) s) (hq : q.toNat ≤ 5)
    (hal : TargetAligned s a k) (hroom : (s.dev.queue s.env.unit q.toNat).length < 32)
    (hcheck : check s.env (iter s) (cmdOf s kind n a b k) s.dev = .ok c1 s.dev) (hc1 : (cmdOf s kind n a b k).Resolved c1)
    (hbytes : 0 < c1.bytes) : Claims.Places i s pc kind n a b k q.toNat := by
  refine places_of_enqueued h hi hq hc1 ?_
  have hal' : (decide (k.toNat < 2) && !aligned (newCmd s.dev s.env.unit kind n a b k).tgt 16) = false := target_aligned hal
  simp only [engTry, hal', Bool.false_eq_true, if_false]
  exact (Res.bind_of_ok hcheck).trans (appendCmd_places hroom (Or.inl hbytes.ne'))

/-- The alignment of the target is checked first (R147). -/
theorem engTry_misaligned (hi : exec i s = aTry i (fun env => engTry kind n a b k q (check env) env) s) (hk : k.toNat < 2)
    (hm : ((iter s).a a).toNat % 16 ≠ 0) :
    exec i s = .next (withDev s (enterTrap s.env s.dev s.env.unit .a pc 0x0B ((iter s).a a) 16 0 0)) := by
  refine hi.trans (aTry_trap h ?_)
  have hm' : (decide (k.toNat < 2) && !aligned (newCmd s.dev s.env.unit kind n a b k).tgt 16) = true := target_misaligned hk hm
  simp only [engTry, hm', if_true]
  rfl

end

theorem Cmd.Resolved.refl (c : Cmd) : c.Resolved c := rfl

/-- Operand j of a command that has more. -/
theorem cmdOf_op (s : State) (kind : CmdKind) {n j : ℕ} (a b : BitVec 5) (k : BitVec 2) (hj : j < n) :
    (cmdOf s kind n a b k).op j = (iter s).a (b + BitVec.ofNat 5 j) := by
  show ((List.range n).map fun i => (iter s).a (b + BitVec.ofNat 5 i)).getD j 0 = _
  rw [List.getD_eq_getElem?_getD, List.getElem?_map, List.getElem?_range hj]
  rfl

/-! #### The checks of a command that passes them -/

theorem copyCheck_ok {core : TCore} {c : Cmd} {d : Dev} (h : (c.op 2).toNat < 2 ^ 40) : copyCheck core c d = .ok c d :=
  if_neg (not_le.mpr h)

theorem copy2dCheck_ok {core : TCore} {c : Cmd} {d : Dev} (h2 : (c.op 2).toNat < 2 ^ 32) (h3 : (c.op 3).toNat < 2 ^ 32)
    (hp : (c.op 2).toNat * (c.op 3).toNat < 2 ^ 40) : copy2dCheck core c d = .ok c d := by
  have h2' : ¬ 2 ^ 32 ≤ (c.op 2).toNat := not_le.mpr h2
  have h3' : (decide (2 ^ 32 ≤ (c.op 3).toNat) || decide (2 ^ 40 ≤ (c.op 2).toNat * (c.op 3).toNat)) = false := by
    rw [decide_eq_false (not_le.mpr h3), decide_eq_false (not_le.mpr hp)]; rfl
  simp only [copy2dCheck, h2', h3', if_false, Bool.false_eq_true]

theorem gatherCheck_ok {core : TCore} {c : Cmd} {d : Dev} {x y : Row} (hx : tidOf core.tids (bitsN (c.op 0) 0 8) = some x)
    (hy : tidOf core.tids (bitsN (c.op 0) 8 8) = some y) (hf : tFmt x = tFmt y) (hs : tSize x 0 = tSize y 0) (hw : tWritable y = true)
    (h0 : (c.op 0).toNat < 2 ^ 16) (h1 : (c.op 1).toNat % 4 = 0) (h2 : (c.op 2).toNat < 2 ^ 32)
    (hl : (c.op 3).toNat + (c.op 2).toNat ≤ tLines (if c.kind == .gather then y else x)) :
    gatherCheck core c d = .ok { c with src := some x, dst := some y } d := by
  have h0' : ¬ 2 ^ 16 ≤ (c.op 0).toNat := not_le.mpr h0
  have h2' : ¬ 2 ^ 32 ≤ (c.op 2).toNat := not_le.mpr h2
  simp only [gatherCheck, aligned_iff.mpr h1, hx, hy, hf, hs, hw, h0', h2', not_lt.mpr hl, bne_self_eq_false, Bool.not_true, Bool.or_self,
    Bool.false_eq_true, if_false]

/-- A box within its tensor (R154): no extent is 0, no dimension leaves the tensor, and none above RANK has more than one element. -/
def Cmd.BoxIn (c : Cmd) (x : Row) : Prop :=
  ∀ j, j < 4 → 0 < c.ext j ∧ c.org j + c.ext j ≤ tSize x j ∧ (tRank x ≤ j → c.ext j ≤ 1)

theorem boxBad_in {c : Cmd} {x : Row} (h0 : (c.op 0).toNat < 2 ^ 8) (h : c.BoxIn x) : boxBad c x = 9 := by
  have hb : ((List.range 4).flatMap fun i => (if tRank x ≤ i && decide (1 < c.ext i) then [3 + i / 2] else []) ++
      (if !((List.range 4).any fun i => c.ext i == 0) && decide (tSize x i < c.org i + c.ext i) then [1 + i / 2] else [])) = [] := by
    rw [List.flatMap_eq_nil_iff]
    intro i hi
    obtain ⟨_, hin, hrank⟩ := h i (List.mem_range.mp hi)
    have h1 : (decide (tRank x ≤ i) && decide (1 < c.ext i)) = false := by
      by_cases hr : tRank x ≤ i
      · rw [decide_eq_false (not_lt.mpr (hrank hr)), Bool.and_false]
      · rw [decide_eq_false hr, Bool.false_and]
    rw [h1, decide_eq_false (not_lt.mpr hin), Bool.and_false]
    rfl
  have h0' : ¬ 2 ^ 8 ≤ (c.op 0).toNat := not_le.mpr h0
  simp only [boxBad, h0', if_false, List.nil_append]
  rw [hb]
  rfl

/-- What XFER and XFERM ask of their tensor and box (R29, R154). -/
structure Cmd.BoxOk (core : TCore) (c : Cmd) (x : Row) : Prop where
  tid : tidOf core.tids (bitsN (c.op 0) 0 8) = some x
  key : tKey x ≠ 0
  fmt : tFmt x ≠ 8 ∧ tFmt x ≠ 9
  op0 : (c.op 0).toNat < 2 ^ 8
  box : c.BoxIn x

section
variable {env : Env} {core : TCore} {c : Cmd} {d : Dev} {x : Row} (h : c.BoxOk core x)
include h

theorem xferCheck_ok (hk : c.kind = .xfer) (ht : targetOk env (c.op 5) = true) :
    xferCheck env core c d = .ok { c with src := some x, recv := some [c.op 5], sent := [0] } d := by
  obtain ⟨htid, hkey, ⟨h8, h9⟩, h0, hbox⟩ := h
  simp [xferCheck, hk, htid, hkey, h8, h9, boxBad_in h0 hbox, ht]

theorem xfermCheck_ok (hk : c.kind = .xferm) (h5 : (c.op 5).toNat % 8 = 0) (h1 : 1 ≤ (c.op 6).toNat) (h64 : (c.op 6).toNat ≤ 64) :
    xferCheck env core c d = .ok { c with src := some x } d := by
  obtain ⟨htid, hkey, ⟨h8, h9⟩, h0, hbox⟩ := h
  have h1' : ¬ (c.op 6).toNat < 1 := by omega
  simp [xferCheck, hk, htid, hkey, h8, h9, boxBad_in h0 hbox, aligned_iff.mpr h5, h1', h64]

end

end Sys2Proof.Machine

namespace Sys2Proof.Machine

open Sys2Proof.Safety

/-! ### The words of the asynchronous queues (R150 to R155) -/

theorem bitsN_zero {w : ℕ} (x : BitVec w) (n : ℕ) : bitsN x 0 n = x.toNat % 2 ^ n := by rw [bitsN, pow_zero, Nat.div_one]

/-- The box of a transfer depends on its operands 1 to 4 alone. -/
theorem Cmd.box_congr {c e : Cmd} (h : ∀ j, j < 6 → c.op j = e.op j) {j : ℕ} (hj : j < 4) : c.ext j = e.ext j ∧ c.org j = e.org j := by
  unfold Cmd.ext Cmd.org Cmd.pair
  rw [h (3 + j / 2) (by omega), h (1 + j / 2) (by omega)]
  exact ⟨rfl, rfl⟩

theorem Cmd.BoxIn.congr {c e : Cmd} {x : Row} (h : ∀ j, j < 6 → c.op j = e.op j) (hb : c.BoxIn x) : e.BoxIn x := fun j hj => by
  obtain ⟨he, ho⟩ := Cmd.box_congr h hj
  rw [← he, ← ho]
  exact hb j hj

/-- Bytes of the box of a transfer. -/
def Cmd.boxBytes (c : Cmd) (x : Row) : ℕ := c.ext 0 * c.ext 1 * c.ext 2 * c.ext 3 * fmtBytes (tFmt x)

theorem Cmd.boxBytes_congr {c e : Cmd} (x : Row) (h : ∀ j, j < 6 → c.op j = e.op j) : c.boxBytes x = e.boxBytes x := by
  unfold Cmd.boxBytes
  rw [(Cmd.box_congr h (j := 0) (by omega)).1, (Cmd.box_congr h (j := 1) (by omega)).1, (Cmd.box_congr h (j := 2) (by omega)).1,
    (Cmd.box_congr h (j := 3) (by omega)).1]

section
variable {s : State} {pc : Dword} {a b : BitVec 5} {k : BitVec 2} {q : BitVec 5} (h : Stands s .a pc false) (hq : q.toNat ≤ 5)
  (hal : TargetAligned s a k) (hroom : (s.dev.queue s.env.unit q.toNat).length < 32)
include h hq hal hroom

/-- Operand j as the iteration holds it. -/
def opOf (s : State) (b : BitVec 5) (j : ℕ) : Dword := (iter s).a (b + BitVec.ofNat 5 j)

theorem copy_places (h0 : 0 < (opOf s b 2).toNat) (hlt : (opOf s b 2).toNat < 2 ^ 40) :
    Claims.Places (.copy a b k q) s pc .copy 3 a b k q.toNat := by
  have h2 : (cmdOf s .copy 3 a b k).op 2 = opOf s b 2 := cmdOf_op s .copy a b k (by omega)
  exact engTry_places (check := fun _ => copyCheck) h rfl hq hal hroom (copyCheck_ok (by rw [h2]; exact hlt)) (Cmd.Resolved.refl _)
    (by show 0 < ((cmdOf s .copy 3 a b k).op 2).toNat; rw [h2]; exact h0)

theorem copy2d_places (h2 : 0 < (opOf s b 2).toNat) (h3 : 0 < (opOf s b 3).toNat) (hl2 : (opOf s b 2).toNat < 2 ^ 32)
    (hl3 : (opOf s b 3).toNat < 2 ^ 32) (hp : (opOf s b 2).toNat * (opOf s b 3).toNat < 2 ^ 40) :
    Claims.Places (.copy2d a b k q) s pc .copy2d 6 a b k q.toNat := by
  have ho2 : (cmdOf s .copy2d 6 a b k).op 2 = opOf s b 2 := cmdOf_op s .copy2d a b k (by omega)
  have ho3 : (cmdOf s .copy2d 6 a b k).op 3 = opOf s b 3 := cmdOf_op s .copy2d a b k (by omega)
  refine engTry_places (check := fun _ => copy2dCheck) h rfl hq hal hroom (copy2dCheck_ok ?_ ?_ ?_) (Cmd.Resolved.refl _) ?_
  · rw [ho2]; exact hl2
  · rw [ho3]; exact hl3
  · rw [ho2, ho3]; exact hp
  · show 0 < ((cmdOf s .copy2d 6 a b k).op 2).toNat * ((cmdOf s .copy2d 6 a b k).op 3).toNat
    rw [ho2, ho3]
    exact Nat.mul_pos h2 h3

/-- What GATHER and SCATTER ask of their tensors and operands beyond the number of lines (R153). -/
structure IndexedOk (s : State) (b : BitVec 5) (x y : Row) : Prop where
  src : tidOf (iter s).tids ((opOf s b 0).toNat % 256) = some x
  dst : tidOf (iter s).tids ((opOf s b 0).toNat / 256 % 256) = some y
  fmt : tFmt x = tFmt y
  size : tSize x 0 = tSize y 0
  writable : tWritable y = true
  op0 : (opOf s b 0).toNat < 2 ^ 16
  op1 : (opOf s b 1).toNat % 4 = 0
  op2 : (opOf s b 2).toNat < 2 ^ 32
  some_ : 0 < (opOf s b 2).toNat * tLineBytes x

theorem indexed_places {i : Instr} {kind : CmdKind} {x y : Row} (hkind : kind = .gather ∨ kind = .scatter)
    (hi : exec i s = aTry i (fun env => engTry kind 4 a b k q gatherCheck env) s) (hx : IndexedOk s b x y)
    (hl : (opOf s b 3).toNat + (opOf s b 2).toNat ≤ tLines (if kind == .gather then y else x)) :
    Claims.Places i s pc kind 4 a b k q.toNat := by
  have ho (j : ℕ) (hj : j < 4) : (cmdOf s kind 4 a b k).op j = opOf s b j := cmdOf_op s kind a b k hj
  obtain ⟨hsrc, hdst, hf, hsz, hw, h0, h1, h2, hpos⟩ := hx
  refine engTry_places (check := fun _ => gatherCheck) h hi hq hal hroom
    (gatherCheck_ok (x := x) (y := y) ?_ ?_ hf hsz hw ?_ ?_ ?_ ?_) rfl ?_
  · rw [ho 0 (by omega), bitsN_zero]; exact hsrc
  · rw [ho 0 (by omega)]; exact hdst
  · rw [ho 0 (by omega)]; exact h0
  · rw [ho 1 (by omega)]; exact h1
  · rw [ho 2 (by omega)]; exact h2
  · rw [ho 3 (by omega), ho 2 (by omega)]; exact hl
  · have hb : Cmd.bytes { cmdOf s kind 4 a b k with src := some x, dst := some y } = ((cmdOf s kind 4 a b k).op 2).toNat * tLineBytes x := by
      rcases hkind with rfl | rfl <;> rfl
    rw [hb, ho 2 (by omega)]
    exact hpos

/-- A transfer as its word names it, before its kind and receivers are known. -/
def boxCmd (s : State) (b : BitVec 5) (x : Row) : Cmd := { kind := .xfer, ops := (List.range 7).map (opOf s b), src := some x }

omit h hq hal hroom in
theorem boxCmd_op (x : Row) {kind : CmdKind} {n j : ℕ} (hn : n ≤ 7) (hj : j < n) : (boxCmd s b x).op j = (cmdOf s kind n a b k).op j := by
  rw [cmdOf_op _ _ _ _ _ hj]
  show ((List.range 7).map fun i => (iter s).a (b + BitVec.ofNat 5 i)).getD j 0 = _
  rw [List.getD_eq_getElem?_getD, List.getElem?_map, List.getElem?_range (by omega)]
  rfl

/-- What XFER and XFERM ask of their tensor and box, as the statement puts it (R29, R154). -/
structure BoxedOk (s : State) (b : BitVec 5) (x : Row) : Prop where
  src : tidOf (iter s).tids ((opOf s b 0).toNat % 256) = some x
  key : tKey x ≠ 0
  fmt : tFmt x ≠ 8 ∧ tFmt x ≠ 9
  op0 : (opOf s b 0).toNat < 2 ^ 8
  box : (boxCmd s b x).BoxIn x
  some_ : 0 < (boxCmd s b x).bytes

omit h hq hal hroom in
theorem BoxedOk.boxOk {x : Row} (hx : BoxedOk s b x) {kind : CmdKind} {n : ℕ} (hn : 6 ≤ n) (h7 : n ≤ 7) :
    (cmdOf s kind n a b k).BoxOk (iter s) x := by
  obtain ⟨hsrc, hkey, hf, h0, hbox, -⟩ := hx
  have ho : (cmdOf s kind n a b k).op 0 = opOf s b 0 := cmdOf_op s kind a b k (by omega)
  exact ⟨by rw [ho, bitsN_zero]; exact hsrc, hkey, hf, by rw [ho]; exact h0, hbox.congr fun j hj => boxCmd_op x h7 (by omega)⟩

omit h hq hal hroom in
theorem BoxedOk.bytes_pos {x : Row} (hx : BoxedOk s b x) {kind : CmdKind} {n : ℕ} (hn : 6 ≤ n) (h7 : n ≤ 7) :
    0 < (cmdOf s kind n a b k).boxBytes x := by
  have := Cmd.boxBytes_congr x fun j hj => boxCmd_op (s := s) (a := a) (b := b) (k := k) x (kind := kind) h7 (show j < n by omega)
  rw [← this]
  exact hx.some_

theorem xfer_places {x : Row} (hx : BoxedOk s b x) (ht : targetOk s.env (opOf s b 5) = true) :
    Claims.Places (.xfer a b k q) s pc .xfer 6 a b k q.toNat := by
  have h5 : (cmdOf s .xfer 6 a b k).op 5 = opOf s b 5 := cmdOf_op s .xfer a b k (by omega)
  exact engTry_places (check := xferCheck) h rfl hq hal hroom (xferCheck_ok (hx.boxOk le_rfl (by omega)) rfl (by rw [h5]; exact ht)) rfl
    (hx.bytes_pos (a := a) (k := k) (kind := .xfer) le_rfl (by omega))

theorem xferm_places {x : Row} (hx : BoxedOk s b x) (h5 : (opOf s b 5).toNat % 8 = 0) (h1 : 1 ≤ (opOf s b 6).toNat)
    (h64 : (opOf s b 6).toNat ≤ 64) : Claims.Places (.xferm a b k q) s pc .xferm 7 a b k q.toNat := by
  have ho5 : (cmdOf s .xferm 7 a b k).op 5 = opOf s b 5 := cmdOf_op s .xferm a b k (by omega)
  have ho6 : (cmdOf s .xferm 7 a b k).op 6 = opOf s b 6 := cmdOf_op s .xferm a b k (by omega)
  exact engTry_places (check := xferCheck) h rfl hq hal hroom (xfermCheck_ok (hx.boxOk (by omega) le_rfl) rfl (by rw [ho5]; exact h5)
    (by rw [ho6]; exact h1) (by rw [ho6]; exact h64)) rfl (hx.bytes_pos (a := a) (k := k) (kind := .xferm) (by omega) le_rfl)

theorem notify_places : Claims.Places (.notify a k q) s pc .notify 0 a 0 k q.toNat := by
  refine places_of_enqueued (f := notifyWord a k q) h rfl hq (Cmd.Resolved.refl _) ?_
  have hal' : (decide (k.toNat < 2) && !aligned (newCmd s.dev s.env.unit .notify 0 a 0 k).tgt 16) = false := target_aligned hal
  simp only [notifyWord, hal', Bool.false_eq_true, if_false, hq, if_true]
  exact appendCmd_places hroom (Or.inr rfl)

omit hq hal in
/-- A COPY of no bytes completes at once, with its record (R122, R150, R151). -/
theorem copy_empty (h2 : opOf s b 2 = 0) (hk : k = 2) (hev : (iter s).ev.length < 256) : ∃ t, exec (.copy a b k q) s = .next t ∧ MemSame s t ∧
    t.dev.queue s.env.unit q.toNat = s.dev.queue s.env.unit q.toNat ∧
    (iter t).ev = (iter s).ev ++ [(cmdRecord ((iter s).a a) 0 0 q.toNat 0, getPts s.dev (.tile s.env.unit (aqPath q.toNat)))] := by
  subst hk
  let r : Rec16 × Dword := (cmdRecord ((iter s).a a) 0 0 q.toNat 0, getPts s.dev (.tile s.env.unit (aqPath q.toNat)))
  let d1 := s.dev.onCore s.env.unit (nameQueue q)
  have ho2 : (cmdOf s .copy 3 a b 2).op 2 = 0 := (cmdOf_op s .copy a b 2 (by omega)).trans h2
  have hc1 : (d1.tile s.env.unit).core = nameQueue q (iter s) := by rw [Dev.tile_onCore, if_pos rfl]; rfl
  have hpost : postIter s.env d1 s.env.unit (iter s).iter.serial r.1 r.2 = d1.onCore s.env.unit fun c => { c with ev := c.ev ++ [r] } := by
    have hruns : (d1.tile s.env.unit).runs (iter s).iter.serial = true := by
      have hrun : (d1.tile s.env.unit).running = true := by rw [Dev.tile_onCore, if_pos rfl]; exact running_of_ready h.2
      simp only [Tile.runs, hrun, hc1, Bool.true_and, beq_iff_eq]
      rw [nameQueue_eq]
    have hroom1 : (d1.tile s.env.unit).core.ev.length < 256 := by rw [hc1, nameQueue_eq]; exact hev
    rw [postIter, if_pos hruns]
    exact onCore_congr (by rw [TCore.post, if_pos hroom1])
  have hpts : getPts d1 (.tile s.env.unit (aqPath q.toNat)) = getPts s.dev (.tile s.env.unit (aqPath q.toNat)) := by
    simp only [getPts]; rw [Dev.tile_onCore, if_pos rfl]
  have hdone : engTry .copy 3 a b 2 q copyCheck s.env ⟨s.env.unit, .a, pc, false⟩ s.dev =
      .ok () (d1.onCore s.env.unit fun c => { c with ev := c.ev ++ [r] }) := by
    have hal' : (decide ((2 : BitVec 2).toNat < 2) && !aligned (newCmd s.dev s.env.unit .copy 3 a b 2).tgt 16) = false := rfl
    simp only [engTry, hal', Bool.false_eq_true, if_false]
    refine (Res.bind_of_ok (copyCheck_ok (c := cmdOf s .copy 3 a b 2) (by rw [ho2]; decide))).trans ?_
    rw [appendCmd_empty hroom (by show ((cmdOf s .copy 3 a b 2).op 2).toNat = 0; rw [ho2]; rfl) rfl]
    rw [← hpost, show r = (cmdRecord ((iter s).a a) 0 0 q.toNat 0, getPts d1 (.tile s.env.unit (aqPath q.toNat))) by rw [hpts]]
    rfl
  refine ⟨_, aTry_ok (f := engTry .copy 3 a b 2 q copyCheck) h hdone, walked_memSame rfl, ?_, ?_⟩
  · rw [walked_queue, queue_onCore, queue_onCore]
  · rw [walked_ev, Dev.tile_onCore, if_pos rfl, hc1, nameQueue_eq]

end

theorem commandWords : Claims.CommandWords := by
  intro s pc a b k q x y h hq hal hroom op
  refine ⟨copy_places h hq hal hroom, copy2d_places h hq hal hroom, fun hsrc hdst hf hsz hw h0 h1 h2 hpos => ?_,
    fun hsrc hkey h8 h9 h0 => ?_, notify_places h hq hal hroom, copy_empty h hroom⟩
  · have hx : IndexedOk s b x y := ⟨hsrc, hdst, hf, hsz, hw, h0, h1, h2, hpos⟩
    exact ⟨indexed_places h hq hal hroom (Or.inl rfl) rfl hx, indexed_places h hq hal hroom (Or.inr rfl) rfl hx⟩
  · intro c hbox hpos
    have hx : BoxedOk s b x := ⟨hsrc, hkey, ⟨h8, h9⟩, h0, hbox, hpos⟩
    exact ⟨xfer_places h hq hal hroom hx, xferm_places h hq hal hroom hx⟩

theorem notify_misaligned {s : State} {pc : Dword} {a : BitVec 5} {k : BitVec 2} {q : BitVec 5} (h : Stands s .a pc false) (hk : k.toNat < 2)
    (hm : ((iter s).a a).toNat % 16 ≠ 0) :
    exec (.notify a k q) s = .next (withDev s (enterTrap s.env s.dev s.env.unit .a pc 0x0B ((iter s).a a) 16 0 0)) := by
  refine aTry_trap (f := notifyWord a k q) h ?_
  have hm' : (decide (k.toNat < 2) && !aligned (newCmd s.dev s.env.unit .notify 0 a 0 k).tgt 16) = true := target_misaligned hk hm
  simp only [notifyWord, hm', if_true]
  rfl

theorem commandTraps : Claims.CommandTraps := by
  intro s pc a b k q h
  refine ⟨fun hk hm i hi => ?_, fun hal hle => ?_⟩
  · simp only [List.mem_cons, List.not_mem_nil, or_false] at hi
    rcases hi with rfl | rfl | rfl | rfl | rfl | rfl | rfl
    · exact engTry_misaligned (kind := .copy) (n := 3) (b := b) (check := fun _ => copyCheck) h rfl hk hm
    · exact engTry_misaligned (kind := .copy2d) (n := 6) (b := b) (check := fun _ => copy2dCheck) h rfl hk hm
    · exact engTry_misaligned (kind := .gather) (n := 4) (b := b) (check := fun _ => gatherCheck) h rfl hk hm
    · exact engTry_misaligned (kind := .scatter) (n := 4) (b := b) (check := fun _ => gatherCheck) h rfl hk hm
    · exact engTry_misaligned (kind := .xfer) (n := 6) (b := b) (check := xferCheck) h rfl hk hm
    · exact engTry_misaligned (kind := .xferm) (n := 7) (b := b) (check := xferCheck) h rfl hk hm
    · exact notify_misaligned h hk hm
  · refine aTry_trap (f := engTry .copy 3 a b k q copyCheck) h ?_
    have ho2 : (cmdOf s .copy 3 a b k).op 2 = (iter s).a (b + 2) := cmdOf_op s .copy a b k (by omega)
    have hal' : (decide (k.toNat < 2) && !aligned (newCmd s.dev s.env.unit .copy 3 a b k).tgt 16) = false := target_aligned hal
    have hbad : copyCheck (iter s) (cmdOf s .copy 3 a b k) s.dev = aShape 2 ((iter s).a (b + 2)) := by
      rw [copyCheck, ho2, if_pos hle]
    simp only [engTry, hal', Bool.false_eq_true, if_false]
    rw [show copyCheck (s.dev.tile s.env.unit).core (newCmd s.dev s.env.unit .copy 3 a b k) s.dev = _ from hbad]
    rfl

/-- Settles O24: an ENG word that passes its checks places its command (`engTry_places`), by what the checks of each kind ask for
(`copyCheck_ok`, `copy2dCheck_ok`, `gatherCheck_ok`, `xferCheck_ok`); the target's alignment is checked first (`engTry_misaligned`). -/
theorem commandForms : Obligations.CommandForms := ⟨commandWords, commandTraps⟩

end Sys2Proof.Machine

namespace Sys2Proof.Machine

open Sys2Proof.Safety

/-! ### What an issuing remote word looks at (R159)

The checks of a remote word keep translations, use the owner cache and read a line: memory, the iteration and the streams of the tile stand. -/

/-- Memory, and of a tile its iteration and its streams. -/
def Dev.issuing (t : ℕ) (d : Dev) : List Host.Cell × TCore × Vector (List NEntry) 16 := (d.mem, (d.tile t).core, (d.tile t).nq)

theorem quiet_streams (t : ℕ) : Quiet fun d => ((d.tile t).core, (d.tile t).nq) :=
  quiet_tile (g := fun y => (y.core, y.nq)) (fun _ _ h => by rw [Tile.Touched] at h; rw [h]) t

theorem Res.Keeps.prod {α β γ : Type} {π : Dev → β} {ρ : Dev → γ} {d : Dev} {r : Res α} (h : r.Keeps π d) (g : r.Keeps ρ d) :
    r.Keeps (fun d => (π d, ρ d)) d := by
  cases r with
  | ok x e => exact Prod.ext h g
  | wait w e => exact Prod.ext h g
  | trap c i0 i1 i2 i3 => trivial
  | sys c va => trivial
  | roll c => trivial

theorem locate_issuing (env : Env) (t : ℕ) (d : Dev) (w : Who) (k : AccKind) (va : Dword) :
    (locate env d w k va).Keeps (Dev.issuing t) d := (locate_mem ..).prod (locate_quiet (quiet_streams t) ..)

theorem tileLine_issuing (env : Env) (t u : ℕ) (d : Dev) (vf : BitVec 10) (cls : BitVec 4) (loc : Loc) :
    (tileLine env d u vf cls loc).Keeps (Dev.issuing t) d := (tileLine_mem ..).prod (tileLine_quiet (quiet_streams t) ..)

theorem keepTlb_issuing (env : Env) (t : ℕ) (d : Dev) (w : Who) (va : Dword) : (keepTlb env d w va).issuing t = d.issuing t := by
  rw [keepTlb_eq]; rfl

theorem ownerHit_issuing {d e : Dev} {vf : BitVec 10} {page : BitVec 55} {o : BitVec 6} (t : ℕ) (h : ownerHit d vf page = some (o, e)) :
    e.issuing t = d.issuing t := by
  unfold ownerHit at h
  split at h <;> cases h
  rfl

theorem remDest_issuing (env : Env) (t : ℕ) (w : Who) (wr : Bool) (va : Dword) (d : Dev) :
    (remDest env w wr va d).Keeps (Dev.issuing t) d := by
  unfold remDest
  dsimp only
  split
  · exact keepTlb_issuing ..
  · exact Eq.refl _
  · exact Eq.refl _
  · split
    · exact Eq.refl _
    · trivial
  · split
    · exact keepTlb_issuing ..
    · split
      · next h => exact (ownerHit_issuing t h).trans (keepTlb_issuing ..)
      · exact keepTlb_issuing ..

theorem flagReg_issuing (t : ℕ) (r : RemReq) (d : Dev) : (flagReg r d).Keeps (Dev.issuing t) d := by
  unfold flagReg; split
  · exact Eq.refl _
  · trivial

theorem remLocal_issuing (env : Env) (t u : ℕ) (r : RemReq) (d : Dev) : (remLocal env u r d).Keeps (Dev.issuing t) d := by
  unfold remLocal
  dsimp only
  split
  · exact (locate_issuing ..).bind fun _ _ => Eq.refl _
  · exact (locate_issuing ..).bind fun _ _ => flagReg_issuing ..
  · exact Eq.refl _
  · refine (flagReg_issuing ..).bind fun _ d1 => ?_
    split
    · exact Eq.refl _
    · exact (locate_issuing ..).bind fun _ _ => Eq.refl _

theorem remBody_issuing (env : Env) (t u : ℕ) (r : RemReq) (d : Dev) : (remBody env u r d).Keeps (Dev.issuing t) d := by
  unfold remBody
  split
  · refine (locate_issuing ..).bind fun x d1 => ?_
    dsimp only
    split
    · exact tileLine_issuing ..
    · exact tileLine_issuing ..
    · exact tileLine_issuing ..
    · trivial
  · exact Eq.refl _

/-! ### An access gets its numbers and stands in its stream (R276, R282, R283) -/

/-- The number of the next store of a stream to a target (R282). -/
def nextSsn (c : TCore) (s : ℕ) (dest : BitVec 6) (k : RKind) : Word := if k != .rld then c.net.ssn.get 0 (ssnKey s dest.toNat) + 1 else 0

/-- The number of the next store of a stream to a target on a path (R283). -/
def nextPsn (c : TCore) (s : ℕ) (dest : BitVec 6) (p : BitVec 2) (k : RKind) : Word :=
  if k != .rld then c.net.psn.get 0 (psnKey s dest.toNat p.toNat) + 1 else 0

/-- The body of an access with the counts that an ordered flag carries (R161, R313). -/
def numberedBody (y : Tile) (r : RemReq) (dest : BitVec 6) (body : List Byte) : List Byte :=
  if r.ord then body ++ ordCounts y r.s dest else if r.kind = .rstf then body ++ List.replicate 16 0 else body

/-- An access with its path and its numbers. -/
def launched (y : Tile) (r : RemReq) (e : NEntry) (p : BitVec 2) (body : List Byte) : NEntry :=
  { e with path := p, ssn := nextSsn y.core r.s e.target r.kind, psn := nextPsn y.core r.s e.target p r.kind
           hdr := { e.hdr with path := p, ssn := nextSsn y.core r.s e.target r.kind, psn := nextPsn y.core r.s e.target p r.kind }
           body := numberedBody y r e.target body }

/-- The iteration with the numbers of a store taken (R282, R283). -/
def TCore.numbered (c : TCore) (r : RemReq) (dest : BitVec 6) (p : BitVec 2) : TCore :=
  if r.kind != .rld then { c with net := { c.net with ssn := c.net.ssn.set (ssnKey r.s dest.toNat) (nextSsn c r.s dest r.kind)
                                                      psn := c.net.psn.set (psnKey r.s dest.toNat p.toNat) (nextPsn c r.s dest p r.kind) } }
  else c

theorem TCore.numbered_regs (c : TCore) (r : RemReq) (dest : BitVec 6) (p : BitVec 2) : (c.numbered r dest p).regs = c.regs := by
  unfold TCore.numbered; split <;> rfl

/-- The number that the last store of a stream to a target has taken. -/
theorem TCore.numbered_ssn (c : TCore) {r : RemReq} (dest : BitVec 6) (p : BitVec 2) (h : r.kind ≠ .rld) :
    (c.numbered r dest p).net.ssn.get 0 (ssnKey r.s dest.toNat) = nextSsn c r.s dest r.kind := by
  rw [TCore.numbered, if_pos (by simpa using h)]
  exact NMap.get_set_same ..

/-- The device with an access at the tail of its stream and its numbers taken, before its packet leaves. -/
def Dev.stand (d : Dev) (t : ℕ) (r : RemReq) (e : NEntry) (p : BitVec 2) : Dev :=
  let d0 := d.onTile t fun y => { y with nq := vset y.nq r.s (vget y.nq [] r.s ++ [e]) }
  if r.kind != .rld then d0.onCore t fun c => c.numbered r e.target p else d0

theorem Dev.stand_issuing (d : Dev) (t : ℕ) (r : RemReq) (e : NEntry) (p : BitVec 2) : (d.stand t r e p).issuing t =
    (d.mem, (d.tile t).core.numbered r e.target p, vset (d.tile t).nq r.s (d.stream t r.s ++ [e])) := by
  unfold Dev.stand
  dsimp only
  split
  · simp only [Dev.issuing, Dev.tile_onCore, Dev.tile_onTile, if_true]
    rfl
  · next hk =>
    simp only [Dev.issuing, Dev.tile_onTile, if_true, TCore.numbered, if_neg hk]
    rfl

theorem launch_eq (env : Env) (t : ℕ) (r : RemReq) (e : NEntry) (p : BitVec 2) (body : List Byte) (d : Dev) :
    launch env t r e p body d = sendRemote env (d.stand t r (launched (d.tile t) r e p body) p) e.target p
      (launched (d.tile t) r e p body).hdr (launched (d.tile t) r e p body).body := by
  have hd : d.stand t r (launched (d.tile t) r e p body) p =
      let d0 := d.onTile t fun y => { y with nq := vset y.nq r.s (vget y.nq [] r.s ++ [launched (d.tile t) r e p body]) }
      if r.kind != .rld then d0.onCore t fun c => { c with net := { c.net with
        ssn := c.net.ssn.set (ssnKey r.s e.target.toNat) (nextSsn (d.tile t).core r.s e.target r.kind)
        psn := c.net.psn.set (psnKey r.s e.target.toNat p.toNat) (nextPsn (d.tile t).core r.s e.target p r.kind) } } else d0 := by
    unfold Dev.stand
    dsimp only
    split
    · next hk => exact onCore_congr (by rw [Dev.tile_onTile, if_pos rfl, TCore.numbered, if_pos hk]; rfl)
    · rfl
  rw [hd]
  rfl

theorem sendRemote_issuing (env : Env) (d : Dev) (dest : BitVec 6) (path : BitVec 2) (h : RHdr) (b : List Byte) (t : ℕ) :
    (sendRemote env d dest path h b).issuing t = d.issuing t := by
  obtain ⟨hm, ht⟩ := sendTo_mem_tiles env d dest path (.remote env.caps.devid { h with path := path } b) h.op.toNat
  have htile : (sendRemote env d dest path h b).tile t = d.tile t := congrArg (·.get {} t) ht
  exact Prod.ext hm (congrArg (fun y : Tile => (y.core, y.nq)) htile)

theorem launch_issuing (env : Env) (t : ℕ) (r : RemReq) (e : NEntry) (p : BitVec 2) (body : List Byte) (d : Dev) :
    (launch env t r e p body d).issuing t = (d.mem, (d.tile t).core.numbered r e.target p,
      vset (d.tile t).nq r.s (d.stream t r.s ++ [launched (d.tile t) r e p body])) := by
  rw [launch_eq, sendRemote_issuing, Dev.stand_issuing]
  rfl

end Sys2Proof.Machine

namespace Sys2Proof.Machine

open Sys2Proof.Safety

/-! ### RLD, RST, RSTF and RAMO (R159) -/

section
variable {env : Env} {t : ℕ} {r : RemReq} {d d1 d2 d3 : Dev} {dest : BitVec 6} {p : BitVec 2} {body : List Byte}
  (hdest : remDest env (whoTile d t) (r.kind != .rld) r.va d = .ok dest d1) (hlocal : remLocal env t r d1 = .ok () d2)
  (hbody : remBody env t r d2 = .ok body d3)
include hdest hlocal hbody

/-- The device when a remote word has passed its checks and has named its stream (R113, R159). -/
theorem issue_issuing : d3.issuing t = d.issuing t :=
  ((remBody_issuing ..).ok hbody).trans (((remLocal_issuing ..).ok hlocal).trans ((remDest_issuing ..).ok hdest))

/-- A remote word whose owner can be reached, for which its stream has room and which need not wait, is issued (R159, R276). -/
theorem issueRem_ok (hfull : streamFull (d2.stream t r.s) r.kind = false)
    (hsend : sendWaits env d2 (d.tile t).core.csr.vfid (pageOf r.va) = false)
    (hreach : dest = env.caps.devid ∨ (reachable env d2 dest.toNat = true ∧ d2.peersLost.getLsbD dest.toNat = false))
    (hout : dest = env.caps.devid → outstanding d2 (d.tile t).core.csr.vfid (pageOf r.va) (fun x => x.via != dest) = false)
    (hpath : pathFor env d2 t dest = some p)
    (hmust : dest ≠ env.caps.devid →
      mustWait d2 p.toNat dest.toNat (.remote env.caps.devid (newEntry env t r dest d2).hdr []) (rkOp r.kind).toNat = false) :
    let d4 := d3.onCore t (nameQueue (BitVec.ofNat 5 (8 + r.s)))
    issueRem env t r d = .ok () (launch env t r (newEntry env t r dest d4) p body d4) := by
  have hlive : (!reachable env d2 dest.toNat || (dest != env.caps.devid && d2.peersLost.getLsbD dest.toNat)) = false := by
    rcases hreach with rfl | ⟨hr, hl⟩
    · simp [reachable]
    · rw [hr, hl, Bool.and_false]; rfl
  have hhere : (decide (dest = env.caps.devid) && outstanding d2 (whoTile d t).vf (pageOf r.va) (fun x => x.via != dest)) = false := by
    by_cases h : dest = env.caps.devid
    · rw [show outstanding d2 (whoTile d t).vf (pageOf r.va) (fun x => x.via != dest) = false from hout h, Bool.and_false]
    · simp [h]
  have hgo : (dest != env.caps.devid &&
      mustWait d2 p.toNat dest.toNat (.remote env.caps.devid (newEntry env t r dest d2).hdr []) (rkOp r.kind).toNat) = false := by
    by_cases h : dest = env.caps.devid
    · simp [h]
    · rw [hmust h, Bool.and_false]
  unfold issueRem
  dsimp only
  rw [hdest, Res.bind, hlocal, Res.bind, hfull, if_neg Bool.false_ne_true,
    show sendWaits env d2 (whoTile d t).vf (pageOf r.va) = false from hsend, if_neg Bool.false_ne_true, hhere, if_neg Bool.false_ne_true, hlive]
  simp only [Bool.false_eq_true, if_false, hpath, Bool.not_false, Bool.true_and, hgo, hbody, Res.bind]

end

theorem walked_stream (s : State) (pc next : Dword) (d : Dev) (e : Eng) (hand : Bool) (p : Prev) (q : ℕ) :
    (walked s pc d e hand next p).dev.stream s.env.unit q = d.stream s.env.unit q := by
  have h : (walked s pc d e hand next p).dev.tile s.env.unit = _ := walkTo_tile d ⟨s.env.unit, e, pc, hand⟩ next p
  simp only [Dev.stream, h]

@[simp] theorem walked_net (s : State) (pc next : Dword) (d : Dev) (e : Eng) (hand : Bool) (p : Prev) :
    (iter (walked s pc d e hand next p)).net = (d.tile s.env.unit).core.net := by rw [iter_walked_eq]

theorem numbered_nameQueue_regs (c : TCore) (q : BitVec 5) (r : RemReq) (dest : BitVec 6) (p : BitVec 2) :
    ((nameQueue q c).numbered r dest p).regs = c.regs := by rw [TCore.numbered_regs, nameQueue_regs]

theorem nameQueue_net (q : BitVec 5) (c : TCore) : (nameQueue q c).net = c.net := by rw [nameQueue_eq]

theorem alignedOr_ok {va : Dword} {n : ℕ} {next : Res Unit} (h : va.toNat % n = 0) : alignedOr va n next = next := by
  rw [alignedOr, aligned_iff.mpr h]; rfl

/-- The reserved values of RAMO's register, in numbers (R159). -/
theorem ramoBad_eq_false {v : Dword} (h : v.toNat < 32) (h9 : v.toNat % 16 ≤ 9) (h25 : v.toNat ≠ 25) : ramoBad v = false := by
  have hb : v.getLsbD 4 = true → 16 ≤ v.toNat := fun hb => by
    by_contra hlt
    rw [BitVec.getLsbD, Nat.testBit_lt_two_pow (show v.toNat < 2 ^ 4 by omega)] at hb
    cases hb
  have h5 : bitsN v 5 59 = 0 := by simp only [bitsN]; omega
  have h0 : bitsN v 0 4 = v.toNat % 16 := by simp [bitsN]
  rw [ramoBad, h5, h0]
  have hn : ¬ (v.toNat % 16 = 9 ∧ v.getLsbD 4 = true) := fun ⟨h9, hb'⟩ => by have := hb hb'; omega
  simpa [show ¬ 10 ≤ v.toNat % 16 by omega] using fun h => by simpa using fun hb => hn ⟨h, hb⟩

theorem bitsN_op (v : Dword) : BitVec.ofNat 4 (bitsN v 0 4) = v.extractLsb' 0 4 := by
  apply BitVec.eq_of_toNat_eq
  simp [bitsN]

/-- What a remote word leaves once it is issued, as the statement puts it. -/
theorem remote_issued {i : Instr} {f : Env → At → Dev → Res Unit} {s : State} {pc : Dword} {r : RemReq} {dest : BitVec 6} {p : BitVec 2}
    {body : List Byte} {d3 d4 : Dev} (h : Stands s .a pc false) (hi : exec i s = aTry i f s)
    (hd4 : d4 = d3.onCore s.env.unit (nameQueue (BitVec.ofNat 5 (8 + r.s)))) (hs : r.s < 16) (h3 : d3.issuing s.env.unit = s.dev.issuing s.env.unit)
    (hf : f s.env ⟨s.env.unit, .a, pc, false⟩ s.dev =
      .ok () (launch s.env s.env.unit r (newEntry s.env s.env.unit r dest d4) p body d4)) :
    ∃ t e, exec i s = .next t ∧ MemSame s t ∧ (iter t).regs = (iter s).regs ∧ ((iter t).engine .a).pc = pc + 4 ∧
      t.dev.stream s.env.unit r.s = s.dev.stream s.env.unit r.s ++ [e] ∧
      e.isNotify = false ∧ e.kind = r.kind ∧ e.va = r.va ∧ e.local_ = r.local_ ∧ e.target = dest ∧ e.via = dest ∧ e.path = p ∧
      (r.kind ≠ .rld → e.ssn = (iter s).net.ssn.get 0 (r.s * 64 + dest.toNat) + 1 ∧
        (iter t).net.ssn.get 0 (r.s * 64 + dest.toNat) = e.ssn) := by
  obtain ⟨hm3, hc3, hq3⟩ : d3.mem = s.dev.mem ∧ (d3.tile s.env.unit).core = iter s ∧ (d3.tile s.env.unit).nq = (unitTile s).nq := by
    rw [Dev.issuing, Dev.issuing, Prod.mk.injEq, Prod.mk.injEq] at h3
    exact h3
  have hc4 : (d4.tile s.env.unit).core = nameQueue (BitVec.ofNat 5 (8 + r.s)) (iter s) := by rw [hd4, Dev.tile_onCore, if_pos rfl, hc3]
  have hq4 : (d4.tile s.env.unit).nq = (unitTile s).nq := by rw [hd4, Dev.tile_onCore, if_pos rfl]; exact hq3
  obtain ⟨hm, hc, hq⟩ := by
    simpa only [Dev.issuing, Prod.mk.injEq] using launch_issuing s.env s.env.unit r (newEntry s.env s.env.unit r dest d4) p body d4
  have hssn (hk : r.kind ≠ .rld) : nextSsn (d4.tile s.env.unit).core r.s dest r.kind =
      (iter s).net.ssn.get 0 (r.s * 64 + dest.toNat) + 1 := by
    rw [nextSsn, if_pos (by simpa using hk), hc4, nameQueue_net]; rfl
  refine ⟨_, launched (d4.tile s.env.unit) r (newEntry s.env s.env.unit r dest d4) p body, hi.trans (aTry_ok h hf), walked_memSame ?_, ?_,
    walked_pc .., ?_, rfl, rfl, rfl, rfl, rfl, rfl, rfl, fun hk => ⟨hssn hk, ?_⟩⟩
  · rw [hm, hd4]; exact hm3
  · rw [walked_regs, hc, hc4, numbered_nameQueue_regs]
  · rw [walked_stream, Dev.stream, hq, vget_vset _ _ _ _ hs, if_pos rfl, Dev.stream, hq4]; rfl
  · rw [walked_net, hc]; exact TCore.numbered_ssn _ dest p hk

theorem remoteWords : Claims.RemoteWords := by
  intro i s pc a b o f n r dest p body d1 d2 d3 al h hi hal hramo hdest hlocal hfull hsend hreach hout hpath hmust hbody
  have h3 : d3.issuing s.env.unit = s.dev.issuing s.env.unit := issue_issuing hdest hlocal hbody
  have hok := issueRem_ok hdest hlocal hbody hfull hsend hreach hout hpath hmust
  simp only [List.mem_cons, List.not_mem_nil, or_false, Prod.mk.injEq] at hi
  rcases hi with ⟨rfl, rfl, rfl⟩ | ⟨rfl, rfl, rfl⟩ | ⟨rfl, rfl, rfl⟩ | ⟨rfl, rfl, rfl⟩ <;> simp only [List.forall_mem_cons] at hal
  · refine remote_issued (f := rldWord a b n) h rfl rfl n.isLt h3 (Eq.trans ?_ hok)
    obtain ⟨ha, hb, -⟩ := hal
    exact (alignedOr_ok ha).trans (alignedOr_ok hb)
  · refine remote_issued (f := rstWord a b f n) h rfl rfl n.isLt h3 (Eq.trans ?_ hok)
    obtain ⟨ha, hb, hf, -⟩ := hal
    exact (alignedOr_ok ha).trans ((alignedOr_ok hb).trans (alignedOr_ok hf))
  · refine remote_issued (f := rstfWord a b o f n) h rfl rfl n.isLt h3 (Eq.trans ?_ hok)
    exact alignedOr_ok hal.1
  · refine remote_issued (f := ramoWord a b f n) h rfl rfl n.isLt h3 (Eq.trans ?_ hok)
    obtain ⟨h32, h9, h25⟩ := hramo rfl
    have hbad : ramoBad ((s.dev.tile s.env.unit).core.a b) = false := ramoBad_eq_false h32 h9 h25
    obtain ⟨ha, hf, hl, -⟩ := hal
    refine (alignedOr_ok ha).trans ((alignedOr_ok hf).trans ((alignedOr_ok hl).trans ?_))
    rw [hbad, if_neg Bool.false_ne_true, bitsN_op]
    rfl

/-! ### NOTIFY on a stream of remote words (R155, R160) -/

theorem getLsbD_clear (x : BitVec 16) {n : ℕ} (h : n < 16) : (x &&& ~~~(BitVec.ofNat 16 1 <<< n)).getLsbD n = false := by
  simp [h]

/-- A notify behind the remote words of a stream: it reports a failure that no earlier one has (R155, R160). -/
def noteOf (t : ℕ) (q : BitVec 5) (c : Cmd) (d : Dev) : NEntry :=
  { isNotify := true, failed := (d.tile t).core.net.bad.getLsbD (q.toNat - 8), walk := c.walk, serial := c.serial, node := c.node
    faultq := c.faultq, asid := c.asid, vf := c.vf, priv := c.priv, tk := c.tk, tgt := c.tgt }

theorem appendNote_stream (t : ℕ) {q : BitVec 5} (c : Cmd) (d : Dev) (h : q.toNat - 8 < 16) :
    (appendNote t q c d).stream t (q.toNat - 8) = d.stream t (q.toNat - 8) ++ [noteOf t q c d] := by
  rw [appendNote, Dev.stream, Dev.tile_onTile, if_pos rfl, vget_vset _ _ _ _ h, if_pos rfl, Dev.tile_onCore, if_pos rfl]
  rfl

theorem notifyOnStream : Claims.NotifyOnStream := by
  intro s pc a k q h h8 h24 hal
  have hal' : (decide (k.toNat < 2) && !aligned (newCmd s.dev s.env.unit .notify 0 a 0 k).tgt 16) = false := target_aligned hal
  have hdone : notifyWord a k q s.env ⟨s.env.unit, .a, pc, false⟩ s.dev =
      .ok () (appendNote s.env.unit q (newCmd s.dev s.env.unit .notify 0 a 0 k) s.dev) := by
    simp only [notifyWord, hal', Bool.false_eq_true, if_false, if_neg (show ¬ q.toNat ≤ 5 by omega)]
  refine ⟨_, noteOf s.env.unit q (newCmd s.dev s.env.unit .notify 0 a 0 k) s.dev, aTry_ok (f := notifyWord a k q) h hdone, walked_memSame rfl, ?_, ?_, rfl, rfl, rfl, rfl, ?_⟩
  · rw [walked_regs, appendNote, Dev.tile_onTile, if_pos rfl, Dev.tile_onCore, if_pos rfl]
    exact nameQueue_regs ..
  · rw [walked_stream, appendNote_stream _ _ _ (by omega)]
  · rw [walked_net, appendNote, Dev.tile_onTile, if_pos rfl, Dev.tile_onCore, if_pos rfl]
    exact getLsbD_clear _ (by omega)

/-- Settles O26: a remote word that passes its checks is issued (`issueRem_ok`), which leaves memory and the iteration as they were but for
the numbers of its stream (`launch_issuing`). -/
theorem remoteForms : Obligations.RemoteForms := ⟨remoteWords, notifyOnStream⟩

end Sys2Proof.Machine

namespace Sys2Proof.Machine

open Sys2Proof.Safety

/-! ### What bytes a path reads and leaves (R132, R310)

Both depend on memory, on what its writes have replaced, and on the order that fences have made. A load changes none of these. -/

/-- Two devices hold the same memory and the same replaced bytes, in the same order for every path. -/
structure SameReads (d e : Dev) : Prop where
  mem : e.mem = d.mem
  past : e.past = d.past
  ord : ∀ t, (e.tile t).ordTs = (d.tile t).ordTs

namespace SameReads

theorem refl (d : Dev) : SameReads d d := ⟨rfl, rfl, fun _ => rfl⟩

theorem trans {a b c : Dev} (h : SameReads a b) (g : SameReads b c) : SameReads a c :=
  ⟨g.mem.trans h.mem, g.past.trans h.past, fun t => (g.ord t).trans (h.ord t)⟩

theorem of_tiles {d e : Dev} (hm : e.mem = d.mem) (hp : e.past = d.past) (ht : e.tiles = d.tiles) : SameReads d e :=
  ⟨hm, hp, fun t => by rw [Dev.tile, Dev.tile, ht]⟩

theorem onTile (d : Dev) (t : ℕ) {f : Tile → Tile} (hf : ∀ y, (f y).ordTs = y.ordTs) : SameReads d (d.onTile t f) := by
  refine ⟨rfl, rfl, fun u => ?_⟩
  rw [Dev.tile_onTile]
  split
  · next h => rw [h]; exact hf _
  · rfl

theorem located {env : Env} {d e : Dev} {w : Who} {k : AccKind} {va : Dword} {x : Loc × BitVec 4} (h : locate env d w k va = .ok x e) :
    SameReads d e := by
  rw [locate_tlb h]; exact of_tiles rfl rfl rfl

theorem open_ {d e : Dev} (h : SameReads d e) (w : Past) (t p : ℕ) : w.open_ e t p = w.open_ d t p := by
  simp only [Past.open_, h.ord]

theorem getBytes {d e : Dev} (h : SameReads d e) (loc : Loc) (n : ℕ) : getBytes e loc n = getBytes d loc n := getBytes_congr h.mem loc n

theorem readBytes {d e : Dev} (h : SameReads d e) (env : Env) (ag : Agent) (loc : Loc) (n : ℕ) :
    readBytes env e ag loc n = readBytes env d ag loc n := by
  cases ag with
  | tile t p => simp only [Machine.readBytes, h.past, h.getBytes, pathByte, h.open_]
  | core n => exact h.getBytes ..
  | stream k => exact h.getBytes ..
  | stamp x => exact h.getBytes ..
  | none => exact h.getBytes ..

theorem overStore {d e : Dev} (h : SameReads d e) (env : Env) (t p : ℕ) (loc : Loc) (b : List Byte) :
    overStore env e t p loc b = overStore env d t p loc b := by
  simp only [Machine.overStore, h.past, h.open_, h.mem]

end SameReads

theorem l2Touch_sameReads (env : Env) (d : Dev) (t pa : ℕ) (vf : BitVec 10) (cls : BitVec 4) (front : Bool) :
    SameReads d (l2Touch env d t pa vf cls front).2.2 := by
  unfold l2Touch; dsimp only
  split
  · exact SameReads.of_tiles rfl rfl rfl
  · split
    · exact SameReads.refl d
    · rw [countEv_eq]
      exact SameReads.of_tiles rfl rfl rfl

theorem l2Set_sameReads (env : Env) (d : Dev) (pa : ℕ) (kept : Bool) (wts rts : Dword) : SameReads d (l2Set env d pa kept wts rts) := by
  unfold l2Set; dsimp only
  split <;> exact SameReads.of_tiles rfl rfl rfl

theorem setPts_sameReads (d : Dev) (t p : ℕ) (x : Dword) : SameReads d (setPts d (.tile t p) x) := by
  rw [setPts]
  exact SameReads.onTile d t fun _ => rfl

theorem loadTs_sameReads (env : Env) (d : Dev) (t p : ℕ) (vf : BitVec 10) (cls : BitVec 4) (front : Bool) (loc : Loc) :
    SameReads d (loadTs env d (.tile t p) vf cls front loc).1 := by
  cases loc with
  | hbm pa => exact ((l2Touch_sameReads env d t pa vf cls front).trans (l2Set_sameReads ..)).trans (setPts_sameReads ..)
  | spad u o =>
    refine SameReads.trans (SameReads.onTile d u ?_) (setPts_sameReads ..)
    exact fun _ => rfl
  | staging v o => exact SameReads.refl d
  | port v => exact SameReads.refl d

theorem lateRead_sameReads (env : Env) (d : Dev) (t p : ℕ) (vf : BitVec 10) (cls : BitVec 4) (front : Bool) (loc : Loc) (b : List Byte) :
    SameReads d (lateRead env d t p vf cls front loc b).2 := by
  unfold lateRead; dsimp only
  split
  · exact SameReads.refl d
  · split
    · exact SameReads.refl d
    · exact loadTs_sameReads ..

@[simp] theorem length_readBytes (env : Env) (d : Dev) (ag : Agent) (loc : Loc) (n : ℕ) : (readBytes env d ag loc n).length = n := by
  cases ag with
  | tile t p =>
    simp only [readBytes]
    split <;> simp
  | core n => exact length_getBytes ..
  | stream k => exact length_getBytes ..
  | stamp x => exact length_getBytes ..
  | none => exact length_getBytes ..

/-! ### Writes that have been sent (R244, R308) -/

section
variable {β : Type} {π : Dev → β} (hπ : Quiet π)
include hπ

theorem lateRead_quiet (env : Env) (d : Dev) (t p : ℕ) (vf : BitVec 10) (cls : BitVec 4) (front : Bool) (loc : Loc) (b : List Byte) :
    π (lateRead env d t p vf cls front loc b).2 = π d := by
  unfold lateRead; dsimp only
  split
  · rfl
  · split
    · rfl
    · exact loadTs_quiet hπ ..

theorem sentMark_quiet (env : Env) (d : Dev) (ag : Agent) (vf : BitVec 10) (cls : BitVec 4) (front : Bool) (loc : Loc) (b : List Byte) :
    π (sentMark env d ag vf cls front loc b).1 = π d := by
  unfold sentMark
  cases ag with
  | tile t p =>
    have h (c : List Byte) : π (if c == b then (storeMark env d (.tile t p) vf cls front loc c).1 else
        { (storeMark env d (.tile t p) vf cls front loc c).1 with
          past := { key := loc.key, old := b, ts := (storeMark env d (.tile t p) vf cls front loc c).2, tile := t, path := p } ::
            (storeMark env d (.tile t p) vf cls front loc c).1.past }) = π d := by
      split
      · exact storeMark_quiet hπ ..
      · exact (hπ.rest (storeMark env d (.tile t p) vf cls front loc c).1 ..).trans (storeMark_quiet hπ ..)
    exact h _
  | core n => exact storeMark_quiet hπ ..
  | stream k => exact storeMark_quiet hπ ..
  | stamp x => exact storeMark_quiet hπ ..
  | none => exact storeMark_quiet hπ ..

theorem putSent_quiet (env : Env) (t p : ℕ) (vf : BitVec 10) (d : Dev) (w : OutWr) : π (putSent env t p vf d w) = π d := by
  unfold putSent
  split
  · rfl
  · cases w.src with
    | none => exact sentMark_quiet hπ ..
    | some x => exact (sentMark_quiet hπ ..).trans (lateRead_quiet hπ ..)

theorem flushOut_quiet (env : Env) (t q : ℕ) (c : Cmd) (d : Dev) : π (flushOut env t q c d) = π d := by
  have h (l : List OutWr) (d : Dev) : π (l.foldl (putOut env t q c.vf) d) = π d := by
    induction l generalizing d with
    | nil => rfl
    | cons w l ih => exact (ih _).trans (putSent_quiet hπ ..)
  exact h c.out d

end

/-- The bytes of a write that has been sent, as they have been read or as they are read now (R310). -/
def OutWr.now (w : OutWr) (env : Env) (d : Dev) (t p : ℕ) (vf : BitVec 10) : List Byte :=
  match w.src with
  | some x => (lateRead env d t p vf x.2.1 x.2.2 x.1 w.bytes).1
  | none => w.bytes

/-- What the performing of a write leaves of memory (R132, R308). -/
theorem putSent_mem (env : Env) (t : ℕ) {p : ℕ} (hp : p ≠ 0) (vf : BitVec 10) (d : Dev) {w : OutWr} (hw : w.done = false) :
    (putSent env t p vf d w).mem = Memory.write w.loc.key (overStore env d t p w.loc (w.now env d t p vf)) d.mem := by
  rw [putSent, if_neg (by rw [hw]; exact Bool.false_ne_true), OutWr.now]
  cases w.src with
  | none => exact sentMark_mem _ _ _ hp ..
  | some x =>
    have h := lateRead_sameReads env d t p vf x.2.1 x.2.2 x.1 w.bytes
    rw [← h.overStore env t p w.loc, ← h.mem]
    exact sentMark_mem env (lateRead env d t p vf x.2.1 x.2.2 x.1 w.bytes).2 t hp ..

/-- A write whose source reads as it was read has the bytes that were read. -/
theorem OutWr.now_read {w : OutWr} {env : Env} {d : Dev} {t p : ℕ} {vf : BitVec 10} {x : Loc × BitVec 4 × Bool} (hs : w.src = some x)
    (h : readBytes env d (.tile t p) x.1 w.bytes.length = w.bytes) : w.now env d t p vf = w.bytes := by
  rw [OutWr.now, hs]
  exact congrArg Prod.fst (lateRead_same h)

/-- The bytes of a late read, byte by byte. -/
theorem lateRead_bytes (s : State) (p : ℕ) (vf : BitVec 10) (cls : BitVec 4) (front : Bool) (a : Loc) (b : List Byte) :
    (lateRead s.env s.dev s.env.unit p vf cls front a b).1 = Claims.late s p vf a b := by
  unfold lateRead Claims.late
  cases a.stillOf s.dev vf with
  | false => rfl
  | true =>
    simp only [Bool.not_true, Bool.false_eq_true, if_false, if_true]
    split
    · next h => exact (beq_iff_eq.mp h).symm
    · rfl

/-! ### The queues of a tile through its accesses -/

/-- What a step of a queue must find again behind its accesses: whether the tile runs, its iteration, its queues. -/
def Tile.queues (y : Tile) : Bool × TCore × Vector (List Cmd) 6 := (y.running, y.core, y.aq)

theorem quiet_queues (t : ℕ) : Quiet fun d => (d.tile t).queues :=
  quiet_tile (g := Tile.queues) (fun _ _ h => by rw [Tile.Touched] at h; rw [h]; rfl) t

/-- What a record may not change: the registers of the iteration, and the queues. -/
def Tile.kept (y : Tile) : Regs × Vector (List Cmd) 6 := (y.core.regs, y.aq)

theorem quiet_kept (t : ℕ) : Quiet fun d => (d.tile t).kept :=
  quiet_tile (g := Tile.kept) (fun _ _ h => by rw [Tile.Touched] at h; rw [h]; rfl) t

theorem imageWrite_quiet {β : Type} {π : Dev → β} (hπ : Quiet π) (env : Env) (d : Dev) (t serial : ℕ) (w : Who) (va : Dword) (b : List Byte) :
    π (imageWrite env d t serial w va b) = π d := settle_quiet hπ (hwWrite_quiet hπ ..) fun _ _ => rfl

theorem onTile_kept (d : Dev) (t u : ℕ) {f : Tile → Tile} (hf : ∀ y, (f y).kept = y.kept) : ((d.onTile t f).tile u).kept = (d.tile u).kept := by
  rw [Dev.tile_onTile]
  split
  · next h => rw [h]; exact hf _
  · rfl

theorem postImage_kept (env : Env) (d : Dev) (t serial : ℕ) (r : Rec16) (ts : Dword) (u : ℕ) :
    ((postImage env d t serial r ts).tile u).kept = (d.tile u).kept := by
  unfold postImage
  dsimp only
  split
  · rfl
  · refine (imageWrite_quiet (quiet_kept u) ..).trans ?_
    split
    · exact (imageWrite_quiet (quiet_kept u) ..).trans (onTile_kept _ _ _ fun _ => rfl)
    · exact onTile_kept _ _ _ fun _ => rfl

theorem postIter_kept (env : Env) (d : Dev) (t serial : ℕ) (r : Rec16) (ts : Dword) (u : ℕ) :
    ((postIter env d t serial r ts).tile u).kept = (d.tile u).kept := by
  unfold postIter
  split
  · exact onTile_kept _ _ _ fun y => by rw [Tile.kept, post_regs]; rfl
  · exact postImage_kept ..

theorem postIter_cn (env : Env) (d : Dev) (t serial : ℕ) (r : Rec16) (ts : Dword) : (postIter env d t serial r ts).cn = d.cn := by
  unfold postIter
  split
  · rfl
  · exact postImage_cn ..

end Sys2Proof.Machine

namespace Sys2Proof.Machine

open Sys2Proof.Safety

/-! ### A COPY reads its bytes and sends them (R150, R244) -/

/-- The write of a COPY's bytes to one unit of coherence. -/
def copyOut (s : State) (q : BitVec 5) (c : Cmd) (a b : Loc) (ca cb : BitVec 4) : OutWr :=
  { loc := b, cls := cb, front := optFront c.dst, bytes := Claims.copyBytes s q c a, src := some (a, ca, optFront c.src) }

/-- The device when a COPY has read its bytes. -/
def copyRead (s : State) (q : BitVec 5) (c : Cmd) (a : Loc) (ca : BitVec 4) (d2 : Dev) : Dev :=
  (loadHint s.env d2 (.tile s.env.unit (aqPath q.toNat)) c.vf ca (optFront c.src) a (c.op 2).toNat).2

theorem aqPath_copy {q : ℕ} (h : q ≤ 3) : aqPath q = 1 := if_pos h

theorem movingHead_copy {d : Dev} {t q : ℕ} {c : Cmd} {l : List Cmd} (hq : d.queue t q = c :: l) (hk : c.kind = .copy)
    (hs : c.stall = none) : movingHead d t q = some c := by
  simp only [movingHead, hq, Cmd.isNotify, Cmd.isXfer, hk, hs]
  rfl

theorem bytes_copy {c : Cmd} (hk : c.kind = .copy) : c.bytes = (c.op 2).toNat := by simp only [Cmd.bytes, hk]

theorem cmdAt_copy {c : Cmd} (env : Env) (t q : ℕ) (d : Dev) (hk : c.kind = .copy) (ho : c.off = 0) :
    cmdAt env t q c d = .ok (c, c.op 0, c.op 1, (c.op 2).toNat) d := by
  simp only [cmdAt, hk, ho, Nat.sub_zero]
  rw [show dw 0 = 0#64 from rfl, BitVec.add_zero, BitVec.add_zero]

theorem sendBytes_zero (env : Env) (t q f : ℕ) (c : Cmd) (d : Dev) : sendBytes env t q f 0 c d = (c, d, .done) := by
  cases f <;> rfl

section
variable {s : State} {q : BitVec 5} {c : Cmd} {l : List Cmd} {a b : Loc} {ca cb : BitVec 4} {d1 d2 : Dev}
  (h : Claims.CopyAt s q c l a b ca cb d1 d2)
include h

theorem copyRead_sameReads : SameReads s.dev (copyRead s q c a ca d2) := by
  obtain ⟨-, -, -, -, -, -, ha, hb, -, -, -, -⟩ := h
  exact ((SameReads.located ha).trans (SameReads.located hb)).trans (loadTs_sameReads ..)

theorem copyRead_quiet {β : Type} {π : Dev → β} (hπ : Quiet π) : π (copyRead s q c a ca d2) = π s.dev := by
  obtain ⟨-, -, -, -, -, -, ha, hb, -, -, -, -⟩ := h
  exact (loadTs_quiet hπ ..).trans (((locate_quiet hπ ..).ok hb).trans ((locate_quiet hπ ..).ok ha))

theorem sendChunk_copy : sendChunk s.env s.env.unit q.toNat c (c.op 2).toNat s.dev =
    .ok { c with off := (c.op 2).toNat, out := [copyOut s q c a b ca cb] } (copyRead s q c a ca d2) := by
  have hbytes : readBytes s.env d2 (.tile s.env.unit (aqPath q.toNat)) a (c.op 2).toNat = Claims.copyBytes s q c a := by
    obtain ⟨-, -, -, -, -, -, ha, hb, -, -, -, -⟩ := h
    exact ((SameReads.located ha).trans (SameReads.located hb)).readBytes ..
  obtain ⟨-, hk, -, ho, hout, -, ha, hb, hna, hnb, hg, hbr⟩ := h
  have hbr2 : branchDue s.env d2 s.env.unit b = false := by rw [branchDue_located hb, branchDue_located ha]; exact hbr
  have hn : min (min (c.op 2).toNat (c.op 2).toNat) (min (a.unit - a.inUnit) (b.unit - b.inUnit)) = (c.op 2).toNat := by omega
  simp only [sendChunk, cmdAt_copy _ _ _ _ hk ho, Res.bind, ha, hb, hbr2, Bool.false_eq_true, if_false, payFrom_open hg, Option.bind_some,
    hn, ho, Nat.zero_add, hout, List.nil_append, loadHint, hbytes]
  rfl

theorem sendBytes_copy : sendBytes s.env s.env.unit q.toNat (c.op 2).toNat (c.op 2).toNat c s.dev =
    ({ c with off := (c.op 2).toNat, out := [copyOut s q c a b ca cb] }, copyRead s q c a ca d2, .done) := by
  have hchunk := sendChunk_copy h
  obtain ⟨-, -, -, ho, -, hpos, -, -, -, -, -, -⟩ := h
  obtain ⟨f, hf⟩ := Nat.exists_eq_succ_of_ne_zero (Nat.pos_iff_ne_zero.mp hpos)
  rw [hf, sendBytes, if_neg (Nat.succ_ne_zero f), ← hf, hchunk]
  dsimp only
  rw [ho, Nat.sub_zero, Nat.sub_self, sendBytes_zero]

/-- The bytes of a COPY when their write has been performed (R132, R310). -/
theorem copied_mem (hq : q.toNat ≤ 3) : (Claims.copied s q c a b ca cb d2).mem =
    Memory.write b.key (Claims.left s 1 b (Claims.copyBytes s q c a)) s.dev.mem := by
  have hr := copyRead_sameReads h
  have hnow : (copyOut s q c a b ca cb).now s.env (copyRead s q c a ca d2) s.env.unit (aqPath q.toNat) c.vf = Claims.copyBytes s q c a := by
    refine OutWr.now_read rfl ?_
    rw [hr.readBytes, show (copyOut s q c a b ca cb).bytes = Claims.copyBytes s q c a from rfl, Claims.copyBytes, length_readBytes]
  refine (putSent_mem s.env s.env.unit (w := copyOut s q c a b ca cb) (by rw [aqPath_copy hq]; decide) c.vf (copyRead s q c a ca d2) rfl).trans ?_
  rw [hnow, hr.overStore, hr.mem, aqPath_copy hq]
  rfl

theorem copied_quiet {β : Type} {π : Dev → β} (hπ : Quiet π) : π (Claims.copied s q c a b ca cb d2) = π s.dev :=
  (putSent_quiet hπ s.env s.env.unit (aqPath q.toNat) c.vf (copyRead s q c a ca d2) (copyOut s q c a b ca cb)).trans (copyRead_quiet h hπ)

theorem copied_queue (p : ℕ) : (Claims.copied s q c a b ca cb d2).queue s.env.unit p = s.dev.queue s.env.unit p := by
  have hw := copied_quiet h (quiet_queues s.env.unit)
  have haq : ((Claims.copied s q c a b ca cb d2).tile s.env.unit).aq = (s.dev.tile s.env.unit).aq := congrArg (·.2.2) hw
  rw [Dev.queue, Dev.queue, haq]

end

/-! ### A command's record -/

/-- The device with a record of the iteration that runs on a tile (R117). -/
theorem postIter_runs {d : Dev} {t serial : ℕ} (env : Env) (r : Rec16) (ts : Dword) (hr : (d.tile t).runs serial = true)
    (hev : (d.tile t).core.ev.length < 256) : postIter env d t serial r ts = d.onCore t fun c => { c with ev := c.ev ++ [(r, ts)] } := by
  rw [postIter, if_pos hr]
  exact onCore_congr (by rw [TCore.post, if_pos hev])

/-- A command whose target is its event queue signals it by its record (R122, R151). -/
theorem signalCmd_record {env : Env} {t q : ℕ} {c : Cmd} (n total : ℕ) {d : Dev} (hk : c.tk = 2) (hr : (d.tile t).runs c.serial = true)
    (hev : (d.tile t).core.ev.length < 256) : signalCmd env t q c n total d = .ok () (d.onCore t fun x => { x with
      ev := x.ev ++ [(cmdRecord c.tgt total (cmdCode c.kind) q 0, getPts d (.tile t (aqPath q)))] }) := by
  have h3 : (decide (c.tk = 3) && c.kind != .implicit) = false := by rw [hk]; rfl
  simp only [signalCmd, if_neg (show ¬ c.tk = 0 by rw [hk]; decide), if_neg (show ¬ c.tk = 1 by rw [hk]; decide), if_pos hk, countEnded, h3,
    Bool.false_eq_true, if_false]
  rw [postIter_runs env _ _ hr hev]

/-- The queues of COPY and COPY2D are not that of the transfers. -/
theorem notXfer {q : BitVec 5} (hq : q.toNat ≤ 3) : decide (q = 5) = false :=
  decide_eq_false fun h => by rw [h] at hq; exact absurd hq (by decide)

theorem exec_commandCompletion {s : State} {q : BitVec 5} (hq : q.toNat ≤ 3) :
    exec (.commandCompletion q) s = .next (withDev s (copyCompletes q.toNat s.env s.dev)) :=
  run_of_eq (if_neg (by rw [notXfer hq, Bool.and_false]; exact Bool.false_ne_true))

theorem exec_commandStall {s : State} {q : BitVec 5} (hq : q.toNat ≤ 3) :
    exec (.commandStall q) s = .next (withDev s (copyStalls q.toNat s.env s.dev)) :=
  run_of_eq (if_neg (by rw [notXfer hq, Bool.and_false]; exact Bool.false_ne_true))

/-- What a queue's head leaves when it has signalled its event queue. -/
structure Recorded (d e : Dev) (t : ℕ) (q : ℕ) (l : List Cmd) (r : Rec16) : Prop where
  mem : e.mem = d.mem
  queue : e.queue t q = l
  regs : (e.tile t).core.regs = (d.tile t).core.regs
  ev : ∃ ts, (e.tile t).core.ev = (d.tile t).core.ev ++ [(r, ts)]

/-- The head of a queue leaves it and posts its record. -/
theorem signalCmd_recorded {env : Env} {t q : ℕ} (hq : q < 6) {c : Cmd} {l : List Cmd} (n total : ℕ) {d : Dev} (hk : c.tk = 2)
    (hr : (d.tile t).runs c.serial = true) (hev : (d.tile t).core.ev.length < 256) :
    ∃ e, signalCmd env t q c n total (d.setQueue t q l) = .ok () e ∧ Recorded d e t q l (cmdRecord c.tgt total (cmdCode c.kind) q 0) := by
  have htile : (d.setQueue t q l).tile t = { d.tile t with aq := vset (d.tile t).aq q l } := by rw [Dev.setQueue, Dev.tile_onTile, if_pos rfl]
  refine ⟨_, signalCmd_record n total hk (by rw [htile]; exact hr) (by rw [htile]; exact hev), rfl, ?_, ?_, getPts (d.setQueue t q l) (.tile t (aqPath q)), ?_⟩
  · rw [queue_onCore, queue_setQueue _ _ _ _ hq, if_pos rfl]
  · rw [Dev.tile_onCore, if_pos rfl, setQueue_core]
  · rw [Dev.tile_onCore, if_pos rfl, setQueue_core]

section
variable {s : State} {q : BitVec 5} {c : Cmd} {l : List Cmd} {a b : Loc} {ca cb : BitVec 4} {d1 d2 : Dev}

/-- A COPY writes its bytes and posts its record (R150, R151). -/
theorem copyCompletes_records (h : Claims.CopyAt s q c l a b ca cb d1 d2) (hk : c.tk = 2) (hr : (unitTile s).runs c.serial = true)
    (hev : (iter s).ev.length < 256) (hq : q.toNat ≤ 3) : Recorded (Claims.copied s q c a b ca cb d2) (copyCompletes q.toNat s.env s.dev)
      s.env.unit q.toNat l (cmdRecord c.tgt (c.op 2).toNat 0 q.toNat 0) := by
  have hsend := sendBytes_copy h
  have hqueue := copied_queue h q.toNat
  have hw := copied_quiet h (quiet_queues s.env.unit)
  obtain ⟨hhead, hkind, hst, ho, -, -, -, -, -, -, -, -⟩ := h
  have hhead' : s.dev.queue s.env.unit q.toNat = c :: l := hhead
  have hrun : (((Claims.copied s q c a b ca cb d2)).tile s.env.unit).runs c.serial = true := by
    have h1 : ((Claims.copied s q c a b ca cb d2).tile s.env.unit).running = (unitTile s).running := congrArg (·.1) hw
    have h2 : ((Claims.copied s q c a b ca cb d2).tile s.env.unit).core = iter s := congrArg (·.2.1) hw
    rw [Tile.runs, h1, h2]; exact hr
  have hev' : ((Claims.copied s q c a b ca cb d2).tile s.env.unit).core.ev.length < 256 := by
    rw [show ((Claims.copied s q c a b ca cb d2).tile s.env.unit).core = iter s from congrArg (·.2.1) hw]; exact hev
  let c2 : Cmd := { c with off := (c.op 2).toNat, out := [] }
  obtain ⟨e, he, hrec⟩ := signalCmd_recorded (env := s.env) (t := s.env.unit) (q := q.toNat) (by omega) (c := c2) (l := l)
    ({ c with off := (c.op 2).toNat, out := [copyOut s q c a b ca cb] } : Cmd).outBytes (c.op 2).toNat (d := Claims.copied s q c a b ca cb d2)
    hk hrun hev'
  have hfl : flushOut s.env s.env.unit q.toNat { c with off := (c.op 2).toNat, out := [copyOut s q c a b ca cb] } (copyRead s q c a ca d2) =
    Claims.copied s q c a b ca cb d2 := rfl
  have hb2 : Cmd.bytes { c with off := (c.op 2).toNat, out := [] } = (c.op 2).toNat := bytes_copy (c := { c with off := _, out := [] }) hkind
  have heq : copyCompletes q.toNat s.env s.dev = e := by
    simp only [copyCompletes, movingHead_copy hhead' hkind hst, bytes_copy hkind, ho, Nat.sub_zero, hsend, hfl, hqueue, hhead', List.tail_cons, hb2]
    rw [he]
    rfl
  have hcode : cmdCode c2.kind = 0 := by rw [show c2.kind = c.kind from rfl, hkind]; rfl
  rw [hcode] at hrec
  rw [heq]
  exact hrec

end

/-! ### The barrier object of a command (R145, R151) -/

/-- A decrement that leaves bytes to come (R145). -/
theorem barDec_counts {n : ℕ} {o : BarObj} (hs : o.state = 1) (hn : n < o.count) : barDec n o = ({ o with count := o.count - n }, .none) := by
  rw [barDec, if_pos (by rw [hs]; simpa using hn.le), if_neg (by omega)]

theorem barDecAt_counts {env : Env} {d d1 : Dev} {w : Who} {va : Dword} {n : ℕ} {z : Loc} {cz : BitVec 4} (ag : Agent)
    (hal : va.toNat % 16 = 0) (hloc : locate env d w { write := true } va = .ok (z, cz) d1) (hs : (barOf (getBytes d1 z 16)).state = 1)
    (hn : n < (barOf (getBytes d1 z 16)).count) : barDecAt env d w ag va n = .ok () (storeMark env d1 ag w.vf cz true z
      ({ barOf (getBytes d1 z 16) with count := (barOf (getBytes d1 z 16)).count - n } : BarObj).bytes).1 := by
  have hal' : (!aligned va 16) = false := by rw [aligned_iff.mpr hal]; rfl
  simp only [barDecAt, hal', Bool.false_eq_true, if_false, hloc, Res.bind, barDec_counts hs hn]
  rfl

/-- A command that counts no bytes at a barrier object goes on. -/
theorem countPiece_none {env : Env} {t q : ℕ} {c : Cmd} {n : ℕ} {d : Dev} (h : c.tk ≠ 1 ∨ n = 0) : countPiece env t q c n d = .ok true d := by
  have hno : (decide (c.tk = 1) && n != 0) = false := by
    rcases h with h | h
    · rw [decide_eq_false h, Bool.false_and]
    · rw [h, bne_self_eq_false, Bool.and_false]
  rw [countPiece, hno]; rfl

theorem countPiece_counts {env : Env} {t q : ℕ} {c : Cmd} {n : ℕ} {d e : Dev} (hk : c.tk = 1) (hn : n ≠ 0)
    (h : barDecAt env d (cmdWho t c) (.tile t (aqPath q)) c.tgt n = .ok () e) : countPiece env t q c n d = .ok true e := by
  have hyes : (decide (c.tk = 1) && n != 0) = true := by simp [hk, hn]
  rw [countPiece, hyes, if_pos rfl, h]

theorem queue_of_quiet {d e : Dev} {t : ℕ} (h : (e.tile t).queues = (d.tile t).queues) (p : ℕ) : e.queue t p = d.queue t p := by
  rw [Dev.queue, Dev.queue, show (e.tile t).aq = (d.tile t).aq from congrArg (·.2.2) h]

theorem setHead_queue (d : Dev) (t : ℕ) {q : ℕ} (hq : q < 6) (c : Cmd) : (setHead d t q c).queue t q = c :: (d.queue t q).tail := by
  rw [setHead, queue_setQueue _ _ _ _ hq, if_pos rfl]

/-- One write that a command has sent, of which n bytes are taken (R308). -/
def OutWr.cut (w : OutWr) (n : ℕ) : List OutWr := if n = w.bytes.length then [] else
  [{ w with loc := w.loc.plus n, bytes := w.bytes.drop n, src := w.src.map fun x => (x.1.plus n, x.2) }]

theorem takeOut_one {w : OutWr} {n i : ℕ} (hi : i = 0) (h0 : 0 < n) (hn : n ≤ w.bytes.length) :
    takeOut [w] i n = some ([{ w with bytes := w.bytes.take n }], w.cut n) := by
  subst hi
  have hcut : cutOut n [w] = some ([{ w with bytes := w.bytes.take n }], w.cut n) := by
    rw [cutOut, if_neg (by omega)]
    by_cases hlt : n < w.bytes.length
    · rw [if_pos hlt, OutWr.cut, if_neg (by omega)]
    · have he : n = w.bytes.length := by omega
      rw [if_neg hlt, he, Nat.sub_self, OutWr.cut, if_pos rfl, List.take_length]
      rfl
  rw [takeOut, List.drop_zero, hcut]
  simp

/-- Of the bytes that a command has sent in one write, the first n are performed (R145, R308). -/
theorem pieceDone_one {env : Env} {d d1 : Dev} {q n m : ℕ} {c c1 : Cmd} {w : OutWr} {stop : MoveEnd}
    (hc : movingHead d env.unit q = some c) (h0 : 0 < n) (hroom : c.off - c.outBytes + n ≤ c.bytes)
    (hm : min (c.bytes - c.off) (max (n - c.outBytes) (Config.moveAhead env.tick)) = m)
    (hsend : sendBytes env env.unit q m m c d = (c1, d1, stop)) (hout : c1.out = [w]) (hn : n ≤ w.bytes.length) :
    pieceDone q n env d = tryKeep d (countPiece env env.unit q { c1 with out := w.cut n } n
      (setHead (putOut env env.unit q c.vf d1 { w with bytes := w.bytes.take n }) env.unit q { c1 with out := w.cut n })) := by
  have hgo : (decide (n = 0) || decide (c.bytes < c.off - c.outBytes + n)) = false := by simp; omega
  simp only [pieceDone, hc, hgo, Bool.false_eq_true, if_false, hm, hsend, hout]
  rw [takeOut_one (i := Config.movePick env.tick % max 1 [w].length) (Nat.mod_one _) h0 hn]
  rfl

/-! ### The steps of the queues, as the statement puts them -/

section
variable {s : State} {q : BitVec 5} {c : Cmd} {l : List Cmd} {a b z : Loc} {ca cb cz : BitVec 4} {d1 d2 d4 : Dev} {n : ℕ}

theorem copy_completes (hq : q.toNat ≤ 3) (h : Claims.CopyAt s q c l a b ca cb d1 d2) (hk : c.tk = 2)
    (hr : (unitTile s).runs c.serial = true) (hev : (iter s).ev.length < 256) :
    ∃ t ts, exec (.commandCompletion q) s = .next t ∧ t.dev.queue s.env.unit q.toNat = l ∧
      t.dev.mem = Memory.write b.key (Claims.left s 1 b (Claims.copyBytes s q c a)) s.dev.mem ∧
      (iter t).ev = (iter s).ev ++ [(cmdRecord c.tgt (c.op 2).toNat 0 q.toNat 0, ts)] ∧ (iter t).regs = (iter s).regs := by
  obtain ⟨hm, hqueue, hregs, ts, hrec⟩ := copyCompletes_records h hk hr hev hq
  have hcore : ((Claims.copied s q c a b ca cb d2).tile s.env.unit).core = iter s :=
    congrArg (·.2.1) (copied_quiet h (quiet_queues s.env.unit))
  exact ⟨_, ts, exec_commandCompletion hq, hqueue, hm.trans (copied_mem h hq), hrec.trans (by rw [hcore]), hregs.trans (by rw [hcore])⟩

/-- The bytes of a COPY, performed, are counted at its barrier object (R145, R151). -/
theorem copy_counted (hq : q.toNat ≤ 3) (h : Claims.CopyAt s q c l a b ca cb d1 d2) (hk : c.tk = 1) (hal : c.tgt.toNat % 16 = 0)
    (hloc : locate s.env (setHead (Claims.copied s q c a b ca cb d2) s.env.unit q.toNat { c with off := (c.op 2).toNat })
      (cmdWho s.env.unit c) { write := true } c.tgt = .ok (z, cz) d4)
    (hs : (barOf (getBytes d4 z 16)).state = 1) (hn : (c.op 2).toNat < (barOf (getBytes d4 z 16)).count) :
    ∃ t, exec (.barrierDecrement q (c.op 2).toNat) s = .next t ∧ Claims.Head t q { c with off := (c.op 2).toNat } l ∧
      t.dev.mem = Memory.write z.key
        ({ barOf (getBytes d4 z 16) with count := (barOf (getBytes d4 z 16)).count - (c.op 2).toNat } : BarObj).bytes
        (Memory.write b.key (Claims.left s 1 b (Claims.copyBytes s q c a)) s.dev.mem) := by
  have hsend := sendBytes_copy h
  have hmem := copied_mem h hq
  have hqueue := copied_queue h q.toNat
  obtain ⟨hhead, hkind, hst, ho, hout, hpos, -, -, -, -, -, -⟩ := h
  have hhead' : s.dev.queue s.env.unit q.toNat = c :: l := hhead
  have hlen : (copyOut s q c a b ca cb).bytes.length = (c.op 2).toNat := by
    rw [copyOut, Claims.copyBytes, length_readBytes]
  have hout0 : c.outBytes = 0 := by rw [Cmd.outBytes, hout]; rfl
  have hcut : (copyOut s q c a b ca cb).cut (c.op 2).toNat = [] := by rw [OutWr.cut, if_pos hlen.symm]
  have htake : ({ copyOut s q c a b ca cb with bytes := (copyOut s q c a b ca cb).bytes.take (c.op 2).toNat } : OutWr) =
    copyOut s q c a b ca cb := by rw [List.take_of_length_le hlen.le]
  have hnil : ({ c with off := (c.op 2).toNat, out := [] } : Cmd) = { c with off := (c.op 2).toNat } := by rw [← hout]
  have hpiece := pieceDone_one (m := (c.op 2).toNat) (movingHead_copy hhead' hkind hst) hpos (by rw [ho, hout0, bytes_copy hkind]; omega)
    (by rw [ho, hout0, bytes_copy hkind]; omega) hsend rfl hlen.ge
  have hbar := barDecAt_counts (n := (c.op 2).toNat) (.tile s.env.unit (aqPath q.toNat)) hal hloc hs hn
  have hcount := countPiece_counts (c := { c with off := (c.op 2).toNat }) (q := q.toNat) hk (Nat.pos_iff_ne_zero.mp hpos) hbar
  rw [hcut, hnil, htake] at hpiece
  have hquiet := (storeMark_quiet (quiet_queues s.env.unit) s.env d4 (.tile s.env.unit (aqPath q.toNat)) c.vf cz true z
    ({ barOf (getBytes d4 z 16) with count := (barOf (getBytes d4 z 16)).count - (c.op 2).toNat } : BarObj).bytes).trans
    ((locate_quiet (quiet_queues s.env.unit) ..).ok hloc)
  refine ⟨_, run_of_eq (hpiece.trans (congrArg (tryKeep s.dev) hcount)), ?_, ?_⟩
  · refine (queue_of_quiet hquiet _).trans ?_
    rw [setHead_queue _ _ (by omega), hqueue, hhead']
    rfl
  · refine (storeMark_mem ..).trans ?_
    rw [(locate_same hloc).1]
    exact congrArg _ hmem

/-- Of a write that a command has sent, the first bytes are performed alone (R145, R308). -/
theorem out_piece {w : OutWr} (hq : q.toNat ≤ 3) (hhead : Claims.Head s q c l) (hkind : c.kind = .copy) (hst : c.stall = none)
    (ho : c.off = (c.op 2).toNat) (hout : c.out = [w]) (hw : w.done = false) (hk : c.tk ≠ 1) (hle : w.bytes.length ≤ c.off) (h0 : 0 < n)
    (hn : n ≤ w.bytes.length) :
    ∃ t, exec (.barrierDecrement q n) s = .next t ∧ t.dev.mem = Memory.write w.loc.key (Claims.left s 1 w.loc (match w.src with
        | some x => Claims.late s 1 c.vf x.1 (w.bytes.take n)
        | none => w.bytes.take n)) s.dev.mem ∧ Claims.Head t q { c with out := w.cut n } l := by
  have hhead' : s.dev.queue s.env.unit q.toNat = c :: l := hhead
  have houtB : c.outBytes = w.bytes.length := by rw [Cmd.outBytes, hout]; simp
  have hpiece := pieceDone_one (env := s.env) (m := 0) (movingHead_copy hhead' hkind hst) h0 (by rw [houtB, bytes_copy hkind]; omega)
    (by rw [bytes_copy hkind]; omega) (sendBytes_zero ..) hout hn
  have hquiet := putSent_quiet (quiet_queues s.env.unit) s.env s.env.unit (aqPath q.toNat) c.vf s.dev { w with bytes := w.bytes.take n }
  refine ⟨_, run_of_eq (hpiece.trans (congrArg (tryKeep s.dev) (countPiece_none (Or.inl hk)))), ?_, ?_⟩
  · refine (putSent_mem s.env s.env.unit (by rw [aqPath_copy hq]; decide) c.vf s.dev (w := { w with bytes := w.bytes.take n }) hw).trans ?_
    rw [aqPath_copy hq, OutWr.now]
    cases w.src with
    | none => rfl
    | some x => exact congrArg (fun y => Memory.write w.loc.key (Claims.left s 1 w.loc y) s.dev.mem) (lateRead_bytes ..)
  · refine (setHead_queue _ _ (by omega) _).trans ?_
    rw [putOut, queue_of_quiet hquiet, hhead']
    rfl

/-- A COPY whose place to write faults stalls with its offset (R149). -/
theorem copy_stalls {code : ℕ} {va : Dword} (hq : q.toNat ≤ 3) (hhead : Claims.Head s q c l) (hkind : c.kind = .copy) (hst : c.stall = none)
    (ho : c.off = 0) (hout : c.out = []) (hpos : 0 < (c.op 2).toNat)
    (ha : locate s.env s.dev (cmdWho s.env.unit c) {} (c.op 0) = .ok (a, ca) d1)
    (hb : locate s.env d1 (cmdWho s.env.unit c) { write := true } (c.op 1) = .sys code va) :
    ∃ t, exec (.commandStall q) s = .next t ∧ Claims.Head t q { c with stall := some (BitVec.ofNat 8 code), fva := va } l ∧
      (iter t).regs = (iter s).regs := by
  have hhead' : s.dev.queue s.env.unit q.toNat = c :: l := hhead
  obtain ⟨f, hf⟩ := Nat.exists_eq_succ_of_ne_zero (Nat.pos_iff_ne_zero.mp hpos)
  have hsend : sendBytes s.env s.env.unit q.toNat (c.op 2).toNat (c.op 2).toNat c s.dev = (c, s.dev, .fault code va) := by
    rw [hf, sendBytes, if_neg (Nat.succ_ne_zero f), sendChunk, cmdAt_copy _ _ _ _ hkind ho]
    simp only [Res.bind, ha, hb]
  let c2 : Cmd := { c with stall := some (BitVec.ofNat 8 code), fva := va }
  have hc2 : ({ c with out := [], stall := some (BitVec.ofNat 8 code), fva := va } : Cmd) = c2 := by rw [← hout]
  have hout0 : c.outBytes = 0 := by rw [Cmd.outBytes, hout]; rfl
  have hflush : flushOut s.env s.env.unit q.toNat c s.dev = s.dev := by rw [flushOut, hout]; rfl
  let d3 := setHead (keepTlb s.env s.dev (cmdWho s.env.unit c) va) s.env.unit q.toNat c2
  have heq : copyStalls q.toNat s.env s.dev = cmdFault s.env d3 s.env.unit q.toNat c2 8 code code c2.off va := by
    have hrest : c.bytes - c.off = (c.op 2).toNat := by rw [bytes_copy hkind, ho, Nat.sub_zero]
    simp only [copyStalls, movingHead_copy hhead' hkind hst, hrest, hsend, hflush, hc2, hout0]
    rw [countPiece_none (Or.inr rfl)]
    rfl
  have hquiet : ((cmdFault s.env d3 s.env.unit q.toNat c2 8 code code c2.off va).tile s.env.unit).queues = (d3.tile s.env.unit).queues :=
    postFault_quiet (quiet_queues s.env.unit) ..
  have hkeep : (keepTlb s.env s.dev (cmdWho s.env.unit c) va).tile s.env.unit = s.dev.tile s.env.unit := by rw [keepTlb_eq]; rfl
  refine ⟨_, exec_commandStall hq, ?_, ?_⟩
  · rw [heq]
    refine (queue_of_quiet hquiet _).trans ((setHead_queue _ _ (by omega) _).trans ?_)
    rw [Dev.queue, hkeep, ← Dev.queue, hhead']
    rfl
  · rw [heq]
    have hcore : ((cmdFault s.env d3 s.env.unit q.toNat c2 8 code code c2.off va).tile s.env.unit).core = (d3.tile s.env.unit).core :=
      congrArg (·.2.1) hquiet
    refine (congrArg TCore.regs hcore).trans ?_
    rw [show d3 = setHead _ _ _ _ from rfl, setHead, setQueue_core, hkeep]
    rfl

/-- A stalled queue goes on at its offset (R149). -/
theorem queue_resumes {k : BitVec 8} (hhead : Claims.Head s q c l) (hst : c.stall = some k) :
    exec (.resumeQueue q) s = .next (withDev s (s.dev.setQueue s.env.unit q.toNat ({ c with stall := none } :: l))) := by
  have hhead' : s.dev.queue s.env.unit q.toNat = c :: l := hhead
  refine run_of_eq ?_
  simp only [resumeQueue, hhead', hst, Option.isSome_some, if_true, setHead, List.tail_cons]

end

/-! ### A command fails (R149) -/

theorem countEnded_tile (d : Dev) (c : Cmd) (t : ℕ) : (countEnded d c).tile t = d.tile t := by
  unfold countEnded
  split
  · split <;> rfl
  · rfl

/-- A node that counts an ended command is as it was otherwise. -/
theorem countEnded_node {d : Dev} {c : Cmd} {n : ℕ} {x : Node} (h : d.node n = some x) :
    ∃ y, (countEnded d c).node n = some y ∧ y.ph = x.ph := by
  unfold countEnded
  split
  · split
    · next z hz =>
      by_cases hn : n = c.node
      · subst hn
        rw [hz] at h
        cases h
        exact ⟨_, (NMap.find_set ..).trans (if_pos rfl), rfl⟩
      · exact ⟨x, (NMap.find_set ..).trans ((if_neg hn).trans h), rfl⟩
    · exact ⟨x, h, rfl⟩
  · exact ⟨x, h, rfl⟩

/-- The device when a command of COPY's queues has failed, before its node is told. -/
def failedCmd (env : Env) (d : Dev) (t q : ℕ) (c : Cmd) (orig off : ℕ) (va : Dword) : Dev :=
  let d1 := cmdFault env (flushOut env t q c d) t q c 2 0x26 orig off va
  if c.tk = 2 then postIter env d1 t c.serial (cmdRecord c.tgt c.moved (cmdCode c.kind) q 1) (getPts d1 (.tile t (aqPath q))) else d1

theorem failCmd_eq {env : Env} {d : Dev} {t q : ℕ} {c : Cmd} {orig off : ℕ} {va : Dword} (hq : q ≤ 3) :
    failCmd env d t q c orig off va = failNode env (countEnded (failedCmd env d t q c orig off va) c) c.node := by
  simp only [failCmd, if_neg (show ¬ q = 5 by omega)]
  rfl

theorem failedCmd_kept (env : Env) (d : Dev) (t q : ℕ) (c : Cmd) (orig off : ℕ) (va : Dword) (u : ℕ) :
    ((failedCmd env d t q c orig off va).tile u).kept = (d.tile u).kept := by
  have h : ((cmdFault env (flushOut env t q c d) t q c 2 0x26 orig off va).tile u).kept = (d.tile u).kept :=
    (postFault_quiet (quiet_kept u) ..).trans (flushOut_quiet (quiet_kept u) ..)
  unfold failedCmd
  dsimp only
  split
  · exact (postIter_kept ..).trans h
  · exact h

theorem failedCmd_cn (env : Env) (d : Dev) (t q : ℕ) (c : Cmd) (orig off : ℕ) (va : Dword) :
    (failedCmd env d t q c orig off va).cn = d.cn := by
  have h : (cmdFault env (flushOut env t q c d) t q c 2 0x26 orig off va).cn = d.cn :=
    (postFault_cn ..).trans (foldl_cn (fun _ _ => putSent_cn ..) _ _)
  unfold failedCmd
  dsimp only
  split
  · exact (postIter_cn ..).trans h
  · exact h

theorem failNode_kept (env : Env) (d : Dev) (n u : ℕ) : ((failNode env d n).tile u).kept = (d.tile u).kept := by
  unfold failNode
  split
  · rfl
  · split
    · exact setNodeState_quiet (quiet_kept u) ..
    · rfl

/-- A failed command changes no register and no queue. -/
theorem failCmd_kept {env : Env} {d : Dev} {t q : ℕ} {c : Cmd} {orig off : ℕ} {va : Dword} (hq : q ≤ 3) (u : ℕ) :
    ((failCmd env d t q c orig off va).tile u).kept = (d.tile u).kept := by
  rw [failCmd_eq hq, failNode_kept, countEnded_tile, failedCmd_kept]

/-- A failed command fails its node (R48). -/
theorem failCmd_node {env : Env} {d : Dev} {t q : ℕ} {c : Cmd} {orig off : ℕ} {va : Dword} {x : Node} (hq : q ≤ 3)
    (hx : d.node c.node = some x) (hp : x.ph = .running) : ∃ y, (failCmd env d t q c orig off va).node c.node = some y ∧ y.ph = .failed := by
  rw [failCmd_eq hq]
  obtain ⟨y, hy, hph⟩ := countEnded_node (c := c) (d := failedCmd env d t q c orig off va)
    ((Dev.node_of_cn (failedCmd_cn ..) _).trans hx)
  exact failNode_running hy (hph.trans hp)

section
variable {s : State} {q : BitVec 5} {c : Cmd} {l : List Cmd}

/-- The command that a queue is stalled on fails (R149, R321). -/
theorem queue_fails {k : BitVec 8} (hq : q.toNat ≤ 3) (hhead : Claims.Head s q c l) (hst : c.stall = some k) :
    ∃ t, exec (.failQueueCommand q) s = .next t ∧ t.dev.queue s.env.unit q.toNat = l ∧ (iter t).regs = (iter s).regs ∧
      ∀ x, s.dev.node c.node = some x → x.ph = .running → ∃ y, t.dev.node c.node = some y ∧ y.ph = .failed := by
  have hhead' : s.dev.queue s.env.unit q.toNat = c :: l := hhead
  have heq : failQueue s.env s.env.unit q.toNat s.dev =
      failCmd s.env (s.dev.setQueue s.env.unit q.toNat l) s.env.unit q.toNat c k.toNat c.off c.fva := by
    simp only [failQueue, hhead', hst]
  have hkept := failCmd_kept (env := s.env) (d := s.dev.setQueue s.env.unit q.toNat l) (t := s.env.unit) (c := c) (orig := k.toNat)
    (off := c.off) (va := c.fva) hq s.env.unit
  refine ⟨_, run_of_eq heq, ?_, ?_, fun x hx hp => failCmd_node hq hx hp⟩
  · refine (congrArg (fun y : Regs × Vector (List Cmd) 6 => vget y.2 [] q.toNat) hkept).trans ?_
    exact (queue_setQueue _ _ _ _ (by omega)).trans (if_pos rfl)
  · refine (congrArg (fun y : Regs × Vector (List Cmd) 6 => y.1) hkept).trans ?_
    exact congrArg TCore.regs (setQueue_core ..)

/-- A NOTIFY at the head of its queue posts its record (R113, R155). -/
theorem notify_completes (hq : q.toNat ≤ 3) (hhead : Claims.Head s q c l) (hn : c.isNotify = true) (hk : c.tk = 2)
    (hr : (unitTile s).runs c.serial = true) (hev : (iter s).ev.length < 256) :
    ∃ t ts, exec (.notifyComplete q) s = .next t ∧ t.dev.mem = s.dev.mem ∧ t.dev.queue s.env.unit q.toNat = l ∧
      (iter t).ev = (iter s).ev ++ [(cmdRecord c.tgt 0 6 q.toNat 0, ts)] ∧ (iter t).regs = (iter s).regs := by
  have hhead' : s.dev.queue s.env.unit q.toNat = c :: l := hhead
  obtain ⟨e, he, hm, hqueue, hregs, ts, hrec⟩ := signalCmd_recorded (env := s.env) (d := s.dev) (t := s.env.unit) (q := q.toNat) (by omega)
    (c := c) (l := l) 0 0 hk hr hev
  have hgo : (c.isNotify && !(decide (q.toNat = 5) && landsLost s.dev s.env.unit)) = true := by
    rw [hn, decide_eq_false (by omega)]; rfl
  have heq : notifyCompletes q.toNat s.env s.dev = e := by
    simp only [notifyCompletes, if_pos (show q.toNat ≤ 5 by omega), hhead', hgo, if_true, he]
    rfl
  have hcode : cmdCode c.kind = 6 := by
    simp only [Cmd.isNotify, Bool.or_eq_true, beq_iff_eq] at hn
    rcases hn with hn | hn <;> rw [hn] <;> rfl
  rw [hcode] at hrec
  exact ⟨_, ts, run_of_eq heq, hm, hqueue, hrec, hregs⟩

end

theorem commandSteps : Claims.CommandSteps := by
  intro s q c l n code k va a b z ca cb cz d1 d2 d4 o w hq
  refine ⟨fun h hk hr hev => copy_completes hq h hk hr hev, fun h hk hal hn => ?_, fun hhead hkind hst ho hout hw hk hle h0 hn => ?_,
    fun hhead hkind hst ho hout hpos ha hb => copy_stalls hq hhead hkind hst ho hout hpos ha hb,
    fun hhead hst => ⟨queue_resumes hhead hst, queue_fails hq hhead hst⟩,
    fun hhead hn hk hr hev => notify_completes hq hhead hn hk hr hev⟩
  · subst hn
    intro d3 hloc ho hs hc
    subst ho
    exact copy_counted hq h hk hal hloc hs hc
  · exact out_piece hq hhead hkind hst ho hout hw hk hle h0 hn

end Sys2Proof.Machine

namespace Sys2Proof.Machine

open Sys2Proof.Safety

/-! ### Stores leave the maps as they were -/

theorem storeTs_sameSlots (env : Env) (d : Dev) (ag : Agent) (vf : BitVec 10) (cls : BitVec 4) (front : Bool) (loc : Loc) :
    SameSlots d (storeTs env d ag vf cls front loc).1 := by
  cases loc with
  | hbm pa => exact ((l2Touch_sameSlots ..).trans (l2Set_sameSlots ..)).trans (setPts_sameSlots ..)
  | spad t o =>
    refine SameSlots.trans (SameSlots.onTile d t ?_) (setPts_sameSlots ..)
    exact fun _ => rfl
  | staging s o => exact SameSlots.refl d
  | port v => exact SameSlots.refl d

theorem dropResv_sameSlots (d : Dev) (k n : ℕ) : SameSlots d (dropResv d k n) := by
  unfold dropResv; split <;> exact SameSlots.of_fields rfl rfl rfl

theorem markDirty_sameSlots (d : Dev) (loc : Loc) : SameSlots d (markDirty d loc) := by
  cases loc with
  | hbm pa =>
    simp only [markDirty]
    split <;> exact SameSlots.of_fields rfl rfl rfl
  | spad t o => exact SameSlots.refl d
  | staging s o => exact SameSlots.refl d
  | port v => exact SameSlots.refl d

theorem putBytes_sameSlots (d : Dev) (loc : Loc) (b : List Byte) : SameSlots d (putBytes d loc b) := by
  have h : SameSlots d { d with mem := Memory.write loc.key b d.mem } := SameSlots.of_fields rfl rfl rfl
  exact (h.trans (dropResv_sameSlots _ loc.key b.length)).trans (markDirty_sameSlots _ loc)

theorem notePast_sameSlots (d : Dev) (ag : Agent) (loc : Loc) (ts : Dword) (n : ℕ) : SameSlots d (notePast d ag loc ts n) :=
  SameSlots.of_fields rfl rfl rfl

theorem storeMark_sameSlots (env : Env) (d : Dev) (ag : Agent) (vf : BitVec 10) (cls : BitVec 4) (front : Bool) (loc : Loc) (b : List Byte) :
    SameSlots d (storeMark env d ag vf cls front loc b).1 :=
  ((storeTs_sameSlots env d ag vf cls front loc).trans (notePast_sameSlots _ ag loc _ b.length)).trans (putBytes_sameSlots _ loc b)

theorem sentMark_sameSlots (env : Env) (d : Dev) (ag : Agent) (vf : BitVec 10) (cls : BitVec 4) (front : Bool) (loc : Loc) (b : List Byte) :
    SameSlots d (sentMark env d ag vf cls front loc b).1 := by
  unfold sentMark
  cases ag with
  | tile t p =>
    have h (c : List Byte) : SameSlots d (if c == b then (storeMark env d (.tile t p) vf cls front loc c).1 else
        { (storeMark env d (.tile t p) vf cls front loc c).1 with
          past := { key := loc.key, old := b, ts := (storeMark env d (.tile t p) vf cls front loc c).2, tile := t, path := p } ::
            (storeMark env d (.tile t p) vf cls front loc c).1.past }) := by
      split
      · exact storeMark_sameSlots ..
      · exact (storeMark_sameSlots ..).trans (SameSlots.of_fields rfl rfl rfl)
    exact h _
  | core n => exact storeMark_sameSlots ..
  | stream k => exact storeMark_sameSlots ..
  | stamp x => exact storeMark_sameSlots ..
  | none => exact storeMark_sameSlots ..

/-! ### A matched element is performed (R253) -/

/-- The bytes that the write of an element leaves (R132): those of a path behind A's may stay under an earlier store of A. -/
def LandEl.left (e : LandEl) (env : Env) (d : Dev) : List Byte :=
  match e.ag with
  | .tile t (p + 1) => overStore env d t (p + 1) (landLoc e.slice e.unit e.off) e.bytes
  | _ => e.bytes

theorem sentMark_leaves (e : LandEl) (env : Env) (d : Dev) : (sentMark env d e.ag e.gen.vf 0 true (landLoc e.slice e.unit e.off) e.bytes).1.mem =
    Memory.write (landLoc e.slice e.unit e.off).key (e.left env d) d.mem := by
  unfold LandEl.left
  cases e.ag with
  | tile t p =>
    cases p with
    | zero =>
      simp only [sentMark, if_true, beq_self_eq_true]
      exact storeMark_mem ..
    | succ p => exact sentMark_mem _ _ _ (Nat.succ_ne_zero p) ..
  | core n => exact storeMark_mem ..
  | stream k => exact storeMark_mem ..
  | stamp x => exact storeMark_mem ..
  | none => exact storeMark_mem ..

/-- An element of a map without a barrier object, not performed yet, is written (R253). -/
theorem landNow_writes {env : Env} {e : LandEl} (hd : e.done = false) (hb : e.gen.bar = 0) (d : Dev) :
    landNow env e d = (sentMark env d e.ag e.gen.vf 0 true (landLoc e.slice e.unit e.off) e.bytes).1 := by
  simp only [landNow, hd, Bool.false_eq_true, if_false, hb, if_true]
  rfl

/-! ### The matched writes that a test names -/

/-- Of what waits the test names no element: none must be performed. -/
theorem landSet_none {p : LandEl → Bool} {l : List Later} (h : ∀ x ∈ l, ∀ e, x.el = some e → p e = false) :
    landSet p l = ([], l.map fun _ => false) := by
  induction l with
  | nil => rfl
  | cons x r ih =>
    have hr := ih fun y hy => h y (List.mem_cons_of_mem x hy)
    rw [landSet, hr]
    cases hx : x.el with
    | none => rfl
    | some e => simp [h x List.mem_cons_self e hx]

/-- What is put back in the order in which it waited waits as before. -/
theorem foldl_defer (env : Env) (l : List Later) (d : Dev) : (l.zip (l.map fun _ => false)).foldl (fun d x => match x.1.el with
    | some e => if x.2 then landNow env e d else d.defer x.1
    | none => d.defer x.1) d = { d with later := d.later ++ l } := by
  induction l generalizing d with
  | nil => rw [List.append_nil]; rfl
  | cons x r ih =>
    rw [List.map_cons, List.zip_cons_cons, List.foldl_cons]
    have hx : (match x.el with
        | some e => if false = true then landNow env e d else d.defer x
        | none => d.defer x) = d.defer x := by cases x.el <;> rfl
    refine (congrArg (List.foldl _ · _) hx).trans ((ih _).trans ?_)
    rw [Dev.defer, List.append_assoc]
    rfl

theorem landAll_none {env : Env} {p : LandEl → Bool} {d : Dev} (h : ∀ x ∈ d.later, ∀ e, x.el = some e → p e = false) :
    landAll env p d = d := by
  rw [landAll, landSet_none h]
  exact foldl_defer env d.later { d with later := [] }

/-- A generation with no unperformed write has nothing to be performed (R156). -/
theorem landAll_drained {env : Env} {d : Dev} {g : MapGen} (h : pendOf d g = 0) : landAll env (fun e => e.gen.no == g.no) d = d := by
  refine landAll_none fun x hx e he => ?_
  have hx' := List.countP_eq_zero.mp h x hx
  rw [he] at hx'
  exact Bool.eq_false_iff.mpr hx'

/-- The one element that waits is performed. -/
theorem landAll_one {env : Env} {d : Dev} {e : LandEl} {p : LandEl → Bool} (hl : d.later = [.land e]) (hp : p e = true) :
    landAll env p d = landNow env e { d with later := [] } := by
  have hset : landSet p [.land e] = ([e], [true]) := by
    simp only [landSet, Later.el, hp, Bool.true_or, if_true]
  rw [landAll, hl, hset]
  rfl

end Sys2Proof.Machine

namespace Sys2Proof.Machine

open Sys2Proof.Safety

/-! ### A drained generation lets MAPRET go on (R156) -/

/-- Whether an engine may walk is seen of the tile's iteration and its stops. -/
def Tile.gate (y : Tile) : Bool × Bool × Dbg × TCore := (y.running, y.saving, y.dbg, y.core)

theorem quiet_gate (t : ℕ) : Quiet fun d => (d.tile t).gate :=
  quiet_tile (g := Tile.gate) (fun _ _ h => by rw [Tile.Touched] at h; rw [h]; rfl) t

theorem bpMask_congr {y z : Tile} (hd : z.dbg = y.dbg) (hc : z.core = y.core) (e : Eng) (pc : Dword) : bpMask z e pc = bpMask y e pc := by
  have hits (k : ℕ) : bpHits z e pc k = bpHits y e pc k := by simp only [bpHits, hd, hc]
  simp only [bpMask, hc, hits]

theorem ready_congr {d e : Dev} {t : ℕ} (h : (e.tile t).gate = (d.tile t).gate) (g : Eng) : ready e t g = ready d t g := by
  simp only [Tile.gate, Prod.mk.injEq] at h
  obtain ⟨hr, hs, hd, hc⟩ := h
  simp only [ready, bpMask_congr hd hc, hr, hs, hd, hc]

theorem mapSel_congr {env : Env} {d e : Dev} {t : ℕ} (hs : ∀ k, (e.slice k).maps = (d.slice k).maps)
    (hc : (e.tile t).core = (d.tile t).core) (v : Dword) : mapSel env e t v = mapSel env d t v := by
  have hstaged (k w : ℕ) (vf : BitVec 10) : stagedFor e k w vf = stagedFor d k w vf := by
    rw [stagedFor, stagedFor, show (e.slice k).sway = (d.slice k).sway from congrArg Prod.snd (hs k)]
  simp only [mapSel, hstaged, hc]

/-- A state at whose unit engine A takes the step. -/
def atA (s : State) (d : Dev) : State := { s with env := { s.env with eng := .a }, dev := d }

theorem peekAt_atA (s : State) (d : Dev) (t : ℕ) (pc : Dword) : peekAt (atA s d).env d t .a pc = peekAt s.env d t .a pc := rfl

theorem mapSel_atA (s : State) (d : Dev) (t : ℕ) (v : Dword) : mapSel (atA s d).env d t v = mapSel s.env d t v := rfl

theorem exec_mapret_atA (s : State) (d : Dev) (b : BitVec 5) : exec (.mapret b) (atA s d) = .next (withDev (atA s d)
    (engineWord .a (.mapret b) (mapretWord b (atA s d).env) (fun _ c => c) (atA s d).env d)) := rfl

section
variable {s : State} {pc : Dword} {w : Word} {b : BitVec 5} {sel : MapSel} {g : MapGen}
  (hr : ready s.dev s.env.unit .a = .go pc false) (hw : ((iter s).engine .a).wait ≠ none)
  (hp : peekAt s.env s.dev s.env.unit .a pc = some w) (hdec : decodeTotal w = .mapret b)
  (hsel : mapSel s.env s.dev s.env.unit ((iter s).a b) = some sel) (hg : (mapSlot s.dev sel).drain = some g)
include hr hw hp hdec hsel hg

/-- The device on which the MAPRET that waited is walked again: its generation's matched writes are performed. -/
def drainedDev (s : State) (g : MapGen) : Dev := landAll (atA s s.dev).env (fun e => e.gen.no == g.no) s.dev

theorem mapDrained_mapret : mapDrained s.env s.dev =
    engineWord .a (.mapret b) (mapretWord b (atA s s.dev).env) (fun _ c => c) (atA s s.dev).env (drainedDev s g) := by
  have hwait : ((s.dev.tile s.env.unit).core.engine .a).wait.isNone = false := by
    rw [Option.isNone_eq_false_iff, Option.isSome_iff_ne_none]; exact hw
  have hpeek : (peekAt { s.env with eng := .a } s.dev s.env.unit .a pc).map decodeTotal = some (.mapret b) := by
    rw [show peekAt { s.env with eng := .a } s.dev s.env.unit .a pc = some w from hp, Option.map_some, hdec]
  have hdrain : drainingOf { s.env with eng := .a } s.dev s.env.unit ((s.dev.tile s.env.unit).core.a b) = some g := by
    rw [drainingOf, show mapSel { s.env with eng := .a } s.dev s.env.unit ((s.dev.tile s.env.unit).core.a b) = some sel from hsel]
    exact hg
  simp only [mapDrained, hr, hwait, Bool.false_eq_true, if_false, hpeek, hdrain]
  rfl

/-- Once the writes of the draining generation are performed, MAPRET retires it and A goes on. -/
theorem mapret_goes_on (hgate : ((drainedDev s g).tile s.env.unit).gate = (s.dev.tile s.env.unit).gate)
    (hmaps : ∀ k, ((drainedDev s g).slice k).maps = (s.dev.slice k).maps)
    (hslots : ∀ t, ((drainedDev s g).tile t).slots = (s.dev.tile t).slots) (hpend : pendOf (drainedDev s g) g = 0) :
    ∃ t, exec .mapDrainComplete s = .next t ∧ t.dev.mem = (drainedDev s g).mem ∧
      (iter t).regs = (iter s).regs ∧ ((iter t).engine .a).pc = pc + 4 ∧
      mapSlot t.dev sel = { act := (mapSlot s.dev sel).act, drain := none } ∧ t.dev.later = (drainedDev s g).later := by
  have hcore : ((drainedDev s g).tile s.env.unit).core = iter s := congrArg (·.2.2.2) hgate
  have hstands : Stands (atA s (drainedDev s g)) .a pc false := ⟨rfl, (ready_congr hgate .a).trans hr⟩
  have hslot : mapSlot (drainedDev s g) sel = mapSlot s.dev sel := by
    unfold mapSlot
    split
    · rw [show ((drainedDev s g).slice sel.unit).slots = (s.dev.slice sel.unit).slots from congrArg Prod.fst (hmaps _)]
    · rw [hslots]
  have hsel' : mapSel (atA s (drainedDev s g)).env (atA s (drainedDev s g)).dev (atA s (drainedDev s g)).env.unit
      ((iter (atA s (drainedDev s g))).a b) = some sel := by
    rw [show iter (atA s (drainedDev s g)) = iter s from hcore]
    exact (mapSel_congr hmaps hcore _).trans hsel
  obtain ⟨t, ht, hm, hregs, hpc, hsl, hl⟩ := exec_mapret_retires hstands hsel' ((congrArg MapSlot.drain hslot).trans hg) hpend
  rw [exec_mapret_atA] at ht
  injection ht with ht
  subst ht
  refine ⟨_, run_of_eq (mapDrained_mapret hr hw hp hdec hsel hg), hm, ?_, hpc, ?_, hl⟩
  · exact hregs.trans (congrArg TCore.regs hcore)
  · refine hsl.trans ?_
    rw [show (atA s (drainedDev s g)).dev = drainedDev s g from rfl, hslot]

theorem mapret_drained (hpend : pendOf s.dev g = 0) : ∃ t, exec .mapDrainComplete s = .next t ∧ MemSame s t ∧
    (iter t).regs = (iter s).regs ∧ ((iter t).engine .a).pc = pc + 4 ∧
    mapSlot t.dev sel = { act := (mapSlot s.dev sel).act, drain := none } := by
  have hd : drainedDev s g = s.dev := landAll_drained hpend
  obtain ⟨t, ht, hm, hregs, hpc, hsl, -⟩ := mapret_goes_on hr hw hp hdec hsel hg (by rw [hd]) (by rw [hd]; exact fun _ => rfl)
    (by rw [hd]; exact fun _ => rfl) (by rw [hd]; exact hpend)
  exact ⟨t, ht, fun k => congrArg (Memory.get k) (hm.trans (by rw [hd])), hregs, hpc, hsl⟩

theorem mapret_last_write {e : LandEl} (hl : s.dev.later = [.land e]) (he : e.gen = g) (hd : e.done = false) (hb : g.bar = 0) :
    ∃ t, exec .mapDrainComplete s = .next t ∧
      t.dev.mem = Memory.write (landLoc e.slice e.unit e.off).key (e.left s.env s.dev) s.dev.mem ∧ t.dev.later = [] ∧
      (iter t).regs = (iter s).regs ∧ ((iter t).engine .a).pc = pc + 4 ∧
      mapSlot t.dev sel = { act := (mapSlot s.dev sel).act, drain := none } := by
  have hdev : drainedDev s g = (sentMark (atA s s.dev).env { s.dev with later := [] } e.ag e.gen.vf 0 true (landLoc e.slice e.unit e.off)
      e.bytes).1 := by
    rw [drainedDev, landAll_one hl (by rw [he]; exact beq_self_eq_true _), landNow_writes hd (by rw [he]; exact hb)]
  have hsame : SameSlots { s.dev with later := [] } (drainedDev s g) := by rw [hdev]; exact sentMark_sameSlots ..
  have hgate : ((drainedDev s g).tile s.env.unit).gate = (s.dev.tile s.env.unit).gate := by
    rw [hdev]
    exact sentMark_quiet (quiet_gate s.env.unit) (atA s s.dev).env { s.dev with later := [] } ..
  have hpend : pendOf (drainedDev s g) g = 0 := by rw [pendOf, hsame.later]; rfl
  obtain ⟨t, ht, hm, hregs, hpc, hsl, hlater⟩ := mapret_goes_on hr hw hp hdec hsel hg hgate hsame.slice hsame.tile hpend
  refine ⟨t, ht, hm.trans ?_, hlater.trans hsame.later, hregs, hpc, hsl⟩
  rw [hdev, sentMark_leaves]
  rfl

end

/-! ### An arrived packet (R249, R252, R253) -/

theorem setLink_rest (d : Dev) (b p : ℕ) (l : SubLink) : d.setLink b p l = { d with links := (d.setLink b p l).links } := rfl

theorem ackFlit_rest (d : Dev) (b p : ℕ) : ackFlit d b p = { d with links := (ackFlit d b p).links } := by
  unfold ackFlit
  split <;> rfl

/-- A packet that has been taken leaves the arrivals; its bridge returns the allowance (R279). -/
theorem dropFlight_eq (env : Env) (k : ℕ) (d : Dev) :
    dropFlight env k d = { d with flights := d.flights.eraseIdx k, links := (dropFlight env k d).links } := by
  unfold dropFlight
  split
  · next h => rw [List.eraseIdx_of_length_le (List.getElem?_eq_none_iff.mp h)]
  · dsimp only
    split
    · rfl
    · rw [ackFlit_rest]; rfl

section
variable {s : State} {k slot : ℕ} {f : Flight} {sdev : BitVec 6} {h : XHdr} {body : List Byte} {g : MapGen}
  (hf : s.dev.flights[k]? = some f) (hx : f.pkt = .xfer sdev h body)
include hf hx

theorem exec_arrival : exec (.transferPacket (.arrival k) 0) s =
    .next (withDev s (dropFlight s.env k (landPacket s.env .none h body s.dev))) := by
  refine run_of_eq ?_
  simp only [arrived, hf, hx]

/-- A packet of an old generation of its VF is discarded (R260, R333). -/
theorem arrival_old (hold : vfGen s.dev h.vf ≠ h.gen) :
    exec (.transferPacket (.arrival k) 0) s = .next (withDev s (dropFlight s.env k s.dev)) := by
  rw [exec_arrival hf hx, landPacket, if_pos (by simpa using hold)]

end

/-- The one element of a packet, which one generation matches. -/
def oneEl (h : XHdr) (slot : ℕ) (g : MapGen) (body : List Byte) : LandEl :=
  { ag := .none, slice := false, unit := h.unit.toNat, slot := slot, gen := g, off := (g.offset h 0).toNat, bytes := body }

section
variable {s : State} {k slot : ℕ} {f : Flight} {sdev : BitVec 6} {h : XHdr} {body : List Byte} {g : MapGen}
  (hgen : vfGen s.dev h.vf = h.gen) (hs : h.slice = false) (htag : (s.dev.tile h.unit.toNat).tag = some h.vf)
  (hact : activeGens s.dev false h.unit.toNat = [(slot, g)]) (hm : g.matches h 0 = true) (hfmt : g.fmt = h.fmt) (hrun : h.run = 1)
  (hlen : body.length = fmtBytes h.fmt.toNat)
include hgen hs htag hact hm hfmt hrun hlen

theorem landPacket_one : landPacket s.env .none h body s.dev = landElem s.env 0 (oneEl h slot g body) s.dev := by
  have hforeign : foreign s.dev h = false := by
    rw [foreign, hs, Bool.not_false, if_pos rfl, htag, bne_self_eq_false]
  have hfm : (g.fmt != h.fmt) = false := by rw [hfmt, bne_self_eq_false]
  have helems : landElems s.env .none h [(slot, g)] 1 0 body {} s.dev = ({}, landElem s.env 0 (oneEl h slot g body) s.dev) := by
    simp only [landElems, List.filter_cons, hm, if_true, List.filter_nil, winner, hfm, Bool.false_eq_true, if_false, List.length_singleton,
      hs, ← hlen, List.take_length, show ¬ 2 ≤ 1 by decide]
    rfl
  rw [landPacket, if_neg (by rw [hgen, bne_self_eq_false]; exact Bool.false_ne_true), hforeign, if_neg Bool.false_ne_true, hs, hact, hrun]
  rw [show (1 : BitVec 8).toNat = 1 from rfl, helems]
  simp only [strayTile, hs, Bool.not_false, if_true]
  rfl

end

/-- That an element waits: the model lets it, or one that was matched before it writes a byte of it (R254, R271). -/
theorem landBehind_iff (d : Dev) {e : LandEl} (he : e.done = false) :
    landBehind d e = true ↔ ∃ x y, x ∈ d.later ∧ x.el = some y ∧ y.done = false ∧ y.meets e = true := by
  rw [landBehind, he, Bool.not_false, Bool.true_and, List.any_eq_true]
  constructor
  · rintro ⟨x, hx, h⟩
    cases hel : x.el with
    | none => rw [hel] at h; cases h
    | some y =>
      rw [hel] at h
      simp only [Bool.and_eq_true, Bool.not_eq_true'] at h
      exact ⟨x, y, hx, hel, h.1, h.2⟩
  · rintro ⟨x, y, hx, hel, hy, hm⟩
    exact ⟨x, hx, by rw [hel]; simp [hy, hm]⟩

/-- What an element of a map without a barrier object leaves when it is matched (R253). -/
theorem landElem_now {env : Env} {k : ℕ} {e : LandEl} {d : Dev} (h : ¬ (Config.landLater env.tick k = true ∨ landBehind d e = true))
    (hd : e.done = false) (hb : e.gen.bar = 0) :
    landElem env k e d = (sentMark env d e.ag e.gen.vf 0 true (landLoc e.slice e.unit e.off) e.bytes).1 := by
  rw [landElem, if_neg (by simpa using h), landNow_writes hd hb]

theorem landElem_later {env : Env} {k : ℕ} {e : LandEl} {d : Dev} (h : Config.landLater env.tick k = true ∨ landBehind d e = true) :
    landElem env k e d = d.defer (.land e) := by
  rw [landElem, if_pos (by simpa using h)]

theorem quiet_flights : Quiet Dev.flights where
  tile _ _ _ _ := rfl
  slice _ _ _ := rfl
  event d t vf ev n := by rw [countEv_eq]
  rest _ _ _ _ _ _ _ _ _ _ := rfl

/-- MAPRET goes on by what performing the matched writes leaves (`mapret_goes_on`), an arrived packet by what its one
element does (`landPacket_one`). -/
theorem landingSteps : Claims.LandingSteps := by
  intro s pc w b sel g k slot f sdev h body
  refine ⟨fun hr hw hp hdec hsel hg => ⟨fun hpend => ?_, fun e hl he hd hb => ?_⟩, fun hf hx => ⟨arrival_old hf hx, ?_⟩⟩
  · exact mapret_drained hr hw hp hdec hsel hg hpend
  · exact mapret_last_write hr hw hp hdec hsel hg hl he hd hb
  · intro hgen hs htag hact hm hfmt hrun hbar hlen e waits
    have hw : waits ↔ Config.landLater s.env.tick 0 = true ∨ landBehind s.dev (oneEl h slot g body) = true :=
      or_congr Iff.rfl (landBehind_iff s.dev rfl).symm
    have hone := landPacket_one hgen hs htag hact hm hfmt hrun hlen
    have hfl : (landElem s.env 0 (oneEl h slot g body) s.dev).flights = s.dev.flights := by
      by_cases hwait : waits
      · rw [landElem_later (hw.mp hwait)]; rfl
      · rw [landElem_now (mt hw.mpr hwait) rfl hbar]; exact sentMark_quiet quiet_flights ..
    refine ⟨_, exec_arrival hf hx, ?_, fun hno => ?_, fun hwait => ?_, ?_⟩
    · rw [hone]
      show (dropFlight s.env k _).flights = _
      rw [dropFlight_eq, hfl]
    · rw [hone, landElem_now (mt hw.mpr hno) rfl hbar, withDev_dev, dropFlight_eq]
      exact ⟨(sentMark_sameSlots ..).later, sentMark_leaves (oneEl h slot g body) s.env s.dev⟩
    · rw [hone, landElem_later (hw.mp hwait), withDev_dev, dropFlight_eq]
      exact ⟨rfl, rfl⟩
    · rw [hone, withDev_dev, dropFlight_eq]
      by_cases hwait : waits
      · rw [landElem_later (hw.mp hwait)]; rfl
      · rw [landElem_now (mt hw.mpr hwait) rfl hbar]
        exact sentMark_quiet (quiet_core _) ..

/-- Settles O45: a COPY by the one write that it sends (`sendBytes_copy`, `copied_mem`), a piece of it by what it takes of what is sent
(`takeOut_one`), the ends of commands by what they leave of queues, registers and nodes (`signalCmd_recorded`, `failCmd_kept`, `failCmd_node`);
landing by `landingSteps`. -/
theorem queueCommandSteps : Obligations.QueueCommandSteps := ⟨commandSteps, landingSteps⟩

end Sys2Proof.Machine

namespace Sys2Proof.Machine

open Sys2Proof.Safety

/-! ### The report that a hidden flag answers (R283, R350)

The state of a stream is kept in a map whose entries are a list. Where the list names a key twice, `find` gives the first entry only, and so
`Claims.NoHeld` sees no flag in the second. A PERFORMED of a new epoch drops the first, idle one (`openStream`), and the flag behind it, whose
counts are met, is performed: it counts a store of the very stream that the report counts in. -/

/-- A report of device 1 about store 1 of its stream 0. -/
def twiceReport : RHdr := { ddev := 1, ssn := 1, op := 0x1A }

/-- An ordered flag of the same stream, numbered 2. -/
def twiceFlag : Held :=
  { hdr := { sdev := 1, ssn := 2, ord := true, op := 0x04 }, inc := 1, counts := Vector.replicate 4 0, src := 1, path := 0 }

/-- The packet that brings the report. -/
def twiceFlight : Flight := { pkt := .remote 1 twiceReport [], src := 1, path := 0 }

/-- An older epoch of the stream stands twice in the map: idle, and behind that with the flag held. -/
def twiceState : State :=
  { dev := { flights := [twiceFlight], streams := ⟨[(2 ^ 28 + 1, {}), (2 ^ 28 + 1, { held := [twiceFlag] })]⟩ } }

/-- Up to which number the stores of the stream count as performed after a step (R282). -/
def performedAfter : Host.Outcome State Fault Refusal → Option Word
  | .next u => some (u.dev.streams.get {} 1).p
  | .fault _ => none
  | .refused _ => none

/-- Each key has the entry that is listed first, and that holds no flag. -/
theorem twiceState_noHeld : Claims.NoHeld twiceState := by
  intro k x hx
  have hfind : twiceState.dev.streams.find k = if 2 ^ 28 + 1 = k then some {} else none := by
    show lookupN k [(2 ^ 28 + 1, ({} : StreamSt)), (2 ^ 28 + 1, { held := [twiceFlag] })] = _
    simp only [lookupN]
    split <;> rfl
  rw [hfind] at hx
  split at hx <;> cases hx
  rfl

theorem twiceState_came : Claims.Came twiceState twiceFlight twiceReport [] 0x1A := ⟨rfl, ⟨1, rfl⟩, rfl, rfl⟩

/-- The report counts store 1, and the flag store 2. -/
theorem twiceState_performed : performedAfter (exec .performed twiceState) = some 2 := by decide

/-- Refutes O50: where the map of streams lists a key twice, `Claims.NoHeld` does not see the flag of the second entry, and a PERFORMED leaves
the stores of its stream counted up to 2, not to the 1 that it reports. -/
theorem not_remoteSteps : ¬ Obligations.RemoteSteps := by
  unfold Obligations.RemoteSteps
  rintro ⟨-, hanswers⟩
  obtain ⟨-, hbehind, -⟩ := hanswers twiceState twiceFlight twiceReport [] 0x1A 0 {} {} ⟨0, 0, 0⟩ (.hbm 0) 0 twiceState_noHeld
  obtain ⟨-, -, -, -, -, hperformed, -⟩ := hbehind rfl
  obtain ⟨u, hu, -, hp⟩ := hperformed twiceState_came rfl (by decide) rfl rfl rfl
  have htwo : (u.dev.streams.get {} 1).p = 2 := by
    have h := twiceState_performed
    rw [hu] at h
    exact Option.some.inj h
  have hone : (u.dev.streams.get {} 1).p = 1 := hp
  rw [htwo] at hone
  exact absurd hone (by decide)

end Sys2Proof.Machine

namespace Sys2Proof.Machine

open Sys2Proof.Safety

/-! ### What the checks of a V word read, which an issue cycle leaves -/

@[simp] theorem issueTick_park (c : TCore) : (issueTick c).park = c.park := by rw [issueTick_eq]
@[simp] theorem issueTick_phys (c : TCore) (n : BitVec 5) : (issueTick c).phys n = c.phys n := by rw [issueTick_eq]; rfl
@[simp] theorem issueTick_vshapeCsr (c : TCore) : (issueTick c).vshapeCsr = c.vshapeCsr := by rw [issueTick_eq]; rfl
@[simp] theorem issueTick_inShape (c : TCore) (p : ℕ) : (issueTick c).inShape p = c.inShape p := by rw [issueTick_eq]; rfl
@[simp] theorem issueTick_curRow (c : TCore) : (issueTick c).csr.curRow = c.csr.curRow := by rw [issueTick_eq]
@[simp] theorem issueTick_curCol (c : TCore) : (issueTick c).csr.curCol = c.csr.curCol := by rw [issueTick_eq]
@[simp] theorem issueTick_cursorOk (c : TCore) (d : Dir) : (issueTick c).cursorOk d = c.cursorOk d := by rw [issueTick_eq]; rfl

@[simp] theorem issueTick_dirBad (c : TCore) (k : Option VClass) (d : Dir) (srcs : List Dir) :
    (issueTick c).dirBad k d srcs = c.dirBad k d srcs := by
  have hc : (issueTick c).cursorOk = c.cursorOk := funext (issueTick_cursorOk c)
  unfold TCore.dirBad
  rw [hc]

/-- The parked copies and the pending results after a V word whose effect on its iteration is F: walking the word leaves them. -/
theorem afterV_core (s : State) (pc : Dword) (F : TCore → TCore) :
    (iter (afterV s pc F)).park = (F (issueTick (iter s))).park ∧ (iter (afterV s pc F)).sfu = (F (issueTick (iter s))).sfu := by
  have hF : (((s.dev.onCore s.env.unit issueTick).onCore s.env.unit F).tile s.env.unit).core = F (issueTick (iter s)) := by
    rw [Dev.tile_onCore, if_pos rfl, issued_core]
  have hc : iter (afterV s pc F) = _ := iter_walked_eq false
  rw [hc, hF]
  exact ⟨rfl, rfl⟩

end Sys2Proof.Machine

namespace Sys2Proof.Machine

open Sys2Proof.Safety

/-! ### The words of one source, VSEL and VIOTA -/

/-- A word on directed operands that passes the checks writes its active elements (R165 to R167, R171). -/
theorem vElem_writes {s : State} {pc : Dword} (i : Instr) (d : VOp) {k : Option VClass} {srcs : List Dir} (m : Bool)
    (f : TCore → ℕ → Word × FFlags) (h : Stands s .v pc false) (hd : (issueTick (iter s)).dirBad k d.dir srcs = none) :
    let c := issueTick (iter s)
    let act := c.active d.dir srcs (c.wordMask m)
    ∃ t, vWord i (vElem i d k srcs m f) s = .next t ∧
      Claims.VWrites s t pc d.reg act (fun p => (f c p).1) (fun p => if act p then (f c p).2 else 0) (iter s).q := by
  intro c act
  refine ⟨_, vWord_ok h (F := vWrite d.reg (fun c => c.active d.dir srcs (c.wordMask m)) f) ?_, vWrites_afterV_same ..⟩
  simp only [vElem, issued_core, hd]

/-- Settles O29: each of the words computes its active elements by a function of the elements (`vElem_writes`). -/
theorem vectorElementWords : Obligations.VectorElementWords := by
  intro i s pc d a b m n k srcs mk r h c one hmem hd
  simp only [List.mem_cons, List.not_mem_nil, or_false, Prod.mk.injEq] at hmem
  rcases hmem with ⟨rfl, rfl, rfl, rfl, rfl⟩ | ⟨rfl, rfl, rfl, rfl, rfl⟩ | ⟨rfl, rfl, rfl, rfl, rfl⟩ | ⟨rfl, rfl, rfl, rfl, rfl⟩ |
    ⟨rfl, rfl, rfl, rfl, rfl⟩ | ⟨rfl, rfl, rfl, rfl, rfl⟩ | ⟨rfl, rfl, rfl, rfl, rfl⟩
  · exact vElem_writes (.vabsF d a m) d m (fun c p => quiet (f32Abs (c.src a p))) h hd
  · exact vElem_writes (.vnegF d a m) d m (fun c p => quiet (f32Neg (c.src a p))) h hd
  · exact vElem_writes (.vmov d a m) d m (fun c p => quiet (c.src a p)) h hd
  · exact vElem_writes (.vcvtFi d a) d false (fun c p => f32ToI32 (c.src a p)) h hd
  · exact vElem_writes (.vcvtIf d a) d false (fun c p => i32ToF32 (c.src a p)) h hd
  · exact vElem_writes (.vsel d a b) d false (fun c p => quiet (if (c.wordMask true).getLsbD p then c.src a p else c.src b p)) h hd
  · exact vElem_writes (.viota d n) d false
      (fun _ p => quiet (BitVec.ofNat 32 (if n = 0 then p else if n = 1 then p / 16 else p % 16))) h hd

end Sys2Proof.Machine

namespace Sys2Proof.Laws

/-! ### VSHAPE as a word -/

/-- The word of VSHAPE, field by field. -/
theorem vshape_word (r c : BitVec 7) :
    (352#10 ++ r ++ c ++ 0#8 : Word) = (0x58000000 + r.setWidth 32 * 0x8000 + c.setWidth 32 * 0x100 : Word) := by
  have hr := r.isLt
  have hc := c.isLt
  apply BitVec.eq_of_toNat_eq
  rw [cat_toNat, cat_toNat, cat_toNat]
  simp only [BitVec.ofNat_eq_ofNat, BitVec.toNat_add, BitVec.toNat_mul, BitVec.toNat_setWidth, BitVec.toNat_ofNat]
  omega

/-- Decoding a word whose map gives an instruction that is not well formed (R101). -/
theorem decode_ill_formed {w : Word} {i : Instr} {z : Word} (ht : (w.extractLsb' 29 3).toNat < 5) (hm : mapRow w = some (some (i, z)))
    (hwf : i.wf = false) : decode w = .error .fieldValue := by
  unfold decode
  rw [if_neg (by omega), if_neg (by omega), hm]
  simp only [hwf, Bool.not_false, if_true]

/-- A word of VSHAPE decodes by its row of the map. -/
theorem mapRow_vshape (r c : BitVec 7) : ((352#10 ++ r ++ c ++ 0#8 : Word).extractLsb' 29 3).toNat = 2 ∧
    mapRow (352#10 ++ r ++ c ++ 0#8) = some (some (.vshape r c, 0xFF#32)) := by
  generalize hw : (352#10 ++ r ++ c ++ 0#8 : Word) = w
  obtain ⟨hp, hr, hc, -⟩ := layout49 352#10 r c hw
  have htag := tag10 hp
  refine ⟨by rw [htag]; rfl, ?_⟩
  rw [mapRow, htag, op10 hp]
  show some (some (Instr.vshape (w.extractLsb' 15 7) (w.extractLsb' 8 7), 0xFF#32)) = _
  rw [hr, hc]

theorem vshape_wf_iff (r c : BitVec 7) :
    (Instr.vshape r c).wf = true ↔ 1 ≤ r.toNat ∧ r.toNat ≤ 32 ∧ 1 ≤ c.toNat ∧ c.toNat ≤ 16 := decide_eq_true_iff

/-- A row count of 0 or above 32 and a column count of 0 or above 16 are reserved (R190). -/
theorem vshape_reserved {r c : BitVec 7} (h : r = 0 ∨ 32 < r.toNat ∨ c = 0 ∨ 16 < c.toNat) :
    decode (352#10 ++ r ++ c ++ 0#8) = .error .fieldValue := by
  obtain ⟨htag, hrow⟩ := mapRow_vshape r c
  refine decode_ill_formed (by omega) hrow (Bool.eq_false_iff.mpr fun hwf => ?_)
  obtain ⟨hr1, hr32, hc1, hc16⟩ := (vshape_wf_iff r c).mp hwf
  rcases h with rfl | h | rfl | h
  · exact absurd hr1 (by decide)
  · omega
  · exact absurd hc1 (by decide)
  · omega

end Sys2Proof.Laws

namespace Sys2Proof.Machine

open Sys2Proof.Safety

/-! ### VSHAPE, VCUR, VRBSET and the mask words -/

section
variable {s : State} {pc : Dword} (h : Stands s .v pc false)
include h

/-- The step of a word of V on what belongs to the iteration alone, by what it makes of an iteration. -/
theorem run_v_gives {i : Instr} {f g : TCore → TCore} (he : exec i s = s.run (coreWord .v i f)) (hf : ∀ c, f c = g c) :
    exec i s = .next (after s .v pc false fun c => g (issueTick c)) := by
  obtain rfl : f = g := funext hf
  exact he.trans (run_v_core h)

theorem exec_vshape (r c : BitVec 7) : exec (.vshape r c) s = .next (after s .v pc false fun x =>
    { issueTick x with csr := { (issueTick x).csr with rows := BitVec.ofNat 6 r.toNat, cols := BitVec.ofNat 5 c.toNat } }) :=
  run_v_gives (f := fun x => { x with csr := { x.csr with rows := r.setWidth 6, cols := c.setWidth 5 } })
    (g := fun x => { x with csr := { x.csr with rows := BitVec.ofNat 6 r.toNat, cols := BitVec.ofNat 5 c.toNat } }) h rfl
    fun x => by rw [BitVec.ofNat_toNat, BitVec.ofNat_toNat]

end

/-- Settles O35: the step by what the word makes of the iteration (`exec_vshape`), the encoding by its fields (`Laws.vshape_word`), the
reserved values by the row of the map, whose instruction is not well formed (`Laws.vshape_reserved`). -/
theorem shapeWord : Obligations.ShapeWord := by
  intro s pc r c h
  rw [← Laws.vshape_word]
  exact ⟨exec_vshape h r c, rfl, Laws.vshape_wf_iff r c, Laws.vshape_reserved⟩

theorem shapeAndMaskWords : Claims.ShapeAndMaskWords := by
  intro i s pc r c g n d a b f h hmem
  suffices hf : ∃ f', exec i s = s.run (coreWord .v i f') ∧ ∀ x, f' x = f x by
    obtain ⟨f', he, hf⟩ := hf
    exact run_v_gives h he hf
  simp only [List.mem_cons, List.not_mem_nil, or_false, Prod.mk.injEq] at hmem
  rcases hmem with ⟨rfl, rfl⟩ | ⟨rfl, rfl⟩ | ⟨rfl, rfl⟩ | ⟨rfl, rfl⟩ | ⟨rfl, rfl⟩ | ⟨rfl, rfl⟩
  · exact ⟨_, rfl, fun x => by rw [BitVec.ofNat_toNat, BitVec.ofNat_toNat, BitVec.ofNat_toNat]⟩
  · exact ⟨_, rfl, fun x => by rw [BitVec.ofNat_toNat]⟩
  · exact ⟨_, rfl, fun x => rfl⟩
  · exact ⟨_, rfl, fun x => rfl⟩
  · exact ⟨_, rfl, fun x => congrArg (x.setK d.toNat) BitVec.xor_allOnes.symm⟩
  · exact ⟨_, rfl, fun x => rfl⟩

/-! ### Parking -/

theorem NMap.find_keep_ne {α : Type} (m : NMap α) (k : ℕ) : (m.keep fun j _ => j != k).find k = none := by
  obtain ⟨l⟩ := m
  show lookupN k (l.filter fun e => e.1 != k) = none
  induction l with
  | nil => rfl
  | cons e r ih =>
    rw [List.filter_cons]
    split
    · next he => rw [lookupN, if_neg (bne_iff_ne.mp he), ih]
    · exact ih

/-- Giving back slots changes the clusters alone (R213). -/
theorem settlePark_eq (d : Dev) (c : ℕ) : settlePark d c = { d with clusters := (settlePark d c).clusters } := by
  refine List.foldlRecOn (motive := fun e : Dev => e = { d with clusters := e.clusters }) _ _ rfl fun e he s _ => ?_
  dsimp only
  split
  · rw [he]; rfl
  · exact he

@[simp] theorem settlePark_tiles (d : Dev) (c : ℕ) : (settlePark d c).tiles = d.tiles := by rw [settlePark_eq]
@[simp] theorem settlePark_tile (d : Dev) (c t : ℕ) : (settlePark d c).tile t = d.tile t := by simp only [Dev.tile, settlePark_tiles]
@[simp] theorem settlePark_mem (d : Dev) (c : ℕ) : (settlePark d c).mem = d.mem := by rw [settlePark_eq]

/-- A register parked: its copy is held in two rows of one slot, and nothing else of the iteration changes (R192). -/
theorem parkReg_some {d e : Dev} {t p : ℕ} {x : VReg} (h : parkReg d t p x = some e) :
    ∃ j, e.mem = d.mem ∧ (e.tile t).core = { (d.tile t).core with
      park := ((d.tile t).core.park.keep fun q _ => q != p).set p (.held 2 x [j, j]) } := by
  unfold parkReg at h
  dsimp only at h
  split at h
  · cases h
  · next j _ =>
    obtain rfl := Option.some.inj h
    refine ⟨j, by simp, ?_⟩
    rw [Dev.tile_onCore, if_pos rfl, Dev.tile_onCluster, settlePark_tile, Dev.tile_onCore, if_pos rfl]

/-- The iteration after VUNPARK has restored register p (R192). -/
def TCore.unparked (c : TCore) (p : ℕ) (x : VReg) : TCore :=
  { c with park := c.park.keep fun q _ => q != p, regs := { c.regs with v := vset c.regs.v p x } }

theorem unpark_mem (t p : ℕ) (x : VReg) (d : Dev) : (unpark t p x d).mem = d.mem := by
  rw [unpark, settlePark_mem, Dev.onCore_mem]

theorem unpark_core (t p : ℕ) (x : VReg) (d : Dev) : ((unpark t p x d).tile t).core = (d.tile t).core.unparked p x := by
  rw [unpark, settlePark_tile, Dev.tile_onCore, if_pos rfl]; rfl

/-- VUNPARK is a V word whose effect reads the environment of the state (R193). -/
theorem exec_vunpark_eq (v : VOp) (s : State) : exec (.vunpark v) s = vWord (.vunpark v) (vunparkWord s.env v) s := by
  show execVunpark v s = _
  rw [execVunpark, vWord, State.run_eq, State.run_eq]

section
variable {s : State} {pc : Dword} (h : Stands s .v pc false)
include h

/-- The step of a V word whose effect leaves memory alone, by what it leaves of the iteration. -/
theorem vWord_leaves {i : Instr} {f : At → Dev → Res Unit} {d : Dev} {c : TCore}
    (hf : f ⟨s.env.unit, .v, pc, false⟩ (s.dev.onCore s.env.unit issueTick) = .ok () d) (hmem : d.mem = s.dev.mem)
    (hc : (d.tile s.env.unit).core = c) :
    ∃ t, vWord i f s = .next t ∧ MemSame s t ∧ (iter t).regs = c.regs ∧ (iter t).csr = c.csr ∧ (iter t).park = c.park := by
  subst hc
  exact ⟨_, run_v (f := fun _ => f) h hf, walked_memSame hmem, walked_regs, walked_csr, by rw [iter_walked_eq]⟩

variable {v : VOp} (hv : v.dir = .whole)
include hv

theorem vpark_done {d : Dev} (hp : parkReg (s.dev.onCore s.env.unit issueTick) s.env.unit ((issueTick (iter s)).phys v.reg)
    ((issueTick (iter s)).v v.reg) = some d) :
    ∃ t j, exec (.vpark v) s = .next t ∧ MemSame s t ∧ (iter t).regs = (issueTick (iter s)).regs ∧
      (iter t).park.find ((issueTick (iter s)).phys v.reg) = some (.held 2 ((issueTick (iter s)).v v.reg) [j, j]) := by
  obtain ⟨j, hmem, hc⟩ := parkReg_some hp
  rw [issued_core] at hc
  have hdone : ∃ t, exec (.vpark v) s = .next t ∧ _ := vWord_leaves h (by simp only [issued_core, hv, hp]; rfl) hmem hc
  obtain ⟨t, ht, hm, hregs, -, hpark⟩ := hdone
  exact ⟨t, j, ht, hm, hregs, by rw [hpark, NMap.find_set, if_pos rfl]⟩

theorem vpark_waits (hp : parkReg (s.dev.onCore s.env.unit issueTick) s.env.unit ((issueTick (iter s)).phys v.reg)
    ((issueTick (iter s)).v v.reg) = none) :
    exec (.vpark v) s = .next (withDev s (setWait s.dev ⟨s.env.unit, .v, pc, false⟩ { code := 10 })) :=
  vWord_wait h (w := { code := 10 }) rfl (by simp only [issued_core, hv, hp]; rfl)

theorem vunpark_done {n : ℕ} {x : VReg} {sl : List ℕ}
    (hp : (issueTick (iter s)).park.find ((issueTick (iter s)).phys v.reg) = some (.held n x sl)) :
    ∃ t, exec (.vunpark v) s = .next t ∧ MemSame s t ∧ (iter t).regs = ((issueTick (iter s)).unparked ((issueTick (iter s)).phys v.reg) x).regs ∧
      (iter t).csr = (issueTick (iter s)).csr ∧
      (iter t).park = (issueTick (iter s)).park.keep fun q _ => q != (issueTick (iter s)).phys v.reg := by
  rw [exec_vunpark_eq]
  exact vWord_leaves (d := unpark s.env.unit ((issueTick (iter s)).phys v.reg) x (s.dev.onCore s.env.unit issueTick)) h
    (by simp only [vunparkWord, issued_core, hv, hp]; rfl) (unpark_mem ..) (by rw [unpark_core, issued_core])

end

/-- VUNPARK restores the register, and no other (R192). -/
theorem v_unparked {c e : TCore} {r : BitVec 5} {x : VReg} (hregs : e.regs = (c.unparked (c.phys r) x).regs) (hcsr : e.csr = c.csr)
    (n : BitVec 5) : e.v n = if c.phys n = c.phys r then x else c.v n := by
  have he : e.v n = (c.unparked (c.phys r) x).v n := v_congr hregs hcsr n
  rw [he]
  exact vget_vset _ _ _ _ (phys_lt c r)

theorem parkWords : Claims.ParkWords := by
  intro s pc v h hv c d
  refine ⟨fun hp => ?_, vpark_waits h hv, fun n x sl hp => ?_⟩
  · obtain ⟨e, he⟩ := Option.ne_none_iff_exists'.mp hp
    obtain ⟨t, j, ht, hmem, hregs, hpark⟩ := vpark_done h hv he
    exact ⟨t, [j, j], ht, hmem, hregs, hpark, rfl⟩
  · obtain ⟨t, ht, hmem, hregs, hcsr, hpark⟩ := vunpark_done h hv hp
    have hval := v_unparked hregs hcsr
    refine ⟨t, ht, hmem, (hval v.reg).trans (if_pos rfl), ?_, fun r hr => (hval r).trans (if_neg hr), ?_, hcsr⟩
    · rw [hpark]; exact NMap.find_keep_ne ..
    · rw [hregs]; rfl

/-- Settles O36: each of the words by what it makes of the iteration (`run_v_gives`); VPARK by the copy that `parkReg` holds
(`parkReg_some`), VUNPARK by the register that it restores (`v_unparked`). -/
theorem shapeMaskAndParkWords : Obligations.ShapeMaskAndParkWords := ⟨shapeAndMaskWords, parkWords⟩

end Sys2Proof.Machine

namespace Sys2Proof.Machine

open Sys2Proof.Safety

/-! ### Masks built bit by bit -/

/-- A sum over those that a function names is the sum over all, with 0 for the others. -/
theorem foldl_filterMap_add {α β : Type} (g : α → Option β) (v : β → ℕ) (u : α → ℕ) (hu : ∀ x, u x = (g x).elim 0 v) (l : List α) (z : ℕ) :
    (l.filterMap g).foldl (fun n y => n + v y) z = l.foldl (fun n x => n + u x) z := by
  induction l generalizing z with
  | nil => rfl
  | cons x l ih =>
    rw [List.filterMap_cons, List.foldl_cons, hu x]
    cases g x with
    | none => exact ih z
    | some y => exact ih (z + v y)

/-- The mask of the elements for which a test holds. -/
theorem getLsbD_mask (f : ℕ → Bool) {p : ℕ} (hp : p < 512) :
    (BitVec.ofNat 512 ((List.range 512).foldl (fun n p => n + b2n (f p) * 2 ^ p) 0)).getLsbD p = f p := by
  have hf (j : ℕ) : b2n (f j) < 2 := by cases f j <;> decide
  rw [BitVec.getLsbD_ofNat, Nat.testBit_eq_decide_div_mod_eq, digit_sum_digits hf hp, decide_eq_true hp, Bool.true_and]
  cases f p <;> rfl

/-! ### Compares -/

/-- The compared elements that are active, each with its result (R180). -/
def cmpResults (a b : VOp) (m : Bool) (g : Word → Word → Bool × FFlags) (c : TCore) : List (ℕ × Bool × FFlags) :=
  (List.range 512).filterMap fun p =>
    if c.active (cmpDir a.dir b.dir) [a.dir, b.dir] (c.wordMask m) p then some (p, g (c.src a p) (c.src b p)) else none

/-- The iteration after a compare (R180). -/
def cmpCore (k : BitVec 3) (a b : VOp) (m : Bool) (g : Word → Word → Bool × FFlags) (c : TCore) : TCore :=
  (c.setK k.toNat (BitVec.ofNat 512 ((cmpResults a b m g c).foldl (fun n x => n + b2n x.2.1 * 2 ^ x.1) 0))).raise
    ((cmpResults a b m g c).foldl (fun f x => f ||| x.2.2) 0)

section
variable (k : BitVec 3) (a b : VOp) (m : Bool) (g : Word → Word → Bool × FFlags) (c : TCore)

theorem vCmp_ok (i : Instr) (at_ : At) (d : Dev)
    (h : (d.tile at_.t).core.dirBad (class2 a.dir b.dir) (cmpDir a.dir b.dir) [a.dir, b.dir] = none) :
    vCmp i k a b m g at_ d = .ok () (d.onCore at_.t (cmpCore k a b m g)) := by
  unfold vCmp
  dsimp only
  rw [h]
  rfl

/-- A compare leaves every register but the mask register, and of the CSRs all but VFLAGS. -/
theorem cmpCore_eq : cmpCore k a b m g c = { c with
    regs := { c.regs with k := (cmpCore k a b m g c).regs.k }, csr := { c.csr with vflags := (cmpCore k a b m g c).csr.vflags } } := by
  unfold cmpCore TCore.setK TCore.raise
  split <;> rfl

/-- K[k] after a compare: the results of the active elements, and 0 elsewhere (R180). -/
theorem cmpCore_k (hk : k ≠ 0) {p : ℕ} (hp : p < 512) : ((cmpCore k a b m g c).k k.toNat).getLsbD p =
    (c.active (cmpDir a.dir b.dir) [a.dir, b.dir] (c.wordMask m) p && (g (c.src a p) (c.src b p)).1) := by
  have hk0 : k.toNat ≠ 0 := fun h0 => hk (BitVec.eq_of_toNat_eq h0)
  have hval : (cmpCore k a b m g c).k k.toNat =
      BitVec.ofNat 512 ((cmpResults a b m g c).foldl (fun n x => n + b2n x.2.1 * 2 ^ x.1) 0) := by
    have hset (x : Mask) (f : FFlags) : ((c.setK k.toNat x).raise f).k k.toNat = vget (vset c.regs.k k.toNat x) 0 k.toNat := by
      rw [TCore.setK, if_neg hk0, TCore.k, if_neg hk0]; rfl
    rw [cmpCore, hset, vget_vset _ _ _ _ k.isLt, if_pos rfl]
  rw [hval, cmpResults, foldl_filterMap_add _ _
    (fun p => b2n (c.active (cmpDir a.dir b.dir) [a.dir, b.dir] (c.wordMask m) p && (g (c.src a p) (c.src b p)).1) * 2 ^ p)
    (fun p => ?_)]
  · exact getLsbD_mask (fun p => c.active (cmpDir a.dir b.dir) [a.dir, b.dir] (c.wordMask m) p && (g (c.src a p) (c.src b p)).1) hp
  · by_cases hact : c.active (cmpDir a.dir b.dir) [a.dir, b.dir] (c.wordMask m) p = true
    · rw [if_pos hact, hact]; rfl
    · rw [if_neg hact, Bool.eq_false_iff.mpr hact, Bool.false_and]; exact Nat.zero_mul _

/-- Relations that raise nothing leave VFLAGS alone. -/
theorem cmpCore_quiet (r : Word → Word → Bool) : (cmpCore k a b m (fun x y => (r x y, 0)) c).csr.vflags = c.csr.vflags := by
  have hzero : (cmpResults a b m (fun x y => (r x y, 0)) c).foldl (fun f x => f ||| x.2.2) 0 = 0 := by
    refine BitVec.eq_of_getLsbD_eq fun n _ => Bool.eq_iff_iff.mpr ?_
    rw [getLsbD_foldl_or]
    refine or_iff_left ?_
    rintro ⟨x, hx, hbit⟩
    obtain ⟨p, -, hp⟩ := List.mem_filterMap.mp hx
    split at hp
    · obtain rfl := Option.some.inj hp
      simp at hbit
    · cases hp
  have hcsr (n : ℕ) (x : Mask) : (c.setK n x).csr = c.csr := by unfold TCore.setK; split <;> rfl
  rw [cmpCore, hzero, TCore.raise, hcsr]
  exact BitVec.or_zero

/-- What a compare whose operands pass the checks leaves (R180). -/
theorem vCmp_writes {s : State} {pc : Dword} (i : Instr) (h : Stands s .v pc false) (hk : k ≠ 0)
    (hd : (issueTick (iter s)).dirBad (class2 a.dir b.dir) (cmpDir a.dir b.dir) [a.dir, b.dir] = none) :
    let c := issueTick (iter s)
    ∃ t, vWord i (vCmp i k a b m g) s = .next t ∧ MemSame s t ∧ (iter t).regs.v = c.regs.v ∧ (iter t).regs.s = c.regs.s ∧
      (iter t).csr = (cmpCore k a b m g c).csr ∧ ∀ p, p < 512 → ((iter t).k k.toNat).getLsbD p =
        (c.active (cmpDir a.dir b.dir) [a.dir, b.dir] (c.wordMask m) p && (g (c.src a p) (c.src b p)).1) := by
  intro c
  obtain ⟨hmem, -, hregs, -, hcsr⟩ := afterV_iter s pc (cmpCore k a b m g)
  have hkeep := cmpCore_eq k a b m g c
  refine ⟨_, vWord_ok h (vCmp_ok k a b m g i _ _ (by rw [issued_core]; exact hd)), hmem, ?_, ?_, hcsr, fun p hp => ?_⟩
  · rw [hregs, hkeep]
  · rw [hregs, hkeep]
  · rw [← cmpCore_k k a b m g c hk hp, TCore.k, TCore.k, hregs]

end

/-- The relations of INT32 elements, by number (R92, R180). -/
theorem relInt_iff {rel : BitVec 4} (hrel : rel.toNat ≤ 5) (x y : Word) : relInt rel.toNat x.toInt y.toInt = true ↔
    (rel = 0 ∧ x = y) ∨ (rel = 1 ∧ x ≠ y) ∨ (rel = 2 ∧ x.toInt < y.toInt) ∨ (rel = 3 ∧ x.toInt ≤ y.toInt) ∨
      (rel = 4 ∧ y.toInt < x.toInt) ∨ (rel = 5 ∧ y.toInt ≤ x.toInt) := by
  have hcases : rel = 0 ∨ rel = 1 ∨ rel = 2 ∨ rel = 3 ∨ rel = 4 ∨ rel = 5 := by
    simp only [← BitVec.toNat_inj, BitVec.ofNat_eq_ofNat, BitVec.toNat_ofNat]; omega
  rcases hcases with rfl | rfl | rfl | rfl | rfl | rfl
  · simp [relInt, BitVec.toInt_inj]
  · simp [relInt, BitVec.toInt_inj]
  · simp [relInt]
  · simp [relInt]
  · simp [relInt]
  · simp [relInt]

theorem vectorCompares : Claims.VectorCompares := by
  intro s pc rel k a b m h hk hrel c dir hd act
  constructor
  · obtain ⟨t, ht, hmem, hv, hs, -, hbits⟩ := vCmp_writes k a b m
      (fun x y => (relNum rel.toNat (num32 x) (num32 y), relFlags rel.toNat (num32 x) (num32 y))) (.vcmpF rel k a b m) h hk hd
    exact ⟨t, ht, hmem, hv, hs, hbits⟩
  · obtain ⟨t, ht, hmem, hv, -, hcsr, hbits⟩ := vCmp_writes k a b m (fun x y => (relInt rel.toNat x.toInt y.toInt, 0))
      (.vcmpI rel k a b m) h hk hd
    refine ⟨t, ht, hmem, hv, ?_, fun p hp => ?_⟩
    · rw [hcsr, cmpCore_quiet]
    · rw [hbits p hp, Bool.and_eq_true, relInt_iff hrel]

end Sys2Proof.Machine

namespace Sys2Proof.Machine

open Sys2Proof.Safety

/-! ### Special functions -/

/-- At most eight results are pending (R177). -/
theorem pending_length (c : TCore) : c.pending.length ≤ 8 := by
  have h := List.length_filterMap_le id c.sfu.toList
  rwa [Vector.length_toList] at h

/-- The entries of a list that indices below n find. -/
theorem filterMap_range_getElem? {α : Type} (l : List α) (n : ℕ) : (List.range n).filterMap (fun i => l[i]?) = l.take n := by
  induction n with
  | zero => rfl
  | succ n ih =>
    rw [List.range_succ, List.filterMap_append, ih, List.take_add_one]
    cases h : l[n]? <;> simp [h]

/-- Results kept in places of their own are those that are pending. -/
theorem pending_ofFn (c : TCore) {l : List Sfu} (hl : l.length ≤ 8) :
    { c with sfu := Vector.ofFn fun i => l[i.val]? : TCore }.pending = l := by
  have hlist : (Vector.ofFn (n := 8) fun i => l[i.val]?).toList = (List.range 8).map fun i => l[i]? := rfl
  rw [TCore.pending, hlist, List.filterMap_map]
  exact (filterMap_range_getElem? l 8).trans (List.take_of_length_le hl)

theorem addSfu_pending {c : TCore} (x : Sfu) (h : c.pending.length < 8) : (addSfu c x).pending = c.pending ++ [x] :=
  pending_ofFn c (l := c.pending ++ [x]) (by rw [List.length_append]; exact h)

/-- An issue cycle adds no pending result (R176). -/
theorem issueTick_pending_length (c : TCore) : (issueTick c).pending.length ≤ c.pending.length := by
  unfold issueTick
  split
  · exact le_rfl
  · dsimp only
    generalize hlive : (c.sfu.toList.filterMap id).map (fun r => { r with rem := r.rem - 1 }) = live
    have hlen : live.length = c.pending.length := by rw [← hlive, List.length_map]; rfl
    have hrest : (live.filter fun r => r.rem != 0).length ≤ c.pending.length := hlen ▸ List.length_filter_le ..
    rw [pending_ofFn _ (hrest.trans (pending_length c))]
    exact hrest

/-- The result that a special-function word adds (R176, R181). -/
def newSfu (func : ℕ) (d a : VOp) (m : Bool) (c : TCore) : Sfu :=
  let act := c.active d.dir [a.dir] (c.wordMask m)
  let r := vCompute (c.v d.reg) act fun p => special func (c.src a p)
  { walk := (c.engine .v).walk + 1, rem := specialLatency func, func := BitVec.ofNat 3 func, preg := BitVec.ofNat 5 (c.phys d.reg)
    data := vValues r, act := BitVec.ofNat 512 ((List.range 512).foldl (fun n p => n + b2n (act p) * 2 ^ p) 0), flags := vFlags r }

section
variable (func : ℕ) (d a : VOp) (m : Bool)

theorem sfuWord_ok (i : Instr) (at_ : At) (dv : Dev) (h : (dv.tile at_.t).core.dirBad (some (class1 a.dir)) d.dir [a.dir] = none) :
    sfuWord i func d a m at_ dv = .ok () (dv.onCore at_.t fun c => addSfu c (newSfu func d a m c)) := by
  unfold sfuWord
  dsimp only
  rw [h]
  rfl

/-- The result names the register, and holds at each active element the function of its source (R172, R176). -/
theorem newSfu_spec (c : TCore) : (newSfu func d a m c).preg.toNat = c.phys d.reg ∧ ∀ p, (h : p < 512) →
    (newSfu func d a m c).act.getLsbD p = c.active d.dir [a.dir] (c.wordMask m) p ∧
      ((newSfu func d a m c).act.getLsbD p = true → (newSfu func d a m c).data[p] = (special func (c.src a p)).1) := by
  refine ⟨?_, fun p hp => ?_⟩
  · show (BitVec.ofNat 5 (c.phys d.reg)).toNat = _
    rw [BitVec.toNat_ofNat, Nat.mod_eq_of_lt (phys_lt c d.reg)]
  · have hact : (newSfu func d a m c).act.getLsbD p = c.active d.dir [a.dir] (c.wordMask m) p :=
      getLsbD_mask (c.active d.dir [a.dir] (c.wordMask m)) hp
    refine ⟨hact, fun h => ?_⟩
    rw [← vget_eq_getElem _ 0 hp]
    refine (vget_vValues (c.v d.reg) (c.active d.dir [a.dir] (c.wordMask m)) (fun p => special func (c.src a p)) hp).trans ?_
    rw [if_pos (hact.symm.trans h)]

variable {s : State} {pc : Dword} (h : Stands s .v pc false)
include h

/-- A special-function word is a V word of its result, but where it must wait for one to land (R177). -/
theorem sfuTry_eq_vWord (i : Instr) (hgo : ((iter s).sfuFull && ((iter s).dirBad (some (class1 a.dir)) d.dir [a.dir]).isNone) = false) :
    sfuTry i func d a m s = vWord i (sfuWord i func d a m) s := by
  obtain ⟨he, hr⟩ := h
  have hgo' : ((s.dev.tile s.env.unit).core.sfuFull &&
    ((s.dev.tile s.env.unit).core.dirBad (some (class1 a.dir)) d.dir [a.dir]).isNone) = false := hgo
  rw [← he] at hr
  rw [sfuTry_eq, State.run_eq, sfuStep, hr]
  simp only [Bool.and_assoc, hgo', Bool.and_false, Bool.false_eq_true, if_false]
  rfl

variable (hd : (iter s).dirBad (some (class1 a.dir)) d.dir [a.dir] = none)
include hd

/-- With eight results pending a special-function word waits, in an issue cycle (R177). -/
theorem sfuTry_waits (i : Instr) (hfull : (iter s).pending.length = 8) :
    sfuTry i func d a m s = .next (withDev s (setWait (s.dev.onCore s.env.unit issueTick) ⟨s.env.unit, .v, pc, false⟩
      { code := 0, detail := 8, tick := true })) := by
  obtain ⟨he, hr⟩ := h
  have hsfu : (s.dev.tile s.env.unit).core.sfuFull = true := decide_eq_true hfull.ge
  have hdir : (s.dev.tile s.env.unit).core.dirBad (some (class1 a.dir)) d.dir [a.dir] = none := hd
  rw [← he] at hr
  rw [sfuTry_eq, State.run_eq, sfuStep, hr]
  simp only [he, hsfu, hdir]
  rfl

/-- With fewer it adds its result (R176). -/
theorem sfuTry_adds (i : Instr) (hroom : (iter s).pending.length < 8) :
    ∃ t, sfuTry i func d a m s = .next t ∧ MemSame s t ∧ (iter t).regs = (issueTick (iter s)).regs ∧ (iter t).csr = (issueTick (iter s)).csr ∧
      (iter t).pending = (issueTick (iter s)).pending ++ [newSfu func d a m (issueTick (iter s))] := by
  have hsfu : (iter s).sfuFull = false := decide_eq_false (not_le.mpr hroom)
  have hv := sfuTry_eq_vWord func d a m h i (by rw [hsfu]; rfl)
  obtain ⟨hmem, -, hregs, -, hcsr⟩ := afterV_iter s pc fun c => addSfu c (newSfu func d a m c)
  obtain ⟨-, hs⟩ := afterV_core s pc fun c => addSfu c (newSfu func d a m c)
  refine ⟨_, hv.trans (vWord_ok h (sfuWord_ok func d a m i _ _ (by rw [issued_core, issueTick_dirBad]; exact hd))), hmem, hregs, hcsr, ?_⟩
  rw [TCore.pending, hs]
  exact addSfu_pending _ ((issueTick_pending_length _).trans_lt hroom)

end

/-- The special-function words by the number of their function, with its latency (R178, R181). -/
theorem exec_special {i : Instr} {d a : VOp} {m : Bool} {f l : ℕ} (h : (i, f, l) ∈ [(Instr.vrcp d a m, 0, 6), (.vrsqrt d a m, 1, 6),
    (.vexp2 d a m, 2, 8), (.vlog2 d a m, 3, 8), (.vtanh d a m, 4, 10)]) (s : State) :
    exec i s = sfuTry i f d a m s ∧ specialLatency f = l ∧ (BitVec.ofNat 3 f).toNat = f := by
  simp only [List.mem_cons, List.not_mem_nil, or_false, Prod.mk.injEq] at h
  rcases h with ⟨rfl, rfl, rfl⟩ | ⟨rfl, rfl, rfl⟩ | ⟨rfl, rfl, rfl⟩ | ⟨rfl, rfl, rfl⟩ | ⟨rfl, rfl, rfl⟩
  · exact ⟨rfl, rfl, rfl⟩
  · exact ⟨rfl, rfl, rfl⟩
  · exact ⟨rfl, rfl, rfl⟩
  · exact ⟨rfl, rfl, rfl⟩
  · exact ⟨rfl, rfl, rfl⟩

theorem specialFunctionWords : Claims.SpecialFunctionWords := by
  intro i s pc d a m f l h hmem c live hd
  obtain ⟨he, hlat, hfunc⟩ := exec_special hmem s
  rw [he]
  refine ⟨sfuTry_waits f d a m h hd i, fun hroom => ?_⟩
  obtain ⟨t, ht, hm, hregs, hcsr, hlive⟩ := sfuTry_adds f d a m h hd i hroom
  obtain ⟨hpreg, helems⟩ := newSfu_spec f d a m c
  refine ⟨t, newSfu f d a m c, ht, hm, hregs, hcsr, hlive, hlat, hfunc, hpreg, ?_, helems⟩
  show (c.engine .v).walk + 1 = _
  rw [issueTick_engine]

/-- Settles O31: a compare by the mask that its results make (`cmpCore_k`), with the relations of INT32 elements in `relInt_iff`; a
special-function word by the result that it adds (`sfuTry_adds`, `newSfu_spec`) and by where it waits (`sfuTry_waits`). -/
theorem comparesAndSpecialFunctions : Obligations.ComparesAndSpecialFunctions := ⟨vectorCompares, specialFunctionWords⟩

end Sys2Proof.Machine

namespace Sys2Proof.Machine

open Sys2Proof.Safety

/-! ### What V's checks of direction and cursor find -/

/-- Whether a destination matches the class of the sources, where they have one (R166, R167). -/
def accepts (k : Option VClass) (o : Dir) : Bool := k.any (destOk · o)

theorem accepts_class1 (a o : Dir) : accepts (some (class1 a)) o = true ↔ Claims.Matches o [a] := by
  unfold Claims.Matches
  cases a <;> cases o <;> decide

theorem accepts_class2 (a b o : Dir) : accepts (class2 a b) o = true ↔ Claims.Matches o [a, b] := by
  unfold Claims.Matches
  cases a <;> cases b <;> cases o <;> decide

/-- The compared elements have a class where the sources have one (R180). -/
theorem accepts_cmpDir (a b : Dir) : accepts (class2 a b) (cmpDir a b) = true ↔ Claims.HasClass [a, b] := by
  unfold Claims.HasClass
  cases a <;> cases b <;> decide

theorem cursorOk_iff (c : TCore) (o : Dir) : c.cursorOk o = true ↔ ¬ Claims.Outside c [o] := by
  cases o <;> simp [TCore.cursorOk, Claims.Outside]

theorem outside_iff (c : TCore) (l : List Dir) : Claims.Outside c l ↔ ∃ o ∈ l, Claims.Outside c [o] := by
  simp only [Claims.Outside, List.mem_singleton]
  constructor
  · rintro (⟨hmem, hout⟩ | ⟨hmem, hout⟩)
    · exact ⟨_, hmem, .inl ⟨rfl, hout⟩⟩
    · exact ⟨_, hmem, .inr ⟨rfl, hout⟩⟩
  · rintro ⟨o, hmem, ⟨rfl, hout⟩ | ⟨rfl, hout⟩⟩
    · exact .inl ⟨hmem, hout⟩
    · exact .inr ⟨hmem, hout⟩

/-- The cursor is checked for every operand (R165). -/
theorem all_cursorOk_iff (c : TCore) (l : List Dir) : l.all c.cursorOk = true ↔ ¬ Claims.Outside c l := by
  rw [outside_iff, List.all_eq_true]
  simp only [cursorOk_iff]
  push Not
  rfl

theorem dirBad_eq (c : TCore) (k : Option VClass) (o : Dir) (srcs : List Dir) :
    c.dirBad k o srcs = if accepts k o = false then some 1 else if (o :: srcs).all c.cursorOk = false then some 2 else none := by
  cases k with
  | none => rfl
  | some k => simp only [TCore.dirBad, accepts, Option.any_some, Bool.not_eq_true']; rfl

theorem dirBad_mismatch {k : Option VClass} {o : Dir} (c : TCore) (srcs : List Dir) (h : ¬ accepts k o = true) : c.dirBad k o srcs = some 1 := by
  rw [dirBad_eq, if_pos (Bool.eq_false_iff.mpr h)]

theorem dirBad_outside {c : TCore} {k : Option VClass} {o : Dir} {srcs : List Dir} (h : accepts k o = true)
    (hout : Claims.Outside c (o :: srcs)) : c.dirBad k o srcs = some 2 := by
  have hall : (o :: srcs).all c.cursorOk = false := Bool.eq_false_iff.mpr fun hok => (all_cursorOk_iff c _).mp hok hout
  rw [dirBad_eq, if_neg (by rw [h]; decide), if_pos hall]

/-- The cursor is no position within VSHAPE where its row or its column is not (R173). -/
theorem inShape_cursor_outside {c : TCore} (h : c.csr.rows.toNat ≤ c.csr.curRow.toNat ∨ c.csr.cols.toNat ≤ c.csr.curCol.toNat) :
    c.inShape (16 * c.csr.curRow.toNat + c.csr.curCol.toNat) = false := by
  have hlt := c.csr.curCol.isLt
  simp only [TCore.inShape, Bool.and_eq_false_iff, decide_eq_false_iff_not]
  omega

/-! ### The trap -/

/-- The state after V has trapped OPERAND_SHAPE at its word (R170, R315). -/
def shapeTrapped (s : State) (pc : Dword) (w : Word) (n : ℕ) : State :=
  withDev s (enterTrap s.env s.dev s.env.unit .v pc 0x02 (dw n) (w.setWidth 64) (iter s).vshapeCsr 0)

section
variable {s : State} {pc : Dword} {i : Instr} {w : Word} (h : Stands s .v pc false) (he : encode i = some w)
include h he

/-- A V word that finds its operands wrong. -/
theorem vWord_shape {f : At → Dev → Res Unit} {n : ℕ}
    (hf : f ⟨s.env.unit, .v, pc, false⟩ (s.dev.onCore s.env.unit issueTick) = vShape i (issueTick (iter s)) n) :
    vWord i f s = .next (shapeTrapped s pc w n) := by
  rw [vShape, he, issueTick_vshapeCsr] at hf
  exact run_own_trap (f := fun _ => f) h hf

theorem vElem_shape {d : VOp} {k : Option VClass} {srcs : List Dir} {m : Bool} {f : TCore → ℕ → Word × FFlags} {n : ℕ}
    (hn : (iter s).dirBad k d.dir srcs = some n) : vWord i (vElem i d k srcs m f) s = .next (shapeTrapped s pc w n) :=
  vWord_shape h he (by simp only [vElem, issued_core, issueTick_dirBad, hn])

theorem vCmp_shape {k : BitVec 3} {a b : VOp} {m : Bool} {g : Word → Word → Bool × FFlags} {n : ℕ}
    (hn : (iter s).dirBad (class2 a.dir b.dir) (cmpDir a.dir b.dir) [a.dir, b.dir] = some n) :
    vWord i (vCmp i k a b m g) s = .next (shapeTrapped s pc w n) :=
  vWord_shape h he (by simp only [vCmp, issued_core, issueTick_dirBad, hn])

theorem sfuTry_shape {f : ℕ} {d a : VOp} {m : Bool} {n : ℕ} (hn : (iter s).dirBad (some (class1 a.dir)) d.dir [a.dir] = some n) :
    sfuTry i f d a m s = .next (shapeTrapped s pc w n) := by
  rw [sfuTry_eq_vWord f d a m h i (by rw [hn]; exact Bool.and_false _)]
  exact vWord_shape h he (by simp only [sfuWord, issued_core, issueTick_dirBad, hn])

/-- A word whose operands must be whole, with another direction (R168). -/
theorem vWhole_shape {ops : List VOp} {own : TCore → Option ℕ} {f : TCore → TCore} (ho : ∃ y ∈ ops.map (·.dir), y ≠ .whole) :
    vWord i (vWhole i ops own f) s = .next (shapeTrapped s pc w 3) := by
  have hany : ops.any (·.dir != .whole) = true := by
    obtain ⟨y, hy, hne⟩ := ho
    obtain ⟨o, hmem, rfl⟩ := List.mem_map.mp hy
    exact List.any_eq_true.mpr ⟨o, hmem, bne_iff_ne.mpr hne⟩
  exact vWord_shape h he (by simp only [vWhole, issued_core, hany, if_true])

/-- A word on whole operands that fails its own check. -/
theorem vWhole_own_shape {ops : List VOp} {own : TCore → Option ℕ} {f : TCore → TCore} {n : ℕ} (ho : ∀ o ∈ ops, o.dir = .whole)
    (hn : own (issueTick (iter s)) = some n) : vWord i (vWhole i ops own f) s = .next (shapeTrapped s pc w n) := by
  have hany : ops.any (·.dir != .whole) = false := List.any_eq_false.mpr fun o hmem => by simp [ho o hmem]
  exact vWord_shape h he (by simp only [vWhole, issued_core, hany, hn, Bool.false_eq_true, if_false])

theorem vRed_whole_shape {d a : VOp} {x m : Bool} {fin : Word → Word} {g : Word → Word → Word × FFlags} {z : Word} (ha : a.dir ≠ .whole) :
    vWord i (vRed i d a x m fin g z) s = .next (shapeTrapped s pc w 3) :=
  vWord_shape h he (by simp only [vRed, issued_core, bne_iff_ne.mpr ha, if_true])

theorem vRed_cursor_shape {d a : VOp} {x m : Bool} {fin : Word → Word} {g : Word → Word → Word × FFlags} {z : Word} (ha : a.dir = .whole)
    (hout : Claims.Outside (iter s) [d.dir]) : vWord i (vRed i d a x m fin g z) s = .next (shapeTrapped s pc w 2) := by
  have hc : (iter s).cursorOk d.dir = false := Bool.eq_false_iff.mpr fun hok => (cursorOk_iff _ _).mp hok hout
  exact vWord_shape h he (by simp only [vRed, issued_core, issueTick_cursorOk, ha, hc]; rfl)

theorem vRed_dest_shape {d a : VOp} {x m : Bool} {fin : Word → Word} {g : Word → Word → Word × FFlags} {z : Word} (ha : a.dir = .whole)
    (hin : ¬ Claims.Outside (iter s) [d.dir]) (hdest : redDest x d.dir = false) :
    vWord i (vRed i d a x m fin g z) s = .next (shapeTrapped s pc w 6) :=
  vWord_shape h he (by simp only [vRed, issued_core, issueTick_cursorOk, ha, (cursorOk_iff _ _).mpr hin, hdest]; rfl)

end

/-- Whether a reduction's destination is allowed (R183). -/
theorem redDest_iff (x : Bool) (o : Dir) :
    redDest x o = true ↔ o = .whole ∨ (o = .row ∧ x = true) ∨ ((o = .col ∨ o = .diag) ∧ x = false) := by
  cases o <;> cases x <;> decide

/-! ### The words and their checks -/

/-- A word on directed operands traps by the class of its sources and by the cursor (R165 to R167). -/
theorem dirs_trap {s : State} {pc : Dword} {i : Instr} {w : Word} {k : Option VClass} {o : Dir} {srcs : List Dir}
    (hk : accepts k o = true ↔ Claims.Matches o srcs)
    (hi : ∀ n, (iter s).dirBad k o srcs = some n → exec i s = .next (shapeTrapped s pc w n)) :
    (¬ Claims.Matches o srcs → exec i s = .next (shapeTrapped s pc w 1)) ∧
    (Claims.Matches o srcs → Claims.Outside (iter s) (o :: srcs) → exec i s = .next (shapeTrapped s pc w 2)) :=
  ⟨fun hm => hi 1 (dirBad_mismatch _ _ fun ha => hm (hk.mp ha)), fun hm hout => hi 2 (dirBad_outside (hk.mpr hm) hout)⟩

section
variable {s : State} {pc : Dword} {i : Instr} {w : Word} (h : Stands s .v pc false) (he : encode i = some w)
include h he

/-- A word of two sources. -/
theorem two_trap {d a b : VOp} {m : Bool} {f : TCore → ℕ → Word × FFlags}
    (hi : exec i s = vWord i (vElem i d (class2 a.dir b.dir) [a.dir, b.dir] m f) s) :
    (¬ Claims.Matches d.dir [a.dir, b.dir] → exec i s = .next (shapeTrapped s pc w 1)) ∧
    (Claims.Matches d.dir [a.dir, b.dir] → Claims.Outside (iter s) [d.dir, a.dir, b.dir] → exec i s = .next (shapeTrapped s pc w 2)) :=
  dirs_trap (accepts_class2 ..) fun _ hn => hi.trans (vElem_shape h he hn)

/-- A word of one source. -/
theorem one_trap {d a : VOp} {m : Bool} {f : TCore → ℕ → Word × FFlags}
    (hi : exec i s = vWord i (vElem i d (some (class1 a.dir)) [a.dir] m f) s) :
    (¬ Claims.Matches d.dir [a.dir] → exec i s = .next (shapeTrapped s pc w 1)) ∧
    (Claims.Matches d.dir [a.dir] → Claims.Outside (iter s) [d.dir, a.dir] → exec i s = .next (shapeTrapped s pc w 2)) :=
  dirs_trap (accepts_class1 ..) fun _ hn => hi.trans (vElem_shape h he hn)

/-- A special-function word. -/
theorem special_trap {d a : VOp} {m : Bool} {f : ℕ} (hi : exec i s = sfuTry i f d a m s) :
    (¬ Claims.Matches d.dir [a.dir] → exec i s = .next (shapeTrapped s pc w 1)) ∧
    (Claims.Matches d.dir [a.dir] → Claims.Outside (iter s) [d.dir, a.dir] → exec i s = .next (shapeTrapped s pc w 2)) :=
  dirs_trap (accepts_class1 ..) fun _ hn => hi.trans (sfuTry_shape h he hn)

/-- VIOTA has no source: its own direction gives the class. -/
theorem viota_trap {d : VOp} {m : Bool} {f : TCore → ℕ → Word × FFlags}
    (hi : exec i s = vWord i (vElem i d (some (class1 d.dir)) [] m f) s) :
    (¬ Claims.Matches d.dir [d.dir] → exec i s = .next (shapeTrapped s pc w 1)) ∧
    (Claims.Matches d.dir [d.dir] → Claims.Outside (iter s) [d.dir, d.dir] → exec i s = .next (shapeTrapped s pc w 2)) := by
  refine dirs_trap (accepts_class1 ..) fun n hn => hi.trans (vElem_shape h he ?_)
  simpa only [dirBad_eq, List.all_cons, List.all_nil, Bool.and_true, Bool.and_self] using hn

/-- A compare. -/
theorem cmp_trap {k : BitVec 3} {a b : VOp} {m : Bool} {g : Word → Word → Bool × FFlags} (hi : exec i s = vWord i (vCmp i k a b m g) s) :
    (¬ Claims.HasClass [a.dir, b.dir] → exec i s = .next (shapeTrapped s pc w 1)) ∧
    (Claims.HasClass [a.dir, b.dir] → Claims.Outside (iter s) [a.dir, b.dir] → exec i s = .next (shapeTrapped s pc w 2)) := by
  refine ⟨fun hm => hi.trans (vCmp_shape h he (dirBad_mismatch _ _ fun ha => hm ((accepts_cmpDir ..).mp ha))),
    fun hm hout => hi.trans (vCmp_shape h he (dirBad_outside ((accepts_cmpDir ..).mpr hm) ?_))⟩
  rw [outside_iff] at hout ⊢
  obtain ⟨o, hmem, ho⟩ := hout
  exact ⟨o, List.mem_cons_of_mem _ hmem, ho⟩

/-- A reduction whose source is whole (R183). -/
theorem red_trap {d a : VOp} {x m : Bool} {fin : Word → Word} {g : Word → Word → Word × FFlags} {z : Word}
    (hi : exec i s = vWord i (vRed i d a x m fin g z) s) (ha : a.dir = .whole) :
    (¬ (d.dir = .whole ∨ (d.dir = .row ∧ x = true) ∨ ((d.dir = .col ∨ d.dir = .diag) ∧ x = false)) → ¬ Claims.Outside (iter s) [d.dir] →
      exec i s = .next (shapeTrapped s pc w 6)) ∧
    (Claims.Outside (iter s) [d.dir] → exec i s = .next (shapeTrapped s pc w 2)) := by
  refine ⟨fun hbad hin => hi.trans (vRed_dest_shape h he ha hin ?_), fun hout => hi.trans (vRed_cursor_shape h he ha hout)⟩
  exact Bool.eq_false_iff.mpr fun hok => hbad ((redDest_iff ..).mp hok)

end

/-- Settles O30: a word on directed operands traps by what `dirBad` finds (`dirBad_mismatch`, `dirBad_outside`); a word on whole operands and
a reduction by their own checks (`vWhole_shape`, `red_trap`); the trap is that of a V word that finds its operands wrong (`vWord_shape`). -/
theorem vectorShapeTraps : Obligations.VectorShapeTraps := by
  intro i s pc d a b m u x sat w n sc p k rel rows cnt r o srcs h he c trapped
  refine ⟨fun hmem => ?_, fun hmem => ?_, fun hmem hdir => ?_, ?_, ?_, fun hmem ha => ?_, ?_, ?_⟩
  · simp only [List.mem_cons, List.not_mem_nil, or_false, Prod.mk.injEq] at hmem
    rcases hmem with hm | hm | hm | hm | hm | hm | hm | hm | hm | hm | hm | hm | hm | hm | hm | hm | hm | hm | hm | hm | hm | hm | hm | hm |
      hm | hm | hm | hm | hm | hm | hm | hm | hm | hm | hm | hm | hm <;> obtain ⟨rfl, rfl, rfl⟩ := hm
    iterate 26 · exact two_trap h he rfl
    iterate 5 · exact one_trap h he rfl
    iterate 5 · exact special_trap h he rfl
    · exact viota_trap h he rfl
  · simp only [List.mem_cons, List.not_mem_nil, or_false] at hmem
    rcases hmem with rfl | rfl
    · exact cmp_trap h he rfl
    · exact cmp_trap h he rfl
  · simp only [List.mem_cons, List.not_mem_nil, or_false, Prod.mk.injEq] at hmem
    have hsingle {y : Dir} (hy : ∃ z ∈ [y], z ≠ .whole) : (y != .whole) = true := by simpa using hy
    rcases hmem with hm | hm | hm | hm | hm | hm | hm | hm | hm | hm | hm | hm | hm | hm | hm | hm | hm | hm | hm <;> obtain ⟨rfl, rfl⟩ := hm
    iterate 2 · exact vWhole_shape h he hdir
    iterate 3 · exact vWord_shape h he (by simp only [issued_core, hsingle hdir]; rfl)
    iterate 10 · exact vWhole_shape h he hdir
    · exact vWord_shape h he (by simp only [issued_core, hsingle hdir]; rfl)
    · exact (exec_vunpark_eq d s).trans (vWord_shape h he (by simp only [vunparkWord, issued_core, hsingle hdir]; rfl))
    iterate 2 · exact vRed_whole_shape h he (by simpa using hdir)
  · rintro rfl hd ha hshape
    refine vWhole_own_shape h he (by simp [hd, ha]) (if_neg ?_)
    simpa only [issueTick_cols, issueTick_rows, Bool.and_eq_true, Bool.or_eq_true, decide_eq_true_eq, not_and_or, not_or] using hshape
  · rintro rfl hd hnone
    exact (exec_vunpark_eq d s).trans (vWord_shape h he (by
      simp only [vunparkWord, issued_core, issueTick_park, issueTick_phys, hd]
      rw [hnone]
      rfl))
  · simp only [List.mem_cons, List.not_mem_nil, or_false] at hmem
    rcases hmem with rfl | rfl
    · exact (red_trap h he rfl ha).imp id fun hout _ => hout
    · exact (red_trap h he rfl ha).imp id fun hout _ => hout
  · rintro rfl hout
    have hc : (iter s).cursorOk d.dir = false := Bool.eq_false_iff.mpr fun hok => (cursorOk_iff _ _).mp hok hout
    exact vWord_shape h he (by simp only [issued_core, issueTick_cursorOk, hc]; rfl)
  · rintro rfl hd hcur
    have hin : (iter s).inShape (16 * (iter s).csr.curRow.toNat + (iter s).csr.curCol.toNat) = false := inShape_cursor_outside hcur
    exact vWord_shape h he (by
      simp only [issued_core, issueTick_inShape, issueTick_curRow, issueTick_curCol, hd, hin]
      rfl)

end Sys2Proof.Machine

namespace Sys2Proof.Machine

open Sys2Proof.Safety

/-! ### A range of memory that has been zeroed -/

/-- A zeroed byte reads as zero, whatever memory held. -/
theorem Memory.get_zero_inside {k n a : ℕ} (m : List Host.Cell) (hk : k ≤ a) (hn : a < k + n) : Memory.get a (Memory.zero k n m) = 0 := by
  unfold Memory.zero
  induction m with
  | nil => rfl
  | cons c r ih =>
    rw [List.filter_cons]
    split
    · next hkeep =>
      rw [Bool.or_eq_true, decide_eq_true_eq, decide_eq_true_eq] at hkeep
      rw [Memory.get, if_neg (by omega), ih, ite_self]
    · exact ih

/-- A byte outside the range reads as before. -/
theorem Memory.get_zero_outside {k n a : ℕ} {m : List Host.Cell} (hwf : Memory.wf m = true) (ha : a < k ∨ k + n ≤ a) :
    Memory.get a (Memory.zero k n m) = Memory.get a m := by
  unfold Memory.zero
  induction m with
  | nil => rfl
  | cons c r ih =>
    obtain ⟨-, habove, hr⟩ := (Memory.wf_cons c r).1 hwf
    rw [List.filter_cons, Memory.get]
    split
    · rw [Memory.get, ih hr]
    · next hgone =>
      rw [Bool.or_eq_true, decide_eq_true_eq, decide_eq_true_eq] at hgone
      rw [ih hr, if_neg (by omega)]
      split
      · exact Memory.get_of_from (Memory.above_mono habove (by omega))
      · rfl

/-! ### Frames (R242) -/

@[simp] theorem dropResv_mem (d : Dev) (k n : ℕ) : (dropResv d k n).mem = d.mem := (dropResv_same d k n).1

@[simp] theorem dropResv_tile (d : Dev) (k n t : ℕ) : (dropResv d k n).tile t = d.tile t := by
  unfold dropResv; split <;> rfl

@[simp] theorem dropResv_slice (d : Dev) (k n i : ℕ) : (dropResv d k n).slice i = d.slice i := by
  unfold dropResv; split <;> rfl

@[simp] theorem Dev.frame_setFrame (d : Dev) (f : ℕ) (x : Frame) : (d.setFrame f x).frame f = x := by
  simp [Dev.frame, Dev.setFrame]

/-- A map whose values have all changed. -/
theorem lookupN_map {α : Type} (g : α → α) (k : ℕ) (l : List (ℕ × α)) :
    lookupN k (l.map fun e => (e.1, g e.2)) = (lookupN k l).map g := by
  induction l with
  | nil => rfl
  | cons e r ih =>
    simp only [List.map_cons, lookupN]
    split
    · rfl
    · exact ih

/-- No copy of a line that is dropped is left on any tile. -/
theorem dropLines_tile (p : ℕ → Bool) (d : Dev) (t : ℕ) : (dropLines p d).tile t =
    { d.tile t with l1 := (d.tile t).l1.filter fun c => !p c.line, icache := (d.tile t).icache.filter fun c => !p c.line } := by
  show (lookupN t (d.tiles.entries.map fun e => (e.1, _))).getD ({} : Tile) = _
  rw [lookupN_map (fun y : Tile => { y with l1 := y.l1.filter fun c => !p c.line, icache := y.icache.filter fun c => !p c.line })]
  rw [Dev.tile, NMap.get, NMap.find]
  cases lookupN t d.tiles.entries <;> rfl

/-- A frame whose scrubbing ends: its tag, its bytes, the copies of its lines. -/
theorem scrubComplete_frame {f : ℕ} {d : Dev} (h : (d.frame f).scrub = true) :
    ((scrubComplete f d).frame f).scrub = false ∧ ((d.frame f).next = none → ((scrubComplete f d).frame f).owned = false) ∧
      (scrubComplete f d).mem = Memory.zero (f * 65536) 65536 d.mem ∧
      ∀ t, (scrubComplete f d).tile t = (dropLines (lineIn f) d).tile t := by
  unfold scrubComplete; dsimp only
  rw [h, Bool.not_true, if_neg Bool.false_ne_true, Dev.frame_setFrame]
  refine ⟨by split <;> rfl, fun hnext => by rw [hnext], ?_, fun t => ?_⟩
  · exact dropResv_mem ..
  · exact dropResv_tile ..

theorem not_lineIn {f line : ℕ} (h : (!lineIn f line) = true) : line / 512 ≠ f := by simpa [lineIn] using h

theorem exec_scrubComplete {s : State} (h : (s.dev.frame s.env.unit).scrub = true) :
    ∃ t, exec .scrubComplete s = .next t ∧ (t.dev.frame s.env.unit).scrub = false ∧
      ((s.dev.frame s.env.unit).next = none → (t.dev.frame s.env.unit).owned = false) ∧
      (∀ a, s.env.unit * 65536 ≤ a → a < s.env.unit * 65536 + 65536 → Memory.get a t.dev.mem = 0) ∧
      (Memory.wf s.dev.mem = true → OutsideSame s t (s.env.unit * 65536) 65536) ∧
      ∀ i, (∀ c ∈ (t.dev.tile i).l1, c.line / 512 ≠ s.env.unit) ∧ ∀ c ∈ (t.dev.tile i).icache, c.line / 512 ≠ s.env.unit := by
  obtain ⟨hscrub, howned, hmem, htile⟩ := scrubComplete_frame h
  refine ⟨_, run_of_eq (f := fun env d => scrubComplete env.unit d) rfl, hscrub, howned, fun a h1 h2 => ?_, fun hwf a ha => ?_, fun i => ?_⟩
  · rw [withDev_dev, hmem]; exact Memory.get_zero_inside _ h1 h2
  · rw [withDev_dev, hmem]; exact Memory.get_zero_outside hwf ha
  · rw [withDev_dev, htile, dropLines_tile]
    exact ⟨fun c hc => not_lineIn (List.mem_filter.mp hc).2, fun c hc => not_lineIn (List.mem_filter.mp hc).2⟩

theorem exec_frameassign_free {s : State} {vf : BitVec 10} (howned : (s.dev.frame s.env.unit).owned = false)
    (hscrub : (s.dev.frame s.env.unit).scrub = false) :
    exec (.frameassign vf) s = .next (withDev s (s.dev.setFrame s.env.unit { vf := vf, owned := true, scrub := false })) :=
  run_of_eq (f := fun env d => frameAssign env.unit vf d) (by simp [frameAssign, howned, hscrub])

theorem exec_frameassign_owned {s : State} {vf : BitVec 10} (howned : (s.dev.frame s.env.unit).owned = true)
    (hscrub : (s.dev.frame s.env.unit).scrub = false) :
    exec (.frameassign vf) s = .next (withDev s { s.dev with kernel := s.dev.kernel ++ [.frame s.env.unit vf] }) :=
  run_of_eq (f := fun env d => frameAssign env.unit vf d) (by simp [frameAssign, howned, hscrub])

theorem exec_framerelease_owned {s : State} (howned : (s.dev.frame s.env.unit).owned = true)
    (hscrub : (s.dev.frame s.env.unit).scrub = false) :
    exec .framerelease s = .next (withDev s ((drainSent s.env s.dev).setFrame s.env.unit { s.dev.frame s.env.unit with scrub := true })) :=
  run_of_eq (f := fun env d => frameRelease env env.unit d) (by simp [frameRelease, howned, hscrub])

/-! ### Staging ways (R239, R259) -/

/-- A way register of a slice. -/
def Slice.way (y : Slice) (w : ℕ) : SWay := vget y.sway {} w

/-- A write of SWAYw: the register is as written, with the change of STAGE under way; other registers stay. -/
theorem swayWrite_way {w : ℕ} (hw : w < 16) (v : Dword) (y : Slice) : (swayWrite w v y).way w = {
    stage := (y.way w).stage, grant := v.getLsbD 10, vf := v.setWidth 10
    change := if v.getLsbD 11 != (y.way w).stage then some (v.getLsbD 11) else none } := by
  unfold swayWrite Slice.way; dsimp only
  have hway : (if (vget y.sway {} w).stage && !v.getLsbD 11 || (vget y.sway {} w).grant && !v.getLsbD 10 then y.retireIn w else y).sway
      = y.sway := by split <;> rfl
  rw [hway, vget_vset _ _ _ _ hw, if_pos rfl]

/-- No generation that lands in a way is left in a slot of the slice. -/
theorem retireIn_slots (y : Slice) (w i : ℕ) {x : MapSlot} {g : MapGen} (hx : (y.retireIn w).slots.find i = some x)
    (hg : x.act = some g ∨ x.drain = some g) : w ∉ genWays g := by
  have hkeep {o : Option MapGen} (ho : o.filter (fun x => !(genWays x).contains w) = some g) : w ∉ genWays g := by
    simpa using (Option.filter_eq_some_iff.mp ho).2
  replace hx : lookupN i (y.slots.entries.map fun e => (e.1, _)) = some x := hx
  rw [lookupN_map (fun e : MapSlot => { act := e.act.filter fun x => !(genWays x).contains w
                                        drain := e.drain.filter fun x => !(genWays x).contains w })] at hx
  obtain ⟨z, -, rfl⟩ := Option.map_eq_some_iff.mp hx
  exact hg.elim hkeep hkeep

/-- Clearing STAGE retires what lands in the way. -/
theorem swayWrite_retires {w : ℕ} {v : Dword} {y : Slice} (hstage : (y.way w).stage = true) (hv : v.getLsbD 11 = false) :
    (swayWrite w v y).slots = (y.retireIn w).slots := by
  unfold swayWrite; dsimp only
  rw [show (vget y.sway {} w).stage = true from hstage, hv]
  rfl

section
variable {s : State} {w : ℕ} {v : Dword} (hw : w < 16)
include hw

/-- STAGE is set: the change is under way, and what has been sent was performed before. -/
theorem exec_swayStageSet (hv : v.getLsbD 11 = true) (hstage : (((drainSent s.env s.dev).slice s.env.unit).way w).stage = false) :
    ∃ t, exec (.swayStageSet w v) s = .next t ∧ t.dev.mem = (drainSent s.env s.dev).mem ∧
      (t.dev.slice s.env.unit).way w = { stage := false, grant := v.getLsbD 10, vf := v.setWidth 10, change := some true } := by
  refine ⟨_, run_of_eq (d := swayStore s.env s.env.unit w v s.dev) (if_pos hv), rfl, ?_⟩
  rw [withDev_dev, swayStore, Dev.slice_setSlice, if_pos rfl, swayWrite_way hw, hstage, hv]
  rfl

/-- STAGE is cleared. -/
theorem exec_swayStageClear (hv : v.getLsbD 11 = false) (hstage : (((drainSent s.env s.dev).slice s.env.unit).way w).stage = true) :
    ∃ t, exec (.swayStageClear w v) s = .next t ∧ t.dev.mem = (drainSent s.env s.dev).mem ∧
      (t.dev.slice s.env.unit).way w = { stage := true, grant := v.getLsbD 10, vf := v.setWidth 10, change := some false } ∧
      ∀ i x g, (t.dev.slice s.env.unit).slots.find i = some x → x.act = some g ∨ x.drain = some g → w ∉ genWays g := by
  have hset : (swayStore s.env s.env.unit w v s.dev).slice s.env.unit = swayWrite w v ((drainSent s.env s.dev).slice s.env.unit) := by
    rw [swayStore, Dev.slice_setSlice, if_pos rfl]
  refine ⟨_, run_of_eq (d := swayStore s.env s.env.unit w v s.dev) (if_neg (Bool.eq_false_iff.mp hv)), rfl, ?_, fun i x g hx hg => ?_⟩
  · rw [withDev_dev, hset, swayWrite_way hw, hstage, hv]
    rfl
  · rw [withDev_dev, hset, swayWrite_retires hstage hv] at hx
    exact retireIn_slots _ w i hx hg

end

/-- A line of the way is pinned by a command of the matrix path (R208). -/
def Slice.pinnedIn (y : Slice) (w : ℕ) : Bool := (y.sets.entries.flatMap (·.2)).any fun l => l.way == w && !l.pins.isEmpty

/-- No line that has been evicted is left in any set. -/
theorem evict_sets (y : Slice) (p : L2Line → Bool) (i : ℕ) : (y.evict p).sets.get [] i = (y.sets.get [] i).filter fun l => !p l := by
  show (lookupN i (y.sets.entries.map fun e => (e.1, _))).getD [] = _
  rw [lookupN_map (fun l : List L2Line => l.filter fun l => !p l)]
  show _ = ((lookupN i y.sets.entries).getD []).filter _
  cases lookupN i y.sets.entries <;> rfl

section
variable {d : Dev} {k w : ℕ} {st : Bool} (hc : ((d.slice k).way w).change = some st)
include hc

/-- Pinned lines of the way hold the change back. -/
theorem stageDone_pinned (hp : (d.slice k).pinnedIn w = true) : stageDone k w d = d := by
  unfold stageDone; dsimp only
  rw [show (vget (d.slice k).sway {} w).change = some st from hc]
  exact if_pos hp

/-- The change takes effect: the way's register, its bytes, its lines. -/
theorem stageDone_done (hp : (d.slice k).pinnedIn w = false) (hw : w < 16) :
    ((stageDone k w d).slice k).way w = { (d.slice k).way w with stage := st, change := none } ∧
      (stageDone k w d).mem = Memory.zero (stageKey k (w * 0x40000)) 0x40000 d.mem ∧
      ((stageDone k w d).slice k).sets = ((d.slice k).evict fun l => l.way == w).sets := by
  have hpin : ¬ ((d.slice k).sets.entries.flatMap (·.2)).any (fun l => l.way == w && !l.pins.isEmpty) = true :=
    Bool.eq_false_iff.mp hp
  unfold stageDone; dsimp only
  rw [show (vget (d.slice k).sway {} w).change = some st from hc]
  dsimp only
  rw [if_neg hpin]
  refine ⟨?_, dropResv_mem .., ?_⟩
  · rw [dropResv_slice]
    show vget ((d.setSlice k _).slice k).sway {} w = _
    rw [Dev.slice_setSlice, if_pos rfl]
    exact (vget_vset _ _ _ _ hw).trans (if_pos rfl)
  · rw [dropResv_slice]
    show ((d.setSlice k _).slice k).sets = _
    rw [Dev.slice_setSlice, if_pos rfl]

end

theorem exec_stageChange_done {s : State} {w : ℕ} {st : Bool} (hw : w < 16)
    (hc : ((s.dev.slice s.env.unit).way w).change = some st) (hp : (s.dev.slice s.env.unit).pinnedIn w = false) :
    ∃ t, exec (.stageChangeComplete w) s = .next t ∧
      (t.dev.slice s.env.unit).way w = { (s.dev.slice s.env.unit).way w with stage := st, change := none } ∧
      (∀ a, stageKey s.env.unit (w * 0x40000) ≤ a → a < stageKey s.env.unit (w * 0x40000) + 0x40000 → Memory.get a t.dev.mem = 0) ∧
      ∀ i, ∀ x ∈ (t.dev.slice s.env.unit).sets.get [] i, x.way ≠ w := by
  obtain ⟨hway, hmem, hsets⟩ := stageDone_done hc hp hw
  refine ⟨_, run_of_eq (f := fun env d => stageDone env.unit w d) rfl, hway, fun a h1 h2 => ?_, fun i x hx => ?_⟩
  · rw [withDev_dev, hmem]; exact Memory.get_zero_inside _ h1 h2
  · rw [withDev_dev, hsets, evict_sets] at hx
    simpa using (List.mem_filter.mp hx).2

/-! ### LCAP and the ageing of timestamps (R199, R300) -/

theorem exec_lcapWrite {s : State} {v : Dword} (h1 : 1 ≤ v.toNat) (h64 : v.toNat ≤ 64) :
    exec (.lcapWrite v) s = .next (withDev s (s.dev.setCluster s.env.unit { s.dev.cluster s.env.unit with lcap := v.setWidth 7 })) :=
  run_of_eq (f := fun env d => lcapWrite env.unit v d) (if_pos (by simp [h1, h64]))

/-- On to the next multiple of 64 cycles the ordinary path ages by 1. -/
theorem tileTime_next (t : ℕ) (d : Dev) : tileTime t (64 - (d.tile t).cycle.toNat % 64) d =
    (setPts d (.tile t 0) (getPts d (.tile t 0) + 1)).onTile t fun y => { y with cycle := BitVec.ofNat 64 ((y.cycle.toNat / 64 + 1) * 64) } := by
  have hk : ((d.tile t).cycle.toNat + (64 - (d.tile t).cycle.toNat % 64)) / 64 - (d.tile t).cycle.toNat / 64 = 1 := by omega
  have hcycle : (d.tile t).cycle + dw (64 - (d.tile t).cycle.toNat % 64) =
      BitVec.ofNat 64 (((d.tile t).cycle.toNat / 64 + 1) * 64) := by
    refine BitVec.eq_of_toNat_eq ?_
    rw [BitVec.toNat_add, dw, BitVec.toNat_ofNat, BitVec.toNat_ofNat, Nat.add_mod_mod]
    congr 1
    omega
  unfold tileTime; dsimp only
  rw [hk, if_neg (by decide)]
  simp only [setPts, Dev.onTile_onTile]
  rw [Dev.onTile, Dev.onTile, hcycle]
  rfl

theorem exec_ptsTick_tile {s : State} (hok : tileOk s.env.unit = true) (hrun : (s.dev.tile s.env.unit).running = false)
    (hstop : (s.dev.tile s.env.unit).dbg.stopped = false) (hpend : (s.dev.tile s.env.unit).dbg.pending = false) :
    exec (.ptsTick false) s = .next (withDev s
      ((setPts s.dev (.tile s.env.unit 0) (getPts s.dev (.tile s.env.unit 0) + 1)).onTile s.env.unit fun y =>
        { y with cycle := BitVec.ofNat 64 ((y.cycle.toNat / 64 + 1) * 64) })) := by
  refine run_of_eq (f := ptsTick false) ?_
  unfold ptsTick; dsimp only
  rw [if_neg Bool.false_ne_true, if_pos (by simp [hok, hrun, Dbg.inStop, hstop, hpend]), tileTime_next]

theorem exec_ptsTick_core {s : State} (h : s.env.unit < 48) :
    exec (.ptsTick true) s = .next (withDev s (setPts s.dev (.core s.env.unit) (getPts s.dev (.core s.env.unit) + 1))) :=
  run_of_eq (f := ptsTick true) (if_pos h)

/-! ### Shares (R270) -/

/-- A tile with a bucket of some tokens. -/
def fillBucket (d : Dev) (e : ℕ × ℕ) : Dev := if (d.tile e.1).bucket = e.2 then d else d.onTile e.1 fun y => { y with bucket := e.2 }

theorem fillBucket_tile (d : Dev) (e : ℕ × ℕ) (k : ℕ) :
    (fillBucket d e).tile k = if k = e.1 then { d.tile k with bucket := e.2 } else d.tile k := by
  unfold fillBucket
  split
  · next h =>
    split
    · next hk => subst hk; rw [← h]
    · rfl
  · rw [Dev.tile_onTile]
    split
    · next hk => subst hk; rfl
    · rfl

theorem fillBucket_mem (d : Dev) (e : ℕ × ℕ) : (fillBucket d e).mem = d.mem := by
  unfold fillBucket; split <;> rfl

/-- What is given to each of some tiles: the buckets hold it, and nothing else has changed. -/
theorem fillBuckets (give : ℕ → ℕ) (l : List ℕ) (d : Dev) :
    ((l.map fun t => (t, give t)).foldl fillBucket d).mem = d.mem ∧ ∀ k, ((l.map fun t => (t, give t)).foldl fillBucket d).tile k =
      if k ∈ l then { d.tile k with bucket := give k } else d.tile k := by
  induction l generalizing d with
  | nil => exact ⟨rfl, fun _ => rfl⟩
  | cons t l ih =>
    obtain ⟨hmem, htile⟩ := ih (fillBucket d (t, give t))
    refine ⟨hmem.trans (fillBucket_mem ..), fun k => (htile k).trans ?_⟩
    rw [fillBucket_tile]
    by_cases hk : k = t
    · subst hk; simp
    · simp [hk]

theorem mem_dieTiles {env : Env} {die t : ℕ} : t ∈ dieTiles env die ↔ env.caps.tileOn t = true ∧ dieOfTile t = die := by
  have hlt : env.caps.tileOn t = true → t < 640 := fun h => by
    simp only [Caps.tileOn, Caps.clusterOn, Bool.and_eq_true, decide_eq_true_eq] at h
    omega
  simp only [dieTiles, List.mem_filter, List.mem_range, Bool.and_eq_true, beq_iff_eq]
  exact ⟨And.right, fun h => ⟨hlt h.1, h⟩⟩

/-- A list without repetition whose only element is k. -/
theorem eq_singleton_of_nodup {l : List ℕ} {k : ℕ} (hnd : l.Nodup) (hk : k ∈ l) (hall : ∀ x ∈ l, x = k) : l = [k] := by
  rw [List.eq_replicate_of_mem hall] at hnd hk ⊢
  have := List.nodup_replicate.mp hnd
  rw [show l.length = 1 by have := (List.mem_replicate.mp hk).1; omega]
  rfl

/-- The tiles of a die that run, where one alone may. -/
theorem running_dieTiles {env : Env} {d : Dev} {k : ℕ} (hrun : (d.tile k).running = true) (hk : k ∈ dieTiles env env.unit)
    (hidle : ∀ j, j ≠ k → env.caps.tileOn j = true → dieOfTile j = env.unit → (d.tile j).running = false) :
    (dieTiles env env.unit).filter (fun t => (d.tile t).running) = [k] := by
  refine eq_singleton_of_nodup ((List.nodup_range.filter _).filter _) (List.mem_filter.mpr ⟨hk, hrun⟩) fun j hj => ?_
  obtain ⟨hdie, hj⟩ := List.mem_filter.mp hj
  by_contra hne
  obtain ⟨hon, hd⟩ := mem_dieTiles.mp hdie
  exact Bool.false_ne_true ((hidle j hne hon hd).symm.trans hj)

/-- No tokens are left in a pool of empty buckets. -/
theorem pool_empty {env : Env} {d : Dev} (h : ∀ j, env.caps.tileOn j = true → dieOfTile j = env.unit → (d.tile j).bucket = 0) :
    (dieTiles env env.unit).foldl (fun a t => a + (d.tile t).bucket) 0 = 0 := by
  refine List.foldlRecOn (motive := fun a : ℕ => a = 0) _ _ rfl fun a ha t ht => ?_
  obtain ⟨hon, hd⟩ := mem_dieTiles.mp ht
  rw [ha, h t hon hd]

/-- What the tile that runs alone is given: the share of its VF. -/
theorem shareTokens_alone {w sum act sh : ℕ} (hsum : sum ≤ 65536) : shareTokens w 0 sum act sh 1 = sh * w / 65536 := by
  simp [shareTokens, Nat.not_lt.mpr hsum]

/-- A refill fills the bucket of every tile of the die, with nothing on a tile that is idle. -/
theorem shareRefill_eq (env : Env) (d : Dev) : ∃ give : ℕ → ℕ,
    shareRefill env d = ((dieTiles env env.unit).map fun t => (t, give t)).foldl fillBucket d ∧
      ∀ t, ∃ act, give t = if (d.tile t).running = true then
        shareTokens (d.share env.unit).dwb.toNat ((dieTiles env env.unit).foldl (fun a t => a + (d.tile t).bucket) 0)
          ((d.share env.unit).share.entries.foldl (fun a e => a + e.2.toNat) 0) act
          ((d.share env.unit).share.get 0 (d.tile t).core.csr.vfid.toNat).toNat
          (((dieTiles env env.unit).filter fun t => (d.tile t).running).countP fun u =>
            (d.tile u).core.csr.vfid.toNat == (d.tile t).core.csr.vfid.toNat) else 0 := by
  unfold shareRefill; dsimp only
  exact ⟨_, rfl, fun _ => ⟨_, rfl⟩⟩

theorem exec_shareRefill {s : State} {k : ℕ} (hon : s.env.caps.tileOn k = true) (hdie : dieOfTile k = s.env.unit)
    (hidle : ∀ j, j ≠ k → s.env.caps.tileOn j = true → dieOfTile j = s.env.unit → (s.dev.tile j).running = false)
    (hempty : ∀ j, s.env.caps.tileOn j = true → dieOfTile j = s.env.unit → (s.dev.tile j).bucket = 0)
    (hsum : (s.dev.share s.env.unit).share.entries.foldl (fun a e => a + e.2.toNat) 0 ≤ 65536) :
    ∃ t, exec .shareRefill s = .next t ∧ t.dev.mem = s.dev.mem ∧ (t.dev.tile k).core = (s.dev.tile k).core ∧
      (t.dev.tile k).bucket = if (s.dev.tile k).running = true then
        ((s.dev.share s.env.unit).share.get 0 (s.dev.tile k).core.csr.vfid.toNat).toNat * (s.dev.share s.env.unit).dwb.toNat / 65536 else 0 := by
  have hk : k ∈ dieTiles s.env s.env.unit := mem_dieTiles.mpr ⟨hon, hdie⟩
  obtain ⟨give, hrefill, hgive⟩ := shareRefill_eq s.env s.dev
  obtain ⟨hmem, htile⟩ := fillBuckets give (dieTiles s.env s.env.unit) s.dev
  obtain ⟨act, hgive⟩ := hgive k
  refine ⟨_, run_of_eq (f := shareRefill) hrefill, hmem, ?_, ?_⟩
  · rw [withDev_dev, htile, if_pos hk]
  · rw [withDev_dev, htile, if_pos hk, hgive, pool_empty hempty]
    split
    · next hrun =>
      rw [running_dieTiles hrun hk hidle, List.countP_singleton, beq_self_eq_true, if_pos rfl, shareTokens_alone hsum]
    · rfl

/-- Settles O48: frames by what FRAMEASSIGN, FRAMERELEASE and the end of scrubbing leave (`scrubComplete_frame`), ways by a write of SWAYw
(`swayWrite_way`, `swayWrite_retires`) and the end of its change (`stageDone_done`), shares by what the only tile that runs is given
(`shareTokens_alone`), timestamps by `tileTime_next`. -/
theorem memorySteps : Obligations.MemorySteps := by
  intro s vf w k v st hw n fr way sent
  refine ⟨exec_frameassign_free, fun howned hscrub => ⟨exec_frameassign_owned howned hscrub, exec_framerelease_owned howned hscrub⟩,
    exec_scrubComplete, exec_swayStageSet hw, exec_swayStageClear hw, fun hc => ⟨fun hp => ?_, exec_stageChange_done hw hc⟩,
    exec_lcapWrite, exec_shareRefill, exec_ptsTick_tile, exec_ptsTick_core⟩
  exact run_of_eq (f := fun env d => stageDone env.unit w d) (stageDone_pinned hc hp)

end Sys2Proof.Machine

namespace Sys2Proof.Machine

open Sys2Proof.Safety

/-! ### What a word of M does to the state -/

/-- The device as a word of M finds it: A's accesses count as fenced where ERET has let M go (R335). -/
def foundM (s : State) : Dev := if (iter s).trap.mHold then fencePts s.env.unit 0x01 0x20 s.dev else s.dev

theorem fencePts_cn (t : ℕ) (m1 m0 : BitVec 6) (d : Dev) : (fencePts t m1 m0 d).cn = d.cn :=
  (foldl_cn (fun _ _ => setPts_cn ..) _ _).trans rfl

theorem foundM_core (s : State) : ((foundM s).tile s.env.unit).core = iter s := by
  unfold foundM
  split
  · exact fencePts_core ..
  · rfl

theorem foundM_mem (s : State) : (foundM s).mem = s.dev.mem := by
  unfold foundM
  split
  · exact fencePts_mem ..
  · rfl

theorem foundM_cluster (s : State) (c : ℕ) : (foundM s).cluster c = s.dev.cluster c := by
  unfold foundM
  split
  · exact Dev.cluster_of_cn (fencePts_cn ..) c
  · rfl

/-- The iteration of a tile after a change to it. -/
theorem onCore_core (d : Dev) (t : ℕ) (f : TCore → TCore) : ((d.onCore t f).tile t).core = f (d.tile t).core := by
  rw [Dev.tile_onCore, if_pos rfl]

/-- Where M walks its word. -/
abbrev atM (s : State) (pc : Dword) : At := ⟨s.env.unit, .m, pc, false⟩

/-- The state in which M has gone on from its word. -/
def wentOn (s : State) (pc : Dword) (d : Dev) : State := walked s pc d .m false (pc + 4) (.other .m)

/-- The state in which M waits at its word. -/
def waitsM (s : State) (pc : Dword) (w : Wait) (d : Dev) : State := withDev s (setWait d (atM s pc) w)

/-- A word of M that waits for no fence of A (R158). -/
theorem unfenced_eq {s : State} (hfence : (iter s).mfence.toNat ≤ ((iter s).engine .a).walk.toNat) (r : Res Unit) :
    (if (((foundM s).tile s.env.unit).core.engine .a).walk.toNat < ((foundM s).tile s.env.unit).core.mfence.toNat then
      Res.wait Wait.idle (foundM s) else r) = r := by
  rw [foundM_core, if_neg (Nat.not_lt.mpr hfence)]

section
variable {s : State} {pc : Dword} (h : Stands s .m pc false) {i : Instr} {f : Env → At → Dev → Res Unit} {d : Dev}
include h

theorem mTry_ok (hf : f s.env (atM s pc) (foundM s) = .ok () d) : mTry i f s = .next (wentOn s pc d) :=
  run_own (f := fun env a dv => f env a (if (dv.tile a.t).core.trap.mHold then fencePts a.t 0x01 0x20 dv else dv)) h (by decide) hf

theorem mTry_trap {c : ℕ} {i0 i1 i2 i3 : Dword} (hf : f s.env (atM s pc) (foundM s) = .trap c i0 i1 i2 i3) :
    mTry i f s = .next (withDev s (enterTrap s.env s.dev s.env.unit .m pc c i0 i1 i2 i3)) :=
  run_own_trap (f := fun env a dv => f env a (if (dv.tile a.t).core.trap.mHold then fencePts a.t 0x01 0x20 dv else dv)) h
    (by rw [found_of (by decide)]; exact hf)

theorem mTry_wait {w : Wait} (hf : f s.env (atM s pc) (foundM s) = .wait w d) : mTry i f s = .next (waitsM s pc w d) := by
  obtain ⟨he, hr⟩ := h
  refine run_of_eq ?_
  rw [engineWord_wait (d2 := d) (w := w) he (by rw [he]; exact hr) (by rw [issued_of (a := atM s pc) (show Eng.m ≠ .v by decide)]; exact hf)]
  rfl

theorem mFenced_ok (hfence : (iter s).mfence.toNat ≤ ((iter s).engine .a).walk.toNat)
    (hf : f s.env (atM s pc) (foundM s) = .ok () d) : mFenced i f s = .next (wentOn s pc d) :=
  mTry_ok h ((unfenced_eq hfence _).trans hf)

theorem mFenced_trap {c : ℕ} {i0 i1 i2 i3 : Dword} (hfence : (iter s).mfence.toNat ≤ ((iter s).engine .a).walk.toNat)
    (hf : f s.env (atM s pc) (foundM s) = .trap c i0 i1 i2 i3) :
    mFenced i f s = .next (withDev s (enterTrap s.env s.dev s.env.unit .m pc c i0 i1 i2 i3)) :=
  mTry_trap h ((unfenced_eq hfence _).trans hf)

theorem mFenced_wait {w : Wait} (hfence : (iter s).mfence.toNat ≤ ((iter s).engine .a).walk.toNat)
    (hf : f s.env (atM s pc) (foundM s) = .wait w d) : mFenced i f s = .next (waitsM s pc w d) :=
  mTry_wait h ((unfenced_eq hfence _).trans hf)

end

section
variable {s : State} {pc : Dword} {d : Dev}

theorem wentOn_of (hm : d.mem = s.dev.mem) (hr : (d.tile s.env.unit).core.regs = (iter s).regs) :
    Claims.WentOn s (wentOn s pc d) pc :=
  ⟨walked_memSame hm, walked_regs.trans hr, walked_pc .., by rw [wentOn, walked_engine, if_pos rfl]⟩

/-- What belongs to the iteration and is no matter of walking stands as the word's effect left it. -/
theorem wentOn_iter : iter (wentOn s pc d) = { (d.tile s.env.unit).core with
    eng := (iter (wentOn s pc d)).eng, trap := (iter (wentOn s pc d)).trap, stall := 0, skip := (iter (wentOn s pc d)).skip } :=
  iter_walked_eq false

@[simp] theorem wentOn_csr : (iter (wentOn s pc d)).csr = (d.tile s.env.unit).core.csr := walked_csr
@[simp] theorem wentOn_q : (iter (wentOn s pc d)).q = (d.tile s.env.unit).core.q := walked_q
@[simp] theorem wentOn_lease : (iter (wentOn s pc d)).lease = (d.tile s.env.unit).core.lease := walked_lease
@[simp] theorem wentOn_head : (iter (wentOn s pc d)).head = (d.tile s.env.unit).core.head := by rw [wentOn_iter]
@[simp] theorem wentOn_closed : (iter (wentOn s pc d)).closed = (d.tile s.env.unit).core.closed := by rw [wentOn_iter]
@[simp] theorem wentOn_cluster (c : ℕ) : (wentOn s pc d).dev.cluster c = d.cluster c := walked_cluster c

variable {w : Wait}

theorem waitsM_iter : iter (waitsM s pc w d) = (d.tile s.env.unit).core.onEng .m fun x => { x with wait := some w } := setWait_core ..

@[simp] theorem waitsM_csr : (iter (waitsM s pc w d)).csr = (d.tile s.env.unit).core.csr := by rw [waitsM_iter]; rfl
@[simp] theorem waitsM_lease : (iter (waitsM s pc w d)).lease = (d.tile s.env.unit).core.lease := by rw [waitsM_iter]; rfl
@[simp] theorem waitsM_head : (iter (waitsM s pc w d)).head = (d.tile s.env.unit).core.head := by rw [waitsM_iter]; rfl
@[simp] theorem waitsM_pc : ((iter (waitsM s pc w d)).engine .m).pc = ((d.tile s.env.unit).core.engine .m).pc := by
  rw [waitsM_iter, engine_onEng, if_pos rfl]
@[simp] theorem waitsM_mem : (waitsM s pc w d).dev.mem = d.mem := rfl
@[simp] theorem waitsM_cluster (c : ℕ) : (waitsM s pc w d).dev.cluster c = d.cluster c := rfl

end

end Sys2Proof.Machine

namespace Sys2Proof.Machine

open Sys2Proof.Safety

/-! ### Coordinates and shape (R205, R206) -/

/-- A word that takes the head of q.xm (R205, R219). -/
theorem popXm_head {s : State} {pc x : Dword} {l : List Dword} (hq : (iter s).q.xm = x :: l) (f : Dword → Dev → Res Unit) :
    popXm (atM s pc) (foundM s) f = f x ((foundM s).onCore s.env.unit fun c => { c with q := { c.q with xm := l } }) := by
  simp only [popXm, foundM_core, hq]

/-- A word of M has gone on with registers, queues and control registers as those of x, and memory as it was. -/
def Leaves (s : State) (pc : Dword) (i : Instr) (x : TCore) : Prop :=
  ∃ t, exec i s = .next t ∧ MemSame s t ∧ ((iter t).engine .m).pc = pc + 4 ∧ (iter t).regs = x.regs ∧
    (iter t).q = x.q ∧ (iter t).csr = x.csr

section
variable {s : State} {pc : Dword} (h : Stands s .m pc false)
include h

/-- A word of M whose whole effect is a change g to what belongs to the iteration. -/
theorem leaves_of_onCore {i : Instr} {f : Env → At → Dev → Res Unit} {g : TCore → TCore} (hi : exec i s = mTry i f s)
    (hf : f s.env (atM s pc) (foundM s) = .ok () ((foundM s).onCore s.env.unit g)) : Leaves s pc i (g (iter s)) := by
  have hcore : (((foundM s).onCore s.env.unit g).tile s.env.unit).core = g (iter s) := by
    rw [onCore_core, foundM_core]
  exact ⟨_, hi.trans (mTry_ok h hf), walked_memSame (foundM_mem s), walked_pc .., walked_regs.trans (congrArg _ hcore),
    wentOn_q.trans (congrArg _ hcore), wentOn_csr.trans (congrArg _ hcore)⟩

theorem leaves_of_core {i : Instr} {g : TCore → TCore} (hi : exec i s = mTry i (fun _ a d => .ok () (d.onCore a.t g)) s) :
    Leaves s pc i (g (iter s)) := leaves_of_onCore h hi rfl

theorem exec_mset (c : BitVec 4) (f : BitVec 2) (v : BitVec 16) :
    Leaves s pc (.mset c f v) ((iter s).setC c (coordSet ((iter s).c c) f v.toNat)) :=
  leaves_of_core h (g := fun y => y.setC c (coordSet (y.c c) f v.toNat)) rfl

theorem exec_maddc (c : BitVec 4) (f : BitVec 2) (v : BitVec 16) :
    Leaves s pc (.maddc c f v) ((iter s).setC c (coordSet ((iter s).c c) f (bitsN ((iter s).c c) (16 * f.toNat) 16 + v.toNat))) :=
  leaves_of_core h (g := fun y => y.setC c (coordSet (y.c c) f (bitsN (y.c c) (16 * f.toNat) 16 + v.toNat))) rfl

theorem exec_mpopc (c : BitVec 4) {x : Dword} {l : List Dword} (hq : (iter s).q.xm = x :: l) :
    Leaves s pc (.mpopc c) { (iter s).setC c x with q := { (iter s).q with xm := l } } :=
  leaves_of_onCore h (g := fun y => { y.setC c x with q := { y.q with xm := l } }) (i := .mpopc c)
    (f := fun _ a d => popXm a d fun x d1 => .ok () (d1.onCore a.t fun y => y.setC c x)) rfl
    (by rw [popXm_head hq, Dev.onCore_onCore]; rfl)

theorem exec_mpush (c : BitVec 4) (hq : (iter s).q.mx.length < 8) :
    Leaves s pc (.mpush c) { iter s with q := { (iter s).q with mx := (iter s).q.mx ++ [(iter s).c c] } } := by
  have hroom : ¬ qdepth 7 ≤ ((foundM s).tile s.env.unit).core.qlen 7 := by rw [foundM_core]; exact Nat.not_le.mpr hq
  exact leaves_of_onCore h (g := fun y => { y with q := { y.q with mx := y.q.mx ++ [y.c c] } }) (i := .mpush c)
    (f := fun _ a d => if qdepth 7 ≤ (d.tile a.t).core.qlen 7 then waitFull 7 d
      else .ok () (d.onCore a.t fun y => { y with q := { y.q with mx := y.q.mx ++ [y.c c] } })) rfl (if_neg hroom)

/-- The shape with a field set (R206): 0 is M, 1 is N, any other K. -/
def Csrs.withShape (x : Csrs) (f : BitVec 2) (v : BitVec 16) : Csrs :=
  if f = 0 then { x with shM := v.setWidth 9 } else if f = 1 then { x with shN := v.setWidth 9 } else { x with shK := v.setWidth 10 }

theorem exec_mshape (f : BitVec 2) (v : BitVec 16) : Leaves s pc (.mshape f v) ((iter s).onCsr fun x => x.withShape f v) :=
  leaves_of_core h (g := fun y => y.onCsr fun x => x.withShape f v) rfl

end

/-- Settles O37: each of the words is a change to what belongs to the iteration (`leaves_of_onCore`); MPOPC takes the head of q.xm, MPUSH
finds room in q.mx. -/
theorem coordinateWords : Obligations.CoordinateWords := by
  intro s pc x l c f v h put does
  exact ⟨exec_mset h c f v, exec_maddc h c f v, exec_mpopc h c, exec_mpush h c, exec_mshape h 0 v, exec_mshape h 1 v, exec_mshape h 2 v⟩

end Sys2Proof.Machine

namespace Sys2Proof.Machine

open Sys2Proof.Safety

/-! ### The array's order (R197, R215, R218) -/

/-- One entry finds its place: a close or a drop takes effect where no command of its own tile stands before it. -/
def settleOne (c : Cluster) (m : MCmd) : Cluster :=
  if m.kind.isEnd && !c.mq.any (fun x => x.tile == m.tile) then c.takeEffect m else { c with mq := c.mq ++ [m] }

/-- An entry behind all others finds its place last. -/
theorem settleMq_append (k : Cluster) (m : MCmd) : settleMq { k with mq := k.mq ++ [m] } = settleOne (settleMq k) m :=
  List.foldl_concat ..

theorem takeEffect_mq (k : Cluster) (m : MCmd) : (k.takeEffect m).mq = k.mq := by
  unfold Cluster.takeEffect; split <;> rfl

/-- What settles takes nothing new into the order. -/
theorem mem_of_mem_settleOne {k : Cluster} {m x : MCmd} (h : x ∈ (settleOne k m).mq) : x ∈ k.mq ∨ x = m := by
  unfold settleOne at h
  split at h
  · rw [takeEffect_mq] at h; exact .inl h
  · exact (List.mem_append.mp h).imp_right List.mem_singleton.mp

theorem mem_settleOne_of_mem {k : Cluster} {m x : MCmd} (h : x ∈ k.mq) : x ∈ (settleOne k m).mq := by
  unfold settleOne
  split
  · rwa [takeEffect_mq]
  · exact List.mem_append_left _ h

/-- A command that is no close and no drop takes its place at the end. -/
theorem mem_settleOne_command {k : Cluster} {m : MCmd} (h : m.kind.isEnd = false) : m ∈ (settleOne k m).mq := by
  rw [settleOne, h, Bool.false_and, if_neg Bool.false_ne_true]
  exact List.mem_append_right _ (List.mem_singleton_self m)

theorem mem_of_mem_settled {l : List MCmd} {k : Cluster} {x : MCmd} (h : x ∈ (l.foldl settleOne k).mq) : x ∈ k.mq ∨ x ∈ l := by
  induction l generalizing k with
  | nil => exact .inl h
  | cons m l ih =>
    rcases ih h with h | h
    · exact (mem_of_mem_settleOne h).imp_right fun hx => List.mem_cons.mpr (.inl hx)
    · exact .inr (List.mem_cons_of_mem _ h)

theorem mem_of_mem_settleMq {k : Cluster} {x : MCmd} (h : x ∈ (settleMq k).mq) : x ∈ k.mq :=
  (mem_of_mem_settled (l := k.mq) (k := { k with mq := [] }) h).resolve_left (List.not_mem_nil)

/-- Every command stays in the order. -/
theorem mem_settleMq_command {k : Cluster} {x : MCmd} (hx : x ∈ k.mq) (h : x.kind.isEnd = false) : x ∈ (settleMq k).mq := by
  have hkeep (l : List MCmd) (c : Cluster) (hc : x ∈ c.mq) : x ∈ (l.foldl settleOne c).mq := by
    induction l generalizing c with
    | nil => exact hc
    | cons m l ih => exact ih _ (mem_settleOne_of_mem hc)
  have hin (l : List MCmd) (c : Cluster) (hl : x ∈ l) : x ∈ (l.foldl settleOne c).mq := by
    induction l generalizing c with
    | nil => cases hl
    | cons m l ih =>
      rcases List.mem_cons.mp hl with rfl | hl
      · exact hkeep l _ (mem_settleOne_command h)
      · exact ih _ hl
  exact hin k.mq { k with mq := [] } hx

/-- A close or a drop of a tile with nothing in the order takes effect at once. -/
theorem settleOne_end {k : Cluster} {m : MCmd} (hend : m.kind.isEnd = true) (hfree : ∀ x ∈ k.mq, x.tile ≠ m.tile) :
    settleOne (settleMq k) m = (settleMq k).takeEffect m := by
  have hnone : ((settleMq k).mq.any fun x => x.tile == m.tile) = false := by
    simpa using fun x hx => hfree x (mem_of_mem_settleMq hx)
  rw [settleOne, hend, hnone]; rfl

/-- A close or a drop behind a command of its tile stands in the order. -/
theorem settleOne_behind {k : Cluster} {m : MCmd} (hbusy : ∃ x ∈ k.mq, x.tile = m.tile ∧ x.kind.isEnd = false) :
    m ∈ (settleOne (settleMq k) m).mq := by
  obtain ⟨x, hx, htile, hcmd⟩ := hbusy
  have hsome : ((settleMq k).mq.any fun x => x.tile == m.tile) = true :=
    List.any_eq_true.mpr ⟨x, mem_settleMq_command hx hcmd, by simpa using htile⟩
  rw [settleOne, hsome, Bool.not_true, Bool.and_false, if_neg Bool.false_ne_true]
  exact List.mem_append_right _ (List.mem_singleton_self m)

/-- The entry that a tile's word makes in the array's order. -/
def orderOf (d : Dev) (t : ℕ) (kind : MKind) : MCmd :=
  let c := (d.tile t).core
  { kind := kind, tile := t, serial := c.iter.serial, vf := c.csr.vfid, walk := (c.engine .m).walk, pins := c.fuPins }

theorem pushMq_core (d : Dev) (t : ℕ) (kind : MKind) : ((pushMq d t kind).tile t).core = { (d.tile t).core with fuPins := [] } := by
  unfold pushMq; dsimp only
  rw [Dev.tile_onCluster, Dev.tile_onTile, if_pos rfl]

theorem pushMq_cluster (d : Dev) (t : ℕ) (kind : MKind) :
    (pushMq d t kind).cluster (t / 8) = settleOne (settleMq (d.cluster (t / 8))) (orderOf d t kind) := by
  unfold pushMq; dsimp only
  rw [Dev.cluster_onCluster, if_pos rfl, Dev.cluster_onTile]
  exact settleMq_append ..

/-! ### Words with the turn (R200 to R202) -/

/-- The lease of a tile is open. -/
def Dev.leased (d : Dev) (t : ℕ) : Dev := d.onCore t fun c => { c with lease := { c.lease with held := true, trapped := false } }

/-- A tile that has the turn goes on. -/
theorem withTurn_go {α : Type} {a : At} {d : Dev} {f : Dev → Res α} (hh : (d.cluster (a.t / 8)).holder = some a.t)
    (he : (d.cluster (a.t / 8)).expired = false) : withTurn a d f = f (d.leased a.t) := by
  simp only [withTurn, hh, he, if_true, Bool.not_false]
  rfl

/-- A tile without the turn asks for it and waits. -/
theorem withTurn_asks {α : Type} {a : At} {d : Dev} {f : Dev → Res α} (hh : (d.cluster (a.t / 8)).holder ≠ some a.t) :
    withTurn a d f = .wait Wait.idle (askTurn d a.t) := by
  simp only [withTurn, if_neg hh]

theorem mem_askTurn (d : Dev) (t : ℕ) : t ∈ ((askTurn d t).cluster (t / 8)).reqs := by
  rw [askTurn, Dev.cluster_onCluster, if_pos rfl]
  split
  · next h => simpa using h
  · exact List.mem_append_right _ (List.mem_singleton_self t)

theorem leasedWord_go {α : Type} {i : Instr} {charged : Bool} {a : At} {d : Dev} {f : Dev → Res α}
    (ho : (d.tile a.t).core.lease.isOpen = true) (hc : charged = true → 0 < (d.tile a.t).core.lease.left)
    (hh : (d.cluster (a.t / 8)).holder = some a.t) (he : (d.cluster (a.t / 8)).expired = false) :
    leasedWord i charged a d f = f (d.leased a.t) := by
  have hleft : (charged && (d.tile a.t).core.lease.left == 0) = false := by
    cases charged with
    | false => rfl
    | true => simpa using Nat.pos_iff_ne_zero.mp (hc rfl)
  unfold leasedWord; dsimp only
  rw [ho, hleft, Bool.not_true, if_neg Bool.false_ne_true, if_neg Bool.false_ne_true, withTurn_go hh he]

theorem leasedWord_closed {α : Type} {i : Instr} {charged : Bool} {a : At} {d : Dev} {f : Dev → Res α}
    (ho : (d.tile a.t).core.lease.isOpen = false) : leasedWord i charged a d f = leaseTrap d a i 1 := by
  unfold leasedWord; dsimp only
  rw [ho, Bool.not_false, if_pos rfl]

section
variable {s : State} {pc : Dword}

theorem isOpen_of_turn (ht : Claims.Turn s) : (iter s).lease.isOpen = true := by
  rw [Lease.isOpen, Bool.or_eq_true]; exact ht.1

/-- A leased word that finds its turn (R200 to R202). -/
theorem leasedWord_turn {α : Type} {i : Instr} {charged : Bool} {f : Dev → Res α} (ht : Claims.Turn s)
    (hc : charged = true → 0 < (iter s).lease.left) : leasedWord i charged (atM s pc) (foundM s) f = f (Claims.turned s) := by
  obtain ⟨-, hh, he⟩ := id ht
  refine leasedWord_go ?_ (fun h => ?_) ?_ ?_
  · rw [foundM_core]; exact isOpen_of_turn ht
  · rw [foundM_core]; exact hc h
  · rw [foundM_cluster]; exact hh
  · rw [foundM_cluster]; exact he

theorem turned_core (s : State) : ((Claims.turned s).tile s.env.unit).core =
    { iter s with lease := { (iter s).lease with held := true, trapped := false } } := by
  show (((foundM s).leased s.env.unit).tile s.env.unit).core = _
  rw [Dev.leased, onCore_core, foundM_core]

theorem turned_mem (s : State) : (Claims.turned s).mem = s.dev.mem := foundM_mem s

theorem turned_cluster (s : State) (c : ℕ) : (Claims.turned s).cluster c = s.dev.cluster c := foundM_cluster s c

/-- A word with the turn that leaves the device as it found it. -/
theorem wentOn_turned : Claims.WentOn s (wentOn s pc (Claims.turned s)) pc := wentOn_of (turned_mem s) (by rw [turned_core])

end

/-! ### LEASE and LREL (R198) -/

/-- The lease of a tile is open, with a budget. -/
def opened (t left : ℕ) (d : Dev) : Dev :=
  d.onCore t fun c => { c with lease := { c.lease with held := true, trapped := false, left := left } }

/-- The budget that LEASE n gives (R198). -/
def budgetOf (s : State) (n : BitVec 18) : ℕ := min n.toNat (min (iter s).lease.cap (s.dev.cluster (s.env.unit / 8)).lcap.toNat)

section
variable {s : State} {pc : Dword} {n : BitVec 18}

theorem leaseWord_held (hheld : (iter s).lease.held = true) :
    leaseWord n (atM s pc) (foundM s) = .ok () (opened s.env.unit (budgetOf s n) (foundM s)) := by
  unfold leaseWord; dsimp only
  rw [foundM_core, foundM_cluster, hheld, if_pos rfl]
  rfl

theorem leaseWord_turn (hheld : (iter s).lease.held = false) (hh : (s.dev.cluster (s.env.unit / 8)).holder = some s.env.unit)
    (he : (s.dev.cluster (s.env.unit / 8)).expired = false) :
    leaseWord n (atM s pc) (foundM s) = .ok () (opened s.env.unit (budgetOf s n) ((foundM s).leased s.env.unit)) := by
  unfold leaseWord; dsimp only
  rw [foundM_core, foundM_cluster, hheld, if_neg Bool.false_ne_true,
    withTurn_go ((congrArg _ (foundM_cluster ..)).trans hh) ((congrArg _ (foundM_cluster ..)).trans he)]
  rfl

theorem leaseWord_asks (hheld : (iter s).lease.held = false) (hh : (s.dev.cluster (s.env.unit / 8)).holder ≠ some s.env.unit) :
    leaseWord n (atM s pc) (foundM s) = .wait Wait.idle (askTurn (foundM s) s.env.unit) := by
  unfold leaseWord; dsimp only
  rw [foundM_core, hheld, if_neg Bool.false_ne_true, withTurn_asks (by rw [foundM_cluster]; exact hh)]

variable (h : Stands s .m pc false)
include h

theorem exec_lease (hgo : (iter s).lease.held = true ∨
      ((s.dev.cluster (s.env.unit / 8)).holder = some s.env.unit ∧ (s.dev.cluster (s.env.unit / 8)).expired = false)) :
    ∃ t, exec (.lease n) s = .next t ∧ Claims.WentOn s t pc ∧ (iter t).lease.held = true ∧ (iter t).lease.left = budgetOf s n := by
  have hopened {d : Dev} (hm : d.mem = s.dev.mem) (hr : (d.tile s.env.unit).core.regs = (iter s).regs)
      (hd : leaseWord n (atM s pc) (foundM s) = .ok () (opened s.env.unit (budgetOf s n) d)) :
      ∃ t, exec (.lease n) s = .next t ∧ Claims.WentOn s t pc ∧ (iter t).lease.held = true ∧ (iter t).lease.left = budgetOf s n := by
    have hcore : ((opened s.env.unit (budgetOf s n) d).tile s.env.unit).core = { (d.tile s.env.unit).core with
        lease := { (d.tile s.env.unit).core.lease with held := true, trapped := false, left := budgetOf s n } } := onCore_core ..
    refine ⟨_, mTry_ok h (f := fun _ => leaseWord n) hd, wentOn_of hm ?_, ?_, ?_⟩
    · rw [hcore]; exact hr
    · rw [wentOn_lease, hcore]
    · rw [wentOn_lease, hcore]
  by_cases hheld : (iter s).lease.held = true
  · exact hopened (foundM_mem s) (by rw [foundM_core]) (leaseWord_held hheld)
  · obtain ⟨hh, he⟩ := hgo.resolve_left hheld
    exact hopened (d := Claims.turned s) (turned_mem s) (by rw [turned_core]) (leaseWord_turn (Bool.eq_false_iff.mpr hheld) hh he)

theorem exec_lease_asks (hheld : (iter s).lease.held = false) (hh : (s.dev.cluster (s.env.unit / 8)).holder ≠ some s.env.unit) :
    ∃ t, exec (.lease n) s = .next t ∧ (iter t).lease = (iter s).lease ∧ ((iter t).engine .m).pc = ((iter s).engine .m).pc ∧
      s.env.unit ∈ (t.dev.cluster (s.env.unit / 8)).reqs := by
  have hcore : ((askTurn (foundM s) s.env.unit).tile s.env.unit).core = iter s := foundM_core s
  refine ⟨_, mTry_wait h (f := fun _ => leaseWord n) (leaseWord_asks hheld hh), ?_, ?_, ?_⟩
  · rw [waitsM_lease, hcore]
  · rw [waitsM_pc, hcore]
  · rw [waitsM_cluster]; exact mem_askTurn ..

theorem exec_lrel_none (hheld : (iter s).lease.held = false) (htrap : (iter s).lease.trapped = false) :
    ∃ t, exec .lrel s = .next t ∧ Claims.WentOn s t pc ∧ (iter t).lease = (iter s).lease := by
  have hdone : lrelWord (atM s pc) (foundM s) = .ok () (foundM s) := by
    unfold lrelWord; dsimp only
    rw [foundM_core, hheld, htrap, if_neg Bool.false_ne_true, if_neg Bool.false_ne_true]
  refine ⟨_, mTry_ok h (f := fun _ => lrelWord) hdone, wentOn_of (foundM_mem s) (by rw [foundM_core]), ?_⟩
  rw [wentOn_lease, foundM_core]

theorem exec_lrel_ends (hheld : (iter s).lease.held = true) (hidle : mIdle s.dev s.env.unit = true) :
    ∃ t, exec .lrel s = .next t ∧ Claims.WentOn s t pc ∧ (iter t).lease.held = false ∧
      (t.dev.cluster (s.env.unit / 8)).holder ≠ some s.env.unit := by
  have hidle' : mIdle (foundM s) s.env.unit = true := (mIdle_congr (by rw [foundM_cluster])).trans hidle
  have hdone : lrelWord (atM s pc) (foundM s) = .ok () (endLease (foundM s) s.env.unit 1) := by
    unfold lrelWord; dsimp only
    rw [foundM_core, hheld, hidle', if_pos rfl, if_pos rfl]
  obtain ⟨hcore, hnot, -⟩ := endLease_core (foundM s) s.env.unit 1
  refine ⟨_, mTry_ok h (f := fun _ => lrelWord) hdone, wentOn_of ((endTurn_mem ..).trans (foundM_mem s)) ?_, ?_, ?_⟩
  · rw [hcore, foundM_core]
  · rw [wentOn_lease, hnot]
  · rw [wentOn_cluster]; exact endTurn_holder_ne (foundM s) s.env.unit 1

/-- A leased word with no lease traps (R200). -/
theorem leased_traps {i : Instr} {f : At → Dev → Res Unit} {w : Word} (hw : encode i = some w)
    (hi : exec i s = mTry i (fun _ a d => leasedWord i false a d (f a)) s) (hheld : (iter s).lease.held = false)
    (htrap : (iter s).lease.trapped = false) :
    exec i s = .next (withDev s (enterTrap s.env s.dev s.env.unit .m pc 0x06 1 (BitVec.ofNat 64 (iter s).lease.left) (w.setWidth 64) 0)) := by
  refine hi.trans (mTry_trap h ?_)
  rw [leasedWord_closed (by rw [foundM_core, Lease.isOpen, hheld, htrap]; rfl), leaseTrap, foundM_core, hw]
  rfl

end

/-! ### RWAIT, RDROP and MNOTIFY (R218, R219) -/

/-- RWAIT free once M has its turn (R218). -/
def rwaitFreeWord (a : At) (d : Dev) : Res Unit := if (d.cluster (a.t / 8)).nextFree.isSome then .ok () d else .wait Wait.idle d

/-- RWAIT slot once M has its turn (R218). -/
def rwaitSlotWord (z : BitVec 3) (a : At) (d : Dev) : Res Unit :=
  let x := (d.cluster (a.t / 8)).slot z.toNat
  if x.st == .closed || x.st == .draining then .wait Wait.idle d else .ok () d

/-- RDROP once M has its turn (R218). -/
def rdropWord (a : At) (d : Dev) : Res Unit :=
  match (d.tile a.t).core.head with
  | none => .ok () d
  | some z => .ok () (pushMq (d.onCore a.t fun y => { y with head := none }) a.t (.drop z))

section
variable {s : State} {pc : Dword} (h : Stands s .m pc false) (ht : Claims.Turn s)
include h ht

/-- A leased word that costs no budget, once it has its turn. -/
theorem leased_ok {i : Instr} {f : At → Dev → Res Unit} {d : Dev} (hf : f (atM s pc) (Claims.turned s) = .ok () d) :
    mTry i (fun _ a d => leasedWord i false a d (f a)) s = .next (wentOn s pc d) :=
  mTry_ok h (f := fun _ a d => leasedWord i false a d (f a)) ((leasedWord_turn (charged := false) ht nofun).trans hf)

theorem exec_rwaitFree (hfree : (s.dev.cluster (s.env.unit / 8)).nextFree.isSome = true) :
    ∃ t, exec .rwaitFree s = .next t ∧ Claims.WentOn s t pc := by
  refine ⟨_, leased_ok h ht (f := rwaitFreeWord) (d := Claims.turned s) ?_, wentOn_turned⟩
  rw [rwaitFreeWord, turned_cluster, hfree, if_pos rfl]

theorem exec_rwaitSlot {z : BitVec 3} (hclosed : ((s.dev.cluster (s.env.unit / 8)).slot z.toNat).st ≠ .closed)
    (hdraining : ((s.dev.cluster (s.env.unit / 8)).slot z.toNat).st ≠ .draining) :
    ∃ t, exec (.rwaitSlot z) s = .next t ∧ Claims.WentOn s t pc := by
  refine ⟨_, leased_ok h ht (f := rwaitSlotWord z) (d := Claims.turned s) ?_, wentOn_turned⟩
  unfold rwaitSlotWord; dsimp only
  rw [turned_cluster, if_neg (by simp [hclosed, hdraining])]

theorem exec_rdrop_none (hhead : (iter s).head = none) :
    ∃ t, exec .rdrop s = .next t ∧ Claims.WentOn s t pc ∧
      (t.dev.cluster (s.env.unit / 8)).slots = (s.dev.cluster (s.env.unit / 8)).slots := by
  refine ⟨_, leased_ok h ht (f := rdropWord) (d := Claims.turned s) ?_, wentOn_turned, ?_⟩
  · rw [rdropWord, turned_core, hhead]
  · rw [wentOn_cluster, turned_cluster]

end

/-- The head of a tile is given up. -/
def Dev.headless (d : Dev) (t : ℕ) : Dev := d.onCore t fun y => { y with head := none }

theorem headless_core (d : Dev) (t : ℕ) : ((d.headless t).tile t).core = { (d.tile t).core with head := none } := by
  rw [Dev.headless, onCore_core]

theorem exec_rdrop_free {s : State} {pc : Dword} {z : BitVec 3} (h : Stands s .m pc false) (ht : Claims.Turn s)
    (hhead : (iter s).head = some z) (hfree : ∀ m ∈ (s.dev.cluster (s.env.unit / 8)).mq, m.tile ≠ s.env.unit) :
    ∃ t, exec .rdrop s = .next t ∧ Claims.WentOn s t pc ∧ (iter t).head = none ∧
      ((t.dev.cluster (s.env.unit / 8)).slot z.toNat).st = .free := by
  refine ⟨_, leased_ok h ht (f := rdropWord) (d := pushMq ((Claims.turned s).headless s.env.unit) s.env.unit (.drop z)) ?_,
    wentOn_of (turned_mem s) ?_, ?_, ?_⟩
  · rw [rdropWord, turned_core, hhead]; rfl
  · rw [pushMq_core, headless_core, turned_core]
  · rw [wentOn_head, pushMq_core, headless_core]
  · have hk : ((Claims.turned s).headless s.env.unit).cluster (s.env.unit / 8) = s.dev.cluster (s.env.unit / 8) := turned_cluster ..
    rw [wentOn_cluster, pushMq_cluster, hk, settleOne_end rfl hfree]
    show (((settleMq _).freeSlot z.toNat).slot z.toNat).st = _
    rw [Cluster.slot_freeSlot _ z.isLt, if_pos rfl]

/-- MNOTIFY with its TAG (R219). -/
def noteTag (a : At) (x : Dword) (d : Dev) : Res Unit :=
  let c := (d.tile a.t).core
  .ok () (d.onCluster (a.t / 8) fun k => { k with notes := k.notes ++ [⟨a.t, c.iter.serial, (c.engine .m).walk, some x⟩] })

theorem exec_mnotify {s : State} {pc x : Dword} {l : List Dword} (h : Stands s .m pc false) (hq : (iter s).q.xm = x :: l) :
    ∃ t m, exec .mnotify s = .next t ∧ Claims.WentOn s t pc ∧ (iter t).q.xm = l ∧
      (t.dev.cluster (s.env.unit / 8)).notes = (s.dev.cluster (s.env.unit / 8)).notes ++ [m] ∧ m.tile = s.env.unit ∧ m.tag = some x := by
  have hcore : (((foundM s).onCore s.env.unit fun c => { c with q := { c.q with xm := l } }).tile s.env.unit).core =
      { iter s with q := { (iter s).q with xm := l } } := by rw [onCore_core, foundM_core]
  have hdone := mTry_ok h (i := .mnotify) (f := fun _ a d => popXm a d (noteTag a)) (popXm_head hq _)
  refine ⟨_, ⟨s.env.unit, (iter s).iter.serial, ((iter s).engine .m).walk, some x⟩, hdone, wentOn_of (foundM_mem s) ?_, ?_, ?_, rfl, rfl⟩
  · rw [Dev.tile_onCluster, hcore]
  · rw [wentOn_q, Dev.tile_onCluster, hcore]
  · rw [wentOn_cluster, Dev.cluster_onCluster, if_pos rfl, Dev.cluster_onCore, foundM_cluster, hcore]
    rfl

theorem leaseWords : Claims.LeaseWords := by
  intro s pc x l n z h k
  refine ⟨exec_lease h, exec_lease_asks h, fun hheld htrap => ⟨exec_lrel_none h hheld htrap, fun i hi w hw => ?_⟩, exec_lrel_ends h,
    fun ht => ⟨exec_rwaitFree h ht, exec_rwaitSlot h ht, exec_rdrop_none h ht, exec_rdrop_free h ht⟩, exec_mnotify h⟩
  simp only [List.mem_cons, List.not_mem_nil, or_false] at hi
  rcases hi with rfl | rfl | rfl
  · exact leased_traps h (f := rdropWord) hw rfl hheld htrap
  · exact leased_traps h (f := rwaitFreeWord) hw rfl hheld htrap
  · exact leased_traps h (f := rwaitSlotWord z) hw rfl hheld htrap

end Sys2Proof.Machine

namespace Sys2Proof.Machine

open Sys2Proof.Safety

/-! ### What the reads of a word of M leave as it stands (R207, R208)

The fetch unit moves timestamps, ways, tokens and pins. Memory, the clusters, and of the iteration all but the pins of its word stay. -/

theorem Quiet.prod {β γ : Type} {π : Dev → β} {ρ : Dev → γ} (h : Quiet π) (g : Quiet ρ) : Quiet fun d => (π d, ρ d) where
  tile d t f hf := Prod.ext (h.tile d t f hf) (g.tile d t f hf)
  slice d k x := Prod.ext (h.slice d k x) (g.slice d k x)
  event d t vf ev n := Prod.ext (h.event d t vf ev n) (g.event d t vf ev n)
  rest d mem past tlb later streams mig cores fqdrop frSeq :=
    Prod.ext (h.rest d mem past tlb later streams mig cores fqdrop frSeq) (g.rest d mem past tlb later streams mig cores fqdrop frSeq)

theorem quiet_clusters : Quiet Dev.clusters where
  tile _ _ _ _ := rfl
  slice _ _ _ := rfl
  event d t vf ev n := by rw [countEv_eq]
  rest _ _ _ _ _ _ _ _ _ _ := rfl

/-- An iteration but for the pins of M's word. -/
def TCore.unpinned (c : TCore) : TCore := { c with fuPins := [] }

theorem quiet_unpinned (t : ℕ) : Quiet fun d => (d.clusters, (d.tile t).core.unpinned) :=
  quiet_clusters.prod (quiet_tile (g := fun y => y.core.unpinned) (fun _ _ h => congrArg (·.2.2.unpinned) h.task_eq) t)

/-- What the reads of M's word on a tile leave as it stands. -/
def Dev.array (t : ℕ) (d : Dev) : List Host.Cell × NMap Cluster × TCore := (d.mem, d.clusters, (d.tile t).core.unpinned)

theorem array_mem {t : ℕ} {d e : Dev} (h : e.array t = d.array t) : e.mem = d.mem := congrArg (·.1) h

theorem array_cluster {t : ℕ} {d e : Dev} (h : e.array t = d.array t) (c : ℕ) : e.cluster c = d.cluster c := by
  rw [Dev.cluster, Dev.cluster, show e.clusters = d.clusters from congrArg (·.2.1) h]

theorem array_core {t : ℕ} {d e : Dev} (h : e.array t = d.array t) : (e.tile t).core.unpinned = (d.tile t).core.unpinned :=
  congrArg (·.2.2) h

section
variable (t : ℕ)

theorem locate_array (env : Env) (d : Dev) (w : Who) (k : AccKind) (va : Dword) : (locate env d w k va).Keeps (Dev.array t) d :=
  (locate_mem ..).prod (locate_quiet (quiet_unpinned t) ..)

theorem loadTs_array (env : Env) (d : Dev) (ag : Agent) (vf : BitVec 10) (cls : BitVec 4) (front : Bool) (loc : Loc) :
    (loadTs env d ag vf cls front loc).1.array t = d.array t :=
  Prod.ext (loadTs_same ..).1 (loadTs_quiet (quiet_unpinned t) ..)

/-- A change to a tile that keeps its iteration, but for the pins. -/
theorem onTile_array (d : Dev) (u : ℕ) {f : Tile → Tile} (hf : ∀ y, (f y).core.unpinned = y.core.unpinned) :
    (d.onTile u f).array t = d.array t := by
  refine Prod.ext rfl (Prod.ext rfl ?_)
  show ((d.onTile u f).tile t).core.unpinned = (d.tile t).core.unpinned
  rw [Dev.tile_onTile]
  split
  · next h => rw [h]; exact hf _
  · rfl

theorem payFrom_array {d e : Dev} {u k : ℕ} {loc : Loc} (h : payFrom d u k loc = some e) : e.array t = d.array t := by
  cases loc with
  | hbm pa =>
    simp only [payFrom] at h
    split at h
    · cases h; exact onTile_array t d u fun _ => rfl
    · exact Prod.ext (payToken_same h).1 (payToken_quiet (quiet_unpinned t) h)
  | spad v o => cases h; rfl
  | staging v o => cases h; rfl
  | port v => cases h; rfl

theorem fuPin_array {env : Env} {d e : Dev} {u : ℕ} {cls : BitVec 4} {loc : Loc} (h : fuPin env d u cls loc = some e) :
    e.array t = d.array t := by
  cases loc with
  | hbm pa =>
    simp only [fuPin, l2Pin] at h
    split at h
    · cases h
      exact onTile_array t (pinLine env d (pa / 128) fun p => cls :: p) u fun _ => rfl
    · cases h
  | spad v o => cases h; exact onTile_array t d u fun _ => rfl
  | staging v o => cases h; exact onTile_array t d u fun _ => rfl
  | port v => cases h; rfl

theorem fuUnit_array (env : Env) (u : ℕ) (w : Who) (m : FuMode) (loc : Loc) (cls : BitVec 4) (k : ℕ) (d : Dev) :
    (fuUnit env u w m loc cls k d).Keeps (Dev.array t) d := by
  have hpay {d1 : Dev} (h : (match m.pay with | some k => payFrom d u k loc | none => some d) = some d1) : d1.array t = d.array t := by
    split at h
    · exact payFrom_array t h
    · cases h; rfl
  have hpin {d2 d3 : Dev} (h : (if m.pin then fuPin env d2 u cls loc else some d2) = some d3) : d3.array t = d2.array t := by
    split at h
    · exact fuPin_array t h
    · cases h; rfl
  unfold fuUnit
  split
  · exact Eq.refl _
  · split
    · exact Eq.refl _
    · next d1 h1 =>
      have hload := (loadTs_array t env d1 (.tile u 5) w.vf cls m.front loc).trans (hpay h1)
      dsimp only [loadHint]
      split
      · exact hload
      · next d3 h3 => exact (hpin h3).trans hload

theorem fuRead_array (env : Env) (u : ℕ) (w : Who) (m : FuMode) (f : ℕ) (d : Dev) (va : Dword) (n : ℕ) :
    (fuRead env u w m f d va n).Keeps (Dev.array t) d := by
  induction f generalizing d va n with
  | zero => exact Eq.refl _
  | succ f ih =>
    unfold fuRead
    split
    · exact Eq.refl _
    · exact (locate_array t ..).bind fun x d1 => (fuUnit_array t ..).bind fun b d2 => (ih ..).bind fun c d3 => Eq.refl _

theorem mRead_array (env : Env) (u : ℕ) (d : Dev) (va n : ℕ) : (mRead env u d va n).Keeps (Dev.array t) d :=
  (fuRead_array t ..).bind fun _ _ => Eq.refl _

theorem mFetch_array (env : Env) (u : ℕ) (r : Row) (d : Dev) (va n : ℕ) : (mFetch env u r d va n).Keeps (Dev.array t) d :=
  fuRead_array t ..

theorem readAll_array {α β : Type} {f : α → Dev → Res β} (hf : ∀ x d, (f x d).Keeps (Dev.array t) d) (l : List α) (d : Dev) :
    (readAll f l d).Keeps (Dev.array t) d := by
  induction l generalizing d with
  | nil => exact Eq.refl _
  | cons x r ih => exact (hf x d).bind fun y d1 => (ih d1).bind fun _ _ => Eq.refl _

theorem readInit_array (env : Env) (a : At) (r : Row) (org ext : List ℕ) (d : Dev) : (readInit env a r org ext d).Keeps (Dev.array t) d :=
  (readAll_array t (fun _ _ => mFetch_array t ..) _ d).bind fun _ _ => Eq.refl _

theorem readCore_array (env : Env) (a : At) (r : Row) (ba nn m bond : ℕ) (d : Dev) :
    (readCore env a r ba nn m bond d).Keeps (Dev.array t) d :=
  (readAll_array t (fun _ _ => mFetch_array t ..) _ d).bind fun _ _ => Eq.refl _

end

/-! ### RCLOSE (R215) -/

/-- The tensors of a descriptor that passes the checks. -/
theorem rakeTensors_ok {i : Instr} {tids : Vector (Option Row) 256} {r : Row} {m n : ℕ} {a : At} {d : Dev} {f : Option Row → Option Row → Res Unit}
    (hdest : r.getLsbD 16 = false → ∃ t, tidOf tids (rdDtid r) = some t ∧ tWritable t = true ∧ tFmt t = rdOfmt r ∧ rdBoxOk r t m n = true)
    (hscale : rdSbtid r ≠ 0 → ∃ t, tidOf tids (rdSbtid r) = some t ∧ tFmt t = 0 ∧ 2 ≤ tRank t ∧ 2 ≤ tSize t 1 ∧ rdSborg r + n ≤ tSize t 0) :
    ∃ sb dt, rakeTensors i tids r m n a d f = f sb dt := by
  have hs (dt : Option Row) : ∃ sb, (if rdSbtid r = 0 then f none dt else
      match tidOf tids (rdSbtid r) with
      | none => mTensor 15 0
      | some t =>
        if tFmt t != 0 || tRank t < 2 || tSize t 1 < 2 then mTensor 15 0
        else if tSize t 0 < rdSborg r + n then mShape d a i 14
        else f (some t) dt) = f sb dt := by
    by_cases h0 : rdSbtid r = 0
    · exact ⟨none, if_pos h0⟩
    · obtain ⟨t, htid, hfmt, hrank, hsize, hbox⟩ := hscale h0
      have hgood : (tFmt t != 0 || decide (tRank t < 2) || decide (tSize t 1 < 2)) = false := by simp; omega
      refine ⟨some t, ?_⟩
      rw [if_neg h0, htid]; dsimp only
      rw [hgood, if_neg Bool.false_ne_true, if_neg (by omega)]
  unfold rakeTensors; dsimp only
  cases h16 : r.getLsbD 16 with
  | true =>
    obtain ⟨sb, hsb⟩ := hs none
    exact ⟨sb, none, hsb⟩
  | false =>
    obtain ⟨t, htid, hwrite, hfmt, hbox⟩ := hdest h16
    obtain ⟨sb, hsb⟩ := hs (some t)
    refine ⟨sb, some t, ?_⟩
    rw [if_neg Bool.false_ne_true, htid]; dsimp only
    rw [if_neg (by simp [hwrite, hfmt]), if_neg (by simp [hbox])]
    exact hsb

section
variable {s : State} {pc : Dword} {cr : BitVec 4} {h : BitVec 3} {b : List Byte} {d2 : Dev}

/-- What RCLOSE leaves once its descriptor has been read and passes the checks (R215): the head given up, and its close in the array's
order. -/
theorem rcloseWord_ok (ht : Claims.Turn s) (hhead : (iter s).head = some h) (hva : ((iter s).c cr).toNat % 2 ^ 55 % 64 = 0)
    (hread : mRead s.env s.env.unit (Claims.turned s) (((iter s).c cr).toNat % 2 ^ 55) 64 = .ok b d2) (hbad : rdBad (rowOf b) = false)
    (htensors : ∀ f, ∃ sb dt, rakeTensors (.rclose cr) (iter s).tids (rowOf b) ((d2.cluster (s.env.unit / 8)).slot h.toNat).m
      ((d2.cluster (s.env.unit / 8)).slot h.toNat).n (atM s pc) d2 f = f sb dt) :
    ∃ j, j.desc = rowOf b ∧ rcloseWord cr s.env (atM s pc) (foundM s) =
      .ok () (pushMq (d2.onCore s.env.unit fun y => { y with head := none, closed := true }) s.env.unit (.close h j)) := by
  have hbits : bitsN ((iter s).c cr) 0 55 = ((iter s).c cr).toNat % 2 ^ 55 := bitsN_zero ..
  have hc : ((Claims.turned s).tile s.env.unit).core.c cr = (iter s).c cr := by rw [turned_core]; rfl
  have hh : ((Claims.turned s).tile s.env.unit).core.head = some h := by rw [turned_core]; exact hhead
  have htids : ((Claims.turned s).tile s.env.unit).core.tids = (iter s).tids := by rw [turned_core]
  unfold rcloseWord
  rw [leasedWord_turn (charged := false) ht nofun]; dsimp only
  rw [hc, hh, htids, hbits, hva, if_neg (by decide), if_neg (by simp), hread]
  dsimp only [reading, Res.bind]
  rw [hbad, if_neg Bool.false_ne_true]
  obtain ⟨sb, dt, htens⟩ := htensors _
  exact ⟨_, rfl, htens⟩

end

theorem closeWord : Claims.CloseWord := by
  intro s pc cr h b d2 hstands ht hfence hhead va k r hva hread hbad hdest hscale
  have hkeep : d2.array s.env.unit = (Claims.turned s).array s.env.unit := (mRead_array s.env.unit ..).ok hread
  have hk : d2.cluster (s.env.unit / 8) = k := (array_cluster hkeep _).trans (turned_cluster ..)
  have hregs : (d2.tile s.env.unit).core.regs = (iter s).regs :=
    (congrArg TCore.regs (array_core hkeep)).trans (by rw [turned_core]; rfl)
  obtain ⟨j, hdesc, hword⟩ := rcloseWord_ok (pc := pc) ht hhead hva hread hbad fun f =>
    rakeTensors_ok (by rw [hk]; exact hdest) (by rw [hk]; exact hscale)
  have hcore := (pushMq_core _ s.env.unit (.close h j)).trans
    (congrArg TCore.unpinned (onCore_core d2 s.env.unit fun y => { y with head := none, closed := true }))
  refine ⟨_, mFenced_ok hstands hfence hword, wentOn_of ((array_mem hkeep).trans (turned_mem s)) ?_, ?_, ?_, fun hfree => ?_, fun hbusy => ?_⟩
  · rw [hcore]; exact hregs
  · rw [wentOn_head, hcore]; rfl
  · rw [wentOn_closed, hcore]; rfl
  · rw [wentOn_cluster, pushMq_cluster, Dev.cluster_onCore, hk, settleOne_end rfl hfree]
    show (((settleMq k).setSlot h.toNat _).slot h.toNat).st = _
    rw [Cluster.slot_setSlot _ h.isLt, if_pos rfl]
  · rw [wentOn_cluster, pushMq_cluster, Dev.cluster_onCore, hk]
    exact ⟨_, settleOne_behind hbusy, rfl, j, rfl, hdesc⟩

/-- Settles O39: the lease by what LEASE and LREL leave of it (`exec_lease`, `exec_lrel_ends`), a word without one by its trap
(`leased_traps`), the heads by what a close or a drop does in the array's order (`settleOne_end`, `settleOne_behind`). -/
theorem leaseAndCloseWords : Obligations.LeaseAndCloseWords := ⟨leaseWords, closeWord⟩

end Sys2Proof.Machine

namespace Sys2Proof.Machine

open Sys2Proof.Safety

/-! ### Reads know nothing of CHAIN's check (R355)

A CHAIN word notes that it has checked the budget. What it reads afterwards is what it would read without the note. -/

/-- An iteration with no note of a CHAIN word's check. -/
def TCore.unchecked (c : TCore) : TCore := { c with chainOk := false }

/-- A tile with no such note. -/
def Tile.unchecked (y : Tile) : Tile := { y with core := y.core.unchecked }

/-- The device with no such note on any tile. -/
def Dev.unchecked (d : Dev) : Dev := { d with tiles := ⟨d.tiles.entries.map fun e => (e.1, e.2.unchecked)⟩ }

/-- The outcome of an attempt with no such note. -/
def Res.unchecked {α : Type} : Res α → Res α
  | .ok x d => .ok x d.unchecked
  | .wait w d => .wait w d.unchecked
  | .trap c i0 i1 i2 i3 => .trap c i0 i1 i2 i3
  | .sys c va => .sys c va
  | .roll c => .roll c

theorem Res.unchecked_bind {α β : Type} (r : Res α) {f : α → Dev → Res β} (hf : ∀ x d, f x d.unchecked = (f x d).unchecked) :
    r.unchecked.bind f = (r.bind f).unchecked := by
  cases r with
  | ok x d => exact hf x d
  | wait w d => rfl
  | trap c i0 i1 i2 i3 => rfl
  | sys c va => rfl
  | roll c => rfl

/-- An attempt that is done on a device is done on one that differs in such notes alone, with the same value. -/
theorem Res.ok_of_unchecked {α : Type} {r q : Res α} {x : α} {d : Dev} (h : r.unchecked = q.unchecked) (hr : r = .ok x d) :
    ∃ e, q = .ok x e ∧ e.unchecked = d.unchecked := by
  subst hr
  cases q with
  | ok y e =>
    obtain ⟨rfl, he⟩ := Res.ok.inj h
    exact ⟨e, rfl, he.symm⟩
  | wait w e => exact nomatch h
  | trap c i0 i1 i2 i3 => exact nomatch h
  | sys c va => exact nomatch h
  | roll c => exact nomatch h

@[simp] theorem tile_unchecked (d : Dev) (t : ℕ) : d.unchecked.tile t = (d.tile t).unchecked := by
  show (lookupN t (d.tiles.entries.map fun e => (e.1, e.2.unchecked))).getD {} = ((lookupN t d.tiles.entries).getD {}).unchecked
  rw [lookupN_map Tile.unchecked]
  cases lookupN t d.tiles.entries <;> rfl

theorem insertN_map {α : Type} (g : α → α) (k : ℕ) (x : α) (l : List (ℕ × α)) :
    insertN k (g x) (l.map fun e => (e.1, g e.2)) = (insertN k x l).map fun e => (e.1, g e.2) := by
  induction l with
  | nil => rfl
  | cons e r ih =>
    simp only [List.map_cons, insertN]
    split
    · rfl
    · split
      · rfl
      · rw [ih]; rfl

theorem setTile_unchecked (d : Dev) (t : ℕ) (y : Tile) : d.unchecked.setTile t y.unchecked = (d.setTile t y).unchecked := by
  have h := insertN_map Tile.unchecked t y d.tiles.entries
  simp only [Dev.setTile, Dev.unchecked, NMap.set, h]

theorem onTile_unchecked (d : Dev) (t : ℕ) {f : Tile → Tile} (hf : ∀ y, f y.unchecked = (f y).unchecked) :
    d.unchecked.onTile t f = (d.onTile t f).unchecked := by
  rw [Dev.onTile, tile_unchecked, hf, setTile_unchecked]; rfl

/-! #### Translation -/

theorem translate_unchecked (env : Env) (d : Dev) (w : Who) (k : AccKind) (va : Dword) :
    translate env d.unchecked w k va = translate env d w k va := by
  have hwin : windowLoc env d.unchecked w k va.toNat = windowLoc env d w k va.toNat := by
    unfold windowLoc; simp only [tile_unchecked]; rfl
  unfold translate
  rw [hwin]; rfl

theorem keepTlb_unchecked (env : Env) (d : Dev) (w : Who) (va : Dword) : keepTlb env d.unchecked w va = (keepTlb env d w va).unchecked := by
  unfold keepTlb
  rw [show leafFor env d.unchecked w.unit w.asid va = leafFor env d w.unit w.asid va from rfl]
  split
  · rfl
  · split <;> rfl

theorem locate_unchecked (env : Env) (d : Dev) (w : Who) (k : AccKind) (va : Dword) :
    locate env d.unchecked w k va = (locate env d w k va).unchecked := by
  unfold locate
  rw [translate_unchecked]
  split
  · rw [keepTlb_unchecked]; rfl
  · rfl
  · unfold startPromo
    split
    · next h => rw [if_pos (show (d.mig.promos.any _) = true from h)]; rfl
    · next h => rw [if_neg (show ¬ (d.mig.promos.any _) = true from h)]; rfl
  · rfl
  · rfl

/-! #### Timestamps and tokens -/

theorem getPts_unchecked (d : Dev) (ag : Agent) : getPts d.unchecked ag = getPts d ag := by
  cases ag with
  | tile t p => simp only [getPts, tile_unchecked]; rfl
  | core n => rfl
  | stream k => rfl
  | stamp x => rfl
  | none => rfl

theorem setPts_unchecked (d : Dev) (ag : Agent) (x : Dword) : setPts d.unchecked ag x = (setPts d ag x).unchecked := by
  cases ag with
  | tile t p => exact onTile_unchecked d t (f := fun y => { y with pts := vset y.pts p x }) fun _ => rfl
  | core n => rfl
  | stream k => rfl
  | stamp x => rfl
  | none => rfl

theorem countEv_unchecked (d : Dev) (t : ℕ) (vf : BitVec 10) (ev n : ℕ) : countEv d.unchecked t vf ev n = (countEv d t vf ev n).unchecked := by
  unfold countEv
  rw [tile_unchecked]
  simp only [show d.unchecked.vf vf.toNat = d.vf vf.toNat from rfl, show (d.tile t).unchecked.dbg = (d.tile t).dbg from rfl]
  split <;> rfl

theorem l2Touch_unchecked (env : Env) (d : Dev) (t pa : ℕ) (vf : BitVec 10) (cls : BitVec 4) (front : Bool) :
    l2Touch env d.unchecked t pa vf cls front =
      ((l2Touch env d t pa vf cls front).1, (l2Touch env d t pa vf cls front).2.1, (l2Touch env d t pa vf cls front).2.2.unchecked) := by
  have hs (k : ℕ) (x : Slice) : d.unchecked.setSlice k x = (d.setSlice k x).unchecked := rfl
  unfold l2Touch
  simp only [show ∀ k, d.unchecked.slice k = d.slice k from fun _ => rfl, show ∀ k, d.unchecked.frame k = d.frame k from fun _ => rfl, hs,
    countEv_unchecked]
  split
  · rfl
  · split <;> rfl

theorem l2Set_unchecked (env : Env) (d : Dev) (pa : ℕ) (kept : Bool) (wts rts : Dword) :
    l2Set env d.unchecked pa kept wts rts = (l2Set env d pa kept wts rts).unchecked := by
  unfold l2Set
  simp only [show ∀ k, d.unchecked.slice k = d.slice k from fun _ => rfl]
  split <;> rfl

theorem loadTs_unchecked (env : Env) (d : Dev) (ag : Agent) (vf : BitVec 10) (cls : BitVec 4) (front : Bool) (loc : Loc) :
    loadTs env d.unchecked ag vf cls front loc = ((loadTs env d ag vf cls front loc).1.unchecked, (loadTs env d ag vf cls front loc).2) := by
  cases loc with
  | hbm pa =>
    simp only [loadTs, l2Touch_unchecked, l2Set_unchecked, setPts_unchecked, getPts_unchecked]
    rfl
  | spad t o =>
    have hf (g : Tile → NMap (Dword × Dword)) (hg : ∀ y : Tile, g y.unchecked = g y) :
        d.unchecked.onTile t (fun y => { y with spTs := g y }) = (d.onTile t fun y => { y with spTs := g y }).unchecked :=
      onTile_unchecked d t fun y => by rw [hg]; rfl
    simp only [loadTs, tile_unchecked, getPts_unchecked]
    rw [hf _ fun _ => rfl, setPts_unchecked]
    rfl
  | staging s o => rfl
  | port v => rfl

theorem payToken_unchecked (d : Dev) (t : ℕ) (loc : Loc) : payToken d.unchecked t loc = (payToken d t loc).map Dev.unchecked := by
  cases loc with
  | hbm pa =>
    simp only [payToken, tile_unchecked, show d.unchecked.share = d.share from rfl, show (d.tile t).unchecked.bucket = (d.tile t).bucket from rfl]
    split
    · split
      · rfl
      · exact congrArg some (onTile_unchecked d t fun _ => rfl)
    · rfl
  | spad u o => rfl
  | staging u o => rfl
  | port v => rfl

theorem payFrom_unchecked (d : Dev) (t k : ℕ) (loc : Loc) : payFrom d.unchecked t k loc = (payFrom d t k loc).map Dev.unchecked := by
  cases loc with
  | hbm pa =>
    simp only [payFrom, tile_unchecked, payToken_unchecked, show d.unchecked.share = d.share from rfl,
      show (d.tile t).unchecked.paid = (d.tile t).paid from rfl]
    split
    · exact congrArg some (onTile_unchecked d t fun _ => rfl)
    · rfl
  | spad u o => rfl
  | staging u o => rfl
  | port v => rfl

theorem readBytes_unchecked (env : Env) (d : Dev) (ag : Agent) (loc : Loc) (n : ℕ) :
    readBytes env d.unchecked ag loc n = readBytes env d ag loc n := by
  have hopen (w : Past) (t p : ℕ) : w.open_ d.unchecked t p = w.open_ d t p := by
    unfold Past.open_; rw [tile_unchecked]; rfl
  cases ag with
  | tile t p => simp only [readBytes, pathByte, hopen]; rfl
  | core n => rfl
  | stream k => rfl
  | stamp x => rfl
  | none => rfl

/-! #### The fetch unit -/

theorem fuPin_unchecked (env : Env) (d : Dev) (t : ℕ) (cls : BitVec 4) (loc : Loc) :
    fuPin env d.unchecked t cls loc = (fuPin env d t cls loc).map Dev.unchecked := by
  have hnote (e : Dev) (x : Loc × BitVec 4) : e.unchecked.onCore t (fun c => { c with fuPins := x :: c.fuPins }) =
      (e.onCore t fun c => { c with fuPins := x :: c.fuPins }).unchecked := onTile_unchecked e t fun _ => rfl
  cases loc with
  | hbm pa =>
    have hpin : l2Pin env d.unchecked pa cls = (l2Pin env d pa cls).map Dev.unchecked := by
      unfold l2Pin
      simp only [show ∀ k, d.unchecked.slice k = d.slice k from fun _ => rfl]
      split <;> rfl
    simp only [fuPin, hpin]
    cases l2Pin env d pa cls with
    | none => rfl
    | some e => exact congrArg some (hnote ..)
  | spad u o => exact congrArg some (hnote ..)
  | staging u o => exact congrArg some (hnote ..)
  | port v => rfl

/-- A unit of coherence that has been paid for is filled and pinned (R208). -/
def fuFill (env : Env) (t : ℕ) (w : Who) (m : FuMode) (loc : Loc) (cls : BitVec 4) (k : ℕ) (d : Dev) : Res (List Byte) :=
  let (b, d2) := loadHint env d (.tile t 5) w.vf cls m.front loc k
  match (if m.pin then fuPin env d2 t cls loc else some d2) with
  | none => .wait Wait.idle d2
  | some d3 => .ok b d3

theorem fuUnit_eq (env : Env) (t : ℕ) (w : Who) (m : FuMode) (loc : Loc) (cls : BitVec 4) (k : ℕ) (d : Dev) :
    fuUnit env t w m loc cls k d =
      if m.pin && ((d.tile t).core.fuPins.any fun p => p.1 == loc.base) then .ok (readBytes env d (.tile t 5) loc k) d else
      match m.pay.elim (some d) (fun q => payFrom d t q loc) with
      | none => .wait Wait.share d
      | some d1 => fuFill env t w m loc cls k d1 := by
  unfold fuUnit
  cases m.pay <;> rfl

theorem fuUnit_unchecked (env : Env) (t : ℕ) (w : Who) (m : FuMode) (loc : Loc) (cls : BitVec 4) (k : ℕ) (d : Dev) :
    fuUnit env t w m loc cls k d.unchecked = (fuUnit env t w m loc cls k d).unchecked := by
  have hpin (e : Dev) : (if m.pin then fuPin env e.unchecked t cls loc else some e.unchecked) =
      (if m.pin then fuPin env e t cls loc else some e).map Dev.unchecked := by
    split
    · exact fuPin_unchecked ..
    · rfl
  have hfill (d1 : Dev) : fuFill env t w m loc cls k d1.unchecked = (fuFill env t w m loc cls k d1).unchecked := by
    simp only [fuFill, loadHint, loadTs_unchecked, readBytes_unchecked, hpin]
    cases (if m.pin then fuPin env (loadTs env d1 (.tile t 5) w.vf cls m.front loc).1 t cls loc
      else some (loadTs env d1 (.tile t 5) w.vf cls m.front loc).1) <;> rfl
  rw [fuUnit_eq, fuUnit_eq, tile_unchecked, readBytes_unchecked]
  simp only [show (d.tile t).unchecked.core.fuPins = (d.tile t).core.fuPins from rfl]
  split
  · rfl
  · cases m.pay with
    | none => exact hfill d
    | some q =>
      rw [show (some q).elim (some d.unchecked) (fun k => payFrom d.unchecked t k loc) = payFrom d.unchecked t q loc from rfl, payFrom_unchecked]
      show _ = Res.unchecked (match payFrom d t q loc with | none => _ | some d1 => _)
      cases payFrom d t q loc with
      | none => rfl
      | some d1 => exact hfill d1

theorem fuRead_unchecked (env : Env) (t : ℕ) (w : Who) (m : FuMode) (f : ℕ) (d : Dev) (va : Dword) (n : ℕ) :
    fuRead env t w m f d.unchecked va n = (fuRead env t w m f d va n).unchecked := by
  induction f generalizing d va n with
  | zero => rfl
  | succ f ih =>
    unfold fuRead
    split
    · rfl
    · rw [locate_unchecked]
      refine Res.unchecked_bind _ fun x d1 => ?_
      dsimp only
      rw [fuUnit_unchecked]
      refine Res.unchecked_bind _ fun b d2 => ?_
      rw [ih]
      exact Res.unchecked_bind _ fun _ _ => rfl

theorem whoM_unchecked (d : Dev) (t : ℕ) : whoM d.unchecked t = whoM d t := by
  unfold whoM whoEng whoTile
  simp only [tile_unchecked]
  rfl

theorem mRead_unchecked (env : Env) (t : ℕ) (d : Dev) (va n : ℕ) : mRead env t d.unchecked va n = (mRead env t d va n).unchecked := by
  unfold mRead fuBytes
  rw [whoM_unchecked, fuRead_unchecked]
  exact Res.unchecked_bind _ fun _ _ => rfl

theorem mFetch_unchecked (env : Env) (t : ℕ) (r : Row) (d : Dev) (va n : ℕ) : mFetch env t r d.unchecked va n = (mFetch env t r d va n).unchecked := by
  unfold mFetch
  rw [whoM_unchecked, fuRead_unchecked]

theorem readAll_unchecked {α β : Type} {f : α → Dev → Res β} (hf : ∀ x d, f x d.unchecked = (f x d).unchecked) (l : List α) (d : Dev) :
    readAll f l d.unchecked = (readAll f l d).unchecked := by
  induction l generalizing d with
  | nil => rfl
  | cons x r ih =>
    unfold readAll
    rw [hf]
    refine Res.unchecked_bind _ fun y d1 => ?_
    rw [ih]
    exact Res.unchecked_bind _ fun _ _ => rfl

theorem readInit_unchecked (env : Env) (a : At) (r : Row) (org ext : List ℕ) (d : Dev) :
    readInit env a r org ext d.unchecked = (readInit env a r org ext d).unchecked := by
  unfold readInit; dsimp only
  rw [readAll_unchecked fun _ _ => mFetch_unchecked ..]
  exact Res.unchecked_bind _ fun _ _ => rfl

theorem readCore_unchecked (env : Env) (a : At) (r : Row) (ba nn m bond : ℕ) (d : Dev) :
    readCore env a r ba nn m bond d.unchecked = (readCore env a r ba nn m bond d).unchecked := by
  unfold readCore; dsimp only
  rw [readAll_unchecked fun _ _ => mFetch_unchecked ..]
  exact Res.unchecked_bind _ fun _ _ => rfl

end Sys2Proof.Machine

namespace Sys2Proof.Machine

open Sys2Proof.Safety

/-! ### Chain words with the turn (R220 to R224) -/

theorem chainWord_go {α : Type} {i : Instr} {charged : Bool} {a : At} {d : Dev} {f : Dev → Res α}
    (ho : (d.tile a.t).core.lease.isOpen = true) (hc : charged = true → 0 < (d.tile a.t).core.lease.left)
    (hh : (d.cluster (a.t / 8)).holder = some a.t) (he : (d.cluster (a.t / 8)).expired = false) (hbusy : chainBusy d (a.t / 8) = false) :
    chainWord i charged a d f = f (d.leased a.t) := by
  rw [chainWord, leasedWord_go ho hc hh he, show chainBusy (d.leased a.t) (a.t / 8) = false from hbusy, if_neg Bool.false_ne_true]

/-- The tile has been charged for a command, which stands in the array's order. -/
def sent (d : Dev) (t : ℕ) (kind : MKind) : Dev := pushMq (charge d t) t kind

theorem sent_core (d : Dev) (t : ℕ) (kind : MKind) : ((sent d t kind).tile t).core =
    { (d.tile t).core with fuPins := [], lease := { (d.tile t).core.lease with left := (d.tile t).core.lease.left - 1 } } := by
  rw [sent, pushMq_core, charge, onCore_core]

theorem sent_order (d : Dev) (t : ℕ) {kind : MKind} (h : kind.isEnd = false) :
    ∃ m ∈ ((sent d t kind).cluster (t / 8)).mq, m.kind = kind ∧ m.tile = t := by
  rw [sent, pushMq_cluster]
  exact ⟨orderOf (charge d t) t kind, mem_settleOne_command h, rfl, rfl⟩

/-- A command of the unit's tile has been charged and stands in the array's order; memory is as it was. -/
def Took (s u : State) (kind : MKind) : Prop :=
  MemSame s u ∧ (iter u).lease.left = (iter s).lease.left - 1 ∧ ∃ m ∈ (u.dev.cluster (s.env.unit / 8)).mq, m.kind = kind ∧ m.tile = s.env.unit

/-- M has gone on from a word with its command queued. -/
def Queued (s : State) (pc : Dword) (i : Instr) (u : State) (kind : MKind) : Prop :=
  exec i s = .next u ∧ Claims.WentOn s u pc ∧ Took s u kind

section
variable {s : State} {pc : Dword}

theorem chainWord_turn {α : Type} {i : Instr} {charged : Bool} {f : Dev → Res α} (ht : Claims.Turn s)
    (hbusy : chainBusy s.dev (s.env.unit / 8) = false) (hc : charged = true → 0 < (iter s).lease.left) :
    chainWord i charged (atM s pc) (foundM s) f = f (Claims.turned s) := by
  rw [chainWord, leasedWord_turn ht hc, show chainBusy (Claims.turned s) (s.env.unit / 8) = false by rw [chainBusy, turned_cluster]; exact hbusy,
    if_neg Bool.false_ne_true]

variable (h : Stands s .m pc false)
include h

/-- M goes on with its command queued, where all before the charge left memory, the registers and the budget as they were. -/
theorem queued_sent {i : Instr} {f : Env → At → Dev → Res Unit} {kind : MKind} {d : Dev} (hi : exec i s = mFenced i f s)
    (hfence : (iter s).mfence.toNat ≤ ((iter s).engine .a).walk.toNat) (hkind : kind.isEnd = false)
    (hf : f s.env (atM s pc) (foundM s) = .ok () (sent d s.env.unit kind)) (hm : d.mem = s.dev.mem)
    (hregs : (d.tile s.env.unit).core.regs = (iter s).regs) (hleft : (d.tile s.env.unit).core.lease.left = (iter s).lease.left) :
    Queued s pc i (wentOn s pc (sent d s.env.unit kind)) kind := by
  refine ⟨hi.trans (mFenced_ok h hfence hf), wentOn_of hm ?_, walked_memSame hm, ?_, ?_⟩
  · rw [sent_core]; exact hregs
  · rw [wentOn_lease, sent_core]; exact congrArg (· - 1) hleft
  · rw [wentOn_cluster]; exact sent_order d s.env.unit hkind

end

/-! ### What the words check (R220 to R224) -/

theorem initCheck_ok {α : Type} {i : Instr} {idx : Dword} {t : Row} {org ext : List ℕ} {a : At} {d : Dev} {f : Res α}
    (hbox : initBad t org ext = false) (hfmt : tFmt t < 7) (hcap : ext.foldl (· * ·) 1 * 4 ≤ (d.tile a.t).core.csr.bcap.toNat * 256) :
    initCheck i idx t org ext a d f = f := by
  unfold initCheck; dsimp only
  rw [hbox, if_neg Bool.false_ne_true, if_neg (Nat.not_le.mpr hfmt), if_neg (Nat.not_lt.mpr hcap)]

theorem emitCheck_ok {α : Type} {i : Instr} {mn : ℕ × ℕ} {a : At} {d : Dev} {f : ℕ → Res α} {z : ℕ} (hm : mn.1 ≤ 256) (hn : mn.2 ≤ 256)
    (hhead : (d.tile a.t).core.head = none) (hz : (d.cluster (a.t / 8)).nextFree = some z) : emitCheck i mn a d f = f z := by
  unfold emitCheck
  rw [if_neg (by simp; omega), hhead, hz]; rfl

theorem openHead_core (d : Dev) (t z : ℕ) (acc : BitVec 2) (m n : ℕ) :
    ((openHead d t z acc m n).tile t).core = { (d.tile t).core with head := some (BitVec.ofNat 3 z) } := by
  rw [openHead, onCore_core, Dev.tile_onCluster]

/-! ### BDSET and CORD (R221) -/

section
variable {s : State} {pc : Dword} (h : Stands s .m pc false) (ht : Claims.Turn s)
include h ht

theorem exec_bdset {k : BitVec 4} {v : BitVec 16} (hv : v ≠ 0) :
    ∃ u, exec (.bdset k v) s = .next u ∧ Claims.WentOn s u pc ∧
      (iter u).csr = { (iter s).csr with bd := (iter s).csr.bd.setIfInBounds k.toNat v } := by
  have hdone := leased_ok h ht (i := .bdset k v) (f := fun a d => if v = 0 then mShape d a (.bdset k v) 13
    else .ok () (d.onCore a.t fun y => y.onCsr fun x => { x with bd := vset x.bd k.toNat v })) (if_neg hv)
  refine ⟨_, hdone, wentOn_of (turned_mem s) ?_, ?_⟩
  · rw [onCore_core, turned_core]; rfl
  · rw [wentOn_csr, onCore_core, turned_core]; rfl

variable (hbusy : chainBusy s.dev (s.env.unit / 8) = false)
include hbusy

theorem exec_cord (c : BitVec 4) : ∃ u, exec (.cord c) s = .next u ∧ Claims.WentOn s u pc ∧
    (iter u).csr = { (iter s).csr with cord := ((iter s).c c).setWidth 55, cstep := 0 } := by
  have hdone := mTry_ok h (i := .cord c) (f := fun _ a d => chainWord (.cord c) false a d fun d1 =>
    .ok () (d1.onCore a.t fun y => y.onCsr fun x => { x with cord := (y.c c).setWidth 55, cstep := 0 })) (chainWord_turn ht hbusy nofun)
  refine ⟨_, hdone, wentOn_of (turned_mem s) ?_, ?_⟩
  · rw [onCore_core, turned_core]; rfl
  · rw [wentOn_csr, onCore_core, turned_core]; rfl

/-! ### CINIT (R223) -/

variable (hfence : (iter s).mfence.toNat ≤ ((iter s).engine .a).walk.toNat) (hleft : 0 < (iter s).lease.left)
include hfence hleft

theorem exec_cinit {x : BitVec 8} {c : BitVec 4} {t : Row} {el : ReadBox} {d2 : Dev} (htid : tidOf (iter s).tids x.toNat = some t)
    (hbox : initBad t (fields4 ((iter s).c c)) (fields4 ((iter s).c (c + 1))) = false) (hfmt : tFmt t < 7)
    (hcap : (fields4 ((iter s).c (c + 1))).foldl (· * ·) 1 * 4 ≤ (iter s).csr.bcap.toNat * 256)
    (hread : readInit s.env (atM s pc) t (fields4 ((iter s).c c)) (fields4 ((iter s).c (c + 1))) (Claims.turned s) = .ok el d2) :
    ∃ u, Queued s pc (.cinit x c) u (.cinit (fields4 ((iter s).c (c + 1))) el) := by
  have hkeep := (readInit_array s.env.unit ..).ok hread
  have hword : cinitWord x c s.env (atM s pc) (foundM s) = .ok () (sent d2 s.env.unit (.cinit (fields4 ((iter s).c (c + 1))) el)) := by
    have hc (k : BitVec 4) : ((Claims.turned s).tile s.env.unit).core.c k = (iter s).c k := by rw [turned_core]; rfl
    have htids : ((Claims.turned s).tile s.env.unit).core.tids = (iter s).tids := by rw [turned_core]
    unfold cinitWord
    rw [chainWord_turn ht hbusy fun _ => hleft]; dsimp only
    rw [htids, htid]; dsimp only
    rw [hc, hc, initCheck_ok hbox hfmt (by rw [turned_core]; exact hcap), hread]
    rfl
  exact ⟨_, queued_sent h rfl hfence rfl hword ((array_mem hkeep).trans (turned_mem s))
    ((congrArg TCore.regs (array_core hkeep)).trans (by rw [turned_core]; rfl))
    ((congrArg (·.lease.left) (array_core hkeep)).trans (by rw [turned_core]; rfl))⟩

/-! ### CEMIT (R224) -/

theorem exec_cemit {z : ℕ} (hlost : bndLost s.dev s.env.unit = false) (hhead : (iter s).head = none)
    (hz : (s.dev.cluster (s.env.unit / 8)).nextFree = some z) :
    let b := (s.dev.cluster (s.env.unit / 8)).bnd
    let mn := emitShape b.ba b.bm.toList
    mn.1 ≤ 256 → mn.2 ≤ 256 → ∃ u, Queued s pc .cemit u (.emit (BitVec.ofNat 3 z)) ∧ (iter u).head = some (BitVec.ofNat 3 z) := by
  intro b mn hm hn
  have hword : cemitWord (atM s pc) (foundM s) =
      .ok () (sent (openHead (Claims.turned s) s.env.unit z 1 mn.1 mn.2) s.env.unit (.emit (BitVec.ofNat 3 z))) := by
    unfold cemitWord
    rw [chainWord_turn ht hbusy fun _ => hleft,
      show bndLost (Claims.turned s) s.env.unit = false by rw [bndLost, turned_cluster, turned_core]; exact hlost, if_neg Bool.false_ne_true]
    dsimp only
    rw [turned_cluster, emitCheck_ok hm hn (by rw [turned_core]; exact hhead) (by rw [turned_cluster]; exact hz)]
    rfl
  refine ⟨_, queued_sent h (f := fun _ => cemitWord) rfl hfence rfl hword (turned_mem s) ?_ ?_, ?_⟩
  · rw [openHead_core, turned_core]
  · rw [openHead_core, turned_core]
  · rw [wentOn_head, sent_core, openHead_core]

end

end Sys2Proof.Machine

namespace Sys2Proof.Machine

open Sys2Proof.Safety

/-! ### CBOUND (R220) -/

/-- What one step of a fold brings about and every step keeps holds at its end. -/
theorem foldl_reaches {α β : Type} {f : β → α → β} {P : β → Prop} {l : List α} {x : α} (hx : x ∈ l) (hmake : ∀ b, P (f b x))
    (hkeep : ∀ b, P b → ∀ y ∈ l, P (f b y)) (b : β) : P (l.foldl f b) := by
  induction l generalizing b with
  | nil => cases hx
  | cons y l ih =>
    have hrest (c : β) (hc : P c) : P (l.foldl f c) := List.foldlRecOn l f hc fun b hb z hz => hkeep b hb z (List.mem_cons_of_mem _ hz)
    rcases List.mem_cons.mp hx with rfl | hx
    · exact hrest _ (hmake b)
    · exact ih hx (fun b hb z hz => hkeep b hb z (List.mem_cons_of_mem _ hz)) _

/-- One slot with a new reservation of r (R220). -/
def reserveSlot (r : ℕ) (k : Cluster) (i : ℕ) : Cluster :=
  if 8 - r ≤ i then k.setSlot i { st := .reserved } else if (k.slot i).st == .reserved then k.setSlot i {} else k

theorem reserve_eq (r : ℕ) (k : Cluster) : reserve r k = { (List.range 8).foldl (reserveSlot r) k with resv := r } := rfl

theorem reserveSlot_same {r i : ℕ} (k : Cluster) (h : 8 - r ≤ i) (hi : i < 8) : (((reserveSlot r k i).slot i).st) = .reserved := by
  rw [reserveSlot, if_pos h, Cluster.slot_setSlot _ hi, if_pos rfl]

theorem reserveSlot_other {r i j : ℕ} (k : Cluster) (h : j ≠ i) (hi : i < 8) : (reserveSlot r k i).slot j = k.slot j := by
  unfold reserveSlot
  split
  · rw [Cluster.slot_setSlot _ hi, if_neg h]
  · split
    · rw [Cluster.slot_setSlot _ hi, if_neg h]
    · rfl

/-- The last r slots are reserved. -/
theorem reserve_slot (r : ℕ) (k : Cluster) {j : ℕ} (h : 8 - r ≤ j) (hj : j < 8) : ((reserve r k).slot j).st = .reserved := by
  rw [reserve_eq]
  show (((List.range 8).foldl (reserveSlot r) k).slot j).st = _
  refine foldl_reaches (P := fun k : Cluster => (k.slot j).st = .reserved) (List.mem_range.mpr hj) (fun b => reserveSlot_same b h hj)
    (fun b hb y hy => ?_) k
  have hy8 := List.mem_range.mp hy
  rcases eq_or_ne j y with rfl | hne
  · exact reserveSlot_same b h hj
  · rw [reserveSlot_other b hne hy8]; exact hb

/-- A change to the control registers leaves the other registers. -/
theorem onCsr_regs (c : TCore) (f : Csrs → Csrs) : (c.onCsr f).regs = c.regs := rfl

/-- The tile of the unit that has gone on. -/
theorem wentOn_own (s : State) (pc : Dword) (d : Dev) : ((wentOn s pc d).dev.tile s.env.unit).core = iter (wentOn s pc d) := rfl

theorem wentOn_other {s : State} {pc : Dword} {d : Dev} {u : ℕ} (h : u ≠ s.env.unit) : (wentOn s pc d).dev.tile u = d.tile u :=
  walkTo_tile_other d (atM s pc) (pc + 4) (.other .m) h

/-! #### BCAP of the cluster's tiles (R32) -/

/-- An iteration with BCAP lowered. -/
def TCore.lowered (cap : ℕ) (c : TCore) : TCore :=
  if cap < c.csr.bcap.toNat then c.onCsr fun x => { x with bcap := BitVec.ofNat 13 cap } else c

theorem lowered_bcap (cap : ℕ) (c : TCore) : (c.lowered cap).csr.bcap.toNat ≤ cap := by
  unfold TCore.lowered
  split
  · exact (BitVec.toNat_ofNat ..).trans_le (Nat.mod_le _ _)
  · next hle => exact Nat.not_lt.mp hle

theorem lowered_regs (cap : ℕ) (c : TCore) : (c.lowered cap).regs = c.regs := by unfold TCore.lowered; split <;> rfl

theorem lowerCap_core (cap t u : ℕ) (d : Dev) :
    ((lowerCap cap t d).tile u).core = if u = t then ((d.tile u).core).lowered cap else (d.tile u).core := by
  unfold lowerCap TCore.lowered
  split
  · rw [Dev.tile_onCore]
    split
    · next he => subst he; rw [if_pos ‹_›]
    · rfl
  · split
    · next h he => subst he; rw [if_neg h]
    · rfl

theorem lowerCap_rest (cap t : ℕ) (d : Dev) : (lowerCap cap t d).mem = d.mem ∧ (lowerCap cap t d).clusters = d.clusters := by
  unfold lowerCap; split <;> exact ⟨rfl, rfl⟩

/-- BCAP of the tiles of cluster c lowered. -/
def lowerCaps (cap c : ℕ) (d : Dev) : Dev := (List.range 8).foldl (fun d i => lowerCap cap (8 * c + i) d) d

theorem lowerCaps_rest (cap c : ℕ) (d : Dev) : (lowerCaps cap c d).mem = d.mem ∧ (lowerCaps cap c d).clusters = d.clusters := by
  unfold lowerCaps
  exact List.foldlRecOn (motive := fun e : Dev => e.mem = d.mem ∧ e.clusters = d.clusters) (List.range 8) _ ⟨rfl, rfl⟩ fun _ he _ _ =>
    ⟨(lowerCap_rest ..).1.trans he.1, (lowerCap_rest ..).2.trans he.2⟩

theorem lowerCaps_cluster (cap c k : ℕ) (d : Dev) : (lowerCaps cap c d).cluster k = d.cluster k :=
  congrArg (fun x : NMap Cluster => x.get {} k) (lowerCaps_rest cap c d).2

theorem lowerCaps_regs (cap c u : ℕ) (d : Dev) : ((lowerCaps cap c d).tile u).core.regs = (d.tile u).core.regs := by
  unfold lowerCaps
  refine List.foldlRecOn (motive := fun e : Dev => (e.tile u).core.regs = (d.tile u).core.regs) (List.range 8) _ rfl fun e he i _ => ?_
  rw [lowerCap_core]
  split
  · rw [lowered_regs, he]
  · exact he

theorem lowerCaps_bcap (cap c : ℕ) (d : Dev) {i : ℕ} (hi : i < 8) :
    ((lowerCaps cap c d).tile (8 * c + i)).core.csr.bcap.toNat ≤ cap := by
  unfold lowerCaps
  refine foldl_reaches (P := fun e : Dev => (e.tile (8 * c + i)).core.csr.bcap.toNat ≤ cap) (List.mem_range.mpr hi) (fun e => ?_)
    (fun e he j _ => ?_) d
  · rw [lowerCap_core, if_pos rfl]; exact lowered_bcap ..
  · rw [lowerCap_core]
    split
    · exact lowered_bcap ..
    · exact he

/-! #### The word -/

/-- The device with the reservation that CBOUND makes. -/
def bounded (t : ℕ) (n : BitVec 18) (d : Dev) : Dev :=
  (lowerCaps (n.toNat * 1024) (t / 8) (d.onCluster (t / 8) (reserve n.toNat))).onCore t fun y =>
    y.onCsr fun x => { x with bcap := BitVec.ofNat 13 (n.toNat * 1024) }

theorem bounded_mem (t : ℕ) (n : BitVec 18) (d : Dev) : (bounded t n d).mem = d.mem := by
  rw [bounded, Dev.onCore_mem, (lowerCaps_rest ..).1]; rfl

theorem bounded_cluster (t : ℕ) (n : BitVec 18) (d : Dev) :
    (bounded t n d).cluster (t / 8) = reserve n.toNat (d.cluster (t / 8)) := by
  rw [bounded, Dev.cluster_onCore, lowerCaps_cluster, Dev.cluster_onCluster, if_pos rfl]

/-- What the slots that a reservation takes hold, where all of them are free or reserved. -/
theorem slots_drop {k : Cluster} {r : ℕ} (h : ∀ j, 8 - r ≤ j → j < 8 → (k.slot j).st = .free ∨ (k.slot j).st = .reserved) :
    ∀ x ∈ (k.slots.toList.drop (8 - r)).map (·.st), x = .free ∨ x = .reserved := by
  intro x hx
  obtain ⟨y, hy, rfl⟩ := List.mem_map.mp hx
  obtain ⟨j, hj, rfl⟩ := List.mem_drop_iff_getElem.mp hy
  have hlen : 8 - r + j < 8 := by simpa [Nat.add_comm] using hj
  have hslot : k.slot (8 - r + j) = k.slots[8 - r + j] := vget_eq_getElem _ _ hlen
  have hfree := h (8 - r + j) (Nat.le_add_right ..) hlen
  rw [hslot] at hfree
  simpa using hfree

section
variable {s : State} {pc : Dword} (ht : Claims.Turn s) (hbusy : chainBusy s.dev (s.env.unit / 8) = false) {n : BitVec 18}
  (hslots : ∀ j, 8 - n.toNat ≤ j → j < 8 →
    ((s.dev.cluster (s.env.unit / 8)).slot j).st = .free ∨ ((s.dev.cluster (s.env.unit / 8)).slot j).st = .reserved)
  (hsize : (if (s.dev.cluster (s.env.unit / 8)).bnd.empty then 0 else (s.dev.cluster (s.env.unit / 8)).bnd.size * 4) ≤ n.toNat * 262144)
include ht hbusy hslots hsize

theorem cboundWord_ok : cboundWord n (atM s pc) (foundM s) = .ok () (bounded s.env.unit n (Claims.turned s)) := by
  have hfree := slots_drop hslots
  have hnone (p : SlotSt → Bool) (h1 : p .free = false) (h2 : p .reserved = false) :
      (((s.dev.cluster (s.env.unit / 8)).slots.toList.drop (8 - n.toNat)).map (·.st)).any p = false :=
    List.any_eq_false.mpr fun x hx => by rcases hfree x hx with rfl | rfl <;> simp [h1, h2]
  unfold cboundWord
  rw [chainWord_turn (charged := false) ht hbusy nofun]; dsimp only
  rw [turned_cluster, hnone (fun x => x == .open_ || x == .parked) rfl rfl, hnone (fun x => x == .closed || x == .draining) rfl rfl,
    Bool.false_or, if_neg (by simpa using hsize), if_neg Bool.false_ne_true]
  rfl

theorem exec_cbound (h : Stands s .m pc false) (hn : n.toNat ≤ 6) :
    ∃ u, exec (.cbound n) s = .next u ∧ Claims.WentOn s u pc ∧ (u.dev.cluster (s.env.unit / 8)).resv = n.toNat ∧
      (iter u).csr.bcap.toNat = n.toNat * 1024 ∧
      (∀ i, i < 8 → (u.dev.tile (8 * (s.env.unit / 8) + i)).core.csr.bcap.toNat ≤ n.toNat * 1024) ∧
      ∀ j, 8 - n.toNat ≤ j → j < 8 → ((u.dev.cluster (s.env.unit / 8)).slot j).st = .reserved := by
  have hcap : (BitVec.ofNat 13 (n.toNat * 1024)).toNat = n.toNat * 1024 := (BitVec.toNat_ofNat ..).trans (Nat.mod_eq_of_lt (by omega))
  have hown : (iter (wentOn s pc (bounded s.env.unit n (Claims.turned s)))).csr.bcap.toNat = n.toNat * 1024 := by
    rw [wentOn_csr, bounded, onCore_core]; exact hcap
  have hcluster : (wentOn s pc (bounded s.env.unit n (Claims.turned s))).dev.cluster (s.env.unit / 8) =
      reserve n.toNat (s.dev.cluster (s.env.unit / 8)) := by
    rw [wentOn_cluster, bounded_cluster, turned_cluster]
  refine ⟨_, mTry_ok h (f := fun _ => cboundWord n) (cboundWord_ok ht hbusy hslots hsize),
    wentOn_of ((bounded_mem ..).trans (turned_mem s)) ?_, ?_, hown, fun i hi => ?_, fun j hj hj8 => ?_⟩
  · rw [bounded, onCore_core, onCsr_regs, lowerCaps_regs, Dev.tile_onCluster, turned_core]
  · rw [hcluster]; rfl
  · rcases eq_or_ne (8 * (s.env.unit / 8) + i) s.env.unit with he | hne
    · rw [he, wentOn_own]; exact hown.le
    · rw [wentOn_other hne, bounded, Dev.tile_onCore, if_neg hne]
      exact lowerCaps_bcap _ _ _ hi
  · rw [hcluster]; exact reserve_slot _ _ hj hj8

end

end Sys2Proof.Machine

namespace Sys2Proof.Machine

open Sys2Proof.Safety

/-! ### What a step checks (R34, R35, R222) -/

/-- The extents of the boundary that a step leaves as they are. -/
def stepRest (r : ℕ) (bm : List ℕ) : List ℕ := ((List.range 5).filter (· != r / 2 ^ 8 % 8)).map fun x => bm.getD x 1

/-- The record r with its core fits the boundary BA and BM that it finds, as the step st. -/
structure StepFits (d : Dev) (t r : ℕ) (core : Row) (ba : ℕ) (bm : List ℕ) (st : ChainStep) : Prop where
  mode : st.mode = r / 2 ^ 8 % 8
  m : st.m = tCm core
  nn : st.nn = tSize core 1 / tCm core
  bond : st.bond = min (tSize core 2) (vget (d.tile t).core.csr.bd 0 (r / 2 ^ 12 % 8)).toNat
  fmt : tFmt core = 1
  dim : bm.getD (r / 2 ^ 8 % 8) 1 = st.nn
  left : ba ≤ tSize core 0
  cap : (stepRest r bm).foldl (· * ·) 1 * st.m * st.bond * 4 ≤ (d.tile t).core.csr.bcap.toNat * 256
  kept : r / 2 ^ 17 % 2 ≠ 1 → st.emit = none
  emits : r / 2 ^ 17 % 2 = 1 → (emitShape st.bond (st.m :: stepRest r bm)).1 ≤ 256 ∧ (emitShape st.bond (st.m :: stepRest r bm)).2 ≤ 256 ∧
    (d.tile t).core.head = none ∧ ∃ z, (d.cluster (t / 8)).nextFree = some z ∧ st.emit = some (BitVec.ofNat 3 z)

/-- The checks pass, and find the slot that the step will open. -/
theorem stepCheck_ok {a : At} {d : Dev} {r : ℕ} {core : Row} {ba : ℕ} {bm : List ℕ} {st : ChainStep} (hfit : StepFits d a.t r core ba bm st) :
    ∃ slot : Option ℕ, slot.map (BitVec.ofNat 3) = st.emit ∧
      ∀ (i : Instr) (f : ℕ → ℕ → ℕ → Option ℕ → Res Unit), stepCheck i r core ba bm a d f = f st.nn st.m st.bond slot := by
  have hdim : (bm.getD (r / 2 ^ 8 % 8) 1 != st.nn || decide (tSize core 0 < ba)) = false := by
    simp only [hfit.dim, bne_self_eq_false, Bool.false_or, decide_eq_false_iff_not, Nat.not_lt]; exact hfit.left
  have hchecks (i : Instr) (f : ℕ → ℕ → ℕ → Option ℕ → Res Unit) : stepCheck i r core ba bm a d f =
      if r / 2 ^ 17 % 2 = 1 then emitCheck i (emitShape st.bond (st.m :: stepRest r bm)) a d fun z => f st.nn st.m st.bond (some z)
      else f st.nn st.m st.bond none := by
    unfold stepCheck; dsimp only
    rw [← hfit.nn, ← hfit.m, ← hfit.bond, hfit.fmt, hdim, if_neg (by decide), if_neg Bool.false_ne_true]
    exact if_neg (Nat.not_lt.mpr hfit.cap)
  by_cases hlast : r / 2 ^ 17 % 2 = 1
  · obtain ⟨hm, hn, hhead, z, hz, hemit⟩ := hfit.emits hlast
    exact ⟨some z, hemit.symm, fun i f => by rw [hchecks, if_pos hlast, emitCheck_ok hm hn hhead hz]⟩
  · exact ⟨none, (hfit.kept hlast).symm, fun i f => by rw [hchecks, if_neg hlast]⟩

/-! ### What a step reads and queues (R36, R37, R222) -/

/-- The box that a first record loads. -/
def stepInit (env : Env) (a : At) (box : Option (Row × List ℕ × List ℕ)) (d : Dev) : Res (Option (List ℕ × ReadBox)) :=
  match box with
  | some (t, org, ext) => (readInit env a t org ext d).bind fun e d1 => .ok (some (ext, e)) d1
  | none => .ok none d

/-- The slot that a last record opens. -/
def stepOpen (t : ℕ) (mn : ℕ × ℕ) (slot : Option ℕ) (d : Dev) : Dev :=
  match slot with
  | some z => openHead d t z 1 mn.1 mn.2
  | none => d

theorem stepOpen_mem (t : ℕ) (mn : ℕ × ℕ) (slot : Option ℕ) (d : Dev) : (stepOpen t mn slot d).mem = d.mem := by
  cases slot <;> rfl

/-- A record whose checks have passed reads its operands and takes its place in the array's order. -/
def stepQueue (r : ℕ) (env : Env) (a : At) (core : Row) (box : Option (Row × List ℕ × List ℕ)) (ba : ℕ) (bm : List ℕ) (d : Dev)
    (nn m bond : ℕ) (slot : Option ℕ) : Res Unit :=
  (reading a.t d ((stepInit env a box d).bind fun init d1 => (readCore env a core ba nn m bond d1).bind fun l d2 => .ok (init, l) d2)).bind
    fun x d1 => .ok () (sent (stepOpen a.t (emitShape bond (m :: stepRest r bm)) slot d1) a.t
      (.step { init := x.1, mode := r / 2 ^ 8 % 8, nn := nn, m := m, bond := bond, core := x.2, emit := slot.map (BitVec.ofNat 3) }))

section
variable {i : Instr} {r : ℕ} {env : Env} {a : At} {d : Dev} {core : Row} (htid : tidOf (d.tile a.t).core.tids (r % 256) = some core)
  (hcm : tCm core ≠ 0)
include htid hcm

theorem stepStart_next (hfirst : r / 2 ^ 16 % 2 ≠ 1) : stepStart i r env a d =
    stepCheck i r core (d.cluster (a.t / 8)).bnd.ba (d.cluster (a.t / 8)).bnd.bm.toList a d
      (stepQueue r env a core none (d.cluster (a.t / 8)).bnd.ba (d.cluster (a.t / 8)).bnd.bm.toList d) := by
  unfold stepStart; dsimp only
  rw [htid]; dsimp only
  rw [if_neg hcm, if_neg hfirst]
  rfl

theorem stepStart_first {t : Row} {org ext : List ℕ} (hfirst : r / 2 ^ 16 % 2 = 1)
    (ht : tidOf (d.tile a.t).core.tids (r / 2 ^ 32 % 256) = some t)
    (hbox : stepBox (d.tile a.t).core r t = (t, org, ext)) (hbad : initBad t org ext = false) (hfmt : tFmt t < 7)
    (hcap : ext.foldl (· * ·) 1 * 4 ≤ (d.tile a.t).core.csr.bcap.toNat * 256) : stepStart i r env a d =
    stepCheck i r core 1 (ext ++ [1]) a d (stepQueue r env a core (some (t, org, ext)) 1 (ext ++ [1]) d) := by
  unfold stepStart; dsimp only
  rw [htid]; dsimp only
  rw [if_neg hcm, if_pos hfirst, ht]; dsimp only
  rw [hbox]; dsimp only
  rw [initCheck_ok hbad hfmt hcap]
  rfl

end

/-- What is left of an iteration whose record has been queued as the step st. -/
def TCore.stepped (c : TCore) (st : ChainStep) : TCore :=
  { c with fuPins := [], lease := { c.lease with left := c.lease.left - 1 }, head := st.emit.or c.head }

theorem sent_stepOpen_core {d : Dev} {t : ℕ} {mn : ℕ × ℕ} {slot : Option ℕ} {kind : MKind} {st : ChainStep}
    (hslot : slot.map (BitVec.ofNat 3) = st.emit) :
    ((sent (stepOpen t mn slot d) t kind).tile t).core = ((d.tile t).core.unpinned).stepped st := by
  rw [sent_core]
  cases slot with
  | none =>
    have hnone : st.emit = none := hslot.symm
    rw [TCore.stepped, hnone]
    rfl
  | some z =>
    have hsome : st.emit = some (BitVec.ofNat 3 z) := hslot.symm
    rw [TCore.stepped, hsome, stepOpen, openHead_core]
    rfl

/-- A device on which the record that d found has been queued as the step st. -/
structure Stepped (t : ℕ) (st : ChainStep) (d e : Dev) : Prop where
  mem : e.mem = d.mem
  core : (e.tile t).core = (d.tile t).core.stepped st
  order : ∃ m ∈ (e.cluster (t / 8)).mq, m.kind = .step st ∧ m.tile = t

theorem stepped_unpinned {c : TCore} (st : ChainStep) : c.unpinned.stepped st = c.stepped st := rfl

theorem stepQueue_ok {r : ℕ} {env : Env} {a : At} {core : Row} {box : Option (Row × List ℕ × List ℕ)} {ba : ℕ} {bm : List ℕ} {d d3 d4 : Dev}
    {st : ChainStep} {slot : Option ℕ} (hmode : st.mode = r / 2 ^ 8 % 8) (hslot : slot.map (BitVec.ofNat 3) = st.emit)
    (hinit : stepInit env a box d = .ok st.init d3) (hkeep : d3.array a.t = d.array a.t)
    (hcore : readCore env a core ba st.nn st.m st.bond d3 = .ok st.core d4) :
    ∃ e, stepQueue r env a core box ba bm d st.nn st.m st.bond slot = .ok () e ∧ Stepped a.t st d e := by
  have hkeep4 : d4.array a.t = d.array a.t := ((readCore_array a.t ..).ok hcore).trans hkeep
  have hst : ({ init := st.init, mode := r / 2 ^ 8 % 8, nn := st.nn, m := st.m, bond := st.bond, core := st.core
                emit := slot.map (BitVec.ofNat 3) } : ChainStep) = st := by rw [← hmode, hslot]
  refine ⟨sent (stepOpen a.t (emitShape st.bond (st.m :: stepRest r bm)) slot d4) a.t (.step st), ?_, ?_, ?_, sent_order _ _ rfl⟩
  · rw [stepQueue, hinit]
    show Res.bind (reading a.t d ((readCore env a core ba st.nn st.m st.bond d3).bind _)) _ = _
    rw [hcore]
    show Res.ok () (sent _ a.t (.step _)) = _
    rw [hst]
  · exact (stepOpen_mem ..).trans (array_mem hkeep4)
  · rw [sent_stepOpen_core hslot, array_core hkeep4, stepped_unpinned]

end Sys2Proof.Machine

namespace Sys2Proof.Machine

open Sys2Proof.Safety

/-! ### CSTEP (R222) -/

/-- A device on which M's word finds what it found when it was given its turn. -/
structure Finds (s : State) (d : Dev) : Prop where
  csr : (d.tile s.env.unit).core.csr = (iter s).csr
  tids : (d.tile s.env.unit).core.tids = (iter s).tids
  regs : (d.tile s.env.unit).core.regs = (iter s).regs
  head : (d.tile s.env.unit).core.head = (iter s).head
  cluster (c : ℕ) : d.cluster c = s.dev.cluster c

section
variable {s : State} {d e : Dev}

theorem finds_turned (s : State) : Finds s (Claims.turned s) where
  csr := by rw [turned_core]
  tids := by rw [turned_core]
  regs := by rw [turned_core]
  head := by rw [turned_core]
  cluster := turned_cluster s

theorem Finds.of_array (h : Finds s d) (hk : e.array s.env.unit = d.array s.env.unit) : Finds s e where
  csr := (congrArg TCore.csr (array_core hk)).trans h.csr
  tids := (congrArg TCore.tids (array_core hk)).trans h.tids
  regs := (congrArg TCore.regs (array_core hk)).trans h.regs
  head := (congrArg TCore.head (array_core hk)).trans h.head
  cluster c := (array_cluster hk c).trans (h.cluster c)

theorem core_of_unchecked (h : e.unchecked = d.unchecked) (t : ℕ) : (e.tile t).core.unchecked = (d.tile t).core.unchecked := by
  have htile := congrArg (Dev.tile · t) h
  simp only [tile_unchecked] at htile
  exact congrArg Tile.core htile

theorem Finds.of_unchecked (h : Finds s d) (hk : e.unchecked = d.unchecked) : Finds s e where
  csr := (congrArg TCore.csr (core_of_unchecked hk _)).trans h.csr
  tids := (congrArg TCore.tids (core_of_unchecked hk _)).trans h.tids
  regs := (congrArg TCore.regs (core_of_unchecked hk _)).trans h.regs
  head := (congrArg TCore.head (core_of_unchecked hk _)).trans h.head
  cluster c := (congrArg (fun x : Dev => x.cluster c) hk).trans (h.cluster c)

theorem Finds.c (h : Finds s d) (k : BitVec 4) : (d.tile s.env.unit).core.c k = (iter s).c k := by
  rw [TCore.c, TCore.c, h.regs]

theorem Finds.bndLost (h : Finds s d) : bndLost d s.env.unit = bndLost s.dev s.env.unit := by
  rw [Machine.bndLost, h.cluster, h.csr]; rfl

end

/-! #### Reads on two devices that differ in CHAIN's note -/

section
variable {d e d2 : Dev} (hd : e.unchecked = d.unchecked)
include hd

theorem mRead_twin {env : Env} {t va n : ℕ} {b : List Byte} (h : mRead env t d va n = .ok b d2) :
    ∃ e2, mRead env t e va n = .ok b e2 ∧ e2.unchecked = d2.unchecked :=
  Res.ok_of_unchecked (by rw [← mRead_unchecked, ← mRead_unchecked, hd]) h

theorem readInit_twin {env : Env} {a : At} {r : Row} {org ext : List ℕ} {b : ReadBox} (h : readInit env a r org ext d = .ok b d2) :
    ∃ e2, readInit env a r org ext e = .ok b e2 ∧ e2.unchecked = d2.unchecked :=
  Res.ok_of_unchecked (by rw [← readInit_unchecked, ← readInit_unchecked, hd]) h

theorem readCore_twin {env : Env} {a : At} {r : Row} {ba nn m bond : ℕ} {b : ReadBox} (h : readCore env a r ba nn m bond d = .ok b d2) :
    ∃ e2, readCore env a r ba nn m bond e = .ok b e2 ∧ e2.unchecked = d2.unchecked :=
  Res.ok_of_unchecked (by rw [← readCore_unchecked, ← readCore_unchecked, hd]) h

end

/-! #### The fields of a record (R36) -/

/-- The extents of the box that a first record loads. -/
def boxExt (r : ℕ) : List ℕ := (List.range 4).map fun i => r / 2 ^ (64 + 16 * i) % 2 ^ 16

theorem fields4_record (r : ℕ) : fields4 (dw (r / 2 ^ 64)) = boxExt r := by
  have hfield (i : ℕ) (hi : i < 4) : bitsN (dw (r / 2 ^ 64)) (16 * i) 16 = r / 2 ^ (64 + 16 * i) % 2 ^ 16 := by
    rw [bitsN, dw, BitVec.toNat_ofNat, pow_add, ← Nat.div_div_eq_div_mul]
    interval_cases i <;> omega
  exact List.map_congr_left fun i hi => hfield i (List.mem_range.mp hi)

/-- The coordinate register that names the box's origin. -/
theorem originReg_record (r : ℕ) : BitVec.ofNat 4 (r / 2 ^ 40) = BitVec.ofNat 4 (r / 2 ^ 40 % 2 ^ 4) := by
  apply BitVec.eq_of_toNat_eq; simp

/-- BA and BM as a record finds them: of the box it loads where it is a first one (R37), of the boundary otherwise. -/
def stepBnd (k : Cluster) (r : ℕ) : ℕ × List ℕ := if r / 2 ^ 16 % 2 = 1 then (1, boxExt r ++ [1]) else (k.bnd.ba, k.bnd.bm.toList)

/-! #### The word -/

section
variable {s : State} {pc : Dword} {r : ℕ} {core : Row} {st : ChainStep} {d : Dev}

theorem StepFits.of_finds {ba : ℕ} {bm : List ℕ} (h : StepFits s.dev s.env.unit r core ba bm st) (hf : Finds s d) :
    StepFits d s.env.unit r core ba bm st where
  mode := h.mode
  m := h.m
  nn := h.nn
  bond := by rw [hf.csr]; exact h.bond
  fmt := h.fmt
  dim := h.dim
  left := h.left
  cap := by rw [hf.csr]; exact h.cap
  kept := h.kept
  emits := by rw [hf.head, hf.cluster]; exact h.emits

theorem stepBnd_fst (k : Cluster) (r : ℕ) : (stepBnd k r).1 = if r / 2 ^ 16 % 2 = 1 then 1 else k.bnd.ba := apply_ite Prod.fst ..

theorem stepBnd_snd (k : Cluster) (r : ℕ) : (stepBnd k r).2 = if r / 2 ^ 16 % 2 = 1 then boxExt r ++ [1] else k.bnd.bm.toList :=
  apply_ite Prod.snd ..

theorem vget_toList {α : Type} {n : ℕ} (v : Vector α n) (d : α) (i : ℕ) : v.toList.getD i d = vget v d i := by
  simp [vget, List.getD_eq_getElem?_getD]

theorem stepFits_of_runs (hr : Claims.StepRuns s r core st) :
    StepFits s.dev s.env.unit r core (stepBnd (s.dev.cluster (s.env.unit / 8)) r).1 (stepBnd (s.dev.cluster (s.env.unit / 8)) r).2 st := by
  obtain ⟨b, d2, d3, d4, -, -, -, -, -, -, hfmt, -, -, hmode, hm, hnn, hbond, hdim, hba, hcap, hkeep, hemit, -⟩ := hr
  rw [stepBnd_fst, stepBnd_snd]
  rw [hmode] at hdim
  rw [vget_toList] at hbond
  exact {
    mode := hmode
    m := hm
    nn := hnn
    bond := hbond
    fmt := hfmt
    dim := hdim
    left := hba
    cap := hcap
    kept := fun h => hkeep (Nat.mod_two_ne_one.mp h)
    emits := hemit }

/-- After its record has been read, a step that can start is queued. -/
theorem stepStart_runs (i : Instr) (h : Stands s .m pc false) (hr : Claims.StepRuns s r core st) :
    ∃ b d2, (iter s).csr.cord.toNat % 16 = 0 ∧
      mRead s.env s.env.unit (Claims.turned s) ((iter s).csr.cord.toNat + 16 * (iter s).csr.cstep.toNat) 16 = .ok b d2 ∧ r = leNat b ∧
      stepBad r = false ∧ (r / 2 ^ 16 % 2 = 0 → bndLost s.dev s.env.unit = false) ∧
      ∀ d, d.unchecked = d2.unchecked → Finds s d → ∃ e, stepStart i r s.env (atM s pc) d = .ok () e ∧ Stepped s.env.unit st d e := by
  have hpc : ((iter s).engine .m).pc = pc := pc_of_ready h.2
  have hfits := stepFits_of_runs hr
  obtain ⟨b, d2, d3, d4, hal, hread, hrb, hbad, htid, hcm, -, hnext, hfirst, hmode, -, -, -, -, -, -, -, -, hcore⟩ := hr
  have hcore : readCore s.env (atM s pc) core (if r / 2 ^ 16 % 2 = 1 then 1 else (s.dev.cluster (s.env.unit / 8)).bnd.ba) st.nn st.m st.bond d3 =
      .ok st.core d4 := by rw [← hpc]; exact hcore
  refine ⟨b, d2, hal, hread, hrb, hbad, fun h0 => (hnext (Nat.mod_two_ne_one.mpr h0)).1, fun d hd hf => ?_⟩
  have hfits' := hfits.of_finds hf
  rw [stepBnd_fst, stepBnd_snd] at hfits'
  obtain ⟨slot, hslot, hcheck⟩ := stepCheck_ok (a := atM s pc) hfits'
  have htid' : tidOf (d.tile s.env.unit).core.tids (r % 256) = some core := by rw [hf.tids]; simpa using htid
  by_cases h1 : r / 2 ^ 16 % 2 = 1
  · obtain ⟨t, box, ht, hbox, hfmt, hcap, hinit, hst⟩ := hfirst h1
    rw [hpc] at hinit
    obtain ⟨e3, hread3, he3⟩ := readInit_twin hd hinit
    obtain ⟨e4, hread4, -⟩ := readCore_twin he3 hcore
    rw [if_pos h1] at hread4
    simp only [if_pos h1] at hcheck
    rw [stepStart_first (t := t) (org := fields4 ((iter s).c (BitVec.ofNat 4 (r / 2 ^ 40 % 2 ^ 4)))) (ext := boxExt r) htid' hcm h1
      (by rw [hf.tids]; exact ht) (by rw [stepBox, hf.c, fields4_record, originReg_record]) hbox hfmt (by rw [hf.csr]; exact hcap), hcheck]
    refine stepQueue_ok hmode hslot ?_ ((readInit_array s.env.unit ..).ok hread3) hread4
    rw [stepInit, hst]; exact congrArg (Res.bind · _) hread3
  · obtain ⟨-, hnone, rfl⟩ := hnext h1
    obtain ⟨e4, hread4, -⟩ := readCore_twin hd hcore
    rw [if_neg h1] at hread4
    simp only [if_neg h1] at hcheck
    have hk : d.cluster ((atM s pc).t / 8) = s.dev.cluster (s.env.unit / 8) := hf.cluster _
    rw [stepStart_next (a := atM s pc) htid' hcm h1, hk, hcheck]
    exact stepQueue_ok hmode hslot (by rw [stepInit, hnone]) rfl hread4

/-- A record that can start (`Claims.StepRuns`) is queued on every device that differs from the one with the turn in CHAIN's note alone. -/
theorem stepWord_runs (i : Instr) (h : Stands s .m pc false) (hr : Claims.StepRuns s r core st)
    (hd : d.unchecked = (Claims.turned s).unchecked) :
    ∃ e, stepWord i s.env (atM s pc) d = .ok () e ∧ Stepped s.env.unit st d e := by
  obtain ⟨b, d2, hal, hread, hrb, hbad, hlost, hstart⟩ := stepStart_runs i h hr
  obtain ⟨e2, hread2, he2⟩ := mRead_twin hd hread
  have hf := (finds_turned s).of_unchecked hd
  have hkeep := (mRead_array s.env.unit ..).ok hread2
  have hf2 := hf.of_array hkeep
  obtain ⟨e, hdone, hmem, hcore, horder⟩ := hstart e2 he2 hf2
  refine ⟨e, ?_, hmem.trans (array_mem hkeep), ?_, horder⟩
  · have hlost2 : (decide (r / 2 ^ 16 % 2 = 0) && bndLost e2 s.env.unit) = false := by
      rw [hf2.bndLost, Bool.and_eq_false_imp]; exact fun h0 => hlost (of_decide_eq_true h0)
    unfold stepWord; dsimp only
    rw [hf.csr, hal, if_neg (by decide), hread2]
    dsimp only [reading, Res.bind]
    rw [← hrb, hbad, if_neg Bool.false_ne_true, hlost2, if_neg Bool.false_ne_true]
    exact hdone
  · rw [hcore, ← stepped_unpinned, array_core hkeep, stepped_unpinned]

end

end Sys2Proof.Machine

namespace Sys2Proof.Machine

open Sys2Proof.Safety

/-! #### CSTEP leaves its step in the array's order -/

/-- A device on which a command of the unit's tile has been charged and queued; memory is as it was. -/
structure SentAs (s : State) (kind : MKind) (e : Dev) : Prop where
  mem : e.mem = s.dev.mem
  regs : (e.tile s.env.unit).core.regs = (iter s).regs
  left : (e.tile s.env.unit).core.lease.left = (iter s).lease.left - 1
  order : ∃ m ∈ (e.cluster (s.env.unit / 8)).mq, m.kind = kind ∧ m.tile = s.env.unit

section
variable {s : State} {pc : Dword} {kind : MKind} {st : ChainStep} {d e : Dev}

theorem SentAs.queued {i : Instr} (h : SentAs s kind e) (hi : exec i s = .next (wentOn s pc e)) : Queued s pc i (wentOn s pc e) kind :=
  ⟨hi, wentOn_of h.mem h.regs, walked_memSame h.mem, by rw [wentOn_lease]; exact h.left, by rw [wentOn_cluster]; exact h.order⟩

theorem SentAs.waits {w : Wait} (h : SentAs s kind e) : Took s (waitsM s pc w e) kind :=
  ⟨fun a => by rw [waitsM_mem, h.mem], by rw [waitsM_lease]; exact h.left, by rw [waitsM_cluster]; exact h.order⟩

theorem sentAs_stepped (hd : d.unchecked = (Claims.turned s).unchecked) (h : Stepped s.env.unit st d e) : SentAs s (.step st) e where
  mem := h.mem.trans ((congrArg Dev.mem hd).trans (turned_mem s))
  regs := by
    rw [h.core]
    exact ((finds_turned s).of_unchecked hd).regs
  left := by
    rw [h.core]
    refine congrArg (· - 1) ((congrArg (·.lease.left) (core_of_unchecked hd s.env.unit)).trans ?_)
    rw [turned_core]; rfl
  order := h.order

theorem stepped_csr (hd : d.unchecked = (Claims.turned s).unchecked) (h : Stepped s.env.unit st d e) :
    (e.tile s.env.unit).core.csr = (iter s).csr := by
  rw [h.core]; exact ((finds_turned s).of_unchecked hd).csr

/-- The head of a last record's slot (R224). -/
theorem stepped_head {t : ℕ} (h : Stepped t st d e) : ∀ y, st.emit = some y → (e.tile t).core.head = some y := by
  intro y hy
  rw [h.core, TCore.stepped, hy]; rfl

end

section
variable {s : State} {pc : Dword} (h : Stands s .m pc false) (ht : Claims.Turn s) (hbusy : chainBusy s.dev (s.env.unit / 8) = false)
  (hfence : (iter s).mfence.toNat ≤ ((iter s).engine .a).walk.toNat)
include h ht hbusy hfence

theorem exec_cstep (hleft : 0 < (iter s).lease.left) {r : ℕ} {core : Row} {st : ChainStep} (hr : Claims.StepRuns s r core st) :
    ∃ u, Queued s pc .cstep u (.step st) ∧ (∀ y, st.emit = some y → (iter u).head = some y) ∧ (iter u).csr.cstep = (iter s).csr.cstep := by
  obtain ⟨e, hdone, hst⟩ := stepWord_runs .cstep h hr (d := Claims.turned s) rfl
  have hword := mFenced_ok h (i := .cstep) (f := fun env a d => chainWord .cstep true a d fun d1 => stepWord .cstep env a d1) hfence
    ((chainWord_turn ht hbusy fun _ => hleft).trans hdone)
  refine ⟨_, (sentAs_stepped rfl hst).queued hword, ?_, ?_⟩
  · rw [wentOn_head]; exact stepped_head hst
  · rw [wentOn_csr, stepped_csr rfl hst]

end

/-! ### CHAIN (R222, R355) -/

theorem chainSeen_core (d : Dev) (t : ℕ) (e : Option Dword) : ((chainSeen t e d).tile t).core =
    { (d.tile t).core.onCsr fun x => { x with chainE := e } with chainOk := e.isSome } := by
  rw [chainSeen, onCore_core]

theorem chainSeen_mem (d : Dev) (t : ℕ) (e : Option Dword) : (chainSeen t e d).mem = d.mem := rfl

theorem chainSeen_cluster (d : Dev) (t : ℕ) (e : Option Dword) (c : ℕ) : (chainSeen t e d).cluster c = d.cluster c := rfl

theorem SentAs.chainSeen {s : State} {kind : MKind} {d : Dev} (h : SentAs s kind d) (e : Option Dword) :
    SentAs s kind (chainSeen s.env.unit e d) where
  mem := h.mem
  regs := by rw [chainSeen_core]; exact h.regs
  left := by rw [chainSeen_core]; exact h.left
  order := h.order

/-- Changes to an iteration that differ in CHAIN's note alone. -/
theorem onCore_unchecked_congr {d : Dev} {t : ℕ} {f g : TCore → TCore} (h : (f (d.tile t).core).unchecked = (g (d.tile t).core).unchecked) :
    (d.onCore t f).unchecked = (d.onCore t g).unchecked := by
  have hset (f : TCore → TCore) : (d.onCore t f).unchecked =
      d.unchecked.setTile t { d.tile t with core := (f (d.tile t).core).unchecked } :=
    (setTile_unchecked d t { d.tile t with core := f (d.tile t).core }).symm
  rw [hset, hset, h]

/-- The device as a CHAIN word finds it that has noted its end. -/
def noted (s : State) (e : Dword) : Dev := (chainSeen s.env.unit (some e) (foundM s)).leased s.env.unit

/-- A CHAIN word with the turn: it notes its end, or queues the record at CSTEPIDX. -/
def chainGoes (n : BitVec 18) (env : Env) (a : At) (d : Dev) : Res Unit :=
  let c := (d.tile a.t).core
  let idx := c.csr.cstep.toNat
  match c.csr.chainE with
  | none => if c.lease.left < n.toNat then leaseTrap d a (.chain n) 3 else .wait Wait.idle (chainSeen a.t (some (dw (idx + n.toNat))) d)
  | some e =>
    if e.toNat ≤ idx then .ok () (chainSeen a.t none d)
    else (stepWord (.chain n) env a d).bind fun _ d2 => if e.toNat ≤ idx + 1 then .ok () (chainSeen a.t none d2) else .wait Wait.idle d2

section
variable {s : State} {pc : Dword} {n : BitVec 18} (ht : Claims.Turn s) (hbusy : chainBusy s.dev (s.env.unit / 8) = false)
include ht hbusy

theorem runChain_new (hE : (iter s).csr.chainE = none) :
    runChain n s.env (atM s pc) (foundM s) = chainGoes n s.env (atM s pc) (Claims.turned s) := by
  unfold runChain; dsimp only
  rw [foundM_core, chainLeft, hE]
  simp only [Option.map_none, Bool.and_false, Bool.false_eq_true, if_false, Option.isSome_none]
  exact chainWord_turn (charged := false) ht hbusy nofun

variable {e : Dword} (hE : (iter s).csr.chainE = some e)
include hE

omit ht hbusy in
/-- A word that has its end noted already finds the note as it was. -/
theorem onCsr_chainE : ((iter s).onCsr fun x => { x with chainE := some e }) = iter s := by rw [← hE]; rfl

omit ht hbusy in
theorem seen_core : ((chainSeen s.env.unit (some e) (foundM s)).tile s.env.unit).core = { iter s with chainOk := true } := by
  rw [chainSeen_core, foundM_core, onCsr_chainE hE]; rfl

omit ht hbusy in
theorem noted_core : ((noted s e).tile s.env.unit).core =
    { iter s with lease := { (iter s).lease with held := true, trapped := false }, chainOk := true } := by
  rw [noted, Dev.leased, onCore_core, seen_core hE]

omit ht hbusy in
theorem noted_unchecked : (noted s e).unchecked = (Claims.turned s).unchecked := by
  rw [noted, Dev.leased, chainSeen, Dev.onCore_onCore]
  refine onCore_unchecked_congr ?_
  rw [foundM_core, onCsr_chainE hE]
  rfl

theorem runChain_again (hok : (iter s).chainOk = true ∨ e.toNat - (iter s).csr.cstep.toNat ≤ (iter s).lease.left) :
    runChain n s.env (atM s pc) (foundM s) = chainGoes n s.env (atM s pc) (noted s e) := by
  have hagain : (!(iter s).chainOk && decide ((iter s).lease.left < e.toNat - (iter s).csr.cstep.toNat)) = false := by
    rcases hok with hok | hok
    · rw [hok]; rfl
    · rw [decide_eq_false (Nat.not_lt.mpr hok), Bool.and_false]
  unfold runChain; dsimp only
  rw [foundM_core, chainLeft, hE]
  simp only [Option.map_some, hagain, Bool.and_false, Bool.false_eq_true, if_false, Option.isSome_some, if_true]
  obtain ⟨-, hh, hex⟩ := id ht
  refine chainWord_go ?_ nofun ?_ ?_ ?_
  · rw [seen_core hE]; exact isOpen_of_turn ht
  · rw [chainSeen_cluster, foundM_cluster]; exact hh
  · rw [chainSeen_cluster, foundM_cluster]; exact hex
  · rw [chainBusy, chainSeen_cluster, foundM_cluster]; exact hbusy

end

/-! #### The word notes its end, or has no budget for it -/

section
variable {s : State} {pc : Dword} {n : BitVec 18} (h : Stands s .m pc false) (ht : Claims.Turn s)
  (hbusy : chainBusy s.dev (s.env.unit / 8) = false) (hfence : (iter s).mfence.toNat ≤ ((iter s).engine .a).walk.toNat)
include h ht hbusy hfence

theorem exec_chain_begins (hE : (iter s).csr.chainE = none) (hn : n.toNat ≤ (iter s).lease.left) :
    ∃ u, exec (.chain n) s = .next u ∧ MemSame s u ∧ (iter u).lease.left = (iter s).lease.left ∧
      (iter u).csr.chainE = some (BitVec.ofNat 64 ((iter s).csr.cstep.toNat + n.toNat)) ∧
      ((iter u).engine .m).pc = ((iter s).engine .m).pc ∧
      (u.dev.cluster (s.env.unit / 8)).mq = (s.dev.cluster (s.env.unit / 8)).mq := by
  have hword : runChain n s.env (atM s pc) (foundM s) = .wait Wait.idle
      (chainSeen s.env.unit (some (dw ((iter s).csr.cstep.toNat + n.toNat))) (Claims.turned s)) := by
    rw [runChain_new ht hbusy hE, chainGoes]; dsimp only
    rw [turned_core]; dsimp only
    rw [hE]; dsimp only
    rw [if_neg (Nat.not_lt.mpr hn)]
  refine ⟨_, mFenced_wait h (i := .chain n) (f := runChain n) hfence hword, fun a => ?_, ?_, ?_, ?_, ?_⟩
  · rw [waitsM_mem, chainSeen_mem, turned_mem]
  · rw [waitsM_lease, chainSeen_core, turned_core]; rfl
  · rw [waitsM_csr, chainSeen_core]; rfl
  · rw [waitsM_pc, chainSeen_core, turned_core]; rfl
  · rw [waitsM_cluster, chainSeen_cluster, turned_cluster]

theorem exec_chain_traps (hE : (iter s).csr.chainE = none) (hn : (iter s).lease.left < n.toNat) {w : Word} (hw : encode (.chain n) = some w) :
    exec (.chain n) s = .next (withDev s (enterTrap s.env s.dev s.env.unit .m pc 0x06 3 (BitVec.ofNat 64 (iter s).lease.left)
      (w.setWidth 64) 0)) := by
  refine mFenced_trap h (i := .chain n) (f := runChain n) hfence ?_
  rw [runChain_new ht hbusy hE, chainGoes]; dsimp only
  rw [turned_core]; dsimp only
  rw [hE]; dsimp only
  rw [if_pos hn, leaseTrap, turned_core, hw]
  rfl

/-! #### The word goes on with its end noted -/

variable {e : Dword} (hE : (iter s).csr.chainE = some e)
include hE

theorem exec_chain_ends (hend : e.toNat ≤ (iter s).csr.cstep.toNat) :
    ∃ u, exec (.chain n) s = .next u ∧ Claims.WentOn s u pc ∧ (iter u).lease.left = (iter s).lease.left ∧
      (iter u).csr.chainE = none ∧ (u.dev.cluster (s.env.unit / 8)).mq = (s.dev.cluster (s.env.unit / 8)).mq := by
  have hword : runChain n s.env (atM s pc) (foundM s) = .ok () (chainSeen s.env.unit none (noted s e)) := by
    rw [runChain_again ht hbusy hE (.inr (by omega)), chainGoes]; dsimp only
    rw [noted_core hE]; dsimp only
    rw [hE]; dsimp only
    rw [if_pos hend]
  refine ⟨_, mFenced_ok h (i := .chain n) (f := runChain n) hfence hword, wentOn_of (foundM_mem s) ?_, ?_, ?_, ?_⟩
  · rw [chainSeen_core, noted_core hE]; rfl
  · rw [wentOn_lease, chainSeen_core, noted_core hE]; rfl
  · rw [wentOn_csr, chainSeen_core]; rfl
  · rw [wentOn_cluster, chainSeen_cluster]; exact congrArg Cluster.mq (foundM_cluster ..)

variable (hnext : (iter s).csr.cstep.toNat < e.toNat)
  (hok : (iter s).chainOk = true ∨ e.toNat - (iter s).csr.cstep.toNat ≤ (iter s).lease.left)
  {r : ℕ} {core : Row} {st : ChainStep} (hr : Claims.StepRuns s r core st)
include hnext hok hr

omit hfence in
/-- CHAIN queues the record at CSTEPIDX, and goes on where it is the last. -/
theorem runChain_steps : ∃ d, Stepped s.env.unit st (noted s e) d ∧ runChain n s.env (atM s pc) (foundM s) =
    if e.toNat ≤ (iter s).csr.cstep.toNat + 1 then .ok () (chainSeen s.env.unit none d) else .wait Wait.idle d := by
  obtain ⟨d, hdone, hst⟩ := stepWord_runs (.chain n) h hr (noted_unchecked hE)
  refine ⟨d, hst, ?_⟩
  rw [runChain_again ht hbusy hE hok, chainGoes]; dsimp only
  rw [noted_core hE]; dsimp only
  rw [hE]; dsimp only
  rw [if_neg (Nat.not_le.mpr hnext), hdone]
  rfl

theorem exec_chain_last (hlast : e.toNat = (iter s).csr.cstep.toNat + 1) :
    ∃ u, Queued s pc (.chain n) u (.step st) ∧ (∀ y, st.emit = some y → (iter u).head = some y) ∧ (iter u).csr.chainE = none := by
  obtain ⟨d, hst, hword⟩ := runChain_steps (n := n) h ht hbusy hE hnext hok hr
  rw [if_pos hlast.le] at hword
  have hdone := mFenced_ok h (i := .chain n) (f := runChain n) hfence hword
  refine ⟨_, ((sentAs_stepped (noted_unchecked hE) hst).chainSeen none).queued hdone, ?_, ?_⟩
  · rw [wentOn_head, chainSeen_core]; exact stepped_head hst
  · rw [wentOn_csr, chainSeen_core]; rfl

theorem exec_chain_more (hmore : (iter s).csr.cstep.toNat + 1 < e.toNat) :
    ∃ u, exec (.chain n) s = .next u ∧ Took s u (.step st) ∧ (∀ y, st.emit = some y → (iter u).head = some y) ∧
      (iter u).csr.chainE = some e ∧ ((iter u).engine .m).pc = ((iter s).engine .m).pc := by
  obtain ⟨d, hst, hword⟩ := runChain_steps (n := n) h ht hbusy hE hnext hok hr
  rw [if_neg (Nat.not_le.mpr hmore)] at hword
  refine ⟨_, mFenced_wait h (i := .chain n) (f := runChain n) hfence hword, (sentAs_stepped (noted_unchecked hE) hst).waits, ?_, ?_, ?_⟩
  · rw [waitsM_head]; exact stepped_head hst
  · rw [waitsM_csr, stepped_csr (noted_unchecked hE) hst, hE]
  · rw [waitsM_pc, hst.core, noted_core hE]; rfl

end

/-- Settles O40: words that set the boundary's registers and reservation (`exec_bdset`, `exec_cord`, `exec_cbound`), commands by what their
checks and reads leave (`queued_sent`), a record by `stepWord_runs`, which CHAIN uses for reads that its own note does not
touch (`noted_unchecked`). -/
theorem chainWords : Obligations.ChainWords := by
  intro s pc x c k v n z t el d2 h ht b at_ took queued headed
  refine ⟨exec_bdset h ht, fun hbusy => ⟨exec_cord h ht hbusy c, fun hn hslots hsize => exec_cbound ht hbusy hslots hsize h hn,
    fun hfence => ⟨fun hleft => ⟨exec_cinit h ht hbusy hfence hleft, exec_cemit h ht hbusy hfence hleft,
      fun r core st => exec_cstep h ht hbusy hfence hleft⟩,
      fun hE => ⟨exec_chain_begins h ht hbusy hfence hE, fun hn w => exec_chain_traps h ht hbusy hfence hE hn⟩,
      fun e hE => ⟨exec_chain_ends h ht hbusy hfence hE, fun hnext hok r core st hr =>
        ⟨exec_chain_last h ht hbusy hfence hE hnext hok hr, exec_chain_more h ht hbusy hfence hE hnext hok hr⟩⟩⟩⟩⟩

end Sys2Proof.Machine
